-- ==== Sys2Proof/Word.lean ====
section
/-! DEFINITION. The word types of the KX4 model and their plainest arithmetic (R5, R7, R12). -/

namespace Sys2Proof

/-- A byte of memory, of the port store or of a descriptor. -/
abbrev Byte := BitVec 8
/-- A 16-bit word. -/
abbrev W16 := BitVec 16
/-- A 32-bit word: a stoker register, a lane of a vector register, a scalar register. -/
abbrev W32 := BitVec 32
/-- A 64-bit word: a register slot, a fence, a descriptor field. -/
abbrev W64 := BitVec 64
/-- A die of the package, D0 to D3 (R14). -/
abbrev DieId := Fin 4

end Sys2Proof
end

