-- ==== Sys2Proof/Syntax.lean ====
section
/-! DEFINITION. The commands of the KX4: one constructor of `Instr` per row of spec/opcode_table.json, in the table's order,
with the operands that the row's rule gives it. The operands that stand for what another agent supplies (the host's data, a
sink's answer, the results of a kernel's run) are said in the structures below. -/

namespace Sys2Proof

/-- A write burst of a host-port channel (R28, R29, R33): the bank whose open row gives the channel address, the column byte
offset, the data (32 or 64 bytes), the byte enables of a masked write (empty for a whole burst), and the DMI bits driven with the
burst, one for each byte (an empty list: DMI stays low). -/
structure HostWrite where
  bank : Fin 16
  col : Nat
  data : List Byte
  mask : List Bool
  dmi : List Bool
  deriving DecidableEq, Repr

/-- A read burst of a host-port channel (Table 2.1): BL16 is 32 bytes, BL32 is 64. -/
structure HostRead where
  bank : Fin 16
  col : Nat
  bl32 : Bool
  deriving DecidableEq, Repr

/-- Bank commands (R28). -/
inductive BankOp where
  | activate (row : BitVec 16)
  | precharge
  | prechargeAll
  deriving DecidableEq, Repr

/-- A thread group of a die, by the number the model gave it when its block was placed. -/
structure GRef where
  die : DieId
  gid : Nat
  deriving DecidableEq, Repr

/-- A transformed vertex: what the vertex kernel's lane left when it exited (R248): its draw, its vertex index, clip-space x, y, z,
w and the attributes. -/
structure VertexOut where
  draw : Nat
  index : Nat
  x : W32
  y : W32
  z : W32
  w : W32
  attrs : List W32
  deriving DecidableEq, Repr

/-- The header slot of a cord transaction (Table 14.4). -/
structure CordHdr where
  typ : BitVec 8
  cls : BitVec 3
  len : BitVec 4
  tag : BitVec 12
  status : BitVec 4
  addr : BitVec 40
  arg : BitVec 56
  deriving DecidableEq, Repr

/-- A flit as its 256 bytes stand at the receiver (Table 14.2). -/
structure Flit where
  seq : BitVec 12
  ack : BitVec 12
  nak : Bool
  idle : Bool
  credit : List (BitVec 4)
  payload : List (BitVec 128)
  crc : W64
  deriving DecidableEq, Repr

/-- A unit that asks the translation unit (R26). -/
inductive XUnit where
  | dma (channel : Fin 4)
  | cmp (engine : Fin 4)
  | geo
  | ret (second : Bool)
  | gen
  | eas
  | stoker (frame : Fin 32)
  | core (core : Fin 32)
  deriving DecidableEq, Repr

/-- A request to the translation unit: who asks, for which context and address, and whether to write. -/
structure XlReq where
  unit : XUnit
  ctx : W16
  va : W64
  write : Bool
  deriving DecidableEq, Repr

/-- The two parts of binning a chunk (R246, R248): its vertex groups are launched; with them ended, its primitives are binned. -/
inductive ChunkPart where
  | launch
  | finish
  deriving DecidableEq, Repr

/-- Engine messages of class C4 (Table 14.5, 0x30). -/
inductive EngineMsg where
  | passL (pass : W32) (ctx : W16) (lit : BitVec 4) (leader : DieId)
  | passAbort (pass : W32) (ctx : W16)
  | flushTo (pass : W32) (ctx : W16) (upto : Nat)
  | lampCopy
  | tableCopy
  | tagRead (piece : Nat)
  deriving DecidableEq, Repr

/-- Stages of a TSYNC exchange (R370). -/
inductive TsyncStep where
  | request
  | reply
  | result
  deriving DecidableEq, Repr

/-- How a DisplayPort sink answers an AUX transaction (Table 13.11). -/
inductive AuxReply where
  | ack (data : List Byte)
  | nack
  | defer
  | timeout
  deriving DecidableEq, Repr

/-- What an IRQ_HPD is raised for (Table 13.5, R349, R431). -/
inductive IrqReason where
  | statusOk
  | lostLock
  | phyTest (pattern : BitVec 5) (rate : BitVec 3) (lanes : BitVec 2)
  deriving DecidableEq, Repr

/-- The structures whose errors are DIE errors (Table 17.2). -/
inductive DieErrSource where
  | cacheTags (address : BitVec 40)
  | other (structureNo : Nat) (address : BitVec 40)
  deriving DecidableEq, Repr

/-- Start-up failures that the silicon finds (R391). -/
inductive SelfCheck where
  | pass
  | fail
  deriving DecidableEq, Repr

/-- The commands, one constructor per row of spec/opcode_table.json. -/
inductive Instr where
  /-- CHANNEL_RESET_FALL (R49). -/
  | channelResetFall (ch : DieId)
  /-- CHANNEL_RESET_RELEASE (R30). -/
  | channelResetRelease (ch : DieId)
  /-- COMMAND_BUS_TRAINING (R30). -/
  | commandBusTraining (ch : DieId) (pattern : W16)
  /-- WCK2CK_LEVELLING (R30). -/
  | wck2ckLevelling (ch : DieId) (phase : Byte)
  /-- READ_DQ_CALIBRATION (R30). -/
  | readDqCalibration (ch : DieId)
  /-- WRITE_TRAINING (R30). -/
  | writeTraining (ch : DieId) (data : List Byte)
  /-- MODE_REGISTER_WRITE (R32). -/
  | modeRegisterWrite (ch : DieId) (mr : Nat) (v : Byte)
  /-- VND_PARITY_WRITE (R33). -/
  | vndParityWrite (ch : DieId) (v : Byte)
  /-- VND_PRBS_WRITE (R430). -/
  | vndPrbsWrite (ch : DieId) (v : Byte)
  /-- MODE_REGISTER_READ (R31). -/
  | modeRegisterRead (ch : DieId) (mr : Nat)
  /-- BANK_COMMAND (R28). -/
  | bankCommand (ch : DieId) (bank : Fin 16) (op : BankOp)
  /-- REFRESH (R27). -/
  | refresh (ch : DieId) (allBank : Bool)
  /-- POWER_DOWN_ENTRY (R27). -/
  | powerDownEntry (ch : DieId) (deep : Bool)
  /-- POWER_DOWN_EXIT (R27). -/
  | powerDownExit (ch : DieId)
  /-- HOST_READ_BURST (R34). -/
  | hostReadBurst (ch : DieId) (b : HostRead)
  /-- APERTURE_WRITE (R45). -/
  | apertureWrite (ch : DieId) (b : HostWrite)
  /-- APERTURE_DRAIN (R46). -/
  | apertureDrain (d : DieId)
  /-- STAGING_WRITE (R34). -/
  | stagingWrite (ch : DieId) (b : HostWrite)
  /-- IGNORED_WRITE (R36). -/
  | ignoredWrite (ch : DieId) (b : HostWrite)
  /-- DOORBELL_WRITE (R74). -/
  | doorbellWrite (ch : DieId) (b : HostWrite)
  /-- DOORBELL_TAKES_EFFECT (R42). -/
  | doorbellTakesEffect (d : DieId)
  /-- REGISTER_SLOT_WRITE (R43). -/
  | registerSlotWrite (ch : DieId) (b : HostWrite)
  /-- CTL_HP_ERR_WRITE (R38). -/
  | ctlHpErrWrite (d : DieId) (v : W64)
  /-- RELAY_WRITE (R51). -/
  | relayWrite (b : HostWrite)
  /-- RELAY_FORWARD_APPLY (R51). -/
  | relayForwardApply (d : DieId)
  /-- RELAY_COPY_UPDATE (R41). -/
  | relayCopyUpdate (d : DieId)
  /-- RELAY_REFRESH (R53). -/
  | relayRefresh (d : DieId)
  /-- TEN_TABLE_WRITE (R59). -/
  | tenTableWrite (d : DieId) (v : W64)
  /-- CTX_TABLE_WRITE (R58). -/
  | ctxTableWrite (d : DieId) (v : W64)
  /-- OBJ_TABLE_WRITE (R58). -/
  | objTableWrite (d : DieId) (v : W64)
  /-- TENANT_ENABLE (R61). -/
  | tenantEnable (d : DieId) (t : Fin 16)
  /-- TENANT_UPDATE (R60). -/
  | tenantUpdate (d : DieId) (t : Fin 16)
  /-- TENANT_DISABLE (R61). -/
  | tenantDisable (d : DieId) (t : Fin 16)
  /-- TENANT_RESET (R416). -/
  | tenantReset (d : DieId) (t : Fin 16)
  /-- TENANT_RESET_REPORT (R416). -/
  | tenantResetReport (d : DieId) (t : Fin 16)
  /-- TEN_STAGE (R62). -/
  | tenStage (d : DieId) (piece : BitVec 7) (t : Fin 16)
  /-- STAGE_CLEAR_DONE (R62). -/
  | stageClearDone (d : DieId) (piece : BitVec 7)
  /-- CONTEXT_CREATE (R65). -/
  | contextCreate (d : DieId) (c : W16)
  /-- CONTEXT_DESTROY (R67). -/
  | contextDestroy (d : DieId) (c : W16)
  /-- CONTEXT_DESTROY_DONE (R67). -/
  | contextDestroyDone (c : W16)
  /-- CONTEXT_QUERY (R57). -/
  | contextQuery (d : DieId) (c : W16)
  /-- CLEAR_FAULT (R66). -/
  | clearFault (d : DieId) (c : W16)
  /-- OBJECT_CREATE (R68). -/
  | objectCreate (d : DieId) (h : W32)
  /-- OBJECT_FREE (R69). -/
  | objectFree (d : DieId) (h : W32)
  /-- OBJECT_QUERY (R57). -/
  | objectQuery (d : DieId) (h : W32)
  /-- OBJECT_ENTRY_WRITEBACK (R69). -/
  | objectEntryWriteback (index : BitVec 20)
  /-- QUEUE_CREATE (R78). -/
  | queueCreate (d : DieId) (q : BitVec 12) (engine : BitVec 4) (header : BitVec 28)
  /-- QUEUE_DESTROY (R77). -/
  | queueDestroy (d : DieId) (q : BitVec 12)
  /-- QUEUE_QUERY (R78). -/
  | queueQuery (d : DieId) (q : BitVec 12)
  /-- QUEUE_RESUME (R76). -/
  | queueResume (d : DieId) (q : BitVec 12)
  /-- RECORD_FETCH (R87). -/
  | recordFetch (d : DieId) (q : BitVec 12)
  /-- RECORD_HANDOUT (R86). -/
  | recordHandout (d : DieId)
  /-- RECORD_RETIRE (R106). -/
  | recordRetire (d : DieId) (q : BitVec 12) (count : W32)
  /-- FENCE_SIGNAL (R81). -/
  | fenceSignal (id : Nat)
  /-- WAIT_SATISFIED (R80). -/
  | waitSatisfied (d : DieId) (f : Fin 32)
  /-- WAIT_TIMEOUT (R83). -/
  | waitTimeout (d : DieId) (f : Fin 32)
  /-- CONTACT_SHEET_REWRITE (R85). -/
  | contactSheetRewrite (d : DieId)
  /-- SLICE_END (R89). -/
  | sliceEnd (d : DieId) (st : Fin 8)
  /-- FRAMES_FULL (R90). -/
  | framesFull (d : DieId)
  /-- RV32_INSTRUCTION (R91). -/
  | rv32Instruction (d : DieId) (f : Fin 32)
  /-- K_WAITGE (R96). -/
  | kWaitge (d : DieId) (f : Fin 32)
  /-- K_SIGMAX (R97). -/
  | kSigmax (d : DieId) (f : Fin 32)
  /-- K_LAUNCH (R95). -/
  | kLaunch (d : DieId) (f : Fin 32)
  /-- K_DMA (R94). -/
  | kDma (d : DieId) (f : Fin 32)
  /-- K_BIN (R236). -/
  | kBin (d : DieId) (f : Fin 32)
  /-- K_STEP (R275). -/
  | kStep (d : DieId) (f : Fin 32)
  /-- K_PREFETCH (R293). -/
  | kPrefetch (d : DieId) (f : Fin 32)
  /-- K_ADVISE (R293). -/
  | kAdvise (d : DieId) (f : Fin 32)
  /-- K_YIELD (R89). -/
  | kYield (d : DieId) (f : Fin 32)
  /-- K_TIME (R104). -/
  | kTime (d : DieId) (f : Fin 32)
  /-- K_COMMIT (R112). -/
  | kCommit (d : DieId) (f : Fin 32)
  /-- K_WINDOW (R105). -/
  | kWindow (d : DieId) (f : Fin 32)
  /-- K_GRAPH (R109). -/
  | kGraph (d : DieId) (f : Fin 32)
  /-- GRAPH_NODE (R109). -/
  | graphNode (d : DieId) (f : Fin 32)
  /-- K_END (R106). -/
  | kEnd (d : DieId) (f : Fin 32)
  /-- SUBMISSION_ACCEPT (R100). -/
  | submissionAccept (d : DieId) (engine : Fin 13)
  /-- COMMIT_ARRIVAL (R112). -/
  | commitArrival (d : DieId) (f : Fin 32)
  /-- COMMIT_ACKNOWLEDGE (R112). -/
  | commitAcknowledge (id : Nat) (d : DieId)
  /-- COMMIT_DECIDE (R112). -/
  | commitDecide (id : Nat)
  /-- COMMIT_DECISION_RECEIVE (R113). -/
  | commitDecisionReceive (id : Nat) (d : DieId)
  /-- COMMIT_DEADLINE (R113). -/
  | commitDeadline (id : Nat) (d : DieId)
  /-- STOKER_ROTATE (R115). -/
  | stokerRotate (d : DieId) (st : Fin 8) (started : SelfCheck)
  /-- BLOCK_PLACE (R121). -/
  | blockPlace (d : DieId) (cmp : Fin 4)
  /-- CONTEXT_LOAD (R124). -/
  | contextLoad (d : DieId) (c : W16)
  /-- CONTEXT_LOAD_DONE (R130). -/
  | contextLoadDone (d : DieId) (slot : Fin 48)
  /-- STOP_BATH (R125). -/
  | stopBath (d : DieId) (slot : Fin 48)
  /-- STOP_BATH_DONE (R125). -/
  | stopBathDone (d : DieId) (slot : Fin 48)
  /-- SAVE_DONE (R127). -/
  | saveDone (d : DieId) (slot : Fin 48)
  /-- SLOT_STARVED (R132). -/
  | slotStarved (d : DieId)
  /-- AUTO_EVICT_DECISION (R133). -/
  | autoEvictDecision (d : DieId)
  /-- RES_LOAD (R135). -/
  | resLoad (d : DieId) (target : DieId) (c : W16)
  /-- RES_EVICT (R135). -/
  | resEvict (d : DieId) (target : DieId) (c : W16)
  /-- RES_QUERY (R135). -/
  | resQuery (d : DieId) (target : DieId) (c : W16)
  /-- CLUSTER_DRAIN_TIMEOUT (R136). -/
  | clusterDrainTimeout (d : DieId) (cl : Fin 8)
  /-- QUARTER_PREEMPT (R122). -/
  | quarterPreempt (d : DieId) (core : Fin 32) (quarter : Fin 4)
  /-- ACTIVE_SET_ROTATE (R147). -/
  | activeSetRotate (d : DieId) (core : Fin 32) (quarter : Fin 4)
  /-- PATH_ROTATE (R152). -/
  | pathRotate (g : GRef)
  /-- BARRIER_ORPHAN (R156). -/
  | barrierOrphan (d : DieId) (block : Nat)
  /-- SLEEP_END (R233). -/
  | sleepEnd (g : GRef)
  /-- NEAR_CACHE_FILL (R160). -/
  | nearCacheFill (d : DieId) (core : Fin 32) (line : BitVec 33)
  /-- VCNT_DECREMENT (R157). -/
  | vcntDecrement (g : GRef)
  /-- SCNT_DECREMENT (R157). -/
  | scntDecrement (g : GRef)
  /-- TCNT_DECREMENT (R157). -/
  | tcntDecrement (g : GRef)
  /-- MCNT_DECREMENT (R157). -/
  | mcntDecrement (g : GRef)
  /-- ADD_F32 (R181). -/
  | addF32 (g : GRef) (w ext : W64)
  /-- SUB_F32 (R181). -/
  | subF32 (g : GRef) (w ext : W64)
  /-- MUL_F32 (R181). -/
  | mulF32 (g : GRef) (w ext : W64)
  /-- FMA_F32 (R181). -/
  | fmaF32 (g : GRef) (w ext : W64)
  /-- MIN_F32 (R182). -/
  | minF32 (g : GRef) (w ext : W64)
  /-- MAX_F32 (R182). -/
  | maxF32 (g : GRef) (w ext : W64)
  /-- FLOOR_F32 (R171). -/
  | floorF32 (g : GRef) (w ext : W64)
  /-- CEIL_F32 (R171). -/
  | ceilF32 (g : GRef) (w ext : W64)
  /-- TRUNC_F32 (R171). -/
  | truncF32 (g : GRef) (w ext : W64)
  /-- SET_F32 (R182). -/
  | setF32 (g : GRef) (w ext : W64)
  /-- ADD (R183). -/
  | add (g : GRef) (w ext : W64)
  /-- SUB (R183). -/
  | sub (g : GRef) (w ext : W64)
  /-- MUL (R183). -/
  | mul (g : GRef) (w ext : W64)
  /-- MAD (R183). -/
  | mad (g : GRef) (w ext : W64)
  /-- MULHI (R183). -/
  | mulhi (g : GRef) (w ext : W64)
  /-- MIN_MAX_INT (R183). -/
  | minMaxInt (g : GRef) (w ext : W64)
  /-- AND (R183). -/
  | and (g : GRef) (w ext : W64)
  /-- OR (R183). -/
  | or (g : GRef) (w ext : W64)
  /-- XOR (R183). -/
  | xor (g : GRef) (w ext : W64)
  /-- NOT (R183). -/
  | not (g : GRef) (w ext : W64)
  /-- SHL (R183). -/
  | shl (g : GRef) (w ext : W64)
  /-- SHR (R183). -/
  | shr (g : GRef) (w ext : W64)
  /-- ROTL (R183). -/
  | rotl (g : GRef) (w ext : W64)
  /-- POPC (R183). -/
  | popc (g : GRef) (w ext : W64)
  /-- CLZ (R183). -/
  | clz (g : GRef) (w ext : W64)
  /-- BFE_U32 (R183). -/
  | bfeU32 (g : GRef) (w ext : W64)
  /-- SEL (R207). -/
  | sel (g : GRef) (w ext : W64)
  /-- MOV (R207). -/
  | mov (g : GRef) (w ext : W64)
  /-- SHFL (R214). -/
  | shfl (g : GRef) (w ext : W64)
  /-- RDLANE (R214). -/
  | rdlane (g : GRef) (w ext : W64)
  /-- SET_INT (R183). -/
  | setInt (g : GRef) (w ext : W64)
  /-- SCALAR_ALU (R212). -/
  | scalarAlu (g : GRef) (w ext : W64)
  /-- SADD64 (R212). -/
  | sadd64 (g : GRef) (w ext : W64)
  /-- SSUB64 (R212). -/
  | ssub64 (g : GRef) (w ext : W64)
  /-- PAND (R212). -/
  | pand (g : GRef) (w ext : W64)
  /-- POR (R212). -/
  | por (g : GRef) (w ext : W64)
  /-- PXOR (R212). -/
  | pxor (g : GRef) (w ext : W64)
  /-- PNOT (R212). -/
  | pnot (g : GRef) (w ext : W64)
  /-- BALLOT (R212). -/
  | ballot (g : GRef) (w ext : W64)
  /-- S2P (R212). -/
  | s2p (g : GRef) (w ext : W64)
  /-- RDEXEC (R208). -/
  | rdexec (g : GRef) (w ext : W64)
  /-- WREXEC (R208). -/
  | wrexec (g : GRef) (w ext : W64)
  /-- CVT (R215). -/
  | cvt (g : GRef) (w ext : W64)
  /-- MXQ (R216). -/
  | mxq (g : GRef) (w ext : W64)
  /-- MXDQ (R217). -/
  | mxdq (g : GRef) (w ext : W64)
  /-- RCP (R218). -/
  | rcp (g : GRef) (w ext : W64)
  /-- RSQRT (R218). -/
  | rsqrt (g : GRef) (w ext : W64)
  /-- SQRT (R218). -/
  | sqrt (g : GRef) (w ext : W64)
  /-- EXP2 (R218). -/
  | exp2 (g : GRef) (w ext : W64)
  /-- LOG2 (R218). -/
  | log2 (g : GRef) (w ext : W64)
  /-- SIN (R218). -/
  | sin (g : GRef) (w ext : W64)
  /-- COS (R218). -/
  | cos (g : GRef) (w ext : W64)
  /-- DIV (R218). -/
  | div (g : GRef) (w ext : W64)
  /-- LD (R219). -/
  | ld (g : GRef) (w ext : W64)
  /-- ST (R219). -/
  | st (g : GRef) (w ext : W64)
  /-- SLD (R219). -/
  | sld (g : GRef) (w ext : W64)
  /-- SST (R219). -/
  | sst (g : GRef) (w ext : W64)
  /-- TLD (R223). -/
  | tld (g : GRef) (w ext : W64)
  /-- TST (R223). -/
  | tst (g : GRef) (w ext : W64)
  /-- TATOM_INT (R223). -/
  | tatomInt (g : GRef) (w ext : W64)
  /-- TATOM_EXCH (R223). -/
  | tatomExch (g : GRef) (w ext : W64)
  /-- TATOM_CAS (R223). -/
  | tatomCas (g : GRef) (w ext : W64)
  /-- TATOM_ADD_F32 (R223). -/
  | tatomAddF32 (g : GRef) (w ext : W64)
  /-- TEX (R224). -/
  | tex (g : GRef) (w ext : W64)
  /-- TEXLD (R224). -/
  | texld (g : GRef) (w ext : W64)
  /-- TEXST (R265). -/
  | texst (g : GRef) (w ext : W64)
  /-- TEXQ (R224). -/
  | texq (g : GRef) (w ext : W64)
  /-- MMA (R226). -/
  | mma (g : GRef) (w ext : W64)
  /-- ATOM_ADD (R229). -/
  | atomAdd (g : GRef) (w ext : W64)
  /-- ATOM_ADD_F32 (R194). -/
  | atomAddF32 (g : GRef) (w ext : W64)
  /-- ATOM_MIN_MAX (R229). -/
  | atomMinMax (g : GRef) (w ext : W64)
  /-- ATOM_LOGIC (R229). -/
  | atomLogic (g : GRef) (w ext : W64)
  /-- ATOM_EXCH (R229). -/
  | atomExch (g : GRef) (w ext : W64)
  /-- ATOM_CAS (R229). -/
  | atomCas (g : GRef) (w ext : W64)
  /-- BR (R231). -/
  | br (g : GRef) (w ext : W64)
  /-- CALL (R232). -/
  | call (g : GRef) (w ext : W64)
  /-- RET (R232). -/
  | ret (g : GRef) (w ext : W64)
  /-- EXIT (R232). -/
  | exit (g : GRef) (w ext : W64)
  /-- BAR (R154). -/
  | bar (g : GRef) (w ext : W64)
  /-- WAIT (R157). -/
  | wait (g : GRef) (w ext : W64)
  /-- SLEEP (R233). -/
  | sleep (g : GRef) (w ext : W64)
  /-- INV_NEAR (R165). -/
  | invNear (g : GRef) (w ext : W64)
  /-- RDFLAGS (R234). -/
  | rdflags (g : GRef) (w ext : W64)
  /-- CLRFLAGS (R234). -/
  | clrflags (g : GRef) (w ext : W64)
  /-- RDTIME (R232). -/
  | rdtime (g : GRef) (w ext : W64)
  /-- NOP (R207). -/
  | nop (g : GRef) (w ext : W64)
  /-- BIN_ACCEPT (R237). -/
  | binAccept (d : DieId)
  /-- PASS_JOIN (R239). -/
  | passJoin (leader : DieId) (pass : W32)
  /-- PASS_JOIN_WAIT (R239). -/
  | passJoinWait (leader : DieId) (pass : W32)
  /-- PASS_ABORT (R241). -/
  | passAbort (d : DieId) (pass : W32)
  /-- CHUNK_BIN (R246, R248). -/
  | chunkBin (d : DieId) (pass : W32) (chunk : Nat) (part : ChunkPart)
  /-- BIN (R251). -/
  | bin (src dst : DieId) (pass : W32)
  /-- BIN_MARK (R252). -/
  | binMark (src dst : DieId) (pass : W32)
  /-- BIN_FLUSH (R253). -/
  | binFlush (leader : DieId) (pass : W32)
  /-- TILE_RENDER (R256). -/
  | tileRender (d : DieId) (pass : W32) (tile : Nat)
  /-- PASS_REPORT (R242). -/
  | passReport (d : DieId) (pass : W32)
  /-- PASS_END (R242). -/
  | passEnd (d : DieId) (pass : W32)
  /-- GEN_SEQ_TABLE_WRITE (R270). -/
  | genSeqTableWrite (d : DieId) (v : W64)
  /-- GEN_MODEL_TABLE_WRITE (R270). -/
  | genModelTableWrite (d : DieId) (v : W64)
  /-- MODEL_LOAD (R272). -/
  | modelLoad (d : DieId) (m : BitVec 10)
  /-- MODEL_UNLOAD (R274). -/
  | modelUnload (d : DieId) (m : BitVec 10)
  /-- MODEL_QUERY (R274). -/
  | modelQuery (d : DieId) (m : BitVec 10)
  /-- SEQ_LOAD (R272). -/
  | seqLoad (d : DieId) (i : BitVec 10)
  /-- SEQ_RETIRE (R274). -/
  | seqRetire (d : DieId) (i : BitVec 10)
  /-- SEQ_READY (R273). -/
  | seqReady (d : DieId) (i : BitVec 10)
  /-- SEQ_PARK (R273). -/
  | seqPark (d : DieId) (i : BitVec 10)
  /-- SEQ_QUERY (R274). -/
  | seqQuery (d : DieId) (i : BitVec 10)
  /-- SEQ_FORGET (R274). -/
  | seqForget (d : DieId) (i : BitVec 10)
  /-- STEP_OPEN (R278). -/
  | stepOpen (d : DieId)
  /-- STEP_CLOSE (R280). -/
  | stepClose (d : DieId)
  /-- STEP_READY (R273). -/
  | stepReady (d : DieId)
  /-- STEP_PARK (R273). -/
  | stepPark (d : DieId)
  /-- GEN_ENTRY_WRITEBACK (R271). -/
  | genEntryWriteback (d : DieId) (model : Bool) (i : BitVec 10)
  /-- ROW_RETIRE (R291). -/
  | rowRetire (d : DieId) (row : BitVec 19)
  /-- ROW_RETIRE_DONE (R291). -/
  | rowRetireDone (d : DieId)
  /-- TRANSLATION_WALK (R26, R299): the requests of one cycle, those of engines, of stokers and of cores. -/
  | translationWalk (d : DieId) (engines stokers cores : List XlReq)
  /-- XLATE_FAULT_MERGED (R303). -/
  | xlateFaultMerged (d : DieId) (c : W16) (page : Nat)
  /-- INV_CONTEXT (R300). -/
  | invContext (d : DieId) (c : W16)
  /-- INV_GIB (R300). -/
  | invGib (d : DieId) (c : W16) (gib : BitVec 18)
  /-- INV_ALL (R300). -/
  | invAll (d : DieId)
  /-- DMA_SHADOW_LOAD (R304). -/
  | dmaShadowLoad (d : DieId) (ch : Fin 16)
  /-- DMA_ACTIVATE (R304). -/
  | dmaActivate (d : DieId) (ch : Fin 16)
  /-- DMA_BURST (R310). -/
  | dmaBurst (d : DieId) (ch : Fin 16)
  /-- DMA_FINISH (R311). -/
  | dmaFinish (d : DieId) (ch : Fin 16)
  /-- DMA_STOP (R311). -/
  | dmaStop (d : DieId) (ch : Fin 16)
  /-- SOURCE_ABORTED (R312). -/
  | sourceAborted (d : DieId) (line : BitVec 8)
  /-- DMA_REQ_RAISE (R310). -/
  | dmaReqRaise (d : DieId) (mask : Byte)
  /-- DMA_REQ_CLEAR (R310). -/
  | dmaReqClear (d : DieId) (mask : Byte)
  /-- RET_JOB_START (R314). -/
  | retJobStart (d : DieId) (e : Fin 2)
  /-- RET_REQUEST_RAISE (R316). -/
  | retRequestRaise (d : DieId) (e : Fin 2) (output : Bool)
  /-- RET_BLOCK_ENCODE (R328). -/
  | retBlockEncode (d : DieId) (e : Fin 2)
  /-- RET_BLOCK_DECODE (R330). -/
  | retBlockDecode (d : DieId) (e : Fin 2)
  /-- RET_JOB_DONE (R332). -/
  | retJobDone (d : DieId) (e : Fin 2)
  /-- RET_JOB_STOP (R331). -/
  | retJobStop (d : DieId) (e : Fin 2)
  /-- RET_STALL (R331). -/
  | retStall (d : DieId) (e : Fin 2)
  /-- FLIP_ACCEPT (R335). -/
  | flipAccept (d : DieId)
  /-- FLIP_DECISION (R336). -/
  | flipDecision (d : DieId)
  /-- FLIP_GROUP_DECISION (R338). -/
  | flipGroupDecision (leader : DieId)
  /-- FLIP_GROUP_SPLIT (R338). -/
  | flipGroupSplit (d : DieId)
  /-- FLIP_GROUP_WAIT (R338). -/
  | flipGroupWait (d : DieId)
  /-- LATCH_POINT (R336). -/
  | latchPoint (d : DieId)
  /-- FIRST_ACTIVE_LINE (R337). -/
  | firstActiveLine (d : DieId)
  /-- LINE_COMPOSE (R341). -/
  | lineCompose (d : DieId) (y : Nat) (late : List (Nat × Nat))
  /-- HPD_PLUG (R349). -/
  | hpdPlug (d : DieId)
  /-- HPD_UNPLUG (R349). -/
  | hpdUnplug (d : DieId)
  /-- IRQ_HPD (R349). -/
  | irqHpd (d : DieId) (why : IrqReason)
  /-- DP_LINK_TRAIN (R348). -/
  | dpLinkTrain (d : DieId) (sinkRates : BitVec 6) (sinkLanes : BitVec 2) (ok : Bool)
  /-- EAS_CTL_WRITE (R351). -/
  | easCtlWrite (d : DieId) (v : W64)
  /-- RETRAIN (R348). -/
  | retrain (d : DieId)
  /-- EAS_TIMING_WRITE (R351). -/
  | easTimingWrite (d : DieId) (reg : Fin 3) (v : W64)
  /-- AUX_NATIVE_WRITE (R347). -/
  | auxNativeWrite (d : DieId) (addr : BitVec 20) (len : BitVec 5) (mot : Bool)
  /-- AUX_NATIVE_READ (R347). -/
  | auxNativeRead (d : DieId) (addr : BitVec 20) (len : BitVec 5) (mot : Bool)
  /-- AUX_I2C_WRITE (R347). -/
  | auxI2cWrite (d : DieId) (addr : BitVec 20) (len : BitVec 5) (mot : Bool)
  /-- AUX_I2C_READ (R347). -/
  | auxI2cRead (d : DieId) (addr : BitVec 20) (len : BitVec 5) (mot : Bool)
  /-- AUX_COMPLETE (R347). -/
  | auxComplete (d : DieId) (reply : AuxReply)
  /-- CORD_TRAIN (R353). -/
  | cordTrain (a b : DieId)
  /-- CORD_TRAIN_DONE (R354). -/
  | cordTrainDone (a b : DieId) (failed : BitVec 64)
  /-- CORD_RETRAIN (R353). -/
  | cordRetrain (d : DieId) (e : Fin 3)
  /-- FLIT_TRANSMIT (R357). -/
  | flitTransmit (d : DieId) (e : Fin 3)
  /-- FLIT_RECEIVE (R357). -/
  | flitReceive (d : DieId) (e : Fin 3) (flit : Flit)
  /-- FLIT_ACK_TIMEOUT (R357). -/
  | flitAckTimeout (d : DieId) (e : Fin 3)
  /-- RD (R288). -/
  | rd (d : DieId) (e : Fin 3) (h : CordHdr) (data : List Byte)
  /-- WR (R288). -/
  | wr (d : DieId) (e : Fin 3) (h : CordHdr) (data : List Byte)
  /-- WRP (R309). -/
  | wrp (d : DieId) (e : Fin 3) (h : CordHdr) (data : List Byte)
  /-- ATOM (R292). -/
  | atom (d : DieId) (e : Fin 3) (h : CordHdr) (data : List Byte)
  /-- SIG (R81). -/
  | sig (d : DieId) (e : Fin 3) (h : CordHdr) (data : List Byte)
  /-- DRW (R46). -/
  | drw (d : DieId) (e : Fin 3) (h : CordHdr) (data : List Byte)
  /-- DRWP (R46). -/
  | drwp (d : DieId) (e : Fin 3) (h : CordHdr) (data : List Byte)
  /-- SRD (R362). -/
  | srd (d : DieId) (e : Fin 3) (h : CordHdr) (data : List Byte)
  /-- SWRP (R362). -/
  | swrp (d : DieId) (e : Fin 3) (h : CordHdr) (data : List Byte)
  /-- RD_RSP (R363). -/
  | rdRsp (d : DieId) (e : Fin 3) (h : CordHdr) (data : List Byte)
  /-- WR_ACK (R363). -/
  | wrAck (d : DieId) (e : Fin 3) (h : CordHdr) (data : List Byte)
  /-- ATOM_RSP (R363). -/
  | atomRsp (d : DieId) (e : Fin 3) (h : CordHdr) (data : List Byte)
  /-- SIG_ACK (R97). -/
  | sigAck (d : DieId) (e : Fin 3) (h : CordHdr) (data : List Byte)
  /-- MSG (R361). -/
  | msg (src dst : DieId) (m : EngineMsg)
  /-- NEG (R367). -/
  | neg (d : DieId)
  /-- TSYNC (R370). -/
  | tsync (d : DieId) (step : TsyncStep) (stamp : W64) (replayed : Bool)
  /-- TRANSACTION_TIMEOUT (R364). -/
  | transactionTimeout (d : DieId) (e : Fin 3) (tag : BitVec 12) (typ : Byte)
  /-- AGREEMENT_CHECK (R367). -/
  | agreementCheck
  /-- AGREEMENT_NO_ANSWER (R367). -/
  | agreementNoAnswer (d : DieId)
  /-- STATE_RELOAD (R369). -/
  | stateReload (d : DieId)
  /-- STATE_RELOAD_DONE (R369). -/
  | stateReloadDone (d : DieId)
  /-- TIME_EXCHANGE (R370). -/
  | timeExchange
  /-- TIME_LOST (R373). -/
  | timeLost (d : DieId)
  /-- LAMP_ENVELOPE_WRITE (R377). -/
  | lampEnvelopeWrite (d : DieId) (v : W64)
  /-- LAMP_ORDER_WRITE (R378). -/
  | lampOrderWrite (d : DieId) (v : W64)
  /-- LAMP_MASK_WRITE (R378). -/
  | lampMaskWrite (d : DieId) (n : DieId) (v : W64)
  /-- DOMAIN_TRANSITION (R379). -/
  | domainTransition (d : DieId)
  /-- DOMAIN_TRANSITION_DONE (R379). -/
  | domainTransitionDone (d : DieId)
  /-- SENSOR_READ (R381). -/
  | sensorRead (d : DieId) (temps : List (BitVec 12))
  /-- THERM_CAP (R381). -/
  | thermCap (d : DieId)
  /-- THERM_RESTORE (R381). -/
  | thermRestore (d : DieId)
  /-- PPS_EDGE (R385). -/
  | ppsEdge (falling : Bool)
  /-- SLEW_END (R385). -/
  | slewEnd
  /-- TIME_FREE_RUN (R386). -/
  | timeFreeRun
  /-- EPOCH_START (R387). -/
  | epochStart (d : DieId)
  /-- TIME_PERIOD_WRITE (R388). -/
  | timePeriodWrite (d : DieId) (v : W64)
  /-- RESET_RELEASE (R440). -/
  | resetRelease
  /-- POWER_OK_ASSERT (R390). -/
  | powerOkAssert (rom : List SelfCheck)
  /-- KINDLING_OTP (R394). -/
  | kindlingOtp (d : DieId)
  /-- STARTUP_DRAM_TRAIN (R390). -/
  | startupDramTrain (d : DieId) (trained : SelfCheck)
  /-- SEC_LOAD (R401). -/
  | secLoad (d : DieId)
  /-- IMAGE_COPY (R401). -/
  | imageCopy (d : DieId)
  /-- STARTUP_KILN (R408). -/
  | startupKiln (d : DieId) (failed : List (Nat × Nat × Nat))
  /-- STARTUP_WAIT_TIMEOUT (R392). -/
  | startupWaitTimeout
  /-- FIRMWARE_START (R390). -/
  | firmwareStart (d : DieId)
  /-- SEC_TOKEN (R408). -/
  | secToken (d : DieId)
  /-- SEC_ATTEST (R407). -/
  | secAttest (d : DieId)
  /-- SEC_ROTATE (R403). -/
  | secRotate (d : DieId)
  /-- OTP_BURN (R397). -/
  | otpBurn (d : DieId)
  /-- BURN_DONE (R398). -/
  | burnDone (d : DieId) (readBack : SelfCheck)
  /-- OTP_RAISE_FLOOR (R405). -/
  | otpRaiseFloor (d : DieId) (f : BitVec 7)
  /-- DIE_ERROR (R412). -/
  | dieError (d : DieId) (what : DieErrSource)
  /-- STOKER_FIRMWARE_PARITY (R414). -/
  | stokerFirmwareParity (d : DieId) (st : Fin 8)
  /-- STOKER_FIRMWARE_RELOAD (R414). -/
  | stokerFirmwareReload (d : DieId) (st : Fin 8)
  /-- LOG_SUPPRESSED (R420). -/
  | logSuppressed (d : DieId)
  /-- LOG_MARK (R421). -/
  | logMark (d : DieId) (v : W64)
  /-- KILN_RUN (R425). -/
  | kilnRun (d : DieId) (domains : BitVec 11) (token : Bool)
  /-- KILN_DOMAIN_TEST (R423). -/
  | kilnDomainTest (d : DieId) (segments march : Nat)
  /-- KILN_TOKEN_WRITE (R427). -/
  | kilnTokenWrite (d : DieId)
  /-- KILN_LINK_WRITE (R429). -/
  | kilnLinkWrite (d : DieId) (e : Fin 3) (v : W64)
  /-- KILN_DP_WRITE (R431). -/
  | kilnDpWrite (d : DieId) (v : W64)
  /-- KILN_DRAM_RUN (R432). -/
  | kilnDramRun (d : DieId) (pattern : BitVec 3) (passes : Byte)
  /-- KILN_DRAM_PASS (R432). -/
  | kilnDramPass (d : DieId) (errors : List (Nat × Nat))
  /-- TAP_RESET (R433). -/
  | tapReset
  /-- EXTEST (R433). -/
  | extest (d : DieId)
  /-- SAMPLE_PRELOAD (R433). -/
  | samplePreload (d : DieId) (cells : List Bool)
  /-- CLAMP (R433). -/
  | clamp (d : DieId)
  /-- HIGHZ (R433). -/
  | highz (d : DieId)
  /-- BYPASS (R433). -/
  | bypass (d : DieId) (code : Byte)
  /-- PRODUCTION_SCAN (R433). -/
  | productionScan (d : DieId) (code : Byte)
  /-- RESET_ASSERT (R441). -/
  | resetAssert (lowNs : Nat) (taken : Bool)
  /-- VIN_DROP (R441). -/
  | vinDrop (mv : Nat)
  /-- MG_TRANSFER (R446). -/
  | mgTransfer (offset : Byte) (written : List Byte) (n : Nat)
  /-- MG_SNAPSHOT_REFRESH (R446). -/
  | mgSnapshotRefresh (vinMv : W16) (vinCa : W16) (power : W16)
  /-- SETDASA (R445). -/
  | setdasa (addr : BitVec 7)
  /-- ENTDAA (R445). -/
  | entdaa (addr : BitVec 7)
  /-- RSTDAA (R445). -/
  | rstdaa
  /-- GETPID (R445). -/
  | getpid
  /-- GETBCR (R445). -/
  | getbcr
  /-- GETDCR (R445). -/
  | getdcr
  /-- GETSTATUS (R445). -/
  | getstatus
  /-- VIN_ENTERS_RANGE (R441). -/
  | vinEntersRange (mv : Nat)
  /-- CHECKER_LOCK (R428). -/
  | checkerLock (d : DieId) (e : Fin 3) (lane : BitVec 7) (bits : List Bool)
  /-- CHECKER_LOSES_LOCK (R428). -/
  | checkerLosesLock (d : DieId) (e : Fin 3) (lane : BitVec 7) (bits : List Bool)
  deriving DecidableEq, Repr

end Sys2Proof
end

