-- ==== Sys2Proof/Decode.lean ====
section
/-! DEFINITION. The command that a word spells. No row of spec/opcode_table.json gives fields or bits, so no word spells a
command: the KX4's commands are events of its ports, registers and units and carry no encoding of their own (log 7). -/

namespace Sys2Proof

/-- The command an encoding of `nbits` bits spells: none, since the table gives no row any bits. -/
def decodeTableWord (nbits w : Nat) : Option Instr :=
  match nbits, w with
  | _, _ => none

end Sys2Proof
end

