-- ==== Sys2Proof/Config.lean ====
section
/-! DEFINITION. What the spec leaves open, as constants without a body, and what an implementation fixes: the free values, the
vendor keys of kindling's ROM, and the published standards that the spec names and does not restate. -/

namespace Sys2Proof.Config

/-- A parity error of an on-die structure (R289, R411): a DRAM chunk of the die and whether the reread fails too; a line of the die cache; a
line of a core's near cache; an entry of the translation cache; the registers or the tile memory of a group; the tile memory of a pass in
blend or resolve; a frame's region; a byte of the staging pieces; an entry of the copy of table 0 (tenants), 1 (contexts) or 2 (objects). -/
inductive Upset where
  | chunk (c : Nat) (lost : Bool)
  | cacheLine (line : Nat)
  | nearLine (core line : Nat)
  | xlEntry (i : Nat)
  | regFile (group : Nat)
  | tileMem (group : Nat)
  | tilePass (sub : Nat)
  | region (frame : Nat)
  | staging (off : Nat)
  | tableCopy (table entry : Nat)
  deriving DecidableEq, Repr

/-- The parity error that a nanosecond brings to a die, where it brings one: by the time and the die (R411; log 34). -/
opaque upset : Nat → Nat → Option Upset
/-- Free bits: the choice at occasion `n`, place `i` (log 4). -/
opaque freeBool : Nat → Nat → Bool
/-- Free words: the value at occasion `n`, place `i` (log 4). -/
opaque freeW32 : Nat → Nat → W32
/-- Free bytes: the value at occasion `n`, place `i` (log 4). -/
opaque freeByte : Nat → Nat → Byte
/-- The bytes of a save area's die record and of the group records in it, whose format is the device's own (R127). -/
opaque recordByte : Nat → Nat → Byte
/-- The bytes of a context descriptor's DEVICE area, whose layout is the device's own (R119): by the residency states it holds and byte. -/
opaque deviceByte : Nat → Nat → Byte
/-- The lane whose value a scalar instruction takes for an operand that differs by lane, by the group's width (log 4): one for all
occasions, since strict results do not depend on the occasion (R2). -/
opaque scalarLane : Nat → Nat
/-- What each transcendental answers in fast or strict mode where its rule bounds the error only (R184, R185): operation,
strict, operand bits. The model takes it where it lies within the bound. -/
opaque special : Nat → Bool → W32 → W32
/-- Code lengths that the encoder gives a dynamic table from its symbol counts (R328, R329). The model takes them where they
are valid under R322. -/
opaque dynLengths : List Nat → List Nat
/-- The level of detail of a footprint axis, by the square of its length in texels (R225, R266; log 52). -/
opaque lodOfAxis : Rat → W32
/-- The footprint of a quad whose coordinates are directions of a cube or no finite numbers, by the quad's coordinates (log 52): 0 the level of
detail, 1 that of the minor axis, 2 the ratio's power of two, 3 + 2k and 4 + 2k the coordinates of probe k; and the level of a `texld` that
names none. -/
opaque texFootprint : List W32 → Nat → W32

/-- The outcome of a depth comparison, whose reference the spec gives no register: the comparison, the texel, the quad's coordinates
(Table 9.14; log 4). -/
opaque texCompare : Nat → W32 → List W32 → Bool
/-- What `texld` reads outside the image, by format and component (log 4). -/
opaque outsideTexel : Nat → Nat → W32
/-- The clear value of a compressed image as a texture reads it, which its descriptor does not hold: metadata address, format, component
(R267; log 4). -/
opaque clearTexel : Nat → Nat → Nat → W32

/-- The cube face a direction meets and the place on it (Table 8.15). -/
opaque cubeFace : W32 → W32 → W32 → Nat × W32 × W32

/-- The fixed-point coordinate of a NaN or an infinity: its bits, the size of the axis. -/
opaque coordOf : W32 → Nat → Int

/-- The code of a NaN in a UNORM or sRGB channel, by the channel's bits (R262). -/
opaque nanCode : W32 → Nat → Nat

/-- What a component that a format does not hold reads as, by format code and component (Table 9.12). -/
opaque missingComponent : Nat → Nat → W32

/-- A texel of a published block format that the model does not restate (BC6H, BC7, the sRGB forms, ASTC; log 14): format code, block bytes, x, y; four FP32 components (R264). -/
opaque blockTexel : Nat → List Byte → Nat → Nat → List W32
/-- The depth of a sample where the exact interpolation is no FP32 value (R249 gives no rounding): the primitive's vertices, the
sample's position in 1/256 pixel. -/
opaque sampleDepth : List W32 → Int → Int → W32
/-- Whether a primitive with a coordinate that is no finite number covers a sample: its vertices, the position in 1/256 pixel (log 16). -/
opaque sampleHit : List W32 → Int → Int → Bool
/-- Barycentrics b1 and b2 where the exact value is no FP32 value (R260 gives no rounding) or there is none: the vertices, the position in
1/256 pixel, which of the two (log 16). -/
opaque sampleBary : List W32 → Int → Int → Nat → W32
/-- What v7 bit 0 says of a line or a point, by topology (Table 9.9; log 16). -/
opaque lineFacing : Nat → Bool
/-- s5 of a group of a render pass, which has no grid (Table 8.5; log 16). -/
opaque gridWord : W32
/-- s8 to s15 of a fragment group for a colour plane that the pass has not (Table 9.9; log 16). -/
opaque planeWord : Nat → W32
/-- A component that a BLEND write of less than 128 bits hands to the blend path: format, SIZE, the run's words, component (R223, R261; log
16). -/
opaque blendSource : Nat → Nat → List W32 → Nat → W32
/-- Vendor public keys 0 and 1 of kindling's ROM (R399), 32 bytes each. -/
opaque vendorKey : Nat → Nat → Byte
/-- The pattern that READ DQ calibration drives from the standard's pattern mode registers (Table 2.2), by mode registers and
byte. -/
opaque dqPattern : List Byte → Nat → Byte
/-- The bits of a standard mode register that enable a feature which the channel does not support (R27). -/
opaque unsupported : Nat → Byte
/-- Whether the standard keeps a copy of a mode register for each frequency set point (Table 2.1). -/
opaque perSetPoint : Nat → Bool
/-- Whether an access over cord `i` that is issued at an instant of its training is answered within 20 us (R359, R364; log 45). -/
opaque answersInTime : Nat → Nat → Bool
/-- Whether an operation in flight is performed at memory in a nanosecond, by the time and its serial (R157, R158; log 4). -/
opaque performs : Nat → Nat → Bool
/-- tMRD of the standard in nanoseconds (R30, R33). -/
opaque tMRD : Nat
/-- Answers of the I3C CCCs GETPID, GETBCR, GETDCR and GETSTATUS as the standard forms them (R445), by CCC and byte. -/
opaque ccc : Nat → Nat → Byte

end Sys2Proof.Config
end

