-- ==== Sys2Proof/Machine/Maps.lean ====
section
/-! DEFINITION. The containers of the state: `Quad`, one item per die, and sorted association lists with a default, in one
canonical form (keys strictly rising, no entry equal to the default), so that equal contents are equal data. -/

namespace Sys2Proof.Machine

/-- One item for each of the four dies D0 to D3 (R14). -/
structure Quad (α : Type) where
  d0 : α
  d1 : α
  d2 : α
  d3 : α
  deriving DecidableEq, Repr

/-- The item of die `d`. -/
def qget {α : Type} (q : Quad α) (d : DieId) : α :=
  match d with
  | 0 => q.d0
  | 1 => q.d1
  | 2 => q.d2
  | 3 => q.d3

/-- `q` with die `d`'s item replaced. -/
def qset {α : Type} (q : Quad α) (d : DieId) (x : α) : Quad α :=
  match d with
  | 0 => { q with d0 := x }
  | 1 => { q with d1 := x }
  | 2 => { q with d2 := x }
  | 3 => { q with d3 := x }

/-- The same item on every die. -/
def qall {α : Type} (x : α) : Quad α := ⟨x, x, x, x⟩

/-- `f` applied to every die's item. -/
def qmap {α β : Type} (f : DieId → α → β) (q : Quad α) : Quad β := ⟨f 0 q.d0, f 1 q.d1, f 2 q.d2, f 3 q.d3⟩

/-- The four dies in order. -/
def allDies : List DieId := [0, 1, 2, 3]

/-- A sparse table: key and value pairs. -/
abbrev Map (α : Type) := List (Nat × α)

/-- The value listed at key `k`. -/
def mfind {α : Type} : Map α → Nat → Option α
  | [], _ => none
  | (k, v) :: r, n => if k = n then some v else mfind r n

/-- The value at key `k`, or `dflt` where none is listed. -/
def mget {α : Type} (dflt : α) (m : Map α) (n : Nat) : α := (mfind m n).getD dflt

/-- The table without an entry at `n`. -/
def mdel {α : Type} : Map α → Nat → Map α
  | [], _ => []
  | (k, v) :: r, n => if k = n then r else (k, v) :: mdel r n

/-- The table with `n` listed at its sorted place with value `x`. -/
def mins {α : Type} : Map α → Nat → α → Map α
  | [], n, x => [(n, x)]
  | (k, v) :: r, n, x => if n < k then (n, x) :: (k, v) :: r else if k = n then (n, x) :: r else (k, v) :: mins r n x

/-- Write `x` at `n`: the default is never listed. -/
def mput {α : Type} [DecidableEq α] (dflt : α) (m : Map α) (n : Nat) (x : α) : Map α :=
  if x = dflt then mdel m n else mins m n x

/-- The canonical form: keys strictly rising and no entry equal to the default. -/
def mwf {α : Type} [DecidableEq α] (dflt : α) : Map α → Bool
  | [] => true
  | [(_, v)] => decide (v ≠ dflt)
  | (k, v) :: (k', v') :: r => decide (v ≠ dflt) && decide (k < k') && mwf dflt ((k', v') :: r)

/-- The first key from `start` upward that is not listed, looking at `n` keys. -/
def mfree {α : Type} (m : Map α) : Nat → Nat → Option Nat
  | 0, _ => none
  | n + 1, start => if (mfind m start).isNone then some start else mfree m n (start + 1)

/-- Every value satisfying `p`. -/
def mfilter {α : Type} (p : Nat → α → Bool) (m : Map α) : Map α := m.filter (fun e => p e.1 e.2)

/-- `f` applied to every listed value. -/
def mmap {α β : Type} (f : Nat → α → β) (m : Map α) : Map β := m.map (fun e => (e.1, f e.1 e.2))

/-- Replace position `i` of a list, where it has one. -/
def lset {α : Type} : List α → Nat → α → List α
  | [], _, _ => []
  | _ :: r, 0, x => x :: r
  | y :: r, i + 1, x => y :: lset r i x

/-- The item at position `i`, or `dflt`. -/
def lget {α : Type} (dflt : α) : List α → Nat → α
  | [], _ => dflt
  | y :: _, 0 => y
  | _ :: r, i + 1 => lget dflt r i

/-- `x` put before the first item that `le` does not place before it. -/
def insertBy {α : Type} (le : α → α → Bool) (x : α) : List α → List α
  | [] => [x]
  | y :: r => if le x y then x :: y :: r else y :: insertBy le x r

/-- A list in the order of `le`, equals keeping their order. -/
def sortBy {α : Type} (le : α → α → Bool) : List α → List α
  | [] => []
  | x :: r => insertBy le x (sortBy le r)

/-- `n` copies of `x`. -/
def rep {α : Type} (n : Nat) (x : α) : List α := List.replicate n x

/-- The numbers from `a` upward, `n` of them. -/
def countUp : Nat → Nat → List Nat
  | _, 0 => []
  | a, n + 1 => a :: countUp (a + 1) n

end Sys2Proof.Machine
end

