-- ==== Sys2Proof/Machine/Bits.lean ====
section
/-! DEFINITION. Bit fields, byte order and check codes: fields [msb:lsb] (R5), little-endian data (R5), saturating counts,
CRC-64 (R344, R356) and CRC-32C (Table 12.2). -/

namespace Sys2Proof.Machine

/-- Bits [hi:lo] of a number (R5). -/
def fldN (x hi lo : Nat) : Nat := (x >>> lo) % 2 ^ (hi + 1 - lo)

/-- Bits [hi:lo] of a 64-bit word (R5). -/
def fld (x : W64) (hi lo : Nat) : Nat := fldN x.toNat hi lo

/-- Bit `i` of a 64-bit word. -/
def bit (x : W64) (i : Nat) : Bool := x.toNat.testBit i

/-- A bit as a number. -/
def b2n (b : Bool) : Nat := if b then 1 else 0

/-- A 64-bit word made of fields, each a value and its lowest bit; the values are given in range. -/
def packFields (fs : List (Nat × Nat)) : W64 := BitVec.ofNat 64 (fs.foldl (fun acc f => acc + f.1 * 2 ^ f.2) 0)

/-- `x` with bits [hi:lo] replaced by `v`. -/
def setFld (x : W64) (hi lo v : Nat) : W64 :=
  let w := hi + 1 - lo
  BitVec.ofNat 64 (x.toNat - fld x hi lo * 2 ^ lo + (v % 2 ^ w) * 2 ^ lo)

/-- `x` under a mask of the bits kept. -/
def keepBits (x : W64) (mask : Nat) : W64 := x &&& BitVec.ofNat 64 mask

/-- A W1C register of flags and counts (R38): its value, the instant of the last raise, and what was raised in that instant. -/
structure ErrReg where
  val : W64
  inst : Nat
  fresh : W64
  deriving DecidableEq, Repr

/-- A W1C register at reset. -/
def errReset : ErrReg := { val := 0, inst := 0, fresh := 0 }

/-- A mask of bits [hi:lo]. -/
def maskOf (hi lo : Nat) : Nat := (2 ^ (hi + 1 - lo) - 1) * 2 ^ lo

/-- Saturating addition at the largest number of `w` bits. -/
def satAdd (w a b : Nat) : Nat := min (a + b) (2 ^ w - 1)

/-- A number of `w` bits read as two's complement. -/
def sx (w x : Nat) : Int :=
  let y := x % 2 ^ w
  if 2 * y < 2 ^ w then (y : Int) else (y : Int) - 2 ^ w

/-- An integer modulo 2 to the power `w`, as a number. -/
def wrapI (w : Nat) (x : Int) : Nat := (x % (2 ^ w : Int)).toNat

/-- Bytes to a number, least significant first (R5). -/
def leNat : List Byte → Nat
  | [] => 0
  | b :: r => b.toNat + 256 * leNat r

/-- A number to `n` bytes, least significant first (R5). -/
def natLe : Nat → Nat → List Byte
  | 0, _ => []
  | n + 1, x => BitVec.ofNat 8 (x % 256) :: natLe n (x / 256)

/-- Bytes to a 64-bit word. -/
def le64 (l : List Byte) : W64 := BitVec.ofNat 64 (leNat (l.take 8))

/-- The little-endian number of `n` bytes at offset `o` of a block. -/
def leAt (l : List Byte) (o n : Nat) : Nat := leNat ((l.drop o).take n)

/-- Whether the bytes from `o`, `n` of them, are all zero. -/
def zeroAt (l : List Byte) (o n : Nat) : Bool := ((l.drop o).take n).all (fun b => b == 0)

/-- A list cut into pieces of `k` items, `fuel` pieces at most. -/
def chunksOf {α : Type} (k : Nat) : Nat → List α → List (List α)
  | 0, _ => []
  | _ + 1, [] => []
  | f + 1, a :: l => ((a :: l).take k) :: chunksOf k f ((a :: l).drop k)

/-- A list brought to `n` items with `x`. -/
def padTo {α : Type} (n : Nat) (x : α) (l : List α) : List α := l.take n ++ List.replicate (n - l.length) x

/-- floor(log2 n) for n > 0. -/
def log2 (n : Nat) : Nat := Nat.log2 n

/-- Ceiling of a quotient. -/
def ceilDiv (a b : Nat) : Nat := (a + b - 1) / b

/-- Number of ones among the lowest `w` bits. -/
def popcount : Nat → Nat → Nat
  | 0, _ => 0
  | w + 1, x => x % 2 + popcount w (x / 2)

/-- One step of the CRC-64 with polynomial 0x42F0_E1EB_A9EA_3693, not reflected (R344, R356). -/
def crc64Bits : Nat → Nat → Nat
  | 0, c => c
  | n + 1, c =>
    let c2 := (c * 2) % 2 ^ 64
    crc64Bits n (if c.testBit 63 then c2 ^^^ 0x42F0E1EBA9EA3693 else c2)

/-- CRC-64 of bytes from an initial value, no final XOR (R344, R356). -/
def crc64 (init : Nat) (l : List Byte) : W64 :=
  BitVec.ofNat 64 (l.foldl (fun c b => crc64Bits 8 (c ^^^ (b.toNat * 2 ^ 56))) init)

/-- One step of CRC-32C, reflected. -/
def crc32Bits : Nat → Nat → Nat
  | 0, c => c
  | n + 1, c => crc32Bits n (if c.testBit 0 then (c / 2) ^^^ 0x82F63B78 else c / 2)

/-- CRC-32C of a block's decoded bytes (Table 12.2). PRESUMED: the published CRC-32C, reflected, initial and final value
all-ones; the spec names the code only. -/
def crc32c (l : List Byte) : W32 :=
  BitVec.ofNat 32 ((l.foldl (fun c b => crc32Bits 8 (c ^^^ b.toNat)) 0xFFFFFFFF) ^^^ 0xFFFFFFFF)

/-- Whether the byte's parity with the bit is even: the nine bits have an even number of ones (R33). -/
def evenParityBit (b : Byte) : Bool := popcount 8 b.toNat % 2 == 1

end Sys2Proof.Machine
end

