-- ==== Sys2Proof/Machine/StateBase.lean ====
section
/-! DEFINITION. State of the board side, of the lamp controllers, of device time and of the logbooks (15, 17, 19). -/

namespace Sys2Proof.Machine

/-- The board's pins and the management target (R438, R441, R445, R446): VIN in millivolts, RESET_N, whether a release has
raised the rails, POWER_OK, the hold, latch and record of a trip, the target's dynamic address, the snapshots and the bytes
last read. -/
structure Board where
  vinMv : Nat
  resetN : Bool
  released : Bool
  powerOk : Bool
  tripHold : Bool
  tripLatch : Bool
  trip : W64
  dynAddr : Option Nat
  mgRegs : Map W64
  lastRead : List Byte
  deriving DecidableEq, Repr

/-- States of a switched domain (R375, Table 15.5). -/
inductive Dom where
  | dark
  | ember
  | lit
  deriving DecidableEq, Repr

/-- The lamp controller of one die (R374 to R382): the eleven domains CL0 to CL7, GEO, GRT, EAS; the one that is changing and
where to; the target as last computed by D0; clusters removed by the thermal cap, its time
marks; a cluster that drains, since when, and whether its contexts are being evicted (R136); domains left out of every target
(R409, R413); the eleven sensors. -/
structure Lamp where
  dom : List Dom
  changing : Option (Nat × Dom)
  target : Nat
  removed : Nat
  cappedAt : Nat
  restoredAt : Nat
  warn : Bool
  draining : Option (Nat × Nat × Bool)
  failed : Nat
  temps : List (BitVec 12)
  deriving DecidableEq, Repr

/-- D0's package lamp state (R377, R378): the register values written, the envelope in force and the write that waits. -/
structure LampPkg where
  envelope : W64
  envPending : List (Nat × Nat)
  inForce : Nat
  order : W64
  masks : List W64
  deriving DecidableEq, Repr

/-- A slew (R372, R385): the nanoseconds to remove, the sign, the nanoseconds of the slew that remain and the fraction. -/
structure Slew where
  amount : Nat
  forward : Bool
  left : Nat
  span : Nat
  acc : Nat
  deriving DecidableEq, Repr

/-- Device time of one die (R384 to R388): the count, a slew, how long it stands still, its epoch grid, a step that its next TSYNC
carries, when its last valid exchange was, and the stamps t1, t2, t3 of the exchange in progress with whether a replay touched it. -/
structure TimeD where
  running : Bool
  dt : Nat
  slew : Option Slew
  standFor : Nat
  epoch : Nat
  epochStart : Nat
  period : Nat
  shift : Nat
  owed : Nat
  lastSync : Nat
  sync : Option (Nat × Nat × Nat × Bool)
  deriving DecidableEq, Repr

/-- D0's PPS and period registers (Tables 15.6, 15.7). -/
structure PpsState where
  ctl : W64
  periodReg : W64
  periodPending : List (Nat × Nat)
  seen : Bool
  freeRun : Bool
  lastAccepted : Option Nat
  lastMarked : Option Nat
  candidates : List Nat
  ignored : Nat
  steps : Nat
  error : W32
  edge : W64
  stepTime : W64
  streak : Nat
  deriving DecidableEq, Repr

/-- The logbook of one die (R415, R419, R420): counts, the ring's entries by slot, fault records by slot, and the
limit of the running millisecond. -/
structure LogBook where
  head : Nat
  faultHead : Nat
  suppressed : Nat
  contained : Nat
  corrected : Nat
  severe : Nat
  lastCode : Nat
  fencedUnits : Nat
  dieError : Bool
  ring : Map (List Byte)
  faults : Map (List Byte)
  msIndex : Nat
  msCount : Nat
  supCount : Nat
  supFirst : Nat
  fenced : List Nat
  deriving DecidableEq, Repr

end Sys2Proof.Machine
end

