-- ==== Sys2Proof/Machine/StateCore.lean ====
section
/-! DEFINITION. State of residency, of the shader cores, of device memory, translation and the DMA engines (05, 06, 08, 11). -/

namespace Sys2Proof.Machine

/-- Slot states (Table 5.1). -/
inductive SlotState where
  | free
  | loading
  | active
  | blocked
  | idle
  | stopping
  | saving
  deriving DecidableEq, Repr

/-- Residency states of a context on a die (R119). -/
inductive RState where
  | none
  | saved
  | resident
  | held
  deriving DecidableEq, Repr

/-- A resident slot (R117 to R119): its context, when it entered its state, when auto-evict loaded it, whether its stop ends in
a discard, whether an auto-evict decision evicts it, and whether a stop that arrived during its load is owed (R131). -/
structure Slot where
  state : SlotState
  ctx : Nat
  since : Nat
  autoAt : Option Nat
  discard : Bool
  byAuto : Bool
  owed : Bool
  deriving DecidableEq, Repr

/-- A lane of a group of a render pass at its start (R248, R260, Table 9.9): whether it is there at all or has exited, its exec bit, the
vertex index it transforms, the samples of its fragment, and its preset vector registers. -/
structure LaneStart where
  here : Bool
  exec : Bool
  index : Nat
  mask : Nat
  regs : List (Nat × W32)
  deriving DecidableEq, Repr

/-- What a group of a render pass works on (R243, R248, R260, R261): the pass by its submission count, the draw, the tile of a fragment
group, the draw's blend set and varyings, its preset scalars and its lanes. -/
structure GeoWork where
  sub : Nat
  draw : Nat
  tile : Option Nat
  blend : Nat
  varyings : Nat
  scalars : List (Nat × W32)
  lanes : List LaneStart
  deriving DecidableEq, Repr

/-- A dispatch accepted by a CMP engine (R120, R121, R209, R210), or a group that GEO places for a render pass (`geo`, engine 0; R243). -/
structure Dispatch where
  engine : Nat
  ctx : Nat
  tenant : Nat
  queue : Nat
  count : Nat
  sub : Nat
  fencePa : Nat
  fence : Bool
  value : W64
  width : Nat
  vregs : Nat
  groups : Nat
  orphanLog2 : Nat
  tileKib : Nat
  entry : Nat
  kernel : Nat
  args : W64
  words : List W64
  gx : Nat
  gy : Nat
  gz : Nat
  clusters : Nat
  placed : Nat
  ended : Nat
  started : List Nat
  dead : Bool
  pins : List Nat
  geo : Option GeoWork
  deriving DecidableEq, Repr

/-- A block on a core (R121, R141, R142, R154 to R156): its dispatch, place in the grid, core, tile allocation, the barriers
that have arrivals in the order of their first arrival, and the orphan watchdog in nanoseconds of counted issue time. -/
structure Block where
  disp : Nat
  x : Nat
  y : Nat
  z : Nat
  core : Nat
  tileOff : Nat
  live : Nat
  arrivals : List Nat
  watch : Nat
  deriving DecidableEq, Repr

/-- An entry of a path table (R149): a path with its pc, lanes, join and the barrier it waits at, or a join with its expected
and arrived lanes and its parent join. -/
inductive PathEntry where
  | path (pc mask : Nat) (join : Option Nat) (bar : Option Nat)
  | join (at_ expected arrived : Nat) (parent : Option Nat)
  deriving DecidableEq, Repr

/-- One lane's access of a counted memory operation: the lane, the physical address of each 64-byte-contained piece, bytes. -/
structure LaneAccess where
  lane : Nat
  pa : Nat
  bytes : Nat
  got : Option (List Byte)
  deriving DecidableEq, Repr

/-- What a counted operation does when it completes (Table 6.6). -/
inductive OpKind where
  | load (size : Nat) (signed scalar coherent : Bool)
  | atomic (op size : Nat) (ret : Bool) (args : List (Nat × W64 × W64))
  | store (data : List (Nat × Byte))
  | fixed
  deriving DecidableEq, Repr

/-- A counted operation in flight (R157, R158): its serial, when it was issued, its destination, accesses, results already known
(register, lane, word) with the flags they raise, its destinations (register, lane), those of them written by another instruction
meanwhile, whether its part at home is done and the rest asked for of other dies (R363), and its instruction's pc. A scalar operation's registers stand in lane 0. -/
structure CountedOp where
  serial : Nat
  issuedAt : Nat
  kind : OpKind
  dst : Nat
  access : List LaneAccess
  result : List (Nat × Nat × W32)
  flags : Nat
  dests : List (Nat × Nat)
  stale : List (Nat × Nat)
  posted : Bool
  pc : Nat
  deriving DecidableEq, Repr

/-- A thread group (R141 to R159, R206, Table 8.5). `since` is when it entered or left the active set, `unable` since when a group of the
active set has been unable to issue (R147), `lastV` and `lastS` its last issues to the vector and the scalar pipelines (R148), `busy` until
when interlocked results may be in flight (R235), and `part` a load that stands at issue for want of fills (R160). -/
structure Group where
  block : Nat
  index : Nat
  quarter : Nat
  regOff : Nat
  paths : List PathEntry
  cur : Nat
  issues : Nat
  exec : Nat
  exited : Nat
  preds : List Nat
  sregs : Map W32
  flags : Nat
  active : Bool
  since : Nat
  unable : Option Nat
  lastV : Nat
  lastS : Nat
  busy : Nat
  part : Option CountedOp
  sleepUntil : Option Nat
  stopped : Bool
  waiting : Bool
  vq : List CountedOp
  sq : List CountedOp
  tq : List CountedOp
  mq : List CountedOp
  deriving DecidableEq, Repr

/-- A line of a near cache (R160 to R163). -/
structure NearLine where
  line : Nat
  data : List Byte
  poison : List Nat
  offered : Bool
  deriving DecidableEq, Repr

/-- A line fill in flight (R160, R162, R165): its line, whether it was only prefetched, whether it is offered when installed,
and whether an invalidation has dropped its installation. -/
structure NearFill where
  line : Nat
  prefetch : Bool
  offered : Bool
  noInstall : Bool
  deriving DecidableEq, Repr

/-- The near cache of one core, most recently used line first. -/
structure NearCache where
  lines : List NearLine
  fills : List NearFill
  deriving DecidableEq, Repr

/-- What a save wrote (R127): blocks and groups with their numbers, the register and tile words of the cores written, those cores, and the
save area's bytes as the check value covers them. -/
structure Saved where
  blocks : Map Block
  groups : Map Group
  vrf : Map W32
  tile : Map Byte
  cores : List Nat
  area : List Host.Cell
  base : Nat
  deriving DecidableEq, Repr

/-- The residency and core side of one die (05, 06). Vector registers and tile memory are kept per context share:
see `vrfKey` and `tileKey`. `served` keeps, for each quarter and class, the context last given a place in the active set (R122);
`issueNo` counts issues. -/
structure Cores where
  slots : List Slot
  resid : Map RState
  saved : Map Saved
  starvedSince : Option Nat
  starved : Bool
  auto : Option Nat
  dispatches : Map Dispatch
  blocks : Map Block
  groups : Map Group
  vrf : Map W32
  tile : Map Byte
  near : Map NearCache
  served : Map Nat
  issueNo : Nat
  deriving DecidableEq, Repr

/-- A row's error events since power-up (R289, R291): corrected events, when one was last logged, whether it met an uncorrectable error,
whether a spare serves it, and whether it was named in a SPARE_EXHAUSTED entry. -/
structure RowState where
  corrected : Nat
  logged : Option Nat
  failed : Bool
  retired : Bool
  exhausted : Bool
  deriving DecidableEq, Repr

/-- A line of the die cache (R292, Table 11.2): its number, whether it is dirty, and whether it is held as KEEP. -/
structure CacheLine where
  line : Nat
  dirty : Bool
  keep : Bool
  deriving DecidableEq, Repr

/-- A translation cache entry (R299): context, leaf kind, the leaf's base address, W, handle, and the frames of its pages. -/
structure XlEntry where
  ctx : Nat
  big : Bool
  base : Nat
  w : Bool
  handle : Nat
  page : Nat
  frames : List Nat
  deriving DecidableEq, Repr

/-- A fault merge window (R303): when its entry was made, further faults since, the VA. -/
structure FaultWin where
  at_ : Nat
  count : Nat
  va : W64
  deriving DecidableEq, Repr

/-- Memory-side state of one die (R289 to R303). `upset` lists the 64-byte chunks whose next read from DRAM finds bad parity: false, the
reread passes; true, it fails as well. Advice entries hold a code and physical ranges. `cache` is the die cache: the lines of each set, the
most recently used first. -/
structure MemUnit where
  rows : Map RowState
  upset : Map Bool
  retiring : Option Nat
  spares : Nat
  advice : List (Nat × List (Nat × Nat))
  cache : Map (List CacheLine)
  xlate : List XlEntry
  faultWins : Map FaultWin
  deriving DecidableEq, Repr

/-- One write of a burst to another die (R309, R362): the die, whether into its staging, the place of its 64-byte unit, and the bytes enabled. -/
structure OutWrite where
  die : DieId
  stage : Bool
  base : Nat
  cells : List Host.Cell
  deriving DecidableEq, Repr

/-- How far a burst that needs another die has come (R288, R363): none in hand; its reads asked for; or its writes, with what the job is once
they are acknowledged: bytes moved, the place of a mismatch, a cause that stops it, and whether the burst was whole. -/
inductive BurstStep where
  | idle
  | reading
  | writing (units : List OutWrite) (moved : Nat) (mismatch : Option Nat) (stop : Option Nat) (whole : Bool)
  deriving DecidableEq, Repr

/-- An accepted DMA descriptor (Table 11.10) with what acceptance resolved (R302) and how far its stream has moved. `seen` holds, at
acceptance, how often the staging pieces of its source, destination and result had been retagged, and how often its cords had left UP (R311,
R313); `step` is the burst in hand. -/
structure DmaJob where
  engine : Nat
  chan : Nat
  ctx : Nat
  tenant : Nat
  queue : Nat
  count : Nat
  sub : Nat
  fence : Bool
  fencePa : Nat
  value : W64
  op : Nat
  spaces : Nat
  rowBytes : Nat
  c1 : Nat
  c2 : Nat
  c3 : Nat
  src : W64
  dst : W64
  sstr : List W64
  dstr : List W64
  pattern : W64
  line : Nat
  log2 : Nat
  srcPages : Map Nat
  dstCopies : List (Map Nat)
  resStage : Bool
  resAt : Option Nat
  pins : List Nat
  moved : Nat
  seen : List Nat
  mismatch : Option Nat
  stop : Option Nat
  step : BurstStep
  deriving DecidableEq, Repr

/-- A DMA channel (R304): the active and the shadow register sets and the last submission count. -/
structure DmaChannel where
  active : Option DmaJob
  shadow : Option DmaJob
  last : Nat
  deriving DecidableEq, Repr

/-- The DMA side of one die (R304, R310): sixteen channels, descriptors accepted and not yet loaded in arrival order, request
line counts by their code in Table 11.13, source-aborted indications on their way (line code, submission count of the consumer, first
undelivered stream offset; R312), and DMA_ERR. -/
structure DmaUnit where
  chans : List DmaChannel
  queue : List DmaJob
  lines : Map Nat
  aborted : List (Nat × Nat × Nat)
  err : ErrReg
  deriving DecidableEq, Repr

end Sys2Proof.Machine
end

