-- ==== Sys2Proof/Machine/StateEngines.lean ====
section
/-! DEFINITION. State of the retort, generation, easel and geometry engines (09, 10, 12, 13). -/

namespace Sys2Proof.Machine

/-- A retort job (Table 12.1) with what acceptance resolved. -/
structure RetJob where
  ctx : Nat
  tenant : Nat
  queue : Nat
  count : Nat
  sub : Nat
  fence : Bool
  fencePa : Nat
  value : W64
  op : Nat
  mode : Nat
  param : Nat
  near : Nat
  staticOnly : Bool
  inBytes : Nat
  outBytes : Nat
  resAt : Option Nat
  pins : List Nat
  deriving DecidableEq, Repr

/-- A retort engine (R314 to R332): jobs waiting, the job that runs, bytes taken from the input port and not yet consumed,
bytes released and not yet taken, totals, bytes covered by the requests raised, blocks released, symbol counts of the previous
block, whether the rest is padding (ENCODE: the zero fill has begun; DECODE: a pad marker was read), the stop cause, whether a
stopped job still discards input (R331), and the last progress. -/
structure RetEngine where
  waiting : List RetJob
  job : Option RetJob
  inBuf : List Byte
  inTaken : Nat
  inUsed : Nat
  outBuf : List Byte
  outReleased : Nat
  outTaken : Nat
  reqIn : Nat
  reqOut : Nat
  blocks : Nat
  tabled : Bool
  counts : Map Nat
  dcounts : Map Nat
  padding : Bool
  stop : Option Nat
  draining : Bool
  progressAt : Nat
  mode : Nat
  op : Nat
  last : Nat
  deriving DecidableEq, Repr

/-- The retort side of one die. -/
structure RetUnit where
  e0 : RetEngine
  e1 : RetEngine
  err : ErrReg
  deriving DecidableEq, Repr

/-- A sequence of GEN (Table 10.2) as the device holds it; `pending` is a READY (true) or PARK that waits (R273). -/
structure GenSeq where
  state : Nat
  model : Nat
  prio : Nat
  flags : Nat
  ctx : Nat
  seed : W64
  step : W32
  costHint : Nat
  stateVa : W64
  ioVa : W64
  cookie : W64
  lastAdmit : Nat
  histNs : List Nat
  histCores : List Nat
  histCount : Nat
  histNext : Nat
  skips : Nat
  pending : Option Bool
  pins : List Nat
  dirty : Bool
  deriving DecidableEq, Repr

/-- A model of GEN (Table 10.1) as the device holds it. -/
structure GenModel where
  loaded : Bool
  maxBatch : Nat
  margin : Nat
  ctx : Nat
  worstFixed : Nat
  worstSeq : Nat
  steps : Nat
  histNs : List Nat
  histCores : List Nat
  histCount : Nat
  histNext : Nat
  pins : List Nat
  dirty : Bool
  deriving DecidableEq, Repr

/-- A `k.step` that GEN has accepted and not yet applied (R275, R283); `keep` are the objects of LIST, pinned until the step ends. -/
structure GenOp where
  ctx : Nat
  tenant : Nat
  queue : Nat
  count : Nat
  fence : Bool
  fencePa : Nat
  value : W64
  op : Nat
  model : Nat
  seq : Nat
  maxSeqs : Nat
  list : W64
  deadline : Nat
  budget : Nat
  acceptedAt : Nat
  serial : Nat
  pages : Map Nat
  pins : List Nat
  keep : List Nat
  deriving DecidableEq, Repr

/-- An open step (R276 to R282). -/
structure GenStep where
  model : Nat
  serial : Nat
  ctx : Nat
  tenant : Nat
  queue : Nat
  count : Nat
  list : W64
  pages : Map Nat
  pins : List Nat
  release : Nat
  dl : Nat
  cores : Nat
  fixed : Nat
  total : Nat
  admitted : List (Nat × Nat)
  deriving DecidableEq, Repr

/-- The generation engine of one die. -/
structure GenUnit where
  seqTable : W64
  modelTable : W64
  result : W64
  budget : W64
  err : ErrReg
  serial : Nat
  seqs : Map GenSeq
  models : Map GenModel
  ops : List GenOp
  steps : List GenStep
  deriving DecidableEq, Repr

/-- A layer of the scene (Table 13.3): its record, its context and tenant, the frames of its pages by base page, and its pins. -/
structure Layer where
  bytes : List Byte
  ctx : Nat
  tenant : Nat
  pages : Map Nat
  pins : List Nat
  deriving DecidableEq, Repr

/-- A pending flip (R334 to R338). -/
structure Flip where
  ctx : Nat
  tenant : Nat
  queue : Nat
  count : Nat
  sub : Nat
  fence : Bool
  fencePa : Nat
  value : W64
  waitPa : Option Nat
  waitValue : W64
  layers : Nat
  mailbox : Bool
  safe : Bool
  group : Nat
  groupId : Nat
  records : List Layer
  table : List (List Byte)
  at_ : Nat
  waitLogged : Bool
  pins : List Nat
  deriving DecidableEq, Repr

/-- An AUX transaction in flight (R347), with the bytes that a write sends. -/
structure AuxOp where
  op : Nat
  addr : Nat
  len : Nat
  mot : Bool
  data : List Byte
  defers : Nat
  deriving DecidableEq, Repr

/-- The easel of one die (R334 to R351). `decided` are flips taken at the decision instant; `fresh` those whose fences wait for
the first active line; `groupDecision` is what a flip group's leader has sent; `instant` says that the decision instant of this frame has come,
`report` holds what this die then says of its group flip (group, GROUP_ID, ready) and `held` the flips that the decision will let apply
(R338); `latchDue` is a latch point at an epoch's start while nothing is driven (R337), and `trained` the rate and lanes that the next frame
brings up (R348). -/
structure EasUnit where
  ctl : W64
  timH : W64
  timV : W64
  pclk : W64
  bg : W64
  blackoutCol : W64
  owner : W64
  aux0 : W64
  aux1 : W64
  auxResult : W64
  rd0 : W64
  rd1 : W64
  err : ErrReg
  crcs : Map W64
  mismatch : Nat
  blackout : Nat
  layers : List Layer
  table : List (List Byte)
  pending : List Flip
  decided : List Flip
  fresh : List Flip
  release : List Nat
  disable : Nat
  groupDecision : Option (Nat × Bool)
  instant : Bool
  report : Option (Nat × Nat × Bool)
  held : List Flip
  latchDue : Bool
  trained : Option (Nat × Nat)
  frame : Nat
  hpd : Bool
  linkUp : Bool
  rate : Nat
  lanes : Nat
  locked : Bool
  training : Bool
  failed : Bool
  tries : Nat
  aux : Option AuxOp
  accum : Map W64
  line : Nat
  lineOut : List (Nat × Nat × Nat)
  underAt : Option Nat
  safeAt : Map Nat
  deriving DecidableEq, Repr

/-- A bin record (Table 9.6). -/
structure BinRec where
  prim : Nat
  tiles : Nat
  sx : Nat
  sy : Nat
  src : Nat
  data : Nat
  draw : Nat
  ordered : Bool
  deriving DecidableEq, Repr

/-- What a binning die sends (R251): a record or a chunk-done marker. -/
inductive BinItem where
  | record (r : BinRec)
  | mark (chunk : Nat)
  deriving DecidableEq, Repr

/-- A setup block (R250) in the model's own form: the primitive, its chunk, its topology, its draw, the draw's RASTER, SETS and
STENCIL_REF, its vertices and its size. -/
structure Setup where
  prim : Nat
  chunk : Nat
  topo : Nat
  draw : Nat
  raster : Nat
  sets : Nat
  sref : Nat
  verts : List VertexOut
  size : Nat
  deriving DecidableEq, Repr

/-- A tile in progress (R255, R256, R258): its number, core, run in the context's tile share in KiB, whether an earlier segment wrote it, the
records of its list still to draw, and the blocks of its planes that are no clear blocks any more (attachment, 16 · sample + block; R267). -/
structure TileJob where
  tile : Nat
  core : Nat
  off : Nat
  kib : Nat
  again : Bool
  left : List BinRec
  changed : List (Nat × Nat)
  deriving DecidableEq, Repr

/-- A render pass on one die (R236 to R254). `block` is the pass state block as read at acceptance, `lit` is L as the leader sent
it, `out` the streams to each die, `inbox` the streams from each die, `bins` the bin lists by super-tile 128 * sy + sx, `setups` the
setup blocks by offset in this die's pool in 64-byte units, `cursor` the next tile in the order of R256, `rendered` the tiles that
an earlier segment wrote out, `held` the domains that the leader's pass holds lit on each die (R243), `begun` whether the vertex groups of the next chunk have been
launched (1), or the chunk waits for room in the pool (2), `verts` what they have left, `jobs` the tiles in progress. Phases: 0 joining, 1 binning,
2 flushing, 3 rendering, 4 reported. -/
structure GeoPass where
  pass : Nat
  ctx : Nat
  tenant : Nat
  queue : Nat
  count : Nat
  sub : Nat
  fence : Bool
  fencePa : Nat
  value : W64
  dies : Nat
  stateVa : Nat
  drawsVa : Nat
  drawCount : Nat
  pool : Nat
  poolKib : Nat
  block : List Byte
  pages : Map Nat
  pins : List Nat
  leader : DieId
  lit : Option (List DieId)
  phase : Nat
  since : Nat
  joinLogged : Bool
  nextChunk : Nat
  out : Quad (List BinItem)
  away : Quad (List BinItem)
  inbox : Quad (List BinItem)
  mergeNext : Nat
  bins : Map (List BinRec)
  setups : Map Setup
  prims : Nat
  records : Nat
  segments : Nat
  flushTo : Option Nat
  flushed : Nat
  cursor : Nat
  rendered : List Nat
  reported : List DieId
  aborted : Bool
  done : Bool
  held : Quad Nat
  begun : Nat
  verts : List VertexOut
  jobs : List TileJob
  deriving DecidableEq, Repr

/-- The geometry engine of one die: descriptors accepted in order, passes (context, PASS) that were aborted or ended elsewhere
before this die accepted its descriptor (true: aborted), the last pass's status and counts, and GEO_ERR. -/
structure GeoUnit where
  passes : List GeoPass
  ended : List (Nat × Nat × Bool)
  status : W64
  counts : W64
  err : ErrReg
  deriving DecidableEq, Repr

end Sys2Proof.Machine
end

