-- ==== Sys2Proof/Machine/StateIo.lean ====
section
/-! DEFINITION. State of the host port, of the package tables, of the queues and of the stoker cores (02, 03, 04). -/

namespace Sys2Proof.Machine

/-- A PRBS checker of one lane (R428): the register loaded from the received bits, how many bits it has taken, whether it is
locked, its error count and the outcomes (true: in error) of its most recent bits. -/
structure Checker where
  reg : Nat
  taken : Nat
  good : Nat
  locked : Bool
  errors : Nat
  recent : List Bool
  deriving DecidableEq, Repr

/-- A write waiting in the aperture drain (R45, R46): its window, the mapping in force when it arrived, the physical address that gave,
the enabled bytes, its serial on its channel, and whether it has been sent over a cord and waits for its acknowledgements. -/
structure DrainItem where
  window : Nat
  base : W64
  pa : Nat
  cells : List (Nat × Byte)
  serial : Nat
  sent : Bool
  deriving DecidableEq, Repr

/-- A doorbell that waits for the aperture writes before it (R42). -/
structure HeldBell where
  queue : Nat
  tail : Nat
  after : Nat
  deriving DecidableEq, Repr

/-- A write to a relay block on its way to the relayed die (R51): the offset of its word in the control page, the word, the bytes of it
that the burst enables, and the serial that the aperture writes of D0's channel had reached (R42). -/
structure Forward where
  off : Nat
  value : W64
  enable : List Bool
  after : Nat
  deriving DecidableEq, Repr

/-- The host-port channel of one die (R27 to R49, R430): its reset pin, when it rose, the training steps done (bit 4k + j: step j of
Table 2.2's steps 4 to 7 at frequency set point k), whether the first normal read has completed, power-down; the mode registers (set
point 1's copies from 128 on) and the writes to them that are not yet tMRD old, VND_PARITY's apart; the
open rows (row + 1 by bank), VND_PARERR, what it last drove on DQ and DMI, by lane in pattern mode and as a mode register; the training
FIFO; bits sent and the checkers in pattern mode; CTL_HP_ERR; the aperture drain, its next serial, when each window last logged a drop;
doorbells held for the drain. -/
structure HostPort where
  resetN : Bool
  releasedAt : Nat
  steps : Nat
  trained : Bool
  down : Bool
  mr : Map Byte
  parityWrites : List (Nat × Bool)
  mrWrites : List (Nat × Nat × Byte)
  rows : Map Nat
  parErr : Nat
  dq : List Byte
  dmi : List Bool
  dqLanes : List (List Bool)
  mrr : Byte
  fifo : List Byte
  prbsTx : Nat
  checkers : Map Checker
  hpErr : ErrReg
  drain : List DrainItem
  drainNext : Nat
  dropLogged : Map Nat
  held : List HeldBell
  deriving DecidableEq, Repr

/-- Tenant states (Table 3.6). -/
inductive TState where
  | disabled
  | enabled
  | resetting
  deriving DecidableEq, Repr

/-- A tenant as the device holds it (Table 3.3, R59). -/
structure Tenant where
  state : TState
  prioCeil : Nat
  autoEvict : Bool
  maxSlots : Nat
  maxQueues : Nat
  maxContexts : Nat
  maxObjects : Nat
  maxPages : Nat
  runList : Nat
  deriving DecidableEq, Repr

/-- Context states (Table 3.13). -/
inductive CState where
  | free
  | live
  | faulted
  | destroying
  deriving DecidableEq, Repr

/-- A context as the device holds it (Table 3.10), with where its descriptor lies. -/
structure Ctx where
  state : CState
  desc : Nat
  tenant : Nat
  prio : Nat
  noEvict : Bool
  ptRoot : Nat
  save : List Nat
  regShare : Nat
  tileShare : Nat
  dieMask : Nat
  deriving DecidableEq, Repr

/-- Object states (Table 3.15). -/
inductive OState where
  | free
  | valid
  | zombie
  deriving DecidableEq, Repr

/-- A memory object as the device holds it (Table 3.15). -/
structure Obj where
  state : OState
  tenant : Nat
  place : Nat
  homeDie : Nat
  gen : Nat
  pages : Nat
  pageList : Nat
  dirty : Bool
  deriving DecidableEq, Repr

/-- One die's copy of the package tables (R54, R55, R369); D0's is authoritative. -/
structure Tables where
  tenants : List Tenant
  contexts : Map Ctx
  objects : Map Obj
  stateGen : Nat
  deriving DecidableEq, Repr

/-- A staging piece (R62): its tag, the tag being set while a clear runs, and how often it has been given another tag, which a transfer that
uses it remembers (R311). -/
structure Piece where
  tag : Nat
  clearing : Option Nat
  sets : Nat
  deriving DecidableEq, Repr

/-- A launch record as fetched (Table 3.20), with the status it already ended with, if any (R87). -/
structure Rec where
  count : Nat
  program : W64
  serial : Bool
  tag : Nat
  arg0 : W64
  arg1 : W64
  ended : Option Nat
  deriving DecidableEq, Repr

/-- A record handed to a frame (R73, R75, R106): the frame, the status of the first event that ended it, whether the context
faulted or a tenant reset struck while it ran, whether its program has ended, and how many of its operations are out. -/
structure RunRec where
  record : Rec
  frame : Nat
  status : Option Nat
  ctxFault : Bool
  aborted : Bool
  opsOut : Nat
  deriving DecidableEq, Repr

/-- Queue states (Table 3.26). -/
inductive QState where
  | free
  | running
  | stopped
  | draining
  deriving DecidableEq, Repr

/-- A queue of one die (R72 to R78): ring, counts, fetched and running records, records ended but not yet posted (count,
status, tag), statistics, wait snapshot and completion slot. -/
structure Queue where
  state : QState
  engine : Nat
  ctx : Nat
  log2 : Nat
  wdogUs : Option Nat
  ring : Nat
  head : Nat
  done : Nat
  tail : Nat
  fetched : List Rec
  runs : List RunRec
  ended : List (Nat × Nat × Nat)
  low : Nat
  timeouts : Nat
  waitAddr : W64
  waitThr : W64
  waitCur : W64
  slot : W64
  deriving DecidableEq, Repr

/-- The registers of QCP, DBL and the doorbell array of one die (Tables 3.24, 3.30). -/
structure QcpRegs where
  dblErr : ErrReg
  result : W64
  stats : W64
  waitAddr : W64
  waitThr : W64
  waitCur : W64
  deriving DecidableEq, Repr

/-- The registers of CTL, APT, TEN, CTX and OBJ that hold a value of their own (02, 03, 05, 11). -/
structure HostRegs where
  version : W64
  aptBase : Map W64
  aptStatus : W64
  tenTable : W64
  tenSeq : Nat
  tenStatus : Nat
  ctxTable : W64
  ctxResult : W64
  ctxResResult : W64
  objTable : W64
  objResult : W64
  xlatResult : W64
  deriving DecidableEq, Repr

/-- What a frame is parked in (Table 4.4, R89, R99). -/
inductive Park where
  | ready
  | waitge (pa : Nat) (va : W64) (thr : W64) (rd : Nat) (since : Nat) (logged : Bool)
  | sigmax (rd : Nat)
  | full (engine : Nat) (rd : Nat)
  | submitted (engine : Nat) (rd : Nat)
  | commit (rd : Nat)
  | ended
  deriving DecidableEq, Repr

/-- A walk of k.graph (R109): the register for G, G itself, the next node and how many nodes have been read. -/
structure Walk where
  rd : Nat
  g : Nat
  node : W64
  reads : Nat
  deriving DecidableEq, Repr

/-- One frame of a stoker (R86, R91): its shown stoker and frame numbers keep their values when it is moved (R115). -/
structure Frame where
  busy : Bool
  queue : Nat
  count : Nat
  ctx : Nat
  tenant : Nat
  shown : Nat
  regs : Map W32
  pc : W32
  region : Map Byte
  regionBad : Bool
  codeWin : Nat
  dataWin : Nat
  icache : Map W16
  park : Park
  walk : Option Walk
  prog : W64
  tag : Nat
  commitDesc : List Byte
  deriving DecidableEq, Repr

/-- One stoker core (R86, R115, R414): whether records are handed to it, the image it runs, the frame that issues and its
rotation order, and the local state of a rotation. -/
structure Stoker where
  handout : Bool
  image : Nat
  dark : Bool
  fenced : Bool
  cur : Nat
  order : List Nat
  sliceAt : Nat
  rotating : Bool
  deriving DecidableEq, Repr

/-- A submission in an engine's queue (R94, R99): the frame, its record and the copied descriptor. -/
structure Submission where
  frame : Nat
  queue : Nat
  count : Nat
  desc : List Byte
  deriving DecidableEq, Repr

/-- An engine's fetch and submission side (R88, R99, R100): submissions taken, frames parked on a full queue, the submission
count, and the queue it served last. -/
structure Engine where
  subs : List Submission
  full : List Submission
  count : Nat
  lastQueue : Nat
  fenced : Bool
  deriving DecidableEq, Repr

/-- The stoker side of one die (R86 to R90). -/
structure StokerUnit where
  stokers : List Stoker
  frames : List Frame
  engines : List Engine
  lastEngine : Nat
  fullSince : Option Nat
  fullLogged : Nat
  rotateTo : Option Nat
  deriving DecidableEq, Repr

/-- A fence signal sent and not yet done (R81, R97, R101): who signals, the home die, the word and the value. -/
structure Signal where
  src : DieId
  frame : Option Nat
  queue : Nat
  count : Nat
  va : Nat
  pa : Nat
  value : W64
  sentAt : Nat
  deriving DecidableEq, Repr

/-- A commit that D0 holds (R112, R113): epoch, entries (die mask, block, offset, value), the dies staged, those that have
acknowledged, the decision taken, and the dies that have received it. -/
structure Commit where
  src : DieId
  frame : Nat
  queue : Nat
  count : Nat
  epoch : Nat
  entries : List (Nat × Nat × Nat × W64)
  staged : List DieId
  acked : List DieId
  decision : Option Bool
  told : List DieId
  kept : List DieId
  applied : List DieId
  deriving DecidableEq, Repr

end Sys2Proof.Machine
end

