-- ==== Sys2Proof/Machine/StatePkg.lean ====
section
/-! DEFINITION. State of the cords and of agreement, of start-up and security, of kiln and of the test access port
(14, 16, 18). -/

namespace Sys2Proof.Machine

/-- Cord states (Table 14.12). -/
inductive CordSt where
  | dark
  | up
  | fenced
  | down
  deriving DecidableEq, Repr

/-- A cord (R352 to R359): lit, state, width code, lanes repaired, whether it trains and since when, lanes the
last lane test marked, whether it is lit for the check of a held-dark die, and how often it has left UP, which a transfer that needs it
remembers (R311). -/
structure Cord where
  lit : Bool
  state : CordSt
  width : Nat
  repaired : Nat
  training : Bool
  since : Nat
  failed : Nat
  checked : Bool
  drops : Nat
  deriving DecidableEq, Repr

/-- A transaction as it crosses a cord: header and data bytes. -/
structure CordTx where
  hdr : CordHdr
  data : List Byte
  deriving DecidableEq, Repr

/-- Who waits for the answer to a request (R361, R363): the fill of a core's near cache and its 64-byte unit, an operation of a group and its
part, a DMA channel, its transfer and the part, a drain write and its unit, a fence signal, a stoker frame with its record and the address. -/
inductive Asker where
  | fill (core unit : Nat)
  | op (gid serial part : Nat)
  | dma (ch sub part : Nat)
  | drain (serial unit : Nat)
  | signal (id : Nat)
  | stoker (f queue count pa : Nat)
  deriving DecidableEq, Repr

/-- A request that is open at its end (R361, R364): who asks, its type, when it was issued, and the slots kept for its response. -/
structure Ask where
  who : Asker
  typ : Nat
  at_ : Nat
  room : Nat
  deriving DecidableEq, Repr

/-- An answer that its unit has yet to accept: a status of Table 14.4 and the data. -/
structure Answer where
  who : Asker
  status : Nat
  data : List Byte
  deriving DecidableEq, Repr

/-- One end of a cord (R356 to R364): the flits kept for replay with their send times and resends, the next number expected,
whether a NAK of the present gap was sent, transactions waiting to be sent, credits held and slots freed per class, its requests that are
open by tag, answers not yet accepted, tags whose responses are to be discarded, recent replays, log times and counts, CORD_ERRe, its pattern
checkers and the received slots not yet a whole transaction. -/
structure CordEnd where
  txSeq : Nat
  replay : List (Flit × Nat × Nat)
  resend : List Flit
  rxNext : Nat
  gap : Bool
  sendAck : Nat
  sendNak : Bool
  waiting : List CordTx
  lastClass : Nat
  credits : List Nat
  freed : List Nat
  asks : Map Ask
  answers : List Answer
  late : List Nat
  replays : List Nat
  replayLogged : Option Nat
  toLogged : Option Nat
  toCount : Nat
  repCount : Nat
  err : ErrReg
  slots : List (BitVec 128)
  inbox : List CordTx
  sent : Option Flit
  checkers : Map Checker
  deriving DecidableEq, Repr

/-- What D0 keeps of the package (R365 to R369): joined, fenced (with cause), held dark (with cause), dies fenced for time,
dies whose last check passed, dies awake and not yet checked, dies asked for their record (when, and whether by an epoch's check), check
count, versions in force. -/
structure Agree where
  joined : Nat
  fenced : Map Nat
  held : Map Nat
  passed : Nat
  fresh : Nat
  timeOk : Map Nat
  asked : Map (Nat × Bool)
  checks : Nat
  cpv : Nat
  abi : Nat
  epochDone : Nat
  deriving DecidableEq, Repr

/-- The agreement state one die shows (Tables 14.11, 14.14). -/
structure CordRegs where
  agree : W64
  serials : List W64
  time : W64
  reloading : Bool
  mustReload : Bool
  commitValues : Map W64
  deriving DecidableEq, Repr

/-- A die's OTP (R393): serial, identity seed, slots G0 to G3, floor row. It survives every reset. -/
structure Otp where
  serial : W64
  seed : List Byte
  slots : List (List Byte)
  floorRow : W64
  spent : List Bool
  deriving DecidableEq, Repr

/-- A firmware image as a die holds it after its check (Table 16.3). -/
structure Image where
  version : Nat
  svn : Nat
  abiMin : Nat
  abiMax : Nat
  cpvMin : Nat
  cpvMax : Nat
  body : List Byte
  manifest : List Byte
  deriving DecidableEq, Repr

/-- Start-up and security state of one die (R389 to R409): the stage and what failed it, the active generation, the settings hash and
the identity key, the operands and result of SEC_CMD, the running image, the image loaded or rotated to, the image the contact sheet
shows while a rotation runs and after one that stopped, whether it stopped on a die, whether the last LOAD failed, the copy D0 has sent
(address, length, ABI), the accepted token's PASSED mask, and what OTP is being burnt. `coreMap` gives the physical core behind each number of
the enabled numbering (R17): 32 and 33 are the spares. -/
structure Sec where
  stage : Nat
  failCause : Nat
  romOk : Bool
  otpDone : Bool
  active : Option Nat
  hash : W64
  idPub : List Byte
  coreMap : List Nat
  arg0 : W64
  arg1 : W64
  result : W64
  nonce : List W64
  image : Option Image
  pendingImage : Option Image
  oldImage : Option Image
  rotateStopped : Bool
  loadFailed : Bool
  copyFrom : Option (Nat × Nat × Nat)
  token : Option Nat
  kilnDone : Option Nat
  waitOver : Bool
  started : Bool
  checkedAt3 : Bool
  rotated : List Nat
  otpArg : W64
  otpResult : W64
  burning : Option (Nat × List Byte)
  raising : Option Nat
  raiseLeft : List Nat
  deriving DecidableEq, Repr

/-- A kiln run (R424, R425): domains left in ascending order, the staging offset of the token where one is asked for, whether kiln has
woken the die, and the device time at which the last test ended. -/
structure KilnRun where
  left : List Nat
  token : Option Nat
  awake : Bool
  endAt : Nat
  deriving DecidableEq, Repr

/-- A DRAM pattern test (R432): the pattern, the passes left and whether one runs now. -/
structure DramRun where
  pattern : Nat
  left : Nat
  inPass : Bool
  deriving DecidableEq, Repr

/-- Kiln of one die (R422 to R432). -/
structure Kiln where
  arg : W64
  result : W64
  tested : Nat
  passed : Nat
  failed : Nat
  current : Nat
  run : Option KilnRun
  links : List W64
  dp : W64
  dpActive : W64
  dramResult : W64
  dram : Option DramRun
  deriving DecidableEq, Repr

/-- The TAP of one die (R433): the instruction register and the boundary cells last loaded. -/
structure Tap where
  ir : Byte
  cells : List Bool
  driven : List Bool
  deriving DecidableEq, Repr

end Sys2Proof.Machine
end

