-- ==== Sys2Proof/Machine/State.lean ====
section
/-! DEFINITION. The state of the KX4 as plain data, and the state after reset: the package as it stands while RESET_N is low
with VIN in range (R440), every register at its reset value, nothing pending. -/

namespace Sys2Proof.Machine

/-- Reasons the machine stops with a fault. The spec gives none: every fault it names is a next state with its records
written (17). The constructor is kept for an outcome that no meaning raises; safe. -/
inductive Fault where
  /-- Raised by no meaning; safe. -/
  | none
  deriving DecidableEq, Repr

/-- Reasons a command is refused. -/
inductive Refusal where
  /-- Raised by an arm of `exec` whose command has no meaning yet; safe. -/
  | notModelled (mnemonic : String)
  deriving DecidableEq, Repr

/-- A tenant reset in progress (R416): the dies it was sent to, and those still to report. -/
structure TenReset where
  dies : List DieId
  toReport : List DieId
  deriving DecidableEq, Repr

/-- A tenant's record on one die (Table 17.4): resets since power-up, the last reset's figures and the tenant's context faults. -/
structure TenRecord where
  start : Nat
  finish : Nat
  resets : Nat
  aborted : Nat
  slots : Nat
  ops : Nat
  flips : Nat
  faults : Nat
  lastFault : Nat
  deriving DecidableEq, Repr

/-- The contact sheet of one die (R84, R85): its bytes, the generation word and whether a change waits for the rewrite. -/
structure Sheet where
  bytes : List Byte
  gen : Nat
  deriving DecidableEq, Repr

/-- What D0 serves for another die (R50, R53): its control page by word, doorbells and completion slots by queue, the most recent
logbook entries by number modulo 1,024, the fault records by slot and the tenant records by tenant. -/
structure RelayCopy where
  page : Map W64
  bells : Map W64
  slots : Map W64
  log : Map (List Byte)
  faults : Map (List Byte)
  tenants : Map (List Byte)
  deriving DecidableEq, Repr

/-- A wait that a program holds on a fence (R80): its die, the fence word, the threshold, and the value that satisfied it, once a change of
the word has. -/
structure Watch where
  die : DieId
  pa : Nat
  thr : W64
  met : Option W64
  deriving DecidableEq, Repr

/-- The state of the package. `now` is the time in nanoseconds since VIN entered its range, `freeCtr` the counter behind free
values, `nextId` the next identifier of a dispatch, block, group, signal or commit, `pending` the commands that wait, first in
first out. -/
structure State where
  pending : List Instr
  now : Nat
  freeCtr : Nat
  nextId : Nat
  board : Board
  mem : List Host.Cell
  poison : Map Bool
  staging : Quad (Map Byte)
  stagingBad : Quad (Map Bool)
  pieces : Quad (Map Piece)
  sheets : Quad Sheet
  ports : Quad HostPort
  hregs : Quad HostRegs
  qregs : Quad QcpRegs
  doorbells : Quad (Map W64)
  forwards : Quad (List Forward)
  relays : Quad RelayCopy
  frozen : Nat
  tables : Quad Tables
  pins : Quad (Map Nat)
  resets : Map TenReset
  tenRecords : Quad (Map TenRecord)
  queues : Quad (Map Queue)
  stokers : Quad StokerUnit
  signals : Map Signal
  watches : Map Watch
  commits : Map Commit
  cores : Quad Cores
  memu : Quad MemUnit
  dma : Quad DmaUnit
  ret : Quad RetUnit
  gen : Quad GenUnit
  eas : Quad EasUnit
  geo : Quad GeoUnit
  lamps : Quad Lamp
  lampPkg : LampPkg
  times : Quad TimeD
  pps : PpsState
  logs : Quad LogBook
  cords : List Cord
  ends : Quad (List CordEnd)
  agree : Agree
  cordRegs : Quad CordRegs
  otps : Quad Otp
  secs : Quad Sec
  kilns : Quad Kiln
  taps : Quad Tap
  deriving DecidableEq, Repr

/-- The mode registers at a channel reset (R32): the standard's own registers read zero where the spec gives no value (DESIGN CHOICE,
log 5), and VND_PRBS is off; the registers whose value the spec fixes are read from it (R31, Table 2.3). -/
def mrReset : Map Byte := []

/-- A host-port channel held in reset (R30, R32). -/
def portReset : HostPort :=
  { resetN := false, releasedAt := 0, steps := 0, trained := false, down := false, mr := mrReset,
    parityWrites := [], mrWrites := [], rows := [], parErr := 0, dq := [], dmi := [], dqLanes := [], mrr := 0, fifo := [],
    prbsTx := 0, checkers := [], hpErr := errReset, drain := [], drainNext := 0, dropLogged := [], held := [] }

/-- A tenant with every quota at its maximum (R59). -/
def tenantMax : Tenant :=
  { state := .enabled, prioCeil := 3, autoEvict := false, maxSlots := 48, maxQueues := 4096, maxContexts := 65535,
    maxObjects := 1048575, maxPages := 0xFFFFFFFF, runList := 0 }

/-- A tenant that is DISABLED and has no record yet. -/
def tenantOff : Tenant :=
  { state := .disabled, prioCeil := 0, autoEvict := false, maxSlots := 0, maxQueues := 0, maxContexts := 0,
    maxObjects := 0, maxPages := 0, runList := 0 }

/-- The package tables at start (R54, R59, R68): tenant 0 ENABLED, every context and object FREE. -/
def tablesReset : Tables :=
  { tenants := tenantMax :: List.replicate 15 tenantOff, contexts := [], objects := [], stateGen := 0 }

/-- A FREE context. -/
def ctxFree : Ctx :=
  { state := .free, desc := 0, tenant := 0, prio := 0, noEvict := false, ptRoot := 0, save := [], regShare := 0, tileShare := 0, dieMask := 0 }

/-- A FREE object of generation 0. -/
def objFree : Obj :=
  { state := .free, tenant := 0, place := 0, homeDie := 0, gen := 0, pages := 0, pageList := 0, dirty := false }

/-- A piece tagged 0 with no clear running (R62). -/
def pieceFree : Piece := { tag := 0, clearing := none, sets := 0 }

/-- A FREE queue with an empty completion slot. -/
def queueFree : Queue :=
  { state := .free, engine := 0, ctx := 0, log2 := 0, wdogUs := none, ring := 0, head := 0, done := 0, tail := 0, fetched := [],
    runs := [], ended := [], low := 0, timeouts := 0, waitAddr := 0, waitThr := 0, waitCur := 0, slot := 0 }

/-- A free frame. -/
def frameFree (n : Nat) : Frame :=
  { busy := false, queue := 0, count := 0, ctx := 0, tenant := 0, shown := n, regs := [], pc := 0, region := [],
    regionBad := false, codeWin := 0, dataWin := 0, icache := [], park := .ended, walk := none, prog := 0,
    tag := 0, commitDesc := [] }

/-- A stoker without firmware. -/
def stokerReset : Stoker :=
  { handout := false, image := 0, dark := false, fenced := false, cur := 0, order := countUp 0 4, sliceAt := 0,
    rotating := false }

/-- An engine's submission side at reset. -/
def engineReset : Engine := { subs := [], full := [], count := 0, lastQueue := 0, fenced := false }

/-- The stoker side of a die at reset. -/
def stokerUnitReset : StokerUnit :=
  { stokers := rep 8 stokerReset, frames := (countUp 0 32).map frameFree, engines := rep 13 engineReset,
    lastEngine := 12, fullSince := none, fullLogged := 0, rotateTo := none }

/-- A FREE slot. -/
def slotFree : Slot := { state := .free, ctx := 0, since := 0, autoAt := none, discard := false, byAuto := false, owed := false }

/-- The cores of a die at reset. -/
def coresReset : Cores :=
  { slots := rep 48 slotFree, resid := [], saved := [], starvedSince := none, starved := false, auto := none, dispatches := [],
    blocks := [], groups := [], vrf := [], tile := [], near := [], served := [], issueNo := 0 }

/-- The memory side of a die at reset: 64 spare rows (R287). -/
def memReset : MemUnit :=
  { rows := [], upset := [], retiring := none, spares := 64, advice := [], cache := [], xlate := [], faultWins := [] }

/-- The DMA side of a die at reset. -/
def dmaReset : DmaUnit :=
  { chans := rep 16 { active := none, shadow := none, last := 0 }, queue := [], lines := [], aborted := [], err := errReset }

/-- A retort engine at reset. -/
def retEngineReset : RetEngine :=
  { waiting := [], job := none, inBuf := [], inTaken := 0, inUsed := 0, outBuf := [], outReleased := 0, outTaken := 0, reqIn := 0,
    reqOut := 0, blocks := 0, tabled := false, counts := [], dcounts := [], padding := false, stop := none, progressAt := 0,
    draining := false, mode := 0, op := 0, last := 0 }

/-- A FREE sequence. -/
def seqFree : GenSeq :=
  { state := 0, model := 0, prio := 0, flags := 0, ctx := 0, seed := 0, step := 0, costHint := 0, stateVa := 0, ioVa := 0, cookie := 0,
    lastAdmit := 0, histNs := rep 8 0, histCores := rep 8 0, histCount := 0, histNext := 0, skips := 0, pending := none, pins := [],
    dirty := false }

/-- A FREE model. -/
def modelFree : GenModel :=
  { loaded := false, maxBatch := 0, margin := 0, ctx := 0, worstFixed := 0, worstSeq := 0, steps := 0, histNs := rep 8 0,
    histCores := rep 8 0, histCount := 0, histNext := 0, pins := [], dirty := false }

/-- The generation engine at reset (Table 10.4). -/
def genReset : GenUnit :=
  { seqTable := 0, modelTable := 0, result := 0, budget := 0x12C, err := errReset, serial := 0, seqs := [], models := [], ops := [],
    steps := [] }

/-- A disabled layer. -/
def layerOff : Layer := { bytes := [], ctx := 0, tenant := 0, pages := [], pins := [] }

/-- The easel at reset (Table 13.7). -/
def easReset : EasUnit :=
  { ctl := 0x264, timH := 0, timV := 0, pclk := 0, bg := 0, blackoutCol := 0, owner := 0, aux0 := 0, aux1 := 0, auxResult := 0,
    rd0 := 0, rd1 := 0, err := errReset, crcs := [], mismatch := 0, blackout := 0, layers := rep 8 layerOff, table := rep 16 [],
    pending := [], decided := [], fresh := [], release := [], disable := 0, groupDecision := none, instant := false,
    report := none, held := [], latchDue := false, trained := none, frame := 0,
    hpd := false, linkUp := false, rate := 0, lanes := 0, locked := false, training := false, failed := false, tries := 0,
    aux := none, accum := [], line := 0, lineOut := [], underAt := none, safeAt := [] }

/-- The geometry engine at reset. -/
def geoReset : GeoUnit := { passes := [], ended := [], status := 0, counts := 0, err := errReset }

/-- The lamp controller of a die at reset: every domain dark. -/
def lampReset : Lamp :=
  { dom := rep 11 .dark, changing := none, target := 0, removed := 0, cappedAt := 0, restoredAt := 0, warn := false,
    draining := none, failed := 0, temps := rep 11 0 }

/-- The package lamp registers at reset (Table 15.4). -/
def lampPkgReset : LampPkg :=
  { envelope := 0x19, envPending := [], inForce := 25, order := 0x4E4, masks := rep 4 0xFFF }

/-- Device time before the time PLL locks (R384). -/
def timeReset : TimeD :=
  { running := false, dt := 0, slew := none, standFor := 0, epoch := 0, epochStart := 0, period := 16666667, shift := 0, owed := 0, lastSync := 0,
    sync := none }

/-- The PPS and period registers at reset (Table 15.6). -/
def ppsReset : PpsState :=
  { ctl := 1, periodReg := 0xFE502B, periodPending := [], seen := false, freeRun := false,
    lastAccepted := none, lastMarked := none, candidates := [], ignored := 0, steps := 0, error := 0, edge := 0, stepTime := 0,
    streak := 0 }

/-- An empty logbook. -/
def logReset : LogBook :=
  { head := 0, faultHead := 0, suppressed := 0, contained := 0, corrected := 0, severe := 0, lastCode := 0, fencedUnits := 0,
    dieError := false, ring := [], faults := [], msIndex := 0, msCount := 0, supCount := 0, supFirst := 0,
    fenced := [] }

/-- A dark cord. -/
def cordReset : Cord :=
  { lit := false, state := .dark, width := 0, repaired := 0, training := false, since := 0, failed := 0, checked := false, drops := 0 }

/-- A cord end with every class's credits at the receiver's slots (Table 14.3). -/
def endReset : CordEnd :=
  { txSeq := 0, replay := [], resend := [], rxNext := 0, gap := false, sendAck := 4095, sendNak := false, waiting := [],
    lastClass := 3, credits := [256, 1024, 1024, 1024, 64], freed := rep 5 0, asks := [], answers := [], late := [], replays := [],
    replayLogged := none, toLogged := none, toCount := 0, repCount := 0, err := errReset, slots := [], inbox := [], sent := none, checkers := [] }

/-- Agreement before any check. -/
def agreeReset : Agree :=
  { joined := 0, fenced := [], held := [], passed := 0, fresh := 0, timeOk := [], asked := [], checks := 0, cpv := 0, abi := 0, epochDone := 0 }

/-- The OTP of a die in the model's starting package: the factory row and slots hold zeros (DESIGN CHOICE, log 2). -/
def otpBlank : Otp :=
  { serial := 0, seed := rep 32 0, slots := rep 4 (rep 1024 0), floorRow := 0, spent := rep 4 false }

/-- Start-up state of a die whose rails are down (R389). -/
def secReset : Sec :=
  { stage := 0, failCause := 0, romOk := false, otpDone := false, active := none, hash := 0, idPub := rep 32 0, coreMap := [], arg0 := 0,
    arg1 := 0, result := 0, nonce := rep 4 0, image := none, pendingImage := none, oldImage := none, rotateStopped := false,
    loadFailed := false, copyFrom := none, token := none, kilnDone := none, waitOver := false, started := false, checkedAt3 := false, rotated := [], otpArg := 0,
    otpResult := 0, burning := none, raising := none, raiseLeft := [] }

/-- Kiln at reset: no domain under test (Table 18.5). -/
def kilnReset : Kiln :=
  { arg := 0, result := 0, tested := 0, passed := 0, failed := 0, current := 15, run := none, links := rep 3 0,
    dp := 0, dpActive := 0, dramResult := 0, dram := none }

/-- The TAP after a test-logic reset: BYPASS (R433). -/
def tapReset : Tap := { ir := 0xFF, cells := [], driven := [] }

/-- Registers of CTL, APT, TEN, CTX and OBJ at reset. -/
def hostRegsReset : HostRegs :=
  { version := 0, aptBase := [], aptStatus := 0, tenTable := 0, tenSeq := 0, tenStatus := 0, ctxTable := 0, ctxResult := 0,
    ctxResResult := 0, objTable := 0, objResult := 0, xlatResult := 0 }

/-- Registers of QCP and DBL at reset. -/
def qcpRegsReset : QcpRegs := { dblErr := errReset, result := 0, stats := 0, waitAddr := 0, waitThr := 0, waitCur := 0 }

/-- The board at the model's start: VIN in range at 1,800 mV, RESET_N low (R440; DESIGN CHOICE, log 2). -/
def boardReset : Board :=
  { vinMv := 1800, resetN := false, released := false, powerOk := false, tripHold := false, tripLatch := false, trip := 0,
    dynAddr := none, mgRegs := [(0, 0xB10004), (8, 9), (0x10, 0x0019000000000708)], lastRead := [] }

/-- An unwritten contact sheet. -/
def sheetReset : Sheet := { bytes := [], gen := 0 }

/-- A relay copy with nothing in it. -/
def relayReset : RelayCopy := { page := [], bells := [], slots := [], log := [], faults := [], tenants := [] }

/-- The machine right after reset. -/
def State.reset : State :=
  { pending := [], now := 0, freeCtr := 0, nextId := 1, board := boardReset, mem := [], poison := [], staging := qall [],
    stagingBad := qall [], pieces := qall [], sheets := qall sheetReset, ports := qall portReset, hregs := qall hostRegsReset,
    qregs := qall qcpRegsReset, doorbells := qall [], forwards := qall [], relays := qall relayReset, frozen := 0,
    tables := qall tablesReset, pins := qall [], resets := [], tenRecords := qall [], queues := qall [],
    stokers := qall stokerUnitReset, signals := [], watches := [], commits := [], cores := qall coresReset, memu := qall memReset,
    dma := qall dmaReset, ret := qall { e0 := retEngineReset, e1 := retEngineReset, err := errReset }, gen := qall genReset,
    eas := qall easReset, geo := qall geoReset, lamps := qall lampReset, lampPkg := lampPkgReset, times := qall timeReset,
    pps := ppsReset, logs := qall logReset, cords := rep 6 cordReset, ends := qall (rep 3 endReset), agree := agreeReset,
    cordRegs := qall { agree := 0, serials := rep 4 0, time := 0, reloading := false, mustReload := false, commitValues := [] }, otps := qall otpBlank,
    secs := qall secReset, kilns := qall kilnReset, taps := qall tapReset }

end Sys2Proof.Machine
end

