-- ==== Sys2Proof/Machine/Access.lean ====
section
/-! DEFINITION. Reading and writing one die's part of the state. -/

namespace Sys2Proof.Machine

/-- Die `d`'s part of `staging`. -/
def getStaging (s : State) (d : DieId) : Map Byte := qget s.staging d
/-- `s` with die `d`'s part of `staging` replaced. -/
def setStaging (s : State) (d : DieId) (x : Map Byte) : State := { s with staging := qset s.staging d x }
/-- Die `d`'s part of `stagingBad`. -/
def getStagingBad (s : State) (d : DieId) : Map Bool := qget s.stagingBad d
/-- `s` with die `d`'s part of `stagingBad` replaced. -/
def setStagingBad (s : State) (d : DieId) (x : Map Bool) : State := { s with stagingBad := qset s.stagingBad d x }
/-- Die `d`'s part of `pieces`. -/
def getPieces (s : State) (d : DieId) : Map Piece := qget s.pieces d
/-- `s` with die `d`'s part of `pieces` replaced. -/
def setPieces (s : State) (d : DieId) (x : Map Piece) : State := { s with pieces := qset s.pieces d x }
/-- Die `d`'s part of `sheets`. -/
def getSheet (s : State) (d : DieId) : Sheet := qget s.sheets d
/-- `s` with die `d`'s part of `sheets` replaced. -/
def setSheet (s : State) (d : DieId) (x : Sheet) : State := { s with sheets := qset s.sheets d x }
/-- Die `d`'s part of `ports`. -/
def getPort (s : State) (d : DieId) : HostPort := qget s.ports d
/-- `s` with die `d`'s part of `ports` replaced. -/
def setPort (s : State) (d : DieId) (x : HostPort) : State := { s with ports := qset s.ports d x }
/-- Die `d`'s part of `hregs`. -/
def getHregs (s : State) (d : DieId) : HostRegs := qget s.hregs d
/-- `s` with die `d`'s part of `hregs` replaced. -/
def setHregs (s : State) (d : DieId) (x : HostRegs) : State := { s with hregs := qset s.hregs d x }
/-- Die `d`'s part of `qregs`. -/
def getQregs (s : State) (d : DieId) : QcpRegs := qget s.qregs d
/-- `s` with die `d`'s part of `qregs` replaced. -/
def setQregs (s : State) (d : DieId) (x : QcpRegs) : State := { s with qregs := qset s.qregs d x }
/-- Die `d`'s part of `doorbells`. -/
def getBells (s : State) (d : DieId) : Map W64 := qget s.doorbells d
/-- `s` with die `d`'s part of `doorbells` replaced. -/
def setBells (s : State) (d : DieId) (x : Map W64) : State := { s with doorbells := qset s.doorbells d x }
/-- Die `d`'s part of `forwards`. -/
def getForwards (s : State) (d : DieId) : List Forward := qget s.forwards d
/-- `s` with die `d`'s part of `forwards` replaced. -/
def setForwards (s : State) (d : DieId) (x : List Forward) : State := { s with forwards := qset s.forwards d x }
/-- Die `d`'s part of `relays`. -/
def getRelay (s : State) (d : DieId) : RelayCopy := qget s.relays d
/-- `s` with die `d`'s part of `relays` replaced. -/
def setRelay (s : State) (d : DieId) (x : RelayCopy) : State := { s with relays := qset s.relays d x }
/-- Die `d`'s part of `tables`. -/
def getTables (s : State) (d : DieId) : Tables := qget s.tables d
/-- `s` with die `d`'s part of `tables` replaced. -/
def setTables (s : State) (d : DieId) (x : Tables) : State := { s with tables := qset s.tables d x }
/-- Die `d`'s part of `pins`. -/
def getPins (s : State) (d : DieId) : Map Nat := qget s.pins d
/-- `s` with die `d`'s part of `pins` replaced. -/
def setPins (s : State) (d : DieId) (x : Map Nat) : State := { s with pins := qset s.pins d x }
/-- Die `d`'s part of `tenRecords`. -/
def getTenRecs (s : State) (d : DieId) : Map TenRecord := qget s.tenRecords d
/-- `s` with die `d`'s part of `tenRecords` replaced. -/
def setTenRecs (s : State) (d : DieId) (x : Map TenRecord) : State := { s with tenRecords := qset s.tenRecords d x }
/-- Die `d`'s part of `queues`. -/
def getQueues (s : State) (d : DieId) : Map Queue := qget s.queues d
/-- `s` with die `d`'s part of `queues` replaced. -/
def setQueues (s : State) (d : DieId) (x : Map Queue) : State := { s with queues := qset s.queues d x }
/-- Die `d`'s part of `stokers`. -/
def getStk (s : State) (d : DieId) : StokerUnit := qget s.stokers d
/-- `s` with die `d`'s part of `stokers` replaced. -/
def setStk (s : State) (d : DieId) (x : StokerUnit) : State := { s with stokers := qset s.stokers d x }
/-- Die `d`'s part of `cores`. -/
def getCores (s : State) (d : DieId) : Cores := qget s.cores d
/-- `s` with die `d`'s part of `cores` replaced. -/
def setCores (s : State) (d : DieId) (x : Cores) : State := { s with cores := qset s.cores d x }
/-- Die `d`'s part of `memu`. -/
def getMemu (s : State) (d : DieId) : MemUnit := qget s.memu d
/-- `s` with die `d`'s part of `memu` replaced. -/
def setMemu (s : State) (d : DieId) (x : MemUnit) : State := { s with memu := qset s.memu d x }
/-- Die `d`'s part of `dma`. -/
def getDma (s : State) (d : DieId) : DmaUnit := qget s.dma d
/-- `s` with die `d`'s part of `dma` replaced. -/
def setDma (s : State) (d : DieId) (x : DmaUnit) : State := { s with dma := qset s.dma d x }
/-- Die `d`'s part of `ret`. -/
def getRet (s : State) (d : DieId) : RetUnit := qget s.ret d
/-- `s` with die `d`'s part of `ret` replaced. -/
def setRet (s : State) (d : DieId) (x : RetUnit) : State := { s with ret := qset s.ret d x }
/-- Die `d`'s part of `gen`. -/
def getGen (s : State) (d : DieId) : GenUnit := qget s.gen d
/-- `s` with die `d`'s part of `gen` replaced. -/
def setGen (s : State) (d : DieId) (x : GenUnit) : State := { s with gen := qset s.gen d x }
/-- Die `d`'s part of `eas`. -/
def getEas (s : State) (d : DieId) : EasUnit := qget s.eas d
/-- `s` with die `d`'s part of `eas` replaced. -/
def setEas (s : State) (d : DieId) (x : EasUnit) : State := { s with eas := qset s.eas d x }
/-- Die `d`'s part of `geo`. -/
def getGeo (s : State) (d : DieId) : GeoUnit := qget s.geo d
/-- `s` with die `d`'s part of `geo` replaced. -/
def setGeo (s : State) (d : DieId) (x : GeoUnit) : State := { s with geo := qset s.geo d x }
/-- Die `d`'s part of `lamps`. -/
def getLamp (s : State) (d : DieId) : Lamp := qget s.lamps d
/-- `s` with die `d`'s part of `lamps` replaced. -/
def setLamp (s : State) (d : DieId) (x : Lamp) : State := { s with lamps := qset s.lamps d x }
/-- Die `d`'s part of `times`. -/
def getTime (s : State) (d : DieId) : TimeD := qget s.times d
/-- `s` with die `d`'s part of `times` replaced. -/
def setTime (s : State) (d : DieId) (x : TimeD) : State := { s with times := qset s.times d x }
/-- Die `d`'s part of `logs`. -/
def getLog (s : State) (d : DieId) : LogBook := qget s.logs d
/-- `s` with die `d`'s part of `logs` replaced. -/
def setLog (s : State) (d : DieId) (x : LogBook) : State := { s with logs := qset s.logs d x }
/-- Die `d`'s part of `ends`. -/
def getEnds (s : State) (d : DieId) : List CordEnd := qget s.ends d
/-- `s` with die `d`'s part of `ends` replaced. -/
def setEnds (s : State) (d : DieId) (x : List CordEnd) : State := { s with ends := qset s.ends d x }
/-- Die `d`'s part of `cordRegs`. -/
def getCordRegs (s : State) (d : DieId) : CordRegs := qget s.cordRegs d
/-- `s` with die `d`'s part of `cordRegs` replaced. -/
def setCordRegs (s : State) (d : DieId) (x : CordRegs) : State := { s with cordRegs := qset s.cordRegs d x }
/-- Die `d`'s part of `otps`. -/
def getOtp (s : State) (d : DieId) : Otp := qget s.otps d
/-- `s` with die `d`'s part of `otps` replaced. -/
def setOtp (s : State) (d : DieId) (x : Otp) : State := { s with otps := qset s.otps d x }
/-- Die `d`'s part of `secs`. -/
def getSec (s : State) (d : DieId) : Sec := qget s.secs d
/-- `s` with die `d`'s part of `secs` replaced. -/
def setSec (s : State) (d : DieId) (x : Sec) : State := { s with secs := qset s.secs d x }
/-- Die `d`'s part of `kilns`. -/
def getKiln (s : State) (d : DieId) : Kiln := qget s.kilns d
/-- `s` with die `d`'s part of `kilns` replaced. -/
def setKiln (s : State) (d : DieId) (x : Kiln) : State := { s with kilns := qset s.kilns d x }
/-- Die `d`'s part of `taps`. -/
def getTap (s : State) (d : DieId) : Tap := qget s.taps d
/-- `s` with die `d`'s part of `taps` replaced. -/
def setTap (s : State) (d : DieId) (x : Tap) : State := { s with taps := qset s.taps d x }

end Sys2Proof.Machine
end

