-- ==== Sys2Proof/Machine/Hop.lean ====
section
/-! DEFINITION. The cords as a requester meets them (R15, R18, R19, R359, R364): which cord joins two dies, its ends, and how an access to
another die's memory goes. -/

namespace Sys2Proof.Machine

/-- The cord that joins two dies, in the order of Table 1.3. -/
def cordIdx (a b : DieId) : Nat :=
  match min a.val b.val, max a.val b.val with
  | 0, 1 => 0
  | 0, 2 => 1
  | 0, 3 => 2
  | 1, 2 => 3
  | 1, 3 => 4
  | _, _ => 5

/-- The two dies of a cord, the lower first. -/
def cordDies (i : Nat) : DieId × DieId :=
  match i with
  | 0 => (0, 1)
  | 1 => (0, 2)
  | 2 => (0, 3)
  | 3 => (1, 2)
  | 4 => (1, 3)
  | _ => (2, 3)

/-- The die whose memory holds a physical address (Table 11.1). -/
def dieOf (pa : Nat) : DieId := ⟨(pa / 2 ^ 33) % 4, Nat.mod_lt _ (by decide)⟩

/-- The die at the other end of end `e` of die `d` (R18). -/
def endPeer (d : DieId) (e : Nat) : DieId := ⟨(d.val + e + 1) % 4, Nat.mod_lt _ (by decide)⟩

/-- The end of die `d` that joins die `n` (R18). -/
def endTo (d n : DieId) : Nat := (n.val + 3 - d.val) % 4

/-- Cord `i`. -/
def cordOf (s : State) (i : Nat) : Cord := lget cordReset s.cords i

/-- A cord that leaves UP counts it (R311). -/
def dropCord (c : Cord) : Cord := if c.state = .up then { c with drops := c.drops + 1 } else c

/-- Replace cord `i`. -/
def setCord (s : State) (i : Nat) (c : Cord) : State := { s with cords := lset s.cords i c }

/-- End `e` of die `d`. -/
def endOf (s : State) (d : DieId) (e : Nat) : CordEnd := lget endReset (getEnds s d) e

/-- Replace end `e` of die `d`. -/
def setEnd (s : State) (d : DieId) (e : Nat) (x : CordEnd) : State := setEnds s d (lset (getEnds s d) e x)

/-- The cord of end `e` of die `d`. -/
def endCord (d : DieId) (e : Nat) : Nat := cordIdx d (endPeer d e)

/-- How an access of die `d` to die `n` goes (R15, R19, R359, R364): at home or over a cord that is up, answered; over one that is dark, fenced
or DOWN, not at all; over one that trains, answered after the training or timed out, which the spec leaves to when the training ends
(free, log 45). -/
inductive Hop where
  | answered
  | dark
  | late
  deriving DecidableEq, Repr

/-- The way an access of die `d` to die `n` goes now. -/
def hop (s : State) (d n : DieId) : Hop :=
  if d == n then .answered
  else
    let c := cordOf s (cordIdx d n)
    if c.state ≠ .up then .dark
    else if c.training && !Config.answersInTime (cordIdx d n) s.now then .late
    else .answered

/-- Whether an access of die `d` to die `n` is answered (R15, R19, R364). -/
def reach (s : State) (d n : DieId) : Bool := hop s d n == .answered

/-- The cause with which a unit's access to another die's memory fails (R288, R364): 0xFE for a time-out. -/
def hopCause (s : State) (d n : DieId) : Nat := if hop s d n = .late then 0xFE else 0x0A

/-- Whether a request of die `d` to die `n` waits for a training of their cord (R359). -/
def cordWaits (s : State) (d n : DieId) : Bool := !(d == n) && (cordOf s (cordIdx d n)).training

end Sys2Proof.Machine
end

