-- ==== Sys2Proof/Machine/Ask.lean ====
section
/-! DEFINITION. Requests over the cords at their requester (R288, R361, R363, R364): a unit of a die that needs another die's memory puts a
transaction on its end with a tag of its own, and goes on with the answer. -/

namespace Sys2Proof.Machine

/-! ### Tags and room (R361, Table 14.4) -/

/-- Slots of the response to a request (Table 14.5): its type and ARG. -/
def replySlots (typ arg : Nat) : Nat :=
  match typ with
  | 0x01 => if arg.testBit 0 then 9 else 5
  | 0x08 => 5
  | 0x04 => 2
  | _ => 1

/-- Slots of an end that responses still to come have taken (R361). -/
def slotsTaken (x : CordEnd) : Nat := (x.asks.map (fun e => e.2.room)).sum

/-- The lowest tag that no request of an end has, and no response that may still come. -/
def freeTag (x : CordEnd) : Option Nat := (countUp 0 4096).find? (fun t => (mfind x.asks t).isNone && !x.late.contains t)

/-- Whether an end has a request open for `who`. -/
def hasAsk (x : CordEnd) (who : Asker) : Bool := x.asks.any (fun e => e.2.who == who)

/-- The answer that has come to `who` on the end of die `d` to die `n`. -/
def answerOf (s : State) (d n : DieId) (who : Asker) : Option Answer := (endOf s d (endTo d n)).answers.find? (fun a => a.who == who)

/-- The answer accepted by its unit. -/
def dropAnswer (s : State) (d n : DieId) (who : Asker) : State :=
  let x := endOf s d (endTo d n)
  setEnd s d (endTo d n) { x with answers := x.answers.filter (fun a => !(a.who == who)) }

/-- A request as a unit makes it: who asks, the die, type, length in data slots, ADDR, ARG and data (Tables 14.4, 14.5). -/
structure AskFor where
  who : Asker
  die : DieId
  typ : Nat
  len : Nat
  addr : Nat
  arg : Nat
  data : List Byte

/-- The transaction of a request. -/
def askTx (a : AskFor) (tag : Nat) : CordTx :=
  { hdr := { typ := BitVec.ofNat 8 a.typ, cls := if a.typ = 6 ∨ a.typ = 7 then 0 else 1, len := BitVec.ofNat 4 a.len, tag := BitVec.ofNat 12 tag,
             status := 0, addr := BitVec.ofNat 40 a.addr, arg := BitVec.ofNat 56 a.arg },
    data := a.data }

/-- A request issued by a unit of die `d` (R361, R364): at once answered TARGET_DARK on a cord that is not UP; otherwise it waits on the end for
a flit, with room kept for its whole response. Without room or a tag it is not issued yet, and one that is open or answered is not issued again. -/
def askDie (d : DieId) (s : State) (a : AskFor) : State :=
  let e := endTo d a.die
  let x := endOf s d e
  if hasAsk x a.who ∨ (answerOf s d a.die a.who).isSome then s
  else if hop s d a.die = .dark then setEnd s d e { x with answers := x.answers ++ [{ who := a.who, status := 1, data := [] }] }
  else
    match freeTag x with
    | none => s
    | some t =>
      let room := replySlots a.typ a.arg
      if 1024 < slotsTaken x + room then s
      else setEnd s d e { x with waiting := x.waiting ++ [askTx a t], asks := mins x.asks t { who := a.who, typ := a.typ, at_ := s.now, room := room } }

/-- The answers to a list of requests, once every one has come. -/
def answersOf (s : State) (d : DieId) : List AskFor → Option (List (AskFor × Answer))
  | [] => some []
  | a :: r => (answerOf s d a.die a.who).bind (fun x => (answersOf s d r).map (fun l => (a, x) :: l))

/-- The answers to a list of requests accepted by their unit. -/
def dropAnswers (d : DieId) (s : State) (l : List AskFor) : State := l.foldl (fun t a => dropAnswer t d a.die a.who) s

/-- The cause with which a failed request ends at its unit (R288, R290, R364): TARGET_DARK, 0xFE for a time-out, 0xFF for poison. -/
def statusCause (status : Nat) : Nat := if status = 2 then 0xFF else if status = 3 then 0xFE else 0x0A

/-! ### Requests that write -/

/-- Cells split by 64-byte unit, in ascending order of first appearance. -/
def unitCells (cells : List Host.Cell) : List (Nat × List Host.Cell) :=
  ((cells.map (fun c => c.1 / 64)).eraseDups).map (fun u => (u, cells.filter (fun c => c.1 / 64 == u)))

/-- The bytes of a unit's cells at their places, and the mask of the bytes enabled. -/
def unitImage (base : Nat) (cells : List Host.Cell) : List Byte × Nat :=
  ((countUp 0 64).map (fun k => ((cells.find? (fun c => c.1 == base + k)).map (fun c => c.2)).getD 0),
   (countUp 0 64).foldl (fun m k => if cells.any (fun c => c.1 == base + k) then m + 2 ^ k else m) 0)

/-- A write of one unit's cells: whole, or under its byte enables (Table 14.5). `whole` and `part` are the two types. -/
def writeFor (who : Asker) (n : DieId) (whole part base addr arg : Nat) (cells : List Host.Cell) : AskFor :=
  let p := unitImage base cells
  if whole ≠ 0 ∧ p.2 = 2 ^ 64 - 1 then { who := who, die := n, typ := whole, len := 4, addr := addr, arg := arg, data := p.1 }
  else { who := who, die := n, typ := part, len := 5, addr := addr, arg := arg, data := natLe 8 p.2 ++ rep 8 0 ++ p.1 }

/-- A write of one unit of another die's memory. -/
def memWriteFor (who : Asker) (u : Nat) (cells : List Host.Cell) : AskFor := writeFor who (dieOf (64 * u)) 2 3 (64 * u) (64 * u) 0 cells

/-- A read of one unit of another die's memory. -/
def memReadFor (who : Asker) (u : Nat) : AskFor := { who := who, die := dieOf (64 * u), typ := 1, len := 0, addr := 64 * u, arg := 0, data := [] }

/-! ### What ends requests -/

/-- The requests of an end that `p` names answered TARGET_DARK (R364); the responses that may still come to them are discarded. -/
def failAsks (x : CordEnd) (p : Nat → Bool) : CordEnd :=
  let gone := x.asks.filter (fun e => p e.1)
  { x with asks := x.asks.filter (fun e => !(p e.1)), late := x.late ++ gone.map (fun e => e.1),
           answers := x.answers ++ gone.map (fun e => { who := e.2.who, status := 1, data := [] }) }

end Sys2Proof.Machine
end

