-- ==== Sys2Proof/Machine/Ops.lean ====
section
/-! DEFINITION. The shared operations: device memory and poison (R287, R290, R309), the W1C registers (R38), command results
(R57), time (R384), the logbook and its fault records (R410, R415, R419, R420), and the tenant and context tables' readers. -/

namespace Sys2Proof.Machine

/-! ### Outcomes -/

/-- A next state. -/
def ok (s : State) : Host.Outcome State Fault Refusal := .next s

/-- An event takes effect where its condition holds and is absorbed where it does not (log 8). -/
def event (c : Bool) (s t : State) : Host.Outcome State Fault Refusal := if c then .next t else .next s

/-! ### Device memory (R287 to R292) -/

/-- The canonical form of memory: addresses strictly rising, no byte listed that equals what an unlisted byte reads as (log 6). -/
abbrev Memory.wf (m : List Host.Cell) : Prop := mwf 0 m = true

/-- The byte at a physical address; a byte nothing has written reads 0 (log 6). -/
def memByte (s : State) (pa : Nat) : Byte := mget 0 s.mem pa

/-- `n` bytes from a physical address. -/
def memRead (s : State) (pa n : Nat) : List Byte := (countUp pa n).map (memByte s)

/-- The little-endian number of `n` bytes at a physical address. -/
def memNat (s : State) (pa n : Nat) : Nat := leNat (memRead s pa n)

/-- The 8-byte word at a physical address. -/
def memWord (s : State) (pa : Nat) : W64 := BitVec.ofNat 64 (memNat s pa 8)

/-- Whether the 64-byte chunk that holds a byte is poisoned (R290). -/
def poisonAt (s : State) (pa : Nat) : Bool := mget false s.poison (pa / 64)

/-- Whether any byte of a range is poisoned. -/
def poisonIn (s : State) (pa n : Nat) : Bool := s.poison.any (fun e => decide (pa < 64 * e.1 + 64) && decide (64 * e.1 < pa + n))

/-- The cells of one write put into memory, later ones of the same byte standing. -/
def putCells : List Host.Cell → List Host.Cell → List Host.Cell
  | m, [] => m
  | m, (a, b) :: r => putCells (mput 0 m a b) r

/-- Poison left after one write: a chunk all of whose 64 bytes it covers is clean again (R290). -/
def poisonAfter (p : Map Bool) (w : List Host.Cell) : Map Bool :=
  p.filter (fun e => !((countUp (64 * e.1) 64).all (fun a => (mfind w a).isSome)))

/-- The set of the die cache that holds a line: the line's number modulo 8,192 (PRESUMED, log 11). -/
def cacheSet (line : Nat) : Nat := line % 8192

/-- The advice in force for a line: the code of the newest entry that overlaps it (Table 11.2). -/
def adviceFor (m : MemUnit) (line : Nat) : Option Nat :=
  (m.advice.reverse.find? (fun e => e.2.any (fun r => decide (r.1 < 128 * line + 128) && decide (128 * line < r.1 + r.2)))).map (fun e => e.1)

/-- The lines of a full set less the one that a fill replaces: the least recently used, which only a KEEP fill takes from among the KEEP
lines (Table 11.2). -/
def evictLine (keep : Bool) (ways : List CacheLine) : List CacheLine :=
  match ways.reverse.find? (fun x => keep || !x.keep) with
  | some v => ways.erase v
  | none => ways.dropLast

/-- An access to a line of the die cache (R292): a line that is there becomes the most recently used, another is filled, as STREAM advice the
least recently used, as KEEP advice while fewer than 8 ways of its set are KEEP (Table 11.2). -/
def cacheTouch (m : MemUnit) (line : Nat) (dirty : Bool) : MemUnit :=
  let ways := mget [] m.cache (cacheSet line)
  let put (l : List CacheLine) : MemUnit := { m with cache := mput [] m.cache (cacheSet line) l }
  match ways.find? (fun x => x.line == line) with
  | some x => put ({ x with dirty := x.dirty || dirty } :: ways.erase x)
  | none =>
    let keep := adviceFor m line == some 2 && decide ((ways.filter (fun x => x.keep)).length < 8)
    let rest := if ways.length < 16 then ways else evictLine keep ways
    let x : CacheLine := { line := line, dirty := dirty, keep := keep }
    put (if adviceFor m line = some 1 then rest ++ [x] else x :: rest)

/-- Whether the die cache holds a line. -/
def cacheHas (m : MemUnit) (line : Nat) : Bool := (mget [] m.cache (cacheSet line)).any (fun x => x.line == line)

/-- The lines that a write touches, each once. -/
def linesOf (w : List Host.Cell) : List Nat := w.foldl (fun l e => if e.1 / 128 ∈ l then l else l ++ [e.1 / 128]) []

/-- The memory sides after a write: its lines are in their home dies' caches and dirty, and a chunk that it covers whole has fresh
parity (R290, R292). -/
def touchWrite (q : Quad MemUnit) (w : List Host.Cell) : Quad MemUnit :=
  (linesOf w).foldl (fun q l =>
    let d := dieOf (128 * l)
    let m := cacheTouch (qget q d) l true
    qset q d { m with upset := m.upset.filter (fun e => !((countUp (64 * e.1) 64).all (fun a => (mfind w a).isSome))) }) q

/-- A wait re-evaluated at a change of its fence word (R80): the change that satisfies it is kept. A poisoned word (R290) or one out of reach
(R98) satisfies none. -/
def watchAfter (s : State) (m : List Host.Cell) (p : Map Bool) (w : List Host.Cell) (x : Watch) : Watch :=
  let v : W64 := BitVec.ofNat 64 (leNat ((countUp x.pa 8).map (mget 0 m)))
  if x.met.isNone && w.any (fun e => decide (x.pa ≤ e.1) && decide (e.1 < x.pa + 8)) && reach s x.die (dieOf x.pa)
      && !(mget false p (x.pa / 64)) && !((v - x.thr).msb) then { x with met := some v } else x

/-- One write to device memory, as the bytes it enables: a chunk that is poisoned and not covered whole keeps its poison; the lines are in the
die cache (R292), and the waits on the words it changes are evaluated anew (R80). -/
def writeCells (s : State) (w : List Host.Cell) : State :=
  { s with mem := putCells s.mem w, poison := poisonAfter s.poison w, memu := touchWrite s.memu w,
           watches := mmap (fun _ x => watchAfter s (putCells s.mem w) (poisonAfter s.poison w) w x) s.watches }

/-- The cells of `bytes` laid from `a` on. -/
def cellsAt (a : Nat) : List Byte → List Host.Cell
  | [] => []
  | b :: r => (a, b) :: cellsAt (a + 1) r

/-- A write of consecutive bytes. -/
def memWrite (s : State) (pa : Nat) (bytes : List Byte) : State := writeCells s (cellsAt pa bytes)

/-- A write of one 8-byte word. -/
def memWriteWord (s : State) (pa : Nat) (v : W64) : State := memWrite s pa (natLe 8 v.toNat)

/-- Whether a physical address names memory (R287). -/
def paValid (pa : Nat) : Bool := decide (pa < 2 ^ 35)

/-! ### Staging (R35, R62 to R64) -/

/-- Staging bytes of die `d` from offset `o` of the staging area. -/
def stageRead (s : State) (d : DieId) (o n : Nat) : List Byte := (countUp o n).map (mget 0 (getStaging s d))

/-- Staging bytes written. -/
def stageWrite (s : State) (d : DieId) (o : Nat) (bytes : List Byte) : State :=
  setStaging (setStagingBad s d ((getStagingBad s d).filter (fun e => !(decide (o ≤ e.1) && decide (e.1 < o + bytes.length))))) d
    (putCells (getStaging s d) (cellsAt o bytes))

/-- Piece `p` of die `d`. -/
def pieceOf (s : State) (d : DieId) (p : Nat) : Piece := mget pieceFree (getPieces s d) p

/-- Whether the pieces that a staging range spans all carry the tag and none is changing (R63). -/
def stageOk (s : State) (d : DieId) (o n tag : Nat) : Bool :=
  (countUp (o / 65536) ((o + n - 1) / 65536 - o / 65536 + 1)).all
    (fun p => (pieceOf s d p).tag == tag && (pieceOf s d p).clearing.isNone)

/-! ### Registers -/

/-- Raise flag `i` of a W1C register (R38). -/
def raiseFlag (r : W64) (i : Nat) : W64 := setFld r i i 1

/-- Add `n` to the saturating count in bits [hi:lo] (R38). -/
def bumpFld (r : W64) (hi lo n : Nat) : W64 := setFld r hi lo (satAdd (hi + 1 - lo) (fld r hi lo) n)

/-- A W1C write: the flags written as 1 clear, and each count named with a flag clears with it (R38). `counts` lists, for a flag,
the bits of its count. -/
def clearFlags (r v : W64) (flags : Nat) (counts : List (Nat × Nat × Nat)) : W64 :=
  counts.foldl (fun acc c => if bit v c.1 then setFld acc c.2.1 c.2.2 0 else acc)
    (r &&& ~~~(v &&& BitVec.ofNat 64 (2 ^ flags - 1)))

/-- What a W1C register has had raised in the instant `now` (R38; an instant is a nanosecond of `now`, log 40). -/
def errFresh (r : ErrReg) (now : Nat) : W64 := if r.inst = now then r.fresh else 0

/-- Flag `i` of a W1C register raised at `now`. -/
def errRaise (r : ErrReg) (now i : Nat) : ErrReg := { val := raiseFlag r.val i, inst := now, fresh := raiseFlag (errFresh r now) i }

/-- `n` raises counted at `now` in bits [hi:lo] of a W1C register. -/
def errCount (r : ErrReg) (now hi lo n : Nat) : ErrReg :=
  { val := bumpFld r.val hi lo n, inst := now, fresh := bumpFld (errFresh r now) hi lo n }

/-- A write of a W1C register at `now` (R38): flags and counts clear, and then stand as the raises of this very instant leave them. -/
def errClear (r : ErrReg) (now : Nat) (v : W64) (flags : Nat) (counts : List (Nat × Nat × Nat)) : ErrReg :=
  let f := errFresh r now
  let base := counts.foldl (fun acc c => if bit v c.1 then setFld acc c.2.1 c.2.2 (fld f c.2.1 c.2.2) else acc)
    (clearFlags r.val v flags counts)
  { r with val := base ||| (f &&& v &&& BitVec.ofNat 64 (2 ^ flags - 1)) }

/-- A command result: SEQ advanced, STATUS and the block's own fields (R57). -/
def cmdResult (old : W64) (status : Nat) (fields : List (Nat × Nat)) : W64 :=
  packFields (((fld old 15 0 + 1) % 65536, 0) :: (status, 16) :: fields)

/-- Count an ignored write in CTL_HP_ERR.WR_DISCARD of the channel it came through (R36). -/
def countDiscard (s : State) (d : DieId) : State :=
  let p := getPort s d
  setPort s d { p with hpErr := errCount (errRaise p.hpErr s.now 2) s.now 31 16 1 }

/-! ### Time -/

/-- Device time of a die (R384). -/
def dtime (s : State) (d : DieId) : Nat := (getTime s d).dt

/-- The next occasion of free values, and the state that has used it (log 4). -/
def useFree (s : State) : State := { s with freeCtr := s.freeCtr + 1 }

/-! ### The logbook (17) -/

/-- What an entry and its fault record carry besides time and count (Tables 17.3, 17.6). -/
structure LogInfo where
  code : Nat
  kind : Nat
  index : Nat := 0
  tenant : Option Nat := none
  ctx : Option Nat := none
  detail : List Byte := []
  addr : Nat := 0
  pc : Nat := 0
  bx : Nat := 0
  byy : Nat := 0
  bz : Nat := 0
  group : Nat := 0
  cause : Nat := 0
  queue : Nat := 0
  sub : Nat := 0

/-- Class of a code (Table 17.7). -/
def codeClass (c : Nat) : Nat :=
  if c ∈ [0x0102, 0x0201, 0x0202, 0x0206, 0x0303, 0x0402, 0x0406, 0x0501, 0x0603, 0x0802, 0x0803, 0x0804, 0x0805, 0x0806, 0x0807,
      0x0908, 0x0909, 0x0A01, 0x0A02, 0x0A03, 0x0A04, 0x0B02, 0x0C01, 0x0C02, 0x0C05, 0x0C06] then 0
  else if c ∈ [0x0601, 0x0605, 0x0608, 0x0901, 0x0902, 0x0904] then 1
  else if c ∈ [0x0204, 0x0205, 0x0604, 0x0903, 0x0B03, 0x0C03] then 3
  else if c ∈ [0x0906, 0x0907, 0x0B01, 0x0C04] then 4
  else 2

/-- Severity of a code (Table 17.7). -/
def codeSev (c : Nat) : Nat :=
  if c ∈ [0x0406, 0x0901, 0x0908, 0x0C06] then 0
  else if c ∈ [0x0102, 0x0201, 0x0202, 0x0206, 0x0303, 0x0402, 0x0501, 0x0601, 0x0603, 0x0605, 0x0802, 0x0803, 0x0804, 0x0807,
      0x0902, 0x0909, 0x0A01, 0x0A03, 0x0A04, 0x0C01, 0x0C02, 0x0C05] then 1
  else if c ∈ [0x0204, 0x0205, 0x0903, 0x0906, 0x0907, 0x0B01, 0x0B03, 0x0C03, 0x0C04] then 3
  else 2

/-- The SOURCE word: unit kind and index (R419, R451). -/
def logSource (i : LogInfo) : Nat := 256 * i.kind + i.index % 256

/-- The 32 bytes of an entry (Table 17.6). -/
def logBytes (time : Nat) (i : LogInfo) : List Byte :=
  natLe 8 time ++ natLe 2 (logSource i)
    ++ natLe 1 (i.tenant.getD 0 % 16 + 16 * codeSev i.code + 64 * b2n i.ctx.isSome + 128 * b2n i.tenant.isSome)
    ++ natLe 1 (codeClass i.code) ++ natLe 2 i.code ++ natLe 2 (i.ctx.getD 0) ++ padTo 16 0 i.detail

/-- The 64 bytes of a context fault record (Table 17.3). -/
def faultBytes (time number logIndex : Nat) (d : DieId) (i : LogInfo) : List Byte :=
  natLe 8 time ++ natLe 4 number ++ natLe 2 (i.ctx.getD 0) ++ natLe 1 (i.tenant.getD 0) ++ natLe 1 d.val ++ natLe 2 i.code
    ++ natLe 2 (logSource i) ++ natLe 4 logIndex ++ natLe 8 i.addr ++ natLe 8 i.pc ++ natLe 4 i.bx ++ natLe 2 i.byy
    ++ natLe 2 i.bz ++ natLe 1 i.group ++ natLe 1 i.cause ++ natLe 2 i.queue ++ natLe 4 i.sub ++ natLe 8 0

/-- Counts by class, of an entry written or suppressed (R420, Table 17.9, Table 19.5). -/
def logCount (l : LogBook) (code : Nat) : LogBook :=
  let c := codeClass code
  { l with contained := satAdd 16 l.contained (b2n (c == 2)), corrected := satAdd 16 l.corrected (b2n (c == 1)),
           severe := satAdd 16 l.severe (b2n (decide (3 ≤ c))), lastCode := if 2 ≤ c then code else l.lastCode }

/-- An entry put into the ring (R419). -/
def logPut (l : LogBook) (time : Nat) (i : LogInfo) : LogBook :=
  { l with ring := mput [] l.ring (l.head % 4096) (logBytes time i), head := l.head + 1 }

/-- The LOG_SUPPRESSED entry of a millisecond in which entries were suppressed (R420). -/
def logFlush (l : LogBook) (time : Nat) : LogBook :=
  if l.supCount = 0 then l
  else
    let i : LogInfo := { code := 0x0C05, kind := 0x0D, detail := natLe 8 l.supCount ++ natLe 8 l.supFirst }
    { logPut (logCount l 0x0C05) time i with supCount := 0, supFirst := 0 }

/-- The logbook at the millisecond of `time`: a new millisecond closes the last one (R420). -/
def logRoll (l : LogBook) (time : Nat) : LogBook :=
  if l.msIndex = time / 1000000 then l else { logFlush l time with msIndex := time / 1000000, msCount := 0 }

/-- One entry, written or suppressed, with its fault record where it names a context (R415, R420). `quiet` withholds the record
(R418). -/
def logStep (l0 : LogBook) (d : DieId) (time : Nat) (i : LogInfo) (quiet : Bool) : LogBook :=
  let l := logCount (logRoll l0 time) i.code
  let index := l.head
  let l1 :=
    if l.msCount < 1024 then { logPut l time i with msCount := l.msCount + 1 }
    else { l with supCount := l.supCount + 1, supFirst := if l.supCount = 0 then i.code else l.supFirst,
                  suppressed := satAdd 16 l.suppressed 1 }
  if i.ctx.isSome && decide (2 ≤ codeClass i.code) && !(i.code == 0x0607) && !quiet then
    { l1 with faults := mput [] l1.faults (l1.faultHead % 448) (faultBytes time (l1.faultHead % 2 ^ 32) (index % 2 ^ 32) d i),
              faultHead := l1.faultHead + 1 }
  else l1

/-- D0's copy of the tables. -/
def tabs (s : State) : Tables := s.tables.d0

/-- Tenant `t` as die `d` holds it. -/
def tenantOf (s : State) (d : DieId) (t : Nat) : Tenant := lget tenantOff (getTables s d).tenants t

/-- Context `c` as die `d` holds it. -/
def ctxOf (s : State) (d : DieId) (c : Nat) : Ctx := mget ctxFree (getTables s d).contexts c

/-- Object `i` as die `d` holds it. -/
def objOf (s : State) (d : DieId) (i : Nat) : Obj := mget objFree (getTables s d).objects i

/-- Queue `q` of die `d`. -/
def queueOf (s : State) (d : DieId) (q : Nat) : Queue := mget queueFree (getQueues s d) q

/-- Replace queue `q` of die `d`. -/
def setQueue (s : State) (d : DieId) (q : Nat) (x : Queue) : State := setQueues s d (mput queueFree (getQueues s d) q x)

/-- Whether a tenant is being reset. -/
def resettingTenant (s : State) (t : Nat) : Bool := (tenantOf s 0 t).state == .resetting

/-- Make one logbook entry on die `d` (R419, R420), with the context fault record that R415 asks for; a tenant that is being
reset gets none (R418). -/
def logEntry (s : State) (d : DieId) (i : LogInfo) : State :=
  let quiet := match i.tenant with
    | some t => resettingTenant s t
    | none => false
  setLog s d (logStep (getLog s d) d (dtime s d) i quiet)

/-- Detail layout V: two words (17). -/
def detV (a b : Nat) : List Byte := natLe 8 a ++ natLe 8 b

/-- Detail layout A: address, cause, space, queue or window, count. -/
def detA (addr cause space q count : Nat) : List Byte := natLe 8 addr ++ natLe 1 cause ++ natLe 1 space ++ natLe 2 q ++ natLe 4 count

/-- Detail layout F: fence address, queue, threshold. -/
def detF (va q thr : Nat) : List Byte := natLe 6 va ++ natLe 2 q ++ natLe 8 thr

/-- Detail layout G: model, sequences admitted, E, T, step serial. -/
def detG (model count e t serial : Nat) : List Byte :=
  natLe 1 model ++ natLe 1 0 ++ natLe 2 count ++ natLe 4 e ++ natLe 4 t ++ natLe 4 serial

/-- Detail layout K: pc, block, group and quarter, merged faults. -/
def detK (pc x y z group merged : Nat) : List Byte := natLe 6 pc ++ natLe 4 x ++ natLe 2 y ++ natLe 2 z ++ natLe 1 group ++ natLe 1 merged

/-- Detail layout B: barrier, lanes arrived, lanes live, then bytes 6 to 15 as in K. -/
def detB (bar arrived live x y z group merged : Nat) : List Byte :=
  natLe 1 bar ++ natLe 1 0 ++ natLe 2 arrived ++ natLe 2 live ++ natLe 4 x ++ natLe 2 y ++ natLe 2 z ++ natLe 1 group ++ natLe 1 merged

/-- Detail layout O: engine, cause, queue, submission count, a value. -/
def detO (engine cause q sub v : Nat) : List Byte := natLe 1 engine ++ natLe 1 cause ++ natLe 2 q ++ natLe 4 sub ++ natLe 8 v

/-- Detail layout P: pass, dies, L, a value. -/
def detP (pass dies l v : Nat) : List Byte := natLe 4 pass ++ natLe 1 dies ++ natLe 1 l ++ natLe 2 0 ++ natLe 8 v

/-! ### Reads of device memory (R289 to R292) -/

/-- A row's record before any event. -/
def rowFresh : RowState := { corrected := 0, logged := none, failed := false, retired := false, exhausted := false }

/-- A row's record. -/
def rowOf (s : State) (d : DieId) (r : Nat) : RowState := mget rowFresh (getMemu s d).rows r

/-- The row of its die that holds a physical address. -/
def rowAt (pa : Nat) : Nat := pa % 2 ^ 33 / 16384

/-- Whether an access waits for the copy of its row to a spare (R291). -/
def rowWaits (s : State) (pa n : Nat) : Bool :=
  match (getMemu s (dieOf pa)).retiring with
  | some r => decide (rowAt pa ≤ r) && decide (r ≤ rowAt (pa + n - 1))
  | none => false

/-- A chunk read from DRAM (R289): a mismatch that the reread clears is a corrected event, logged at most once per row and second; one that it
does not clear poisons the chunk. A chunk of stored poison is no new error. -/
def readChunk (s : State) (c : Nat) : State :=
  let d := dieOf (64 * c)
  let m := getMemu s d
  let row := rowAt (64 * c)
  let r := rowOf s d row
  match mfind m.upset c, mget false s.poison c with
  | some false, false =>
    let due := match r.logged with | some t => decide (t + 1000000000 ≤ dtime s d) | none => true
    let r1 : RowState := { r with corrected := r.corrected + 1, logged := if due then some (dtime s d) else r.logged }
    let s1 := setMemu s d { m with upset := mdel m.upset c, rows := mput rowFresh m.rows row r1 }
    if due then logEntry s1 d { code := 0x0601, kind := 0x06, detail := detA (64 * c) 0 1 0 r1.corrected } else s1
  | some true, false =>
    let s1 := setMemu { s with poison := mput false s.poison c true } d
      { m with upset := mdel m.upset c, rows := mput rowFresh m.rows row { r with failed := true } }
    logEntry s1 d { code := 0x0602, kind := 0x06, detail := detA (64 * c) 0 1 0 0 }
  | _, _ => s

/-- One access to a line by a read (R292): a line that the die cache lacks is read from DRAM. -/
def readLine (s : State) (line : Nat) : State :=
  let d := dieOf (128 * line)
  let s1 := if cacheHas (getMemu s d) line then s else readChunk (readChunk s (2 * line)) (2 * line + 1)
  setMemu s1 d (cacheTouch (getMemu s1 d) line false)

/-- What a read of `n` bytes does to the memory side before its bytes are given (R289, R292). -/
def noteRead (s : State) (pa n : Nat) : State :=
  if n = 0 then s else (countUp (pa / 128) ((pa + n - 1) / 128 - pa / 128 + 1)).foldl readLine s

end Sys2Proof.Machine
end

