-- ==== Sys2Proof/Machine/Lamp.lean ====
section
/-! DEFINITION. Lamps and thermal control (15, R374 to R382): what is lit, the lit target of R378, the transitions of R379, the
sensors; and the gate that every register-slot write passes (R36, R44, 16). -/

namespace Sys2Proof.Machine

/-! ### Register-slot writes -/

/-- Blocks that kindling serves before firmware runs: CTL, APT, LAMP, TIME, KILN, OTP, SEC (16). -/
def slotServed (s : State) (d : DieId) (blk : Nat) : Bool := (getSec s d).started || blk ∈ [0, 6, 7, 8, 10, 11, 12]

/-- A slot write of block `blk` on die `d`: all-ones is no write (R44); a block that is not served ignores and counts it;
nothing is served while POWER_OK is low (R30). -/
def viaSlot (s : State) (d : DieId) (blk : Nat) (v : W64) (f : State → State) : State :=
  if v = BitVec.allOnes 64 ∨ ¬ s.board.powerOk then s else if slotServed s d blk then f s else countDiscard s d

/-- A register that acts only through D0 (R54, R377, R384): on D1 to D3 the write is ignored and counted. -/
def onD0 (s : State) (d : DieId) (f : State → State) : State := if d = 0 then f s else countDiscard s d

/-! ### Domains -/

/-- The state of domain `x` of die `d`. -/
def domOf (s : State) (d : DieId) (x : Nat) : Dom := lget .dark (getLamp s d).dom x

/-- Whether domain `x` of die `d` is lit and not changing. -/
def domLit (s : State) (d : DieId) (x : Nat) : Bool :=
  domOf s d x == .lit && (match (getLamp s d).changing with | some (y, _) => !(x == y) | none => true)

/-- A die is awake while at least one of its switched domains is lit (R376), and while kiln has woken it for a run (R424). -/
def awake (s : State) (d : DieId) : Bool :=
  (getLamp s d).dom.any (fun x => x == .lit) || (match (getKiln s d).run with | some r => r.awake | none => false)

/-- Whether a kiln run is not yet finished with a domain (R425). -/
def kilnHolds (s : State) (d : DieId) (x : Nat) : Bool :=
  (getKiln s d).current == x || (match (getKiln s d).run with | some r => r.left.contains x | none => false)

/-- Whether the cluster of enabled core `m` is lit (R17). -/
def coreLit (s : State) (d : DieId) (m : Nat) : Bool := domLit s d (m / 4)

/-- Enabled cores in lit clusters of a die. -/
def litCores (s : State) (d : DieId) : Nat := 4 * ((countUp 0 8).filter (domLit s d)).length

/-- Allowance of a lit domain in quarter-watts (Table 15.1). -/
def litQw (x : Nat) : Nat := if x < 8 then 9 else if x = 10 then 4 else 6

/-- Allowance of a domain as it stands: a changing domain counts at its lit allowance (R375, R379). -/
def domQw (l : Lamp) (x : Nat) : Nat :=
  match l.changing with
  | some (y, _) => if x = y then litQw x else match lget .dark l.dom x with | .lit => litQw x | .ember => 1 | .dark => 0
  | none => match lget .dark l.dom x with | .lit => litQw x | .ember => 1 | .dark => 0

/-- What a domain under kiln adds to its allowance: it is counted as lit (R424). -/
def kilnQw (s : State) (d : DieId) : Nat :=
  let x := (getKiln s d).current
  if x < 11 then litQw x - domQw (getLamp s d) x else 0

/-- Allowance of the present states of the package, cords included. -/
def usedQw (s : State) : Nat :=
  24 + (allDies.map (fun d => (if awake s d then 20 else 0) + ((countUp 0 11).map (domQw (getLamp s d))).sum + kilnQw s d)).sum
    + 4 * (s.cords.filter (fun c => c.lit)).length

/-- LAMP_MASKn. -/
def maskOfDie (s : State) (n : DieId) : W64 := lget 0 s.lampPkg.masks n.val

/-- Domains of die `n` that its mask allows and that kiln or a fence has not taken out (R378, R409, R413). -/
def allowed (s : State) (n : DieId) (x : Nat) : Bool := bit (maskOfDie s n) x && !((getLamp s n).failed.testBit x)

/-- REST bit of a cluster (Table 15.5). -/
def restEmber (s : State) (n : DieId) (c : Nat) : Bool := bit (maskOfDie s n) (16 + c)

/-- The die order of LAMP_ORDER. -/
def lampOrderList (o : W64) : List DieId := [0, ⟨fld o 3 2 % 4, Nat.mod_lt _ (by decide)⟩, ⟨fld o 5 4 % 4, Nat.mod_lt _ (by decide)⟩,
  ⟨fld o 7 6 % 4, Nat.mod_lt _ (by decide)⟩]

/-- Whether a die may be woken (R378, R392). -/
def eligible (s : State) (n : DieId) : Bool :=
  (mfind s.agree.held n.val).isNone && ((n == 0 && (getSec s 0).started) || (getSec s n).checkedAt3)

/-- Accumulator of the fill of R378: used allowance, dies awake, targets, whether the fill has stopped. -/
structure Fill where
  used : Nat
  awake : List DieId
  targets : Quad Nat
  stopped : Bool

/-- The clusters of a die lit while the budget holds (R378, inner loop). -/
def fillClusters (s : State) (n : DieId) (budget : Nat) : List Nat → Nat → Nat → Nat × Nat
  | [], used, t => (used, t)
  | c :: r, used, t =>
    let inc := 9 - b2n (restEmber s n c)
    if budget < used + inc then (used, t) else fillClusters s n budget r (used + inc) (t ||| 2 ^ c)

/-- One die of the fill (R378). -/
def fillDie (s : State) (budget : Nat) (f : Fill) (n : DieId) : Fill :=
  if f.stopped then f
  else if n ≠ 0 ∧ ¬ bit (maskOfDie s n) 11 then { f with stopped := true }
  else if n ≠ 0 ∧ ¬ eligible s n then f
  else
    let fixedDoms := [8, 9, 10].filter (allowed s n)
    let cl := (countUp 0 8).filter (allowed s n)
    let fixed := 20 + 4 * f.awake.length + (fixedDoms.map litQw).sum + (cl.map (fun c => b2n (restEmber s n c))).sum
    let k := if n = 0 then 0 else min (fld s.lampPkg.order 11 8) cl.length
    if budget < f.used + fixed + ((cl.take k).map (fun c => 9 - b2n (restEmber s n c))).sum then { f with stopped := true }
    else
      let (used, t) := fillClusters s n budget cl (f.used + fixed) (fixedDoms.foldl (fun a x => a ||| 2 ^ x) 0)
      { f with used := used, awake := f.awake ++ [n], targets := qset f.targets n t }

/-- The lit target of the package (R378). -/
def fillTarget (s : State) : Fill :=
  (lampOrderList s.lampPkg.order).foldl (fillDie s (4 * s.lampPkg.inForce)) { used := 24, awake := [], targets := qall 0, stopped := false }

/-- D0 computes the lit target anew and every die takes its part (R377, R378). Before D0 has applied the envelope no domain is
targeted. -/
def retarget (s : State) : State :=
  let t := if (getSec s 0).started then (fillTarget s).targets else qall 0
  { s with lamps := qmap (fun d l => { l with target := qget t d }) s.lamps }

/-- The `n` highest-numbered clusters taken out of a target (R381). -/
def dropHigh : Nat → Nat → Nat → Nat
  | 0, t, _ => t
  | k + 1, t, n => if n = 0 then t else if t.testBit k then dropHigh k (t - 2 ^ k) (n - 1) else dropHigh k t n

/-- The target a die works towards: the lit target less the clusters its thermal cap removed and the domains kiln holds
(R381, R425). -/
def dieTarget (s : State) (d : DieId) : Nat :=
  let l := getLamp s d
  let t := dropHigh 8 l.target l.removed
  (countUp 0 11).foldl (fun a x => if kilnHolds s d x && a.testBit x then a - 2 ^ x else a) t

/-- Where domain `x` of die `d` is to rest or stand (R378, R381). -/
def wanted (s : State) (d : DieId) (x : Nat) : Dom :=
  let t := dieTarget s d
  if t.testBit x then .lit
  else if kilnHolds s d x then .dark
  else if x < 8 && decide (0 < t) && allowed s d x && restEmber s d x then .ember
  else .dark

/-- Whether a group of any context stands on a core of a cluster. -/
def clusterBusy (s : State) (d : DieId) (c : Nat) : Bool := (getCores s d).blocks.any (fun b => b.2.core / 4 == c)

/-- Whether a stop bath or a save runs on the die (R136). -/
def bathRunning (s : State) (d : DieId) : Bool :=
  (getCores s d).slots.any (fun x => x.state == .stopping || x.state == .saving)

/-- Whether a pass holds domain `x` of die `d` lit (R243): the leader's pass says which. -/
def passHolds (s : State) (d : DieId) (x : Nat) : Bool :=
  allDies.any (fun n => (getGeo s n).passes.any (fun p => !p.done && !p.aborted && (qget p.held d).testBit x))

/-- Whether a domain that is to leave the lit state must stay lit (R379). -/
def holdOf (s : State) (d : DieId) (x : Nat) : Bool :=
  if x < 8 then clusterBusy s d x || bathRunning s d || passHolds s d x
  else if x = 8 then passHolds s d x
  else if x = 9 then !((getGen s d).steps.isEmpty) || (getRet s d).e0.job.isSome || (getRet s d).e1.job.isSome
  else bit (getEas s d).ctl 0

/-- Bits of LAMP_STATEn.HOLD (R379), with the domains that kiln holds out of the lit target (R425). -/
def holdMask (s : State) (d : DieId) : Nat :=
  ((countUp 0 11).filter (fun x => (domOf s d x == .lit && !(wanted s d x == .lit) && holdOf s d x)
    || (kilnHolds s d x && (getLamp s d).target.testBit x))).foldl (fun a x => a + 2 ^ x) 0

/-- Whether lighting or clearing domain `x` of die `d` fits the envelope in force (R379). -/
def fits (s : State) (d : DieId) (x : Nat) : Bool :=
  let inc := litQw x - domQw (getLamp s d) x
    + (if awake s d then 0 else 20 + 4 * ((allDies.filter (fun n => n ≠ d && awake s n)).length))
  decide (usedQw s + inc ≤ 4 * s.lampPkg.inForce)

/-- The next change of a die under R379: its three phases in order. -/
def nextChange (s : State) (d : DieId) : Option (Nat × Dom) :=
  let p1 := (countUp 0 8).reverse.filter (fun c => domOf s d c == .ember && wanted s d c == .dark)
  let p2 := ([7, 6, 5, 4, 3, 2, 1, 0, 10, 9, 8] : List Nat).filter
    (fun x => domOf s d x == .lit && !(wanted s d x == .lit) && !holdOf s d x)
  let em := if awake s d then (countUp 0 8).filter (fun c => domOf s d c == .dark && wanted s d c == .ember) else []
  let p3 := ([8, 9, 10] : List Nat).filter (fun x => !(domOf s d x == .lit) && wanted s d x == .lit) ++ em
    ++ (countUp 0 8).filter (fun c => !(domOf s d c == .lit) && wanted s d c == .lit)
  match p1, p2, p3 with
  | c :: _, _, _ => some (c, .dark)
  | [], x :: _, _ => some (x, wanted s d x)
  | [], [], x :: _ => if fits s d x then some (x, wanted s d x) else none
  | [], [], [] => none

/-- The cluster that is to leave the lit state and still has groups, for which the drain of R136 begins; one that a pass holds lit stays
(R243). -/
def nextDrain (s : State) (d : DieId) : Option Nat :=
  ((countUp 0 8).reverse.filter (fun c => domOf s d c == .lit && !(wanted s d c == .lit) && clusterBusy s d c && !passHolds s d c)).head?

/-! ### LAMP registers -/

/-- Whether an envelope value is legal: 25 to 120 in steps of 5 and within ENVELOPE_CAP of the active generation (R377, R396). -/
def envelopeLegal (s : State) (w : Nat) : Bool :=
  decide (25 ≤ w) && decide (w ≤ 120) && w % 5 == 0 &&
    (match (getSec s 0).active with
     | some g => decide (w ≤ leAt (lget [] (getOtp s 0).slots g) 0x49 1)
     | none => true)

/-- A write of LAMP_ENVELOPE (R377): it waits for the first epoch that begins 200 us or more later. -/
def wrEnvelope (s : State) (v : W64) : State :=
  if envelopeLegal s (fld v 7 0) then
    { s with lampPkg := { s.lampPkg with envelope := keepBits v 0xFF,
                                         envPending := s.lampPkg.envPending ++ [(fld v 7 0, dtime s 0)] } }
  else s

/-- Whether LAMP_ORDER's fields are legal: a permutation with FIRST and MIN_CLUSTERS 1 to 8 (Table 15.5). -/
def orderLegal (v : W64) : Bool :=
  let a := fld v 3 2
  let b := fld v 5 4
  let c := fld v 7 6
  decide (a ≠ 0) && decide (b ≠ 0) && decide (c ≠ 0) && decide (a ≠ b) && decide (a ≠ c) && decide (b ≠ c)
    && decide (1 ≤ fld v 11 8) && decide (fld v 11 8 ≤ 8)

/-- A write of LAMP_ORDER (R378). -/
def wrOrder (s : State) (v : W64) : State :=
  if orderLegal v then retarget { s with lampPkg := { s.lampPkg with order := keepBits v 0xFFC } } else s

/-- A write of LAMP_MASKn (R378): DIE reads 1 on LAMP_MASK0. -/
def wrMask (s : State) (n : DieId) (v : W64) : State :=
  let w := keepBits v 0xFF0FFF
  retarget { s with lampPkg := { s.lampPkg with masks := lset s.lampPkg.masks n.val (if n = 0 then setFld w 11 11 1 else w) } }

/-- LAMP_STATEn (Table 15.5). -/
def lampStateReg (s : State) (d : DieId) : W64 :=
  let l := getLamp s d
  let code (x : Nat) : Nat :=
    if (getKiln s d).current = x then 3
    else match l.changing with
      | some (y, _) => if x = y then 3 else match lget .dark l.dom x with | .dark => 0 | .ember => 1 | .lit => 2
      | none => match lget .dark l.dom x with | .dark => 0 | .ember => 1 | .lit => 2
  packFields ((countUp 0 11).map (fun x => (code x, 2 * x)) ++ [(b2n (awake s d), 22), (holdMask s d, 24), (dieTarget s d, 35)])

/-- Whether lit allowances kept by holds exceed the envelope (R379). -/
def lampOver (s : State) : Bool := decide (4 * s.lampPkg.inForce < usedQw s) && allDies.any (fun d => decide (0 < holdMask s d))

/-- LAMP_STATUS (Table 15.5). -/
def lampStatusReg (s : State) : W64 :=
  packFields ([(s.lampPkg.inForce, 0), (usedQw s % 512, 16), (b2n (lampOver s), 40),
    (b2n (allDies.any (fun d => (getLamp s d).changing.isSome)), 41), ((allDies.map (litCores s)).sum, 48)]
    ++ (countUp 0 6).map (fun i => (b2n (cordOf s i).lit, 32 + i)))

/-- The hottest sensor: index and reading (the lowest index among equals). -/
def hottest (l : Lamp) : Nat × Int :=
  ((countUp 0 11).map (fun i => (i, (lget 0 l.temps i).toInt))).foldl (fun m x => if m.2 < x.2 then x else m) (0, (lget 0 l.temps 0).toInt)

/-- LAMP_TEMPn (Table 15.5). -/
def lampTempReg (s : State) (d : DieId) : W64 :=
  let l := getLamp s d
  let (i, t) := hottest l
  packFields [(wrapI 12 t, 0), (i, 12), (l.removed, 16), (b2n l.warn, 20), (b2n (decide (0 < l.removed)), 21)]

/-- The grade of the package by die `d`'s active generation (R396): true for KX4-E. While no generation is active the spec states no grade:
the model shows KX4-C, code 0, and with it Tj 95 C (DESIGN CHOICE, log 51). -/
def gradeE (s : State) (d : DieId) : Bool :=
  match (getSec s d).active with
  | some g => leAt (lget [] (getOtp s d).slots g) 0x48 1 == 1
  | none => false

/-- The limit Tj in quarter degrees (R381). -/
def tjQ (s : State) (d : DieId) : Int := if gradeE s d then 420 else 380

/-! ### Cord domains -/

/-- Whether a cord domain is lit (R19, R376): both dies awake and neither held dark, or the training of start-up between D0 and a die that has trained
its DRAM, or the check of a held-dark die. -/
def cordLitNow (s : State) (i : Nat) (check : Bool) : Bool :=
  let (a, b) := cordDies i
  let st (d : DieId) := (getSec s d).stage
  let held (d : DieId) : Bool := (mfind s.agree.held d.val).isSome
  (awake s a && awake s b && !held a && !held b)
    || (a == 0 && !held b && decide (1 ≤ st 0) && decide (1 ≤ st b) && decide (st 0 ≤ 3) && decide (st b ≤ 3) && !(st 0 == 3 && st b == 3))
    || (a == 0 && check && (mfind s.agree.held b.val).isSome)

/-- A cord taken dark: nothing is in flight on either end. -/
def darken (c : Cord) : Cord := { dropCord c with lit := false, state := .dark, width := 0, repaired := 0, training := false, checked := false }

/-- The cord domains brought to what R376 asks; one that lights is to train (R353). -/
def relightCords (s : State) : State :=
  { s with cords := (countUp 0 6).map (fun i =>
      let c := cordOf s i
      let want := cordLitNow s i false
      if want && !c.lit then { c with lit := true, state := .dark, training := false }
      else if !want && c.lit && !c.checked then darken c else c) }

end Sys2Proof.Machine
end

