-- ==== Sys2Proof/Machine/Xlate.lean ====
section
/-! DEFINITION. Translation (11, R294 to R303): page tables, page lists, the translation cache, fault records, invalidation,
translation at submission and pins; and row retirement (R291). -/

namespace Sys2Proof.Machine

/-- An entry of a cord end. -/
def cordLog (s : State) (d : DieId) (e code a b : Nat) : State := logEntry s d { code := code, kind := 0x08, index := e, detail := detV a b }

/-- A request that timed out is noted at its requester's end (R364): the flag, the count, and one CORD_TIMEOUT entry per cord and
millisecond. -/
def noteTimeout (s : State) (d : DieId) (e : Nat) (tag : Option Nat) : State :=
  let x := endOf s d e
  let due := match x.toLogged with | some t => decide (t + 1000000 ≤ dtime s d) | none => true
  let y : CordEnd := { x with err := errCount (errRaise x.err s.now 4) s.now 47 32 1, late := x.late ++ tag.toList,
                              toCount := if due then 0 else x.toCount + 1, toLogged := if due then some (dtime s d) else x.toLogged }
  let s1 := setEnd s d e y
  if due then cordLog s1 d e 0x0905 e (x.toCount + 1) else s1

/-- An access of die `d` to die `n` that was not answered: a time-out is noted (R364). -/
def noteLate (s : State) (d n : DieId) : State := if hop s d n = .late then noteTimeout s d (endTo d n) none else s

/-- Reading a table word for die `d`: the word, or the cause when the read is poisoned, its memory out of reach or its read timed out
(R298), with what the read did. A base that names no memory is PLACEMENT (R287). -/
def tableWord (s : State) (d : DieId) (pa : Nat) : Except Nat W64 × State :=
  if !paValid pa then (.error 0x08, s)
  else if !reach s d (dieOf pa) then (.error 0x0A, noteLate s d (dieOf pa))
  else
    let s1 := noteRead s pa 8
    (if poisonAt s1 pa then .error 0x03 else .ok (memWord s1 pa), s1)

/-- A leaf found by the walk: kind, W, handle and the object page mapped at its base (Tables 11.4, 11.5). -/
structure Leaf where
  big : Bool
  w : Bool
  handle : Nat
  page : Nat

/-- What a level-one entry leads to (Table 11.4): a leaf, a level-two entry's address, or NOT_MAPPED. -/
inductive L1 where
  | leaf (l : Leaf)
  | table (pa : Nat)
  | bad

/-- A level-one entry read (Table 11.4). -/
def l1Of (e : W64) (va : Nat) : L1 :=
  if fld e 1 0 = 2 then
    if fld e 7 3 = 0 ∧ fld e 15 8 = 0 ∧ fld e 31 16 % 32 = 0 then
      .leaf { big := true, w := bit e 2, handle := fld e 63 32, page := fld e 31 16 }
    else .bad
  else if fld e 1 0 = 1 ∧ fld e 7 2 = 0 ∧ fld e 63 40 = 0 then .table (fld e 39 8 * 256 + 8 * fldN va 29 25)
  else .bad

/-- A level-two entry read (Table 11.5). -/
def l2Of (e : W64) : Except Nat Leaf :=
  if fld e 1 0 = 2 ∧ fld e 15 3 = 0 then .ok { big := false, w := bit e 2, handle := fld e 63 32, page := fld e 31 16 } else .error 0x02

/-- The walk of the level-one and level-two tables (R297, R298 step 4). -/
def walkTables (s : State) (d : DieId) (root : Nat) (va : Nat) : Except Nat Leaf × State :=
  match tableWord s d (root + 8 * fldN va 47 30) with
  | (.error c, s1) => (.error c, s1)
  | (.ok e1, s1) =>
    match l1Of e1 va with
    | .leaf l => (.ok l, s1)
    | .bad => (.error 0x02, s1)
    | .table pa =>
      match tableWord s1 d pa with
      | (.error c, s2) => (.error c, s2)
      | (.ok e2, s2) => (l2Of e2, s2)

/-- The die that Table 11.3 requires for page `k` on the copy of die `copy`. -/
def frameDie (o : Obj) (copy k : Nat) : Nat := if o.place = 0 then o.homeDie else if o.place = 1 then copy else k % 4

/-- Page-list entries from page `k` on, `n` of them, read together (R299). -/
def listWords (d : DieId) (o : Obj) (copy : Nat) : Nat → Nat → State → List (Except Nat W64) × State
  | _, 0, s => ([], s)
  | k, n + 1, s =>
    let r := tableWord s d (o.pageList + 8 * (if o.place = 1 then copy * o.pages + k else k))
    let t := listWords d o copy (k + 1) n r.2
    (r.1 :: t.1, t.2)

/-- The cause of a list that could not be read: poison in any entry, then a dark cord or a time-out, then a place that is no memory
(R298 step 6, R299). -/
def listCause (ws : List (Except Nat W64)) : Option Nat :=
  let es := ws.filterMap (fun w => match w with | .error c => some c | .ok _ => none)
  if es.contains 0x03 then some 0x03 else if es.contains 0x0A then some 0x0A else es.head?

/-- A page-list entry as a frame (R294): its zero bits and the die that Table 11.3 requires. -/
def frameWord (o : Obj) (copy k : Nat) (w : Except Nat W64) : Except Nat Nat :=
  match w with
  | .ok v => if fld v 24 0 = 0 ∧ fld v 63 35 = 0 ∧ fld v 34 33 = frameDie o copy k then .ok v.toNat else .error 0x08
  | .error c => .error c

/-- Entries read as frames, the first that fails its check found (R298 step 6). -/
def frameWords (o : Obj) (copy : Nat) : Nat → List (Except Nat W64) → Except Nat (List Nat)
  | _, [] => .ok []
  | k, w :: r =>
    match frameWord o copy k w, frameWords o copy (k + 1) r with
    | .ok f, .ok fs => .ok (f :: fs)
    | .error c, _ => .error c
    | .ok _, .error c => .error c

/-- The frames of pages from `k` on, `n` of them: every entry is read before any is checked for PLACEMENT (R298 step 6). -/
def framesOf (s : State) (d : DieId) (o : Obj) (copy k n : Nat) : Except Nat (List Nat) × State :=
  let r := listWords d o copy k n s
  match listCause r.1 with
  | some c => (.error c, r.2)
  | none => (frameWords o copy k r.1, r.2)

/-- Frames at consecutive 32 MiB steps from a 1 GiB-aligned address (R297). -/
def consecutive : Nat → List Nat → Bool
  | _, [] => true
  | a, f :: r => f == a && consecutive (a + 2 ^ 25) r

/-- The cause of R298 step 5 that a leaf's object has for the addressed page. -/
def leafCause (s : State) (d : DieId) (cx : Ctx) (l : Leaf) (va : Nat) (fence : Bool) : Option Nat :=
  let idx := l.handle % 2 ^ 20
  let o := objOf s d idx
  let k := if l.big then l.page + fldN va 29 25 else l.page
  if idx = 0 ∨ l.handle / 2 ^ 20 ≠ o.gen then some 0x04
  else if o.state ≠ .valid then some 0x05
  else if o.tenant ≠ cx.tenant ∧ cx.tenant ≠ 0 then some 0x06
  else if o.pages ≤ k then some 0x07
  else if fence ∧ o.place = 1 then some 0x0E
  else none

/-- The checks of R298 steps 5 and 6 on a leaf, for the address's object page; the frames of the leaf's span. -/
def leafFrames (s : State) (d : DieId) (cx : Ctx) (l : Leaf) (va copy : Nat) (fence : Bool) : Except Nat (List Nat) × State :=
  let o := objOf s d (l.handle % 2 ^ 20)
  match leafCause s d cx l va fence with
  | some c => (.error c, s)
  | none =>
    match framesOf s d o copy l.page (if l.big then min 32 (o.pages - l.page) else 1) with
    | (.error c, s1) => (.error c, s1)
    | (.ok fs, s1) =>
      if l.big && !(consecutive (fs.headD 0) fs && fs.headD 0 % 2 ^ 30 == 0) then (.error 0x08, s1) else (.ok fs, s1)

/-- A translation as an entry of the cache (R299). -/
def xlHit (es : List XlEntry) (c va : Nat) : Option XlEntry :=
  es.find? (fun e => e.ctx == c && (if e.big then e.base == va / 2 ^ 30 else e.base == va / 2 ^ 25))

/-- Whether a context holds a slot of a die. -/
def holdsSlot (s : State) (d : DieId) (c : Nat) : Bool :=
  (getCores s d).slots.any (fun x => !(x.state == .free) && x.ctx == c)

/-- The cache with an entry put first; a full cache drops the least recently used entry whose context holds no slot, else the
least recently used (R299). -/
def xlInsert (s : State) (d : DieId) (es : List XlEntry) (e : XlEntry) : List XlEntry :=
  if es.length < 1024 then e :: es
  else
    match es.reverse.find? (fun x => !holdsSlot s d x.ctx) with
    | some v => e :: es.erase v
    | none => e :: es.dropLast

/-- What a translation asks: a write, as a DMA destination or not, as a fence (R295, R298). -/
structure XlAsk where
  write : Bool := false
  dma : Bool := false
  fence : Bool := false
  copy : Option Nat := none

/-- The access rules of a translation that has its frames: FENCE on a cached entry, READ_ONLY (R295, R298 steps 5 and 7). -/
def accessCause (s : State) (d : DieId) (a : XlAsk) (handle : Nat) (w : Bool) : Option Nat :=
  let o := objOf s d (handle % 2 ^ 20)
  if a.fence ∧ o.place = 1 then some 0x0E
  else if a.write ∧ (¬ w ∨ (o.place = 1 ∧ ¬ a.dma)) then some 0x09
  else none

/-- The physical address of `va` in an entry's frames. -/
def entryPa (e : XlEntry) (va : Nat) : Nat := if e.big then e.frames.headD 0 + va % 2 ^ 30 else e.frames.headD 0 + va % 2 ^ 25

/-- An entry used for an access: its physical address and object, or the cause that the access rules give. -/
def useEntry (s : State) (d : DieId) (a : XlAsk) (e : XlEntry) (va : Nat) : Except Nat (Nat × Nat) :=
  match accessCause s d a e.handle e.w with
  | some x => .error x
  | none => .ok (entryPa e va, e.handle % 2 ^ 20)

/-- Another die's copy of the page that an entry maps (R295, R308): the entry as it stands in the cache, with that copy's frames. -/
def otherCopy (s : State) (d : DieId) (cx : Ctx) (a : XlAsk) (e : XlEntry) (va copy : Nat) : Except Nat (Nat × Nat) × State :=
  match leafFrames s d cx { big := e.big, w := e.w, handle := e.handle, page := e.page } va copy a.fence with
  | (.error x, s1) => (.error x, s1)
  | (.ok fs, s1) => (useEntry s1 d a { e with frames := fs } va, s1)

/-- Translate one virtual address of context `c` on die `d` (R297 to R300): the physical address and the object's index, or the
first cause that fails, with the cache as it then stands. -/
def translate (s : State) (d : DieId) (c : Nat) (va : Nat) (a : XlAsk) : Except Nat (Nat × Nat) × State :=
  let cx := ctxOf s d c
  let m := getMemu s d
  let far (e : XlEntry) : Option Nat := a.copy.filter (fun n => n ≠ d.val && (objOf s d (e.handle % 2 ^ 20)).place == 1)
  let done (t : State) (e : XlEntry) : Except Nat (Nat × Nat) × State :=
    match far e with
    | some n => otherCopy t d cx a e va n
    | none => (useEntry t d a e va, t)
  if 2 ^ 48 ≤ va then (.error 0x01, s)
  else if a.fence ∧ va % 8 ≠ 0 then (.error 0x0E, s)
  else if cx.state ≠ .live ∧ cx.state ≠ .faulted then (.error 0x02, s)
  else
    match xlHit m.xlate c va with
    | some e =>
      if e.big ∧ e.frames.length ≤ fldN va 29 25 then (.error 0x07, s)
      else done (setMemu s d { m with xlate := e :: m.xlate.erase e }) e
    | none =>
      match walkTables s d cx.ptRoot va with
      | (.error x, s1) => (.error x, s1)
      | (.ok l, s1) =>
        match leafFrames s1 d cx l va d.val a.fence with
        | (.error x, s2) => (.error x, s2)
        | (.ok fs, s2) =>
          let e : XlEntry := { ctx := c, big := l.big, base := if l.big then va / 2 ^ 30 else va / 2 ^ 25, w := l.w,
                               handle := l.handle, page := l.page, frames := fs }
          match useEntry s2 d a e va with
          | .error x => (.error x, s2)
          | .ok _ => done (setMemu s2 d { getMemu s2 d with xlate := xlInsert s2 d (getMemu s2 d).xlate e }) e

/-! ### Translation at submission (R302) -/

/-- The lowest and the highest byte of a side as pages of 32 MiB. -/
def pagesOf (lo hi : Nat) : List Nat := countUp (lo / 2 ^ 25) (hi / 2 ^ 25 + 1 - lo / 2 ^ 25)

/-- Every page of a list translated in order; the frames by page, the objects named, or the first page that fails and its
cause. -/
def translatePages (d : DieId) (c : Nat) (a : XlAsk) : List Nat → State → Map Nat → List Nat →
    Except (Nat × Nat) (Map Nat × List Nat) × State
  | [], s, m, os => (.ok (m, os), s)
  | p :: r, s, m, os =>
    match translate s d c (p * 2 ^ 25) a with
    | (.error x, s1) => (.error (p * 2 ^ 25, x), s1)
    | (.ok (pa, o), s1) => translatePages d c a r s1 (mins m p pa) (if o ∈ os then os else os ++ [o])

/-- Translate a range at submission (R302, R298 steps 1 to 8 but for pins): SPAN is judged first, then each page, then whether
the data memory is in reach. A failure carries the virtual address and its cause. -/
def translateRange (s : State) (d : DieId) (c lo n : Nat) (a : XlAsk) : Except (Nat × Nat) (Map Nat × List Nat) × State :=
  if n = 0 then (.ok ([], []), s)
  else if 2 ^ 48 < lo + n then (.error (lo, 0x01), s)
  else
    let cx := ctxOf s d c
    if cx.state ≠ .live ∧ cx.state ≠ .faulted then (.error (lo, 0x02), s)
    else if 256 < (pagesOf lo (lo + n - 1)).length then (.error (lo, 0x0C), s)
    else
      match translatePages d c a (pagesOf lo (lo + n - 1)) s [] [] with
      | (.error (va, x), s1) => (.error (max lo va, x), s1)
      | (.ok (m, os), s1) =>
        match m.find? (fun e => !reach s1 d (dieOf e.2)) with
        | some e => (.error (max lo (e.1 * 2 ^ 25), 0x0A), s1)
        | none => (.ok (m, os), s1)

/-- A virtual address within resolved pages. -/
def pageLook (m : Map Nat) (va : Nat) : Option Nat :=
  match mfind m (va / 2 ^ 25) with
  | some f => some (f + va % 2 ^ 25)
  | none => none

/-- Pins of an object on die `d`. -/
def pinCount (s : State) (d : DieId) (o : Nat) : Nat := mget 0 (getPins s d) o

/-- Whether a pin more on each object keeps the die's counts within 2^20 - 1 (PIN_LIMIT). -/
def pinRoom (s : State) (d : DieId) (os : List Nat) : Bool := os.all (fun o => decide (pinCount s d o + 1 < 2 ^ 20))

/-- One pin more on each object of a list (R302). -/
def addPins (s : State) (d : DieId) (os : List Nat) : State :=
  setPins s d (os.foldl (fun m o => mput 0 m o (mget 0 m o + 1)) (getPins s d))

/-- The package pin count of an object (R69). -/
def packagePins (s : State) (o : Nat) : Nat := (allDies.map (fun d => pinCount s d o)).sum

/-- One object's entry changed on D0 and copied to the other dies that take copies (R55, R369). -/
def inStep (s : State) (d : DieId) : Bool :=
  d == 0 || ((mfind s.agree.fenced d.val).isNone && (mfind s.agree.held d.val).isNone)

/-- The tables with `f` applied on D0 and on every die in step, STATE_GEN advanced on D0 and in the copies (R55, R369). -/
def changeTables (s : State) (f : Tables → Tables) : State :=
  let g := (tabs s).stateGen + 1
  { s with tables := qmap (fun d t => if inStep s d then { f t with stateGen := g } else t) s.tables }

/-- Put an object's entry into the tables. -/
def putObj (s : State) (i : Nat) (o : Obj) : State := changeTables s (fun t => { t with objects := mput objFree t.objects i o })

/-- A ZOMBIE object whose package pin count is zero becomes FREE: GEN advances and its pages leave the quota (R69). -/
def settleObj (s : State) (i : Nat) : State :=
  let o := mget objFree (tabs s).objects i
  if o.state = .zombie ∧ packagePins s i = 0 then putObj s i { o with state := .free, gen := (o.gen + 1) % 4096, dirty := true } else s

/-- One pin less on each object of a list, and what that settles (R69, R302). -/
def dropPins (s : State) (d : DieId) (os : List Nat) : State :=
  os.foldl settleObj (setPins s d (os.foldl (fun m o => mput 0 m o (mget 0 m o - 1)) (getPins s d)))

/-! ### Fault records of translation (R303) -/

/-- Key of a fault window: context and 32 MiB page. -/
def winKey (c va : Nat) : Nat := c * 2 ^ 39 + (va / 2 ^ 25) % 2 ^ 39

/-- The XLATE_FAULT_MERGED entry of a window that has ended with a count. -/
def closeWin (s : State) (d : DieId) (key : Nat) : State :=
  match mfind (getMemu s d).faultWins key with
  | some w =>
    let m := getMemu s d
    let s1 := setMemu s d { m with faultWins := mdel m.faultWins key }
    if w.count = 0 then s1
    else logEntry s1 d { code := 0x0607, kind := 0x05, tenant := some (ctxOf s d (key / 2 ^ 39)).tenant, ctx := some (key / 2 ^ 39),
                         detail := detA w.va.toNat 0 0 0 w.count }
  | none => s

/-- Record a translation fault of a unit: the first on a context and page within 1 ms makes an entry, further ones count. -/
def xlateFault (s : State) (d : DieId) (c va cause kind index queue : Nat) : State :=
  let key := winKey c va
  match mfind (getMemu s d).faultWins key with
  | some w =>
    if dtime s d < w.at_ + 1000000 then
      let m := getMemu s d
      setMemu s d { m with faultWins := mins m.faultWins key { w with count := w.count + 1 } }
    else fresh (closeWin s d key) key
  | none => fresh s key
where
  /-- The first fault's entry and its window. -/
  fresh (s : State) (key : Nat) : State :=
    let m := getMemu s d
    let s1 := setMemu s d { m with faultWins := mins m.faultWins key { at_ := dtime s d, count := 0, va := BitVec.ofNat 64 va } }
    logEntry s1 d { code := 0x0606, kind := kind, index := index, tenant := some (ctxOf s d c).tenant, ctx := some c,
                    detail := detA va cause 0 queue 0, addr := va, cause := cause, queue := queue }

/-- The place of a unit in the order of R26 among requests of one cycle. -/
def unitRank (u : XUnit) : Nat :=
  match u with
  | .dma c => c.val
  | .cmp c => 4 + c.val
  | .geo => 8
  | .ret e => 9 + b2n e
  | .gen => 11
  | .eas => 12
  | .stoker f => 13 + f.val
  | .core m => 45 + m.val

/-- The SOURCE of a unit's entries (R451). -/
def unitSource (u : XUnit) : Nat × Nat :=
  match u with
  | .dma c => (2, 5 + c.val)
  | .cmp c => (2, 1 + c.val)
  | .geo => (2, 0)
  | .ret e => (2, 9 + b2n e)
  | .gen => (2, 12)
  | .eas => (2, 11)
  | .stoker f => (3, f.val)
  | .core m => (4, m.val)

/-- One request served: a miss fills the cache, a fault is recorded. -/
def serveXlate (d : DieId) (s : State) (r : XlReq) : State :=
  match translate s d r.ctx.toNat r.va.toNat { write := r.write } with
  | (.ok _, s1) => s1
  | (.error x, s1) => xlateFault s1 d r.ctx.toNat r.va.toNat x (unitSource r.unit).1 (unitSource r.unit).2 0

/-- TRANSLATION_WALK (R26, R299): the requests that reach the die's translation unit in one cycle, served one at a time in the order of
their units, and those of one unit as they come. -/
def execTranslationWalk (d : DieId) (engines stokers cores : List XlReq) (s : State) : Host.Outcome State Fault Refusal :=
  if ¬ s.board.powerOk then ok s
  else ok ((sortBy (fun a b => decide (unitRank a.unit ≤ unitRank b.unit)) (engines ++ stokers ++ cores)).foldl (serveXlate d) s)

/-- XLATE_FAULT_MERGED (R303): the 1 ms of a window ends with a count above zero. -/
def execXlateFaultMerged (d : DieId) (c : W16) (page : Nat) (s : State) : Host.Outcome State Fault Refusal :=
  let key := winKey c.toNat (page * 2 ^ 25)
  match mfind (getMemu s d).faultWins key with
  | some w => event (decide (0 < w.count) && decide (w.at_ + 1000000 ≤ dtime s d)) s (closeWin s d key)
  | none => ok s

/-! ### Invalidation (R300, R301) -/

/-- Drop every cache entry of every die that `p` names; how many went. -/
def dropXlate (s : State) (p : XlEntry → Bool) : Nat × State :=
  ((allDies.map (fun d => ((getMemu s d).xlate.filter p).length)).sum,
   { s with memu := qmap (fun _ m => { m with xlate := m.xlate.filter (fun e => !p e) }) s.memu })

/-- An OBJ_XLAT_CMD invalidation: its entries dropped on every die, its result (Table 11.9). -/
def invalidate (s : State) (p : XlEntry → Bool) : State :=
  let (n, s1) := dropXlate s p
  let h := getHregs s1 0
  setHregs s1 0 { h with xlatResult := cmdResult h.xlatResult 0 [(min n 65535, 24)] }

/-- OBJ_XLAT_CMD INV_CONTEXT. -/
def cmdInvContext (s : State) (c : Nat) : State := invalidate s (fun e => e.ctx == c)

/-- OBJ_XLAT_CMD INV_GIB: entries of the 1 GiB span. -/
def cmdInvGib (s : State) (c gib : Nat) : State :=
  invalidate s (fun e => e.ctx == c && (if e.big then e.base == gib else e.base / 32 == gib))

/-- OBJ_XLAT_CMD INV_ALL. -/
def cmdInvAll (s : State) : State := invalidate s (fun _ => true)

/-- A command of block `blk` that acts only through D0. -/
def d0Command (s : State) (d : DieId) (blk : Nat) (f : State → State) : Host.Outcome State Fault Refusal :=
  ok (viaSlot s d blk 0 (fun t => onD0 t d f))

/-- INV_CONTEXT (R300). -/
def execInvContext (d : DieId) (c : W16) (s : State) : Host.Outcome State Fault Refusal :=
  d0Command s d 5 (fun t => cmdInvContext t c.toNat)

/-- INV_GIB (R300). -/
def execInvGib (d : DieId) (c : W16) (gib : BitVec 18) (s : State) : Host.Outcome State Fault Refusal :=
  d0Command s d 5 (fun t => cmdInvGib t c.toNat gib.toNat)

/-- INV_ALL (R300). -/
def execInvAll (d : DieId) (s : State) : Host.Outcome State Fault Refusal := d0Command s d 5 cmdInvAll

/-! ### Row retirement (R291) -/

/-- The first physical address of a row of die `d`. -/
def rowPa (d : DieId) (r : Nat) : Nat := d.val * 2 ^ 33 + r * 16384

/-- Whether a row has met its condition (R291): an uncorrectable error, or four corrected errors. -/
def rowDue (r : RowState) : Bool := r.failed || decide (4 ≤ r.corrected)

/-- ROW_RETIRE (R291): the controller retires a row that has met its condition; one retirement runs at a time, and without a
spare row it makes one SPARE_EXHAUSTED entry for the row. -/
def execRowRetire (d : DieId) (row : BitVec 19) (s : State) : Host.Outcome State Fault Refusal :=
  let m := getMemu s d
  let r := rowOf s d row.toNat
  let busy := match (getKiln s d).dram with | some r => r.inPass && decide (m.spares ≤ 1) | none => false
  if ¬ s.board.powerOk ∨ r.retired ∨ ¬ rowDue r ∨ m.retiring.isSome then ok s
  else if m.spares = 0 then
    if r.exhausted then ok s
    else
      let s1 := setMemu s d { m with rows := mput rowFresh m.rows row.toNat { r with exhausted := true } }
      ok (logEntry s1 d { code := 0x0604, kind := 0x06, detail := detA (rowPa d row.toNat) 0 1 0 0 })
  else if busy then ok s
  else ok (setMemu s d { m with retiring := some row.toNat })

/-- ROW_RETIRE_DONE (R291): the copy has ended and the spare serves the row; the bytes and their poison are what they were. -/
def execRowRetireDone (d : DieId) (s : State) : Host.Outcome State Fault Refusal :=
  let m := getMemu s d
  match m.retiring with
  | some r =>
    let s1 := setMemu s d { m with retiring := none, spares := m.spares - 1,
                                   rows := mput rowFresh m.rows r { rowOf s d r with retired := true } }
    ok (logEntry s1 d { code := 0x0603, kind := 0x06, detail := detA (rowPa d r) 0 1 0 (m.spares - 1) })
  | none => ok s

end Sys2Proof.Machine
end

