-- ==== Sys2Proof/Machine/Tables.lean ====
section
/-! DEFINITION. Tenants, staging pieces, contexts and memory objects (03, R54 to R71, R449): their commands and results, the move
of a context to FAULTED (R66), and the stop of a slot (R125, R131) that a destroy begins. -/

namespace Sys2Proof.Machine

/-! ### Reading what a command names (R449, R287) -/

/-- `n` bytes of memory for die `d`, none where a byte is poisoned, out of reach, not read in time or names no memory; and what the read
did. -/
def readFor (s : State) (d : DieId) (pa n : Nat) : Option (List Byte) × State :=
  if !paValid (pa + n - 1) then (none, s)
  else if !reach s d (dieOf pa) then (none, noteLate s d (dieOf pa))
  else
    let s1 := noteRead s pa n
    (if poisonIn s1 pa n then none else some (memRead s1 pa n), s1)

/-- Whether a table base register's value has a reserved encoding: a PA that names no memory (R9, R287). -/
def baseBad (v : W64) : Bool := decide (2 ^ 35 ≤ fld v 39 12 * 4096)

/-- A table base as stored: VALID and PA. -/
def baseStored (v : W64) : W64 := keepBits v 0xFFFFFFF001

/-! ### Tenants (R58 to R61) -/

/-- A tenant record's fields, or none where one breaks Table 3.3 (R59). -/
def tenantRecord (b : List Byte) (st : TState) : Option Tenant :=
  let slots := leAt b 2 2
  let queues := leAt b 4 2
  if leAt b 0 1 < 4 ∧ leAt b 1 1 < 2 ∧ leAt b 6 2 = 0 ∧ leAt b 0x14 4 = 0 ∧ zeroAt b 0x20 32 ∧ slots ≤ 48 ∧ queues ≤ 4096
      ∧ leAt b 8 4 ≤ 65535 ∧ leAt b 0xC 4 ≤ 1048575 then
    some { state := st, prioCeil := leAt b 0 1, autoEvict := leAt b 1 1 == 1, maxSlots := slots, maxQueues := queues,
           maxContexts := leAt b 8 4, maxObjects := leAt b 0xC 4, maxPages := leAt b 0x10 4, runList := leAt b 0x18 8 }
  else none

/-- Tenant `t`'s record read at a table base (R59, R449). -/
def readTenant (s : State) (base : W64) (t : Nat) (st : TState) : Option Tenant × State :=
  let r := readFor s 0 (fld base 39 12 * 4096 + 64 * t) 64
  (r.1.bind (fun b => tenantRecord b st), r.2)

/-- Put a tenant into the tables. -/
def putTenant (s : State) (t : Nat) (x : Tenant) : State := changeTables s (fun y => { y with tenants := lset y.tenants t x })

/-- A write of TEN_TABLE (R58, R59). -/
def wrTenTable (s : State) (v : W64) : State :=
  let h := getHregs s 0
  if baseBad v then s
  else if (tabs s).tenants.tail.any (fun t => !(t.state == .disabled)) then countDiscard s 0
  else if bit v 0 then
    match readTenant s v 0 .enabled with
    | (some t, s1) => setHregs (putTenant s1 0 t) 0 { h with tenTable := baseStored v }
    | (none, s1) => countDiscard s1 0
  else setHregs (putTenant s 0 tenantMax) 0 { h with tenTable := baseStored v }

/-- The result of a tenant command in TEN_STATE: SEQ and STATUS (Table 3.6). -/
def tenResult (s : State) (status : Nat) : State :=
  let h := getHregs s 0
  setHregs s 0 { h with tenSeq := (h.tenSeq + 1) % 65536, tenStatus := status }

/-- TEN_STATE (Table 3.6); on every die it shows D0's values (R54). -/
def tenStateReg (s : State) : W64 :=
  let code (t : Tenant) : Nat := match t.state with | .disabled => 0 | .enabled => 1 | .resetting => 2
  packFields ((countUp 0 16).map (fun t => (code (tenantOf s 0 t), 2 * t))
    ++ [((getHregs s 0).tenSeq, 32), ((getHregs s 0).tenStatus, 48)])

/-- TEN_CMD ENABLE (R59, R61). -/
def cmdTenantEnable (s : State) (t : Nat) : State :=
  if t = 0 ∨ (tenantOf s 0 t).state ≠ .disabled then tenResult s 1
  else if ¬ bit (getHregs s 0).tenTable 0 then tenResult s 3
  else match readTenant s (getHregs s 0).tenTable t .enabled with
    | (some x, s1) => tenResult (putTenant s1 t x) 0
    | (none, s1) => tenResult s1 3

/-- TEN_CMD UPDATE (R59 to R61). -/
def cmdTenantUpdate (s : State) (t : Nat) : State :=
  if (tenantOf s 0 t).state ≠ .enabled then tenResult s 1
  else if ¬ bit (getHregs s 0).tenTable 0 then tenResult s 3
  else match readTenant s (getHregs s 0).tenTable t .enabled with
    | (some x, s1) => tenResult (putTenant s1 t x) 0
    | (none, s1) => tenResult s1 3

/-- TEN_CMD DISABLE (R61). -/
def cmdTenantDisable (s : State) (t : Nat) : State :=
  if t = 0 ∨ (tenantOf s 0 t).state ≠ .enabled ∨ (tabs s).contexts.any (fun e => e.2.tenant == t && !(e.2.state == .free)) then
    tenResult s 1
  else tenResult (putTenant s t { tenantOf s 0 t with state := .disabled }) 0

/-- TEN_TABLE_WRITE (R59). -/
def execTenTableWrite (d : DieId) (v : W64) (s : State) : Host.Outcome State Fault Refusal :=
  ok (viaSlot s d 3 v (fun t => onD0 t d (fun t => wrTenTable t v)))

/-- TENANT_ENABLE (R61). -/
def execTenantEnable (d : DieId) (t : Fin 16) (s : State) : Host.Outcome State Fault Refusal :=
  d0Command s d 3 (fun x => cmdTenantEnable x t.val)

/-- TENANT_UPDATE (R60). -/
def execTenantUpdate (d : DieId) (t : Fin 16) (s : State) : Host.Outcome State Fault Refusal :=
  d0Command s d 3 (fun x => cmdTenantUpdate x t.val)

/-- TENANT_DISABLE (R61). -/
def execTenantDisable (d : DieId) (t : Fin 16) (s : State) : Host.Outcome State Fault Refusal :=
  d0Command s d 3 (fun x => cmdTenantDisable x t.val)

/-! ### Staging pieces (R62) -/

/-- TEN_STAGE on die `d`: the piece is cleared and will take the new tag; the tag being set is the one compared while a clear
runs (R62). -/
def wrTenStage (s : State) (d : DieId) (p t : Nat) : State :=
  if 112 ≤ p then s
  else
    let x := pieceOf s d p
    if t = x.clearing.getD x.tag then s
    else
      let bytes := (getStaging s d).filter (fun e => !(decide (p * 65536 ≤ e.1) && decide (e.1 < (p + 1) * 65536)))
      let bad := (getStagingBad s d).filter (fun e => !(decide (p * 65536 ≤ e.1) && decide (e.1 < (p + 1) * 65536)))
      setPieces (setStagingBad (setStaging s d bytes) d bad) d
        (mput pieceFree (getPieces s d) p { x with clearing := some t, sets := x.sets + 1 })

/-- TEN_STAGE (R62). -/
def execTenStage (d : DieId) (piece : BitVec 7) (t : Fin 16) (s : State) : Host.Outcome State Fault Refusal :=
  ok (viaSlot s d 3 0 (fun x => wrTenStage x d piece.toNat t.val))

/-- STAGE_CLEAR_DONE (R62): the clear completes and the map shows the new tag. -/
def execStageClearDone (d : DieId) (piece : BitVec 7) (s : State) : Host.Outcome State Fault Refusal :=
  let x := pieceOf s d piece.toNat
  match x.clearing with
  | some t => ok (setPieces s d (mput pieceFree (getPieces s d) piece.toNat { x with tag := t, clearing := none }))
  | none => ok s

/-- TEN_STAGE_MAPi (Table 3.8). -/
def stageMapReg (s : State) (d : DieId) (i : Nat) : W64 :=
  packFields ((countUp 0 16).map (fun j => ((pieceOf s d (16 * i + j)).tag, 4 * j)))

/-! ### Dispatches, blocks and groups of a die -/

/-- Group `g` of die `d`. -/
def groupOf (s : State) (d : DieId) (g : Nat) : Option Group := mfind (getCores s d).groups g

/-- Replace a group. -/
def setGroup (s : State) (d : DieId) (g : Nat) (x : Group) : State :=
  setCores s d { getCores s d with groups := mins (getCores s d).groups g x }

/-- A group changed. -/
def modGroup (s : State) (d : DieId) (g : Nat) (f : Group → Group) : State :=
  match groupOf s d g with
  | some x => setGroup s d g (f x)
  | none => s

/-- Block `b` of die `d`. -/
def blockOf (s : State) (d : DieId) (b : Nat) : Option Block := mfind (getCores s d).blocks b

/-- Replace a block. -/
def setBlock (s : State) (d : DieId) (b : Nat) (x : Block) : State :=
  setCores s d { getCores s d with blocks := mins (getCores s d).blocks b x }

/-- Dispatch `i` of die `d`. -/
def dispOf (s : State) (d : DieId) (i : Nat) : Option Dispatch := mfind (getCores s d).dispatches i

/-- Replace a dispatch. -/
def setDisp (s : State) (d : DieId) (i : Nat) (x : Dispatch) : State :=
  setCores s d { getCores s d with dispatches := mins (getCores s d).dispatches i x }

/-- The dispatch of a block. -/
def blockDisp (s : State) (d : DieId) (b : Block) : Option Dispatch := dispOf s d b.disp

/-- The context of a group. -/
def groupCtx (s : State) (d : DieId) (g : Group) : Option Nat :=
  ((blockOf s d g.block).bind (blockDisp s d)).map (fun x => x.ctx)

/-- The core a group stands on. -/
def groupCore (s : State) (d : DieId) (g : Group) : Nat :=
  match blockOf s d g.block with
  | some b => b.core
  | none => 0

/-- Groups and blocks of a context taken off the cores. -/
def dropCtxWork (s : State) (d : DieId) (c : Nat) : State :=
  let k := getCores s d
  let keepB (b : Block) : Bool := (blockDisp s d b).map (fun x => x.ctx) != some c
  setCores s d { k with blocks := k.blocks.filter (fun e => keepB e.2), groups := k.groups.filter (fun e => !(groupCtx s d e.2 == some c)) }

/-! ### Slots (R125, R131) -/

/-- Slot `i` of die `d`. -/
def slotOf (s : State) (d : DieId) (i : Nat) : Slot := lget slotFree (getCores s d).slots i

/-- Replace slot `i` of die `d`. -/
def setSlot (s : State) (d : DieId) (i : Nat) (x : Slot) : State :=
  setCores s d { getCores s d with slots := lset (getCores s d).slots i x }

/-- The slot a context holds on a die. -/
def slotHolding (s : State) (d : DieId) (c : Nat) : Option Nat :=
  (countUp 0 48).find? (fun i => !((slotOf s d i).state == .free) && (slotOf s d i).ctx == c)

/-- The residency state of a context on a die (R119). -/
def residOf (s : State) (d : DieId) (c : Nat) : RState := mget .none (getCores s d).resid c

/-- Whether core `m` of a die can take restored state: its cluster is lit, and does not drain (R130, R136). -/
def coreOpen (s : State) (d : DieId) (m : Nat) : Bool :=
  coreLit s d m && (match (getLamp s d).draining with | some (c, _, _) => !(c == m / 4) | none => true)

/-- Whether every core that a saved context's die record names can take it back (R130). -/
def savedLit (s : State) (d : DieId) (c : Nat) : Bool :=
  match mfind (getCores s d).saved c with
  | some x => x.cores.all (coreOpen s d)
  | none => true

/-- The residency state a context shows on a die (R119, R130): saved state is HELD while a core it names is not lit. -/
def residShown (s : State) (d : DieId) (c : Nat) : RState :=
  match residOf s d c with
  | .saved => if savedLit s d c then .saved else .held
  | r => r

/-- The code of a residency state (Table 5.8). -/
def residCode (r : RState) : Nat := match r with | .none => 0 | .saved => 1 | .resident => 2 | .held => 3

/-- The DEVICE area of a context's descriptor as it stands with the context's residency states (R119). -/
def writeDevice (s : State) (c : Nat) : State :=
  let x := ctxOf s 0 c
  if x.state = .free then s
  else
    let code := allDies.foldl (fun a n => 4 * a + residCode (residShown s n c)) 0
    memWrite s (x.desc + 0x40) ((countUp 0 192).map (Config.deviceByte code))

/-- The DEVICE areas of the contexts saved on a die, whose HELD the lamps decide (R130). -/
def refreshDevice (s : State) (d : DieId) : State := (getCores s d).saved.foldl (fun t e => writeDevice t e.1) s

/-- Set the residency state of a context on a die, in the DEVICE area of its descriptor too (R119). -/
def setResid (s : State) (d : DieId) (c : Nat) (r : RState) : State :=
  if residOf s d c = r then s
  else writeDevice (setCores s d { getCores s d with resid := mput .none (getCores s d).resid c r }) c

/-- A context's saved state on a die dropped. -/
def dropSaved (s : State) (d : DieId) (c : Nat) : State :=
  setCores s d { getCores s d with saved := mdel (getCores s d).saved c }

/-- Begin the discard of a context's state on a die (R125, R131, Table 5.1): its slot stops through the stop bath, after its load where one
runs; a save that runs is abandoned and the slot is FREE; a context without a slot loses its saved state. -/
def discardOn (s : State) (d : DieId) (c : Nat) : State :=
  match slotHolding s d c with
  | some i =>
    let x := slotOf s d i
    if x.state = .saving then setResid (dropSaved (dropCtxWork (setSlot s d i slotFree) d c) d c) d c .none
    else if x.state = .loading then setSlot s d i { x with discard := true, owed := true, byAuto := false }
    else setSlot s d i { x with state := .stopping, discard := true, since := if x.state = .stopping then x.since else s.now, byAuto := false }
  | none => setResid (dropSaved s d c) d c .none

/-! ### Contexts (R65 to R67) -/

/-- Put a context into the tables. -/
def putCtx (s : State) (c : Nat) (x : Ctx) : State := changeTables s (fun t => { t with contexts := mput ctxFree t.contexts c x })

/-- CTX_RESULT (Table 3.13). -/
def ctxDone (s : State) (c status : Nat) : State :=
  let x := ctxOf s 0 c
  let st := match x.state with | .free => 0 | .live => 1 | .faulted => 2 | .destroying => 3
  let h := getHregs s 0
  let fields := [(c, 24), (st, 40), (if x.state = .free then 0 else x.tenant, 44)]
    ++ allDies.map (fun d => (b2n (holdsSlot s d c), 48 + d.val))
  setHregs s 0 { h with ctxResult := cmdResult h.ctxResult status fields }

/-- A context descriptor's fields, or none where it breaks Table 3.10 (R65). -/
def ctxRecord (c : Nat) (b : List Byte) : Option Ctx :=
  let root := leAt b 8 8
  let save := (countUp 0 4).map (fun n => leAt b (0x10 + 8 * n) 8)
  let reg := leAt b 0x30 2
  let tile := leAt b 0x32 2
  if leAt b 0 2 = c ∧ leAt b 2 1 < 16 ∧ leAt b 3 1 < 4 ∧ leAt b 4 4 < 2 ∧ root < 2 ^ 35 ∧ save.all (fun a => decide (a < 2 ^ 35))
      ∧ 1 ≤ reg ∧ reg ≤ 96 ∧ tile ≤ 64 ∧ 1 ≤ leAt b 0x34 1 ∧ leAt b 0x34 1 < 16 ∧ zeroAt b 0x35 11 ∧ zeroAt b 0x100 1792 then
    some { state := .live, desc := 0, tenant := leAt b 2 1, prio := leAt b 3 1, noEvict := leAt b 4 4 == 1, ptRoot := root, save := save,
           regShare := reg, tileShare := tile, dieMask := leAt b 0x34 1 }
  else none

/-- The descriptor that entry `c` of the context table names, read and checked (R449). -/
def readCtx (s : State) (c : Nat) : Option Ctx × State :=
  let t := (getHregs s 0).ctxTable
  if ¬ bit t 0 then (none, s)
  else match readFor s 0 (fld t 39 12 * 4096 + 8 * c) 8 with
    | (none, s1) => (none, s1)
    | (some e, s1) =>
      let v := le64 e
      if ¬ bit v 0 ∨ fld v 11 1 ≠ 0 ∨ fld v 63 40 ≠ 0 then (none, s1)
      else
        let r := readFor s1 0 (fld v 39 12 * 4096) 4096
        ((r.1.bind (ctxRecord c)).map (fun x => { x with desc := fld v 39 12 * 4096 }), r.2)

/-- Contexts of a tenant that are not FREE. -/
def tenantContexts (s : State) (t : Nat) : Nat :=
  ((tabs s).contexts.filter (fun e => e.2.tenant == t && !(e.2.state == .free))).length

/-- CTX_CMD CREATE (R65). Where several checks fail R65 names no order: BAD_STATE, BAD_ENTRY, TENANT_OFF, then QUOTA (DESIGN CHOICE,
log 43). -/
def cmdCtxCreate (s : State) (c : Nat) : State :=
  if (ctxOf s 0 c).state ≠ .free then ctxDone s c 1
  else match readCtx s c with
    | (none, s1) => ctxDone s1 c 3
    | (some x, s1) =>
      let t := tenantOf s1 0 x.tenant
      if t.state ≠ .enabled then ctxDone s1 c 5
      else if t.maxContexts ≤ tenantContexts s1 x.tenant ∨ t.prioCeil < x.prio then ctxDone s1 c 2
      else ctxDone (putCtx s1 c x) c 0

/-- Whether every queue of a context is FREE on every die. -/
def queuesFree (s : State) (c : Nat) : Bool :=
  allDies.all (fun d => (getQueues s d).all (fun e => e.2.state == .free || !(e.2.ctx == c)))

/-- CTX_CMD DESTROY (R67, R300): the context's slots are discarded and its translations dropped. -/
def cmdCtxDestroy (s : State) (c : Nat) : State :=
  let x := ctxOf s 0 c
  if ¬ (x.state = .live ∨ x.state = .faulted) ∨ ¬ queuesFree s c then ctxDone s c 1
  else if (tenantOf s 0 x.tenant).state = .resetting then ctxDone s c 5
  else
    let s1 := allDies.foldl (fun t d => discardOn t d c) (putCtx s c { x with state := .destroying })
    ctxDone (dropXlate s1 (fun e => e.ctx == c)).2 c 0

/-- CTX_CMD CLEAR_FAULT (R66, R418). -/
def cmdClearFault (s : State) (c : Nat) : State :=
  let x := ctxOf s 0 c
  if x.state ≠ .faulted then ctxDone s c 1
  else if (tenantOf s 0 x.tenant).state = .resetting then ctxDone s c 5
  else ctxDone (putCtx s c { x with state := .live }) c 0

/-- A write of CTX_TABLE or OBJ_TABLE while every entry is FREE (R58). -/
def wrCtxTable (s : State) (v : W64) : State :=
  if baseBad v then s
  else if (tabs s).contexts.any (fun e => !(e.2.state == .free)) then countDiscard s 0
  else setHregs s 0 { getHregs s 0 with ctxTable := baseStored v }

/-- A write of OBJ_TABLE (R58): a base that is not 32 MiB-aligned is a reserved encoding (Table 3.2). -/
def wrObjTable (s : State) (v : W64) : State :=
  if baseBad v || fld v 24 12 != 0 then s
  else if (tabs s).objects.any (fun e => !(e.2.state == .free)) then countDiscard s 0
  else setHregs s 0 { getHregs s 0 with objTable := baseStored v }

/-- CTX_TABLE_WRITE (R58). -/
def execCtxTableWrite (d : DieId) (v : W64) (s : State) : Host.Outcome State Fault Refusal :=
  ok (viaSlot s d 4 v (fun t => onD0 t d (fun t => wrCtxTable t v)))

/-- OBJ_TABLE_WRITE (R58). -/
def execObjTableWrite (d : DieId) (v : W64) (s : State) : Host.Outcome State Fault Refusal :=
  ok (viaSlot s d 5 v (fun t => onD0 t d (fun t => wrObjTable t v)))

/-- CONTEXT_CREATE (R65). -/
def execContextCreate (d : DieId) (c : W16) (s : State) : Host.Outcome State Fault Refusal :=
  d0Command s d 4 (fun t => cmdCtxCreate t c.toNat)

/-- CONTEXT_DESTROY (R67). -/
def execContextDestroy (d : DieId) (c : W16) (s : State) : Host.Outcome State Fault Refusal :=
  d0Command s d 4 (fun t => cmdCtxDestroy t c.toNat)

/-- The pins that stand for a context on one die released (R67): those of its models and sequences in GEN (R272) and of the layers it shows
(R337). -/
def dropCtxPins (c : Nat) (s : State) (d : DieId) : State :=
  let u := getGen s d
  let e := getEas s d
  let seqs := u.seqs.filter (fun x => x.2.ctx == c)
  let models := u.models.filter (fun x => x.2.ctx == c)
  let layers := e.layers.filter (fun l => l.ctx == c)
  let s1 := setGen s d { u with
    seqs := u.seqs.map (fun x => if x.2.ctx = c then (x.1, { x.2 with pins := [] }) else x),
    models := u.models.map (fun x => if x.2.ctx = c then (x.1, { x.2 with pins := [] }) else x) }
  let s2 := setEas s1 d { e with layers := e.layers.map (fun l => if l.ctx = c then { l with pins := [] } else l) }
  dropPins s2 d (seqs.flatMap (fun x => x.2.pins) ++ models.flatMap (fun x => x.2.pins) ++ layers.flatMap (fun l => l.pins))

/-- CONTEXT_DESTROY_DONE (R67): the context holds no slot any more, its pins are released, and it becomes FREE. -/
def execContextDestroyDone (c : W16) (s : State) : Host.Outcome State Fault Refusal :=
  event ((ctxOf s 0 c.toNat).state == .destroying && allDies.all (fun d => !holdsSlot s d c.toNat)) s
    (putCtx (allDies.foldl (dropCtxPins c.toNat) s) c.toNat ctxFree)

/-- CONTEXT_QUERY (R57): reports without acting. -/
def execContextQuery (d : DieId) (c : W16) (s : State) : Host.Outcome State Fault Refusal :=
  d0Command s d 4 (fun t => ctxDone t c.toNat 0)

/-- CLEAR_FAULT (R66). -/
def execClearFault (d : DieId) (c : W16) (s : State) : Host.Outcome State Fault Refusal :=
  d0Command s d 4 (fun t => cmdClearFault t c.toNat)

/-! ### Objects (R68 to R71) -/

/-- OBJ_RESULT (Table 3.18): the object's state after the command, its pins and tenant. -/
def objDone (s : State) (i status : Nat) (pins : Nat) : State :=
  let o := objOf s 0 i
  let st := match o.state with | .free => 0 | .valid => 1 | .zombie => 2
  let h := getHregs s 0
  setHregs s 0 { h with objResult := cmdResult h.objResult status [(st, 24), (min pins (2 ^ 24 - 1), 32), (o.tenant, 56)] }

/-- Pages an object counts in MAX_PAGES (Table 11.3). -/
def quotaPages (o : Obj) : Nat := if o.place = 1 then 4 * o.pages else o.pages

/-- Objects of a tenant that are not FREE. -/
def tenantObjs (s : State) (t : Nat) : List Obj :=
  ((tabs s).objects.map (fun e => e.2)).filter (fun o => o.tenant == t && !(o.state == .free))

/-- An object table entry's driver-owned fields, or none where they break Table 3.15. -/
def objRecord (b : List Byte) (gen : Nat) : Option Obj :=
  let tp := leAt b 1 1
  let list := leAt b 8 8
  if fldN tp 5 4 ≠ 3 ∧ 1 ≤ leAt b 4 4 ∧ list < 2 ^ 35 ∧ list % 8 = 0 ∧ zeroAt b 0x10 8 then
    some { state := .valid, tenant := tp % 16, place := fldN tp 5 4, homeDie := fldN tp 7 6, gen := gen, pages := leAt b 4 4,
           pageList := list, dirty := true }
  else none

/-- OBJ_CMD CREATE (R68, R71). Where several checks fail the spec names no order: STALE_HANDLE, BAD_STATE, BAD_ENTRY, TENANT_OFF, then
QUOTA (DESIGN CHOICE, log 43). -/
def cmdObjCreate (s : State) (handle : Nat) : State :=
  let i := handle % 2 ^ 20
  let o := objOf s 0 i
  let pins := packagePins s i
  if handle / 2 ^ 20 ≠ o.gen then objDone s i 4 pins
  else if o.state ≠ .free then objDone s i 1 pins
  else if i = 0 ∨ ¬ bit (getHregs s 0).objTable 0 then objDone s i 3 pins
  else match readFor s 0 (fld (getHregs s 0).objTable 39 12 * 4096 + 32 * i) 32 with
    | (none, s1) => objDone s1 i 3 pins
    | (some b, s1) => match objRecord b o.gen with
      | none => objDone s1 i 3 pins
      | some x =>
        let t := tenantOf s1 0 x.tenant
        let os := tenantObjs s1 x.tenant
        if t.state ≠ .enabled then objDone s1 i 5 pins
        else if t.maxObjects ≤ os.length ∨ t.maxPages < (os.map quotaPages).sum + quotaPages x then objDone s1 i 2 pins
        else objDone (putObj s1 i x) i 0 pins

/-- OBJ_CMD FREE (R69, R300): FREE at once without pins, otherwise ZOMBIE; no die keeps a translation that names it. -/
def cmdObjFree (s : State) (handle : Nat) : State :=
  let i := handle % 2 ^ 20
  let o := objOf s 0 i
  let pins := packagePins s i
  if handle / 2 ^ 20 ≠ o.gen then objDone s i 4 pins
  else if o.state ≠ .valid then objDone s i 1 pins
  else if (tenantOf s 0 o.tenant).state = .resetting then objDone s i 5 pins
  else
    let s1 := (dropXlate s (fun e => e.handle % 2 ^ 20 == i)).2
    objDone (settleObj (putObj s1 i { o with state := .zombie, dirty := true }) i) i 0 pins

/-- OBJ_CMD QUERY (R57, R71). -/
def cmdObjQuery (s : State) (handle : Nat) : State :=
  let i := handle % 2 ^ 20
  objDone s i (if handle / 2 ^ 20 ≠ (objOf s 0 i).gen then 4 else 0) (packagePins s i)

/-- OBJECT_CREATE (R68). -/
def execObjectCreate (d : DieId) (h : W32) (s : State) : Host.Outcome State Fault Refusal :=
  d0Command s d 5 (fun t => cmdObjCreate t h.toNat)

/-- OBJECT_FREE (R69). -/
def execObjectFree (d : DieId) (h : W32) (s : State) : Host.Outcome State Fault Refusal :=
  d0Command s d 5 (fun t => cmdObjFree t h.toNat)

/-- OBJECT_QUERY (R57). -/
def execObjectQuery (d : DieId) (h : W32) (s : State) : Host.Outcome State Fault Refusal :=
  d0Command s d 5 (fun t => cmdObjQuery t h.toNat)

/-- OBJECT_ENTRY_WRITEBACK (R69): STATE and GEN go to bytes 0x00 and 0x02-0x03 of the entry, and no other byte. -/
def execObjectEntryWriteback (index : BitVec 20) (s : State) : Host.Outcome State Fault Refusal :=
  let o := objOf s 0 index.toNat
  let pa := fld (getHregs s 0).objTable 39 12 * 4096 + 32 * index.toNat
  let st := match o.state with | .free => 0 | .valid => 1 | .zombie => 2
  let clean (t : Tables) : Tables :=
    let x := mget objFree t.objects index.toNat
    { t with objects := mput objFree t.objects index.toNat { x with dirty := false } }
  event (o.dirty && bit (getHregs s 0).objTable 0 && reach s 0 (dieOf pa)) s
    (writeCells { s with tables := qmap (fun _ t => clean t) s.tables }
      ((pa, BitVec.ofNat 8 st) :: cellsAt (pa + 2) (natLe 2 o.gen)))

/-! ### A context's fault (R66, R418) -/

/-- How far a record count lies above DONE (R72). -/
def ageOf (q : Queue) (count : Nat) : Nat := (count + 2 ^ 32 - q.done % 2 ^ 32) % 2 ^ 32

/-- The fetched records that `p` names return to the ring: HEAD moves back to the lowest of them, and what was fetched above it
and has ended without a frame is fetched again as well (R76). -/
def returnToRing (q : Queue) (p : Rec → Bool) : Queue :=
  match q.fetched.filter p with
  | [] => q
  | r :: _ => { q with fetched := q.fetched.filter (fun x => !p x), head := r.count,
                       ended := q.ended.filter (fun e => decide (ageOf q e.1 < ageOf q r.count)) }

/-- A queue that starts nothing more: STOPPED, its records not handed out returned to the ring (R66, R76). -/
def stopQueue (q : Queue) : Queue :=
  if q.state = .running ∨ q.state = .stopped then { returnToRing q (fun _ => true) with state := .stopped } else q

/-- Move a context to FAULTED: its queues stop on every die, its running records are marked (R66, R73), and the tenant record of
the die that found the fault counts it (Table 17.4). A tenant that is being reset has none of its contexts moved (R418). -/
def faultContext (s : State) (d : DieId) (c : Nat) : State :=
  let x := ctxOf s 0 c
  if x.state ≠ .live ∨ resettingTenant s x.tenant then s
  else
    let s1 := putCtx s c { x with state := .faulted }
    let mark (q : Queue) : Queue :=
      if q.ctx = c ∧ q.state ≠ .free then
        let q1 := stopQueue q
        { q1 with runs := q1.runs.map (fun r => { r with ctxFault := true }) }
      else q
    let s2 := { s1 with queues := qmap (fun _ m => mmap (fun _ q => mark q) m) s1.queues }
    let zero : TenRecord := { start := 0, finish := 0, resets := 0, aborted := 0, slots := 0, ops := 0, flips := 0, faults := 0, lastFault := 0 }
    let r := mget zero (getTenRecs s2 d) x.tenant
    setTenRecs s2 d (mput zero (getTenRecs s2 d) x.tenant
      { r with faults := satAdd 32 r.faults 1, lastFault := ((getLog s2 d).faultHead + (2 ^ 32 - 1)) % 2 ^ 32 })

end Sys2Proof.Machine
end

