-- ==== Sys2Proof/Machine/Queues.lean ====
section
/-! DEFINITION. Queues, launch records, completion, fences and waits (03, R72 to R83; 04, R86 to R88, R106; R449). -/

namespace Sys2Proof.Machine

/-! ### Frames and runs -/

/-- Frame `f` of die `d`: frame `f % 4` of stoker `f / 4`. -/
def frameOf' (s : State) (d : DieId) (f : Nat) : Frame := lget (frameFree (f % 4)) (getStk s d).frames f

/-- Replace frame `f` of die `d`. -/
def setFrame (s : State) (d : DieId) (f : Nat) (x : Frame) : State :=
  setStk s d { getStk s d with frames := lset (getStk s d).frames f x }

/-- Stoker `k` of die `d`. -/
def stokerOf (s : State) (d : DieId) (k : Nat) : Stoker := lget stokerReset (getStk s d).stokers k

/-- Replace stoker `k` of die `d`. -/
def setStoker (s : State) (d : DieId) (k : Nat) (x : Stoker) : State :=
  setStk s d { getStk s d with stokers := lset (getStk s d).stokers k x }

/-- Engine `e` of die `d`, coded as QCP_CMD.ENGINE. -/
def engineOf (s : State) (d : DieId) (e : Nat) : Engine := lget engineReset (getStk s d).engines e

/-- Replace engine `e` of die `d`. -/
def setEngine (s : State) (d : DieId) (e : Nat) (x : Engine) : State :=
  setStk s d { getStk s d with engines := lset (getStk s d).engines e x }

/-- The run of a record. -/
def runOf (q : Queue) (count : Nat) : Option RunRec := q.runs.find? (fun r => r.record.count == count)

/-- A run changed. -/
def updRun (s : State) (d : DieId) (q count : Nat) (f : RunRec → RunRec) : State :=
  let x := queueOf s d q
  setQueue s d q { x with runs := x.runs.map (fun r => if r.record.count = count then f r else r) }

/-- The first event that ends a record gives its status (R73). -/
def markStatus (s : State) (d : DieId) (q count st : Nat) : State :=
  updRun s d q count (fun r => { r with status := some (r.status.getD st) })

/-- The frame that issues leaves the rotation's front: its slice ends and it rejoins last (R89). A frame that parks takes its place in the
rotation then and keeps it when it wakes (DESIGN CHOICE, log 47). -/
def endSlice (s : State) (d : DieId) (f : Nat) : State :=
  let k := stokerOf s d (f / 4)
  if k.cur = f % 4 then
    let order := k.order.filter (fun x => !(x == f % 4)) ++ [f % 4]
    let ready (x : Nat) : Bool :=
      let y := frameOf' s d (4 * (f / 4) + x)
      y.busy && y.park == .ready
    setStoker s d (f / 4) { k with order := order, cur := (order.find? ready).getD (f % 4), sliceAt := dtime s d }
  else s

/-- Park a frame: its slice ends early (R89). -/
def parkFrame (s : State) (d : DieId) (f : Nat) (p : Park) : State :=
  endSlice (setFrame s d f { frameOf' s d f with park := p }) d f

/-- The key of the wait that a record's program holds: die, queue and count. -/
def watchKey (d : DieId) (q count : Nat) : Nat := (d.val * 4096 + q) * 2 ^ 32 + count

/-- The wait of a frame forgotten. -/
def dropWatch (s : State) (d : DieId) (f : Nat) : State :=
  { s with watches := mdel s.watches (watchKey d (frameOf' s d f).queue (frameOf' s d f).count) }

/-- End the program of a frame: with a status other than OK where one is given (R73, R106, R108). -/
def endProgram (s : State) (d : DieId) (f : Nat) (status : Option Nat) : State :=
  let x := frameOf' s d f
  let s1 := match status with
    | some st => markStatus s d x.queue x.count st
    | none => s
  parkFrame (dropWatch s1 d f) d f .ended

/-- A frame that is ready: where no frame of its stoker issues, it does (R89). -/
def readyFrame (s : State) (d : DieId) (f : Nat) : State :=
  let s1 := setFrame s d f { frameOf' s d f with park := .ready }
  let k := stokerOf s1 d (f / 4)
  let cur := frameOf' s1 d (4 * (f / 4) + k.cur)
  if k.cur ≠ f % 4 ∧ cur.busy ∧ cur.park = .ready then s1 else setStoker s1 d (f / 4) { k with cur := f % 4, sliceAt := dtime s d }

/-- A parked instruction completes: `v` goes to register `rd` (x0 stays zero) and the program goes on. In a walk of k.graph the
walk goes on instead (R109). -/
def wakeFrame (s : State) (d : DieId) (f rd : Nat) (v : W32) : State :=
  let x := frameOf' s d f
  readyFrame (if x.walk.isSome then s
    else setFrame s d f { x with regs := if rd = 0 then x.regs else mput 0 x.regs rd v, pc := x.pc + 4 }) d f

/-- A stoker fault (R108): the entry with its detail, and the program ended with PROGRAM_FAULT. `sub` is byte 9 of the detail
(Table 17.7). -/
def stokerFault (s : State) (d : DieId) (f cause addr sub : Nat) : State :=
  let x := frameOf' s d f
  let s1 := logEntry s d { code := 0x0203, kind := 0x03, index := f, tenant := some x.tenant, ctx := some x.ctx,
                           detail := natLe 8 addr ++ natLe 1 cause ++ natLe 1 sub ++ natLe 2 x.queue ++ natLe 4 x.pc.toNat,
                           addr := addr, pc := x.pc.toNat, cause := cause, queue := x.queue }
  endProgram s1 d f (some 3)

/-- A wait, a signal or a submission rejected at translation: the XLATE_FAULT entry and TRANSLATION (R98, R100). -/
def rejectFrame (s : State) (d : DieId) (f va cause kind index : Nat) : State :=
  let x := frameOf' s d f
  endProgram (xlateFault s d x.ctx va cause kind index x.queue) d f (some 2)

/-! ### Posting (R75 to R77) -/

/-- Post the ended records in count order: DONE, STATUS and TAG of the completion slot (R75, Table 3.22). -/
def postRecords : Nat → Queue → Queue
  | 0, q => q
  | n + 1, q =>
    match q.ended.find? (fun e => e.1 == q.done) with
    | some e =>
      let done := (q.done + 1) % 2 ^ 32
      postRecords n { q with done := done, ended := q.ended.erase e, slot := packFields [(done, 0), (e.2.1, 32), (e.2.2, 48)] }
    | none => q

/-- A record ends with a status: it is posted in count order, and any status but OK stops the queue (R75, R76). A DRAINING queue
with nothing running is FREE (R77). -/
def endRecord (q : Queue) (count status tag : Nat) : Queue :=
  let q1 := { q with ended := q.ended ++ [(count, status, tag)] }
  let q2 :=
    if status ≠ 0 ∧ q.state ≠ .draining then
      { returnToRing q1 (fun r => decide (ageOf q count < ageOf q r.count)) with state := .stopped }
    else q1
  let q3 := postRecords q2.ended.length q2
  if q3.state = .draining ∧ q3.runs.isEmpty then { q3 with state := .free } else q3

/-! ### Doorbells (R42, R74) -/

/-- A doorbell discarded: its flag, its count and the entry (R74). -/
def doorbellDiscard (s : State) (d : DieId) (q tail flag : Nat) : State :=
  let r := getQregs s d
  let e := errRaise r.dblErr s.now flag
  let e1 := if flag = 0 then errCount e s.now 31 16 1 else errCount e s.now 47 32 1
  logEntry (setQregs s d { r with dblErr := e1 }) d
    { code := 0x0104, kind := 0x01, detail := detV q (tail + 2 ^ flag * 2 ^ 32), queue := q }

/-- A doorbell word checked in the order of R74: the tail it sets, or none where it is no write or is discarded. -/
def doorbellCheck (s : State) (d : DieId) (q : Nat) (v : W64) : Except State Nat :=
  let x := queueOf s d q
  if v = BitVec.allOnes 64 then .error s
  else if fld v 63 32 ≠ 0 then .error (doorbellDiscard s d q (fld v 31 0) 2)
  else if x.state = .draining ∨ x.state = .free then .error (doorbellDiscard s d q (fld v 31 0) 0)
  else if 2 ^ x.log2 < (fld v 31 0 + 2 ^ 32 - x.done) % 2 ^ 32 then .error (doorbellDiscard s d q (fld v 31 0) 1)
  else .ok (fld v 31 0)

/-- A checked doorbell takes effect (R42): its tail becomes the queue's, unless the queue has left RUNNING and STOPPED meanwhile or has
retired records beyond that tail (R74). -/
def ringBell (s : State) (d : DieId) (q tail : Nat) : State :=
  let x := queueOf s d q
  if x.state = .draining ∨ x.state = .free then doorbellDiscard s d q tail 0
  else if 2 ^ x.log2 < (tail + 2 ^ 32 - x.done) % 2 ^ 32 then doorbellDiscard s d q tail 1
  else setQueue s d q { x with tail := tail }

/-! ### Queue commands (R77, R78) -/

/-- QCP_RESULT, QCP_STATS and the QCP_WAIT registers loaded with the named queue's values (R78). -/
def qcpDone (s : State) (d : DieId) (q status : Nat) : State :=
  let x := queueOf s d q
  let st := match x.state with | .free => 0 | .running => 1 | .stopped => 2 | .draining => 3
  let r := getQregs s d
  let res := cmdResult r.result status [(q, 24), (st, 36), (x.engine, 40), (x.ctx, 48)]
  setQregs s d { r with result := res, stats := packFields [(x.low, 0), (x.timeouts, 32)], waitAddr := x.waitAddr,
                        waitThr := x.waitThr, waitCur := x.waitCur }

/-- Queues of a tenant on a die that are not FREE. -/
def tenantQueues (s : State) (d : DieId) (t : Nat) : Nat :=
  ((getQueues s d).filter (fun e => !(e.2.state == .free) && (ctxOf s 0 e.2.ctx).tenant == t)).length

/-- A ring header's fields, or none where it fails its checks (Table 3.19): context, LOG2_SIZE, watchdog, RING_PA. -/
def ringHeader (b : List Byte) : Option (Nat × Nat × Option Nat × Nat) :=
  let lg := leAt b 2 1
  let wd := leAt b 4 4
  let pa := leAt b 8 8
  if 4 ≤ lg ∧ lg ≤ 16 ∧ leAt b 3 1 = 0 ∧ zeroAt b 0x10 48 ∧ pa < 2 ^ 35 ∧ pa % 4096 = 0 ∧ pa % 2 ^ 25 + 32 * 2 ^ lg ≤ 2 ^ 25 then
    some (leAt b 0 2, lg, if wd = 0xFFFFFFFF then none else some (if wd = 0 then 100000 else wd), pa)
  else none

/-- QCP_CMD CREATE (R78), its checks in order. A fenced engine is BAD_STATE (R413). Beside what R78 names, the queue's wait snapshot starts at
zero (DESIGN CHOICE, log 44). -/
def cmdQueueCreate (s : State) (d : DieId) (q engine header : Nat) : State :=
  if 12 < engine then s
  else if (queueOf s d q).state ≠ .free ∨ (engineOf s d engine).fenced then qcpDone s d q 1
  else
    let r := readFor s d (header * 4096) 64
    let s := r.2
    match r.1.bind ringHeader with
    | none => qcpDone s d q 3
    | some (c, lg, wd, pa) =>
      let x := ctxOf s d c
      let t := tenantOf s d x.tenant
      if x.state ≠ .live then qcpDone s d q 1
      else if ¬ x.dieMask.testBit d.val then qcpDone s d q 3
      else if t.state ≠ .enabled then qcpDone s d q 5
      else if t.maxQueues ≤ tenantQueues s d x.tenant then qcpDone s d q 2
      else qcpDone (setQueue s d q { queueFree with state := .running, engine := engine, ctx := c, log2 := lg, wdogUs := wd,
                                                     ring := pa }) d q 0

/-- Whether a command names a resource of a tenant that is being reset (R418). -/
def queueResetting (s : State) (d : DieId) (q : Nat) : Bool :=
  !((queueOf s d q).state == .free) && resettingTenant s (ctxOf s d (queueOf s d q).ctx).tenant

/-- QCP_CMD DESTROY (R77). -/
def cmdQueueDestroy (s : State) (d : DieId) (q : Nat) : State :=
  let x := queueOf s d q
  if x.state = .free ∨ x.state = .draining then qcpDone s d q 1
  else if queueResetting s d q then qcpDone s d q 5
  else
    let y : Queue := { returnToRing x (fun _ => true) with state := .draining }
    qcpDone (setQueue s d q (if y.runs.isEmpty then { y with state := .free } else y)) d q 0

/-- QCP_CMD RESUME (R76). A fenced engine's queues stay STOPPED (R413). -/
def cmdQueueResume (s : State) (d : DieId) (q : Nat) : State :=
  let x := queueOf s d q
  if x.state ≠ .stopped ∨ (engineOf s d x.engine).fenced then qcpDone s d q 1
  else if queueResetting s d q then qcpDone s d q 5
  else qcpDone (setQueue s d q { x with state := .running }) d q 0

/-- QUEUE_CREATE (R78). -/
def execQueueCreate (d : DieId) (q : BitVec 12) (engine : BitVec 4) (header : BitVec 28) (s : State) : Host.Outcome State Fault Refusal :=
  ok (viaSlot s d 2 0 (fun t => cmdQueueCreate t d q.toNat engine.toNat header.toNat))

/-- QUEUE_DESTROY (R77). -/
def execQueueDestroy (d : DieId) (q : BitVec 12) (s : State) : Host.Outcome State Fault Refusal :=
  ok (viaSlot s d 2 0 (fun t => cmdQueueDestroy t d q.toNat))

/-- QUEUE_QUERY (R78). -/
def execQueueQuery (d : DieId) (q : BitVec 12) (s : State) : Host.Outcome State Fault Refusal :=
  ok (viaSlot s d 2 0 (fun t => qcpDone t d q.toNat 0))

/-- QUEUE_RESUME (R76). -/
def execQueueResume (d : DieId) (q : BitVec 12) (s : State) : Host.Outcome State Fault Refusal :=
  ok (viaSlot s d 2 0 (fun t => cmdQueueResume t d q.toNat))

/-! ### Fetch, hand-out and retirement (R86 to R88, R106) -/

/-- Whether a die fetches and starts records: its firmware runs, POWER_OK is high and no DIE error of its own or of
D0 stands (R390, R412). -/
def dieRuns (s : State) (d : DieId) : Bool :=
  s.board.powerOk && (getSec s d).started && !(getLog s d).dieError && !(getLog s 0).dieError

/-- Whether a tenant's work on a die is refused because its reset runs there (R416). -/
def tenantQuiet (s : State) (t : Nat) : Bool := resettingTenant s t

/-- A launch record from its 32 bytes, with the status its check gives (R87). PROGRAM is checked where TYPE is PROGRAM; a NOP's is not (DESIGN
CHOICE, log 46). -/
def recordOf (b : List Byte) (count : Nat) (poison : Bool) : Rec :=
  let typ := leAt b 0 1
  let program := le64 (b.drop 8)
  let bad := poison || decide (1 < typ) || decide (1 < leAt b 1 1) || decide (leAt b 4 4 ≠ 0)
    || (typ == 1 && (decide (leAt b 8 8 % 4 ≠ 0) || decide (2 ^ 48 ≤ leAt b 8 8)))
  { count := count, program := program, serial := leAt b 1 1 % 2 == 1, tag := leAt b 2 2, arg0 := le64 (b.drop 16),
    arg1 := le64 (b.drop 24), ended := if bad then some 1 else if typ = 0 then some 0 else none }

/-- RECORD_FETCH (R87): the engine fetches the record at HEAD of a RUNNING queue whose tail lies beyond it, checks it and its PROGRAM page, and keeps it for
hand-out or ends it without a frame. -/
def execRecordFetch (d : DieId) (q : BitVec 12) (s : State) : Host.Outcome State Fault Refusal :=
  let x := queueOf s d q.toNat
  let pa := x.ring + 32 * (x.head % 2 ^ x.log2)
  if ¬ dieRuns s d ∨ x.state ≠ .running ∨ ageOf x x.tail ≤ ageOf x x.head ∨ (ctxOf s d x.ctx).state ≠ .live ∨ rowWaits s pa 32
      ∨ (engineOf s d x.engine).fenced ∨ tenantQuiet s (ctxOf s d x.ctx).tenant then ok s
  else if ¬ reach s d (dieOf pa) then ok (noteLate s d (dieOf pa))
  else
    let s := noteRead s pa 32
    let r := recordOf (memRead s pa 32) x.head (poisonIn s pa 32)
    let y := { x with head := (x.head + 1) % 2 ^ 32 }
    match r.ended with
    | some st => ok (setQueue s d q.toNat (endRecord y r.count st r.tag))
    | none =>
      match translate s d x.ctx r.program.toNat {} with
      | (.ok _, s1) => ok (setQueue s1 d q.toNat { y with fetched := y.fetched ++ [r] })
      | (.error c, s1) =>
        ok (setQueue (xlateFault s1 d x.ctx r.program.toNat c 0x02 x.engine q.toNat) d q.toNat (endRecord y r.count 2 r.tag))

/-- Whether the first fetched record of a queue may start: one with SERIAL waits until every earlier record has retired
(Table 3.20), and a queue starts none while its context is not LIVE or its tenant is being reset (R66, R416). -/
def mayStart (s : State) (d : DieId) (q : Queue) : Bool :=
  match q.fetched with
  | r :: _ => (q.state == .running || q.state == .stopped) && (ctxOf s d q.ctx).state == .live
      && !tenantQuiet s (ctxOf s d q.ctx).tenant && (!r.serial || r.count == q.done)
  | [] => false

/-- Queues of an engine that offer a record, in rotation after the queue served last, the highest priority class first (R88). -/
def offers (s : State) (d : DieId) (e : Nat) : List Nat :=
  let qs := ((getQueues s d).filter (fun x => x.2.engine == e && mayStart s d x.2)).map (fun x => x.1)
  let last := (engineOf s d e).lastQueue
  let rot := qs.filter (fun q => decide (last < q)) ++ qs.filter (fun q => decide (q ≤ last))
  let prio (q : Nat) : Nat := (ctxOf s d (queueOf s d q).ctx).prio
  [3, 2, 1, 0].flatMap (fun p => rot.filter (fun q => prio q == p))

/-- Frames of a die that records of tenants 1 to 15 hold (R88). -/
def tenantFrames (s : State) (d : DieId) : Nat := ((getStk s d).frames.filter (fun f => f.busy && decide (f.tenant ≠ 0))).length

/-- Whether an offered record may take a frame now: records of tenants 1 to 15 hold at most 24 (R88). -/
def frameQuota (s : State) (d : DieId) (q : Nat) : Bool :=
  (ctxOf s d (queueOf s d q).ctx).tenant == 0 || decide (tenantFrames s d < 24)

/-- Free frames of stoker `k`. -/
def freeFrames (s : State) (d : DieId) (k : Nat) : List Nat :=
  (countUp (4 * k) 4).filter (fun f => !(frameOf' s d f).busy)

/-- The frame a record is handed to, among stokers that `p` admits: the stoker with the most free frames, the lowest on a tie,
and its lowest free frame (R86). -/
def pickFrame (s : State) (d : DieId) (p : Nat → Bool) : Option Nat :=
  let best := (countUp 0 8).foldl (fun (b : Option Nat) k =>
    if p k && decide (0 < (freeFrames s d k).length) then
      match b with
      | some j => if (freeFrames s d j).length < (freeFrames s d k).length then some k else b
      | none => some k
    else b) none
  best.bind (fun k => (freeFrames s d k).head?)

/-- Whether records are handed to stoker `k`. -/
def stokerOpen (s : State) (d : DieId) (k : Nat) : Bool :=
  let x := stokerOf s d k
  x.handout && !x.dark && !x.fenced

/-- A frame as Table 4.1 leaves it before the first instruction, its local memory and instruction cache cleared (R86). -/
def frameStart (f : Nat) (q : Nat) (x : Queue) (tenant : Nat) (r : Rec) : Frame :=
  let a0 := (fld r.arg0 31 0, fld r.arg0 63 32)
  let a1 := (fld r.arg1 31 0, fld r.arg1 63 32)
  let w (n : Nat) : W32 := BitVec.ofNat 32 n
  let regs := mput 0 (mput 0 (mput 0 (mput 0 (mput 0 ([] : Map W32) 2 0x3000) 10 (w a0.1)) 11 (w a0.2)) 12 (w a1.1)) 13 (w a1.2)
  { frameFree f with busy := true, queue := q, count := r.count, ctx := x.ctx, tenant := tenant, shown := f, regs := regs,
                     pc := w (0x40000000 + fld r.program 29 0), codeWin := fld r.program 47 30, dataWin := fld r.program 47 30,
                     park := .ready, prog := r.program, tag := r.tag }

/-- RECORD_HANDOUT (R86, R88): a frame of the die is offered to the engines in rotation after the engine served last, and the
first record offered that may take it starts its program. -/
def execRecordHandout (d : DieId) (s : State) : Host.Outcome State Fault Refusal :=
  let u := getStk s d
  let order := (countUp (u.lastEngine + 1) 13).map (fun e => e % 13)
  let cand := (order.flatMap (fun e => (offers s d e).filter (frameQuota s d))).head?
  match cand, pickFrame s d (stokerOpen s d), dieRuns s d with
  | some q, some f, true =>
    let x := queueOf s d q
    match x.fetched with
    | r :: rest =>
      let run : RunRec := { record := r, frame := f, status := none, ctxFault := false, aborted := false, opsOut := 0 }
      let s1 := setQueue s d q { x with fetched := rest, runs := x.runs ++ [run] }
      let s2 := setFrame s1 d f (frameStart f q x (ctxOf s d x.ctx).tenant r)
      let s3 := setStk s2 d { getStk s2 d with lastEngine := x.engine }
      let s4 := setEngine s3 d x.engine { engineOf s3 d x.engine with lastQueue := q }
      ok (readyFrame s4 d f)
    | [] => ok s
  | _, _, _ => ok s

/-- The status with which a run ends (R73). -/
def runStatus (r : RunRec) : Nat := if r.aborted then 5 else if r.ctxFault then 4 else r.status.getD 0

/-- Retire a run: the record ends, and its frame is freed (R106). -/
def retireRun (s : State) (d : DieId) (q : Nat) (r : RunRec) : State :=
  let x := queueOf s d q
  let s1 := setQueue s d q (endRecord { x with runs := x.runs.filter (fun y => !(y.record.count == r.record.count)) }
    r.record.count (runStatus r) r.record.tag)
  setFrame s1 d r.frame (frameFree r.frame)

/-! ### Operations and their fences (R100, R101) -/

/-- An operation of a record is over: finished, or stopped, which ends the record with PROGRAM_FAULT (R101, R106). -/
def opOver (s : State) (d : DieId) (q count : Nat) (good : Bool) : State :=
  let s1 := updRun s d q count (fun r => { r with opsOut := r.opsOut - 1 })
  if good then s1 else markStatus s1 d q count 3

/-- A fence signal sent (R81, R97, R101). -/
def sendSignal (s : State) (x : Signal) : State := { s with signals := mins s.signals s.nextId x, nextId := s.nextId + 1 }

/-- An operation has finished: its pins go (R302), and its DONE_FENCE, where it names one, is signalled before it counts as
finished (R101). -/
def opFinish (s : State) (d : DieId) (q count : Nat) (fence : Bool) (pa : Nat) (v : W64) (pins : List Nat) : State :=
  let s1 := dropPins s d pins
  if fence then sendSignal s1 { src := d, frame := none, queue := q, count := count, va := 0, pa := pa, value := v, sentAt := s.now }
  else opOver s1 d q count true

/-- An operation has been stopped (R101): its pins go and its fence is not signalled. -/
def opStop (s : State) (d : DieId) (q count : Nat) (pins : List Nat) : State := opOver (dropPins s d pins) d q count false

/-! ### Fences and waits (R79 to R83, R96, R97) -/

/-- The signed difference of two fence values is zero or more (R80). -/
def fenceGe (v t : W64) : Bool := !((v - t).msb)

/-- A signal applied at the home die (R81): 1 replaced, 0 equal, 2 lower. -/
def applySignal (s : State) (pa : Nat) (v : W64) : Nat × State :=
  let c := memWord s pa
  if v = c then (0, s) else if (v - c).msb then (2, s) else (1, memWriteWord s pa v)

/-- A lower signal counts in LOW_SIGNALS of the signalling queue (R81). -/
def countLow (s : State) (d : DieId) (q : Nat) : State :=
  let x := queueOf s d q
  setQueue s d q { x with low := satAdd 32 x.low 1 }

/-- The outcome of a signal reaches who sent it: 0 to 2 as R97, 3 not applied because the word is poisoned (R290), 4 target dark
and 5 timeout (R98, R101). -/
def signalDone (s : State) (x : Signal) (outcome : Nat) : State :=
  let s1 := if outcome = 2 then countLow s x.src x.queue else s
  match x.frame with
  | some f =>
    let y := frameOf' s1 x.src f
    let rd := match y.park with | .sigmax r => r | _ => 32
    if rd = 32 ∨ y.queue ≠ x.queue ∨ y.count ≠ x.count then s1
    else if outcome ≤ 2 then wakeFrame s1 x.src f rd (BitVec.ofNat 32 outcome)
    else stokerFault s1 x.src f 4 x.va (if outcome = 3 then 0xFF else if outcome = 4 then 0x0A else 0xFE)
  | none => opOver s1 x.src x.queue x.count (decide (outcome ≤ 2))

/-- The request that carries a signal to another die: SIG, with the word's place in its unit in ARG (log 12). -/
def signalAsk (id : Nat) (x : Signal) : AskFor :=
  { who := .signal id, die := dieOf x.pa, typ := 5, len := 1, addr := x.pa / 64 * 64, arg := x.pa % 64, data := natLe 8 x.value.toNat ++ rep 8 0 }

/-- FENCE_SIGNAL (R81): a signal that was sent is applied, one at a time, at the fence's home die. One to another die goes over the cord as SIG
(R363), or meets a cord that is not UP, now or after it was put on its end (R364). -/
def execFenceSignal (id : Nat) (s : State) : Host.Outcome State Fault Refusal :=
  match mfind s.signals id with
  | none => ok s
  | some x =>
    let s1 := { s with signals := mdel s.signals id }
    if hop s x.src (dieOf x.pa) = .dark then ok (signalDone s1 x 4)
    else if dieOf x.pa ≠ x.src then
      match answerOf s x.src (dieOf x.pa) (.signal id) with
      | some _ => ok (signalDone (dropAnswer s1 x.src (dieOf x.pa) (.signal id)) x 4)
      | none => ok (askDie x.src s (signalAsk id x))
    else if rowWaits s x.pa 8 then ok s
    else
      let s2 := noteRead s1 x.pa 8
      if poisonAt s2 x.pa then ok (signalDone s2 x 3)
      else
        let (o, s3) := applySignal s2 x.pa x.value
        ok (signalDone s3 x o)

/-- Whether a wait on a fence word is satisfied now (R80, R290). -/
def waitHolds (s : State) (d : DieId) (pa : Nat) (thr : W64) : Bool :=
  reach s d (dieOf pa) && !poisonAt s pa && fenceGe (memWord s pa) thr

/-- The value that satisfies the wait of a frame (R80): that of the change which did, or the fence's present one. -/
def waitValue (s : State) (d : DieId) (f pa : Nat) (thr : W64) : Option W64 :=
  let x := frameOf' s d f
  match (mfind s.watches (watchKey d x.queue x.count)).bind (fun w => w.met) with
  | some v => some v
  | none => if waitHolds s d pa thr then some (memWord s pa) else none

/-- WAIT_SATISFIED (R80, R96): the frame resumes with the low word of the fence value it observed. -/
def execWaitSatisfied (d : DieId) (f : Fin 32) (s : State) : Host.Outcome State Fault Refusal :=
  match (frameOf' s d f.val).park with
  | .waitge pa _ thr rd _ _ =>
    match waitValue s d f.val pa thr with
    | some v => ok (wakeFrame (dropWatch s d f.val) d f.val rd (BitVec.ofNat 32 v.toNat))
    | none => ok s
  | _ => ok s

/-- WAIT_TIMEOUT (R83): once for a wait that has lasted WDOG_US, the entry, the count and the queue's snapshot; the wait goes on. -/
def execWaitTimeout (d : DieId) (f : Fin 32) (s : State) : Host.Outcome State Fault Refusal :=
  let x := frameOf' s d f.val
  match x.park, (queueOf s d x.queue).wdogUs with
  | .waitge pa va thr rd since false, some us =>
    let q := queueOf s d x.queue
    let s1 := setFrame s d f.val { x with park := .waitge pa va thr rd since true }
    let s2 := setQueue s1 d x.queue { q with timeouts := satAdd 16 q.timeouts 1, waitAddr := va, waitThr := thr,
                                             waitCur := memWord s pa }
    event (decide (since + us * 1000 ≤ dtime s d)) s
      (logEntry s2 d { code := 0x0201, kind := 0x02, index := q.engine, tenant := some x.tenant, ctx := some x.ctx,
                       detail := detF va.toNat x.queue thr.toNat, queue := x.queue })
  | _, _ => ok s

/-- Records of a die that wait at its engines for a frame. -/
def recordsWaiting (s : State) (d : DieId) : Nat := ((getQueues s d).map (fun e => e.2.fetched.length)).sum

/-- Whether every frame of a die is parked and records wait at its engines (R90). -/
def framesFull (s : State) (d : DieId) : Bool :=
  (getStk s d).frames.all (fun f => f.busy && !(f.park == .ready)) && decide (0 < recordsWaiting s d)

/-- The mark of when the condition of R90 began, brought up to the present. -/
def noteFull (s : State) (d : DieId) : State :=
  let u := getStk s d
  if ¬ framesFull s d then setStk s d { u with fullSince := none, fullLogged := 0 }
  else if u.fullSince.isSome then s
  else setStk s d { u with fullSince := some (dtime s d), fullLogged := 0 }

/-- FRAMES_FULL (R90): every frame of the die is parked and records wait; the entry at the instant this begins and one at each
full millisecond that it lasts. -/
def execFramesFull (d : DieId) (s : State) : Host.Outcome State Fault Refusal :=
  let s1 := noteFull s d
  let u := getStk s1 d
  let t := dtime s d
  match u.fullSince with
  | none => ok s1
  | some t0 =>
    event (decide (u.fullLogged ≤ (t - t0) / 1000000)) s1
      (logEntry (setStk s1 d { u with fullLogged := (t - t0) / 1000000 + 1 }) d
        { code := 0x0202, kind := 0x0D, detail := detV (recordsWaiting s d) 0 })

/-- SLICE_END (R89): the frame that issues has had 4,096 stoker cycles, which 550 MHz ends within 7,448 ns, and rejoins last. -/
def execSliceEnd (d : DieId) (st : Fin 8) (s : State) : Host.Outcome State Fault Refusal :=
  let k := stokerOf s d st.val
  event (decide (k.sliceAt + 7448 ≤ dtime s d)) s (endSlice s d (4 * st.val + k.cur))

end Sys2Proof.Machine
end

