-- ==== Sys2Proof/Machine/Rv32.lean ====
section
/-! DEFINITION. The program's view of a frame (R91, Tables 4.2, 4.3) and the RV32IMC instructions it executes. The encodings and
effects of RV32IMC are the published ones (PRESUMED, log 10). -/

namespace Sys2Proof.Machine

/-! ### Registers and memory of a program -/

/-- Register `r` of a frame; x0 reads zero. -/
def rvGet (x : Frame) (r : Nat) : W32 := if r = 0 then 0 else mget 0 x.regs r

/-- Register `r` written; x0 discards. -/
def rvSet (x : Frame) (r : Nat) (v : W32) : Frame := if r = 0 then x else { x with regs := mput 0 x.regs r v }

/-- The pair at an even register (R93). -/
def rvPair (x : Frame) (r : Nat) : W64 :=
  if r = 0 then 0 else BitVec.ofNat 64 ((rvGet x r).toNat + 2 ^ 32 * (rvGet x (r + 1)).toNat)

/-- The 64 bytes of frame information (Table 4.3). -/
def frameInfo (s : State) (d : DieId) (x : Frame) : List Byte :=
  natLe 1 d.val ++ natLe 1 (x.shown / 4) ++ natLe 1 (x.shown % 4) ++ natLe 1 s.agree.abi ++ natLe 2 x.queue ++ natLe 2 x.ctx
    ++ natLe 4 x.count ++ natLe 1 x.tenant ++ rep 3 0 ++ natLe 8 x.prog.toNat ++ natLe 2 x.tag ++ rep 38 0

/-- What an access of a program meets when it faults: the cause of Table 4.7 and byte 9 of the entry's detail (Table 17.7). -/
structure RvFault where
  cause : Nat
  sub : Nat

/-- Where a program address leads (Table 4.2). -/
inductive RvPlace where
  | region (o : Nat)
  | info (o : Nat)
  | code (va : Nat)
  | data (va : Nat)
  | outside

/-- The place of `n` bytes at a program address. -/
def rvPlace (x : Frame) (a n : Nat) : RvPlace :=
  if a + n ≤ 0x3000 then .region a
  else if 0x10000000 ≤ a ∧ a + n ≤ 0x10000040 then .info (a - 0x10000000)
  else if 0x40000000 ≤ a ∧ a + n ≤ 0x80000000 then .code (x.codeWin * 2 ^ 30 + (a - 0x40000000))
  else if 0x80000000 ≤ a ∧ a + n ≤ 0xC0000000 then .data (x.dataWin * 2 ^ 30 + (a - 0x80000000))
  else .outside

/-- A read of `n` bytes at a context VA within one page (R91): its bytes, or the cause of Table 11.6 that it meets. -/
def vaRead (s : State) (d : DieId) (c va n : Nat) : Except Nat (List Byte) × State :=
  match translate s d c va {} with
  | (.error e, s1) => (.error e, s1)
  | (.ok (pa, _), s1) =>
    if ¬ reach s1 d (dieOf pa) then (.error (hopCause s1 d (dieOf pa)), noteLate s1 d (dieOf pa))
    else
      let s2 := noteRead s1 pa n
      if poisonIn s2 pa n then (.error 0xFF, s2) else (.ok (memRead s2 pa n), s2)

/-- A window access of frame `f` that failed with a cause of Table 11.6 is recorded by the die (R303); a time-out and poison are none. -/
def vaFault (s : State) (d : DieId) (f va cause : Nat) : State :=
  if cause < 0x10 then xlateFault s d (frameOf' s d f).ctx va cause 0x03 f (frameOf' s d f).queue else s

/-- A load of `n` bytes, at most a 64-byte unit's, through a window (R91): at home at once; of another die by a request over the cord (R288,
R363), for whose answer the instruction waits (none). -/
def winLoad (s : State) (d : DieId) (f : Nat) (x : Frame) (va n : Nat) : Except Nat (Option (List Byte)) × State :=
  match translate s d x.ctx va {} with
  | (.error e, s1) => (.error e, s1)
  | (.ok (pa, _), s1) =>
    if dieOf pa = d then
      let s2 := noteRead s1 pa n
      if poisonIn s2 pa n then (.error 0xFF, s2) else (.ok (some (memRead s2 pa n)), s2)
    else
      let q := memReadFor (.stoker f x.queue x.count pa) (pa / 64)
      let s2 := askDie d s1 q
      match answerOf s2 d q.die q.who with
      | none => (.ok none, s2)
      | some r =>
        let s3 := dropAnswer s2 d q.die q.who
        if r.status = 0 then (.ok (some (padTo n 0 ((r.data.drop (pa % 64)).take n))), s3) else (.error (statusCause r.status), s3)

/-- A store of bytes within a 64-byte unit through a window (R91): at home at once, and whether it is done; to another die by a request over
the cord, for whose acknowledgement the instruction waits (R363). -/
def winStore (s : State) (d : DieId) (f : Nat) (x : Frame) (va : Nat) (bytes : List Byte) : Except Nat Bool × State :=
  match translate s d x.ctx va { write := true } with
  | (.error e, s1) => (.error e, s1)
  | (.ok (pa, _), s1) =>
    if dieOf pa = d then (.ok true, memWrite s1 pa bytes)
    else
      let q := memWriteFor (.stoker f x.queue x.count pa) (pa / 64) (cellsAt pa bytes)
      let s2 := askDie d s1 q
      match answerOf s2 d q.die q.who with
      | none => (.ok false, s2)
      | some r =>
        let s3 := dropAnswer s2 d q.die q.who
        if r.status = 0 then (.ok true, s3) else (.error (statusCause r.status), s3)

/-- A program's load of `n` bytes, aligned to their size; none while it waits for another die. -/
def rvLoad (s : State) (d : DieId) (f : Nat) (x : Frame) (a n : Nat) : Except RvFault (Option (List Byte)) × State :=
  match rvPlace x a n with
  | .outside => (.error ⟨2, 0⟩, s)
  | p =>
    if a % n ≠ 0 then (.error ⟨3, 0⟩, s)
    else
      let win (va : Nat) : Except RvFault (Option (List Byte)) × State :=
        match winLoad s d f x va n with
        | (.ok b, s1) => (.ok b, s1)
        | (.error e, s1) => (.error ⟨4, e⟩, vaFault s1 d f va e)
      match p with
      | .region o => if x.regionBad then (.error ⟨8, 0⟩, s) else (.ok (some ((countUp o n).map (mget 0 x.region))), s)
      | .info o => (.ok (some (((frameInfo s d x).drop o).take n)), s)
      | .code va => win va
      | .data va => win va
      | .outside => (.error ⟨2, 0⟩, s)

/-- A program's store of bytes, aligned to their size, and whether it is done; frame `f` holds the region. -/
def rvStore (s : State) (d : DieId) (f : Nat) (a : Nat) (bytes : List Byte) : Except RvFault Bool × State :=
  let x := frameOf' s d f
  match rvPlace x a bytes.length with
  | .region o =>
    if a % bytes.length ≠ 0 then (.error ⟨3, 0⟩, s)
    else (.ok true, setFrame s d f { x with region := putCells x.region (cellsAt o bytes) })
  | .data va =>
    if a % bytes.length ≠ 0 then (.error ⟨3, 0⟩, s)
    else
      match winStore s d f x va bytes with
      | (.error e, s1) => (.error ⟨4, e⟩, vaFault s1 d f va e)
      | (.ok done, s1) => (.ok done, s1)
  | _ => (.error ⟨2, 0⟩, s)

/-! ### Fetch -/

/-- One halfword of the instruction stream: from the frame's instruction cache or from memory. Whether a cached halfword is served
or fetched again is open (R92) and a free value. -/
def rvFetchHalf (s : State) (d : DieId) (f : Nat) (a : Nat) : Except RvFault Nat × State :=
  let x := frameOf' s d f
  let fetch (s : State) : Except RvFault Nat × State :=
    match rvPlace x a 2 with
    | .code va =>
      match vaRead s d x.ctx va 2 with
      | (.ok b, s1) =>
        let y := frameOf' s1 d f
        (.ok (leNat b), setFrame s1 d f { y with icache := mins y.icache a (BitVec.ofNat 16 (leNat b)) })
      | (.error e, s1) => (.error ⟨4, e⟩, vaFault s1 d f va e)
    | _ => (.error ⟨2, 0⟩, s)
  match mfind x.icache a with
  | some h => if Config.freeBool s.freeCtr 0 then (.ok h.toNat, useFree s) else fetch (useFree s)
  | none => fetch s

/-- The instruction at a frame's pc: its bits and length, or the fault with its address. -/
def rvFetch (s : State) (d : DieId) (f : Nat) : Except (RvFault × Nat) (Nat × Nat) × State :=
  let a := (frameOf' s d f).pc.toNat
  match rvFetchHalf s d f a with
  | (.error e, s1) => (.error (e, a), s1)
  | (.ok h, s1) =>
    if h % 4 ≠ 3 then (.ok (h, 2), s1)
    else
      match rvFetchHalf s1 d f (a + 2) with
      | (.error e, s2) => (.error (e, a + 2), s2)
      | (.ok g, s2) => (.ok (h + 65536 * g, 4), s2)

/-! ### Decode -/

/-- An RV32IMC instruction, register numbers and immediates pulled out. -/
inductive RvOp where
  | lui (rd : Nat) (imm : W32)
  | auipc (rd : Nat) (imm : W32)
  | jal (rd : Nat) (off : W32)
  | jalr (rd rs1 : Nat) (off : W32)
  | branch (f3 rs1 rs2 : Nat) (off : W32)
  | load (f3 rd rs1 : Nat) (off : W32)
  | store (f3 rs1 rs2 : Nat) (off : W32)
  | opImm (f3 : Nat) (alt : Bool) (rd rs1 : Nat) (imm : W32)
  | op (f3 : Nat) (alt : Bool) (rd rs1 rs2 : Nat)
  | mulDiv (f3 rd rs1 rs2 : Nat)
  | fence
  | trap
  | custom (minor : Nat) (f3 f7 rd rs1 rs2 : Nat)
  | illegal

/-- A number of `w` bits sign-extended to 32. -/
def sx32 (w x : Nat) : W32 := BitVec.ofInt 32 (sx w x)

/-- The 32-bit encodings. -/
def rvDecode32 (w : Nat) : RvOp :=
  let rd := fldN w 11 7
  let f3 := fldN w 14 12
  let rs1 := fldN w 19 15
  let rs2 := fldN w 24 20
  let f7 := fldN w 31 25
  let immI := sx32 12 (fldN w 31 20)
  match fldN w 6 0 with
  | 0x37 => .lui rd (BitVec.ofNat 32 (fldN w 31 12 * 4096))
  | 0x17 => .auipc rd (BitVec.ofNat 32 (fldN w 31 12 * 4096))
  | 0x6F => .jal rd (sx32 21 (fldN w 31 31 * 2 ^ 20 + fldN w 19 12 * 2 ^ 12 + fldN w 20 20 * 2 ^ 11 + fldN w 30 21 * 2))
  | 0x67 => if f3 = 0 then .jalr rd rs1 immI else .illegal
  | 0x63 =>
    if f3 = 2 ∨ f3 = 3 then .illegal
    else .branch f3 rs1 rs2 (sx32 13 (fldN w 31 31 * 2 ^ 12 + fldN w 7 7 * 2 ^ 11 + fldN w 30 25 * 2 ^ 5 + fldN w 11 8 * 2))
  | 0x03 => if f3 = 3 ∨ 5 < f3 then .illegal else .load f3 rd rs1 immI
  | 0x23 => if 2 < f3 then .illegal else .store f3 rs1 rs2 (sx32 12 (f7 * 32 + rd))
  | 0x13 =>
    if f3 = 1 then (if f7 = 0 then .opImm 1 false rd rs1 (BitVec.ofNat 32 rs2) else .illegal)
    else if f3 = 5 then
      (if f7 = 0 ∨ f7 = 32 then .opImm 5 (f7 == 32) rd rs1 (BitVec.ofNat 32 rs2) else .illegal)
    else .opImm f3 false rd rs1 immI
  | 0x33 =>
    if f7 = 1 then .mulDiv f3 rd rs1 rs2
    else if f7 = 0 then .op f3 false rd rs1 rs2
    else if f7 = 32 ∧ (f3 = 0 ∨ f3 = 5) then .op f3 true rd rs1 rs2
    else .illegal
  | 0x0F => if f3 = 0 then .fence else .illegal
  | 0x73 => if w = 0x73 ∨ w = 0x100073 then .trap else .illegal
  | 0x0B => .custom 0 f3 f7 rd rs1 rs2
  | 0x2B => .custom 1 f3 f7 rd rs1 rs2
  | _ => .illegal

/-- The compressed encodings of RV32C. -/
def rvDecode16 (h : Nat) : RvOp :=
  let r1 := fldN h 11 7
  let r2 := fldN h 6 2
  let c1 := 8 + fldN h 9 7
  let c2 := 8 + fldN h 4 2
  let imm6 := fldN h 12 12 * 32 + r2
  let lwOff := BitVec.ofNat 32 (fldN h 5 5 * 64 + fldN h 12 10 * 8 + fldN h 6 6 * 4)
  let jOff := sx32 12 (fldN h 12 12 * 2048 + fldN h 8 8 * 1024 + fldN h 10 9 * 256 + fldN h 6 6 * 128 + fldN h 7 7 * 64
    + fldN h 2 2 * 32 + fldN h 11 11 * 16 + fldN h 5 3 * 2)
  let bOff := sx32 9 (fldN h 12 12 * 256 + fldN h 6 5 * 64 + fldN h 2 2 * 32 + fldN h 11 10 * 8 + fldN h 4 3 * 2)
  match fldN h 1 0, fldN h 15 13 with
  | 0, 0 =>
    let n := fldN h 10 7 * 64 + fldN h 12 11 * 16 + fldN h 5 5 * 8 + fldN h 6 6 * 4
    if n = 0 then .illegal else .opImm 0 false c2 2 (BitVec.ofNat 32 n)
  | 0, 2 => .load 2 c2 c1 lwOff
  | 0, 6 => .store 2 c1 c2 lwOff
  | 1, 0 => .opImm 0 false r1 r1 (sx32 6 imm6)
  | 1, 1 => .jal 1 jOff
  | 1, 2 => .opImm 0 false r1 0 (sx32 6 imm6)
  | 1, 3 =>
    if r1 = 2 then
      let n := fldN h 12 12 * 512 + fldN h 4 3 * 128 + fldN h 5 5 * 64 + fldN h 2 2 * 32 + fldN h 6 6 * 16
      if n = 0 then .illegal else .opImm 0 false 2 2 (sx32 10 n)
    else if imm6 = 0 then .illegal
    else .lui r1 (sx32 18 (imm6 * 4096))
  | 1, 4 =>
    match fldN h 11 10 with
    | 0 => if fldN h 12 12 = 1 then .illegal else .opImm 5 false c1 c1 (BitVec.ofNat 32 r2)
    | 1 => if fldN h 12 12 = 1 then .illegal else .opImm 5 true c1 c1 (BitVec.ofNat 32 r2)
    | 2 => .opImm 7 false c1 c1 (sx32 6 imm6)
    | _ =>
      if fldN h 12 12 = 1 then .illegal
      else match fldN h 6 5 with
        | 0 => .op 0 true c1 c1 c2
        | 1 => .op 4 false c1 c1 c2
        | 2 => .op 6 false c1 c1 c2
        | _ => .op 7 false c1 c1 c2
  | 1, 5 => .jal 0 jOff
  | 1, 6 => .branch 0 c1 0 bOff
  | 1, 7 => .branch 1 c1 0 bOff
  | 2, 0 => if fldN h 12 12 = 1 then .illegal else .opImm 1 false r1 r1 (BitVec.ofNat 32 r2)
  | 2, 2 =>
    if r1 = 0 then .illegal
    else .load 2 r1 2 (BitVec.ofNat 32 (fldN h 3 2 * 64 + fldN h 12 12 * 32 + fldN h 6 4 * 4))
  | 2, 4 =>
    if fldN h 12 12 = 0 then
      if r2 = 0 then (if r1 = 0 then .illegal else .jalr 0 r1 0) else .op 0 false r1 0 r2
    else if r2 = 0 then (if r1 = 0 then .trap else .jalr 1 r1 0)
    else .op 0 false r1 r1 r2
  | 2, 6 => .store 2 2 r2 (BitVec.ofNat 32 (fldN h 8 7 * 64 + fldN h 12 9 * 4))
  | _, _ => .illegal

/-- The instruction of `len` bytes with bits `w`. -/
def rvDecode (w len : Nat) : RvOp := if len = 2 then rvDecode16 w else rvDecode32 w

/-! ### Effects -/

/-- The integer operations of OP and OP-IMM. -/
def rvAlu (f3 : Nat) (alt : Bool) (a b : W32) : W32 :=
  match f3 with
  | 0 => if alt then a - b else a + b
  | 1 => a <<< (b.toNat % 32)
  | 2 => if a.toInt < b.toInt then 1 else 0
  | 3 => if a.toNat < b.toNat then 1 else 0
  | 4 => a ^^^ b
  | 5 => if alt then a.sshiftRight (b.toNat % 32) else a >>> (b.toNat % 32)
  | 6 => a ||| b
  | _ => a &&& b

/-- The operations of the M extension. -/
def rvMulDiv (f3 : Nat) (a b : W32) : W32 :=
  match f3 with
  | 0 => a * b
  | 1 => BitVec.ofInt 32 (a.toInt * b.toInt / 2 ^ 32)
  | 2 => BitVec.ofInt 32 (a.toInt * b.toNat / 2 ^ 32)
  | 3 => BitVec.ofNat 32 (a.toNat * b.toNat / 2 ^ 32)
  | 4 => if b = 0 then BitVec.allOnes 32 else BitVec.ofInt 32 (a.toInt.tdiv b.toInt)
  | 5 => if b = 0 then BitVec.allOnes 32 else BitVec.ofNat 32 (a.toNat / b.toNat)
  | 6 => if b = 0 then a else BitVec.ofInt 32 (a.toInt.tmod b.toInt)
  | _ => if b = 0 then a else BitVec.ofNat 32 (a.toNat % b.toNat)

/-- Whether a branch is taken. -/
def rvTaken (f3 : Nat) (a b : W32) : Bool :=
  match f3 with
  | 0 => a == b
  | 1 => !(a == b)
  | 4 => decide (a.toInt < b.toInt)
  | 5 => !decide (a.toInt < b.toInt)
  | 6 => decide (a.toNat < b.toNat)
  | _ => !decide (a.toNat < b.toNat)

/-- One RV32IMC instruction of frame `f`, fetched and decoded; the custom opcodes are the stoker command extension's. -/
def rvExec (s : State) (d : DieId) (f : Nat) (i : RvOp) (len : Nat) : State :=
  let x := frameOf' s d f
  let next := x.pc + BitVec.ofNat 32 len
  let put (y : Frame) (pc : W32) : State := setFrame s d f { y with pc := pc }
  match i with
  | .lui rd imm => put (rvSet x rd imm) next
  | .auipc rd imm => put (rvSet x rd (x.pc + imm)) next
  | .jal rd off => put (rvSet x rd next) (x.pc + off)
  | .jalr rd rs1 off => put (rvSet x rd next) ((rvGet x rs1 + off) &&& ~~~(1#32))
  | .branch f3 rs1 rs2 off => put x (if rvTaken f3 (rvGet x rs1) (rvGet x rs2) then x.pc + off else next)
  | .load f3 rd rs1 off =>
    let a := (rvGet x rs1 + off).toNat
    let n := 2 ^ (f3 % 4)
    match rvLoad s d f x a n with
    | (.error e, s1) => stokerFault s1 d f e.cause a e.sub
    | (.ok none, s1) => s1
    | (.ok (some b), s1) =>
      let v : W32 := if f3 < 4 then sx32 (8 * n) (leNat b) else BitVec.ofNat 32 (leNat b)
      let y := frameOf' s1 d f
      setFrame s1 d f { rvSet y rd v with pc := next }
  | .store f3 rs1 rs2 off =>
    let a := (rvGet x rs1 + off).toNat
    match rvStore s d f a (natLe (2 ^ f3) (rvGet x rs2).toNat) with
    | (.error e, s1) => stokerFault s1 d f e.cause a e.sub
    | (.ok false, s1) => s1
    | (.ok true, s1) => setFrame s1 d f { frameOf' s1 d f with pc := next }
  | .opImm f3 alt rd rs1 imm => put (rvSet x rd (rvAlu f3 alt (rvGet x rs1) imm)) next
  | .op f3 alt rd rs1 rs2 => put (rvSet x rd (rvAlu f3 alt (rvGet x rs1) (rvGet x rs2))) next
  | .mulDiv f3 rd rs1 rs2 => put (rvSet x rd (rvMulDiv f3 (rvGet x rs1) (rvGet x rs2))) next
  | .fence => put x next
  | .trap => stokerFault s d f 5 x.pc.toNat 0
  | .custom _ _ _ _ _ _ => stokerFault s d f 1 x.pc.toNat 0
  | .illegal => stokerFault s d f 1 x.pc.toNat 0

/-- Whether frame `f` issues now: its program runs, and it is its stoker's current frame. -/
def issues (s : State) (d : DieId) (f : Nat) : Bool :=
  let x := frameOf' s d f
  x.busy && x.park == .ready && (stokerOf s d (f / 4)).cur == f % 4 && s.board.powerOk

/-- Whether an instruction belongs to a row of the stoker command extension (Table 4.4). -/
def isCommand : RvOp → Bool
  | .custom 0 _ _ _ _ _ => true
  | .custom _ f3 _ _ _ _ => decide (f3 < 6)
  | _ => false

/-- RV32_INSTRUCTION (R91): the frame that issues executes one instruction other than those of Table 4.4. -/
def execRv32Instruction (d : DieId) (f : Fin 32) (s : State) : Host.Outcome State Fault Refusal :=
  if ¬ issues s d f.val ∨ (frameOf' s d f.val).walk.isSome then ok s
  else
    match rvFetch s d f.val with
    | (.error (e, a), s1) => ok (stokerFault s1 d f.val e.cause a e.sub)
    | (.ok (w, len), s1) =>
      let i := rvDecode w len
      if isCommand i then ok s else ok (rvExec s1 d f.val i len)

end Sys2Proof.Machine
end

