-- ==== Sys2Proof/Machine/Commands.lean ====
section
/-! DEFINITION. The stoker command extension (04, R93 to R105, Table 4.4), graph walks (R109, R110) and the hints of R293. -/

namespace Sys2Proof.Machine

/-- The fields of a command of Table 4.4. -/
structure CmdWord where
  f7 : Nat
  rd : Nat
  rs1 : Nat
  rs2 : Nat

/-- An illegal instruction (R93). -/
def illegalCmd (s : State) (d : DieId) (f : Nat) : State := stokerFault s d f 1 (frameOf' s d f).pc.toNat 0

/-- A command done: `rd` written and the next instruction. -/
def cmdNext (s : State) (d : DieId) (f rd : Nat) (v : W32) : State :=
  let x := frameOf' s d f
  setFrame s d f { rvSet x rd v with pc := x.pc + 4 }

/-- The command of row (`minor`, `f3`) run by frame `f`, which must issue it now; anything else is absorbed (log 8). -/
def runCommand (d : DieId) (f minor f3 : Nat) (s : State) (k : CmdWord → State → State) : Host.Outcome State Fault Refusal :=
  if ¬ issues s d f ∨ (frameOf' s d f).walk.isSome then ok s
  else
    match rvFetch s d f with
    | (.ok (w, len), s1) =>
      match rvDecode w len with
      | .custom m g f7 rd rs1 rs2 => if m = minor ∧ g = f3 then ok (k ⟨f7, rd, rs1, rs2⟩ s1) else ok s
      | _ => ok s
    | (.error _, _) => ok s

/-! ### Waits and signals (R96 to R98) -/

/-- A fence translated at issue, its home die within reach (R98): the physical address or the cause. -/
def fenceAddr (s : State) (d : DieId) (c va : Nat) (write : Bool) : Except Nat Nat × State :=
  match translate s d c va { write := write, fence := true } with
  | (.error e, s1) => (.error e, s1)
  | (.ok (pa, _), s1) => if reach s1 d (dieOf pa) then (.ok pa, s1) else (.error 0x0A, s1)

/-- A wait of a frame: it completes at once where it holds, and parks otherwise (R96). -/
def doWait (s : State) (d : DieId) (f : Nat) (va thr : W64) (rd : Nat) : State :=
  match fenceAddr s d (frameOf' s d f).ctx va.toNat false with
  | (.error e, s1) => rejectFrame s1 d f va.toNat e 0x03 f
  | (.ok pa, s1) =>
    let s2 := noteRead s1 pa 8
    let x := frameOf' s2 d f
    if waitHolds s2 d pa thr then wakeFrame s2 d f rd (BitVec.ofNat 32 (memNat s2 pa 4))
    else
      parkFrame { s2 with watches := mins s2.watches (watchKey d x.queue x.count) { die := d, pa := pa, thr := thr, met := none } } d f
        (.waitge pa va thr rd (dtime s2 d) false)

/-- A signal of a frame: sent, and the frame parks until it has been applied (R97). -/
def doSignal (s : State) (d : DieId) (f : Nat) (va v : W64) (rd : Nat) : State :=
  let x := frameOf' s d f
  match fenceAddr s d x.ctx va.toNat true with
  | (.error e, s1) => rejectFrame s1 d f va.toNat e 0x03 f
  | (.ok pa, s1) =>
    parkFrame (sendSignal s1 { src := d, frame := some f, queue := x.queue, count := x.count, va := va.toNat, pa := pa, value := v,
                               sentAt := s1.now }) d f (.sigmax rd)

/-- K_WAITGE (R96). -/
def execKWaitge (d : DieId) (f : Fin 32) (s : State) : Host.Outcome State Fault Refusal :=
  runCommand d f.val 0 0 s (fun k t =>
    let x := frameOf' t d f.val
    if k.f7 ≠ 0 ∨ k.rs1 % 2 ≠ 0 ∨ k.rs2 % 2 ≠ 0 then illegalCmd t d f.val
    else doWait t d f.val (rvPair x k.rs1) (rvPair x k.rs2) k.rd)

/-- K_SIGMAX (R97). -/
def execKSigmax (d : DieId) (f : Fin 32) (s : State) : Host.Outcome State Fault Refusal :=
  runCommand d f.val 0 1 s (fun k t =>
    let x := frameOf' t d f.val
    if k.f7 ≠ 0 ∨ k.rs1 % 2 ≠ 0 ∨ k.rs2 % 2 ≠ 0 then illegalCmd t d f.val
    else doSignal t d f.val (rvPair x k.rs1) (rvPair x k.rs2) k.rd)

/-! ### Submissions (R94, R95, R99, R102) -/

/-- Length of a descriptor for an engine (Table 4.6). -/
def descLen (engine : Nat) : Nat := if engine = 0 ∨ (5 ≤ engine ∧ engine ≤ 8) then 128 else 64

/-- Accepted descriptors that still stand in an engine's submission queue (R99): those of a DMA channel whose shadow set is not empty (R304),
a retort's jobs (R314) and GEN's operations (R283) that have not begun. -/
def heldSubs (s : State) (d : DieId) (e : Nat) : Nat :=
  if 5 ≤ e ∧ e < 9 then ((getDma s d).queue.filter (fun j => j.engine == e)).length
  else if e = 9 then (getRet s d).e0.waiting.length
  else if e = 10 then (getRet s d).e1.waiting.length
  else if e = 12 then (getGen s d).ops.length
  else 0

/-- Whether an engine's submission queue of 32 entries has room (R99). -/
def subRoom (s : State) (d : DieId) (e : Nat) : Bool := decide ((engineOf s d e).subs.length + heldSubs s d e < 32)

/-- Frames parked on a full submission queue resumed in the order in which they parked, as far as the queue has room (R99). -/
def refillSubs (e : Nat) (d : DieId) : Nat → State → State
  | 0, s => s
  | n + 1, s =>
    let x := engineOf s d e
    match x.full, subRoom s d e with
    | p :: rest, true =>
      let s1 := setEngine s d e { x with subs := x.subs ++ [p], full := rest }
      let y := frameOf' s1 d p.frame
      refillSubs e d n (match y.park with
        | .full k rd => setFrame s1 d p.frame { y with park := .submitted k rd }
        | _ => s1)
    | _, _ => s

/-- What an entry that left an engine's submission queue lets in (R99). -/
def settleSubs (s : State) (d : DieId) (e : Nat) : State := refillSubs e d 32 s

/-- A descriptor handed to an engine: into its submission queue, or parked behind a full one (R99). A context that is FAULTED ends
the record with CONTEXT_FAULT (R102); a fenced engine with PROGRAM_FAULT (R413). -/
def submitDesc (s : State) (d : DieId) (f engine : Nat) (desc : List Byte) (rd : Nat) : State :=
  let x := frameOf' s d f
  let e := engineOf s d engine
  let sub : Submission := { frame := f, queue := x.queue, count := x.count, desc := desc }
  if (ctxOf s d x.ctx).state = .faulted then endProgram s d f (some 4)
  else if e.fenced then endProgram s d f (some 3)
  else if subRoom s d engine ∧ e.full = [] then
    parkFrame (setEngine s d engine { e with subs := e.subs ++ [sub] }) d f (.submitted engine rd)
  else parkFrame (setEngine s d engine { e with full := e.full ++ [sub] }) d f (.full engine rd)

/-- A submission instruction: its descriptor is copied out of the frame region (R94). -/
def submitFrom (s : State) (d : DieId) (f engine : Nat) (k : CmdWord) : State :=
  let x := frameOf' s d f
  let a := (rvGet x k.rs1).toNat
  if a % 8 ≠ 0 then stokerFault s d f 3 a 0
  else
    match rvPlace x a (descLen engine) with
    | .region o =>
      if x.regionBad then stokerFault s d f 8 a 0
      else submitDesc s d f engine ((countUp o (descLen engine)).map (mget 0 x.region)) k.rd
    | _ => stokerFault s d f 2 a 0

/-- K_LAUNCH (R95). -/
def execKLaunch (d : DieId) (f : Fin 32) (s : State) : Host.Outcome State Fault Refusal :=
  runCommand d f.val 0 2 s (fun k t =>
    if k.rs2 ≠ 0 ∨ ¬ (k.f7 ∈ [1, 2, 3, 4, 9, 10, 11]) then illegalCmd t d f.val else submitFrom t d f.val k.f7 k)

/-- K_DMA (R94). -/
def execKDma (d : DieId) (f : Fin 32) (s : State) : Host.Outcome State Fault Refusal :=
  runCommand d f.val 0 3 s (fun k t => if k.rs2 ≠ 0 ∨ 3 < k.f7 then illegalCmd t d f.val else submitFrom t d f.val (5 + k.f7) k)

/-- K_BIN (R236). -/
def execKBin (d : DieId) (f : Fin 32) (s : State) : Host.Outcome State Fault Refusal :=
  runCommand d f.val 0 4 s (fun k t => if k.rs2 ≠ 0 ∨ k.f7 ≠ 0 then illegalCmd t d f.val else submitFrom t d f.val 0 k)

/-- K_STEP (R275). -/
def execKStep (d : DieId) (f : Fin 32) (s : State) : Host.Outcome State Fault Refusal :=
  runCommand d f.val 0 5 s (fun k t => if k.rs2 ≠ 0 ∨ k.f7 ≠ 0 then illegalCmd t d f.val else submitFrom t d f.val 12 k)

/-! ### Hints (R103, R293) -/

/-- The physical ranges of a hint: at most 8 MiB of the range, its pages that are mapped in the context and lie in this die's
memory (R293); unmapped or foreign pages are skipped. -/
def hintRanges (d : DieId) (c lo hi : Nat) : List Nat → State → List (Nat × Nat) → List (Nat × Nat) × State
  | [], s, acc => (acc, s)
  | p :: r, s, acc =>
    let a := max lo (p * 2 ^ 25)
    let b := min hi ((p + 1) * 2 ^ 25)
    match translate s d c a {} with
    | (.ok (pa, _), s1) => hintRanges d c lo hi r s1 (if dieOf pa = d then acc ++ [(pa, b - a)] else acc)
    | (.error _, s1) => hintRanges d c lo hi r s1 acc

/-- A hint's ranges for `n` bytes at `va`. -/
def hintFor (s : State) (d : DieId) (c va n : Nat) : List (Nat × Nat) × State :=
  if n = 0 then ([], s)
  else
    let m := min n (2 ^ 23)
    hintRanges d c va (va + m) (pagesOf va (va + m - 1)) s []

/-- Lines brought into the die cache (R293): each line of the ranges in order, those already present skipped. -/
def fillLines (s : State) (d : DieId) (rs : List (Nat × Nat)) : State :=
  (rs.flatMap (fun r => countUp (r.1 / 128) ((r.1 + r.2 - 1) / 128 - r.1 / 128 + 1))).foldl
    (fun t l => if cacheHas (getMemu t d) l then t else readLine t l) s

/-- Whether two physical ranges overlap. -/
def overlaps (a b : Nat × Nat) : Bool := decide (a.1 < b.1 + b.2) && decide (b.1 < a.1 + a.2)

/-- The advice table after one piece of advice: 64 entries, the oldest replaced (R293, Table 11.2). -/
def adviseRanges (s : State) (d : DieId) (code : Nat) (rs : List (Nat × Nat)) : State :=
  let m := getMemu s d
  if rs = [] then s
  else if code = 3 then
    let inside (x : CacheLine) : Bool := rs.any (overlaps (128 * x.line, 128))
    setMemu s d { m with advice := m.advice.filter (fun e => !(e.2.any (fun a => rs.any (overlaps a)))),
                         cache := mmap (fun _ l => l.filter (fun x => !inside x) ++ l.filter inside) m.cache }
  else
    let s1 := setMemu s d { m with advice := (m.advice ++ [(code, rs)]).drop (m.advice.length + 1 - 64) }
    if code = 0 then fillLines s1 d rs else s1

/-- K_PREFETCH (R293). -/
def execKPrefetch (d : DieId) (f : Fin 32) (s : State) : Host.Outcome State Fault Refusal :=
  runCommand d f.val 0 6 s (fun k t =>
    let x := frameOf' t d f.val
    if k.f7 ≠ 0 ∨ k.rd ≠ 0 ∨ k.rs1 % 2 ≠ 0 then illegalCmd t d f.val
    else
      let (rs, t1) := hintFor t d x.ctx (rvPair x k.rs1).toNat (rvGet x k.rs2).toNat
      cmdNext (fillLines t1 d rs) d f.val 0 0)

/-- K_ADVISE (R293). -/
def execKAdvise (d : DieId) (f : Fin 32) (s : State) : Host.Outcome State Fault Refusal :=
  runCommand d f.val 0 7 s (fun k t =>
    let x := frameOf' t d f.val
    if 3 < k.f7 ∨ k.rd ≠ 0 ∨ k.rs1 % 2 ≠ 0 then illegalCmd t d f.val
    else
      let (rs, t1) := hintFor t d x.ctx (rvPair x k.rs1).toNat (rvGet x k.rs2).toNat
      cmdNext (adviseRanges t1 d k.f7 rs) d f.val 0 0)

/-! ### Time, slices and windows (R89, R104, R105) -/

/-- K_YIELD (R89). -/
def execKYield (d : DieId) (f : Fin 32) (s : State) : Host.Outcome State Fault Refusal :=
  runCommand d f.val 1 0 s (fun k t =>
    if k.f7 ≠ 0 ∨ k.rd ≠ 0 ∨ k.rs1 ≠ 0 ∨ k.rs2 ≠ 0 then illegalCmd t d f.val
    else endSlice (cmdNext t d f.val 0 0) d f.val)

/-- K_TIME (R104). -/
def execKTime (d : DieId) (f : Fin 32) (s : State) : Host.Outcome State Fault Refusal :=
  runCommand d f.val 1 1 s (fun k t =>
    if k.f7 ≠ 0 ∨ k.rs1 ≠ 0 ∨ k.rs2 ≠ 0 ∨ k.rd % 2 ≠ 0 then illegalCmd t d f.val
    else
      let v := dtime t d
      let x := frameOf' t d f.val
      let y := if k.rd = 0 then x else rvSet (rvSet x k.rd (BitVec.ofNat 32 v)) (k.rd + 1) (BitVec.ofNat 32 (v / 2 ^ 32))
      cmdNext (setFrame t d f.val y) d f.val 0 0)

/-- K_WINDOW (R105). -/
def execKWindow (d : DieId) (f : Fin 32) (s : State) : Host.Outcome State Fault Refusal :=
  runCommand d f.val 1 3 s (fun k t =>
    let x := frameOf' t d f.val
    let va := (rvPair x k.rs1).toNat
    if k.f7 ≠ 0 ∨ k.rd ≠ 0 ∨ k.rs2 ≠ 0 ∨ k.rs1 % 2 ≠ 0 ∨ 2 ^ 48 ≤ va then illegalCmd t d f.val
    else cmdNext (setFrame t d f.val { x with dataWin := va / 2 ^ 30 }) d f.val 0 0)

/-- K_END (R106). -/
def execKEnd (d : DieId) (f : Fin 32) (s : State) : Host.Outcome State Fault Refusal :=
  runCommand d f.val 1 5 s (fun k t =>
    if k.f7 ≠ 0 ∨ k.rd ≠ 0 ∨ k.rs2 ≠ 0 then illegalCmd t d f.val
    else endProgram t d f.val (if rvGet (frameOf' t d f.val) k.rs1 = 0 then none else some 3))

/-! ### Commits, as the program sees them (R112) -/

/-- K_COMMIT (R112): the block goes to D0 and the frame parks. Only tenant 0 may commit (Table 4.7). -/
def execKCommit (d : DieId) (f : Fin 32) (s : State) : Host.Outcome State Fault Refusal :=
  runCommand d f.val 1 2 s (fun k t =>
    let x := frameOf' t d f.val
    let a := (rvGet x k.rs1).toNat
    let n := 16 + 16 * min 16 ((mget 0 x.region (a + 8)).toNat)
    if k.f7 ≠ 0 ∨ k.rs2 ≠ 0 then illegalCmd t d f.val
    else if x.tenant ≠ 0 then stokerFault t d f.val 7 a 0
    else if a % 8 ≠ 0 then stokerFault t d f.val 3 a 0
    else
      match rvPlace x a n with
      | .region o =>
        if x.regionBad then stokerFault t d f.val 8 a 0
        else parkFrame (setFrame t d f.val { x with commitDesc := (countUp o n).map (mget 0 x.region) }) d f.val (.commit k.rd)
      | _ => stokerFault t d f.val 2 a 0)

/-! ### Graphs (R109, R110) -/

/-- Bytes of a context's address space that a frame's command reads, page by page. -/
def vaBytes (d : DieId) (c : Nat) : Nat → Nat → Nat → State → Except (Nat × Nat) (List Byte) × State
  | 0, _, _, s => (.ok [], s)
  | fuel + 1, va, n, s =>
    if n = 0 then (.ok [], s)
    else
      let m := min n (2 ^ 25 - va % 2 ^ 25)
      match vaRead s d c va m with
      | (.error e, s1) => (.error (e, va), s1)
      | (.ok b, s1) =>
        match vaBytes d c fuel (va + m) (n - m) s1 with
        | (.error e, s2) => (.error e, s2)
        | (.ok r, s2) => (.ok (b ++ r), s2)

/-- K_GRAPH (R109): the header is read, and the walk begins at FIRST. -/
def execKGraph (d : DieId) (f : Fin 32) (s : State) : Host.Outcome State Fault Refusal :=
  runCommand d f.val 1 4 s (fun k t =>
    let x := frameOf' t d f.val
    let va := (rvPair x k.rs1).toNat
    if k.f7 ≠ 0 ∨ k.rs2 ≠ 0 ∨ k.rs1 % 2 ≠ 0 then illegalCmd t d f.val
    else if va % 16 ≠ 0 then stokerFault t d f.val 6 va 0
    else
      match vaBytes d x.ctx 2 va 16 t with
      | (.error (e, a), t1) => stokerFault (vaFault t1 d f.val a e) d f.val 4 a e
      | (.ok b, t1) =>
        if ¬ zeroAt b 2 6 then stokerFault t1 d f.val 6 va 0
        else
          let y := frameOf' t1 d f.val
          setFrame t1 d f.val { y with walk := some { rd := k.rd, g := leAt b 0 2, node := le64 (b.drop 8), reads := 0 } })

/-- Whether a node record passes the checks of R110. -/
def nodeOk (b : List Byte) : Bool :=
  let kind := leAt b 2 1
  decide (kind < 4) && decide (leAt b 4 4 = 0) && zeroAt b 0x28 24
    && (if kind = 1 then decide (leAt b 3 1 ≤ 12) && zeroAt b 0x20 8 else decide (leAt b 3 1 = 0))
    && (if kind = 0 then zeroAt b 0x10 8 else true)

/-- A node acts: SUBMIT, WAIT, SIGNAL, or END, which ends the walk with G in `rd` (R109). -/
def nodeAct (s : State) (d : DieId) (f : Nat) (w : Walk) (b : List Byte) : State :=
  let x := frameOf' s d f
  let a := le64 (b.drop 0x18)
  let v := le64 (b.drop 0x20)
  let s1 := setFrame s d f { x with walk := some { w with node := le64 (b.drop 0x10) } }
  match leAt b 2 1 with
  | 0 => cmdNext (setFrame s d f { x with walk := none }) d f w.rd (BitVec.ofNat 32 w.g)
  | 1 =>
    let e := leAt b 3 1
    if a.toNat % 8 ≠ 0 then stokerFault s1 d f 3 a.toNat 0
    else
      match vaBytes d x.ctx 2 a.toNat (descLen e) s1 with
      | (.error (c, va), s2) => stokerFault (vaFault s2 d f va c) d f 4 va c
      | (.ok desc, s2) => submitDesc s2 d f e desc 0
  | 2 => doWait s1 d f a v 0
  | _ => doSignal s1 d f a v 0

/-- GRAPH_NODE (R109): the walk reads one node, goes to its previous version while it is newer than G, and acts on it otherwise. -/
def execGraphNode (d : DieId) (f : Fin 32) (s : State) : Host.Outcome State Fault Refusal :=
  let x := frameOf' s d f.val
  match x.walk, issues s d f.val with
  | some w, true =>
    let va := w.node.toNat
    if 65536 ≤ w.reads ∨ va % 64 ≠ 0 then ok (stokerFault s d f.val 6 va 0)
    else
      match vaBytes d x.ctx 1 va 64 s with
      | (.error (e, a), s1) => ok (stokerFault (vaFault s1 d f.val a e) d f.val 4 a e)
      | (.ok b, s1) =>
        let w1 := { w with reads := w.reads + 1 }
        let prev := le64 (b.drop 8)
        if ¬ nodeOk b then ok (stokerFault s1 d f.val 6 va 0)
        else if 0 < sx 16 (leAt b 0 2 + 65536 - w.g) then
          if prev = 0 then ok (stokerFault s1 d f.val 6 va 0)
          else ok (setFrame s1 d f.val { frameOf' s1 d f.val with walk := some { w1 with node := prev } })
        else ok (nodeAct s1 d f.val w1 b)
  | _, _ => ok s

end Sys2Proof.Machine
end

