-- ==== Sys2Proof/Machine/Submit.lean ====
section
/-! DEFINITION. The acceptance of a submission (R99, R100): what every engine does around its own checks, and the DONE_FENCE side. -/

namespace Sys2Proof.Machine

/-- The submission at the head of an engine's queue. -/
def headSub (s : State) (d : DieId) (e : Nat) : Option Submission := (engineOf s d e).subs.head?

/-- The head leaves an engine's submissions; the acceptance lets in what then has room (`settleSubs`, R99). -/
def popSub (s : State) (d : DieId) (e : Nat) : State := setEngine s d e { engineOf s d e with subs := (engineOf s d e).subs.tail }

/-- The context of a submission's queue. -/
def subCtx (s : State) (d : DieId) (x : Submission) : Nat := (queueOf s d x.queue).ctx

/-- The tenant of a submission's context. -/
def subTenant (s : State) (d : DieId) (x : Submission) : Nat := (ctxOf s d (subCtx s d x)).tenant

/-- The submission rejected at translation (R100): the XLATE_FAULT entry of the engine, and TRANSLATION. -/
def rejectXlate (s : State) (d : DieId) (e : Nat) (x : Submission) (va cause : Nat) : State :=
  endProgram (xlateFault (popSub s d e) d (subCtx s d x) va cause 0x02 e x.queue) d x.frame (some 2)

/-- The submission rejected as malformed under its engine's chapter: an entry of layout O, and PROGRAM_FAULT. -/
def rejectMalformed (s : State) (d : DieId) (e : Nat) (x : Submission) (code value : Nat) : State :=
  let c := subCtx s d x
  let n := (engineOf s d e).count
  endProgram (logEntry (popSub s d e) d
    { code := code, kind := 0x02, index := e, tenant := some (subTenant s d x), ctx := some c, queue := x.queue, sub := n,
      detail := detO e 0 x.queue n value }) d x.frame (some 3)

/-- Whether the context of a submission is FAULTED. -/
def ctxFaulted (s : State) (d : DieId) (x : Submission) : Bool := (ctxOf s d (subCtx s d x)).state == .faulted

/-- A submission whose context is FAULTED when the engine comes to it is rejected, and its record ends with CONTEXT_FAULT (R102). -/
def rejectFaulted (s : State) (d : DieId) (e : Nat) (x : Submission) : State := endProgram (popSub s d e) d x.frame (some 4)

/-- The submission accepted (R100): the engine's count goes up and reaches rd, the objects named gain a pin each, and the record
has one more operation out. -/
def acceptSub (s : State) (d : DieId) (e : Nat) (x : Submission) (pins : List Nat) : State :=
  let n := ((engineOf s d e).count + 1) % 2 ^ 32
  let s1 := popSub s d e
  let s2 := setEngine s1 d e { engineOf s1 d e with count := n }
  let s3 := updRun (addPins s2 d pins) d x.queue x.count (fun r => { r with opsOut := r.opsOut + 1 })
  let rd := match (frameOf' s3 d x.frame).park with | .submitted _ r => r | _ => 0
  wakeFrame s3 d x.frame rd (BitVec.ofNat 32 n)

/-- The submission count an acceptance now would give. -/
def nextCount (s : State) (d : DieId) (e : Nat) : Nat := ((engineOf s d e).count + 1) % 2 ^ 32

/-- The DONE_FENCE side of a descriptor (R100): whether it names a fence, the fence's physical address, its object. -/
def fenceSide (s : State) (d : DieId) (c : Nat) (desc : List Byte) : Except (Nat × Nat) (Bool × Nat × List Nat) × State :=
  let va := leAt desc 0 8
  if va = 0 then (.ok (false, 0, []), s)
  else
    match translate s d c va { write := true, fence := true } with
    | (.error e, s1) => (.error (va, e), s1)
    | (.ok (pa, o), s1) => if reach s1 d (dieOf pa) then (.ok (true, pa, [o]), s1) else (.error (va, 0x0A), s1)

/-- Lists of objects joined, each object once (R302). -/
def joinObjs (a b : List Nat) : List Nat := b.foldl (fun l x => if x ∈ l then l else l ++ [x]) a

end Sys2Proof.Machine
end

