-- ==== Sys2Proof/Machine/Dma.lean ====
section
/-! DEFINITION. The DMA engines (11, R302, R304 to R313): descriptors and their acceptance, channels, bursts, pacing, results and stops. -/

namespace Sys2Proof.Machine

/-! ### Descriptors (Tables 11.10 to 11.13) -/

/-- Request-line codes (Table 11.13). -/
def lineListed (l : Nat) : Bool :=
  decide (l ≤ 8) || (decide (0x10 ≤ l) && decide (l ≤ 0x13)) || (decide (0x20 ≤ l) && decide (l ≤ 0x30))

/-- A job read from its descriptor, before acceptance has resolved anything. -/
def dmaJobOf (e c tenant : Nat) (x : Submission) (sub : Nat) : DmaJob :=
  let b := x.desc
  let w (o : Nat) : W64 := le64 (b.drop o)
  { engine := e, chan := 4 * (e - 5) + leAt b 0x11 1 % 4, ctx := c, tenant := tenant, queue := x.queue, count := x.count, sub := sub,
    fence := false, fencePa := 0, value := w 8, op := leAt b 0x10 1, spaces := leAt b 0x12 1, rowBytes := leAt b 0x14 4,
    c1 := leAt b 0x18 4, c2 := leAt b 0x1C 2, c3 := leAt b 0x1E 2, src := w 0x20, dst := w 0x28,
    sstr := [w 0x30, w 0x38, w 0x40], dstr := [w 0x48, w 0x50, w 0x58], pattern := w 0x60, line := leAt b 0x68 1,
    log2 := leAt b 0x69 1 % 16, srcPages := [], dstCopies := [], resStage := (leAt b 0x12 1).testBit 5,
    resAt := if leAt b 0x70 8 = 0 then none else some (leAt b 0x70 8), pins := [], moved := 0, seen := [], mismatch := none, stop := none, step := .idle }

/-- Source and destination space of a job: 0 VA, 1 staging, 2 port. -/
def srcSpace (j : DmaJob) : Nat := j.spaces % 4
/-- Destination space of a job. -/
def dstSpace (j : DmaJob) : Nat := j.spaces / 4 % 4

/-- The lowest and the highest byte of a side before any reduction: the strides are signed (R305). -/
def sideRange (j : DmaJob) (base : W64) (strides : List W64) : Int × Int :=
  let ext (n : Nat) (w : W64) : Int := ((n : Int) - 1) * w.toInt
  let es := List.zipWith ext [j.c1, j.c2, j.c3] strides
  (base.toNat + (es.map (fun e => min e 0)).sum, base.toNat + (es.map (fun e => max e 0)).sum + (j.rowBytes : Int) - 1)

/-- Whether a staging address has its form and its side stays within the staging area (R307). -/
def stagingSide (base : W64) (r : Int × Int) : Bool :=
  let o := (base.toNat / 2 ^ 23 * 2 ^ 23 : Nat)
  decide (base.toNat < 2 ^ 26) && !(base.toNat.testBit 23) && decide ((o : Int) ≤ r.1) && decide (r.2 ≤ (o : Int) + 0x6FFFFF)

/-- Whether a port side is legal: its number, zero strides, the direction and its own line (R307). -/
def portSide (j : DmaJob) (base : W64) (strides : List W64) (output : Bool) : Bool :=
  decide (base.toNat < 4) && (strides.all (fun w => w == 0)) && (base.toNat % 2 == b2n output) && (j.line == 0x10 + base.toNat)

/-- Whether a descriptor keeps every rule of Tables 11.10 to 11.12 and R307 (R306). -/
def dmaLegal (j : DmaJob) (b : List Byte) : Bool :=
  decide (j.op ≤ 2) && decide (leAt b 0x11 1 < 4) && decide (j.spaces < 64) && decide (srcSpace j ≠ 3) && decide (dstSpace j ≠ 3)
    && zeroAt b 0x13 1 && zeroAt b 0x78 8
    && decide (1 ≤ j.rowBytes) && decide (j.rowBytes ≤ 2 ^ 24) && decide (1 ≤ j.c1) && decide (j.c1 ≤ 2 ^ 24) && decide (1 ≤ j.c2)
    && decide (1 ≤ j.c3)
    && (decide (j.op ≠ 1) || (srcSpace j == 0 && j.src == 0 && j.sstr.all (fun w => w == 0)))
    && (j.op == 1 || j.pattern == 0)
    && (decide (j.op ≠ 2) || (decide (srcSpace j ≠ 2) && decide (dstSpace j ≠ 2)))
    && lineListed j.line && decide (leAt b 0x69 1 < 16) && zeroAt b 0x6A 6
    && (if j.line = 0 then j.log2 == 0 else decide (6 ≤ j.log2) && decide (j.log2 ≤ 12))
    && (decide (j.op = 1) || decide (srcSpace j ≠ 1) || stagingSide j.src (sideRange j j.src j.sstr))
    && (decide (srcSpace j ≠ 2) || portSide j j.src j.sstr true)
    && (decide (dstSpace j ≠ 1) || stagingSide j.dst (sideRange j j.dst j.dstr))
    && (decide (dstSpace j ≠ 2) || portSide j j.dst j.dstr false)
    && (match j.resAt with
        | some a => a % 32 == 0
            && (!j.resStage || stagingSide (BitVec.ofNat 64 a) ((a : Int), (a : Int) + 31))
        | none => true)

/-! ### Acceptance (R302, R306 to R308) -/

/-- What a side's translation gives: frames by page and objects, or the address and its cause. -/
abbrev SideResult := Except (Nat × Nat) (Map Nat × List Nat)

/-- A VA side translated over its whole range. A range that leaves the canonical half is NONCANON. -/
def vaSide (s : State) (d : DieId) (c : Nat) (r : Int × Int) (a : XlAsk) : SideResult × State :=
  if r.1 < 0 ∨ 2 ^ 48 ≤ r.1 then (.error (wrapI 64 r.1, 0x01), s)
  else if 2 ^ 48 ≤ r.2 then (.error (wrapI 64 r.2, 0x01), s)
  else translateRange s d c r.1.toNat (r.2 - r.1 + 1).toNat a

/-- A staging address's die and offset. -/
def stageAddr (a : Nat) : DieId × Nat := (⟨a / 2 ^ 24 % 4, Nat.mod_lt _ (by decide)⟩, a % 2 ^ 23)

/-- A staging side's checks at acceptance: the die in reach, and the tag (R63, R298 step 8). -/
def stageSideCause (s : State) (d : DieId) (tenant lo n : Nat) : Option Nat :=
  let (m, o) := stageAddr lo
  if ¬ reach s d m then some 0x0A else if ¬ stageOk s m o n tenant then some 0x0B else none

/-- One page's frame on the copy of die `n`. -/
def copyPages (d : DieId) (c n : Nat) : List (Nat × Nat) → State → Map Nat → SideResult × State
  | [], s, m => (.ok (m, []), s)
  | (p, f) :: r, s, m =>
    match translate s d c (p * 2 ^ 25) { write := true, dma := true, copy := some n } with
    | (.error x, s1) => (.error (p * 2 ^ 25, x), s1)
    | (.ok (pa, _), s1) =>
      if pa = f then copyPages d c n r s1 m
      else if reach s1 d (dieOf pa) then copyPages d c n r s1 (mins m p pa)
      else (.error (p * 2 ^ 25, 0x0A), s1)

/-- The other dies' copies of replicated destination pages (R308): one page table a copy. -/
def otherCopies (d : DieId) (c : Nat) (main : Map Nat) : List DieId → State → Except (Nat × Nat) (List (Map Nat)) × State
  | [], s => (.ok [], s)
  | n :: r, s =>
    match copyPages d c n.val main s [] with
    | (.error x, s1) => (.error x, s1)
    | (.ok (m, _), s1) =>
      match otherCopies d c main r s1 with
      | (.error x, s2) => (.error x, s2)
      | (.ok l, s2) => (.ok (if m.isEmpty then l else m :: l), s2)

/-- The destination side of a job: its copies and objects. -/
def dstSide (s : State) (d : DieId) (j : DmaJob) : Except (Nat × Nat) (List (Map Nat) × List Nat) × State :=
  if dstSpace j ≠ 0 then (.ok ([], []), s)
  else
    match vaSide s d j.ctx (sideRange j j.dst j.dstr) { write := decide (j.op ≠ 2), dma := true } with
    | (.error x, s1) => (.error x, s1)
    | (.ok (m, os), s1) =>
      if j.op = 2 ∨ j.spaces.testBit 4 then (.ok ([m], os), s1)
      else
        match otherCopies d j.ctx m (allDies.filter (fun n => !(n == d))) s1 with
        | (.error x, s2) => (.error x, s2)
        | (.ok l, s2) => (.ok (m :: l, os), s2)

/-- The result side of a job: the physical address or the staging address where its block goes, its object. -/
def resSide (s : State) (d : DieId) (j : DmaJob) : Except (Nat × Nat) (Option Nat × List Nat) × State :=
  match j.resAt with
  | none => (.ok (none, []), s)
  | some a =>
    if j.resStage then (.ok (some a, []), s)
    else
      match translateRange s d j.ctx a 32 { write := true } with
      | (.error x, s1) => (.error x, s1)
      | (.ok (m, os), s1) => (.ok (pageLook m a, os), s1)

/-- The staging sides of a job that fail at acceptance. -/
def stageSidesCause (s : State) (d : DieId) (j : DmaJob) : Option (Nat × Nat) :=
  let one (base : W64) (strides : List W64) : Option (Nat × Nat) :=
    let r := sideRange j base strides
    (stageSideCause s d j.tenant r.1.toNat (r.2 - r.1 + 1).toNat).map (fun c => (base.toNat, c))
  let a := if srcSpace j = 1 ∧ j.op ≠ 1 then one j.src j.sstr else none
  let b := if dstSpace j = 1 then one j.dst j.dstr else none
  let c := match j.resStage, j.resAt with
    | true, some r => (stageSideCause s d j.tenant r 32).map (fun c => (r, c))
    | _, _ => none
  (a.or b).or c

/-- DMA_ERR changed. -/
def dmaErr (s : State) (d : DieId) (flag : Nat) : State :=
  let u := getDma s d
  let e := errRaise u.err s.now flag
  setDma s d { u with err := if flag = 0 then errCount e s.now 31 16 1 else e }

/-- Whether the staging pieces of a side still carry the tenant's tag. -/
def sideTagged (s : State) (j : DmaJob) (space : Nat) (base : W64) (strides : List W64) : Bool :=
  if space ≠ 1 then true
  else
    let r := sideRange j base strides
    let (m, o) := stageAddr r.1.toNat
    stageOk s m o (r.2 - r.1 + 1).toNat j.tenant

/-- How often the pieces that a range of staging spans have been retagged. -/
def rangeSets (s : State) (a n : Nat) : Nat :=
  let (m, o) := stageAddr a
  ((countUp (o / 65536) ((o + n - 1) / 65536 + 1 - o / 65536)).map (fun p => (pieceOf s m p).sets)).sum

/-- The retaggings of the pieces of a job's source, destination and result. -/
def jobSets (s : State) (j : DmaJob) : List Nat :=
  let side (space : Nat) (base : W64) (strides : List W64) : Nat :=
    let r := sideRange j base strides
    if space = 1 then rangeSets s r.1.toNat (r.2 - r.1 + 1).toNat else 0
  [side (srcSpace j) j.src j.sstr, side (dstSpace j) j.dst j.dstr,
   match j.resStage, j.resAt with | true, some a => rangeSets s a 32 | _, _ => 0]

/-- The dies that a transfer's sides and its result block lie on. -/
def jobDies (j : DmaJob) : List DieId :=
  (j.srcPages.map (fun e => dieOf e.2) ++ j.dstCopies.flatMap (fun m => m.map (fun e => dieOf e.2))
    ++ (if srcSpace j = 1 ∧ j.op ≠ 1 then [(stageAddr j.src.toNat).1] else []) ++ (if dstSpace j = 1 then [(stageAddr j.dst.toNat).1] else [])
    ++ (match j.resAt with | some a => [if j.resStage then (stageAddr a).1 else dieOf a] | none => [])).eraseDups

/-- How often the cords that a transfer needs have left UP. -/
def jobDrops (s : State) (d : DieId) (j : DmaJob) : Nat :=
  (((jobDies j).filter (fun n => !(n == d))).map (fun n => (cordOf s (cordIdx d n)).drops)).sum

/-- A DMA engine takes the descriptor at the head of its submission queue (R100, R302, R306 to R308). -/
def acceptDma (s : State) (d : DieId) (e : Nat) (x : Submission) : State :=
  let c := subCtx s d x
  let j := dmaJobOf e c (subTenant s d x) x (nextCount s d e)
  if ¬ dmaLegal j x.desc then rejectMalformed (dmaErr s d 1) d e x 0x0701 0
  else
    let src : SideResult × State :=
      if j.op = 1 ∨ srcSpace j ≠ 0 then (.ok ([], []), s) else vaSide s d c (sideRange j j.src j.sstr) {}
    match src with
    | (.error (va, f), s1) => rejectXlate s1 d e x va f
    | (.ok (sm, so), s1) =>
      match dstSide s1 d j with
      | (.error (va, f), s2) => rejectXlate s2 d e x va f
      | (.ok (dm, dob), s2) =>
        match resSide s2 d j with
        | (.error (va, f), s3) => rejectXlate s3 d e x va f
        | (.ok (rm, ro), s3) =>
          match fenceSide s3 d c x.desc with
          | (.error (va, f), s4) => rejectXlate s4 d e x va f
          | (.ok (hasF, fpa, fo), s4) =>
            match stageSidesCause s4 d j with
            | some (va, f) => rejectXlate s4 d e x va f
            | none =>
              let pins := joinObjs (joinObjs (joinObjs so dob) ro) fo
              if ¬ pinRoom s4 d pins then rejectXlate s4 d e x j.dst.toNat 0x0D
              else
                let y : DmaJob := { j with fence := hasF, fencePa := fpa, srcPages := sm, dstCopies := dm, resAt := rm, pins := pins }
                let s5 := acceptSub s4 d e x pins
                setDma s5 d { getDma s5 d with queue := (getDma s5 d).queue ++ [{ y with seen := jobSets s5 y ++ [jobDrops s5 d y] }] }

/-! ### Channels and request lines (R304, R310) -/

/-- A channel of a die. -/
def chanOf (s : State) (d : DieId) (ch : Nat) : DmaChannel := lget { active := none, shadow := none, last := 0 } (getDma s d).chans ch

/-- Replace a channel. -/
def setChan (s : State) (d : DieId) (ch : Nat) (x : DmaChannel) : State :=
  setDma s d { getDma s d with chans := lset (getDma s d).chans ch x }

/-- Count of a request line. -/
def lineCount (s : State) (d : DieId) (line : Nat) : Nat := mget 0 (getDma s d).lines line

/-- Set a line's count. -/
def setLine (s : State) (d : DieId) (line n : Nat) : State := setDma s d { getDma s d with lines := mput 0 (getDma s d).lines line n }

/-- One request on a line; one that meets 65,535 is lost and sets REQ_OVERFLOW (R310). -/
def raiseLine (s : State) (d : DieId) (line : Nat) : State :=
  if lineCount s d line = 65535 then dmaErr s d 2 else setLine s d line (lineCount s d line + 1)

/-- The running channel paced by a line, with its job. -/
def pacedBy (s : State) (d : DieId) (line : Nat) : Option (Nat × DmaJob) :=
  (countUp 0 16).findSome? (fun ch => match (chanOf s d ch).active with
    | some j => if j.line = line then some (ch, j) else none
    | none => none)

/-- DMA_SHADOW_LOAD (R304): the oldest waiting descriptor of a channel goes into its empty shadow set, and leaves its engine's submission queue
(R99). -/
def execDmaShadowLoad (d : DieId) (ch : Fin 16) (s : State) : Host.Outcome State Fault Refusal :=
  let u := getDma s d
  let x := chanOf s d ch.val
  match x.shadow, u.queue.find? (fun j => j.chan == ch.val), dieRuns s d with
  | none, some j, true =>
    ok (settleSubs (setChan (setDma s d { u with queue := u.queue.erase j }) d ch.val { x with shadow := some j }) d j.engine)
  | _, _, _ => ok s

/-- Whether a job's line is used by another running channel. -/
def lineBusy (s : State) (d : DieId) (ch : Nat) (j : DmaJob) : Bool :=
  match pacedBy s d j.line with
  | some (k, _) => decide (j.line ≠ 0) && decide (k ≠ ch)
  | none => false

/-- DMA_ACTIVATE (R304, Table 11.13): the shadow set becomes active, unless its line serves another running channel; the channel's
own line starts again from zero. -/
def execDmaActivate (d : DieId) (ch : Fin 16) (s : State) : Host.Outcome State Fault Refusal :=
  let x := chanOf s d ch.val
  match x.active, x.shadow, dieRuns s d with
  | none, some j, true =>
    if lineBusy s d ch.val j then ok s
    else ok (setLine (setChan s d ch.val { active := some j, shadow := none, last := j.sub }) d (0x20 + ch.val) 0)
  | _, _, _ => ok s

/-! ### The stream (R305, R309) -/

/-- Bytes of a job's stream. -/
def streamLen (j : DmaJob) : Nat := j.rowBytes * j.c1 * j.c2 * j.c3

/-- The address of row `r` on a side (R305). -/
def rowAddr (j : DmaJob) (base : W64) (strides : List W64) (r : Nat) : W64 :=
  base + BitVec.ofNat 64 (r % j.c1) * lget 0 strides 0 + BitVec.ofNat 64 (r / j.c1 % j.c2) * lget 0 strides 1
    + BitVec.ofNat 64 (r / (j.c1 * j.c2)) * lget 0 strides 2

/-- The address of stream offset `o` on a side. -/
def streamAddr (j : DmaJob) (base : W64) (strides : List W64) (o : Nat) : Nat :=
  (rowAddr j base strides (o / j.rowBytes) + BitVec.ofNat 64 (o % j.rowBytes)).toNat

/-- Where a byte of a side lies. -/
inductive Spot where
  | mem (pa : Nat)
  | stage (die : DieId) (off : Nat)
  | nowhere

/-- The place of an address in a space, by a page table. -/
def spotOf (space : Nat) (pages : Map Nat) (a : Nat) : Spot :=
  if space = 1 then let (m, o) := stageAddr a; .stage m o
  else match pageLook pages a with | some pa => .mem pa | none => .nowhere

/-- The byte at a place. -/
def spotByte (s : State) : Spot → Byte
  | .mem pa => memByte s pa
  | .stage d o => mget 0 (getStaging s d) o
  | .nowhere => 0

/-- Whether the 64-byte unit of a place reads as poison (R309). -/
def spotPoison (s : State) : Spot → Bool
  | .mem pa => poisonAt s pa
  | _ => false

/-- The PORT_PARITY entry of a failing staging word that is read (R411): its port-store offset. -/
def portParity (s : State) (d : DieId) (off : Nat) : State :=
  logEntry s d { code := 0x0105, kind := 0x01, detail := detA (0x100000 + off) 0 2 0 0, addr := 0x100000 + off }

/-- The failing staging words among the places read, each reported once (R411). -/
def reportSpots (s : State) (l : List Spot) : State :=
  let bad := l.filterMap (fun p => match p with
    | .stage d o => if mget false (getStagingBad s d) o then some (d, o / 8 * 8) else none
    | _ => none)
  bad.eraseDups.foldl (fun t p => portParity t p.1 p.2) s

/-- Whether two bytes of a stream belong to one write: the same row and the same 64-byte unit (R309). -/
def sameUnit (a b : Nat × Spot × Byte) : Bool :=
  a.1 == b.1 && (match a.2.1, b.2.1 with
    | .mem p, .mem q => p / 64 == q / 64
    | .stage d p, .stage e q => d == e && p / 64 == q / 64
    | _, _ => false)

/-- One unit written: its bytes are those of one row (R309). -/
def writeUnit (s : State) (l : List (Nat × Spot × Byte)) : State :=
  let cells := l.filterMap (fun p => match p.2.1 with | .mem a => some (a, p.2.2) | _ => none)
  l.foldl (fun t p => match p.2.1 with | .stage d o => stageWrite t d o [p.2.2] | _ => t) (if cells.isEmpty then s else writeCells s cells)

/-- A stream's bytes written, each with its row and place: unit by unit and row by row, each row under its own byte enables (R309, Table
11.22). -/
def writeSpots (s : State) (l : List (Nat × Spot × Byte)) : State := (l.splitBy sameUnit).foldl writeUnit s

/-- The memory units among the places read. -/
def spotUnits (l : List Spot) : List Nat := (l.filterMap (fun p => match p with | .mem a => some (a / 64) | _ => none)).eraseDups

/-- The reads of places as memory meets them (R289). -/
def noteSpots (s : State) (l : List Spot) : State := (spotUnits l).foldl (fun t c => noteRead t (64 * c) 64) s

/-! ### Causes that stop a transfer (Table 11.14) -/

/-- The cause, if any, for which a transfer is to stop now: a piece retagged, or a cord lost, since acceptance counts though it is back
(R311). -/
def dmaCause (s : State) (d : DieId) (j : DmaJob) : Option Nat :=
  match j.stop with
  | some c => some c
  | none =>
    if resettingTenant s j.tenant then some 5
    else if ¬ (sideTagged s j (srcSpace j) j.src j.sstr && sideTagged s j (dstSpace j) j.dst j.dstr)
        ∨ (jobSets s j).take 2 ≠ j.seen.take 2 then some 3
    else if (jobDies j).any (fun n => (hop s d n == .dark)) ∨ j.seen.getD 3 0 ≠ jobDrops s d j then some 2
    else none

/-! ### Retort ports -/

/-- Retort engine `e` of a die. -/
def retOf (s : State) (d : DieId) (e : Nat) : RetEngine := if e = 0 then (getRet s d).e0 else (getRet s d).e1

/-- Replace a retort engine. -/
def setRetE (s : State) (d : DieId) (e : Nat) (x : RetEngine) : State :=
  setRet s d (if e = 0 then { getRet s d with e0 := x } else { getRet s d with e1 := x })

/-- Whether a port serves a job's channel: a retort job of the channel's tenant runs (R316). -/
def portServes (s : State) (d : DieId) (port : Nat) (tenant : Nat) : Bool :=
  match (retOf s d (port / 2)).job with
  | some j => j.tenant == tenant
  | none => false

/-- Bytes of released output that a port can still give, the zero fill included (R329). -/
def portLeft (x : RetEngine) : Nat :=
  match x.job with
  | some j => if x.padding ∧ j.op = 1 then j.outBytes - x.outTaken else x.outReleased - x.outTaken
  | none => 0

/-- Bytes taken from an output port; past the released bytes the zero fill follows. -/
def portTake (s : State) (d : DieId) (e n : Nat) : List Byte × State :=
  let x := retOf s d e
  (padTo n 0 x.outBuf, setRetE s d e { x with outBuf := x.outBuf.drop n, outTaken := x.outTaken + n })

/-- A retort engine whose job is over. -/
def retFree (x : RetEngine) : RetEngine := { x with job := none, draining := false, stop := none }

/-- Bytes given to an input port: kept, or discarded after a stop and after a pad marker (R330, R331). A stopped engine whose input
has all been taken is free again. -/
def portGive (s : State) (d : DieId) (e : Nat) (b : List Byte) : State :=
  let x := retOf s d e
  let drop := x.draining || (x.padding && (match x.job with | some j => j.op == 0 | none => false))
  let y := { x with inBuf := if drop then [] else x.inBuf ++ b, inTaken := x.inTaken + b.length, progressAt := dtime s d }
  setRetE s d e (match y.draining, y.job with
    | true, some j => if j.inBytes ≤ y.inTaken then retFree y else y
    | _, _ => y)

/-! ### Bursts (R304, R309 to R311) -/

/-- Bytes of the next burst of a job. -/
def burstLen (j : DmaJob) : Nat := min (if j.line = 0 then 4096 else 2 ^ j.log2) (streamLen j - j.moved)

/-- Update the active job of a channel. -/
def setActive (s : State) (d : DieId) (ch : Nat) (j : DmaJob) : State := setChan s d ch { chanOf s d ch with active := some j }

/-- The other die that holds a place, where another does. -/
def farDie (d : DieId) : Spot → Option DieId
  | .mem pa => if dieOf pa = d then none else some (dieOf pa)
  | .stage n _ => if n = d then none else some n
  | .nowhere => none

/-- A place's 64-byte unit as a number, memory and each die's staging apart. -/
def unitOf : Spot → Nat
  | .mem pa => pa / 64
  | .stage n o => 2 ^ 40 + n.val * 2 ^ 30 + o / 64
  | .nowhere => 0

/-- Who asks for part `part` of a burst. -/
def burstWho (ch : Nat) (j : DmaJob) (part : Nat) : Asker := .dma ch j.sub part

/-- The read of the unit of a place on another die (R288, R362). -/
def unitRead (ch : Nat) (j : DmaJob) (p : Spot) : Option AskFor :=
  match p with
  | .mem pa => some (memReadFor (burstWho ch j (2 * unitOf p)) (pa / 64))
  | .stage n o => some { who := burstWho ch j (2 * unitOf p), die := n, typ := 8, len := 0, addr := 0x100000 + o / 64 * 64, arg := j.tenant, data := [] }
  | .nowhere => none

/-- The reads that a burst needs of other dies, one for each unit. -/
def burstReads (d : DieId) (ch : Nat) (j : DmaJob) (l : List Spot) : List AskFor :=
  let far := l.filter (fun p => (farDie d p).isSome)
  ((far.map unitOf).eraseDups).filterMap (fun u => (far.find? (fun p => unitOf p == u)).bind (unitRead ch j))

/-- A write of a burst to another die as a request (R309, R362). -/
def outAsk (ch : Nat) (j : DmaJob) (k : Nat) (w : OutWrite) : AskFor :=
  if w.stage then writeFor (burstWho ch j (2 * k + 1)) w.die 0 9 w.base (0x100000 + w.base) j.tenant w.cells
  else writeFor (burstWho ch j (2 * k + 1)) w.die 2 3 w.base w.base 0 w.cells

/-- The requests that carry a burst's writes to other dies. -/
def outAsks (ch : Nat) (j : DmaJob) (l : List OutWrite) : List AskFor := l.zipIdx.map (fun p => outAsk ch j p.2 p.1)

/-- One unit's write as it goes to another die. -/
def outWrite (n : DieId) (l : List (Nat × Spot × Byte)) : OutWrite :=
  let cells := l.filterMap (fun p => match p.2.1 with | .mem a => some (a, p.2.2) | .stage _ o => some (o, p.2.2) | .nowhere => none)
  let stage := l.any (fun p => match p.2.1 with | .stage _ _ => true | _ => false)
  { die := n, stage := stage, base := (match cells with | c :: _ => c.1 / 64 * 64 | [] => 0), cells := cells }

/-- Stream bytes `data` from offset `o` delivered on the destination side: what lies on the die at once, and the writes to other dies. -/
def deliver (s : State) (d : DieId) (j : DmaJob) (o : Nat) (data : List Byte) : State × List OutWrite :=
  if dstSpace j = 2 then (portGive s d (j.dst.toNat / 2) data, [])
  else
    let at_ (m : Map Nat) : List (Nat × Spot × Byte) :=
      data.zipIdx.map (fun p => ((o + p.2) / j.rowBytes, spotOf (dstSpace j) m (streamAddr j j.dst j.dstr (o + p.2)), p.1))
    let units := (if dstSpace j = 1 then [([] : Map Nat)] else j.dstCopies).flatMap (fun m => (at_ m).splitBy sameUnit)
    let die (u : List (Nat × Spot × Byte)) : Option DieId := match u with | p :: _ => farDie d p.2.1 | [] => none
    ((units.filter (fun u => (die u).isNone)).foldl writeUnit s, units.filterMap (fun u => (die u).map (fun n => outWrite n u)))

/-- The places of a stream range on the source side. -/
def srcSpots (j : DmaJob) (n : Nat) : List Spot :=
  (countUp j.moved n).map (fun o => spotOf (srcSpace j) j.srcPages (streamAddr j j.src j.sstr o))

/-- The places of a stream range on the destination side, as COMPARE reads it. -/
def dstSpots (j : DmaJob) (n : Nat) : List Spot :=
  (countUp j.moved n).map (fun o => spotOf (dstSpace j) (lget [] j.dstCopies 0) (streamAddr j j.dst j.dstr o))

/-- The places that a burst reads: its source, and for COMPARE its destination. -/
def burstSpots (j : DmaJob) (n : Nat) : List Spot :=
  (if j.op = 1 ∨ srcSpace j = 2 then [] else srcSpots j n) ++ (if j.op = 2 then dstSpots j n else [])

/-- The first position where a list of flags holds. -/
def firstTrue (l : List Bool) : Option Nat := l.findIdx? (fun b => b)

/-- The answer to the read of a place's unit. -/
def spotAnswer (l : List (AskFor × Answer)) (ch : Nat) (j : DmaJob) (p : Spot) : Option Answer :=
  (l.find? (fun x => x.1.who == burstWho ch j (2 * unitOf p))).map (fun x => x.2)

/-- A place's byte as a burst reads it: at home as it stands, or as the other die answered. -/
def readSpot (s : State) (l : List (AskFor × Answer)) (ch : Nat) (j : DmaJob) (p : Spot) : Byte :=
  match spotAnswer l ch j p, p with
  | some a, .mem pa => lget 0 a.data (pa % 64)
  | some a, .stage _ o => lget 0 a.data (o % 64)
  | _, _ => spotByte s p

/-- Whether a place reads as poison (R290, R309). -/
def badSpot (s : State) (l : List (AskFor × Answer)) (ch : Nat) (j : DmaJob) (p : Spot) : Bool :=
  match spotAnswer l ch j p with
  | some a => a.status == 2
  | none => spotPoison s p

/-- The cause with which a failed request stops a transfer (Table 11.14): STAGE_RETAGGED, PARITY or TARGET_DARK. -/
def stopOf (status : Nat) : Nat := if status = 4 then 3 else if status = 2 then 1 else 2

/-- The end of a burst: the stream has moved to `moved`, and where the burst was whole the channel's own line counts it. -/
def burstDone (s : State) (d : DieId) (ch : Nat) (j : DmaJob) (moved : Nat) (mismatch stop : Option Nat) (whole : Bool) : State :=
  let s1 := setActive s d ch { j with moved := moved, mismatch := mismatch, stop := stop, step := .idle }
  if whole then raiseLine s1 d (0x20 + ch) else s1

/-- The writes of a burst to other dies asked for, and the burst ended once every one is acknowledged; a write that failed stops the transfer
(R362, R363, R364). -/
def settleOut (s : State) (d : DieId) (ch : Nat) (j : DmaJob) (l : List OutWrite) (moved : Nat) (mismatch stop : Option Nat) (whole : Bool) : State :=
  let asks := outAsks ch j l
  let s1 := asks.foldl (askDie d) s
  match answersOf s1 d asks with
  | none => setActive s1 d ch { j with step := .writing l moved mismatch stop whole }
  | some r =>
    let s2 := dropAnswers d s1 asks
    match r.find? (fun p => p.2.status ≠ 0) with
    | some p => burstDone s2 d ch j j.moved none (some (stopOf p.2.status)) false
    | none => burstDone s2 d ch j moved mismatch stop whole

/-- Stream bytes delivered, and the burst ended as told. -/
def sendOn (s : State) (d : DieId) (ch : Nat) (j : DmaJob) (data : List Byte) (moved : Nat) (stop : Option Nat) (whole : Bool) : State :=
  let r := deliver s d j j.moved data
  settleOut r.1 d ch j r.2 moved none stop whole

/-- One burst moved, its reads of other dies answered by `l`. A poisoned source byte stops the transfer: its row may be delivered in part, up to
a free place (R311). -/
def moveBurst (s : State) (d : DieId) (ch : Nat) (j : DmaJob) (n : Nat) (l : List (AskFor × Answer)) : State :=
  if j.op = 1 then
    sendOn s d ch j ((countUp j.moved n).map (fun o => lget 0 (natLe 8 j.pattern.toNat) (o % 8))) (j.moved + n) none true
  else if srcSpace j = 2 then
    let (b, s1) := portTake s d (j.src.toNat / 2) n
    sendOn s1 d ch j b (j.moved + n) none true
  else
    let sp := srcSpots j n
    let dp := if j.op = 2 then dstSpots j n else []
    let near (x : List Spot) : List Spot := x.filter (fun p => (farDie d p).isNone)
    let s1 := noteSpots (reportSpots (reportSpots s (near sp)) (near dp)) (near (sp ++ dp))
    let bytes := sp.map (readSpot s1 l ch j)
    let stopAt := firstTrue ((sp.map (badSpot s1 l ch j)).zipIdx.map (fun p => p.1 || badSpot s1 l ch j (dp.getD p.2 .nowhere)))
    let diff := if j.op = 2 then firstTrue (List.zipWith (fun a b => !(a == readSpot s1 l ch j b)) bytes dp) else none
    let differ (k : Nat) : State := burstDone s1 d ch j (j.moved + k) (some (j.moved + k)) none false
    match diff, stopAt with
    | some k, none => differ k
    | some k, some p => if k < p then differ k else burstDone s1 d ch j (j.moved + p) none (some 1) false
    | none, some p =>
      let start := max j.moved ((j.moved + p) / j.rowBytes * j.rowBytes)
      let k := (Config.freeW32 s.freeCtr 0).toNat % (j.moved + p - start + 1)
      let m := start - j.moved + k
      if j.op = 2 then burstDone s1 d ch j (j.moved + m) none (some 1) false
      else sendOn (useFree s1) d ch j (bytes.take m) (j.moved + m) (some 1) false
    | none, none =>
      if j.op = 2 then burstDone s1 d ch j (j.moved + n) none none true else sendOn s1 d ch j bytes (j.moved + n) none true

/-- A burst whose reads of other dies are asked for: it goes on once every one is answered, and a read that failed stops the transfer. -/
def readBurst (s : State) (d : DieId) (ch : Nat) (j : DmaJob) (n : Nat) : State :=
  let asks := burstReads d ch j (burstSpots j n)
  let s1 := asks.foldl (askDie d) s
  match answersOf s1 d asks with
  | none => setActive s1 d ch { j with step := .reading }
  | some r =>
    let s2 := dropAnswers d s1 asks
    match r.find? (fun p => p.2.status ≠ 0 && p.2.status ≠ 2) with
    | some p => burstDone s2 d ch j j.moved none (some (stopOf p.2.status)) false
    | none => moveBurst s2 d ch j n r

/-- Whether a job's stream has ended. -/
def streamEnded (j : DmaJob) : Bool := j.moved == streamLen j || j.mismatch.isSome

/-- Input bytes that a retort job still takes (R316, R331). -/
def portRoom (x : RetEngine) : Nat := match x.job with | some j => j.inBytes - x.inTaken | none => 0

/-- Whether a burst touches a row of its own die that is being retired: it waits (R291). -/
def burstHeld (s : State) (d : DieId) (j : DmaJob) (n : Nat) : Bool :=
  (spotUnits ((if srcSpace j = 0 ∧ j.op ≠ 1 then srcSpots j n else []) ++
    (if dstSpace j = 0 then j.dstCopies.flatMap (fun m =>
      (countUp j.moved n).map (fun o => spotOf 0 m (streamAddr j j.dst j.dstr o))) else []))).any
    (fun c => decide (dieOf (64 * c) = d) && rowWaits s (64 * c) 64)

/-- Whether the port sides of a burst can move now: past IN_BYTES an input takes nothing (R316). -/
def portsReady (s : State) (d : DieId) (j : DmaJob) (n : Nat) : Bool :=
  (decide (srcSpace j ≠ 2) || (portServes s d j.src.toNat j.tenant && decide (n ≤ portLeft (retOf s d (j.src.toNat / 2)))))
    && (decide (dstSpace j ≠ 2) || (portServes s d j.dst.toNat j.tenant && decide (n ≤ portRoom (retOf s d (j.dst.toNat / 2)))))

/-- DMA_BURST (R304, R310): the channel moves one burst; a paced channel takes one request of its line for it. A burst that needs another die
goes on as its requests are answered (R288, R362, R363). -/
def execDmaBurst (d : DieId) (ch : Fin 16) (s : State) : Host.Outcome State Fault Refusal :=
  match (chanOf s d ch.val).active, dieRuns s d with
  | some j, true =>
    let n := burstLen j
    if (dmaCause s d j).isSome ∨ streamEnded j ∨ ¬ portsReady s d j n ∨ burstHeld s d j n then ok s
    else
      match j.step with
      | .writing l moved mismatch stop whole => ok (settleOut s d ch.val j l moved mismatch stop whole)
      | .reading => ok (readBurst s d ch.val j n)
      | .idle =>
        if j.line ≠ 0 ∧ lineCount s d j.line = 0 then ok s
        else ok (readBurst (if j.line = 0 then s else setLine s d j.line (lineCount s d j.line - 1)) d ch.val j n)
  | _, _ => ok s

/-! ### Ends and stops (R311 to R313) -/

/-- A result block (Table 11.15). -/
def dmaResult (s : State) (d : DieId) (j : DmaJob) (outcome cause rows mism : Nat) : List Byte :=
  natLe 1 outcome ++ natLe 1 cause ++ natLe 2 0 ++ natLe 4 j.sub ++ natLe 8 rows ++ natLe 8 mism ++ natLe 8 (dtime s d)

/-- Why a job's result block cannot be written now (R313): cause 3 or 2. -/
def resultBlocked (s : State) (d : DieId) (j : DmaJob) : Option Nat :=
  match j.resAt with
  | none => none
  | some a =>
    if j.resStage then
      let (m, o) := stageAddr a
      if ¬ stageOk s m o 32 j.tenant ∨ (jobSets s j).getD 2 0 ≠ j.seen.getD 2 0 then some 3 else if hop s d m = .dark then some 2 else none
    else if hop s d (dieOf a) = .dark then some 2 else none

/-- The result block written where the job names one. -/
def putResult (s : State) (j : DmaJob) (b : List Byte) : State :=
  match j.resAt with
  | none => s
  | some a =>
    if j.resStage then let (m, o) := stageAddr a; stageWrite s m o b else memWrite s a b

/-- Rows delivered whole. -/
def rowsDone (j : DmaJob) : Nat := (j.mismatch.getD j.moved) / j.rowBytes

/-- The DMA_STOPPED entry and DMA_ERR (R311). -/
def logStopped (s : State) (d : DieId) (j : DmaJob) (cause : Nat) : State :=
  logEntry (dmaErr s d 0) d { code := 0x0702, kind := 0x02, index := j.engine, tenant := some j.tenant, ctx := some j.ctx,
                              detail := detO j.engine cause j.queue j.sub (rowsDone j), cause := cause, queue := j.queue, sub := j.sub }

/-- The channel is free for its shadow set. -/
def clearActive (s : State) (d : DieId) (ch : Nat) : State := setChan s d ch { chanOf s d ch with active := none }

/-- The source-aborted indications that a stopped transfer sends to the consumers of its output (R312): the retort input it feeds,
and the channel paced by its line, with its first undelivered stream offset. -/
def abortLines (s : State) (d : DieId) (ch : Nat) (j : DmaJob) : List (Nat × Nat × Nat) :=
  let port := if dstSpace j = 2 ∧ portServes s d j.dst.toNat j.tenant then
      match (retOf s d (j.dst.toNat / 2)).job with
      | some r => [(0x10 + j.dst.toNat, r.sub, j.moved)]
      | none => []
    else []
  match pacedBy s d (0x20 + ch) with
  | some (_, k) => port ++ [(0x20 + ch, k.sub, j.moved)]
  | none => port

/-- A retort job told to stop (Table 12.5), unless it stops already. A stopped engine that discards input is free when the feeding channel has
stopped as well: no more input will come (DESIGN CHOICE, log 15). -/
def retTell (s : State) (d : DieId) (e cause : Nat) : State :=
  let x := retOf s d e
  if x.draining ∧ cause = 7 then setRetE s d e (retFree x)
  else if x.job.isSome ∧ x.stop.isNone then setRetE s d e { x with stop := some cause } else s

/-- The output port drained by a stopped transfer tells its engine CONSUMER_STOPPED (Table 12.5). -/
def tellProducer (s : State) (d : DieId) (j : DmaJob) : State :=
  if srcSpace j = 2 ∧ portServes s d j.src.toNat j.tenant then retTell s d (j.src.toNat / 2) 8 else s

/-- What every stop of a transfer does beside its result block: the indications, the entry and DMA_ERR, the pins, the record (R311, R312). -/
def endStopped (s : State) (d : DieId) (ch : Nat) (j : DmaJob) (cause : Nat) : State :=
  let u := getDma s d
  let s1 := setDma s d { u with aborted := u.aborted ++ abortLines s d ch j }
  opStop (logStopped (tellProducer (clearActive s1 d ch) d j) d j cause) d j.queue j.count j.pins

/-- Whether a job's result block lies on another die, and the request that writes it there (R313, R362). -/
def resultAsk (d : DieId) (ch : Nat) (j : DmaJob) (b : List Byte) : Option AskFor :=
  match j.resAt with
  | none => none
  | some a =>
    if j.resStage then
      let (m, o) := stageAddr a
      if m = d then none else some (outAsk ch j (2 ^ 50) { die := m, stage := true, base := o / 64 * 64, cells := cellsAt o b })
    else if dieOf a = d then none
    else some (outAsk ch j (2 ^ 50) { die := dieOf a, stage := false, base := a / 64 * 64, cells := cellsAt a b })

/-- How the write of a result block stands: still to be acknowledged, done, or failed with a cause. -/
inductive ResultEnd where
  | waits (s : State)
  | done (s : State)
  | failed (s : State) (cause : Nat)

/-- A job's result block written where the job names one (R313). -/
def writeResult (s : State) (d : DieId) (ch : Nat) (j : DmaJob) (b : List Byte) : ResultEnd :=
  match resultBlocked s d j with
  | some c => .failed s c
  | none =>
    match resultAsk d ch j b with
    | none => .done (putResult s j b)
    | some q =>
      let s1 := askDie d s q
      match answerOf s1 d q.die q.who with
      | none => .waits s1
      | some r =>
        let s2 := dropAnswer s1 d q.die q.who
        if r.status = 0 then .done s2 else .failed s2 (stopOf r.status)

/-- A job ends: its result block, then its fence (R311, R313); one whose block cannot be written counts as stopped. -/
def finishJob (s : State) (d : DieId) (ch : Nat) (j : DmaJob) : State :=
  match writeResult s d ch j (dmaResult s d j (b2n j.mismatch.isSome) 0 (rowsDone j) (j.mismatch.getD (2 ^ 64 - 1))) with
  | .waits t => t
  | .failed t c => endStopped t d ch j c
  | .done t => opFinish (clearActive t d ch) d j.queue j.count j.fence j.fencePa j.value j.pins

/-- Whether a job's result block waits for the copy of its row (R291). -/
def resultWaits (s : State) (d : DieId) (j : DmaJob) : Bool :=
  match j.resAt with
  | some a => !j.resStage && dieOf a == d && rowWaits s a 32
  | none => false

/-- DMA_FINISH (R311): every byte has moved, or a mismatch has been found. -/
def execDmaFinish (d : DieId) (ch : Fin 16) (s : State) : Host.Outcome State Fault Refusal :=
  match (chanOf s d ch.val).active with
  | some j => event (streamEnded j && j.stop.isNone && dieRuns s d && !resultWaits s d j) s (finishJob s d ch.val j)
  | none => ok s

/-- A transfer stops: the result block where it can be written, the entry, DMA_ERR, pins, the indications (R311, R312). -/
def stopJob (s : State) (d : DieId) (ch : Nat) (j : DmaJob) (cause : Nat) : State :=
  match writeResult s d ch j (dmaResult s d j 2 cause (rowsDone j) (2 ^ 64 - 1)) with
  | .waits t => t
  | .failed t _ => endStopped t d ch j cause
  | .done t => endStopped t d ch j cause

/-- DMA_STOP (R311): a transfer for which a cause of Table 11.14 holds stops. -/
def execDmaStop (d : DieId) (ch : Fin 16) (s : State) : Host.Outcome State Fault Refusal :=
  match (chanOf s d ch.val).active with
  | some j =>
    match dmaCause s d j with
    | some c => event (j.stop.isSome || !streamEnded j) s (stopJob s d ch.val j c)
    | none => ok s
  | none => ok s

/-- SOURCE_ABORTED (R312): an indication arrives at the consumer it was sent to, a retort input (lines 0x10 and 0x12) or the channel
paced by the line. -/
def execSourceAborted (d : DieId) (line : BitVec 8) (s : State) : Host.Outcome State Fault Refusal :=
  let u := getDma s d
  let l := line.toNat
  match u.aborted.find? (fun a => a.1 == l) with
  | none => ok s
  | some a =>
    let s1 := setDma s d { u with aborted := u.aborted.erase a }
    if l = 0x10 ∨ l = 0x12 then
      match (retOf s1 d ((l - 0x10) / 2)).job with
      | some r => ok (if r.sub = a.2.1 then retTell s1 d ((l - 0x10) / 2) 7 else s1)
      | none => ok s1
    else
      match pacedBy s1 d l with
      | some (ch, j) => ok (if j.sub = a.2.1 ∧ j.stop.isNone then setActive s1 d ch { j with stop := some 4 } else s1)
      | none => ok s1

/-- The lines of a mask of SW0 to SW7. -/
def swLines (mask : Nat) : List Nat := (countUp 0 8).filter mask.testBit

/-- A write of DMA_REQ (Table 11.18): CLEAR is applied before RAISE. -/
def wrDmaReq (s : State) (d : DieId) (v : W64) : State :=
  let s1 := (swLines (fld v 15 8)).foldl (fun t n => setLine t d (n + 1) 0) s
  (swLines (fld v 7 0)).foldl (fun t n => raiseLine t d (n + 1)) s1

/-- DMA_REQ_RAISE (R310). -/
def execDmaReqRaise (d : DieId) (mask : Byte) (s : State) : Host.Outcome State Fault Refusal :=
  ok (viaSlot s d 16 0 (fun t => wrDmaReq t d (BitVec.ofNat 64 mask.toNat)))

/-- DMA_REQ_CLEAR (R310). -/
def execDmaReqClear (d : DieId) (mask : Byte) (s : State) : Host.Outcome State Fault Refusal :=
  ok (viaSlot s d 16 0 (fun t => wrDmaReq t d (BitVec.ofNat 64 (mask.toNat * 256))))

/-! ### Registers (Tables 11.17, 11.19, 11.20) -/

/-- DMA_CHk. -/
def dmaChReg (s : State) (d : DieId) (k : Nat) : W64 :=
  let x := chanOf s d k
  let st := match x.active, x.shadow with
    | some j, _ =>
      if (dmaCause s d j).isSome then 3
      else if j.line ≠ 0 ∧ lineCount s d j.line = 0 ∧ ¬ streamEnded j then 2 else 1
    | none, some j => if lineBusy s d k j then 2 else 0
    | none, none => 0
  packFields [(st, 0), (b2n x.shadow.isSome, 3), (match x.active with | some j => j.line | none => 0, 8), (x.last, 16)]

/-- DMA_LINES. -/
def dmaLinesReg (s : State) (d : DieId) : W64 := packFields ((countUp 0 8).map (fun n => (min 255 (lineCount s d (n + 1)), 8 * n)))

/-- A write of DMA_ERR (Table 11.20). -/
def wrDmaErr (s : State) (d : DieId) (v : W64) : State :=
  setDma s d { getDma s d with err := errClear (getDma s d).err s.now v 16 [(0, 31, 16)] }

/-! ### A tenant's reset (R311, R416) -/

/-- A tenant's descriptor that stands in a DMA engine's submission queue and has not been accepted: discarded with the others, its result block
written where RESULT can be resolved (R311). -/
def discardSub (d : DieId) (e : Nat) (s : State) (x : Submission) : State :=
  let j := dmaJobOf e (subCtx s d x) (subTenant s d x) x 0
  if ¬ dmaLegal j x.desc then s
  else
    match resSide s d j with
    | (.ok (some a, _), s1) =>
      let y := { j with resAt := some a, seen := jobSets s1 { j with resAt := some a } }
      if (resultBlocked s1 d y).isSome then s1 else putResult s1 y (dmaResult s1 d y 2 5 0 (2 ^ 64 - 1))
    | (_, s1) => s1

/-- The submissions of a tenant that its reset discards before any engine has accepted them: DMA's result blocks written, and how many there
are of DMA, the retorts, GEN and GEO (R311, Table 17.4). -/
def discardSubs (s : State) (d : DieId) (t : Nat) : Nat × State :=
  let mine (e : Nat) : List Submission := (engineOf s d e).subs.filter (fun x => subTenant s d x == t)
  ((([0, 5, 6, 7, 8, 9, 10, 12] : List Nat).map (fun e => (mine e).length)).sum,
   ([5, 6, 7, 8] : List Nat).foldl (fun u e => (mine e).foldl (discardSub d e) u) s)

/-- Descriptors of a tenant that have not started: discarded, their result blocks written as STOPPED with TENANT_RESET and ROWS 0,
their pins released; how many. -/
def discardDma (s : State) (d : DieId) (t : Nat) : Nat × State :=
  let u := getDma s d
  let mine (j : DmaJob) : Bool := j.tenant == t
  let gone := u.queue.filter mine ++ u.chans.filterMap (fun c => c.shadow.filter mine)
  let s1 := setDma s d { u with queue := u.queue.filter (fun j => !mine j),
                                chans := u.chans.map (fun c => { c with shadow := c.shadow.filter (fun j => !mine j) }) }
  (gone.length, (countUp 5 4).foldl (fun x e => settleSubs x d e) <| gone.foldl (fun x j =>
    let y := if (resultBlocked x d j).isSome then x else putResult x j (dmaResult x d j 2 5 0 (2 ^ 64 - 1))
    dropPins y d j.pins) s1)

end Sys2Proof.Machine
end

