-- ==== Sys2Proof/Machine/Passes.lean ====
section
/-! DEFINITION. Render passes as residency and the cores meet them (09, R236, R241, R243): the descriptors of a pass on the dies, its abort,
and the work it has for a context. -/

namespace Sys2Proof.Machine

/-- Whether two descriptors belong to the same pass: context and PASS (R236). -/
def samePass (a b : GeoPass) : Bool := a.ctx == b.ctx && a.pass == b.pass

/-- The pass of number `n` that runs on die `d`, the first accepted. -/
def passOf (s : State) (d : DieId) (n : Nat) : Option GeoPass :=
  (getGeo s d).passes.find? (fun p => p.pass == n && !p.done && !p.aborted)

/-- The pass of die `d` that submission `sub` opened. -/
def passBySub (s : State) (d : DieId) (sub : Nat) : Option GeoPass := (getGeo s d).passes.find? (fun p => p.sub == sub)

/-- The descriptor of the same pass on die `n`. -/
def mateOf (s : State) (n : DieId) (p : GeoPass) : Option GeoPass :=
  (getGeo s n).passes.find? (fun q => samePass p q && !q.done && !q.aborted)

/-- Replace a pass of die `d`, known by its submission count. -/
def setPass (s : State) (d : DieId) (p : GeoPass) : State :=
  setGeo s d { getGeo s d with passes := (getGeo s d).passes.map (fun q => if q.sub = p.sub then p else q) }

/-- The dies of a mask. -/
def diesOf (m : Nat) : List DieId := allDies.filter (fun d => m.testBit d.val)

/-- A list of dies as a mask. -/
def maskOfDies (l : List DieId) : Nat := l.foldl (fun a d => a ||| 2 ^ d.val) 0

/-- L of a pass, empty while it is not known. -/
def litOf (p : GeoPass) : List DieId := p.lit.getD []

/-- A pass marked aborted on every die of DIES; a die that has not accepted its descriptor yet keeps the abort for it (R237, R241). -/
def markAborted (s : State) (p : GeoPass) : State :=
  (diesOf p.dies).foldl (fun t n =>
    match mateOf t n p with
    | some q => setPass t n { q with aborted := true }
    | none => setGeo t n { getGeo t n with ended := (getGeo t n).ended ++ [(p.ctx, p.pass, true)] }) s

/-- Whether a context has a pass on a die whose tiles are being rendered or are still to come (R243): it counts as work for the slot, beside
the pass's groups themselves. -/
def passWorks (s : State) (d : DieId) (c : Nat) : Bool :=
  (getGeo s d).passes.any (fun p => p.ctx == c && !p.done && !p.aborted && (p.phase == 2 || p.phase == 3) && decide (d ∈ litOf p))

/-- The pass whose group a dispatch is, where it still runs. -/
def passOfDisp (s : State) (d : DieId) (x : Dispatch) : Option GeoPass := x.geo.bind (fun w => passBySub s d w.sub)

end Sys2Proof.Machine
end

