-- ==== Sys2Proof/Machine/Residency.lean ====
section
/-! DEFINITION. Residency (05): slots and shares, loads and saves, the stop bath, starvation and auto-evict, the residency
commands, and what a dispatch's end does (R117 to R136). -/

namespace Sys2Proof.Machine

/-! ### Dispatches -/

/-- Groups of a context on a die. -/
def ctxGroups (s : State) (d : DieId) (c : Nat) : List (Nat × Group) :=
  (getCores s d).groups.filter (fun e => groupCtx s d e.2 == some c)

/-- Blocks of a dispatch in its grid. -/
def gridBlocks (x : Dispatch) : Nat := x.gx * x.gy * x.gz

/-- Whether a context has blocks waiting for placement on a die, or tiles of a pass (R243). -/
def blocksWait (s : State) (d : DieId) (c : Nat) : Bool :=
  (getCores s d).dispatches.any (fun e => e.2.ctx == c && !e.2.dead && decide (e.2.placed < gridBlocks e.2)) || passWorks s d c

/-- A dispatch removed: finished, or stopped (R101, R121). A group of a render pass is no operation of its own: its pass is (R243). -/
def endDispatch (s : State) (d : DieId) (i : Nat) (good : Bool) : State :=
  match dispOf s d i with
  | none => s
  | some x =>
    let s1 := setCores s d { getCores s d with dispatches := mdel (getCores s d).dispatches i }
    if x.geo.isSome then s1
    else if good then opFinish s1 d x.queue x.count x.fence x.fencePa x.value x.pins else opStop s1 d x.queue x.count x.pins

/-- A dispatch with nothing left on the cores: finished when every block has ended, or stopped when it has faulted. -/
def settleDisp (s : State) (d : DieId) (i : Nat) : State :=
  match dispOf s d i with
  | none => s
  | some x =>
    if (getCores s d).blocks.any (fun b => b.2.disp == i) then s
    else if x.dead then endDispatch s d i false
    else if x.ended = gridBlocks x then endDispatch s d i true
    else s

/-! ### Slot states (Table 5.1) -/

/-- Whether a path of a group can issue (R152). -/
def pathIssues : PathEntry → Bool
  | .path _ _ _ none => true
  | _ => false

/-- Whether a group is able to issue: not stopped, asleep, ended or stalled, with a path that can issue. -/
def ableGroup (g : Group) : Bool := !g.stopped && g.sleepUntil.isNone && !g.waiting && g.paths.any pathIssues

/-- The state a slot takes from its context's groups and waiting blocks (Table 5.1). -/
def refreshSlot (s : State) (d : DieId) (c : Nat) : State :=
  match slotHolding s d c with
  | none => s
  | some i =>
    let x := slotOf s d i
    if x.state = .active ∨ x.state = .blocked ∨ x.state = .idle then
      let gs := (ctxGroups s d c).filter (fun e => !e.2.paths.isEmpty)
      let st : SlotState :=
        if blocksWait s d c || gs.any (fun e => ableGroup e.2) then .active else if gs.isEmpty then .idle else .blocked
      if st = x.state then s else setSlot s d i { x with state := st, since := s.now }
    else s

/-! ### Shares (R117, R118) -/

/-- Sum of a share over the contexts that hold slots of a die, but for those in `skip`. -/
def shareSum (s : State) (d : DieId) (skip : List Nat) (f : Ctx → Nat) : Nat :=
  (((getCores s d).slots.filter (fun x => !(x.state == .free) && !(x.ctx ∈ skip))).map (fun x => f (ctxOf s d x.ctx))).sum

/-- Slots of a die that a tenant holds, but for contexts in `skip`. -/
def tenantSlots (s : State) (d : DieId) (skip : List Nat) (t : Nat) : Nat :=
  ((getCores s d).slots.filter (fun x => !(x.state == .free) && !(x.ctx ∈ skip) && (ctxOf s d x.ctx).tenant == t)).length

/-- Whether context `c` could be made resident once the contexts of `skip` had left their slots (R117). -/
def fitsDie (s : State) (d : DieId) (c : Nat) (skip : List Nat) : Bool :=
  let x := ctxOf s d c
  decide (shareSum s d skip (fun y => y.regShare) + x.regShare ≤ 96)
    && decide (shareSum s d skip (fun y => y.tileShare) + x.tileShare ≤ 64)
    && (getCores s d).slots.any (fun y => y.state == .free || y.ctx ∈ skip)

/-- The conditions of R117 that no release can change. -/
def mayReside (s : State) (d : DieId) (c : Nat) : Bool :=
  let x := ctxOf s d c
  x.state == .live && x.dieMask.testBit d.val && !holdsSlot s d c

/-- IDLE slots of other contexts, oldest first (R124). -/
def idleOthers (s : State) (d : DieId) (c : Nat) : List Nat :=
  let idle := (countUp 0 48).filter (fun i => (slotOf s d i).state == .idle && !((slotOf s d i).ctx == c))
  sortBy (fun i j => decide ((slotOf s d i).since ≤ (slotOf s d j).since)) idle

/-- The IDLE slots that a load of `c` releases: as few as it needs, oldest first, none where it would not fit (R124). -/
def releasesFor (s : State) (d : DieId) (c : Nat) : Option (List Nat) :=
  let idle := idleOthers s d c
  ((countUp 0 (idle.length + 1)).map (fun n => idle.take n)).find?
    (fun l => fitsDie s d c (l.map (fun i => (slotOf s d i).ctx)))

/-- Whether a register word's key lies in a context's share of a core that `p` names. -/
def vrfIn (c : Nat) (p : Nat → Bool) (key : Nat) : Bool := key / 2 ^ 17 / 32 == c && p (key / 2 ^ 17 % 32)

/-- Whether a tile byte's key lies in a context's share of a core that `p` names. -/
def tileIn (c : Nat) (p : Nat → Bool) (key : Nat) : Bool := key / 2 ^ 18 / 32 == c && p (key / 2 ^ 18 % 32)

/-- Vector registers and tile memory of a context dropped on the cores that `p` names (R118). -/
def clearShare (s : State) (d : DieId) (c : Nat) (p : Nat → Bool) : State :=
  let k := getCores s d
  setCores s d { k with vrf := k.vrf.filter (fun e => !vrfIn c p e.1), tile := k.tile.filter (fun e => !tileIn c p e.1) }

/-- A near cache emptied, fills in flight delivered but not installed, prefetches dropped (R165). -/
def invalidateNear (n : NearCache) : NearCache :=
  { lines := [], fills := (n.fills.filter (fun f => !f.prefetch)).map (fun f => { f with noInstall := true }) }

/-- The near caches of the cores that `p` names invalidated. -/
def invalidateCores (s : State) (d : DieId) (p : Nat → Bool) : State :=
  let k := getCores s d
  let empty : NearCache := { lines := [], fills := [] }
  let near := k.near.map (fun e => if p e.1 then (e.1, invalidateNear e.2) else e)
  setCores s d { k with near := near.filter (fun e => !(e.2 == empty)) }

/-- Waiting dispatches of a context end with CONTEXT_FAULT (R128): those with nothing placed. A pass whose groups wait is aborted with them
(R241). -/
def endWaiting (s : State) (d : DieId) (c : Nat) (all : Bool) : State :=
  let s1 := ((getCores s d).dispatches.filter (fun e => e.2.ctx == c && (all || e.2.placed == 0))).foldl (fun t e =>
    endDispatch (match passOfDisp t d e.2 with | some p => if p.aborted then t else markAborted t p | none => t) d e.1 false) s
  ((getGeo s1 d).passes.filter (fun p => p.ctx == c && passWorks s1 d c && !p.aborted && !p.done)).foldl markAborted s1

/-- The waiting dispatches of a context that can never be loaded again end on every die (R128): those at the engines of the die where the
check failed, and on the others those of a die where it holds no slot. -/
def endWaitingAll (s : State) (d : DieId) (c : Nat) : State :=
  allDies.foldl (fun t n => if n = d ∨ ¬ holdsSlot t n c then endWaiting t n c true else t) s

/-- Whether SAVE[n] of a context is legal on its die (R128). -/
def saveLegal (s : State) (d : DieId) (c : Nat) : Bool :=
  let a := lget 0 (ctxOf s d c).save d.val
  a % 2 ^ 25 == 0 && decide ((a / 2 ^ 33) % 4 = d.val)

/-- A load begins: IDLE slots are released, and a slot is LOADING (R118, R124, R128). An unlawful save area faults the
context. -/
def beginLoad (s : State) (d : DieId) (c : Nat) (rel : List Nat) : State :=
  if ¬ saveLegal s d c then endWaitingAll (faultContext s d c) d c
  else
    let s1 := rel.foldl (fun t i => setResid (setSlot t d i slotFree) d (slotOf t d i).ctx .none) s
    match (countUp 0 48).find? (fun i => (slotOf s1 d i).state == .free) with
    | some i =>
      let auto := match (getCores s1 d).auto with | some a => if a = c then some s.now else none | none => none
      let s2 := setSlot s1 d i { state := .loading, ctx := c, since := s.now, autoAt := auto, discard := false, byAuto := false, owed := false }
      invalidateCores (setResid s2 d c .resident) d (fun _ => true)
    | none => s

/-- Whether a context has work waiting for a die (R132): a dispatch waits, or its residency state is SAVED. -/
def workWaits (s : State) (d : DieId) (c : Nat) : Bool :=
  residShown s d c == .saved || (!holdsSlot s d c && blocksWait s d c)

/-- Whether a context can be loaded now (R117, R124, R130). -/
def loadable (s : State) (d : DieId) (c : Nat) : Bool :=
  let x := ctxOf s d c
  match releasesFor s d c with
  | some rel => mayReside s d c && savedLit s d c
      && decide (tenantSlots s d (rel.map (fun i => (slotOf s d i).ctx)) x.tenant < (tenantOf s d x.tenant).maxSlots)
  | none => false

/-- Whether an auto-evict decision reserves the next load for another context (R133). -/
def autoFirst (s : State) (d : DieId) (c : Nat) : Bool :=
  match (getCores s d).auto with
  | some a => !(a == c) && workWaits s d a && loadable s d a
  | none => false

/-- CONTEXT_LOAD (R124): a context with work waiting is loaded where R117 lets it be; the candidate of an auto-evict decision goes first
(R133). -/
def execContextLoad (d : DieId) (c : W16) (s : State) : Host.Outcome State Fault Refusal :=
  let n := c.toNat
  match releasesFor s d n with
  | some rel =>
    event (dieRuns s d && awake s d && workWaits s d n && loadable s d n && !autoFirst s d n) s (beginLoad s d n rel)
  | none => ok s

/-- An auto-evict decision is over (R133): its eviction has ended, and its candidate is loaded or cannot be. -/
def settleAuto (s : State) (d : DieId) : State :=
  let k := getCores s d
  match k.auto with
  | some c =>
    let loading := match slotHolding s d c with | some i => (slotOf s d i).state == .loading | none => workWaits s d c && loadable s d c
    if k.slots.any (fun x => x.byAuto) || loading then s else setCores s d { k with auto := none }
  | none => s

/-- A slot whose load has ended: an owed stop begins (R131); otherwise it is ACTIVE, BLOCKED or, with no group and no waiting block, IDLE,
as Table 5.1 means these states; its row for ACTIVE does not say what a load without work enters (DESIGN CHOICE, log 49). -/
def endLoad (s : State) (d : DieId) (i : Nat) : State :=
  let x := slotOf s d i
  settleAuto (if x.owed then setSlot s d i { x with state := .stopping, owed := false, since := s.now }
    else refreshSlot (setSlot s d i { x with state := .idle, since := s.now }) d x.ctx) d

/-- What a restore puts back (R130): the images of the cores written, and the blocks and groups, whose counters are zero (R159). -/
def restoreCtx (s : State) (d : DieId) (c : Nat) (v : Saved) : State :=
  let t := clearShare s d c (fun _ => true)
  let k := getCores t d
  let wake (g : Group) : Group := { g with stopped := false, waiting := false, sleepUntil := none, active := false, since := s.now, unable := none }
  setCores t d { k with saved := mdel k.saved c, vrf := v.vrf.foldl (fun m e => mins m e.1 e.2) k.vrf,
                        tile := v.tile.foldl (fun m e => mins m e.1 e.2) k.tile,
                        blocks := v.blocks.foldl (fun m e => mins m e.1 e.2) k.blocks,
                        groups := v.groups.foldl (fun m e => mins m e.1 (wake e.2)) k.groups }

/-- The class of a group (R122). -/
def groupPrio (s : State) (d : DieId) (g : Group) : Nat :=
  match groupCtx s d g with
  | some c => (ctxOf s d c).prio
  | none => 0

/-- Key of `Cores.served`: core, quarter and class. -/
def servedKey (m q p : Nat) : Nat := (m * 4 + q) * 4 + p

/-- The longest waiting of some groups. -/
def longestWaiting (l : List (Nat × Group)) : Option (Nat × Group) :=
  l.foldl (fun b e =>
    match b with
    | none => some e
    | some y => if e.2.since < y.2.since then some e else b) none

/-- The group that takes a free place in quarter `q` of core `m` (R122, R147): of the highest class, of the context whose turn it is in the
rotation of that class, and of that context's groups the one that has waited longest; a group that left its place in this very instant comes
after those that wait. The rotation goes by context number, which the spec leaves open (DESIGN CHOICE, log 50). -/
def nextActive (s : State) (d : DieId) (m q : Nat) (cands : List (Nat × Group)) : Option (Nat × Group) :=
  let p := cands.foldl (fun b e => max b (groupPrio s d e.2)) 0
  let high := cands.filter (fun e => groupPrio s d e.2 == p)
  let top := match high.filter (fun e => decide (e.2.since < s.now)) with | [] => high | l => l
  let ctx (e : Nat × Group) : Nat := (groupCtx s d e.2).getD 0
  let last := mget 0 (getCores s d).served (servedKey m q p)
  let turn := match top.filter (fun e => decide (last ≤ ctx e)) with | [] => top | l => l
  let c := turn.foldl (fun b e => min b (ctx e)) (2 ^ 16)
  longestWaiting (turn.filter (fun e => ctx e == c))

/-- A group of the active set as R147 leaves it: out at once where no path of it can issue (it waits at barriers, or has ended), and with
the time since when it has been unable to issue. -/
def settleActive (now : Nat) (g : Group) : Group :=
  if ¬ g.active then g
  else if ¬ g.paths.any pathIssues ∨ g.stopped ∨ g.sleepUntil.isSome then { g with active := false, since := now, unable := none }
  else if ableGroup g then { g with unable := none }
  else { g with unable := some (g.unable.getD now) }

/-- The active set of quarter `q` of core `m` filled: at most 8 (R122, R146, R147). `served` keeps the context after the one served. -/
def fillActive (d : DieId) (m q : Nat) : Nat → State → State
  | 0, s => s
  | f + 1, s =>
    let here := (getCores s d).groups.filter (fun e => e.2.quarter == q && groupCore s d e.2 == m)
    if 8 ≤ (here.filter (fun e => e.2.active)).length then s
    else
      match nextActive s d m q (here.filter (fun e => !e.2.active && ableGroup e.2)) with
      | none => s
      | some (gid, g) =>
        let s1 := modGroup s d gid (fun x => { x with active := true, since := s.now, unable := none })
        let k := getCores s1 d
        fillActive d m q f (setCores s1 d
          { k with served := mput 0 k.served (servedKey m q (groupPrio s d g)) ((groupCtx s d g).getD 0 + 1) })

/-- A quarter's active set after a change of its groups (R147). -/
def fillQuarter (d : DieId) (m q : Nat) (s : State) : State :=
  let k := getCores s d
  let gs := mmap (fun _ g => if g.quarter = q ∧ groupCore s d g = m then settleActive s.now g else g) k.groups
  fillActive d m q 8 (setCores s d { k with groups := gs })

/-- The active sets of a core. -/
def fillCore (s : State) (d : DieId) (m : Nat) : State := (countUp 0 4).foldl (fun u q => fillQuarter d m q u) s

/-- The active sets of a die. -/
def fillCores (s : State) (d : DieId) : State := (countUp 0 32).foldl (fun u m => fillCore u d m) s

/-- CONTEXT_LOAD_DONE (R118, R119, R128, R130): the load of a slot ends. A context with a saved area whose check value holds is restored on
the cores that its die record names; one whose check fails is FAULTED, with a SAVE_CORRUPT entry and a cleared share. -/
def execContextLoadDone (d : DieId) (slot : Fin 48) (s : State) : Host.Outcome State Fault Refusal :=
  let x := slotOf s d slot.val
  let c := x.ctx
  if x.state ≠ .loading ∨ ¬ savedLit s d c then ok s
  else
    match mfind (getCores s d).saved c with
    | none => ok (endLoad (clearShare s d c (fun _ => true)) d slot.val)
    | some v =>
      let s1 := v.area.foldl (fun t e => if e.1 % 128 = 0 then noteRead t e.1 1 else t) s
      if v.area.all (fun e => memByte s1 e.1 == e.2 && !poisonAt s1 e.1) then ok (fillCores (endLoad (restoreCtx s1 d c v) d slot.val) d)
      else
        let t := dropSaved (clearShare s1 d c (fun _ => true)) d c
        let t1 := logEntry t d { code := 0x0304, kind := 0x02, index := 1, tenant := some (ctxOf s d c).tenant, ctx := some c,
                                 detail := detV c v.base, addr := v.base }
        ok (endLoad (endWaitingAll (faultContext t1 d c) d c) d slot.val)

/-! ### The stop bath, saves and discards (R125 to R131) -/

/-- STOP_BATH (R125): every group of a slot that is STOPPING ceases issue at its present instruction. -/
def execStopBath (d : DieId) (slot : Fin 48) (s : State) : Host.Outcome State Fault Refusal :=
  let x := slotOf s d slot.val
  let k := getCores s d
  let stop (g : Group) : Group :=
    { g with stopped := true, active := false, sleepUntil := none, waiting := false, unable := none, part := none }
  event (x.state == .stopping) s
    (fillCores (setCores s d { k with groups := mmap (fun _ g => if groupCtx s d g = some x.ctx then stop g else g) k.groups }) d)

/-- Whether a group has no counted operation in flight. -/
def drained (g : Group) : Bool := g.vq.isEmpty && g.sq.isEmpty && g.tq.isEmpty && g.mq.isEmpty

/-- A group's vector register word: the key of context, core, quarter and word of the quarter's share. -/
def vrfKey (c core quarter word : Nat) : Nat := ((c * 32 + core) * 4 + quarter) * 2 ^ 15 + word

/-- A tile byte: the key of context, core and byte of the core's share. -/
def tileKey (c core byte : Nat) : Nat := (c * 32 + core) * 2 ^ 18 + byte

/-- The bytes of a core image: the register share quarter by quarter, then the tile share at 0x6_0000 (R127). -/
def coreImage (s : State) (d : DieId) (c m base : Nat) : List Host.Cell :=
  let x := ctxOf s d c
  let k := getCores s d
  let quarter (q : Nat) : List Byte := (countUp 0 (x.regShare * 256)).flatMap (fun w => natLe 4 (mget 0 k.vrf (vrfKey c m q w)).toNat)
  cellsAt base ((countUp 0 4).flatMap quarter)
    ++ cellsAt (base + 0x60000) ((countUp 0 (x.tileShare * 4096)).map (fun b => mget 0 k.tile (tileKey c m b)))

/-- The save area's bytes (R127): the die record, whose format is the device's own, and the image of each lit core. -/
def saveArea (s : State) (d : DieId) (c : Nat) (cores : List Nat) (base : Nat) : List Host.Cell :=
  cellsAt base ((countUp 0 65536).map (Config.recordByte s.freeCtr))
    ++ cores.flatMap (fun m => coreImage s d c m (base + 0x10000 + m * 0xA0000))

/-- STOP_BATH_DONE (R125, R131): every group is stopped and drained; the slot is FREE after a discard and SAVING in an
eviction. -/
def execStopBathDone (d : DieId) (slot : Fin 48) (s : State) : Host.Outcome State Fault Refusal :=
  let x := slotOf s d slot.val
  let gs := ctxGroups s d x.ctx
  if x.state = .stopping ∧ gs.all (fun e => e.2.stopped && drained e.2) then
    if x.discard then
      let s1 := dropCtxWork s d x.ctx
      let s2 := dropSaved (setResid (setSlot s1 d slot.val slotFree) d x.ctx .none) d x.ctx
      ok (settleAuto (endWaiting s2 d x.ctx true) d)
    else ok (setSlot s d slot.val { x with state := .saving, since := s.now })
  else ok s

/-- SAVE_DONE (R127): the last byte of the save area is written; the slot is FREE and the context SAVED. -/
def execSaveDone (d : DieId) (slot : Fin 48) (s : State) : Host.Outcome State Fault Refusal :=
  let x := slotOf s d slot.val
  let c := x.ctx
  if x.state ≠ .saving then ok s
  else
    let cores := (countUp 0 32).filter (coreLit s d)
    let named (m : Nat) : Bool := m ∈ cores
    let base := lget 0 (ctxOf s d c).save d.val
    let area := saveArea s d c cores base
    let k := getCores s d
    let v : Saved := { blocks := k.blocks.filter (fun e => (blockDisp s d e.2).map (fun y => y.ctx) == some c),
                       groups := k.groups.filter (fun e => groupCtx s d e.2 == some c),
                       vrf := k.vrf.filter (fun e => vrfIn c named e.1), tile := k.tile.filter (fun e => tileIn c named e.1),
                       cores := cores, area := area, base := base }
    let s1 := clearShare (dropCtxWork s d c) d c (fun _ => true)
    let s2 := setCores s1 d { getCores s1 d with saved := mins k.saved c v }
    ok (useFree (settleAuto (writeCells (setResid (setSlot s2 d slot.val slotFree) d c .saved) area) d))

/-- An eviction begins (R127, R131): one that already runs is not repeated. -/
def beginEvict (s : State) (d : DieId) (i : Nat) (byAuto : Bool) : State :=
  let x := slotOf s d i
  if x.state = .stopping ∨ x.state = .saving ∨ x.state = .free ∨ x.state = .loading then s
  else setSlot s d i { x with state := .stopping, discard := false, since := s.now, byAuto := byAuto }

/-! ### Starvation (R132 to R134) -/

/-- Contexts with work waiting for a die. -/
def waitingCtxs (s : State) (d : DieId) : List Nat :=
  let k := getCores s d
  let cs := k.dispatches.map (fun e => e.2.ctx) ++ k.saved.map (fun e => e.1)
  sortBy (fun a b => decide (a ≤ b)) ((cs.foldl (fun l c => if c ∈ l then l else l ++ [c]) []).filter (workWaits s d))

/-- The starved condition of R132. -/
def starvedCond (s : State) (d : DieId) : Bool :=
  let held := (getCores s d).slots.filter (fun x => !(x.state == .free))
  !held.isEmpty && held.all (fun x => x.state == .blocked || x.byAuto) && (waitingCtxs s d).any (fun c => !loadable s d c)

/-- The waiting context of highest class. -/
def topWaiting (s : State) (d : DieId) : Nat :=
  let cs := (waitingCtxs s d).filter (fun c => !loadable s d c)
  cs.foldl (fun b c => if (ctxOf s d b).prio < (ctxOf s d c).prio then c else b) (cs.headD 0)

/-- SLOT_STARVED (R132): starvation has held for 100 us without a break. -/
def execSlotStarved (d : DieId) (s : State) : Host.Outcome State Fault Refusal :=
  let k := getCores s d
  match k.starvedSince with
  | some t =>
    event (starvedCond s d && !k.starved && decide (t + 100000 ≤ s.now)) s
      (logEntry (setCores s d { k with starved := true }) d
        { code := 0x0303, kind := 0x0D, detail := detV d.val (topWaiting s d) })
  | none => ok s

/-- Whether a run list's entry names a context that may be loaded on the die now (R134). -/
def listNames (s : State) (d : DieId) (t : Nat) (e : List Byte) : Bool :=
  let c := leAt e 0 2
  let x := ctxOf s d c
  decide (leAt e 2 1 < 16) && zeroAt e 3 5 && (leAt e 2 1).testBit d.val && x.dieMask.testBit d.val && x.state == .live && x.tenant == t
    && workWaits s d c

/-- Entries `ps` of the run list at `pa`, those that name a context with their positions; none where a read fails (R449). -/
def listEntries (d : DieId) (t pa : Nat) : List Nat → State → List (Nat × Nat) → List (Nat × Nat) × State
  | [], s, acc => (acc, s)
  | i :: r, s, acc =>
    match readFor s d (pa + 8 + 8 * i) 8 with
    | (some e, s1) => listEntries d t pa r s1 (if listNames s1 d t e then acc ++ [(leAt e 0 2, i)] else acc)
    | (none, s1) => ([], s1)

/-- A tenant's run list, read anew: the contexts it names for the die with their positions, none where it cannot be read (R134, R449). -/
def runList (s : State) (d : DieId) (t : Nat) : List (Nat × Nat) × State :=
  let pa := (tenantOf s d t).runList
  if pa = 0 then ([], s)
  else
    match readFor s d pa 8 with
    | (none, s1) => ([], s1)
    | (some h, s1) => listEntries d t pa (countUp 0 (min (leAt h 0 2) 256)) s1 []

/-- Tenants that have asked for auto-evict and are not being reset (R133, R418). -/
def autoTenants (s : State) (d : DieId) : List Nat :=
  (countUp 0 16).filter (fun t => (tenantOf s d t).autoEvict && (tenantOf s d t).state == .enabled)

/-- The candidate of R133: highest class, then run-list position, then tenant number. -/
def autoCandidate (s : State) (d : DieId) : Option Nat × State :=
  let all := (autoTenants s d).foldl (fun (acc : List (Nat × Nat) × State) t =>
    let l := runList acc.2 d t
    (acc.1 ++ l.1, l.2)) ([], s)
  ((all.1.foldl (fun (b : Option (Nat × Nat)) x =>
    match b with
    | none => some x
    | some y =>
      let p := (ctxOf s d x.1).prio
      let q := (ctxOf s d y.1).prio
      if q < p ∨ (q = p ∧ x.2 < y.2) then some x else b) none).map (fun x => x.1), all.2)

/-- The victim of R133: BLOCKED longest among those that qualify. -/
def autoVictim (s : State) (d : DieId) (cand : Nat) : Option Nat :=
  let cx := ctxOf s d cand
  let full := decide ((tenantOf s d cx.tenant).maxSlots ≤ tenantSlots s d [] cx.tenant)
  let quals := (countUp 0 48).filter (fun i =>
    let x := slotOf s d i
    let v := ctxOf s d x.ctx
    x.state == .blocked && v.tenant ∈ autoTenants s d && !v.noEvict && decide (v.prio ≤ cx.prio)
      && (match x.autoAt with | some t => decide (t + 1000000 ≤ s.now) | none => true) && (!full || v.tenant == cx.tenant))
  quals.foldl (fun (b : Option Nat) i =>
    match b with
    | none => some i
    | some j => if (slotOf s d i).since < (slotOf s d j).since then some i else b) none

/-- AUTO_EVICT_DECISION (R133): one decision while starvation continues and no eviction of its own runs. -/
def execAutoEvictDecision (d : DieId) (s : State) : Host.Outcome State Fault Refusal :=
  let k := getCores s d
  if ¬ k.starved ∨ k.slots.any (fun x => x.byAuto) then ok s
  else
    match autoCandidate s d with
    | (none, s1) => ok s1
    | (some c, s1) =>
      match autoVictim s1 d c with
      | none => ok s1
      | some i =>
        let s2 := beginEvict s1 d i true
        ok (setCores s2 d { getCores s2 d with auto := some c })

/-! ### Residency commands (R135) -/

/-- CTX_RES_RESULT (Table 5.8). -/
def resDone (s : State) (n : DieId) (c status : Nat) : State :=
  let sl := slotHolding s n c
  let st := match sl with
    | some i => (match (slotOf s n i).state with
      | .free => 0 | .loading => 1 | .active => 2 | .blocked => 3 | .idle => 4 | .stopping => 5 | .saving => 6)
    | none => 0
  let r := match residShown s n c with | .none => 0 | .saved => 1 | .resident => 2 | .held => 3
  let h := getHregs s 0
  setHregs s 0 { h with ctxResResult := cmdResult h.ctxResResult status
                          [(c, 24), (n.val, 40), (sl.getD 63, 42), (st, 48), (r, 52)] }

/-- CTX_RES_CMD LOAD (R135). A context that already holds a slot on the die is BAD_STATE. -/
def cmdResLoad (s : State) (n : DieId) (c : Nat) : State :=
  let x := ctxOf s 0 c
  if x.state ≠ .free ∧ resettingTenant s x.tenant then resDone s n c 5
  else
    match releasesFor s n c with
    | some rel =>
      if ¬ (mayReside s n c && savedLit s n c && awake s n) then resDone s n c 1
      else if (tenantOf s n x.tenant).maxSlots ≤ tenantSlots s n (rel.map (fun i => (slotOf s n i).ctx)) x.tenant then resDone s n c 2
      else resDone (beginLoad s n c rel) n c 0
    | none =>
      if mayReside s n c && decide ((tenantOf s n x.tenant).maxSlots ≤ tenantSlots s n [] x.tenant) then resDone s n c 2
      else resDone s n c 1

/-- CTX_RES_CMD EVICT (R131, R135). -/
def cmdResEvict (s : State) (n : DieId) (c : Nat) : State :=
  if (ctxOf s 0 c).state ≠ .free ∧ resettingTenant s (ctxOf s 0 c).tenant then resDone s n c 5
  else
    match slotHolding s n c with
    | some i =>
      let x := slotOf s n i
      if x.state = .loading then resDone (setSlot s n i { x with owed := true }) n c 0
      else if x.discard then resDone s n c 1
      else resDone (beginEvict s n i false) n c 0
    | none => resDone s n c 1

/-- RES_LOAD (R135). -/
def execResLoad (d target : DieId) (c : W16) (s : State) : Host.Outcome State Fault Refusal :=
  d0Command s d 4 (fun t => cmdResLoad t target c.toNat)

/-- RES_EVICT (R135). -/
def execResEvict (d target : DieId) (c : W16) (s : State) : Host.Outcome State Fault Refusal :=
  d0Command s d 4 (fun t => cmdResEvict t target c.toNat)

/-- RES_QUERY (R135). -/
def execResQuery (d target : DieId) (c : W16) (s : State) : Host.Outcome State Fault Refusal :=
  d0Command s d 4 (fun t => resDone t target c.toNat 0)

/-- CTX_RES_STATUS (Table 5.9). -/
def resStatusReg (s : State) : W64 :=
  packFields (allDies.flatMap (fun n =>
    let k := getCores s n
    [(if awake s n then (k.slots.filter (fun x => x.state == .free)).length else 0, 16 * n.val), (b2n k.starved, 16 * n.val + 6),
     (b2n k.auto.isSome, 16 * n.val + 7)]))

/-- CLUSTER_DRAIN_TIMEOUT (R136): 1 ms after placement on the cluster stopped, every context with a group left on its cores is
evicted. -/
def execClusterDrainTimeout (d : DieId) (cl : Fin 8) (s : State) : Host.Outcome State Fault Refusal :=
  let l := getLamp s d
  match l.draining with
  | some (c, t, false) =>
    if c = cl.val ∧ t + 1000000 ≤ s.now then
      let busy := (countUp 0 48).filter (fun i =>
        let x := slotOf s d i
        !(x.state == .free) && (getCores s d).blocks.any (fun b =>
          b.2.core / 4 == c && (blockDisp s d b.2).map (fun y => y.ctx) == some x.ctx))
      ok (busy.foldl (fun t i => beginEvict t d i false) (setLamp s d { l with draining := some (c, t, true) }))
    else ok s
  | _ => ok s

end Sys2Proof.Machine
end

