-- ==== Sys2Proof/Machine/Groups.lean ====
section
/-! DEFINITION. Dispatches and placement (05, 06; R120, R121, R140 to R145), the active set (R146, R147), the path table (R149 to
R152), barriers (R154 to R156), core faults (R169), the near cache (R160 to R165) and the counted operations (R157, R158). -/

namespace Sys2Proof.Machine

/-! ### Acceptance of a dispatch (R120, R140, R209, R210) -/

/-- The fields of a kernel header, or none where it fails Table 8.4 or Table 6.3: width, VREGS, GROUPS, ORPHAN_LOG2, TILE_KIB,
ARG_WORDS, ENTRY. -/
structure Kernel where
  width : Nat
  vregs : Nat
  groups : Nat
  orphan : Nat
  tileKib : Nat
  argWords : Nat
  entry : Nat

/-- A kernel header read from its 64 bytes. -/
def kernelOf (b : List Byte) (args : Nat) : Option Kernel :=
  let w := 16 * 2 ^ leAt b 3 1
  let v := leAt b 4 2
  let n := leAt b 6 1
  let o := leAt b 7 1
  let t := leAt b 8 2
  let a := leAt b 0xA 1
  let e := leAt b 0x10 8
  if leAt b 0 2 = 0x574B ∧ leAt b 2 1 = 1 ∧ leAt b 3 1 ≤ 2 ∧ 16 ≤ v ∧ v ≤ 256 ∧ v % 16 = 0 ∧ 1 ≤ n ∧ n ≤ 32 ∧ n * w ≤ 1024
      ∧ (o = 0 ∨ (16 ≤ o ∧ o ≤ 30)) ∧ t ≤ 256 ∧ a ≤ 56 ∧ zeroAt b 0xB 5 ∧ e % 8 = 0 ∧ e < 2 ^ 48 ∧ zeroAt b 0x18 40
      ∧ (a = 0 ∨ args ≠ 0) then
    some { width := w, vregs := v, groups := n, orphan := o, tileKib := t, argWords := a, entry := e }
  else none

/-- Register footprint of one group in bytes (R145). -/
def footprint (k : Kernel) : Nat := k.vregs * k.width * 4 + 1024

/-- Whether one block could stand on a core with the whole share free (R140). -/
def kernelFits (x : Ctx) (k : Kernel) : Bool :=
  decide (ceilDiv k.groups 4 * footprint k ≤ x.regShare * 1024) && decide (k.tileKib ≤ x.tileShare * 4)

/-- Bytes read through pages resolved at acceptance; none where a byte is poisoned or out of reach. -/
def readPages (s : State) (d : DieId) (m : Map Nat) (va n : Nat) : Option (List Byte) :=
  let pas := (countUp va n).map (pageLook m)
  if pas.all (fun p => match p with | some a => reach s d (dieOf a) && !poisonAt s a | none => false) then
    some (pas.map (fun p => match p with | some a => memByte s a | none => 0))
  else none

/-- A CMP engine takes the dispatch at the head of its submission queue (R100, R120, R140). -/
def acceptDispatch (s : State) (d : DieId) (e : Nat) (x : Submission) : State :=
  let b := x.desc
  let c := subCtx s d x
  let kv := leAt b 0x10 8
  let av := leAt b 0x18 8
  if 2 ^ 48 ≤ kv ∨ kv % 64 ≠ 0 ∨ 2 ^ 48 ≤ av ∨ av % 8 ≠ 0 ∨ leAt b 0x20 4 = 0 ∨ leAt b 0x24 2 = 0 ∨ leAt b 0x26 2 = 0
      ∨ ¬ zeroAt b 0x29 23 then rejectMalformed s d e x 0x0301 0
  else
    match translateRange s d c kv 64 {} with
    | (.error (va, f), s1) => rejectXlate s1 d e x va f
    | (.ok (km, ko), s1) =>
      match (readPages s1 d km kv 64).bind (fun h => kernelOf h av) with
      | none => rejectMalformed s1 d e x 0x0301 0
      | some k =>
        if ¬ kernelFits (ctxOf s1 d c) k then rejectMalformed s1 d e x 0x0302 (footprint k)
        else
          match translateRange s1 d c av (8 * k.argWords) {} with
          | (.error (va, f), s2) => rejectXlate s2 d e x va f
          | (.ok (am, ao), s2) =>
            match fenceSide s2 d c b with
            | (.error (va, f), s3) => rejectXlate s3 d e x va f
            | (.ok (hasF, fpa, fo), s3) =>
              let pins := joinObjs (joinObjs ko ao) fo
              if ¬ pinRoom s3 d pins then rejectXlate s3 d e x kv 0x0D
              else
                match readPages s3 d am av (8 * k.argWords) with
                | none => rejectMalformed s3 d e x 0x0301 0
                | some ws =>
                  let y : Dispatch :=
                    { engine := e, ctx := c, tenant := subTenant s3 d x, queue := x.queue, count := x.count, sub := nextCount s3 d e,
                      fencePa := fpa, fence := hasF, value := le64 (b.drop 8), width := k.width, vregs := k.vregs,
                      groups := k.groups, orphanLog2 := k.orphan, tileKib := k.tileKib, entry := k.entry, kernel := kv,
                      args := BitVec.ofNat 64 av, words := (chunksOf 8 56 ws).map le64, gx := leAt b 0x20 4, gy := leAt b 0x24 2,
                      gz := leAt b 0x26 2, clusters := leAt b 0x28 1, placed := 0, ended := 0, started := [], dead := false,
                      pins := pins, geo := none }
                  let s4 := acceptSub s3 d e x pins
                  refreshSlot { setDisp s4 d s4.nextId y with nextId := s4.nextId + 1 } d c

/-! ### Placement (R121, R141, R142) -/

/-- Whether all of a group's lanes have exited. -/
def groupEnded (g : Group) : Bool := g.paths.isEmpty

/-- Whether a group still holds its footprint and its pending-set entry (R143). -/
def holdsRegs (g : Group) : Bool := !(groupEnded g && g.vq.isEmpty && g.tq.isEmpty && g.mq.isEmpty)

/-- The KiB of a dispatch's footprint. -/
def dispKib (x : Dispatch) : Nat := (x.vregs * x.width * 4 + 1024) / 1024

/-- Footprint of a group on the die, as its offset and size in KiB. -/
def groupRun (s : State) (d : DieId) (g : Group) : Nat × Nat :=
  (g.regOff, match (blockOf s d g.block).bind (blockDisp s d) with | some x => dispKib x | none => 0)

/-- Runs taken in quarter `q` of core `m` of a context's share. -/
def quarterRuns (s : State) (d : DieId) (c m q : Nat) : List (Nat × Nat) :=
  ((getCores s d).groups.filter (fun e => e.2.quarter == q && groupCore s d e.2 == m && holdsRegs e.2
    && groupCtx s d e.2 == some c)).map (fun e => groupRun s d e.2)

/-- Groups resident in a quarter, of every context (R146). -/
def quarterCount (s : State) (d : DieId) (m q : Nat) : Nat :=
  ((getCores s d).groups.filter (fun e => e.2.quarter == q && groupCore s d e.2 == m && holdsRegs e.2)).length

/-- The lowest offset at which a run of `n` fits below `cap` beside the runs taken (R142). -/
def lowestFit (runs : List (Nat × Nat)) (n cap : Nat) : Option Nat :=
  let cands := sortBy (fun a b => decide (a ≤ b)) (0 :: runs.map (fun r => r.1 + r.2))
  cands.find? (fun o => decide (o + n ≤ cap) && runs.all (fun r => decide (o + n ≤ r.1) || decide (r.1 + r.2 ≤ o)))

/-- The offsets for groups `k` onward of a block on core `m`, quarter by quarter (R141, R142): quarter and offset each. -/
def allocGroups (s : State) (d : DieId) (x : Dispatch) (m st : Nat) : Nat → Nat → List (Nat × Nat) → Option (List (Nat × Nat))
  | 0, _, acc => some acc
  | n + 1, k, acc =>
    let q := (k + st) % 4
    let mine := (acc.filter (fun a => a.1 == q)).map (fun a => (a.2, dispKib x))
    if 64 ≤ quarterCount s d m q + mine.length then none
    else
      match lowestFit (quarterRuns s d x.ctx m q ++ mine) (dispKib x) (ctxOf s d x.ctx).regShare with
      | some o => allocGroups s d x m st n (k + 1) (acc ++ [(q, o)])
      | none => none

/-- The quarter with the most free bytes of a context's share on a core, the lowest on a tie (R141). -/
def startQuarter (s : State) (d : DieId) (c m : Nat) : Nat :=
  let used (q : Nat) : Nat := ((quarterRuns s d c m q).map (fun r => r.2)).sum
  [1, 2, 3].foldl (fun b q => if used q < used b then q else b) 0

/-- Tile runs of a context on a core, in KiB: those of its blocks and of its tiles in progress (R142, R255). -/
def tileRuns (s : State) (d : DieId) (c m : Nat) : List (Nat × Nat) :=
  ((getGeo s d).passes.filter (fun p => p.ctx == c)).flatMap (fun p =>
    (p.jobs.filter (fun j => j.core == m)).map (fun j => (j.off, j.kib))) ++
  ((getCores s d).blocks.filter (fun e => e.2.core == m && decide (0 < e.2.live) && (blockDisp s d e.2).map (fun x => x.ctx) == some c)).map
    (fun e => (e.2.tileOff, match blockDisp s d e.2 with | some x => x.tileKib | none => 0))

/-- Blocks on core `m` of classes up to `p`. -/
def coreBlocks (s : State) (d : DieId) (m p : Nat) : Nat :=
  ((getCores s d).blocks.filter (fun e => e.2.core == m && decide (0 < e.2.live)
    && (match blockDisp s d e.2 with | some x => decide ((ctxOf s d x.ctx).prio ≤ p) | none => false))).length

/-- Whether a block of class `p` has a block slot on core `m` (R121). -/
def slotRoom (s : State) (d : DieId) (m p : Nat) : Bool :=
  decide (coreBlocks s d m 3 < 32) && (decide (2 < p) || decide (coreBlocks s d m 2 < 28)) && (decide (1 < p) || decide (coreBlocks s d m 1 < 24))

/-- Where a block of a dispatch stands on core `m`: tile offset, quarters and offsets of its groups. -/
def placeOn (s : State) (d : DieId) (x : Dispatch) (m : Nat) : Option (Nat × List (Nat × Nat)) :=
  match allocGroups s d x m (startQuarter s d x.ctx m) x.groups 0 [],
        lowestFit (tileRuns s d x.ctx m) x.tileKib ((ctxOf s d x.ctx).tileShare * 4) with
  | some gs, some t => if slotRoom s d m (ctxOf s d x.ctx).prio then some (t, gs) else none
  | _, _ => none

/-- The core for a dispatch's next block: lit, not draining, allowed, with room; the fewest resident blocks, the lowest number on
a tie (R121, R136). -/
def pickCore (s : State) (d : DieId) (x : Dispatch) : Option (Nat × Nat × List (Nat × Nat)) :=
  let drains (m : Nat) : Bool := match (getLamp s d).draining with | some (c, _, _) => c == m / 4 | none => false
  let ok (m : Nat) : Bool := coreLit s d m && !drains m && (x.clusters == 0 || x.clusters.testBit (m / 4))
  (countUp 0 32).foldl (fun (b : Option (Nat × Nat × List (Nat × Nat))) m =>
    if ok m then
      match placeOn s d x m with
      | some p =>
        match b with
        | some y => if coreBlocks s d m 3 < coreBlocks s d y.1 3 then some (m, p) else b
        | none => some (m, p)
      | none => b
    else b) none

/-- Where the next block of a dispatch may stand: its core, tile offset, quarters and offsets. A fragment group goes to the core of its tile
and works in the tile's run (R255, R256); everything else is placed under R121. -/
def spotFor (s : State) (d : DieId) (x : Dispatch) : Option (Nat × Nat × List (Nat × Nat)) :=
  match x.geo.bind (fun w => w.tile.map (fun t => (w, t))) with
  | none => pickCore s d x
  | some (w, t) =>
    (passBySub s d w.sub).bind (fun p => (p.jobs.find? (fun j => j.tile == t)).bind (fun j =>
      if slotRoom s d j.core (ctxOf s d x.ctx).prio then
        (allocGroups s d x j.core (startQuarter s d x.ctx j.core) x.groups 0 []).map (fun gs => (j.core, j.off, gs))
      else none))

/-- Scalar registers of a group at its start (Table 8.5), with those that a render pass presets (R248, Table 9.9). -/
def startScalars (x : Dispatch) : Map W32 :=
  let put (m : Map W32) (r : Nat) (v : Nat) : Map W32 := mput 0 m r (BitVec.ofNat 32 v)
  let pair (m : Map W32) (r : Nat) (v : Nat) : Map W32 := put (put m r v) (r + 1) (v / 2 ^ 32)
  let m := put (put (pair (pair [] 0 x.args.toNat) 2 x.kernel) 4 x.gx) 5 (x.gy + 65536 * x.gz)
  let m := (countUp 0 x.words.length).foldl (fun m i => pair m (16 + 2 * i) (lget 0 x.words i).toNat) m
  match x.geo with
  | some w => w.scalars.foldl (fun m r => mput 0 m r.1 r.2) m
  | none => m

/-- The lanes of a width whose start a property holds of. -/
def startMask (w : GeoWork) (p : LaneStart → Bool) : Nat :=
  ((w.lanes.zipIdx).filter (fun l => p l.1)).foldl (fun a l => a + 2 ^ l.2) 0

/-- A group at its start (Table 8.5, R248, R260): lanes of a render pass without a vertex or a quad have exited, and helper lanes have their
exec bit clear. -/
def startGroup (x : Dispatch) (b k q off now : Nat) : Group :=
  let all := 2 ^ x.width - 1
  let here := match x.geo with | some w => startMask w (fun l => l.here) | none => all
  let exec := match x.geo with | some w => startMask w (fun l => l.here && l.exec) | none => all
  { block := b, index := k, quarter := q, regOff := off, paths := [.path x.entry here none none], cur := 0, issues := 0,
    exec := exec, exited := all - here, preds := rep 8 0, sregs := startScalars x, flags := 0, active := false, since := now,
    unable := none, lastV := 0, lastS := 0, busy := 0, part := none, sleepUntil := none, stopped := false, waiting := false, vq := [], sq := [], tq := [], mq := [] }

/-- After a change of a group: its quarter's active set and its context's slot (R147, Table 5.1). -/
def afterGroup (s : State) (d : DieId) (g : Group) : State :=
  let s1 := fillQuarter d (groupCore s d g) g.quarter s
  match groupCtx s1 d g with
  | some c => refreshSlot s1 d c
  | none => s1

/-- The dispatch whose block a CMP engine places next: the first it accepted with a block left (R121). -/
def nextDisp (s : State) (d : DieId) (e : Nat) : Option (Nat × Dispatch) :=
  (getCores s d).dispatches.find? (fun x => x.2.engine == e && !x.2.dead && decide (x.2.placed < gridBlocks x.2))

/-- A group's vector register word: the key of context, core, quarter and word of the quarter's share. The first KiB of a footprint holds the
group's scalars. -/
def regKey (c core quarter off width r lane : Nat) : Nat := vrfKey c core quarter (off * 256 + 256 + r * width + lane)

/-- The vector registers that a render pass presets (R248, Table 9.9). -/
def presetRegs (s : State) (d : DieId) (x : Dispatch) (m q o : Nat) : State :=
  match x.geo with
  | none => s
  | some w =>
    let k := getCores s d
    setCores s d { k with vrf := (w.lanes.zipIdx).foldl (fun v l => l.1.regs.foldl (fun v r =>
      mput 0 v (regKey x.ctx m q o x.width r.1 l.2) r.2) v) k.vrf }

/-- Groups of a block placed on core `m` put into the state. -/
def addGroups (d : DieId) (x : Dispatch) (b m : Nat) : List (Nat × Nat) → Nat → State → State
  | [], _, s => s
  | (q, o) :: r, k, s =>
    let t := presetRegs s d x m q o
    addGroups d x b m r (k + 1) { setGroup t d t.nextId (startGroup x b k q o t.now) with nextId := t.nextId + 1 }

/-- Whether a context's slot lets its blocks be placed. -/
def slotOpen (s : State) (d : DieId) (c : Nat) : Bool :=
  match slotHolding s d c with
  | some j => (slotOf s d j).state == .active || (slotOf s d j).state == .blocked || (slotOf s d j).state == .idle
  | none => false

/-- Whether another engine is ready to place a block that goes first (R121): of a higher class, or of the same class at a lower engine. GEO,
which places under the same rule, is engine 0 (R243). -/
def outplaced (s : State) (d : DieId) (e : Nat) (x : Dispatch) : Bool :=
  (countUp 0 5).any (fun n => !(n == e) && (match nextDisp s d n with
    | some (_, y) =>
      let p := (ctxOf s d x.ctx).prio
      let q := (ctxOf s d y.ctx).prio
      slotOpen s d y.ctx && (spotFor s d y).isSome && (decide (p < q) || (p == q && decide (n < e)))
    | none => false))

/-- The next block of dispatch `i` put on core `m`: before the first block of the dispatch issues on the core, the core's near cache is
invalidated (R165). -/
def placeBlock (s : State) (d : DieId) (i : Nat) (x : Dispatch) (m t : Nat) (gs : List (Nat × Nat)) : State :=
  let n := x.placed
  let b := s.nextId
  let blk : Block := { disp := i, x := n % x.gx, y := n / x.gx % x.gy, z := n / x.gx / x.gy, core := m, tileOff := t,
                       live := x.groups, arrivals := [], watch := 0 }
  let s1 := if m ∈ x.started then s else invalidateCores s d (fun k => k == m)
  let y := { x with placed := n + 1, started := if m ∈ x.started then x.started else x.started ++ [m] }
  let s2 := { setBlock (setDisp s1 d i y) d b blk with nextId := b + 1 }
  refreshSlot (fillCore (addGroups d x b m gs 0 s2) d m) d x.ctx

/-- The next block of an engine placed, where R121 lets it be. -/
def placeNext (s : State) (d : DieId) (e : Nat) : State :=
  match nextDisp s d e with
  | none => s
  | some (i, x) =>
    if ¬ slotOpen s d x.ctx ∨ ¬ dieRuns s d ∨ outplaced s d e x then s
    else
      match spotFor s d x with
      | none => s
      | some (m, t, gs) => placeBlock s d i x m t gs

/-- BLOCK_PLACE (R121): a CMP engine places the next block of its dispatch on a core. -/
def execBlockPlace (d : DieId) (cmp : Fin 4) (s : State) : Host.Outcome State Fault Refusal := ok (placeNext s d (1 + cmp.val))

/-! ### The active set (R122, R147) -/

/-- Groups of a quarter that wait outside the active set and could issue. -/
def pendingAble (s : State) (d : DieId) (m q : Nat) : List Group :=
  ((getCores s d).groups.filter (fun e => e.2.quarter == q && groupCore s d e.2 == m && !e.2.active && ableGroup e.2)).map (fun e => e.2)

/-- The active group of a quarter that has held its place longest among those `p` admits. -/
def oldestActive (s : State) (d : DieId) (m q : Nat) (p : Group → Bool) : Option (Nat × Group) :=
  let l := (getCores s d).groups.filter (fun e => e.2.quarter == q && groupCore s d e.2 == m && e.2.active && p e.2)
  l.foldl (fun (b : Option (Nat × Group)) e =>
    match b with
    | none => some e
    | some x => if e.2.since < x.2.since then some e else b) none

/-- A group leaves the active set, and the place is filled. -/
def leaveActive (s : State) (d : DieId) (gid m q : Nat) : State :=
  fillQuarter d m q (modGroup s d gid (fun g => { g with active := false, since := s.now, unable := none }))

/-- QUARTER_PREEMPT (R122): a group of a higher class can issue, and a group of a lower class leaves the full active set. Which of several
leaves the spec does not say: the model takes the lowest class, and in it the group longest in place (DESIGN CHOICE, log 50). -/
def execQuarterPreempt (d : DieId) (core : Fin 32) (quarter : Fin 4) (s : State) : Host.Outcome State Fault Refusal :=
  let best := (pendingAble s d core.val quarter.val).foldl (fun b g => max b (groupPrio s d g + 1)) 0
  match [0, 1, 2].find? (fun p => decide (p + 1 < best) && (oldestActive s d core.val quarter.val (fun g => groupPrio s d g == p)).isSome) with
  | some p =>
    match oldestActive s d core.val quarter.val (fun g => groupPrio s d g == p) with
    | some (gid, _) => ok (leaveActive s d gid core.val quarter.val)
    | none => ok s
  | none => ok s

/-- ACTIVE_SET_ROTATE (R147): a group that has been unable to issue for 32 cycles (30 ns), or that has held its place for 4,096
cycles (3,724 ns) while a group of equal or higher class waits, leaves the active set. -/
def execActiveSetRotate (d : DieId) (core : Fin 32) (quarter : Fin 4) (s : State) : Host.Outcome State Fault Refusal :=
  let waiting := pendingAble s d core.val quarter.val
  let due (g : Group) : Bool :=
    ((match g.unable with | some t => decide (t + 30 ≤ s.now) && !ableGroup g | none => false) && !waiting.isEmpty)
      || (decide (g.since + 3724 ≤ s.now) && waiting.any (fun w => decide (groupPrio s d g ≤ groupPrio s d w)))
  match oldestActive s d core.val quarter.val due with
  | some (gid, _) => ok (leaveActive s d gid core.val quarter.val)
  | none => ok s

/-! ### Paths (R149 to R152) -/

/-- The path table as a step changes it: entries, the current one, and whether that one has gone. -/
structure PathTab where
  ps : List PathEntry
  cur : Nat
  lost : Bool

/-- The entry at an index removed. -/
def PathTab.del (t : PathTab) (i : Nat) : PathTab :=
  { ps := t.ps.take i ++ t.ps.drop (i + 1), cur := if i < t.cur then t.cur - 1 else t.cur, lost := t.lost || i == t.cur }

/-- The index of the next path in table order from `i`, wrapping, that can issue (R152). -/
def nextPath (ps : List PathEntry) (i : Nat) : Option Nat :=
  let n := ps.length
  ((countUp i n).map (fun k => k % n)).find? (fun k => match ps[k]? with | some e => pathIssues e | none => false)

/-- The join entry at an address that expects the lanes `m` (R150): of nested ones the innermost, which stands last. -/
def joinAt (ps : List PathEntry) (j m : Nat) : Option Nat :=
  (countUp 0 ps.length).reverse.find? (fun k => match ps[k]? with | some (.join a x _ _) => a == j && (x &&& m) == m | _ => false)

/-- A join entry whose lanes are all there becomes a path, or goes when no lane is left (R150). -/
def PathTab.settleJoin (t : PathTab) (k : Nat) : PathTab :=
  match t.ps[k]? with
  | some (.join a e r p) =>
    if r ≠ e then t else if r = 0 then t.del k else { t with ps := lset t.ps k (.path a r p none) }
  | _ => t

/-- A path that stands at its join address arrives there (R150). -/
def PathTab.arrive (t : PathTab) (i : Nat) : PathTab :=
  match t.ps[i]? with
  | some (.path pc m (some j) none) =>
    if pc = j then
      match joinAt t.ps j m with
      | some k =>
        match t.ps[k]? with
        | some (.join a e r p) =>
          let t1 : PathTab := { t with ps := lset t.ps k (.join a e (r ||| m) p) }
          (t1.settleJoin k).del i
        | _ => t
      | none => t
    else t
  | _ => t

/-- The current path chosen anew where it has gone or cannot issue; `start` is where the search begins. -/
def PathTab.pick (t : PathTab) : Nat :=
  match t.ps[t.cur]?, t.lost with
  | some e, false => if pathIssues e then t.cur else (nextPath t.ps (t.cur + 1)).getD t.cur
  | _, _ => (nextPath t.ps t.cur).getD 0

/-- Lanes that have exited taken out of every path and every expected mask (R150). -/
def exitEntries (ps : List PathEntry) (m : Nat) : List PathEntry :=
  ps.map (fun e => match e with
    | .path pc k j b => .path pc (k - (k &&& m)) j b
    | .join a x r p => .join a (x - (x &&& m)) (r - (r &&& m)) p)

/-- Paths left with no lanes freed and joins settled, from the last entry down (R150). -/
def sweepPaths : Nat → PathTab → PathTab
  | 0, t => t
  | i + 1, t =>
    match t.ps[i]? with
    | some (.path _ 0 _ _) => sweepPaths i (t.del i)
    | some (.join _ _ _ _) => sweepPaths i (t.settleJoin i)
    | _ => sweepPaths i t

/-- The group with a changed path table; where the current path changes its issues count anew. -/
def withTab (g : Group) (t : PathTab) : Group :=
  let c := t.pick
  { g with paths := t.ps, cur := c, issues := if t.lost || c != g.cur then 0 else g.issues }

/-- The current path of a group: pc, mask, join. -/
def curPath (g : Group) : Option (Nat × Nat × Option Nat) :=
  match g.paths[g.cur]? with
  | some (.path pc m j none) => some (pc, m, j)
  | _ => none

/-- The current path goes to `pc`; at its join address it arrives there. -/
def movePath (g : Group) (pc : Nat) : Group :=
  match g.paths[g.cur]? with
  | some (.path _ m j b) =>
    let t : PathTab := { ps := lset g.paths g.cur (.path pc m j b), cur := g.cur, lost := false }
    withTab g (t.arrive g.cur)
  | _ => g

/-- Another path than the current one can issue. -/
def otherPath (g : Group) : Bool :=
  (countUp 0 g.paths.length).any (fun k => !(k == g.cur) && (match g.paths[k]? with | some e => pathIssues e | none => false))

/-- The current path gives way to the next that can issue (R152). -/
def rotatePath (g : Group) : Group :=
  match nextPath g.paths (g.cur + 1) with
  | some k => { g with cur := k, issues := 0 }
  | none => g

/-- A divergent branch (R149): `f` at `next`, `t` at `target`, join `j`; none where the table is full (R151). -/
def divergePath (g : Group) (f t next target j : Nat) : Option Group :=
  match g.paths[g.cur]? with
  | some (.path _ m cj _) =>
    let fp : PathEntry := .path next f (some j) none
    let tp : PathEntry := .path target t (some j) none
    let kept := if cj = some j then g.paths.take g.cur ++ g.paths.drop (g.cur + 1) else lset g.paths g.cur (.join j m 0 cj)
    let ps := kept ++ [fp, tp]
    if 32 < ps.length then none
    else
      let n := ps.length
      let t0 : PathTab := { ps := ps, cur := n - 2, lost := false }
      let t1 := t0.arrive (n - 1)
      some { withTab g (t1.arrive (n - 2)) with issues := 0 }
  | _ => none

/-! ### Ends, barriers and faults -/

/-- A group with nothing left in flight that has ended goes, and with its last group its block, and with its last block its
dispatch (R143, R121). -/
def sweepGroup (s : State) (d : DieId) (gid : Nat) : State :=
  match groupOf s d gid with
  | none => s
  | some g =>
    if groupEnded g && drained g then
      let k := getCores s d
      let s1 := setCores s d { k with groups := mdel k.groups gid }
      if (getCores s1 d).groups.any (fun e => e.2.block == g.block) then afterGroup s1 d g
      else
        match blockOf s1 d g.block with
        | some b =>
          let k1 := getCores s1 d
          let s2 := settleDisp (setCores s1 d { k1 with blocks := mdel k1.blocks g.block }) d b.disp
          let s3 := fillQuarter d b.core g.quarter s2
          match (dispOf s1 d b.disp) with
          | some x => refreshSlot s3 d x.ctx
          | none => s3
        | none => s1
    else afterGroup s d g

/-- Lanes of a block that wait at barrier `b`. -/
def arrivedAt (s : State) (d : DieId) (blk b : Nat) : Nat :=
  (((getCores s d).groups.filter (fun e => e.2.block == blk)).map (fun e => (e.2.paths.map (fun p =>
    match p with
    | .path _ m _ (some k) => if k = b then popcount 64 m else 0
    | _ => 0)).sum)).sum

/-- Lanes of a block that have exited, those of groups already gone included. -/
def exitedLanes (s : State) (d : DieId) (blk : Nat) (x : Dispatch) : Nat :=
  let gs := (getCores s d).groups.filter (fun e => e.2.block == blk)
  (x.groups - gs.length) * x.width + (gs.map (fun e => popcount 64 e.2.exited)).sum

/-- Whether the current path waits at a barrier. -/
def curWaits (g : Group) : Bool := match g.paths[g.cur]? with | some (.path _ _ _ (some _)) => true | _ => false

/-- A group's paths at barrier `b` resume (R154); one that stands at its join arrives there. Where the current path had arrived, the next in
table order becomes current (R152). -/
def releaseGroup (g : Group) (b : Nat) : Group :=
  let ps := g.paths.map (fun p => match p with
    | .path pc m j (some k) => if k = b then .path pc m j none else p
    | _ => p)
  let t := (countUp 0 ps.length).reverse.foldl (fun (t : PathTab) i => t.arrive i) { ps := ps, cur := g.cur, lost := false }
  if curWaits g && !t.lost then
    match nextPath t.ps (t.cur + 1) with
    | some k => { g with paths := t.ps, cur := k, issues := 0 }
    | none => { g with paths := t.ps, cur := t.cur }
  else withTab g t

/-- Barriers of a block whose arrived and exited lanes make N x W release (R154); the watchdog is reset with the last (R156). -/
def checkBarriers (s : State) (d : DieId) (blk : Nat) : State :=
  match blockOf s d blk with
  | none => s
  | some b =>
    match blockDisp s d b with
    | none => s
    | some x =>
      b.arrivals.foldl (fun t a =>
        if arrivedAt t d blk a + exitedLanes t d blk x = x.groups * x.width then
          let k := getCores t d
          let t1 := setCores t d { k with groups := mmap (fun _ g => if g.block = blk then releaseGroup g a else g) k.groups }
          match blockOf t1 d blk with
          | some y =>
            let left := y.arrivals.filter (fun z => !(z == a))
            let t2 := setBlock t1 d blk { y with arrivals := left, watch := if left.isEmpty then 0 else y.watch }
            let t3 := fillCore t2 d y.core
            refreshSlot t3 d x.ctx
          | none => t1
        else t) s

/-- A group all of whose lanes have exited ends (R143). -/
def endGroup (s : State) (d : DieId) (gid : Nat) (g : Group) : State :=
  let s1 := setGroup s d gid { g with paths := [], active := false }
  let s2 := match blockOf s1 d g.block with
    | some b =>
      let s2 := setBlock s1 d g.block { b with live := b.live - 1 }
      match b.live, dispOf s2 d b.disp with
      | 1, some x => setDisp s2 d b.disp { x with ended := x.ended + 1 }
      | _, _ => s2
    | none => s1
  sweepGroup (checkBarriers s2 d g.block) d gid

/-- Every group of a dispatch is stopped and its state discarded (R169): what it has issued completes. -/
def killDispatch (s : State) (d : DieId) (i : Nat) : State :=
  let k := getCores s d
  let mine (g : Group) : Bool := match blockOf s d g.block with | some b => b.disp == i | none => false
  let stop (g : Group) : Group := { g with stopped := true, active := false, paths := [], sleepUntil := none, waiting := false }
  let gs := mmap (fun _ g => if mine g then stop g else g) k.groups
  let bs := mmap (fun _ (b : Block) => if b.disp = i then { b with live := 0, arrivals := [] } else b) k.blocks
  let s1 := setCores s d { k with groups := gs, blocks := bs }
  let s2 := match dispOf s1 d i with | some x => setDisp s1 d i { x with dead := true } | none => s1
  let ids := (k.groups.filter (fun e => mine e.2)).map (fun e => e.1)
  settleDisp (ids.foldl (fun t g => sweepGroup t d g) s2) d i

/-- The groups of a render pass on a die stopped and discarded (R241). -/
def killPass (s : State) (d : DieId) (sub : Nat) : State :=
  let ids := ((getCores s d).dispatches.filter (fun e => match e.2.geo with | some w => w.sub == sub | none => false)).map (fun e => e.1)
  ids.foldl (fun t i => killDispatch t d i) s

/-- A core fault in a group of a render pass aborts the pass, and with it goes every group that the pass has on the die (R169, R241). -/
def abortFaulted (s : State) (d : DieId) (x : Dispatch) : State :=
  match passOfDisp s d x with
  | some p => if p.aborted then s else markAborted (killPass s d p.sub) p
  | none => s

/-- A core fault (R169): its entry with the `merged` faults of other groups of the dispatch in the same cycle, the context FAULTED, the
dispatch ended; a render pass counts as one dispatch and is aborted. `at_` is the pc of an instruction that faults at its completion. A translation fault is recorded by the die as well (R303).
A dispatch that is dead already has its entry. -/
def coreFault (s : State) (d : DieId) (gid code cause addr : Nat) (detail : Option (List Byte)) (at_ : Option Nat := none)
    (merged : Nat := 0) : State :=
  match groupOf s d gid with
  | none => s
  | some g =>
    match blockOf s d g.block with
    | none => s
    | some b =>
      match blockDisp s d b with
      | none => s
      | some x =>
        if x.dead then s
        else
          let pc := at_.getD (match curPath g with | some p => p.1 | none => 0)
          let gb := g.index + 32 * g.quarter
          let info : LogInfo :=
            { code := code, kind := 0x04, index := b.core, tenant := some x.tenant, ctx := some x.ctx,
              detail := detail.getD (detK pc b.x b.y b.z gb (min merged 255)), addr := addr, pc := pc, bx := b.x, byy := b.y, bz := b.z, group := gb,
              cause := cause, queue := x.queue, sub := x.sub }
          let s1 := if code = 0x0310 ∧ cause < 0x10 then xlateFault s d x.ctx addr cause 0x04 b.core x.queue else s
          abortFaulted (killDispatch (faultContext (logEntry s1 d info) d x.ctx) d b.disp) d x

/-- The faults that one event of a core brings to several groups, each with its pc (R169): for each dispatch the group of the lowest quarter
is recorded, and the others are counted with it. -/
def coreFaults (s : State) (d : DieId) (code cause addr : Nat) (hits : List (Nat × Nat)) : State :=
  let quarter (h : Nat × Nat) : Nat := match groupOf s d h.1 with | some g => g.quarter | none => 0
  let disp (h : Nat × Nat) : Option Nat := match groupOf s d h.1 with | some g => (blockOf s d g.block).map (fun b => b.disp) | none => none
  (sortBy (fun a b => decide (quarter a ≤ quarter b)) hits).foldl (fun t h =>
    coreFault t d h.1 code cause addr none (some h.2) ((hits.filter (fun x => disp x == disp h)).length - 1)) s

/-- Issue cycles of the watchdog's limit in nanoseconds at 1.1 GHz, rounded up (R156). -/
def orphanNs (x : Dispatch) : Nat := ceilDiv ((2 ^ (if x.orphanLog2 = 0 then 24 else x.orphanLog2)) * 10) 11

/-- BARRIER_ORPHAN (R156): the watchdog of a block reaches its limit. -/
def execBarrierOrphan (d : DieId) (block : Nat) (s : State) : Host.Outcome State Fault Refusal :=
  match blockOf s d block with
  | none => ok s
  | some b =>
    match blockDisp s d b, b.arrivals, (getCores s d).groups.find? (fun e => e.2.block == block) with
    | some x, a :: _, some (gid, g) =>
      let det := detB a (arrivedAt s d block a) (x.groups * x.width - exitedLanes s d block x) b.x b.y b.z (g.index + 32 * g.quarter) 0
      event (decide (orphanNs x ≤ b.watch)) s (coreFault s d gid 0x0311 0 0 (some det))
    | _, _, _ => ok s

/-- PATH_ROTATE (R152): 64 consecutive issues while another path of the group can issue. -/
def execPathRotate (g : GRef) (s : State) : Host.Outcome State Fault Refusal :=
  match groupOf s g.die g.gid with
  | some x => event (decide (64 ≤ x.issues) && otherPath x) s (setGroup s g.die g.gid (rotatePath x))
  | none => ok s

/-- SLEEP_END (R233): the cycles are over, and the group waits in the pending set as one able to issue. -/
def execSleepEnd (g : GRef) (s : State) : Host.Outcome State Fault Refusal :=
  match groupOf s g.die g.gid with
  | some x =>
    match x.sleepUntil with
    | some t =>
      let y := { x with sleepUntil := none, since := s.now }
      event (decide (t ≤ s.now)) s (afterGroup (setGroup s g.die g.gid y) g.die y)
    | none => ok s
  | none => ok s

/-! ### The near cache (R160 to R163) -/

/-- The near cache of core `m`. -/
def nearOf (s : State) (d : DieId) (m : Nat) : NearCache := mget { lines := [], fills := [] } (getCores s d).near m

/-- Replace the near cache of core `m`. -/
def setNear (s : State) (d : DieId) (m : Nat) (n : NearCache) : State :=
  setCores s d { getCores s d with near := mput { lines := [], fills := [] } (getCores s d).near m n }

/-- A line put in: over a free line, else the least recently used offered line, else the least recently used line (R161). -/
def nearInsert (ls : List NearLine) (l : NearLine) (atFront : Bool) : List NearLine :=
  let put (r : List NearLine) : List NearLine := if atFront then l :: r else r ++ [l]
  if ls.length < 48 then put ls
  else
    match ls.reverse.find? (fun x => x.offered) with
    | some v => put (ls.filter (fun x => !(x.line == v.line)))
    | none => put ls.dropLast

/-- A hit: the line becomes most recently used; the LAST hint offers it for eviction, and another hint ends the offer (R161). -/
def nearTouch (n : NearCache) (line : Nat) (last : Bool) : NearCache :=
  match n.lines.find? (fun l => l.line == line) with
  | some l =>
    let rest := n.lines.filter (fun x => !(x.line == line))
    if last then { n with lines := n.lines.map (fun x => if x.line = line then { x with offered := true } else x) }
    else { n with lines := { l with offered := false } :: rest }
  | none => n

/-- Stores pending in the groups of a core, in the order they were issued. -/
def pendingStores (s : State) (d : DieId) (p : Nat → Group → Bool) : List (Nat × List (Nat × Byte)) :=
  let ops := ((getCores s d).groups.filter (fun e => p e.1 e.2)).flatMap (fun e => e.2.sq)
  let st := ops.filterMap (fun o => match o.kind with | .store data => some (o.serial, data) | _ => none)
  sortBy (fun a b => decide (a.1 ≤ b.1)) st

/-- Bytes at a physical address with pending stores laid over them. -/
def overlay (base : Nat) (bytes : List Byte) (st : List (Nat × List (Nat × Byte))) : List Byte :=
  st.foldl (fun acc w => w.2.foldl (fun acc c =>
    if base ≤ c.1 ∧ c.1 < base + acc.length then lset acc (c.1 - base) c.2 else acc) acc) bytes

/-- Bytes of memory as group `gid` reads them past its own pending stores older than `serial` (R163). -/
def groupRead (s : State) (d : DieId) (gid serial pa n : Nat) : List Byte :=
  overlay pa (memRead s pa n) ((pendingStores s d (fun i _ => i == gid)).filter (fun w => decide (w.1 < serial)))

/-- One line's copy in a core's near cache takes a store's bytes (R163). -/
def nearStore (n : NearCache) (data : List (Nat × Byte)) : NearCache :=
  { n with lines := n.lines.map (fun l => { l with data := overlay (l.line * 128) l.data [(0, data)] }) }

/-- Lines removed, as an atomic removes its own (R163). -/
def nearDrop (n : NearCache) (lines : List Nat) : NearCache := { n with lines := n.lines.filter (fun l => !(l.line ∈ lines)) }

/-- Whether an access waits for the fill of line `l`. -/
def awaitsLine (l : Nat) (a : LaneAccess) : Bool := a.got.isNone && a.pa / 128 == l

/-- Whether an operation is a load through the near cache that waits for line `l`. -/
def awaitsFill (l : Nat) (o : CountedOp) : Bool :=
  match o.kind with
  | .load _ _ _ false => o.access.any (awaitsLine l)
  | _ => false

/-- A line's bytes given to the accesses of an operation that wait for it. -/
def giveLine (l : Nat) (bytes : List Byte) (o : CountedOp) : CountedOp :=
  let give (a : LaneAccess) : LaneAccess := if awaitsLine l a then { a with got := some ((bytes.drop (a.pa % 128)).take a.bytes) } else a
  if awaitsFill l o then { o with access := o.access.map give } else o

/-- The operations of a group that a fill may serve: those counted, and a load that stands at issue. -/
def fillOps (g : Group) : List CountedOp := g.vq ++ g.part.toList

/-- A fill started for a line that misses, or joined where it is in flight: a joined prefetch is one no more, and LAST offers the line
(Table 6.7). A DEFAULT miss asks for the next line as well (R162). -/
def startFill (n : NearCache) (line : Nat) (pre last : Bool) : NearCache :=
  let have_ (l : Nat) (fs : List NearFill) : Bool := n.lines.any (fun x => x.line == l) || fs.any (fun f => f.line == l)
  if n.fills.any (fun f => f.line == line) then
    { n with fills := n.fills.map (fun f => if f.line = line then { f with prefetch := false, offered := last } else f) }
  else
    let fs := n.fills ++ [{ line := line, prefetch := false, offered := last, noInstall := false }]
    { n with fills := if pre && (line + 1) % 32 != 0 && !have_ (line + 1) fs && decide (fs.length < 16) then
        fs ++ [{ line := line + 1, prefetch := true, offered := false, noInstall := false }] else fs }

/-- The groups of core `m` that wait for line `l` with an access that `p` names, each with the pc of its load. -/
def fillHits (s : State) (d : DieId) (m l : Nat) (p : LaneAccess → Bool) : List (Nat × Nat) :=
  ((getCores s d).groups.filter (fun e => groupCore s d e.2 == m)).filterMap (fun e =>
    ((fillOps e.2).find? (fun o => awaitsFill l o && o.access.any (fun a => awaitsLine l a && p a))).map (fun o => (e.1, o.pc)))

/-- A fill that failed: it ends, and the loads that waited for its line meet the cause (R288, R364). -/
def failFill (s : State) (d : DieId) (m l cause : Nat) : State :=
  let n := nearOf s d m
  coreFaults (setNear s d m { n with fills := n.fills.filter (fun x => !(x.line == l)) }) d 0x0310 cause (l * 128) (fillHits s d m l (fun _ => true))

/-- A fill done with the line's bytes as memory gave them and its poisoned chunks: the loads that wait for it take their bytes, and the line is
installed (R160, R162, R163). -/
def installFill (s : State) (d : DieId) (m : Nat) (f : NearFill) (raw : List Byte) (bad : List Nat) : State :=
  let l := f.line
  let n := nearOf s d m
  let onCore (g : Group) : Bool := groupCore s d g == m
  let hits := fillHits s d m l (fun a => (a.pa / 64) % 2 ∈ bad)
  let bytes := overlay (l * 128) raw (pendingStores s d (fun _ g => onCore g))
  let k := getCores s d
  let serve (g : Group) : Group := { g with vq := g.vq.map (giveLine l bytes), part := g.part.map (giveLine l bytes), waiting := false }
  let gs := mmap (fun _ g => if onCore g then serve g else g) k.groups
  let new : NearLine := { line := l, data := bytes, poison := bad, offered := f.offered }
  let ls := if f.noInstall then n.lines else nearInsert n.lines new (!f.prefetch)
  let t1 := fillCore (setNear (setCores s d { k with groups := gs }) d m { lines := ls, fills := n.fills.filter (fun x => !(x.line == l)) }) d m
  let t2 := (sortBy (fun a b => decide (a ≤ b)) (((getCores t1 d).groups.filter (fun e => onCore e.2)).filterMap (fun e => groupCtx t1 d e.2))).eraseDups.foldl
    (fun u c => refreshSlot u d c) t1
  coreFaults t2 d 0x0317 0xFF (l * 128) hits

/-- The reads of a fill whose line is another die's: one of each 64-byte chunk. -/
def fillAsks (m l : Nat) : List AskFor := [memReadFor (.fill m (2 * l)) (2 * l), memReadFor (.fill m (2 * l + 1)) (2 * l + 1)]

/-- The state after the fill of a line of another die: its chunks are asked for, and once both have come the fill is done, or fails with the
cause of the first that failed (R288, R363). -/
def remoteFill (s : State) (d : DieId) (m : Nat) (f : NearFill) : State :=
  let asks := fillAsks m f.line
  let s1 := asks.foldl (askDie d) s
  match answersOf s1 d asks with
  | none => s1
  | some l =>
    let s2 := dropAnswers d s1 asks
    match l.find? (fun p => p.2.status ≠ 0 && p.2.status ≠ 2) with
    | some p => failFill s2 d m f.line (statusCause p.2.status)
    | none => installFill s2 d m f (l.flatMap (fun p => padTo 64 0 p.2.data)) ((countUp 0 2).filter (fun k => (l.map (fun p => p.2.status)).getD k 0 == 2))

/-- NEAR_CACHE_FILL (R160, R162, R163): the die cache answers a fill; the loads that wait on the line take their bytes, and the line is
installed. A line of another die is read over the cord (R288). -/
def execNearCacheFill (d : DieId) (core : Fin 32) (line : BitVec 33) (s : State) : Host.Outcome State Fault Refusal :=
  let m := core.val
  let l := line.toNat
  match (nearOf s d m).fills.find? (fun f => f.line == l) with
  | none => ok s
  | some f =>
    if dieOf (l * 128) ≠ d then ok (remoteFill s d m f)
    else if rowWaits s (l * 128) 128 then ok s
    else
      let t := noteRead s (l * 128) 128
      ok (installFill t d m f (memRead t (l * 128) 128) ((countUp 0 2).filter (fun k => poisonAt t (l * 128 + 64 * k))))

end Sys2Proof.Machine
end

