-- ==== Sys2Proof/Machine/Float.lean ====
section
/-! DEFINITION. Floating-point arithmetic, fixed to the bit (07): formats, one rounding to nearest with ties to even (R171), the two
modes' subnormals, zeros and NaN (R178 to R180), the flags of Table 7.2, and the FP32 operations (R181, R182). Values are exact
dyadic numbers until the one rounding. -/

namespace Sys2Proof.Machine

/-- A floating value: a finite one is (-1)^neg × m × 2^e; a NaN carries its FP32 bits and whether it signals (R174, R175). -/
inductive FNum where
  | fin (neg : Bool) (m : Nat) (e : Int)
  | inf (neg : Bool)
  | nan (bits : W32) (sig : Bool)

/-- A format (Table 7.3): exponent bits, fraction bits, bias, and its special codes: 0 infinities and NaN, 1 the one NaN of E4M3,
2 neither. -/
structure FFmt where
  eb : Nat
  fb : Nat
  bias : Nat
  kind : Nat
  deriving DecidableEq

/-- FP32. -/
def fp32 : FFmt := ⟨8, 23, 127, 0⟩
/-- BF16. -/
def bf16 : FFmt := ⟨8, 7, 127, 0⟩
/-- FP16. -/
def fp16 : FFmt := ⟨5, 10, 15, 0⟩
/-- E5M2. -/
def e5m2 : FFmt := ⟨5, 2, 15, 0⟩
/-- E4M3. -/
def e4m3 : FFmt := ⟨4, 3, 7, 1⟩
/-- E3M2. -/
def e3m2 : FFmt := ⟨3, 2, 3, 2⟩
/-- E2M3. -/
def e2m3 : FFmt := ⟨2, 3, 1, 2⟩
/-- E2M1. -/
def e2m1 : FFmt := ⟨2, 1, 1, 2⟩

/-- A result with the flags it raises, as bits of Table 7.2. -/
structure FRes where
  v : W32
  fl : Nat
  deriving DecidableEq, Repr

/-- Flags of Table 7.2. -/
def flInvalid : Nat := 1
/-- DIVZERO. -/
def flDivzero : Nat := 2
/-- OVERFLOW. -/
def flOverflow : Nat := 4
/-- UNDERFLOW. -/
def flUnderflow : Nat := 8
/-- OVF_SAT. -/
def flOvfSat : Nat := 16
/-- FLUSH. -/
def flFlush : Nat := 32

/-- The canonical FP32 NaN (Table 7.4). -/
def canonNan : W32 := 0x7FC00000

/-- The exponent of a format's smallest normal value. -/
def FFmt.emin (f : FFmt) : Int := 1 - (f.bias : Int)

/-- A code of a format read as a value (R174). NaN payloads stand at the top of an FP32 fraction. -/
def decodeF (f : FFmt) (x : Nat) : FNum :=
  let neg := x.testBit (f.eb + f.fb)
  let e := fldN x (f.eb + f.fb - 1) f.fb
  let fr := x % 2 ^ f.fb
  let nanBits : W32 := BitVec.ofNat 32 (b2n neg * 2 ^ 31 + 0x7F800000 + fr * 2 ^ (23 - f.fb))
  if f.kind = 0 ∧ e = 2 ^ f.eb - 1 then
    if fr = 0 then .inf neg else .nan nanBits (!fr.testBit (f.fb - 1))
  else if f.kind = 1 ∧ e = 2 ^ f.eb - 1 ∧ fr = 2 ^ f.fb - 1 then .nan nanBits false
  else if e = 0 then .fin neg fr (f.emin - f.fb)
  else .fin neg (2 ^ f.fb + fr) (f.emin - f.fb + ((e : Int) - 1))

/-- `m` divided by 2^k, rounded to nearest with ties to even, and whether that is inexact (R171). -/
def rneShift (m k : Nat) : Nat × Bool :=
  let q := m >>> k
  let r := m % 2 ^ k
  if r = 0 then (q, false)
  else if 2 ^ k < 2 * r ∨ (2 * r = 2 ^ k ∧ q % 2 = 1) then (q + 1, true)
  else (q, true)

/-- The exponent of the leading bit of m × 2^e, m not zero. -/
def topExp (m : Nat) (e : Int) : Int := (Nat.log2 m : Int) + e

/-- m × 2^e rounded to a multiple of 2^q: the multiple, and whether it is inexact. -/
def roundTo (m : Nat) (e q : Int) : Nat × Bool :=
  if q ≤ e then (m * 2 ^ (e - q).toNat, false) else rneShift m (q - e).toNat

/-- m × 2^e rounded to `p` bits with the exponent unbounded: mantissa, exponent, inexact. -/
def roundUnb (p : Nat) (m : Nat) (e : Int) : Nat × Int × Bool :=
  if m = 0 then (0, e, false)
  else
    let q := topExp m e - ((p : Int) - 1)
    let r := roundTo m e q
    (r.1, q, r.2)

/-- Whether m × 2^e is at least 2^k. -/
def geExp (m : Nat) (e k : Int) : Bool := decide (m ≠ 0) && decide (k ≤ topExp m e)

/-- The code of a value that a format holds exactly. -/
def encodeF (f : FFmt) (neg : Bool) (m : Nat) (e : Int) : Nat :=
  let s := b2n neg * 2 ^ (f.eb + f.fb)
  if m = 0 then s
  else
    let t := topExp m e
    if f.emin ≤ t then
      let sh : Int := (f.fb : Int) - Nat.log2 m
      let fr := if 0 ≤ sh then m * 2 ^ sh.toNat else m / 2 ^ (-sh).toNat
      s + (t - f.emin + 1).toNat * 2 ^ f.fb + (fr - 2 ^ f.fb)
    else s + (if f.emin - f.fb ≤ e then m * 2 ^ (e - (f.emin - f.fb)).toNat else m / 2 ^ ((f.emin - f.fb) - e).toNat)

/-- The largest finite code of a format, without its sign. -/
def maxCode (f : FFmt) : Nat :=
  if f.kind = 0 then (2 ^ f.eb - 2) * 2 ^ f.fb + (2 ^ f.fb - 1)
  else if f.kind = 1 then (2 ^ f.eb - 1) * 2 ^ f.fb + (2 ^ f.fb - 2)
  else (2 ^ f.eb - 1) * 2 ^ f.fb + (2 ^ f.fb - 1)

/-- Whether a rounded value lies beyond a format's largest finite value. -/
def beyond (f : FFmt) (m : Nat) (e : Int) : Bool :=
  match decodeF f (maxCode f) with
  | .fin _ mx ex =>
    let lo := min e ex
    decide (mx * 2 ^ (ex - lo).toNat < m * 2 ^ (e - lo).toNat)
  | _ => false

/-- What a finite value beyond range gives: by arithmetic (infinity in both modes, R181) or by conversion (Table 7.9). -/
def overRange (f : FFmt) (strict conv neg : Bool) : Nat × Nat :=
  let s := b2n neg * 2 ^ (f.eb + f.fb)
  let infCode := s + (2 ^ f.eb - 1) * 2 ^ f.fb
  if ¬ conv then (infCode, if strict then flOverflow else 0)
  else if ¬ strict ∨ f.kind = 2 then (s + maxCode f, flOvfSat)
  else if f.kind = 1 then (s + (2 ^ f.eb - 1) * 2 ^ f.fb + (2 ^ f.fb - 1), flOverflow)
  else (infCode, flOverflow)

/-- A finite value into a format (R178, R181, R196): code and flags. `conv` says whether by conversion. -/
def packF (f : FFmt) (strict conv : Bool) (neg : Bool) (m : Nat) (e : Int) : Nat × Nat :=
  let s := b2n neg * 2 ^ (f.eb + f.fb)
  if m = 0 then (s, 0)
  else
    let u := roundUnb (f.fb + 1) m e
    if beyond f u.1 u.2.1 then overRange f strict conv neg
    else if ¬ strict ∧ f.eb = 8 ∧ ¬ geExp u.1 u.2.1 f.emin then (s, flFlush)
    else
      let q := max u.2.1 (f.emin - f.fb)
      let r := roundTo m e q
      let under := strict && r.2 && !geExp r.1 q f.emin
      (encodeF f neg r.1 q, if under then flUnderflow else 0)

/-- A finite value as an FP32 arithmetic result. -/
def pack32 (strict : Bool) (neg : Bool) (m : Nat) (e : Int) : FRes :=
  let r := packF fp32 strict false neg m e
  ⟨BitVec.ofNat 32 r.1, r.2⟩

/-- An FP32 operand as a mode reads it (R178): its value and the flags its reading raises. -/
def read32 (strict : Bool) (x : W32) : FNum × Nat :=
  match decodeF fp32 x.toNat with
  | .fin neg m e => if ¬ strict ∧ m ≠ 0 ∧ m < 2 ^ 23 then (.fin neg 0 e, flFlush) else (.fin neg m e, 0)
  | .nan b true => (.nan b true, flInvalid)
  | n => (n, 0)

/-- Whether a value is NaN. -/
def FNum.isNan : FNum → Bool
  | .nan _ _ => true
  | _ => false

/-- The sign of a value that is not NaN. -/
def FNum.neg : FNum → Bool
  | .fin n _ _ => n
  | .inf n => n
  | .nan b _ => b.msb

/-- A zero. -/
def FNum.isZero : FNum → Bool
  | .fin _ m _ => m == 0
  | _ => false

/-- The value with its sign inverted; a NaN keeps its own (R179). -/
def FNum.negate : FNum → FNum
  | .fin n m e => .fin (!n) m e
  | .inf n => .inf (!n)
  | x => x

/-- A NaN result (R179): the first NaN operand made quiet in strict mode, else the canonical NaN. -/
def nanOf (strict : Bool) (xs : List FNum) : W32 :=
  match strict, xs.find? FNum.isNan with
  | true, some (.nan b _) => b ||| 0x00400000
  | _, _ => canonNan

/-- An exact sum of finite terms with the sign rule of R180. -/
def sumExact (ts : List (Bool × Nat × Int)) : Bool × Nat × Int :=
  let nz := ts.filter (fun t => decide (t.2.1 ≠ 0))
  match nz with
  | [] => (decide (ts ≠ []) && ts.all (fun t => t.1), 0, 0)
  | t0 :: r =>
    let lo := r.foldl (fun (a : Int) t => min a t.2.2) t0.2.2
    let tot : Int := nz.foldl (fun a t =>
      let v : Int := ((t.2.1 * 2 ^ (t.2.2 - lo).toNat : Nat) : Int)
      if t.1 then a - v else a + v) 0
    (decide (tot < 0), tot.natAbs, lo)

/-- The infinity of a sign. -/
def infBits (neg : Bool) : W32 := if neg then 0xFF800000 else 0x7F800000

/-- An FP32 sum of values, correctly rounded (R180, R181). -/
def sum32 (strict : Bool) (xs : List FNum) (ops : List FNum) : FRes :=
  if ops.any FNum.isNan then ⟨nanOf strict ops, 0⟩
  else
    let infs := xs.filterMap (fun x => match x with | .inf n => some n | _ => none)
    match infs with
    | n :: r => if r.all (fun k => k == n) then ⟨infBits n, 0⟩ else ⟨canonNan, flInvalid⟩
    | [] =>
      let s := sumExact (xs.filterMap (fun x => match x with | .fin n m e => some (n, m, e) | _ => none))
      pack32 strict s.1 s.2.1 s.2.2

/-- The exact product of two values that are not NaN, or none for zero times infinity (R180, R181). -/
def prodF (a b : FNum) : Option FNum :=
  match a, b with
  | .fin n m e, .fin k p q => some (.fin (xor n k) (m * p) (e + q))
  | .inf n, y => if y.isZero then none else some (.inf (xor n y.neg))
  | x, .inf k => if x.isZero then none else some (.inf (xor x.neg k))
  | _, _ => none

/-- Flags or-ed. -/
def withFl (r : FRes) (fl : Nat) : FRes := { r with fl := r.fl ||| fl }

/-- FP32 `add` (R181). -/
def fAdd (strict : Bool) (a b : W32) : FRes :=
  let x := read32 strict a
  let y := read32 strict b
  withFl (sum32 strict [x.1, y.1] [x.1, y.1]) (x.2 ||| y.2)

/-- FP32 `sub` (R181). -/
def fSub (strict : Bool) (a b : W32) : FRes :=
  let x := read32 strict a
  let y := read32 strict b
  withFl (sum32 strict [x.1, y.1.negate] [x.1, y.1]) (x.2 ||| y.2)

/-- FP32 `fma` (R181): rounded once. A NaN addend beside zero times infinity gives the NaN and sets INVALID. -/
def fFma (strict : Bool) (a b c : W32) : FRes :=
  let x := read32 strict a
  let y := read32 strict b
  let z := read32 strict c
  let fl := x.2 ||| y.2 ||| z.2
  if x.1.isNan || y.1.isNan then withFl ⟨nanOf strict [x.1, y.1, z.1], 0⟩ fl
  else
    match prodF x.1 y.1 with
    | none => withFl ⟨nanOf strict [z.1], flInvalid⟩ fl
    | some p => withFl (sum32 strict [p, z.1] [z.1]) fl

/-- FP32 `mul` (R181). -/
def fMul (strict : Bool) (a b : W32) : FRes :=
  let x := read32 strict a
  let y := read32 strict b
  let fl := x.2 ||| y.2
  if x.1.isNan || y.1.isNan then withFl ⟨nanOf strict [x.1, y.1], 0⟩ fl
  else
    match prodF x.1 y.1 with
    | none => withFl ⟨canonNan, flInvalid⟩ fl
    | some (.fin n m e) => withFl (pack32 strict n m e) fl
    | some p => withFl ⟨infBits p.neg, 0⟩ fl

/-- The order of two values that are not NaN, -0 and +0 equal. -/
def cmpF (a b : FNum) : Ordering :=
  let key (x : FNum) : Int × Bool × Nat × Int :=
    match x with
    | .inf n => (if n then -1 else 1, n, 0, 0)
    | .fin n m e => (0, n, m, e)
    | .nan _ _ => (0, false, 0, 0)
  let (ka, na, ma, ea) := key a
  let (kb, nb, mb, eb) := key b
  if ka ≠ kb then compare ka kb
  else if ka ≠ 0 then .eq
  else
    let lo := min ea eb
    let va : Int := ((ma * 2 ^ (if ma = 0 then 0 else (ea - lo).toNat) : Nat) : Int)
    let vb : Int := ((mb * 2 ^ (if mb = 0 then 0 else (eb - lo).toNat) : Nat) : Int)
    compare (if na then -va else va) (if nb then -vb else vb)

/-- A comparison (R182): 0 eq, 1 ne, 2 lt, 3 le, 4 gt, 5 ge; its truth and flags. -/
def fCmp (strict : Bool) (op : Nat) (a b : W32) : Bool × Nat :=
  let x := read32 strict a
  let y := read32 strict b
  let fl := x.2 ||| y.2
  if x.1.isNan || y.1.isNan then (op == 1, fl)
  else
    let o := cmpF x.1 y.1
    (match op with
      | 0 => o == .eq
      | 1 => !(o == .eq)
      | 2 => o == .lt
      | 3 => !(o == .gt)
      | 4 => o == .gt
      | _ => !(o == .lt), fl)

/-- An operand's own bits after the operand flushing of R178. -/
def flushed32 (strict : Bool) (a : W32) : W32 :=
  match read32 strict a with
  | (.fin n 0 _, _) => if n then 0x80000000 else 0
  | _ => a

/-- FP32 `min` and `max` (R182). -/
def fMinMax (strict wantMax : Bool) (a b : W32) : FRes :=
  let x := read32 strict a
  let y := read32 strict b
  let fl := x.2 ||| y.2
  let pa := flushed32 strict a
  let pb := flushed32 strict b
  match x.1.isNan, y.1.isNan with
  | true, true => ⟨nanOf strict [x.1, y.1], fl⟩
  | true, false => ⟨pb, fl⟩
  | false, true => ⟨pa, fl⟩
  | false, false =>
    let less := match cmpF x.1 y.1 with
      | .lt => true
      | .gt => false
      | .eq => x.1.neg && !y.1.neg
    ⟨if xor less wantMax then pa else pb, fl⟩

/-- `floor`, `ceil` and `trunc` (R171): 0 floor, 1 ceil, 2 trunc, exact. -/
def fIntegral (strict : Bool) (op : Nat) (a : W32) : FRes :=
  let x := read32 strict a
  match x.1 with
  | .nan _ _ => ⟨nanOf strict [x.1], x.2⟩
  | .inf n => ⟨infBits n, x.2⟩
  | .fin n m e =>
    if 0 ≤ e then ⟨flushed32 strict a, x.2⟩
    else
      let k := (-e).toNat
      let q := m / 2 ^ k
      let up := decide (m % 2 ^ k ≠ 0) && ((op == 0 && n) || (op == 1 && !n))
      withFl (pack32 strict n (if up then q + 1 else q) 0) x.2

/-! ### Integer square root and special functions (R184, R185) -/

/-- floor(sqrt n) for n < 4^bits, one bit at a time. -/
def isqrtBits : Nat → Nat → Nat → Nat
  | 0, _, r => r
  | k + 1, n, r =>
    let c := r + 2 ^ k
    isqrtBits k n (if c * c ≤ n then c else r)

/-- floor(sqrt n). -/
def isqrt (n : Nat) : Nat := isqrtBits (Nat.log2 n / 2 + 1) n 0

/-- A quotient with a sticky lowest bit: exact enough to round once. -/
def quotSticky (m p : Nat) : Nat × Int :=
  let k := 80 + Nat.log2 p
  let a := m * 2 ^ k
  (2 * (a / p) + b2n (decide (a % p ≠ 0)), -(k : Int) - 1)

/-- A square root of m × 2^e with a sticky lowest bit. -/
def sqrtSticky (m : Nat) (e : Int) : Nat × Int :=
  let odd := (e % 2).toNat
  let a := m * 2 ^ (odd + 160)
  let r := isqrt a
  (2 * r + b2n (decide (r * r ≠ a)), (e - odd - 160) / 2 - 1)

/-- Fixed-point bits of the series below. -/
def fx : Nat := 256

/-- pi times 2^384, rounded down. -/
def piFx : Nat :=
  123785053203292407819553701039137184435442376711719744927844101526111311422332618694237111830548352286187237239491692

/-- ln 2 times 2^256, rounded down. -/
def ln2Fx : Nat := 80260960185991308862233904206310070533990667611589946606122867505419956976171

/-- exp(r) for r in [0, 1) at 256 fraction bits: Taylor's series. -/
def expFx : Nat → Nat → Nat → Nat → Nat
  | 0, _, _, _ => 0
  | f + 1, k, r, term => term + expFx f (k + 1) r (term * r / 2 ^ fx / (k + 1))

/-- 2 atanh(z) for z in [0, 1/3] at 256 fraction bits. -/
def atanhFx : Nat → Nat → Nat → Nat → Nat
  | 0, _, _, _ => 0
  | f + 1, k, z2, p => 2 * p / (2 * k + 1) + atanhFx f (k + 1) z2 (p * z2 / 2 ^ fx)

/-- sin or cos of r at 256 fraction bits by Taylor's series: terms alternate, `k` is the power of the term. -/
def trigFx : Nat → Nat → Nat → Nat → Int
  | 0, _, _, _ => 0
  | f + 1, k, r2, term => (term : Int) - trigFx f (k + 2) r2 (term * r2 / 2 ^ fx / ((k + 1) * (k + 2)))

/-- 2^x for a finite x with |x| < 200, as m × 2^e. -/
def exp2Approx (neg : Bool) (m : Nat) (e : Int) : Nat × Int :=
  let xf : Int := if 0 ≤ e + fx then ((m * 2 ^ (e + fx).toNat : Nat) : Int) else ((m / 2 ^ (-(e + fx)).toNat : Nat) : Int)
  let v := if neg then -xf else xf
  let n := v / (2 ^ fx : Int)
  let fr := (v % (2 ^ fx : Int)).toNat
  (expFx 70 0 (fr * ln2Fx / 2 ^ fx) (2 ^ fx), n - fx)

/-- log2 of m × 2^e, m not zero, as a signed number at 256 fraction bits. -/
def log2Approx (m : Nat) (e : Int) : Int :=
  let t := Nat.log2 m
  let y := m * 2 ^ fx / 2 ^ t
  let z := (y - 2 ^ fx) * 2 ^ fx / (y + 2 ^ fx)
  let ln := atanhFx 90 0 (z * z / 2 ^ fx) z
  ((t : Int) + e) * (2 ^ fx : Int) + ((ln * 2 ^ fx / ln2Fx : Nat) : Int)

/-- x reduced to (-pi, pi] at 256 fraction bits, by the exact multiple of 2 pi nearest to it (R185). -/
def reduceFx (neg : Bool) (m : Nat) (e : Int) : Int :=
  let x : Nat := if 0 ≤ e + 384 then m * 2 ^ (e + 384).toNat else m / 2 ^ (-(e + 384)).toNat
  let r := x % (2 * piFx)
  let v : Int := if piFx < r then (r : Int) - ((2 * piFx : Nat) : Int) else (r : Int)
  (if neg then -v else v) / (2 ^ 128 : Int)

/-- sin (or cos) of x, not zero, at 257 fraction bits. The value is irrational, so its last bit is a sticky one: below the series. -/
def trigApprox (cos neg : Bool) (m : Nat) (e : Int) : Int :=
  let r := reduceFx neg m e
  let r2 := r.natAbs * r.natAbs / 2 ^ fx
  let v := if cos then trigFx 60 0 r2 (2 ^ fx) else
    let s := trigFx 60 1 r2 r.natAbs
    if r < 0 then -s else s
  if 0 < v then 2 * v - 1 else 2 * v + 1

/-- |a - b| of two dyadic numbers is at most the bound c, all given as numerator and exponent. -/
def within (a : Int) (ea : Int) (b : Int) (eb : Int) (c : Nat) (ec : Int) : Bool :=
  let lo := min ea (min eb ec)
  let at_ (v : Int) (e : Int) : Int := v * ((2 ^ (e - lo).toNat : Nat) : Int)
  decide ((at_ a ea - at_ b eb).natAbs ≤ (at_ (c : Int) ec).toNat)

/-- An FP32 code as a signed dyadic number, none where it is no finite number. -/
def dyadic32 (x : W32) : Option (Int × Int) :=
  match decodeF fp32 x.toNat with
  | .fin n m e => some (if n then -(m : Int) else (m : Int), e)
  | _ => none

/-- The exponent of an ulp of the exact result m × 2^e (R184). -/
def ulpExp (m : Nat) (e : Int) : Int := max (topExp m e) (-126) - 23

/-- Whether a result is a subnormal. -/
def tiny32 (x : W32) : Bool := decide (x.toNat % 2 ^ 31 < 2 ^ 23)

/-- A special function's result where its rule gives a bound only: the candidate of `Config.special` where it lies within the
bound and `also` admits it, else the rounded value. `k` is the bound in ulp of the exact result m × 2^e; an `absolute` bound is c × 2^ec. -/
def bounded (op : Nat) (strict : Bool) (x : W32) (neg : Bool) (m : Nat) (e : Int) (k : Nat) (absolute : Option (Nat × Int))
    (also : Int → Int → Bool := fun _ _ => true) : FRes :=
  let r := pack32 strict neg m e
  let sgn : Int := if neg then -(m : Int) else (m : Int)
  let cand := Config.special op strict x
  let okCand : Bool :=
    match dyadic32 cand with
    | none => false
    | some (c, ec) =>
      let nearEnough := match absolute with
        | some (b, eb) => within c ec sgn e b eb
        | none => within c ec sgn e k (ulpExp m e)
      nearEnough && also c ec && (strict || !tiny32 cand || decide (cand.toNat % 2 ^ 31 = 0))
  if m = 0 then ⟨0, 0⟩
  else if (decodeF fp32 r.v.toNat matches .inf _) || (!strict && r.fl == flFlush) then r
  else if okCand then ⟨cand, if strict && tiny32 cand then flUnderflow else 0⟩ else r

/-- A positive normal fast result, or the strict one, as `bounded` asks, from an approximation. -/
def special1 (op : Nat) (strict : Bool) (x : W32) (neg : Bool) (m : Nat) (e : Int) : FRes :=
  bounded op strict x neg m e (if strict then 1 else 2) none

/-- `rcp` (Tables 7.6, 7.7): correctly rounded in strict mode, within 1 ulp in fast mode; there its relative error stays within 3 × 2^-25 as
well, or a fast `div`, which multiplies by it, would leave its own bound (DEDUCED, log 4). -/
def fRcp (strict : Bool) (a : W32) : FRes :=
  let x := read32 strict a
  match x.1 with
  | .nan _ _ => ⟨nanOf strict [x.1], x.2⟩
  | .inf n => ⟨if n then 0x80000000 else 0, x.2⟩
  | .fin n m e =>
    if m = 0 then ⟨infBits n, x.2 ||| flDivzero⟩
    else
      let q := quotSticky 1 m
      if strict then withFl (pack32 true n q.1 (q.2 - e)) x.2
      else withFl (bounded 0 false a n q.1 (q.2 - e) 1 none
        (fun c ec => within (c * (if n then -(m : Int) else (m : Int))) (ec + e) 1 0 3 (-25))) x.2

/-- Whether an FP32 result lies within 2 ulp of (-1)^neg × m × 2^e. -/
def within2 (v : W32) (neg : Bool) (m : Nat) (e : Int) : Bool :=
  match dyadic32 v with
  | some (c, ec) => within c ec (if neg then -(m : Int) else (m : Int)) e 2 (ulpExp m e)
  | none => true

/-- `div` (Tables 7.6, 7.7): correctly rounded in strict mode; a × rcp(b) rounded in fast mode, within 2 ulp where 1/b and the result are
normal (else the rounded quotient stands, log 4). -/
def fDiv (strict : Bool) (a b : W32) : FRes :=
  let x := read32 strict a
  let y := read32 strict b
  let fl := x.2 ||| y.2
  match x.1, y.1 with
  | .nan _ _, _ => ⟨nanOf strict [x.1, y.1], fl⟩
  | _, .nan _ _ => ⟨nanOf strict [x.1, y.1], fl⟩
  | .inf _, .inf _ => ⟨canonNan, fl ||| flInvalid⟩
  | .inf n, .fin k _ _ => ⟨infBits (xor n k), fl⟩
  | .fin n _ _, .inf k => ⟨if xor n k then 0x80000000 else 0, fl⟩
  | .fin n m e, .fin k p q' =>
    if p = 0 then (if m = 0 then ⟨canonNan, fl ||| flInvalid⟩ else ⟨infBits (xor n k), fl ||| flDivzero⟩)
    else if strict then
      let r := quotSticky m p
      if m = 0 then ⟨if xor n k then 0x80000000 else 0, fl⟩ else withFl (pack32 true (xor n k) r.1 (r.2 + e - q')) fl
    else
      let r := fRcp false b
      let z := fMul false a r.v
      let q := quotSticky m p
      let normal := m = 0 ∨ tiny32 r.v = true ∨ tiny32 z.v = true ∨ within2 z.v (xor n k) q.1 (q.2 + e - q') = true
      withFl (if normal then z else pack32 false (xor n k) q.1 (q.2 + e - q')) (fl ||| r.fl)

/-- `sqrt` and `rsqrt` (Tables 7.6, 7.7). -/
def fSqrt (strict recip : Bool) (a : W32) : FRes :=
  let x := read32 strict a
  match x.1 with
  | .nan _ _ => ⟨nanOf strict [x.1], x.2⟩
  | .inf n => if n then ⟨canonNan, x.2 ||| flInvalid⟩ else ⟨if recip then 0 else infBits false, x.2⟩
  | .fin n m e =>
    if m = 0 then
      (if recip then ⟨infBits n, x.2 ||| flDivzero⟩ else ⟨if n then 0x80000000 else 0, x.2⟩)
    else if n then ⟨canonNan, x.2 ||| flInvalid⟩
    else
      let r := sqrtSticky m e
      if recip then
        let q := quotSticky 1 r.1
        withFl (special1 1 strict a false q.1 (q.2 - r.2)) x.2
      else if strict then withFl (pack32 true false r.1 r.2) x.2
      else withFl (bounded 2 false a false r.1 r.2 2 none) x.2

/-- `exp2` (R184, Table 7.7): exact at integral operands from -126 to 127. -/
def fExp2 (strict : Bool) (a : W32) : FRes :=
  let x := read32 strict a
  match x.1 with
  | .nan _ _ => ⟨nanOf strict [x.1], x.2⟩
  | .inf n => ⟨if n then 0 else infBits false, x.2⟩
  | .fin n m e =>
    if m = 0 then ⟨0x3F800000, x.2⟩
    else if geExp m e 8 then
      -- |x| is 256 or more: beyond the range on either side
      if n then withFl (pack32 strict false 1 (-300)) x.2 else withFl (pack32 strict false 1 300) x.2
    else
      let whole := decide (0 ≤ e) || decide (m % 2 ^ (-e).toNat = 0)
      let k : Int := if 0 ≤ e then ((m * 2 ^ e.toNat : Nat) : Int) else ((m / 2 ^ (-e).toNat : Nat) : Int)
      if whole then withFl (pack32 strict false 1 (if n then -k else k)) x.2
      else
        let r := exp2Approx n m e
        withFl (special1 3 strict a false r.1 r.2) x.2

/-- `log2` (R184, Table 7.7): exact at powers of two. -/
def fLog2 (strict : Bool) (a : W32) : FRes :=
  let x := read32 strict a
  match x.1 with
  | .nan _ _ => ⟨nanOf strict [x.1], x.2⟩
  | .inf n => if n then ⟨canonNan, x.2 ||| flInvalid⟩ else ⟨infBits false, x.2⟩
  | .fin n m e =>
    if m = 0 then ⟨infBits true, x.2 ||| flDivzero⟩
    else if n then ⟨canonNan, x.2 ||| flInvalid⟩
    else if m = 2 ^ Nat.log2 m then
      let t := topExp m e
      withFl (pack32 strict (decide (t < 0)) t.natAbs 0) x.2
    else
      let r := log2Approx m e
      withFl (special1 4 strict a (decide (r < 0)) r.natAbs (-(fx : Int))) x.2

/-- `sin` and `cos` (R184, R185, Table 7.7): in fast mode the error is absolute. -/
def fTrig (strict cos : Bool) (a : W32) : FRes :=
  let x := read32 strict a
  match x.1 with
  | .nan _ _ => ⟨nanOf strict [x.1], x.2⟩
  | .inf _ => ⟨canonNan, x.2 ||| flInvalid⟩
  | .fin n m e =>
    if m = 0 then ⟨if cos then 0x3F800000 else if n then 0x80000000 else 0, x.2⟩
    else
      let r := trigApprox cos n m e
      let op := if cos then 6 else 5
      if strict then withFl (bounded op true a (decide (r < 0)) r.natAbs (-(fx : Int) - 1) 1 none) x.2
      else
        let xInt : Nat := m * 2 ^ (if 0 ≤ e + 60 then (e + 60).toNat else 0) / 2 ^ (if 0 ≤ e + 60 then 0 else (-(e + 60)).toNat)
        let big := decide (piFx * 2 ^ 60 / 2 ^ 384 < xInt)
        let bound := if big then 2 ^ 60 * 2 ^ 24 + xInt else 2 ^ 84
        withFl (bounded op false a (decide (r < 0)) r.natAbs (-(fx : Int) - 1) 0 (some (bound, -105))) x.2

end Sys2Proof.Machine
end

