-- ==== Sys2Proof/Machine/Convert.lean ====
section
/-! DEFINITION. Conversions (R195 to R198), MX blocks (R176, R199, R216, R217) and the matrix sums (R186 to R192). -/

namespace Sys2Proof.Machine

/-! ### Conversions -/

/-- A floating code of a source format as a mode reads it (R178): value and flags. -/
def readF (f : FFmt) (strict : Bool) (x : Nat) : FNum × Nat :=
  match decodeF f x with
  | .fin neg m e => if ¬ strict ∧ f.eb = 8 ∧ m ≠ 0 ∧ m < 2 ^ f.fb then (.fin neg 0 e, flFlush) else (.fin neg m e, 0)
  | .nan b true => (.nan b true, flInvalid)
  | n => (n, 0)

/-- A value into a floating target (R196, R197, Table 7.9). -/
def convF (f : FFmt) (strict : Bool) (x : FNum) : Nat × Nat :=
  match x with
  | .fin neg m e => packF f strict true neg m e
  | .inf neg =>
    let s := b2n neg * 2 ^ (f.eb + f.fb)
    if f.kind = 0 then (s + (2 ^ f.eb - 1) * 2 ^ f.fb, 0)
    else if f.kind = 1 then
      if strict then (s + (2 ^ f.eb - 1) * 2 ^ f.fb + (2 ^ f.fb - 1), flOverflow) else (s + maxCode f, flOvfSat)
    else (s + maxCode f, flOvfSat ||| flInvalid)
  | .nan b _ =>
    let s := b2n b.msb * 2 ^ (f.eb + f.fb)
    if f = e5m2 then (0x7E, 0)
    else if f.kind = 1 then ((if strict then s else 0) + 0x7F, 0)
    else if f.kind = 2 then (0, flInvalid)
    else
      let quiet := (2 ^ f.eb - 1) * 2 ^ f.fb + 2 ^ (f.fb - 1)
      if strict then ((s + (2 ^ f.eb - 1) * 2 ^ f.fb + (b.toNat % 2 ^ 23) / 2 ^ (23 - f.fb)) ||| quiet, 0) else (quiet, 0)

/-- A value into a two's complement integer of `w` bits (R198): rounded, then saturated. -/
def convInt (w : Nat) (x : FNum) : Nat × Nat :=
  let hi : Int := 2 ^ (w - 1) - 1
  let lo : Int := -(2 ^ (w - 1))
  match x with
  | .nan _ _ => (0, flInvalid)
  | .inf n => (wrapI w (if n then lo else hi), flOvfSat ||| flInvalid)
  | .fin n m e =>
    let r := (roundTo m e 0).1
    let v : Int := if n then -(r : Int) else (r : Int)
    if hi < v then (wrapI w hi, flOvfSat) else if v < lo then (wrapI w lo, flOvfSat) else (wrapI w v, 0)

/-- The floating format of a code of Table 8.9. -/
def fmtOf (c : Nat) : Option FFmt :=
  match c with
  | 0 => some fp32
  | 1 => some bf16
  | 2 => some fp16
  | 3 => some e4m3
  | 4 => some e5m2
  | 5 => some e3m2
  | 6 => some e2m3
  | 7 => some e2m1
  | _ => none

/-- Bits of a format's code (Table 8.9). -/
def fmtBits (c : Nat) : Nat :=
  match c with
  | 0 => 32
  | 1 => 16
  | 2 => 16
  | 3 => 8
  | 4 => 8
  | 5 => 6
  | 6 => 6
  | 7 => 4
  | 8 => 32
  | _ => 8

/-- Whether Table 7.8 lists a conversion from format `a` to format `b`. -/
def cvtListed (a b : Nat) : Bool :=
  (decide (1 ≤ a) && decide (a ≤ 7) && b == 0) || (a == 0 && decide (1 ≤ b) && decide (b ≤ 9))
    || ((a == 8 || a == 9) && b == 0) || (a == 8 && b == 9)

/-- One conversion of a code (R195 to R198): the target's code and flags. -/
def convert (strict : Bool) (a b : Nat) (x : Nat) : Nat × Nat :=
  match fmtOf a, fmtOf b with
  | some f, some g =>
    let r := readF f strict x
    if b = 0 then
      match r.1 with
      | .nan bits _ => ((if strict then bits ||| 0x00400000 else canonNan).toNat, r.2)
      | v =>
        let c := convF g strict v
        (c.1, c.2 ||| r.2)
    else
      let c := convF g strict r.1
      (c.1, c.2 ||| r.2)
  | some f, none =>
    let r := readF f strict x
    let c := convInt (fmtBits b) r.1
    (c.1, c.2 ||| r.2)
  | none, some g =>
    let v := sx (fmtBits a) x
    packF g strict true (decide (v < 0)) v.natAbs 0
  | none, none =>
    let v := sx (fmtBits a) x
    if 127 < v then (127, flOvfSat) else if v < -128 then (128, flOvfSat) else (wrapI 8 v, 0)

/-! ### MX blocks -/

/-- emax of an MX element format by its code of Table 8.9 (Table 7.5). -/
def mxEmax (c : Nat) : Int :=
  match c with
  | 3 => 8
  | 4 => 15
  | 5 => 4
  | 6 => 2
  | 7 => 2
  | _ => 0

/-- One MX block from 32 FP32 values (R199): scale, elements, flags. Saturation sets none; in strict mode an inexact element below the
smallest normal of its format sets UNDERFLOW (Table 7.2). -/
def mxQuant (strict : Bool) (c : Nat) (vs : List W32) : Nat × List Nat × Nat :=
  let rs := vs.map (read32 strict)
  let fl := rs.foldl (fun a r => a ||| r.2) 0
  let fin := rs.all (fun r => match r.1 with | .fin _ _ _ => true | _ => false)
  if ¬ fin then (255, vs.map (fun _ => 0), fl ||| flInvalid)
  else
    let tops := rs.filterMap (fun r => match r.1 with | .fin _ m e => if m = 0 then none else some (topExp m e) | _ => none)
    let elem (x : Int) (r : FNum) : Nat :=
      match r, fmtOf c with
      | .fin n m e, some f => (packF f false true n m (e - x)).1
      | .fin n m e, none => (convInt 8 (.fin n m (e + 6 - x))).1
      | _, _ => 0
    let under (x : Int) (r : FNum) : Nat :=
      match r, fmtOf c with
      | .fin n m e, some f => if strict then (packF f true true n m (e - x)).2 &&& flUnderflow else 0
      | _, _ => 0
    match tops with
    | [] => (127, rs.map (fun r => elem 0 r.1), fl)
    | t :: ts =>
      let x := min (max (ts.foldl max t - mxEmax c) (-127)) 127
      ((x + 127).toNat, rs.map (fun r => elem x r.1), rs.foldl (fun a r => a ||| under x r.1) fl)

/-- The value of an MX element's own code (R176). -/
def mxElem (c : Nat) (x : Nat) : FNum × Nat :=
  match fmtOf c with
  | some f => readF f true (x % 2 ^ fmtBits c)
  | none =>
    let v := sx 8 x
    (.fin (decide (v < 0)) v.natAbs (-6), 0)

/-- `mxdq` in one lane (R217). -/
def mxDequant (strict : Bool) (c x scale : Nat) : FRes :=
  let r := mxElem c x
  match r.1 with
  | .nan bits _ => ⟨if strict then bits ||| 0x00400000 else canonNan, r.2⟩
  | .inf n => if scale = 255 then ⟨canonNan, 0⟩ else ⟨infBits n, r.2⟩
  | .fin n m e =>
    if scale = 255 then ⟨canonNan, 0⟩
    else
      let p := packF fp32 strict true n m (e + (scale : Int) - 127)
      ⟨BitVec.ofNat 32 p.1, p.2 ||| r.2⟩

/-! ### Matrix sums -/

/-- A matrix operand's element: its value and the exponent its block's scale adds; none where the scale is NaN. -/
structure MElem where
  v : FNum
  scale : Option Int

/-- The product of two elements, or none for zero times infinity (R187). -/
def mProd (a b : MElem) : Option FNum :=
  match prodF a.v b.v with
  | some (.fin n m e) => some (.fin n m (e + a.scale.getD 0 + b.scale.getD 0))
  | r => r

/-- Whether an element is NaN, its scale included (R191). -/
def MElem.bad (a : MElem) : Bool := a.v.isNan || a.scale.isNone

/-- A finite term truncated toward zero to a multiple of 2^q (R188). -/
def truncTerm (q : Int) (t : Bool × Nat × Int) : Bool × Nat × Int :=
  if q ≤ t.2.2 then t else (t.1, t.2.1 / 2 ^ (q - t.2.2).toNat, q)

/-- One output element from its 16 pairs and the accumulator (R187 to R191). -/
def mmaElem (strict : Bool) (ps : List (MElem × MElem)) (c : FNum) : FRes :=
  if c.isNan || ps.any (fun p => p.1.bad || p.2.bad) then ⟨canonNan, 0⟩
  else
    let prods := ps.map (fun p => mProd p.1 p.2)
    if prods.any Option.isNone then ⟨canonNan, flInvalid⟩
    else
      let ts := prods.filterMap id ++ [c]
      let infs := ts.filterMap (fun x => match x with | .inf n => some n | _ => none)
      match infs with
      | n :: r => if r.all (fun k => k == n) then ⟨infBits n, 0⟩ else ⟨canonNan, flInvalid⟩
      | [] =>
        let fins := ts.filterMap (fun x => match x with | .fin n m e => some (n, m, e) | _ => none)
        let tops := (fins.filter (fun t => decide (t.2.1 ≠ 0))).map (fun t => topExp t.2.1 t.2.2)
        let terms := match strict, tops with
          | false, t :: r => fins.map (truncTerm (r.foldl max t - 47))
          | _, _ => fins
        let x := sumExact terms
        pack32 strict x.1 x.2.1 x.2.2

end Sys2Proof.Machine
end

