-- ==== Sys2Proof/Machine/Pixel.lean ====
section
/-! DEFINITION. Texel formats (Table 9.12), their decoding and encoding (R262), image layout (R264), blending (R262, Tables 9.10 and
9.11) and the lossless block code (R267, R268). -/

namespace Sys2Proof.Machine

/-- The number 1 in FP32. -/
def one32 : W32 := 0x3F800000

/-! ### Formats -/

/-- A channel of a texel: UNORM, sRGB, or floating with or without a sign. -/
inductive Chan where
  | unorm (bits : Nat)
  | srgb
  | float (f : FFmt)
  | ufloat (f : FFmt)
  deriving DecidableEq

/-- Bits of a channel. -/
def chanBits : Chan → Nat
  | .unorm b => b
  | .srgb => 8
  | .float f => 1 + f.eb + f.fb
  | .ufloat f => f.eb + f.fb

/-- The 11-bit and 10-bit floating channels of F11_11_10. -/
def f11 : FFmt := ⟨5, 6, 15, 0⟩
/-- The 10-bit floating channel of F11_11_10. -/
def f10 : FFmt := ⟨5, 5, 15, 0⟩

/-- The channels of a render-target format from bit 0 (Table 9.12). The alpha channel of an sRGB format is UNORM (PRESUMED, log 14). -/
def fmtChans (c : Nat) : List Chan :=
  match c with
  | 0x01 => [.unorm 8]
  | 0x02 => rep 2 (.unorm 8)
  | 0x03 => rep 4 (.unorm 8)
  | 0x04 => rep 3 .srgb ++ [.unorm 8]
  | 0x05 => [.unorm 16]
  | 0x06 => [.float fp16]
  | 0x07 => rep 2 (.float fp16)
  | 0x08 => rep 4 (.float fp16)
  | 0x09 => [.float fp32]
  | 0x0A => rep 2 (.float fp32)
  | 0x0B => rep 4 (.float fp32)
  | 0x0C => rep 3 (.unorm 10) ++ [.unorm 2]
  | 0x0D => rep 2 (.ufloat f11) ++ [.ufloat f10]
  | _ => []

/-- Whether a format is a render-target format. -/
def isTarget (c : Nat) : Bool := decide (1 ≤ c) && decide (c ≤ 0x0D)

/-- Whether Table 9.12 lists a format. -/
def fmtListed (c : Nat) : Bool :=
  isTarget c || (decide (0x20 ≤ c) && decide (c ≤ 0x2D)) || ([4, 5, 6].any (fun h => decide (16 * h ≤ c) && decide (c ≤ 16 * h + 0xD)))

/-- Bytes of a texel of a render-target format. -/
def texelBytes (c : Nat) : Nat := ((fmtChans c).map chanBits).sum / 8

/-! ### Decoding and encoding (R262) -/

/-- floor of the fifth root, one bit at a time. -/
def root5Bits : Nat → Nat → Nat → Nat
  | 0, _, r => r
  | k + 1, n, r =>
    let c := r + 2 ^ k
    root5Bits k n (if c ^ 5 ≤ n then c else r)

/-- The IEC 61966-2-1 curve at code `k` of 255, rounded to FP32 (R262): ((k/255 + 0.055)/1.055)^2.4 above its straight part. -/
def srgbDecode (k : Nat) : W32 :=
  if k ≤ 10 then
    let q := quotSticky (100 * k) (255 * 1292)
    if k = 0 then 0 else (pack32 true false q.1 q.2).v
  else
    let a := (40 * k + 561) ^ 12 * 2 ^ 400
    let b := 10761 ^ 12
    let r := root5Bits 84 (a / b) 0
    (pack32 true false (2 * r + b2n (decide (r ^ 5 * b ≠ a))) (-81)).v

/-- A channel's code as FP32 (R262). -/
def decodeChan (c : Chan) (x : Nat) : W32 :=
  match c with
  | .unorm b =>
    let k := x % 2 ^ b
    let q := quotSticky k (2 ^ b - 1)
    if k = 0 then 0 else (pack32 true false q.1 q.2).v
  | .srgb => srgbDecode (x % 256)
  | .float f =>
    match decodeF f (x % 2 ^ (1 + f.eb + f.fb)) with
    | .fin n m e => (pack32 true n m e).v
    | .inf n => infBits n
    | .nan b _ => b
  | .ufloat f =>
    match decodeF f (x % 2 ^ (f.eb + f.fb)) with
    | .fin n m e => (pack32 true n m e).v
    | .inf n => infBits n
    | .nan b _ => b

/-- A UNORM code from a value: clamped, scaled, rounded (R171, R262). -/
def encodeUnorm (b : Nat) (v : W32) : Nat :=
  match decodeF fp32 v.toNat with
  | .nan x _ => Config.nanCode x b % 2 ^ b
  | .inf n => if n then 0 else 2 ^ b - 1
  | .fin n m e => if n then 0 else min ((roundTo (m * (2 ^ b - 1)) e 0).1) (2 ^ b - 1)

/-- A finite value as a multiple of 2^-200, for comparing distances. -/
def scaled200 (v : W32) : Int :=
  match decodeF fp32 v.toNat with
  | .fin n m e => if n then -((m * 2 ^ (e + 200).toNat : Nat) : Int) else ((m * 2 ^ (e + 200).toNat : Nat) : Int)
  | .inf n => if n then -(2 ^ 400) else 2 ^ 400
  | .nan _ _ => 0

/-- The sRGB code whose value lies nearest, the even one on a tie (R262). -/
def encodeSrgb (v : W32) : Nat :=
  match decodeF fp32 v.toNat with
  | .nan x _ => Config.nanCode x 8 % 256
  | _ =>
    let t := scaled200 v
    (countUp 1 255).foldl (fun b k =>
      let dk := (scaled200 (srgbDecode k) - t).natAbs
      let db := (scaled200 (srgbDecode b) - t).natAbs
      if dk < db ∨ (dk = db ∧ k % 2 = 0) then k else b) 0

/-- A value as a channel's code (R262). -/
def encodeChan (c : Chan) (v : W32) : Nat :=
  match c with
  | .unorm b => encodeUnorm b v
  | .srgb => encodeSrgb v
  | .float f => if f = fp32 then v.toNat else (convF f true (decodeF fp32 v.toNat)).1
  | .ufloat f =>
    match decodeF fp32 v.toNat with
    | .fin true _ _ => 0
    | .inf true => 0
    | x => (convF f true x).1 % 2 ^ (f.eb + f.fb)

/-- The channels of a texel from its bits, lowest first. -/
def splitChans : List Chan → Nat → List Nat
  | [], _ => []
  | c :: r, x => x % 2 ^ chanBits c :: splitChans r (x / 2 ^ chanBits c)

/-- The bits of a texel from its channels. -/
def joinChans : List Chan → List Nat → Nat
  | c :: r, x :: xs => x % 2 ^ chanBits c + 2 ^ chanBits c * joinChans r xs
  | _, _ => 0

/-- A texel's four components: those a format does not hold are left open (Config). -/
def decodeTexel (c x : Nat) : List W32 :=
  let cs := fmtChans c
  let vs := (cs.zip (splitChans cs x)).map (fun p => decodeChan p.1 p.2)
  (countUp 0 4).map (fun k => if k < vs.length then lget 0 vs k else Config.missingComponent c k)

/-- A texel's bits from four components, keeping the channels of `old` outside the mask. -/
def encodeTexel (c old : Nat) (mask : Nat) (v : List W32) : Nat :=
  let cs := fmtChans c
  joinChans cs (((cs.zip (splitChans cs old)).zipIdx).map (fun p =>
    if mask.testBit p.2 then encodeChan p.1.1 (lget 0 v p.2) else p.1.2))

/-! ### Layout (R264) -/

/-- A format's block: width, height, bytes. -/
def blockShape (c : Nat) : Nat × Nat × Nat :=
  if isTarget c then (8, 8, 64 * texelBytes c)
  else if c < 0x40 then (4, 4, if c ∈ [0x20, 0x21, 0x26, 0x27] then 8 else 16)
  else
    match c % 16 with
    | 0 => (4, 4, 16)
    | 1 => (5, 4, 16)
    | 2 => (5, 5, 16)
    | 3 => (6, 5, 16)
    | 4 => (6, 6, 16)
    | 5 => (8, 5, 16)
    | 6 => (8, 6, 16)
    | 7 => (8, 8, 16)
    | 8 => (10, 5, 16)
    | 9 => (10, 6, 16)
    | 10 => (10, 8, 16)
    | 11 => (10, 10, 16)
    | 12 => (12, 10, 16)
    | _ => (12, 12, 16)

/-- A number rounded up to a multiple. -/
def roundUp (n k : Nat) : Nat := ceilDiv n k * k

/-- A dimension at a level: halved and floored, 1 at least (PRESUMED, log 14). -/
def levelDim (n l : Nat) : Nat := max 1 (n / 2 ^ l)

/-- Bytes of one level of one slice. -/
def levelBytes (c w h l : Nat) : Nat :=
  let b := blockShape c
  ceilDiv (levelDim w l) b.1 * ceilDiv (levelDim h l) b.2.1 * b.2.2

/-- Offset of level `l` within a slice: each level is rounded up to 256 bytes. -/
def levelOffset (c w h l : Nat) : Nat := ((countUp 0 l).map (fun k => roundUp (levelBytes c w h k) 256)).sum

/-- Bytes from one layer, face or slice to the next. -/
def sliceBytes (c w h levels : Nat) : Nat := roundUp (levelOffset c w h levels) 4096

/-- The block of a texel in a row-major grid of blocks, and the texel's place in it. -/
def blockAt (c w x y : Nat) : Nat × Nat :=
  let b := blockShape c
  (y / b.2.1 * ceilDiv w b.1 + x / b.1, y % b.2.1 * b.1 + x % b.1)

/-! ### Block formats (R264; the published definitions, log 14) -/

/-- A ratio of naturals in FP32, rounded. -/
def ratio32 (neg : Bool) (n d : Nat) : W32 :=
  let q := quotSticky n d
  if n = 0 then 0 else (pack32 true neg q.1 q.2).v

/-- A component of the colour part of a BC1 to BC3 block: its two end points of `b` bits mixed by the texel's code. `four`: the block has four
colours. -/
def bcColour (b e0 e1 code : Nat) (four : Bool) : W32 :=
  let m := 2 ^ b - 1
  match code with
  | 0 => ratio32 false e0 m
  | 1 => ratio32 false e1 m
  | 2 => if four then ratio32 false (2 * e0 + e1) (3 * m) else ratio32 false (e0 + e1) (2 * m)
  | _ => if four then ratio32 false (e0 + 2 * e1) (3 * m) else 0

/-- The colour part of a BC1 to BC3 block at texel `i`: red, green, blue, and whether it is the transparent code. `only4` where the format has
no transparent code. -/
def bcColours (b : List Byte) (only4 : Bool) (i : Nat) : List W32 × Bool :=
  let c0 := leAt b 0 2
  let c1 := leAt b 2 2
  let code := leAt b 4 4 / 4 ^ i % 4
  let four := only4 || decide (c1 < c0)
  ([bcColour 5 (c0 / 2048) (c1 / 2048) code four, bcColour 6 (c0 / 32 % 64) (c1 / 32 % 64) code four, bcColour 5 (c0 % 32) (c1 % 32) code four],
   !four && code == 3)

/-- A component of a BC4 kind of block at texel `i`: end points, six or four steps between them, and the two extremes. -/
def bcScalar (b : List Byte) (signed : Bool) (i : Nat) : W32 :=
  let raw (k : Nat) : Int := if signed then max (-127) (sx 8 (leAt b k 1)) else (leAt b k 1 : Int)
  let m := if signed then 127 else 255
  let out (x : Int) (d : Nat) : W32 := ratio32 (decide (x < 0)) x.natAbs (d * m)
  let code : Nat := leAt b 2 6 / 8 ^ i % 8
  let k : Int := code - 1
  if code = 0 then out (raw 0) 1
  else if code = 1 then out (raw 1) 1
  else if raw 1 < raw 0 then out ((7 - k) * raw 0 + k * raw 1) 7
  else if code < 6 then out ((5 - k) * raw 0 + k * raw 1) 5
  else if code = 6 then (if signed then out (-127) 1 else 0)
  else one32

/-- A texel of a block format: BC1 to BC5 by their definitions, the others as the constants leave them (log 14). -/
def blockTexel (c : Nat) (b : List Byte) (x y : Nat) : List W32 :=
  let i := 4 * y + x
  let rest (v : List W32) : List W32 := v ++ (countUp v.length (4 - v.length)).map (Config.missingComponent c)
  match c with
  | 0x20 => let (v, t) := bcColours b false i; v ++ [if t then 0 else one32]
  | 0x22 => (bcColours (b.drop 8) true i).1 ++ [ratio32 false (leAt b 0 8 / 16 ^ i % 16) 15]
  | 0x24 => (bcColours (b.drop 8) true i).1 ++ [bcScalar b false i]
  | 0x26 => rest [bcScalar b false i]
  | 0x27 => rest [bcScalar b true i]
  | 0x28 => rest [bcScalar b false i, bcScalar (b.drop 8) false i]
  | 0x29 => rest [bcScalar b true i, bcScalar (b.drop 8) true i]
  | _ => Config.blockTexel c b x y

/-! ### Blending (R262) -/

/-- A blend factor for channel `k` (Table 9.10). -/
def blendFactor (code k : Nat) (src dst const : List W32) : W32 :=
  let sa := lget 0 src 3
  let da := lget 0 dst 3
  match code with
  | 0 => 0
  | 1 => one32
  | 2 => lget 0 src k
  | 3 => (fSub true one32 (lget 0 src k)).v
  | 4 => lget 0 dst k
  | 5 => (fSub true one32 (lget 0 dst k)).v
  | 6 => sa
  | 7 => (fSub true one32 sa).v
  | 8 => da
  | 9 => (fSub true one32 da).v
  | 10 => lget 0 const k
  | 11 => (fSub true one32 (lget 0 const k)).v
  | 12 => if k = 3 then one32 else (fMinMax true false sa (fSub true one32 da).v).v
  | _ => 0

/-- One channel blended (R262). -/
def blendChan (sf df op k : Nat) (src dst const : List W32) : W32 :=
  let s := lget 0 src k
  let d := lget 0 dst k
  let a := (fMul true s (blendFactor sf k src dst const)).v
  let b := (fMul true d (blendFactor df k src dst const)).v
  match op with
  | 0 => (fAdd true a b).v
  | 1 => (fSub true a b).v
  | 2 => (fSub true b a).v
  | 3 => (fMinMax true false s d).v
  | _ => (fMinMax true true s d).v

/-- A sample written through the blend path: the stored texel, the entry of Table 9.11, the colour, the constant. -/
def blendTexel (fmt entry : Nat) (const src : List W32) (old : Nat) : Nat :=
  let mask := fldN entry 26 23
  if entry.testBit 22 then
    let dst := decodeTexel fmt old
    let out := (countUp 0 4).map (fun k =>
      if k < 3 then blendChan (fldN entry 3 0) (fldN entry 7 4) (fldN entry 10 8) k src dst const
      else blendChan (fldN entry 14 11) (fldN entry 18 15) (fldN entry 21 19) k src dst const)
    encodeTexel fmt old mask out
  else encodeTexel fmt old mask src

/-! ### Lossless blocks (R267, R268) -/

/-- Bits that hold a width of a channel of `b` bits: ceil(log2(b + 1)). -/
def widthBits (b : Nat) : Nat := Nat.log2 (2 * (b + 1) - 1)

/-- A pixel's prediction from the pixels before it: its left neighbour, or the one above in column 0. -/
def predict (vs : List Nat) (i : Nat) : Nat := if i % 8 = 0 then lget 0 vs (i - 8) else lget 0 vs (i - 1)

/-- A residual's code: 2r for r at or above zero, -2r - 1 otherwise (R268). -/
def zigzag (b v p : Nat) : Nat :=
  let r := sx b (v + 2 ^ b - p)
  if 0 ≤ r then 2 * r.toNat else (-2 * r - 1).toNat

/-- One channel's part of the coded form: its bits as a number, and how many. -/
def codeChan (b : Nat) (vs : List Nat) : Nat × Nat :=
  let zs := (countUp 1 63).map (fun i => zigzag b (lget 0 vs i) (predict vs i))
  let w := zs.foldl (fun a z => max a (if z = 0 then 0 else Nat.log2 z + 1)) 0
  let head := w + 2 ^ widthBits b * lget 0 vs 0
  let h := widthBits b + b
  (zs.foldl (fun (acc : Nat × Nat) z => (acc.1 + z * 2 ^ acc.2, acc.2 + w)) (head, h))

/-- The coded form of a block of 64 pixels, each a list of channel codes, padded to 32 bytes (R268). -/
def codeBlock (cs : List Chan) (px : List (List Nat)) : List Byte :=
  let r := (cs.zipIdx).foldl (fun (acc : Nat × Nat) c =>
    let q := codeChan (chanBits c.1) (px.map (fun p => lget 0 p c.2))
    (acc.1 + q.1 * 2 ^ acc.2, acc.2 + q.2)) (0, 0)
  natLe (roundUp (ceilDiv r.2 8) 32) r.1

/-- A residual decoded onto its prediction. -/
def unzigzag (b z p : Nat) : Nat := if z % 2 = 0 then (p + z / 2) % 2 ^ b else (p + 2 ^ b - (z + 1) / 2 % 2 ^ b) % 2 ^ b

/-- Pixels 1 to 63 of a channel decoded. -/
def decodeTail (b w : Nat) : Nat → Nat → List Nat → List Nat
  | 0, _, vs => vs
  | n + 1, x, vs => decodeTail b w n (x / 2 ^ w) (vs ++ [unzigzag b (x % 2 ^ w) (predict vs vs.length)])

/-- The channels of a coded block, each its 64 codes (R268). -/
def decodeChans : List Chan → Nat → List (List Nat)
  | [], _ => []
  | c :: r, x =>
    let b := chanBits c
    let w := x % 2 ^ widthBits b
    let x1 := x / 2 ^ widthBits b
    let vs := decodeTail b w 63 (x1 / 2 ^ b) [x1 % 2 ^ b]
    vs :: decodeChans r (x1 / 2 ^ (b + 63 * w))

/-- The texels of a block stored raw. -/
def rawTexels (c : Nat) (bytes : List Byte) : List Nat := (countUp 0 64).map (fun i => leAt bytes (i * texelBytes c) (texelBytes c))

/-- The 64 texels of a stored block by its metadata byte (R267); none for the clear value. -/
def readBlock (c m : Nat) (bytes : List Byte) : Option (List Nat) :=
  let full := 64 * texelBytes c
  if m = 0 then none
  else if m = full / 32 then some (rawTexels c bytes)
  else if full / 32 < m then some (rep 64 0)
  else
    let cs := fmtChans c
    let chans := decodeChans cs (leNat (bytes.take (32 * m)))
    some ((countUp 0 64).map (fun i => joinChans cs (chans.map (fun v => lget 0 v i))))

/-- A block as it is written out: its metadata byte and its bytes; the coded form where that is shorter (R267). -/
def writeBlock (c : Nat) (ts : List Nat) : Nat × List Byte :=
  let full := 64 * texelBytes c
  let raw := ts.flatMap (natLe (texelBytes c))
  let code := codeBlock (fmtChans c) (ts.map (splitChans (fmtChans c)))
  if code.length < full then (code.length / 32, code) else (full / 32, raw)

end Sys2Proof.Machine
end

