-- ==== Sys2Proof/Machine/Eas.lean ====
section
/-! DEFINITION. The easel (13): flips, the decision and the latch point, composition, safelight regions, the DisplayPort link, AUX and
the EAS registers. -/

namespace Sys2Proof.Machine

/-! ### Layer records and safelight entries (Tables 13.3, 13.4) -/

/-- MODE.ENABLE of a layer record. -/
def layOn (b : List Byte) : Bool := leAt b 0x11 1 % 2 == 1

/-- The format a layer is read as: sRGB layers are read as plain U8 codes (R339). -/
def layFmt (b : List Byte) : Nat := if leAt b 0x10 1 = 4 then 3 else leAt b 0x10 1

/-- Whether a destination dimension lies between a quarter of its source, rounded up, and 16 times it (R340). -/
def scaleOk (src dst : Nat) : Bool := decide (ceilDiv src 4 ≤ dst) && decide (dst ≤ 16 * src)

/-- Whether an enabled layer record keeps Table 13.3 and R340 on an output of `h` by `v` active pixels. -/
def layerLegal (h v : Nat) (b : List Byte) : Bool :=
  let m := leAt b 0x11 1
  let g (o : Nat) : Nat := leAt b o 2
  decide (leAt b 0x10 1 ∈ [3, 4, 8, 12]) && decide (m / 2 % 4 ≠ 3) && decide (m / 8 % 4 ≠ 3) && decide (m < 32) && zeroAt b 0x13 1
    && zeroAt b 0x30 16 && leAt b 0 8 % 4096 == 0
    && (if m / 8 % 4 = 2 then leAt b 0x28 8 % 8 == 0 else leAt b 0x28 8 == 0)
    && decide (1 ≤ g 0x14) && decide (g 0x14 ≤ 16384) && decide (1 ≤ g 0x16) && decide (g 0x16 ≤ 16384)
    && decide (g 0x18 + g 0x1C ≤ g 0x14) && decide (g 0x1A + g 0x1E ≤ g 0x16)
    && decide (g 0x20 + g 0x24 ≤ h) && decide (g 0x22 + g 0x26 ≤ v) && scaleOk (g 0x1C) (g 0x24) && scaleOk (g 0x1E) (g 0x26)

/-- Whether a coefficient table keeps R340: each phase sums to 1,024 and every value lies from -2,048 to 2,047. -/
def coeffLegal (t : List Byte) : Bool :=
  (countUp 0 64).all (fun ph =>
    let cs := (countUp 0 4).map (fun k => sx 16 (leAt t (8 * ph + 2 * k) 2))
    cs.sum == 1024 && cs.all (fun c => decide (-2048 ≤ c) && decide (c ≤ 2047)))

/-- ACTION of a safelight entry. -/
def safeAction (b : List Byte) : Nat := leAt b 8 1

/-- Whether a safelight entry keeps Table 13.4. -/
def safeLegal (h v : Nat) (b : List Byte) : Bool :=
  decide (safeAction b ≤ 3) && zeroAt b 9 7 && zeroAt b 0x18 8
    && (safeAction b == 0 || (decide (leAt b 0 2 < leAt b 4 2) && decide (leAt b 4 2 ≤ h) && decide (leAt b 2 2 < leAt b 6 2)
      && decide (leAt b 6 2 ≤ v)))

/-! ### Registers' fields -/

/-- EAS_CTL.ENABLE. -/
def easOn (u : EasUnit) : Bool := bit u.ctl 0

/-- Active pixels of a line. -/
def hActive (u : EasUnit) : Nat := fld u.timH 15 0

/-- Active lines of a frame. -/
def vActive (u : EasUnit) : Nat := fld u.timV 15 0

/-- Owner of layer `i` (Table 13.10). -/
def layerOwner (u : EasUnit) (i : Nat) : Nat := fld u.owner (4 * i + 3) (4 * i)

/-- A flag of EAS_ERR raised. -/
def easErr (s : State) (d : DieId) (flag : Nat) : State := setEas s d { getEas s d with err := errRaise (getEas s d).err s.now flag }

/-- The easel's own logbook entry. -/
def easLog (s : State) (d : DieId) (code a b : Nat) : State := logEntry s d { code := code, kind := 0x02, index := 11, detail := detV a b }

/-! ### Acceptance (R334, R335) -/

/-- Whether a flip descriptor keeps Table 13.1 and the rules of R335 that need no scene block. -/
def flipLegal (u : EasUnit) (d : DieId) (tenant : Nat) (b : List Byte) : Bool :=
  let flags := leAt b 0x29 1
  let group := leAt b 0x2A 1
  decide (leAt b 0x10 8 < 2 ^ 48) && leAt b 0x20 8 % 64 == 0 && decide (flags < 4) && decide (group < 16) && zeroAt b 0x2B 1
    && zeroAt b 0x30 16
    && (tenant == 0 || (countUp 0 8).all (fun i => !((leAt b 0x28 1).testBit i) || layerOwner u i == tenant))
    && (tenant == 0 || !(flags.testBit 1))
    && (group == 0 || (group.testBit d.val && bit u.ctl 1))
    && decide (u.pending.length < 8)

/-- The flip rejected: EAS_ERR.MALFORMED and the EAS_MALFORMED entry (R335). -/
def rejectFlip (s : State) (d : DieId) (x : Submission) : State := rejectMalformed (easErr s d 2) d 11 x 0x0801 0

/-- Ranges translated in order; frames by page and the objects named, or the first failure. -/
def translateRanges (d : DieId) (c : Nat) : List (Nat × Nat) → State → Map Nat → List Nat → Except (Nat × Nat) (Map Nat × List Nat) × State
  | [], s, m, os => (.ok (m, os), s)
  | (va, n) :: r, s, m, os =>
    match translateRange s d c va n {} with
    | (.error e, s1) => (.error e, s1)
    | (.ok (pm, po), s1) => translateRanges d c r s1 (pm.foldl (fun a e => mins a e.1 e.2) m) (joinObjs os po)

/-- The ranges of an enabled layer: DATA, META where it has one, and the coefficient table where it uses one (R334). -/
def layerRanges (b : List Byte) : List (Nat × Nat) :=
  let w := leAt b 0x14 2
  let h := leAt b 0x16 2
  [(leAt b 0 8, levelBytes (layFmt b) w h 0)]
    ++ (if leAt b 8 8 = 0 then [] else [(leAt b 8 8, ceilDiv w 8 * ceilDiv h 8)])
    ++ (if leAt b 0x11 1 / 8 % 4 = 2 then [(leAt b 0x28 8, 512)] else [])

/-- The layers a flip replaces, resolved in ascending order; a disabled record resolves to nothing. -/
def resolveLayers (d : DieId) (c tenant : Nat) : List (List Byte) → State → List Layer → Except (Nat × Nat) (List Layer) × State
  | [], s, ls => (.ok ls, s)
  | b :: r, s, ls =>
    if ¬ layOn b then resolveLayers d c tenant r s (ls ++ [layerOff])
    else
      match translateRanges d c (layerRanges b) s [] [] with
      | (.error e, s1) => (.error e, s1)
      | (.ok (m, os), s1) => resolveLayers d c tenant r s1 (ls ++ [{ bytes := b, ctx := c, tenant := tenant, pages := m, pins := os }])

/-- Reads of ranges of resolved pages meet the parity of their memory (R289). -/
def notePages (m : Map Nat) (s : State) (l : List (Nat × Nat)) : State :=
  l.foldl (fun t r => match pageLook m r.1 with | some pa => noteRead t pa r.2 | none => t) s

/-- Whether the coefficient tables of the enabled layers that use one keep R340, as they are read at acceptance. The check belongs to the
form of the flip, so it comes before the other sides are translated (R100); a table that cannot be read breaks no form. -/
def coeffsOk (d : DieId) (c : Nat) : List (List Byte) → State → Bool × State
  | [], s => (true, s)
  | b :: r, s =>
    if ¬ layOn b ∨ leAt b 0x11 1 / 8 % 4 ≠ 2 then coeffsOk d c r s
    else
      let va := leAt b 0x28 8
      match translateRange s d c va 512 {} with
      | (.error _, s1) => coeffsOk d c r s1
      | (.ok (m, _), s1) =>
        let s2 := notePages m s1 ((countUp 0 64).map (fun k => (va + 8 * k, 8)))
        match readPages s2 d m va 512 with
        | some t => if coeffLegal t then coeffsOk d c r s2 else (false, s2)
        | none => coeffsOk d c r s2

/-- The fence a flip waits on: its physical address and its object, or its fault (R334, R336). -/
def waitSide (s : State) (d : DieId) (c : Nat) (b : List Byte) : Except (Nat × Nat) (Option Nat × List Nat) × State :=
  let va := leAt b 0x10 8
  if va = 0 then (.ok (none, []), s)
  else
    match translate s d c va { fence := true } with
    | (.error e, s1) => (.error (va, e), s1)
    | (.ok (pa, o), s1) => if reach s1 d (dieOf pa) then (.ok (some pa, [o]), s1) else (.error (va, 0x0A), s1)

/-- The easel takes the flip at the head of its submission queue, or rejects it (R334, R335). -/
def acceptEas (s : State) (d : DieId) (x : Submission) : State :=
  let b := x.desc
  let u := getEas s d
  let c := subCtx s d x
  let t := subTenant s d x
  let scene := leAt b 0x20 8
  if ¬ domLit s d 10 then s
  else if ¬ flipLegal u d t b then rejectFlip s d x
  else
    match translateRange s d c scene 1024 {} with
    | (.error (va, e), s1) => rejectXlate s1 d 11 x va e
    | (.ok (sm, so), s0) =>
      let s1 := notePages sm s0 ((countUp 0 16).map (fun k => (scene + 64 * k, 64)))
      match readPages s1 d sm scene 1024 with
      | none => rejectFlip s1 d x
      | some blk =>
        let recs := (countUp 0 8).map (fun i => if (leAt b 0x28 1).testBit i then (blk.drop (64 * i)).take 64 else [])
        let safe := (leAt b 0x29 1).testBit 1
        let table := (countUp 0 16).map (fun k => (blk.drop (0x200 + 32 * k)).take 32)
        if ¬ recs.all (fun r => !layOn r || layerLegal (hActive u) (vActive u) r) ∨ (safe ∧ ¬ table.all (safeLegal (hActive u) (vActive u))) then
          rejectFlip s1 d x
        else
          match coeffsOk d c recs s1 with
          | (false, s2) => rejectFlip s2 d x
          | (true, s1) =>
          match resolveLayers d c t recs s1 [] with
          | (.error (va, e), s2) => rejectXlate s2 d 11 x va e
          | (.ok ls, s2) =>
            match waitSide s2 d c b with
            | (.error (va, e), s3) => rejectXlate s3 d 11 x va e
            | (.ok (wpa, wo), s3) =>
              match fenceSide s3 d c b with
              | (.error (va, e), s4) => rejectXlate s4 d 11 x va e
              | (.ok (hasF, fpa, fo), s4) =>
                let own := joinObjs (joinObjs so wo) fo
                let pins := own ++ ls.flatMap (fun l => l.pins)
                if ¬ pins.all (fun o => decide (pinCount s4 d o + pins.count o < 2 ^ 20)) then rejectXlate s4 d 11 x scene 0x0D
                else
                  let f : Flip := {
                    ctx := c, tenant := t, queue := x.queue, count := x.count, sub := nextCount s4 d 11, fence := hasF, fencePa := fpa,
                    value := le64 (b.drop 8), waitPa := wpa, waitValue := le64 (b.drop 0x18), layers := leAt b 0x28 1,
                    mailbox := (leAt b 0x29 1).testBit 0, safe := safe, group := leAt b 0x2A 1, groupId := leAt b 0x2C 4, records := ls,
                    table := table, at_ := dtime s4 d, waitLogged := false, pins := own }
                  let s5 := acceptSub s4 d 11 x pins
                  setEas s5 d { getEas s5 d with pending := (getEas s5 d).pending ++ [f] }

/-- FLIP_ACCEPT (R335): the easel takes the flip at the head of its submission queue. -/
def execFlipAccept (d : DieId) (s : State) : Host.Outcome State Fault Refusal :=
  match headSub s d 11 with
  | some x => if dieRuns s d ∧ ¬ (engineOf s d 11).fenced then
      ok (settleSubs (if ctxFaulted s d x then rejectFaulted s d 11 x else acceptEas s d x) d 11)
    else ok s
  | none => ok s

/-! ### The decision instant (R336, R338) -/

/-- Whether a flip's wait is satisfied now (R80), or it has none. -/
def flipWaitOver (s : State) (d : DieId) (f : Flip) : Bool :=
  match f.waitPa with
  | some pa => waitHolds s d pa f.waitValue
  | none => true

/-- The longest run of ready flips that starts with the oldest of these. A group flip is ready only by its group's decision, which is taken for
the oldest flip alone (R338), so none of these is. -/
def readyPrefix (s : State) (d : DieId) (l : List Flip) : List Flip := l.takeWhile (fun f => f.group == 0 && flipWaitOver s d f)

/-- The flips applied of a ready prefix: the first, and those with MAILBOX that follow it until one without. -/
def appliedRun : List Flip → List Flip
  | [] => []
  | f :: r => f :: r.takeWhile (fun x => x.mailbox)

/-- Whether composition and latching run: the EAS domain is lit. -/
def easRuns (s : State) (d : DieId) : Bool := s.board.powerOk && domLit s d 10

/-- The decision instant of an output (R336, R338): the flips to apply; where the oldest is a group flip, what the member reports to its
leader, and the flips to apply if the group's decision is to apply. -/
def decideFlips (s : State) (d : DieId) : EasUnit :=
  let u := { getEas s d with instant := true }
  match u.pending with
  | [] => { u with decided := [] }
  | f :: r =>
    if f.group = 0 then { u with decided := appliedRun (readyPrefix s d (f :: r)) }
    else { u with decided := [], report := some (f.group, f.groupId, flipWaitOver s d f), held := appliedRun (f :: readyPrefix s d r) }

/-- FLIP_DECISION (R336): once before each latch point. -/
def execFlipDecision (d : DieId) (s : State) : Host.Outcome State Fault Refusal :=
  event (easRuns s d && !(getEas s d).instant) s (setEas s d (decideFlips s d))

/-- The outputs of a flip group. -/
def groupMembers (g : Nat) : List DieId := allDies.filter (fun n => g.testBit n.val)

/-- The leader of a flip group: its lowest-numbered output (R338). -/
def groupLeader (g : Nat) : Option DieId := (groupMembers g).head?

/-- Whether the leader's flip of a group applies: the report of every member has reached it, with the same GROUP and GROUP_ID, ready, and every
member has the leader's timing (R338). -/
def groupApplies (s : State) (leader : DieId) (g i : Nat) : Bool :=
  let u := getEas s leader
  (groupMembers g).all (fun n =>
    reach s n leader && (getEas s n).report == some (g, i, true)
    && (getEas s n).timH == u.timH && (getEas s n).timV == u.timV && (getEas s n).pclk == u.pclk)

/-- The leader's decision on its own group flip, which it takes once before a latch point; none where it has reported no group flip. -/
def leaderDecision (s : State) (leader : DieId) : Option (Nat × Nat × Bool) :=
  match (getEas s leader).report with
  | some (g, i, _) =>
    some (g, i, match (getEas s leader).groupDecision with
      | some (_, v) => v
      | none => groupApplies s leader g i)
  | none => none

/-- A member takes its leader's decision: the flips that wait for it are applied or kept. -/
def takeDecision (u : EasUnit) (id : Nat) (v : Bool) : EasUnit :=
  { u with groupDecision := some (id, v), decided := if v then u.held else [] }

/-- FLIP_GROUP_DECISION (R338): the leader sends its decision to every member whose report has reached it and that has none: to apply, where
the report names the group flip that the leader applies, and not to apply otherwise. -/
def execFlipGroupDecision (leader : DieId) (s : State) : Host.Outcome State Fault Refusal :=
  let own := leaderDecision s leader
  event (easRuns s leader && (getEas s leader).instant) s
    { s with eas := qmap (fun n u =>
        match u.report, u.groupDecision with
        | some (g, i, _), none =>
          if groupLeader g = some leader ∧ reach s n leader then takeDecision u i (own == some (g, i, true)) else u
        | _, _ => u) s.eas }

/-- FLIP_GROUP_SPLIT (R338): no decision has reached the member by 5 us before the latch point; it keeps its scene, and a decision that
comes later finds no report. -/
def execFlipGroupSplit (d : DieId) (s : State) : Host.Outcome State Fault Refusal :=
  let u := getEas s d
  match u.report, u.groupDecision with
  | some (g, i, _), none =>
    let s1 := setEas s d { u with decided := [], held := [], report := none, err := errRaise u.err s.now 4 }
    event (easRuns s d) s (easLog s1 d 0x0802 g i)
  | _, _ => ok s

/-- FLIP_GROUP_WAIT (R338): once for a group flip that has waited 100 ms. -/
def execFlipGroupWait (d : DieId) (s : State) : Host.Outcome State Fault Refusal :=
  let u := getEas s d
  let due (f : Flip) : Bool := decide (f.group ≠ 0) && !f.waitLogged && decide (f.at_ + 100000000 ≤ dtime s d)
  match u.pending.find? due with
  | none => ok s
  | some f =>
    let mark (g : Flip) : Flip := if g = f then { g with waitLogged := true } else g
    ok (easLog (setEas s d { u with pending := u.pending.map mark, decided := u.decided.map mark }) d 0x0803 f.group f.groupId)

/-! ### The latch point (R336, R337, R344 to R346, R350) -/

/-- Regions of the table in force whose signature of the frame just scanned differs from EXPECTED (R345). -/
def mismatches (u : EasUnit) : List Nat :=
  (countUp 0 16).filter (fun k =>
    let b := lget [] u.table k
    decide (2 ≤ safeAction b) && decide (mget 0 u.accum k ≠ le64 (b.drop 0x10)))

/-- The SAFELIGHT_MISMATCH entries of a frame, at most one per region per second (R345). -/
def logMismatch (s : State) (d : DieId) : List Nat → State
  | [] => s
  | k :: r =>
    let u := getEas s d
    let due := match mfind u.safeAt k with | some t => decide (t + 1000000000 ≤ dtime s d) | none => true
    if due then
      let s1 := setEas s d { u with safeAt := mins u.safeAt k (dtime s d) }
      logMismatch (easLog s1 d 0x0805 k (mget 0 u.accum k).toNat) d r
    else logMismatch s d r

/-- A mask of a list of bit numbers. -/
def maskList (l : List Nat) : Nat := l.foldl (fun a k => a ||| 2 ^ k) 0

/-- Signatures written and judged for the frame just scanned; without a whole frame since the last latch point they stay (R344, R345). -/
def judgeFrame (s : State) (d : DieId) : State :=
  let u := getEas s d
  if u.line = 0 ∨ u.line < vActive u then s
  else
    let bad := mismatches u
    let black := (countUp 0 16).filter (fun k => safeAction (lget [] u.table k) == 3 && decide (k ∈ bad))
    let crcs := (countUp 0 16).foldl (fun m k => mput 0 m k (if safeAction (lget [] u.table k) = 0 then 0 else mget 0 u.accum k)) u.crcs
    let err := if bad.isEmpty then u.err else errCount (errRaise u.err s.now 0) s.now 47 32 bad.length
    logMismatch (setEas s d { u with crcs := crcs, mismatch := maskList bad, blackout := maskList black, err := err }) d bad

/-- A flip's layers and safelight table put into the scene; the pins of the layers it replaces wait for the first active line. -/
def applyFlip (u : EasUnit) (f : Flip) : EasUnit :=
  let hit (i : Nat) : Bool := f.layers.testBit i
  let gone := (u.layers.zipIdx).flatMap (fun p => if hit p.2 then p.1.pins else [])
  { u with layers := (u.layers.zipIdx).map (fun p => if hit p.2 then lget layerOff f.records p.2 else p.1),
           release := u.release ++ gone, table := if f.safe then f.table else u.table,
           blackout := if f.safe then 0 else u.blackout }

/-- Layers of a mask disabled (R346). -/
def disableLayers (u : EasUnit) (mask : Nat) : EasUnit :=
  let gone := (u.layers.zipIdx).flatMap (fun p => if mask.testBit p.2 then p.1.pins else [])
  { u with layers := (u.layers.zipIdx).map (fun p => if mask.testBit p.2 then layerOff else p.1), release := u.release ++ gone, disable := 0 }

/-- Whether a latch point now lies within one line period after the start of a frame epoch and the nominal frame period within 0.5 %
of the epoch period (R350). -/
def lockedNow (s : State) (d : DieId) : Bool :=
  let u := getEas s d
  let t := getTime s d
  let khz := fld u.pclk 31 0
  let ht := fld u.timH 31 16
  let frame := ht * fld u.timV 31 16 * 1000000
  bit u.ctl 0 && bit u.ctl 1 && decide (t.epochStart ≤ t.dt) && decide ((t.dt - t.epochStart) % t.period * khz ≤ ht * 1000000)
    && decide ((frame - t.period * khz) * 200 ≤ t.period * khz) && decide ((t.period * khz - frame) * 200 ≤ t.period * khz)

/-- LATCH_POINT (R336, R337): the frame just scanned is judged, the flips decided take effect, and a new frame begins. While the output runs
with its link up the latch point follows the last active line; otherwise it falls at the start of each frame epoch. -/
def execLatchPoint (d : DieId) (s : State) : Host.Outcome State Fault Refusal :=
  let u0 := getEas s d
  let s1 := judgeFrame s d
  let u := getEas s1 d
  let u1 := disableLayers (u.decided.foldl applyFlip u) u.disable
  let u2 : EasUnit := { u1 with pending := u1.pending.filter (fun f => !(decide (f ∈ u.decided))), fresh := u1.fresh ++ u.decided, decided := [],
                                groupDecision := none, instant := false, report := none, held := [], latchDue := false,
                                frame := (u1.frame + 1) % 2 ^ 32, line := 0, accum := [], locked := lockedNow s d }
  event (easRuns s d && (if easOn u0 && u0.linkUp then u0.line == vActive u0 else u0.latchDue)) s (setEas s1 d u2)

/-- The start of a frame epoch is a latch point of an output that is off or whose link is down (R337). -/
def easEpoch (s : State) (d : DieId) : State :=
  let u := getEas s d
  if easOn u && u.linkUp then s else setEas s d { u with latchDue := true }

/-- A link that has trained comes up with the next frame (Table 13.6). -/
def linkStarts (u : EasUnit) : EasUnit :=
  match u.trained with
  | some (r, l) => { u with trained := none, linkUp := true, rate := r, lanes := l }
  | none => u

/-- FIRST_ACTIVE_LINE (R337): the fences of the applied flips are signalled, and the pins of replaced and disabled layers released. A frame
starts here, so a link that has trained comes up (Table 13.6). -/
def execFirstActiveLine (d : DieId) (s : State) : Host.Outcome State Fault Refusal :=
  let u := getEas s d
  let s1 := setEas s d { linkStarts u with fresh := [], release := [] }
  let s2 := u.fresh.foldl (fun x f => opFinish x d f.queue f.count f.fence f.fencePa f.value f.pins) s1
  event (easRuns s d && u.line == 0) s (dropPins s2 d u.release)

/-! ### Composition (R339 to R343) -/

/-- Bytes of a layer's memory; none while their die is out of reach. A poisoned byte's value is free, one value at every reading (R342, log 4). -/
def layerBytes (s : State) (d : DieId) (l : Layer) (va n : Nat) : Option (List Byte) :=
  let pas := (countUp va n).map (pageLook l.pages)
  if pas.all (fun p => match p with | some a => reach s d (dieOf a) | none => false) then
    some (pas.map (fun p => match p with | some a => if poisonAt s a then Config.freeByte 0 a else memByte s a | none => 0))
  else none

/-- VA of the metadata byte of block `blk` of a layer. -/
def layMeta (b : List Byte) (blk : Nat) : Nat := leAt b 8 8 + blk

/-- One texel of a layer, decoded (R264, R267, R339). A block in the clear state has the image's clear value, which no layer record holds: it is
free, and the same at every reading (R342, log 4). -/
def layerTexel (s : State) (d : DieId) (l : Layer) (x y : Nat) : Option (List W32) :=
  let b := l.bytes
  let f := layFmt b
  let p := blockAt f (leAt b 0x14 2) x y
  let va := leAt b 0 8 + p.1 * (64 * texelBytes f)
  if leAt b 8 8 = 0 then (layerBytes s d l (va + p.2 * texelBytes f) (texelBytes f)).map (fun t => decodeTexel f (leNat t))
  else
    (layerBytes s d l (layMeta b p.1) 1).bind (fun m =>
      let code := leNat m
      let n := if 2 * texelBytes f < code then 0 else 32 * code
      (layerBytes s d l va n).map (fun t =>
        match readBlock f code t with
        | some ts => decodeTexel f (lget 0 ts p.2)
        | none => (countUp 0 4).map (Config.clearTexel (leAt b 8 8) f)))

/-- What the easel reads of a layer for one texel: a virtual address and a length each (R264, R267). -/
def texelReads (l : Layer) (x y : Nat) : List (Nat × Nat) :=
  let b := l.bytes
  let f := layFmt b
  let p := blockAt f (leAt b 0x14 2) x y
  let va := leAt b 0 8 + p.1 * (64 * texelBytes f)
  if leAt b 8 8 = 0 then [(va + p.2 * texelBytes f, texelBytes f)] else [(layMeta b p.1, 1), (va, 64 * texelBytes f)]

/-- Source position of a destination place: its texel and its phase (R340). -/
def scalePos (sw dw x : Nat) : Int × Nat :=
  let t : Int := (((2 * x + 1) * sw * 32768 / dw : Nat) : Int) - 32768
  (t / 65536, (t % 65536).toNat / 1024)

/-- The four source places of a destination place, clamped, offset (R340). -/
def scaleTaps (sw so dw x : Nat) : List Nat :=
  let i := (scalePos sw dw x).1
  (countUp 0 4).map (fun (t : Nat) => so + min (i - 1 + (t : Int)).toNat (sw - 1))

/-- Coefficient `t` of a phase, in 1/1024 (R340). -/
def coeffAt (filter : Nat) (table : List Byte) (ph t : Nat) : Int :=
  match filter with
  | 0 => if (t = 1 ∧ ph < 32) ∨ (t = 2 ∧ 32 ≤ ph) then 1024 else 0
  | 1 => if t = 1 then 1024 - 16 * ph else if t = 2 then 16 * ph else 0
  | _ => sx 16 (leAt table (8 * ph + 2 * t) 2)

/-- A coefficient in FP32. -/
def coeff32 (c : Int) : W32 := if c = 0 then 0 else (pack32 true (decide (c < 0)) c.natAbs (-10)).v

/-- The four-tap sum of R340, each operation rounded in strict FP32. -/
def filter4 (cs vs : List W32) : W32 :=
  match cs.zip vs with
  | [] => 0
  | (c, v) :: r => r.foldl (fun acc p => (fAdd true acc (fMul true p.1 p.2).v).v) (fMul true c v).v

/-- A list of choices as a choice of a list. -/
def allSome {α : Type} : List (Option α) → Option (List α)
  | [] => some []
  | some a :: r => (allSome r).map (fun l => a :: l)
  | none :: _ => none

/-- Component `k` of each item filtered. -/
def filterComp (cs : List W32) (vs : List (List W32)) : List W32 := (countUp 0 4).map (fun k => filter4 cs (vs.map (fun v => lget 0 v k)))

/-- The scaled sample of a layer at output pixel (x, y) within its destination: four components (R340). -/
def layerSample (s : State) (d : DieId) (l : Layer) (x y : Nat) : Option (List W32) :=
  let b := l.bytes
  let g (o : Nat) : Nat := leAt b o 2
  let filter := leAt b 0x11 1 / 8 % 4
  let dx := x - g 0x20
  let dy := y - g 0x22
  (if filter = 2 then layerBytes s d l (leAt b 0x28 8) 512 else some []).bind (fun table =>
    let cx := (countUp 0 4).map (fun t => coeff32 (coeffAt filter table (scalePos (g 0x1C) (g 0x24) dx).2 t))
    let cy := (countUp 0 4).map (fun t => coeff32 (coeffAt filter table (scalePos (g 0x1E) (g 0x26) dy).2 t))
    let rows := (scaleTaps (g 0x1E) (g 0x1A) (g 0x26) dy).map (fun sy =>
      (allSome ((scaleTaps (g 0x1C) (g 0x18) (g 0x24) dx).map (fun sx => layerTexel s d l sx sy))).map (filterComp cx))
    (allSome rows).map (filterComp cy))

/-- One layer composed onto a colour (R341): the layer's MODE.BLEND, its opacity, the sample, the colour. -/
def blendLayer (blend : Nat) (p : W32) (smp c : List W32) : List W32 :=
  let a := lget 0 smp 3
  let ap := (fMul true a p).v
  (countUp 0 3).map (fun k =>
    let v := lget 0 smp k
    let w := lget 0 c k
    let sum (x y : W32) : W32 := (fAdd true x y).v
    let mul (x y : W32) : W32 := (fMul true x y).v
    let rest (x : W32) : W32 := (fSub true one32 x).v
    if blend = 0 then sum (mul v p) (mul w (rest p))
    else if blend = 1 then sum (mul v ap) (mul w (rest ap))
    else sum (mul v p) (mul w (rest ap)))

/-- Whether a layer's destination contains a pixel. -/
def layerCovers (b : List Byte) (x y : Nat) : Bool :=
  layOn b && decide (leAt b 0x20 2 ≤ x) && decide (x < leAt b 0x20 2 + leAt b 0x24 2) && decide (leAt b 0x22 2 ≤ y)
    && decide (y < leAt b 0x22 2 + leAt b 0x26 2)

/-- Layers composed in ascending order; the first whose data is late ends the pixel in the colour below it (R341, R343). -/
def composeLayers (s : State) (d : DieId) (late : List (Nat × Nat)) (x y : Nat) : List (Layer × Nat) → List W32 → List W32 × Bool
  | [], c => (c, false)
  | (l, i) :: r, c =>
    if ¬ layerCovers l.bytes x y then composeLayers s d late x y r c
    else if (i, x) ∈ late then (c, true)
    else
      match layerSample s d l x y with
      | some smp => composeLayers s d late x y r (blendLayer (leAt l.bytes 0x11 1 / 2 % 4) (decodeChan (.unorm 8) (leAt l.bytes 0x12 1)) smp c)
      | none => (c, true)

/-- The three 10-bit codes of a colour register. -/
def colourCodes (v : W64) : Nat × Nat × Nat := (fld v 9 0, fld v 19 10, fld v 29 20)

/-- The composed 10-bit value of a pixel, and whether data was late (R341 to R343). -/
def composePixel (s : State) (d : DieId) (late : List (Nat × Nat)) (x y : Nat) : (Nat × Nat × Nat) × Bool :=
  let u := getEas s d
  let bg := colourCodes u.bg
  let c := composeLayers s d late x y u.layers.zipIdx [decodeChan (.unorm 10) bg.1, decodeChan (.unorm 10) bg.2.1, decodeChan (.unorm 10) bg.2.2]
  ((encodeUnorm 10 (lget 0 c.1 0), encodeUnorm 10 (lget 0 c.1 1), encodeUnorm 10 (lget 0 c.1 2)), c.2)

/-- Whether the scene fetches 24 GB/s or less, so that no line is late (R343). -/
def fetchFits (u : EasUnit) : Bool :=
  let bytes := ((u.layers.filter (fun l => layOn l.bytes)).map (fun l => leAt l.bytes 0x1C 2 * leAt l.bytes 0x1E 2 * texelBytes (layFmt l.bytes))).sum
  decide (bytes * fld u.pclk 31 0 * 1000 ≤ 24000000000 * (fld u.timH 31 16 * fld u.timV 31 16))

/-- Whether a pixel lies in a safelight region. -/
def inRegion (b : List Byte) (x y : Nat) : Bool :=
  decide (leAt b 0 2 ≤ x) && decide (x < leAt b 4 2) && decide (leAt b 2 2 ≤ y) && decide (y < leAt b 6 2)

/-- A pixel's bytes in a signature (R344). -/
def sigBytes (p : Nat × Nat × Nat) : List Byte := natLe 2 p.1 ++ natLe 2 p.2.1 ++ natLe 2 p.2.2

/-- Signatures of a line's regions carried on (R344). -/
def accumLine (u : EasUnit) (row : List (Nat × Nat × Nat)) (y : Nat) : Map W64 :=
  (countUp 0 16).foldl (fun m k =>
    let b := lget [] u.table k
    let bytes := (row.zipIdx).flatMap (fun p => if inRegion b p.2 y then sigBytes p.1 else [])
    if safeAction b = 0 then m else mput 0 m k (crc64 (mget 0 m k).toNat bytes)) u.accum

/-- What the wire carries of a pixel: blacked-out regions in the EAS_BLACKOUT colour, 8 bits where BPC10 is 0 (R341, R345). -/
def wirePixel (u : EasUnit) (p : Nat × Nat × Nat) (x y : Nat) : Nat × Nat × Nat :=
  let black := (countUp 0 16).any (fun k => u.blackout.testBit k && inRegion (lget [] u.table k) x y)
  let q := if black then colourCodes u.blackoutCol else p
  let w (c : Nat) : Nat := if bit u.ctl 2 then c else (c * 255 + 511) / 1023
  (w q.1, w q.2.1, w q.2.2)

/-- The metadata bytes of a line's blocks that are no block state (R267): their addresses and values. -/
def badMeta (s : State) (d : DieId) (l : Layer) (y : Nat) : List (Nat × Nat) :=
  let b := l.bytes
  let g (o : Nat) : Nat := leAt b o 2
  let f := layFmt b
  if ¬ layOn b ∨ leAt b 8 8 = 0 ∨ y < g 0x22 ∨ g 0x22 + g 0x26 ≤ y then []
  else
    let cols := ((countUp 0 (g 0x24)).flatMap (scaleTaps (g 0x1C) (g 0x18) (g 0x24))).map (fun x => x / 8)
    let rows := (scaleTaps (g 0x1E) (g 0x1A) (g 0x26) (y - g 0x22)).map (fun x => x / 8)
    let vas := (rows.eraseDups.flatMap (fun r => cols.eraseDups.map (fun c => layMeta b (r * ceilDiv (g 0x14) 8 + c))))
    vas.filterMap (fun va => ((layerBytes s d l va 1).map leNat).bind (fun m => if 2 * texelBytes f < m then some (va, m) else none))

/-- What the easel reads of a layer for output line `y` (R340). -/
def lineReads (l : Layer) (y : Nat) : List (Nat × Nat) :=
  let b := l.bytes
  let g (o : Nat) : Nat := leAt b o 2
  if ¬ layOn b ∨ y < g 0x22 ∨ g 0x22 + g 0x26 ≤ y then []
  else
    let cols := ((countUp 0 (g 0x24)).flatMap (scaleTaps (g 0x1C) (g 0x18) (g 0x24))).eraseDups
    let rows := (scaleTaps (g 0x1E) (g 0x1A) (g 0x26) (y - g 0x22)).eraseDups
    (rows.flatMap (fun r => cols.flatMap (fun c => texelReads l c r))).eraseDups

/-- A line's reads meet the parity of their memory (R289). -/
def noteLine (s : State) (d : DieId) (y : Nat) : State :=
  (getEas s d).layers.foldl (fun t l => notePages l.pages t (lineReads l y)) s

/-- The FBC_META_BAD entries of a line (R267). -/
def logLineMeta (s : State) (d : DieId) (y : Nat) : State :=
  (getEas s d).layers.foldl (fun x l =>
    (badMeta s d l y).foldl (fun z e =>
      logEntry z d { code := 0x0407, kind := 0x02, index := 11, tenant := some l.tenant, ctx := some l.ctx, detail := detA e.1 e.2 0 0 0,
                     addr := e.1, cause := e.2 }) x) s

/-- The EAS_UNDERRUN flag, count and entry, at most one a second (R343). -/
def underrun (s : State) (d : DieId) (y : Nat) : State :=
  let u := getEas s d
  let due := match u.underAt with | some t => decide (t + 1000000000 ≤ dtime s d) | none => true
  let s1 := setEas s d { u with err := errCount (errRaise u.err s.now 1) s.now 31 16 1, underAt := if due then some (dtime s d) else u.underAt }
  if due then easLog s1 d 0x0804 y u.frame else s1

/-- LINE_COMPOSE (R341): the next active line is composed, its regions' signatures are carried on, and it is sent. `late` names the
layers and columns whose data is late. -/
def execLineCompose (d : DieId) (y : Nat) (late : List (Nat × Nat)) (s0 : State) : Host.Outcome State Fault Refusal :=
  let u := getEas s0 d
  let s := noteLine s0 d y
  let lt := if fetchFits u then [] else late
  let px := (countUp 0 (hActive u)).map (fun x => composePixel s d lt x y)
  let row := px.map (fun p => p.1)
  let s1 := setEas s d { u with accum := accumLine u row y, line := y + 1, lineOut := (row.zipIdx).map (fun p => wirePixel u p.1 p.2 y) }
  let s2 := logLineMeta s1 d y
  event (easRuns s0 d && easOn u && u.line == y && decide (y < vActive u) && (decide (y ≠ 0) || u.fresh.isEmpty && u.release.isEmpty)) s0
    (if px.any (fun p => p.2) then underrun s2 d y else s2)

/-! ### The link (R347 to R349) -/

/-- The link taken down. -/
def linkDown (u : EasUnit) : EasUnit := { u with linkUp := false, rate := 0, lanes := 0, trained := none }

/-- Training begins (Table 13.6) where the output runs with a sink. -/
def startTraining (u : EasUnit) : EasUnit :=
  if easOn u && u.hpd then { linkDown u with training := true, tries := 0, failed := false }
  else { linkDown u with training := false }

/-- A link that is up, or has trained and comes up with the next frame, is lost: the DP_LINK_LOST entry (R349). -/
def linkLost (s : State) (d : DieId) : State :=
  let u := getEas s d
  let (r, l) := u.trained.getD (u.rate, u.lanes)
  if u.linkUp || u.trained.isSome then easLog (setEas s d (linkDown u)) d 0x0807 r (2 ^ l) else s

/-- HPD_PLUG (R349). -/
def execHpdPlug (d : DieId) (s : State) : Host.Outcome State Fault Refusal :=
  let u := getEas s d
  ok (setEas s d (if u.hpd then { u with hpd := true } else startTraining { u with hpd := true }))

/-- HPD_UNPLUG (R349). -/
def execHpdUnplug (d : DieId) (s : State) : Host.Outcome State Fault Refusal :=
  let s1 := linkLost s d
  ok (setEas s1 d { linkDown (getEas s1 d) with hpd := false, training := false })

/-- Whether a compliance pattern belongs to the coding of a rate (Table 18.7, R431). -/
def dpPatternFits (pattern rate : Nat) : Bool :=
  pattern == 0 || (decide (1 ≤ pattern) && decide (pattern ≤ 7) && decide (1 ≤ rate) && decide (rate ≤ 3))
    || (decide (8 ≤ pattern) && decide (pattern ≤ 15) && decide (4 ≤ rate) && decide (rate ≤ 6))

/-- IRQ_HPD (R349, R431): loss of lock drops the link, which trains again; with KILN_DP.AUTO set a PHY test request is answered. -/
def execIrqHpd (d : DieId) (why : IrqReason) (s : State) : Host.Outcome State Fault Refusal :=
  let u := getEas s d
  match why with
  | .statusOk => ok s
  | .lostLock =>
    let s1 := linkLost s d
    event (u.hpd && (u.linkUp || u.trained.isSome)) s (setEas s1 d (startTraining (getEas s1 d)))
  | .phyTest p r l =>
    let k := getKiln s d
    event (u.hpd && bit k.dp 10 && !(easOn u) && dpPatternFits p.toNat r.toNat && decide (l.toNat ≤ 2)) s
      (setKiln s d { k with dpActive := packFields [(p.toNat, 0), (r.toNat, 5), (l.toNat, 8)] })

/-- Lane rate in Mb/s by rate code (R348). -/
def laneRate (r : Nat) : Nat := lget 0 [0, 2700, 5400, 8100, 10000, 13500, 20000] r

/-- Bandwidth of a combination of rate and lane code in units of 10 kb/s: lanes, lane rate and the coding's efficiency (R348). -/
def linkBw (r l : Nat) : Nat := 2 ^ l * laneRate r * (if r ≤ 3 then 80 else 96)

/-- Whether a combination carries the mode (R348). -/
def linkFits (u : EasUnit) (r l : Nat) : Bool := decide (fld u.pclk 31 0 * (if bit u.ctl 2 then 30 else 24) ≤ linkBw r l * 10)

/-- The combinations that are tried, in order (R348): the sink's rates as a mask of codes, its lanes as a code. -/
def linkTries (u : EasUnit) (sinkRates sinkLanes : Nat) : List (Nat × Nat) :=
  let rates := (countUp 1 6).filter (fun r => decide (r ≤ fld u.ctl 7 4) && sinkRates.testBit (r - 1))
  let lanes := (countUp 0 3).filter (fun l => decide (l ≤ fld u.ctl 9 8) && decide (l ≤ sinkLanes))
  let cs := (rates.flatMap (fun r => lanes.map (fun l => (r, l)))).filter (fun c => linkFits u c.1 c.2)
  sortBy (fun a b => decide (linkBw b.1 b.2 < linkBw a.1 a.2) || (linkBw b.1 b.2 == linkBw a.1 a.2 && decide (b.1 ≤ a.1))) cs

/-- DP_LINK_TRAIN (R348): the attempt of the next combination ends. Its success brings the link up at the next frame start; after the last
failure the output gives up until a plug or RETRAIN (Table 13.6). -/
def execDpLinkTrain (d : DieId) (sinkRates : BitVec 6) (sinkLanes : BitVec 2) (good : Bool) (s : State) : Host.Outcome State Fault Refusal :=
  let u := getEas s d
  let cs := linkTries u sinkRates.toNat sinkLanes.toNat
  let giveUp (n : Nat) : State :=
    easLog (setEas s d { u with training := false, failed := true, tries := n, err := errRaise u.err s.now 3 }) d 0x0806 n 0
  event (easRuns s d && u.training && u.hpd && easOn u) s
    (match cs.drop u.tries with
     | [] => giveUp u.tries
     | (r, l) :: rest =>
       if good then setEas s d { u with training := false, trained := some (r, l), tries := u.tries + 1 }
       else if rest.isEmpty then giveUp (u.tries + 1)
       else setEas s d { u with tries := u.tries + 1 })

/-! ### EAS registers -/

/-- A write of EAS_CTL (Table 13.8): enabling the output or RETRAIN trains the link; disabling it takes the link down. -/
def wrEasCtl (s : State) (d : DieId) (v : W64) : State :=
  let u := getEas s d
  if fld v 7 4 = 0 ∨ 6 < fld v 7 4 ∨ fld v 9 8 = 3 then s
  else
    let x : EasUnit := { u with ctl := keepBits v 0x3F7 }
    let y : EasUnit := { x with locked := x.locked && bit v 0 && bit v 1 }
    setEas s d (if ¬ bit v 0 then { linkDown y with training := false } else if ¬ easOn u ∨ bit v 3 then startTraining y else y)

/-- EAS_CTL_WRITE (Table 13.8). -/
def execEasCtlWrite (d : DieId) (v : W64) (s : State) : Host.Outcome State Fault Refusal := ok (viaSlot s d 14 v (fun t => wrEasCtl t d v))

/-- RETRAIN (Table 13.8): EAS_CTL written with its present value and bit 3 set. -/
def execRetrain (d : DieId) (s : State) : Host.Outcome State Fault Refusal :=
  ok (viaSlot s d 14 0 (fun t => wrEasCtl t d (setFld (getEas t d).ctl 3 3 1)))

/-- Whether a timing value keeps the limits of Table 13.9. -/
def timingLegal (top : Nat) (v : W64) : Bool :=
  decide (1 ≤ fld v 15 0) && decide (fld v 15 0 ≤ top) && decide (fld v 47 32 + fld v 63 48 ≤ fld v 31 16) && decide (fld v 15 0 ≤ fld v 47 32)
    && decide (1 ≤ fld v 63 48)

/-- A write of EAS_TIMING_H (0), EAS_TIMING_V (1) or EAS_PCLK (2): only while ENABLE is 0 (R351). -/
def wrEasTiming (s : State) (d : DieId) (reg : Nat) (v : W64) : State :=
  let u := getEas s d
  if easOn u then countDiscard s d
  else
    match reg with
    | 0 => if timingLegal 7680 v then setEas s d { u with timH := v } else s
    | 1 => if timingLegal 4320 v then setEas s d { u with timV := v } else s
    | _ => if 25000 ≤ fld v 31 0 ∧ fld v 31 0 ≤ 2250000 then setEas s d { u with pclk := keepBits v (2 ^ 34 - 1) } else s

/-- EAS_TIMING_WRITE (R351). -/
def execEasTimingWrite (d : DieId) (reg : Fin 3) (v : W64) (s : State) : Host.Outcome State Fault Refusal :=
  ok (viaSlot s d 14 v (fun t => wrEasTiming t d reg.val v))

/-- A write of EAS_ERR (Table 13.12). -/
def wrEasErr (s : State) (d : DieId) (v : W64) : State :=
  setEas s d { getEas s d with err := errClear (getEas s d).err s.now v 16 [(1, 31, 16), (0, 47, 32)] }

/-- EAS_STATUS (Table 13.12). -/
def easStatusReg (s : State) (d : DieId) : W64 :=
  let u := getEas s d
  packFields [(b2n u.hpd, 0), (b2n u.linkUp, 1), (b2n u.locked, 2), (b2n u.training, 3), (u.rate, 4), (u.lanes, 8), (u.frame, 16),
    (u.pending.length, 48)]

/-- EAS_SAFE_STATUS (Table 13.12). -/
def easSafeReg (s : State) (d : DieId) : W64 := packFields [((getEas s d).mismatch, 0), ((getEas s d).blackout, 16)]

/-! ### AUX (R347, Table 13.11) -/

/-- An AUX transaction ends: EAS_AUX_RESULT, and the bytes read. -/
def auxEnd (u : EasUnit) (status len : Nat) (data : List Byte) : EasUnit :=
  let old := natLe 8 u.rd0.toNat ++ natLe 8 u.rd1.toNat
  let all := data.take 16 ++ old.drop (min 16 data.length)
  { u with aux := none, auxResult := packFields [((fld u.auxResult 15 0 + 1) % 65536, 0), (status, 16), (len, 24)],
           rd0 := le64 all, rd1 := le64 (all.drop 8) }

/-- A write of EAS_AUX_CMD: one transaction at a time; LEN beyond 1 to 16 is reserved; without a sink it ends as NO_SINK. -/
def wrAuxCmd (s : State) (d : DieId) (op addr len : Nat) (mot : Bool) : State :=
  let u := getEas s d
  if len = 0 ∨ 16 < len ∨ u.aux.isSome then s
  else if ¬ u.hpd then setEas s d (auxEnd u 4 0 [])
  else
    let bytes := natLe 8 u.aux0.toNat ++ natLe 8 u.aux1.toNat
    setEas s d { u with aux := some { op := op, addr := addr, len := len, mot := mot, data := if op % 2 = 0 then bytes.take len else [],
                                      defers := 0 } }

/-- AUX_NATIVE_WRITE (R347). -/
def execAuxNativeWrite (d : DieId) (addr : BitVec 20) (len : BitVec 5) (mot : Bool) (s : State) : Host.Outcome State Fault Refusal :=
  ok (viaSlot s d 14 0 (fun t => wrAuxCmd t d 0 addr.toNat len.toNat mot))

/-- AUX_NATIVE_READ (R347). -/
def execAuxNativeRead (d : DieId) (addr : BitVec 20) (len : BitVec 5) (mot : Bool) (s : State) : Host.Outcome State Fault Refusal :=
  ok (viaSlot s d 14 0 (fun t => wrAuxCmd t d 1 addr.toNat len.toNat mot))

/-- AUX_I2C_WRITE (R347). -/
def execAuxI2cWrite (d : DieId) (addr : BitVec 20) (len : BitVec 5) (mot : Bool) (s : State) : Host.Outcome State Fault Refusal :=
  ok (viaSlot s d 14 0 (fun t => wrAuxCmd t d 2 addr.toNat len.toNat mot))

/-- AUX_I2C_READ (R347). -/
def execAuxI2cRead (d : DieId) (addr : BitVec 20) (len : BitVec 5) (mot : Bool) (s : State) : Host.Outcome State Fault Refusal :=
  ok (viaSlot s d 14 0 (fun t => wrAuxCmd t d 3 addr.toNat len.toNat mot))

/-- AUX_COMPLETE (R347): the sink answers the transaction in flight; a DEFER is retried up to 7 times. -/
def execAuxComplete (d : DieId) (reply : AuxReply) (s : State) : Host.Outcome State Fault Refusal :=
  let u := getEas s d
  match u.aux, s.board.powerOk with
  | some a, true =>
    match reply with
    | .ack data =>
      let got := if a.op % 2 = 1 then data.take a.len else []
      ok (setEas s d (auxEnd u 0 (if a.op % 2 = 1 then got.length else a.len) got))
    | .nack => ok (setEas s d (auxEnd u 1 0 []))
    | .defer => ok (setEas s d (if a.defers < 7 then { u with aux := some { a with defers := a.defers + 1 } } else auxEnd u 2 0 []))
    | .timeout => ok (setEas s d (auxEnd u 3 0 []))
  | _, _ => ok s

/-! ### Darkness (R375) -/

/-- EAS dark: the scene, the flips and the frame are gone; the registers, AUX and HPD lie in the base (13). An operation whose flip is gone does
not finish (R101; DESIGN CHOICE, log 15), and no pin of a layer stays. -/
def easDark (s : State) (d : DieId) : State :=
  let u := getEas s d
  let s1 := setEas s d { linkDown u with
    layers := rep 8 layerOff, table := rep 16 [], pending := [], decided := [], fresh := [], release := [], disable := 0, groupDecision := none,
    instant := false, report := none, held := [], latchDue := false, blackout := 0, locked := false, training := false, accum := [], line := 0,
    lineOut := [] }
  let s2 := u.pending.foldl (fun t f => opStop t d f.queue f.count (f.pins ++ f.records.flatMap (fun l => l.pins))) s1
  let s3 := u.fresh.foldl (fun t f => opStop t d f.queue f.count f.pins) s2
  dropPins s3 d (u.layers.flatMap (fun l => l.pins) ++ u.release)

/-! ### A tenant's reset (R346) -/

/-- A tenant's pending flips discarded, and its layers marked to be disabled at the next latch point; how many flips. -/
def discardEas (s : State) (d : DieId) (t : Nat) : Nat × State :=
  let u := getEas s d
  let gone := u.pending.filter (fun f => f.tenant == t)
  let keep (f : Flip) : Bool := !(f.tenant == t)
  let mine := (countUp 0 8).filter (fun i => layerOwner u i == t)
  let s1 := setEas s d { u with pending := u.pending.filter keep, decided := u.decided.filter keep,
                                held := if u.held.all keep then u.held else [], disable := u.disable ||| maskList mine }
  (gone.length, gone.foldl (fun x f => dropPins x d (f.pins ++ f.records.flatMap (fun l => l.pins))) s1)

end Sys2Proof.Machine
end

