-- ==== Sys2Proof/Machine/Gen.lean ====
section
/-! DEFINITION. The generation engine (10): sequences and models, the budget gate, steps, the sampling generator; and the retirement of a
record, which aborts the steps it left open (R106, R282). -/

namespace Sys2Proof.Machine

/-! ### Sequences and models (R270 to R274) -/

/-- Sequence `i` of a die. -/
def seqOf (s : State) (d : DieId) (i : Nat) : GenSeq := mget seqFree (getGen s d).seqs i

/-- Replace a sequence. -/
def setSeq (s : State) (d : DieId) (i : Nat) (x : GenSeq) : State := setGen s d { getGen s d with seqs := mput seqFree (getGen s d).seqs i x }

/-- Model `m` of a die. -/
def modelOf (s : State) (d : DieId) (m : Nat) : GenModel := mget modelFree (getGen s d).models m

/-- Replace a model. -/
def setModel (s : State) (d : DieId) (m : Nat) (x : GenModel) : State :=
  setGen s d { getGen s d with models := mput modelFree (getGen s d).models m x }

/-- A flag of GEN_ERR raised. -/
def genErr (s : State) (d : DieId) (flag : Nat) : State :=
  let u := getGen s d
  let e := errRaise u.err s.now flag
  setGen s d { u with err := if flag = 0 then errCount e s.now 31 16 1 else e }

/-- A table base write of GEN (R270): a base outside the die's memory is reserved; it applies only while every entry is FREE. -/
def wrGenTable (s : State) (d : DieId) (model : Bool) (v : W64) : State :=
  let u := getGen s d
  let pa := fld v 39 12 * 4096
  if 2 ^ 35 ≤ pa ∨ fld v 34 33 ≠ d.val then s
  else if (if model then u.models.any (fun e => e.2.loaded) else u.seqs.any (fun e => decide (e.2.state ≠ 0))) then countDiscard s d
  else setGen s d (if model then { u with modelTable := keepBits v 0xFFFFFFF001 } else { u with seqTable := keepBits v 0xFFFFFFF001 })

/-- GEN_SEQ_TABLE_WRITE (R270). -/
def execGenSeqTableWrite (d : DieId) (v : W64) (s : State) : Host.Outcome State Fault Refusal :=
  ok (viaSlot s d 17 v (fun t => wrGenTable t d false v))

/-- GEN_MODEL_TABLE_WRITE (R270). -/
def execGenModelTableWrite (d : DieId) (v : W64) (s : State) : Host.Outcome State Fault Refusal :=
  ok (viaSlot s d 17 v (fun t => wrGenTable t d true v))

/-- Where entry `i` of a table lies. -/
def genPa (base : W64) (i : Nat) : Nat := fld base 39 12 * 4096 + 128 * i

/-- The read of an entry meets the parity of its memory (R289). -/
def noteEntry (s : State) (base : W64) (i : Nat) : State := if bit base 0 then noteRead s (genPa base i) 128 else s

/-- An entry of a table, 128 bytes, where the base is valid. -/
def genEntry (s : State) (base : W64) (i : Nat) : Option (List Byte) :=
  if bit base 0 then
    let pa := genPa base i
    if poisonIn s pa 128 then none else some (memRead s pa 128)
  else none

/-! ### Predictions (R276) -/

/-- `ns` at `cores` scaled to `c` lit cores, saturating. -/
def scaledNs (c ns cores : Nat) : Nat := min (2 ^ 32 - 1) (if cores ≤ c then ns else if c = 0 then 2 ^ 32 - 1 else ceilDiv (ns * cores) c)

/-- The prediction from a history, or from the fallback where it is empty. -/
def predictNs (c margin fallback count : Nat) (ns cores : List Nat) : Nat :=
  if count = 0 then scaledNs c fallback 32
  else
    let m := ((countUp 0 count).map (fun j => scaledNs c (lget 0 ns j) (lget 0 cores j))).foldl max 0
    min (2 ^ 32 - 1) (m + m * margin / 256)

/-- The fixed cost predicted for a model. -/
def predictModel (c : Nat) (m : GenModel) : Nat := predictNs c m.margin m.worstFixed m.histCount m.histNs m.histCores

/-- The cost predicted for a sequence. -/
def predictSeq (c : Nat) (m : GenModel) (x : GenSeq) : Nat :=
  predictNs c m.margin (if x.costHint = 0 then m.worstSeq else x.costHint) x.histCount x.histNs x.histCores

/-! ### Commands (R272 to R274) -/

/-- GEN_RESULT after a command (Table 10.6). -/
def genDone (s : State) (d : DieId) (model : Bool) (i status : Nat) : State :=
  let u := getGen s d
  let c := litCores s d
  let fields :=
    if model then
      let m := modelOf s d i
      [(b2n m.loaded, 34), (min 0xFFFFFF (predictModel c m), 40)]
    else
      let x := seqOf s d i
      [(x.state, 34), (b2n x.pending.isSome, 36), (min 0xFFFFFF (predictSeq c (modelOf s d x.model) x), 40)]
  setGen s d { u with result := cmdResult u.result status ((i, 24) :: fields) }

/-- Whether a context may be named by a load: it is LIVE and its DIE_MASK includes the die (R272). -/
def loadCtx (s : State) (d : DieId) (c : Nat) : Bool := (ctxOf s d c).state == .live && (ctxOf s d c).dieMask.testBit d.val

/-- Whether a load fails with TENANT_OFF, whatever else is wrong (R272); a FREE context has no tenant. -/
def loadOff (s : State) (d : DieId) (c : Nat) : Bool :=
  !((ctxOf s d c).state == .free) && !((tenantOf s d (ctxOf s d c).tenant).state == .enabled)

/-- The objects of a mapped range, all of whose classes `p` admits. -/
def rangeObjs (s : State) (d : DieId) (c va n : Nat) (p : Obj → Bool) : Option (List Nat) × State :=
  match translateRange s d c va n {} with
  | (.error _, s1) => (none, s1)
  | (.ok (_, os), s1) => (if os.all (fun o => p (objOf s1 d o)) then some os else none, s1)

/-- Whether an object is home on a die. -/
def homeOn (d : DieId) (o : Obj) : Bool := o.place == 0 && o.homeDie == d.val

/-- GEN_CMD MODEL_LOAD (R272, R274). -/
def cmdModelLoad (s : State) (d : DieId) (m : Nat) : State :=
  if 63 < m then genDone s d true m 3
  else if ¬ domLit s d 9 ∨ (modelOf s d m).loaded then genDone s d true m 1
  else
    let s := noteEntry s (getGen s d).modelTable m
    match genEntry s (getGen s d).modelTable m with
    | none => genDone s d true m 3
    | some b =>
      let c := leAt b 4 2
      if loadOff s d c then genDone s d true m 5
      else if ¬ loadCtx s d c ∨ ¬ zeroAt b 3 1 ∨ ¬ zeroAt b 6 2 ∨ ¬ zeroAt b 0x28 24 ∨ ¬ zeroAt b 0x6A 22 ∨ leAt b 0x10 8 = 0
          ∨ leAt b 0x18 4 = 0 ∨ leAt b 0x1C 4 = 0 then genDone s d true m 3
      else
        match rangeObjs s d c (leAt b 8 8) (leAt b 0x10 8) (fun o => o.place == 1 || homeOn d o) with
        | (none, s1) => genDone s1 d true m 3
        | (some os, s1) =>
          if ¬ pinRoom s1 d os then genDone s1 d true m 3
          else
            let x : GenModel := { modelOf s1 d m with
              loaded := true, maxBatch := if leAt b 1 1 = 0 then 256 else leAt b 1 1, margin := leAt b 2 1, ctx := c,
              worstFixed := leAt b 0x18 4, worstSeq := leAt b 0x1C 4, histCount := 0, pins := os, dirty := true }
            genDone (setModel (addPins s1 d os) d m x) d true m 0

/-- The steps open after the operations accepted so far: model, queue, record, LIST (R275). An accepted CLOSE ends one step. -/
def opensAhead (u : GenUnit) : List (Nat × Nat × Nat × W64) :=
  u.ops.foldl (fun l o =>
    if o.op = 0 then l ++ [(o.model, o.queue, o.count, o.list)]
    else if o.op = 1 then l.eraseP (fun e => e.2.1 == o.queue && e.2.2.1 == o.count && e.2.2.2 == o.list) else l)
    (u.steps.map (fun x => (x.model, x.queue, x.count, x.list)))

/-- Whether a step of a model is open, or will be by an operation accepted already (R274). -/
def modelBusy (u : GenUnit) (m : Nat) : Bool := u.steps.any (fun x => x.model == m) || (opensAhead u).any (fun e => e.1 == m)

/-- GEN_CMD MODEL_UNLOAD (R274). -/
def cmdModelUnload (s : State) (d : DieId) (m : Nat) : State :=
  let x := modelOf s d m
  let u := getGen s d
  if 63 < m then genDone s d true m 3
  else if ¬ domLit s d 9 ∨ ¬ x.loaded ∨ modelBusy u m ∨ u.seqs.any (fun e => decide (e.2.state ≠ 0) && e.2.model == m) then
    genDone s d true m 1
  else genDone (setModel (dropPins s d x.pins) d m { x with loaded := false, pins := [], dirty := true }) d true m 0

/-- GEN_CMD MODEL_QUERY. -/
def cmdModelQuery (s : State) (d : DieId) (m : Nat) : State := genDone s d true m (if 63 < m then 3 else 0)

/-- A sequence readied from IDLE (R273). -/
def readied (u : GenUnit) (x : GenSeq) : GenSeq := { x with state := 2, lastAdmit := u.serial, dirty := true }

/-- GEN_CMD SEQ_LOAD (R272, R274). -/
def cmdSeqLoad (s : State) (d : DieId) (i : Nat) : State :=
  if ¬ domLit s d 9 ∨ (seqOf s d i).state ≠ 0 then genDone s d false i 1
  else
    let s := noteEntry s (getGen s d).seqTable i
    match genEntry s (getGen s d).seqTable i with
    | none => genDone s d false i 3
    | some b =>
      let c := leAt b 4 2
      let m := modelOf s d (leAt b 1 1)
      if loadOff s d c then genDone s d false i 5
      else if ¬ loadCtx s d c ∨ 63 < leAt b 1 1 ∨ 3 < leAt b 2 1 ∨ 1 < leAt b 3 1 ∨ ¬ zeroAt b 6 2 ∨ ¬ zeroAt b 0x24 4
          ∨ ¬ zeroAt b 0x6C 20 ∨ leAt b 0x20 4 = 0 ∨ ¬ m.loaded ∨ m.ctx ≠ c then genDone s d false i 3
      else
        match rangeObjs s d c (leAt b 0x18 8) (leAt b 0x20 4) (homeOn d) with
        | (none, s1) => genDone s1 d false i 3
        | (some os, s1) =>
          match rangeObjs s1 d c (leAt b 0x28 8) (if leAt b 0x28 8 = 0 then 0 else 1) (fun _ => true) with
          | (none, s2) => genDone s2 d false i 3
          | (some io, s2) =>
            let pins := joinObjs os io
            if ¬ pinRoom s2 d pins then genDone s2 d false i 3
            else
              let x : GenSeq := { seqOf s2 d i with
                state := 1, model := leAt b 1 1, prio := leAt b 2 1, flags := leAt b 3 1, ctx := c, seed := le64 (b.drop 8),
                step := BitVec.ofNat 32 (leAt b 0x10 4), costHint := leAt b 0x14 4, stateVa := le64 (b.drop 0x18),
                ioVa := le64 (b.drop 0x28), cookie := le64 (b.drop 0x30), histCount := 0, skips := 0, pending := none, pins := pins,
                dirty := true }
              genDone (setSeq (addPins s2 d pins) d i (if leAt b 3 1 = 1 then readied (getGen s2 d) x else x)) d false i 0

/-- GEN_CMD SEQ_RETIRE (R274). -/
def cmdSeqRetire (s : State) (d : DieId) (i : Nat) : State :=
  let x := seqOf s d i
  if ¬ domLit s d 9 ∨ ¬ (x.state = 1 ∨ x.state = 2) then genDone s d false i 1
  else genDone (setSeq (dropPins s d x.pins) d i { x with state := 0, pins := [], dirty := true }) d false i 0

/-- A READY (true) or PARK event at a sequence (Table 10.3). -/
def seqEvent (u : GenUnit) (x : GenSeq) (ready : Bool) : GenSeq :=
  if x.state = 3 then { x with pending := some ready }
  else if x.state = 1 ∧ ready then readied u x
  else if x.state = 2 ∧ ¬ ready then { x with state := 1, dirty := true }
  else x

/-- GEN_CMD SEQ_READY and SEQ_PARK (R273, R274). -/
def cmdSeqEvent (s : State) (d : DieId) (i : Nat) (ready : Bool) : State :=
  let x := seqOf s d i
  if ¬ domLit s d 9 ∨ x.state = 0 then genDone s d false i 1
  else genDone (setSeq s d i (seqEvent (getGen s d) x ready)) d false i 0

/-- GEN_CMD SEQ_FORGET (R274). -/
def cmdSeqForget (s : State) (d : DieId) (i : Nat) : State :=
  let x := seqOf s d i
  if ¬ domLit s d 9 ∨ x.state = 0 then genDone s d false i 1
  else genDone (setSeq s d i { x with histCount := 0, dirty := true }) d false i 0

/-- A command of GEN. -/
def genCommand (s : State) (d : DieId) (f : State → State) : Host.Outcome State Fault Refusal := ok (viaSlot s d 17 0 f)

/-- MODEL_LOAD (R272). -/
def execModelLoad (d : DieId) (m : BitVec 10) (s : State) : Host.Outcome State Fault Refusal := genCommand s d (fun t => cmdModelLoad t d m.toNat)
/-- MODEL_UNLOAD (R274). -/
def execModelUnload (d : DieId) (m : BitVec 10) (s : State) : Host.Outcome State Fault Refusal := genCommand s d (fun t => cmdModelUnload t d m.toNat)
/-- MODEL_QUERY (R274). -/
def execModelQuery (d : DieId) (m : BitVec 10) (s : State) : Host.Outcome State Fault Refusal := genCommand s d (fun t => cmdModelQuery t d m.toNat)
/-- SEQ_LOAD (R272). -/
def execSeqLoad (d : DieId) (i : BitVec 10) (s : State) : Host.Outcome State Fault Refusal := genCommand s d (fun t => cmdSeqLoad t d i.toNat)
/-- SEQ_RETIRE (R274). -/
def execSeqRetire (d : DieId) (i : BitVec 10) (s : State) : Host.Outcome State Fault Refusal := genCommand s d (fun t => cmdSeqRetire t d i.toNat)
/-- SEQ_READY (R273). -/
def execSeqReady (d : DieId) (i : BitVec 10) (s : State) : Host.Outcome State Fault Refusal := genCommand s d (fun t => cmdSeqEvent t d i.toNat true)
/-- SEQ_PARK (R273). -/
def execSeqPark (d : DieId) (i : BitVec 10) (s : State) : Host.Outcome State Fault Refusal := genCommand s d (fun t => cmdSeqEvent t d i.toNat false)
/-- SEQ_QUERY (R274). -/
def execSeqQuery (d : DieId) (i : BitVec 10) (s : State) : Host.Outcome State Fault Refusal := genCommand s d (fun t => genDone t d false i.toNat 0)
/-- SEQ_FORGET (R274). -/
def execSeqForget (d : DieId) (i : BitVec 10) (s : State) : Host.Outcome State Fault Refusal := genCommand s d (fun t => cmdSeqForget t d i.toNat)

/-- A write of GEN_CMD (Table 10.5); a reserved OP or field is no command (R9). -/
def wrGenCmd (s : State) (d : DieId) (v : W64) : State :=
  let i := fld v 25 16
  match fld v 3 0 with
  | 1 => cmdModelLoad s d i
  | 2 => cmdModelUnload s d i
  | 3 => cmdModelQuery s d i
  | 4 => cmdSeqLoad s d i
  | 5 => cmdSeqRetire s d i
  | 6 => cmdSeqEvent s d i true
  | 7 => cmdSeqEvent s d i false
  | 8 => genDone s d false i 0
  | 9 => cmdSeqForget s d i
  | _ => s

/-- A write of GEN_BUDGET, direct or by a commit (R274). -/
def wrGenBudget (s : State) (d : DieId) (v : W64) : State := setGen s d { getGen s d with budget := keepBits v 0x1FFFF }

/-- A write of GEN_ERR. -/
def wrGenErr (s : State) (d : DieId) (v : W64) : State :=
  setGen s d { getGen s d with err := errClear (getGen s d).err s.now v 16 [(0, 31, 16)] }

/-- GEN_STATUS (Table 10.8). -/
def genStatusReg (s : State) (d : DieId) : W64 :=
  let u := getGen s d
  packFields [(u.steps.length, 0), ((u.seqs.filter (fun e => e.2.state == 2)).length, 4), (litCores s d, 15), (u.serial % 2 ^ 32, 32)]

/-! ### Write-back (R271) -/

/-- The words of histories. -/
def histWords (ns cores : List Nat) : List Byte :=
  (countUp 0 8).flatMap (fun j => natLe 4 (lget 0 ns j)) ++ (countUp 0 8).flatMap (fun j => natLe 1 (lget 0 cores j))

/-- The aligned 8-byte words of a model's entry at `a` that hold device-owned fields, as the device's copy has them (R271). -/
def modelWords (m : GenModel) (a : Nat) : List Host.Cell :=
  cellsAt a (natLe 1 (b2n m.loaded) ++ natLe 1 (m.maxBatch % 256) ++ natLe 1 m.margin ++ natLe 1 0 ++ natLe 2 m.ctx ++ natLe 2 0)
    ++ cellsAt (a + 0x20) (natLe 8 m.steps)
    ++ cellsAt (a + 0x40) (histWords m.histNs m.histCores ++ natLe 1 m.histCount ++ natLe 1 m.histNext ++ natLe 6 0)

/-- The aligned 8-byte words of a sequence's entry at `a` that hold device-owned fields (R271). -/
def seqWords (x : GenSeq) (a : Nat) : List Host.Cell :=
  cellsAt a (natLe 1 x.state ++ natLe 1 x.model ++ natLe 1 x.prio ++ natLe 1 x.flags ++ natLe 2 x.ctx ++ natLe 2 0)
    ++ cellsAt (a + 0x10) (natLe 4 x.step.toNat ++ natLe 4 x.costHint)
    ++ cellsAt (a + 0x38) (natLe 8 x.lastAdmit)
    ++ cellsAt (a + 0x40) (histWords x.histNs x.histCores ++ natLe 1 x.histCount ++ natLe 1 x.histNext ++ natLe 2 x.skips ++ natLe 4 0)

/-- A model's entry written back. -/
def putModel (d : DieId) (s : State) (i : Nat) : State :=
  let m := modelOf s d i
  setModel (writeCells s (modelWords m (genPa (getGen s d).modelTable i))) d i { m with dirty := false }

/-- A sequence's entry written back. -/
def putSeq (d : DieId) (s : State) (i : Nat) : State :=
  let x := seqOf s d i
  setSeq (writeCells s (seqWords x (genPa (getGen s d).seqTable i))) d i { x with dirty := false }

/-- GEN_ENTRY_WRITEBACK (R271): the words of an entry that changed go to memory; while GRT is dark nothing does, and nothing goes to a row
that is being retired (R291). -/
def execGenEntryWriteback (d : DieId) (model : Bool) (i : BitVec 10) (s : State) : Host.Outcome State Fault Refusal :=
  let u := getGen s d
  let n := i.toNat
  if model then
    event ((modelOf s d n).dirty && bit u.modelTable 0 && domLit s d 9 && dieRuns s d && !rowWaits s (genPa u.modelTable n) 128) s (putModel d s n)
  else
    event ((seqOf s d n).dirty && bit u.seqTable 0 && domLit s d 9 && dieRuns s d && !rowWaits s (genPa u.seqTable n) 128) s (putSeq d s n)

/-- What GRT still owes its tables goes to memory before the domain is dark (R271). -/
def genFlush (s : State) (d : DieId) : State :=
  let u := getGen s d
  let s1 := if bit u.seqTable 0 then ((u.seqs.filter (fun e => e.2.dirty)).map (fun e => e.1)).foldl (putSeq d) s else s
  if bit u.modelTable 0 then ((u.models.filter (fun e => e.2.dirty)).map (fun e => e.1)).foldl (putModel d) s1 else s1

/-- Histories read back from an entry. -/
def histOf (b : List Byte) : List Nat × List Nat × Nat × Nat :=
  ((countUp 0 8).map (fun j => leAt b (0x40 + 4 * j) 4), (countUp 0 8).map (fun j => leAt b (0x60 + j) 1), min 8 (leAt b 0x68 1), leAt b 0x69 1 % 8)

/-- A sequence's copy reread from the device-owned fields of its entry. -/
def rereadSeq (x : GenSeq) (b : List Byte) : GenSeq :=
  let (ns, cs, n, k) := histOf b
  { x with state := leAt b 0 1 % 4, step := BitVec.ofNat 32 (leAt b 0x10 4), lastAdmit := leAt b 0x38 8, histNs := ns, histCores := cs,
           histCount := n, histNext := k, skips := leAt b 0x6A 2 }

/-- A model's copy reread from the device-owned fields of its entry. -/
def rereadModel (m : GenModel) (b : List Byte) : GenModel :=
  let (ns, cs, n, k) := histOf b
  { m with loaded := leAt b 0 1 % 2 == 1, steps := leAt b 0x20 8, histNs := ns, histCores := cs, histCount := n, histNext := k }

/-- GRT lit again: the copy of every entry that is not FREE is reread from the device-owned fields in memory (R271). An entry whose bytes
are poisoned leaves the copy as it stood: the spec says nothing of it (DESIGN CHOICE, log 15). -/
def genReread (s : State) (d : DieId) : State :=
  let u := getGen s d
  let live := (u.seqs.filter (fun e => e.2.state ≠ 0)).map (fun e => (u.seqTable, e.1))
    ++ (u.models.filter (fun e => e.2.loaded)).map (fun e => (u.modelTable, e.1))
  let s1 := live.foldl (fun t e => noteEntry t e.1 e.2) s
  setGen s1 d { u with
    seqs := mmap (fun i x => match genEntry s1 u.seqTable i with
      | some b => if x.state = 0 then x else rereadSeq x b
      | none => x) u.seqs,
    models := mmap (fun i m => match genEntry s1 u.modelTable i with
      | some b => if m.loaded then rereadModel m b else m
      | none => m) u.models }

/-! ### Acceptance (R275) -/

/-- Whether a `k.step` descriptor keeps Table 10.10. DEADLINE and BUDGET_NS of an operation that is no OPEN are not looked at: the table asks no
zero of them. -/
def stepLegal (b : List Byte) : Bool :=
  let op := leAt b 0x10 1
  decide (op ≤ 3) && zeroAt b 0x16 2 && zeroAt b 0x2C 20
    && (if op = 0 then decide (leAt b 0x11 1 ≤ 63) && decide (1 ≤ leAt b 0x14 2) && decide (leAt b 0x14 2 ≤ 256)
        else zeroAt b 0x11 1 && zeroAt b 0x14 2)
    && (if 2 ≤ op then decide (leAt b 0x12 2 ≤ 1023) && zeroAt b 0x18 8 else zeroAt b 0x12 2 && leAt b 0x18 8 % 64 == 0)

/-- Whether a `k.step` names what the record may name (R275). -/
def stepNames (s : State) (d : DieId) (x : Submission) : Bool :=
  let b := x.desc
  let c := subCtx s d x
  match leAt b 0x10 1 with
  | 0 => (modelOf s d (leAt b 0x11 1)).loaded && (modelOf s d (leAt b 0x11 1)).ctx == c
  | 1 => (opensAhead (getGen s d)).any (fun e => e.2.1 == x.queue && e.2.2.1 == x.count && e.2.2.2 == le64 (b.drop 0x18))
  | _ => decide ((seqOf s d (leAt b 0x12 2)).state ≠ 0) && (seqOf s d (leAt b 0x12 2)).ctx == c

/-- GEN takes the descriptor at the head of its submission queue (R100, R275). -/
def acceptGen (s : State) (d : DieId) (x : Submission) : State :=
  let b := x.desc
  let c := subCtx s d x
  let u := getGen s d
  let opens := opensAhead u
  let op := leAt b 0x10 1
  if ¬ stepLegal b ∨ ¬ stepNames s d x then rejectMalformed (genErr s d 2) d 12 x 0x0503 0
  else if op = 0 ∧ (8 ≤ opens.length ∨ opens.any (fun e => e.1 == leAt b 0x11 1)) then rejectMalformed (genErr s d 3) d 12 x 0x0504 0
  else
    let n := if op = 0 then 64 + 64 * min (leAt b 0x14 2) (modelOf s d (leAt b 0x11 1)).maxBatch else 0
    match translateRange s d c (leAt b 0x18 8) n { write := true } with
    | (.error (va, f), s1) => rejectXlate s1 d 12 x va f
    | (.ok (m, os), s1) =>
      match fenceSide s1 d c b with
      | (.error (va, f), s2) => rejectXlate s2 d 12 x va f
      | (.ok (hasF, fpa, fo), s2) =>
        let pins := joinObjs os fo
        if ¬ pinRoom s2 d pins then rejectXlate s2 d 12 x (leAt b 0x18 8) 0x0D
        else
          let s3 := acceptSub s2 d 12 x pins
          let v := getGen s3 d
          let serial := v.serial + b2n (op == 0)
          let y : GenOp :=
            { ctx := c, tenant := subTenant s d x, queue := x.queue, count := x.count, fence := hasF, fencePa := fpa, value := le64 (b.drop 8),
              op := op, model := leAt b 0x11 1, seq := leAt b 0x12 2, maxSeqs := leAt b 0x14 2, list := le64 (b.drop 0x18),
              deadline := leAt b 0x20 8, budget := leAt b 0x28 4, acceptedAt := dtime s d, serial := serial, pages := m, pins := pins,
              keep := os }
          setGen s3 d { v with serial := serial % 2 ^ 64, ops := v.ops ++ [y] }

/-! ### The sampling generator (R284) -/

/-- Rotation of a word to the left. -/
def rotl32 (x : W32) (n : Nat) : W32 := x.rotateLeft n

/-- One round of the generator. -/
def genRound (x : W32 × W32 × W32 × W32) (i : Nat) : W32 × W32 × W32 × W32 :=
  let (x0, x1, x2, x3) := x
  let k : W32 := BitVec.ofNat 32 (i + 1) * 0x9E3779B9
  let y0 := x0 + x1 + k
  let y3 := rotl32 (x3 ^^^ y0) (lget 0 [13, 17, 5, 11] (i % 4))
  let y2 := x2 + y3
  (y0, rotl32 (x1 ^^^ y2) (lget 0 [9, 21, 14, 3] (i % 4)), y2, y3)

/-- gen(seed, step, index) (R284). -/
def genWords (seed : W64) (step index : W32) : List W32 :=
  let lo : W32 := BitVec.ofNat 32 (fld seed 31 0)
  let hi : W32 := BitVec.ofNat 32 (fld seed 63 32)
  let (x0, x1, x2, x3) := (countUp 0 10).foldl genRound (index, step, lo, hi)
  [x0 + index, x1 + step, x2 + lo, x3 + hi]

/-! ### Opening a step (R276 to R279) -/

/-- The start of the first frame epoch after now (R387). -/
def nextEpochStart (s : State) (d : DieId) : Nat := let t := getTime s d; t.epochStart + t.period + t.shift

/-- The candidates of a model in gate order (R278). -/
def candidatesOf (s : State) (d : DieId) (m : Nat) : List (Nat × GenSeq) :=
  let le (a b : Nat × GenSeq) : Bool :=
    decide (b.2.prio < a.2.prio)
      || (a.2.prio == b.2.prio && (decide (a.2.lastAdmit < b.2.lastAdmit) || (a.2.lastAdmit == b.2.lastAdmit && decide (a.1 ≤ b.1))))
  sortBy le ((getGen s d).seqs.filter (fun e => e.2.state == 2 && e.2.model == m))

/-- Admission in gate order (R278): the sequences admitted with their costs. `k` have been admitted at total cost `sum`. -/
def admitSeqs (limit : Nat) (avail : Option Int) (cost : GenSeq → Nat) : List (Nat × GenSeq) → Nat → Nat → List (Nat × Nat)
  | [], _, _ => []
  | (i, x) :: r, k, sum =>
    let t := sum + cost x
    let fits : Bool := match avail with | some a => decide ((t : Int) ≤ a) | none => true
    if limit ≤ k ∨ ¬ fits then [] else (i, cost x) :: admitSeqs limit avail cost r (k + 1) t

/-- The time available to a step (R277). -/
def availableNs (s : State) (d : DieId) (dl t0 budget : Nat) : Int :=
  let u := getGen s d
  let others := (u.steps.map (fun x => max 0 ((x.total : Int) - ((t0 : Int) - x.release)))).sum
  let a := (dl : Int) - (fld u.budget 15 0 * 1000 : Nat) - t0 - others
  if budget = 0 then a else min a budget

/-- One entry of a work list (Table 10.11). -/
def listEntry (x : GenSeq) (i p : Nat) : List Byte :=
  natLe 2 i ++ natLe 2 0 ++ natLe 4 x.step.toNat ++ natLe 8 x.seed.toNat ++ natLe 8 x.stateVa.toNat ++ natLe 8 x.ioVa.toNat
    ++ natLe 8 x.cookie.toNat ++ natLe 4 p ++ natLe 4 0 ++ (genWords x.seed x.step 0).flatMap (fun w => natLe 4 w.toNat)

/-- Cells of bytes at a virtual address of resolved pages. -/
def pageCells (m : Map Nat) (va : Nat) (l : List Byte) : List Host.Cell :=
  (cellsAt va l).filterMap (fun c => (pageLook m c.1).map (fun pa => (pa, c.2)))

/-- The head operation of GEN applied and gone: its operation finishes, and the pins that its step does not keep go. -/
def genOpDone (s : State) (d : DieId) (o : GenOp) : State :=
  opFinish s d o.queue o.count o.fence o.fencePa o.value (if o.op = 0 then o.pins.filter (fun x => !(decide (x ∈ o.keep))) else o.pins)

/-- The step that an OPEN opens, its work list written (R276 to R279). -/
def openStep (s : State) (d : DieId) (o : GenOp) : State :=
  let u := getGen s d
  let m := modelOf s d o.model
  let t0 := dtime s d
  let c := litCores s d
  let dl := if o.deadline = 0 then nextEpochStart s d else o.deadline
  let a := availableNs s d dl t0 o.budget
  let f := predictModel c m
  let cand := candidatesOf s d o.model
  let gateOff := bit u.budget 16
  let adm := if c = 0 then [] else admitSeqs (min o.maxSeqs m.maxBatch) (if gateOff then none else some a) (predictSeq c m) cand 0 f
  let sat32 (n : Nat) : Nat := min n (2 ^ 32 - 1)
  let total := if adm.isEmpty then 0 else sat32 (f + (adm.map (fun e => e.2)).sum)
  let chosen (i : Nat) : Bool := adm.any (fun e => e.1 == i)
  let head := natLe 8 o.serial ++ natLe 1 o.model ++ natLe 1 c ++ natLe 2 adm.length ++ natLe 4 0 ++ natLe 8 t0 ++ natLe 8 dl
    ++ natLe 4 total ++ natLe 4 (sat32 a.toNat) ++ rep 24 0
  let body := adm.flatMap (fun e => listEntry (seqOf s d e.1) e.1 e.2)
  let s1 := writeCells s (pageCells o.pages o.list.toNat (head ++ body))
  let v := getGen s1 d
  let seqs := mmap (fun i (x : GenSeq) =>
    if chosen i then { x with state := 3, lastAdmit := o.serial, pending := none, dirty := true }
    else if cand.any (fun e => e.1 == i) then { x with skips := satAdd 16 x.skips 1, dirty := true } else x) v.seqs
  let st : GenStep :=
    { model := o.model, serial := o.serial, ctx := o.ctx, tenant := o.tenant, queue := o.queue, count := o.count, list := o.list,
      pages := o.pages, pins := o.keep, release := t0, dl := dl, cores := c, fixed := f, total := total, admitted := adm }
  genOpDone (setGen s1 d { v with seqs := seqs, steps := v.steps ++ [st] }) d o

/-- The head operation of GEN, of kind `op`, with the rest: GRT must be lit, and the entry it held in the submission queue is free (R283, R99). -/
def genHead (s : State) (d : DieId) (op : Nat) : Option (GenOp × State) :=
  let u := getGen s d
  match u.ops with
  | o :: rest =>
    if o.op = op ∧ domLit s d 9 ∧ dieRuns s d then some (o, settleSubs (setGen s d { u with ops := rest }) d 12) else none
  | [] => none

/-- STEP_OPEN (R278): the gate runs and the work list is written; where its memory is out of reach the operation stops (log 15). -/
def execStepOpen (d : DieId) (s : State) : Host.Outcome State Fault Refusal :=
  match genHead s d 0 with
  | some (o, s1) =>
    if o.pages.all (fun e => reach s d (dieOf e.2)) then ok (openStep s1 d o) else ok (opStop s1 d o.queue o.count o.pins)
  | none => ok s

/-! ### Closing and aborting (R280 to R282) -/

/-- A history with a cost appended (R280). -/
def histPut (ns cores : List Nat) (count next cost c : Nat) : List Nat × List Nat × Nat × Nat :=
  (lset ns (next % 8) cost, lset cores (next % 8) c, min 8 (count + 1), (next + 1) % 8)

/-- ceil(E × p / T), saturating; with T at 0 the rule gives no value, and it is free (log 4). -/
def shareNs (ctr place e p t : Nat) : Nat := if t = 0 then (Config.freeW32 ctr place).toNat else min (2 ^ 32 - 1) (ceilDiv (e * p) t)

/-- The 4-byte word or the byte at a place of a step's work list; a poisoned or unreachable one is free (log 4). -/
def listNat (s : State) (d : DieId) (x : GenStep) (o n : Nat) : Nat :=
  leNat ((countUp (x.list.toNat + o) n).map (fun a =>
    match pageLook x.pages a with
    | some pa => if poisonAt s pa ∨ ¬ reach s d (dieOf pa) then Config.freeByte s.freeCtr a else memByte s pa
    | none => 0))

/-- A sequence at the end of its step (Table 10.3). -/
def seqEnds (x : GenSeq) (otherwise : Nat) : GenSeq :=
  { x with state := match x.pending with | some true => 2 | some false => 1 | none => otherwise, pending := none, dirty := true }

/-- E = t1 − r (R280); a CLOSE accepted before the release has no E that the rule states, and it is free (log 4). -/
def stepElapsed (ctr t1 release : Nat) : Nat := if t1 < release then (Config.freeW32 ctr 2048).toNat else t1 - release

/-- The step that a CLOSE closes (R280, R281). -/
def closeStep (s : State) (d : DieId) (o : GenOp) (x : GenStep) : State :=
  let u := getGen s d
  let t1 := o.acceptedAt
  let ctr := s.freeCtr
  let e := stepElapsed ctr t1 x.release
  let t := listNat s d x 0x20 4
  let m := modelOf s d x.model
  let closed := x.admitted.zipIdx.foldl (fun (l : Map GenSeq) p =>
    let i := p.1.1
    let q := mget seqFree l i
    let (ns, cs, n, k) := histPut q.histNs q.histCores q.histCount q.histNext (shareNs ctr (i + 1) e p.1.2 t) x.cores
    let y := { q with histNs := ns, histCores := cs, histCount := n, histNext := k, step := q.step + 1 }
    mput seqFree l i (seqEnds y (if (listNat s d x (0x42 + 64 * p.2) 1).testBit 0 then 1 else 2))) u.seqs
  let (ns, cs, n, k) := histPut m.histNs m.histCores m.histCount m.histNext (shareNs ctr 0 e x.fixed t) x.cores
  let m1 := { m with histNs := ns, histCores := cs, histCount := n, histNext := k, steps := (m.steps + 1) % 2 ^ 64, dirty := true }
  let s1 := setGen (useFree s) d { u with seqs := closed, steps := u.steps.filter (fun y => !(y.serial == x.serial)),
                                          models := if x.admitted.isEmpty then u.models else mput modelFree u.models x.model m1 }
  let late := decide ((x.dl : Int) - (fld u.budget 15 0 * 1000 : Nat) < t1)
  let s2 := if late then
      logEntry (genErr s1 d 0) d { code := 0x0501, kind := 0x02, index := 12, tenant := some x.tenant, ctx := some x.ctx, queue := x.queue,
                                   detail := detG x.model x.admitted.length (min e (2 ^ 32 - 1)) (min x.total (2 ^ 32 - 1)) x.serial }
    else s1
  genOpDone (dropPins s2 d x.pins) d o

/-- STEP_CLOSE (R280). -/
def execStepClose (d : DieId) (s : State) : Host.Outcome State Fault Refusal :=
  match genHead s d 1 with
  | some (o, s1) =>
    match (getGen s d).steps.find? (fun x => x.queue == o.queue && x.count == o.count && x.list == o.list) with
    | some x => ok (closeStep s1 d o x)
    | none => ok (genOpDone s1 d o)
  | none => ok s

/-- STEP_READY (R273). -/
def execStepReady (d : DieId) (s : State) : Host.Outcome State Fault Refusal :=
  match genHead s d 2 with
  | some (o, s1) => ok (genOpDone (setSeq s1 d o.seq (seqEvent (getGen s1 d) (seqOf s1 d o.seq) true)) d o)
  | none => ok s

/-- STEP_PARK (R273). -/
def execStepPark (d : DieId) (s : State) : Host.Outcome State Fault Refusal :=
  match genHead s d 3 with
  | some (o, s1) => ok (genOpDone (setSeq s1 d o.seq (seqEvent (getGen s1 d) (seqOf s1 d o.seq) false)) d o)
  | none => ok s

/-- A step aborted (R282): its sequences move without a STEP advance, no history is recorded, its pins go. -/
def abortStep (s : State) (d : DieId) (x : GenStep) : State :=
  let u := getGen s d
  let seqs := x.admitted.foldl (fun (l : Map GenSeq) p => mput seqFree l p.1 (seqEnds (mget seqFree l p.1) 2)) u.seqs
  let s1 := setGen s d { u with seqs := seqs, steps := u.steps.filter (fun y => !(y.serial == x.serial)) }
  let s2 := logEntry (genErr s1 d 1) d
    { code := 0x0502, kind := 0x02, index := 12, tenant := some x.tenant, ctx := some x.ctx, queue := x.queue,
      detail := detG x.model x.admitted.length (min (dtime s d - x.release) (2 ^ 32 - 1)) (min x.total (2 ^ 32 - 1)) x.serial }
  dropPins s2 d x.pins

/-- The open steps that `p` names aborted. -/
def abortSteps (s : State) (d : DieId) (p : GenStep → Bool) : State := ((getGen s d).steps.filter p).foldl (fun t x => abortStep t d x) s

/-- RECORD_RETIRE (R106, R282): the program has ended and every operation it submitted has finished or has been stopped; a step it
left open is aborted. -/
def execRecordRetire (d : DieId) (q : BitVec 12) (count : W32) (s : State) : Host.Outcome State Fault Refusal :=
  match runOf (queueOf s d q.toNat) count.toNat with
  | some r =>
    event (r.opsOut == 0 && (frameOf' s d r.frame).park == .ended) s
      (retireRun (abortSteps s d (fun x => x.queue == q.toNat && x.count == count.toNat)) d q.toNat r)
  | none => ok s

/-- A tenant's accepted operations of GEN that have not been applied, discarded; how many. -/
def discardGen (s : State) (d : DieId) (t : Nat) : Nat × State :=
  let u := getGen s d
  let gone := u.ops.filter (fun o => o.tenant == t)
  (gone.length, settleSubs (gone.foldl (fun x o => dropPins x d o.pins)
    (setGen s d { u with ops := u.ops.filter (fun o => !(o.tenant == t)) })) d 12)

end Sys2Proof.Machine
end

