-- ==== Sys2Proof/Machine/Raster.lean ====
section
/-! DEFINITION. Rasterisation of a tile (09, R249, R255 to R263, R267): coverage, depth and stencil, visibility, blending, the loading
and writing of attachments. Coverage is computed exactly. -/

namespace Sys2Proof.Machine

/-! ### The pass state block (Tables 9.2, 9.3, 9.5) -/

/-- Width of the render area. -/
def psW (b : List Byte) : Nat := leAt b 0 2
/-- Height of the render area. -/
def psH (b : List Byte) : Nat := leAt b 2 2
/-- Samples per pixel. An encoding that Table 9.2 does not list makes the block ill formed; its ranges are then taken by the low bits (DESIGN
CHOICE, log 16). -/
def psSamples (b : List Byte) : Nat := 2 ^ (leAt b 4 1 % 4)
/-- Colour attachments. -/
def psColours (b : List Byte) : Nat := leAt b 5 1
/-- Whether depth is present. -/
def psDepth (b : List Byte) : Bool := (leAt b 6 1).testBit 0
/-- Whether stencil is present. -/
def psStencil (b : List Byte) : Bool := (leAt b 6 1).testBit 1
/-- An FP32 field of the block. -/
def psF (b : List Byte) (o : Nat) : W32 := BitVec.ofNat 32 (leAt b o 4)
/-- Attachment record `a`. -/
def psAttach (b : List Byte) (a : Nat) : List Byte := (b.drop (0x40 + 48 * a)).take 48
/-- Attachments in use: colours, depth, stencil. -/
def psUsed (b : List Byte) : List Nat :=
  countUp 0 (min 8 (psColours b)) ++ (if psDepth b then [8] else []) ++ (if psStencil b then [9] else [])
/-- The blend entry of a set for a colour attachment. -/
def psBlend (b : List Byte) (k a : Nat) : Nat := leAt b (0x220 + 32 * k + 4 * a) 4
/-- The blend constant. -/
def psConst (b : List Byte) : List W32 := (countUp 0 4).map (fun i => psF b (0x320 + 4 * i))
/-- A depth-stencil set. -/
def psDs (b : List Byte) (k : Nat) : Nat := leAt b (0x330 + 8 * k) 8
/-- Whether a pixel lies within the scissor and the render area. -/
def psDrawn (b : List Byte) (x y : Nat) : Bool :=
  decide (leAt b 0x20 2 ≤ x) && decide (x < leAt b 0x24 2) && decide (leAt b 0x22 2 ≤ y) && decide (y < leAt b 0x26 2)
    && decide (x < psW b) && decide (y < psH b)

/-- Format of an attachment. -/
def atFmt (r : List Byte) : Nat := leAt r 0x10 1
/-- LOAD of an attachment. -/
def atLoad (r : List Byte) : Nat := leAt r 0x11 1
/-- STORE of an attachment. -/
def atStore (r : List Byte) : Nat := leAt r 0x12 1
/-- The clear value of an attachment. -/
def atClear (r : List Byte) : Nat := leAt r 0x18 8 % 2 ^ (8 * texelBytes (atFmt r))

/-- 8 × 8 blocks of a sample plane. -/
def planeBlocks (b : List Byte) : Nat := ceilDiv (psW b) 8 * ceilDiv (psH b) 8
/-- Bytes from one sample plane of an attachment to the next (R264). -/
def planeStep (b : List Byte) (fmt : Nat) : Nat := roundUp (planeBlocks b * 64 * texelBytes fmt) 4096
/-- Bytes from one plane's metadata to the next (R264). -/
def metaStep (b : List Byte) : Nat := roundUp (planeBlocks b) 256

/-- The planes of a tile in their order with their bytes per entry (R255): attachments by number, 10 for visibility. -/
def planeKinds (b : List Byte) : List (Nat × Nat) :=
  (countUp 0 (min 8 (psColours b))).map (fun a => (a, texelBytes (atFmt (psAttach b a)))) ++ (if psDepth b then [(8, 4)] else [])
    ++ (if psStencil b then [(9, 1)] else []) ++ [(10, 4)]

/-- Planes laid one after another from an offset: what they hold, base, bytes per entry. -/
def layPlanes (n : Nat) : Nat → List (Nat × Nat) → List (Nat × Nat × Nat)
  | _, [] => []
  | o, (a, k) :: r => (a, o, k) :: layPlanes n (o + n * k) r

/-- The planes of a tile with their bases in the tile's run (R255): each begins on a 1 KiB boundary. -/
def tilePlanes (b : List Byte) : List (Nat × Nat × Nat) := layPlanes (1024 * psSamples b) 0 (planeKinds b)

/-- The footprint of a tile (R255). -/
def tileFootprint (b : List Byte) : Nat := 1024 * psSamples b * ((planeKinds b).map (fun k => k.2)).sum

/-- The block of a plane that entry `e` of a tile lies in: 16 · sample + block (R267). -/
def blockKey (e : Nat) : Nat := 16 * (e / 1024) + 4 * (e % 1024 / 256) + e % 32 / 8

/-- Whether a format may serve attachment `a` (R244). -/
def attachFmtOk (a fmt : Nat) : Bool :=
  if a = 8 then fmt == 9 || fmt == 5 else if a = 9 then fmt == 1 else isTarget fmt && !(fmt ∈ [1, 5, 9])

/-- Whether an attachment record is well formed (R244, Table 9.3). -/
def attachOk (a : Nat) (r : List Byte) : Bool :=
  attachFmtOk a (atFmt r) && decide (atLoad r ≤ 2) && decide (atStore r ≤ (if a < 8 then 2 else 1)) && zeroAt r 0x13 5
    && leAt r 0 8 % 4096 == 0 && leAt r 8 8 % 256 == 0 && leAt r 0x20 8 % 4096 == 0 && leAt r 0x28 8 % 256 == 0

/-- Whether a blend entry keeps Tables 9.10 and 9.11. -/
def blendOk (e : Nat) : Bool :=
  decide (fldN e 3 0 ≤ 12) && decide (fldN e 7 4 ≤ 12) && decide (fldN e 10 8 ≤ 4) && decide (fldN e 14 11 ≤ 12)
    && decide (fldN e 18 15 ≤ 12) && decide (fldN e 21 19 ≤ 4) && decide (fldN e 31 27 = 0)

/-- Whether an FP32 code lies in [0, 1]. -/
def unitF (x : W32) : Bool := (fCmp true 3 0 x).1 && (fCmp true 3 x one32).1

/-- Whether the pass state block is well formed (R244, Tables 9.2 to 9.5, 9.11). -/
def blockOk (b : List Byte) : Bool :=
  decide (1 ≤ psW b) && decide (psW b ≤ 16384) && decide (1 ≤ psH b) && decide (psH b ≤ 16384) && decide (leAt b 4 1 ≤ 3)
    && decide (psColours b ≤ 8) && decide (leAt b 6 1 < 4) && zeroAt b 7 1 && unitF (psF b 0x18) && unitF (psF b 0x1C)
    && zeroAt b 0x28 24 && zeroAt b 0x370 144 && (psUsed b).all (fun a => attachOk a (psAttach b a))
    && (countUp 0 8).all (fun k => (countUp 0 (min 8 (psColours b))).all (fun a => blendOk (psBlend b k a)))
    && (countUp 0 8).all (fun k => decide (psDs b k < 2 ^ 34))

/-! ### Setup (R249) -/

/-- The exact value of a finite FP32 code. -/
def ratOf (x : W32) : Rat :=
  match dyadic32 x with
  | some (m, e) => if 0 ≤ e then (m : Rat) * ((2 ^ e.toNat : Nat) : Rat) else (m : Rat) / ((2 ^ (-e).toNat : Nat) : Rat)
  | none => 0

/-- The FP32 code of an exact value, where there is one. -/
def f32OfRat (q : Rat) : Option W32 :=
  if 2 ^ Nat.log2 q.den = q.den then
    let v := (pack32 true (decide (q < 0)) q.num.natAbs (-(Nat.log2 q.den : Int))).v
    if ratOf v = q ∧ (dyadic32 v).isSome then some v else none
  else none

/-- A finite FP32 value as a multiple of 1/256, ties to even (R249). -/
def snap256 (x : W32) : Int :=
  match decodeF fp32 x.toNat with
  | .fin n m e =>
    let q : Int := ((roundTo m (e + 8) 0).1 : Int)
    if n then -q else q
  | _ => 0

/-- A window coordinate in strict FP32 (R249): offset + (c/w + 1) × extent/2. -/
def windowF (off c w ext : W32) : W32 :=
  (fAdd true off (fMul true (fMul true (fAdd true (fDiv true c w).v one32).v ext).v 0x3F000000).v).v

/-- Whether every coordinate of a vertex is a finite number. -/
def finiteV (v : VertexOut) : Bool := [v.x, v.y, v.z, v.w].all (fun c => (dyadic32 c).isSome)

/-- A vertex as the rasteriser takes it: homogeneous window position in 1/256 pixel, w and clip z. -/
structure RastV where
  x : Rat
  y : Rat
  w : Rat
  z : Rat

/-- A vertex's window x and y in FP32. -/
def windowXY (b : List Byte) (v : VertexOut) : W32 × W32 :=
  (windowF (psF b 8) v.x v.w (psF b 0x10), windowF (psF b 0xC) v.y v.w (psF b 0x14))

/-- Whether a vertex has a snapped window place: it lies at w > 0, and its window coordinates are finite. -/
def snapsV (b : List Byte) (v : VertexOut) : Bool :=
  let (x, y) := windowXY b v
  decide (0 < ratOf v.w) && (dyadic32 x).isSome && (dyadic32 y).isSome

/-- The rasteriser's vertex: snapped where it has a window place, exact otherwise. A primitive set up in homogeneous form covers what the
primitive clipped to w > 0 covers (R249), so one form serves both setups. -/
def rastV (b : List Byte) (v : VertexOut) : RastV :=
  let w := ratOf v.w
  if snapsV b v then
    let (x, y) := windowXY b v
    { x := (snap256 x : Rat) * w, y := (snap256 y : Rat) * w, w := w, z := ratOf v.z }
  else
    let f (off c ext : W32) : Rat := 256 * (ratOf off * w + (ratOf c + w) * ratOf ext / 2)
    { x := f (psF b 8) v.x (psF b 0x10), y := f (psF b 0xC) v.y (psF b 0x14), w := w, z := ratOf v.z }

/-- The vertices of a primitive as the rasteriser takes them. -/
def rastVs (b : List Byte) (vs : List VertexOut) : List RastV := vs.map (rastV b)

/-- The edge through two vertices: its coefficients a, b, c in a·x + b·y + c. -/
def edge (p q : RastV) : Rat × Rat × Rat := (p.y * q.w - p.w * q.y, p.w * q.x - p.x * q.w, p.x * q.y - p.y * q.x)

/-- The determinant of three vertices: positive for a primitive that runs clockwise in the window, zero for one of no area. -/
def det3 (p q r : RastV) : Rat := let (a, b, c) := edge q r; p.x * a + p.y * b + p.w * c

/-- Whether all three vertices lie outside one clip plane (R249). -/
def clippedAway (vs : List VertexOut) : Bool :=
  let f (p : Rat → Rat → Rat → Rat → Bool) : Bool := vs.all (fun v => p (ratOf v.x) (ratOf v.y) (ratOf v.z) (ratOf v.w))
  f (fun x _ _ w => decide (x < -w)) || f (fun x _ _ w => decide (w < x)) || f (fun _ y _ w => decide (y < -w))
    || f (fun _ y _ w => decide (w < y)) || f (fun _ _ z _ => decide (z < 0)) || f (fun _ _ z w => decide (w < z))

/-- Whether a triangle faces front under FRONT_CW. -/
def facesFront (raster : Nat) (p q r : RastV) : Bool := if raster.testBit 2 then decide (0 < det3 p q r) else decide (det3 p q r < 0)

/-- Whether a triangle is culled (R249): no area, facing away under CULL and FRONT_CW, or outside a clip plane. -/
def culled (b : List Byte) (raster : Nat) (vs : List VertexOut) : Bool :=
  match rastVs b vs with
  | [p, q, r] =>
    let front := facesFront raster p q r
    decide (det3 p q r = 0) || (raster % 4 == 1 && !front) || (raster % 4 == 2 && front) || clippedAway vs
  | _ => false

/-! ### Coverage (R249, R257) -/

/-- Weights k of a position: the sums of k·x, k·y and k·w over the vertices are x, y and 1 there. -/
abbrev Weights := List Rat

/-- Whether an edge's boundary counts as covered: a left edge, or a top edge (R257); (a, b) points inward. -/
def topLeft (a b : Rat) : Bool := decide (0 < a) || (decide (a = 0) && decide (0 < b))

/-- The weight of the vertex opposite an edge at a position, and the edge's direction inward. -/
def edgeAt (d : Rat) (u v : RastV) (x y : Rat) : Rat × Rat × Rat :=
  let (a, b, c) := edge u v
  ((a * x + b * y + c) / d, a / d, b / d)

/-- The three edges of a triangle at a position. -/
def triEdges (p q r : RastV) (x y : Rat) : List (Rat × Rat × Rat) :=
  let d := det3 p q r
  if d = 0 then [] else [edgeAt d q r x y, edgeAt d r p x y, edgeAt d p q x y]

/-- A triangle's coverage of a position. -/
def coverTri (p q r : RastV) (x y : Rat) : Bool :=
  let es := triEdges p q r x y
  !es.isEmpty && es.all (fun e => decide (0 < e.1) || (decide (e.1 = 0) && topLeft e.2.1 e.2.2))

/-- A position in terms of a line from a vertex at w > 0: its distance across and along, over the direction's square. -/
structure AlongLine where
  dx : Rat
  dy : Rat
  n : Rat
  cr : Rat
  r : Rat

/-- A position beside a line. -/
def alongLine (p q : RastV) (x y : Rat) : AlongLine :=
  let dx := q.x * p.w - p.x * q.w
  let dy := q.y * p.w - p.y * q.w
  let qx := x - p.x / p.w
  let qy := y - p.y / p.w
  let n := dx * dx + dy * dy
  { dx := dx, dy := dy, n := n, cr := qx * dy - qy * dx, r := if n = 0 then 0 else (qx * dx + qy * dy) / n }

/-- Whether a line covers a position: a rectangle one pixel wide along its length, clipped to w > 0. The end at `q` lies where r·p.w·q.w is 1;
a line that runs to w ≤ 0 has none. -/
def coverLine (p q : RastV) (x y : Rat) : Bool :=
  let a := alongLine p q x y
  let side := 4 * a.cr * a.cr
  let width := 65536 * a.n
  let t := a.r * p.w * q.w
  let okSide := decide (side < width) || (decide (side = width) && (if a.cr < 0 then topLeft a.dy (-a.dx) else topLeft (-a.dy) a.dx))
  let okStart := decide (0 < a.r) || (decide (a.r = 0) && topLeft a.dx a.dy)
  let okEnd := decide (q.w ≤ 0) || decide (t < 1) || (decide (t = 1) && topLeft (-a.dx) (-a.dy))
  decide (0 < p.w) && decide (a.n ≠ 0) && okSide && okStart && okEnd

/-- The weights along a line, from a vertex at w > 0. -/
def lineWeights (p q : RastV) (x y : Rat) : Weights :=
  let r := (alongLine p q x y).r
  let l := r * p.w * p.w / (1 - r * p.w * (q.w - p.w))
  let wl := p.w + l * (q.w - p.w)
  [(1 - l) / wl, l / wl]

/-- Whether a point covers a position: a square one pixel wide centred on its vertex. -/
def coverPoint (p : RastV) (x y : Rat) : Bool :=
  let dx := x - p.x / p.w
  let dy := y - p.y / p.w
  decide (0 < p.w) && decide (-128 ≤ dx) && decide (dx < 128) && decide (-128 ≤ dy) && decide (dy < 128)

/-- Whether a primitive covers a position in 1/256 pixel. -/
def coverPrim (vs : List RastV) (x y : Rat) : Bool :=
  match vs with
  | [p, q, r] => coverTri p q r x y
  | [p, q] => if 0 < p.w then coverLine p q x y else coverLine q p x y
  | [p] => coverPoint p x y
  | _ => false

/-- The weights of a position, within the primitive or not. -/
def weightsAt (vs : List RastV) (x y : Rat) : Weights :=
  match vs with
  | [p, q, r] => (triEdges p q r x y).map (fun e => e.1)
  | [p, q] => if 0 < p.w then lineWeights p q x y else (lineWeights q p x y).reverse
  | [p] => [1 / p.w]
  | _ => []

/-- Sample positions in 1/16 pixel (Table 9.8). -/
def samplePos (n : Nat) : List (Nat × Nat) :=
  match n with
  | 1 => [(8, 8)]
  | 2 => [(4, 12), (12, 4)]
  | 4 => [(2, 10), (6, 2), (10, 14), (14, 6)]
  | _ => [(1, 11), (3, 5), (5, 15), (7, 1), (9, 9), (11, 13), (13, 3), (15, 7)]

/-- The words of a primitive's vertices that an open value may depend on. -/
def vertWords (vs : List VertexOut) : List W32 := vs.flatMap (fun v => [v.x, v.y, v.z, v.w])

/-- z over w at a position (R249). -/
def clipZ (rs : List RastV) (ws : Weights) : Rat := ((rs.zip ws).map (fun p => p.1.z * p.2)).sum

/-- The window depth at a position, interpolated between the vertices' z_w, or from z over w where a vertex lies at w ≤ 0. Where the exact
value is no FP32 value the depth is open (R249 gives no rounding; log 16). -/
def depthAt (b : List Byte) (vs : List VertexOut) (rs : List RastV) (ws : Weights) (x y : Int) : W32 :=
  let lo := ratOf (psF b 0x18)
  let range := (fSub true (psF b 0x1C) (psF b 0x18)).v
  let zw (v : VertexOut) : Rat := ratOf (fAdd true (psF b 0x18) (fMul true (fDiv true v.z v.w).v range).v).v
  let q := if rs.all (fun v => decide (0 < v.w)) then (((vs.zip rs).zip ws).map (fun p => zw p.1.1 * (p.2 * p.1.2.w))).sum
    else lo + clipZ rs ws * (ratOf (psF b 0x1C) - lo)
  (f32OfRat q).getD (Config.sampleDepth (psF b 0x18 :: psF b 0x1C :: vertWords vs) x y)

/-- Coverage and depth of a sample position: z must lie from 0 to w there (R249). Of a primitive with a coordinate that is no finite number
both are open (log 16). -/
def hitAt (b : List Byte) (vs : List VertexOut) (rs : List RastV) (x y : Int) : Option W32 :=
  if vs.all finiteV then
    let ws := weightsAt rs x y
    if coverPrim rs x y ∧ 0 ≤ clipZ rs ws ∧ clipZ rs ws ≤ 1 then some (depthAt b vs rs ws x y) else none
  else if Config.sampleHit (vertWords vs) x y then some (Config.sampleDepth (vertWords vs) x y) else none

/-! ### What a fragment starts with (R260, Table 9.9) -/

/-- Barycentric b1 or b2 at a position, perspective-correct: the vertex's weight over the sum of the weights. A line has b1 alone, a point
neither (DEDUCED, log 16). -/
def baryAt (vs : List VertexOut) (rs : List RastV) (x y : Int) (k : Nat) : W32 :=
  if vs.length ≤ k then 0
  else
    let ws := weightsAt rs x y
    let sum := ws.sum
    let open_ := Config.sampleBary (vertWords vs) x y k
    if ¬ vs.all finiteV ∨ sum = 0 then open_ else (f32OfRat (lget 0 ws k / sum)).getD open_

/-- An attribute interpolated as a0 + b1 × (a1 − a0) + b2 × (a2 − a0) in strict FP32 in that order (R260). -/
def attrAt (vs : List VertexOut) (b1 b2 : W32) (k : Nat) : W32 :=
  let a (n : Nat) : W32 := match vs[n]? with | some v => lget 0 v.attrs k | none => 0
  let d (n : Nat) : W32 := (fSub true (a n) (a 0)).v
  let t1 := if 2 ≤ vs.length then (fAdd true (a 0) (fMul true b1 (d 1)).v).v else a 0
  if 3 ≤ vs.length then (fAdd true t1 (fMul true b2 (d 2)).v).v else t1

/-- v7 bit 0 of a primitive's fragments. -/
def frontBit (raster topo : Nat) (rs : List RastV) : Bool :=
  match rs with
  | [p, q, r] => facesFront raster p q r
  | _ => Config.lineFacing topo

/-! ### Depth and stencil (R258, Table 9.5) -/

/-- A comparison of codes by DEPTH_FUNC: numbers by their order. -/
def funcNat (f a b : Nat) : Bool :=
  match f with
  | 0 => false
  | 1 => decide (a < b)
  | 2 => decide (a = b)
  | 3 => decide (a ≤ b)
  | 4 => decide (b < a)
  | 5 => decide (a ≠ b)
  | 6 => decide (b ≤ a)
  | _ => true

/-- A comparison of FP32 depths. -/
def funcF (f : Nat) (a b : W32) : Bool :=
  match f with
  | 0 => false
  | 1 => (fCmp true 2 a b).1
  | 2 => (fCmp true 0 a b).1
  | 3 => (fCmp true 3 a b).1
  | 4 => (fCmp true 4 a b).1
  | 5 => (fCmp true 1 a b).1
  | 6 => (fCmp true 5 a b).1
  | _ => true

/-- A stencil operation. -/
def stencilOp (op cur ref : Nat) : Nat :=
  match op with
  | 0 => cur
  | 1 => 0
  | 2 => ref
  | 3 => min 255 (cur + 1)
  | 4 => cur - 1
  | 5 => 255 - cur
  | 6 => (cur + 1) % 256
  | _ => (cur + 255) % 256

/-- The tests of one sample: whether it passes, and the depth and stencil codes left. -/
def dsTest (b : List Byte) (set sref : Nat) (z : W32) (dep ste : Nat) : Bool × Nat × Nat :=
  let df := atFmt (psAttach b 8)
  let zc := if df = 5 then encodeTexel 5 0 15 [z] else z.toNat
  let cmp := if df = 5 then funcNat (fldN set 2 0) zc dep else funcF (fldN set 2 0) z (BitVec.ofNat 32 dep)
  let zOk := !(psDepth b && set.testBit 3) || cmp
  let m := fldN set 25 18
  let sOn := psStencil b && set.testBit 5
  let sOk := !sOn || funcNat (fldN set 8 6) (Nat.land sref m) (Nat.land ste m)
  let op := if ¬ sOk then fldN set 11 9 else if ¬ zOk then fldN set 14 12 else fldN set 17 15
  let wm := fldN set 33 26
  let ste2 := if sOn then Nat.lor (Nat.land ste (255 - wm)) (Nat.land (stencilOp op ste sref) wm) else ste
  let pass := sOk && zOk
  (pass, if pass && psDepth b && set.testBit 4 then zc else dep, ste2)

/-! ### Tiles (R255, R256) -/

/-- A tile as its planes: entry 1,024·s + p of each; `vis` holds the position of the visible primitive of a deferred run plus one. -/
structure Tile where
  colours : List (Array Nat)
  depth : Array Nat
  stencil : Array Nat
  vis : Array Nat

/-- Where a tile lies: its left and top pixel. -/
def tileOrigin (t : Nat) : Nat × Nat :=
  let sup := t / 16
  (sup % 128 * 128 + t % 4 * 32, sup / 128 * 128 + t / 4 % 4 * 32)

/-- Bytes of an attachment read for a tile: by the pass's resolved pages; a poisoned byte is free (log 4). -/
def attachBytes (s : State) (pages : Map Nat) (va n : Nat) : List Byte :=
  (countUp va n).map (fun a =>
    match pageLook pages a with
    | some pa => if poisonAt s pa then Config.freeByte s.freeCtr a else memByte s pa
    | none => 0)

/-- The stored texels of block `i` of a sample plane (R267), with a bad metadata byte and its address. -/
def loadBlock (s : State) (pages : Map Nat) (b r : List Byte) (smp i : Nat) : List Nat × List (Nat × Nat) :=
  let fmt := atFmt r
  let n := 64 * texelBytes fmt
  let va := leAt r 0 8 + smp * planeStep b fmt + i * n
  if leAt r 8 8 = 0 then (rawTexels fmt (attachBytes s pages va n), [])
  else
    let mva := leAt r 8 8 + smp * metaStep b + i
    let m := leNat (attachBytes s pages mva 1)
    ((readBlock fmt m (attachBytes s pages va n)).getD (rep 64 (atClear r)), if n / 32 < m then [(mva, m)] else [])

/-- The blocks of a tile: (column, row) within the tile and the block's number in its plane, where the plane has it. -/
def tileBlocks (b : List Byte) (t : Nat) : List (Nat × Nat × Nat) :=
  let (x, y) := tileOrigin t
  (countUp 0 16).filterMap (fun k =>
    let bx := x / 8 + k % 4
    let byy := y / 8 + k / 4
    if bx < ceilDiv (psW b) 8 ∧ byy < ceilDiv (psH b) 8 then some (k % 4, k / 4, byy * ceilDiv (psW b) 8 + bx) else none)

/-- Put a block's texels into a plane of a tile at sample `smp`. -/
def putBlock (a : Array Nat) (smp bx byy : Nat) (ts : List Nat) : Array Nat :=
  (ts.zipIdx).foldl (fun acc p => acc.setIfInBounds (1024 * smp + 32 * (8 * byy + p.2 / 8) + 8 * bx + p.2 % 8) p.1) a

/-- A block's texels out of a plane of a tile. -/
def getBlock (a : Array Nat) (smp bx byy : Nat) : List Nat :=
  (countUp 0 64).map (fun i => a.getD (1024 * smp + 32 * (8 * byy + i / 8) + 8 * bx + i % 8) 0)

/-- A plane loaded for a tile (R256): from memory under LOAD or in a later segment, from CLEAR, or zero; with bad metadata bytes. -/
def loadPlane (s : State) (pages : Map Nat) (b r : List Byte) (t : Nat) (again : Bool) : Array Nat × List (Nat × Nat) :=
  let n := 1024 * psSamples b
  if again ∨ atLoad r = 0 then
    (countUp 0 (psSamples b)).foldl (fun acc smp =>
      (tileBlocks b t).foldl (fun acc k =>
        let (ts, bad) := loadBlock s pages b r smp k.2.2
        (putBlock acc.1 smp k.1 k.2.1 ts, acc.2 ++ bad)) acc) (Array.replicate n 0, [])
  else (Array.replicate n (if atLoad r = 1 then atClear r else 0), [])

/-- A tile loaded, with the bad metadata bytes found. -/
def loadTile (s : State) (pages : Map Nat) (b : List Byte) (t : Nat) (again : Bool) : Tile × List (Nat × Nat) :=
  let one (a : Nat) : Array Nat × List (Nat × Nat) := loadPlane s pages b (psAttach b a) t again
  let cs := (countUp 0 (psColours b)).map one
  let d := if psDepth b then one 8 else (#[], [])
  let st := if psStencil b then one 9 else (#[], [])
  ({ colours := cs.map (fun c => c.1), depth := d.1, stencil := st.1, vis := Array.replicate (1024 * psSamples b) 0 },
   cs.flatMap (fun c => c.2) ++ d.2 ++ st.2)

/-! ### Rendering a tile (R258 to R262) -/

/-- One primitive of a tile's list, ready to rasterise. -/
structure TilePrim where
  su : Setup
  verts : List RastV

/-- What the tests of a primitive leave: the tile, the entries of the samples that passed, and the blocks of depth and stencil that changed. -/
structure Tested where
  tile : Tile
  passed : List Nat
  changed : List (Nat × Nat)

/-- One sample's tests (R258). -/
def testSample (b : List Byte) (ox oy : Nat) (p : TilePrim) (acc : Tested) (e : Nat) : Tested :=
  let x := ox + e % 32
  let y := oy + e % 1024 / 32
  let q := (samplePos (psSamples b)).getD (e / 1024) (0, 0)
  match hitAt b p.su.verts p.verts ((256 * x + 16 * q.1 : Nat) : Int) ((256 * y + 16 * q.2 : Nat) : Int), psDrawn b x y with
  | some z, true =>
    let d0 := acc.tile.depth.getD e 0
    let s0 := acc.tile.stencil.getD e 0
    let (pass, dep, ste) := dsTest b (psDs b (p.su.sets / 8 % 8)) p.su.sref z d0 s0
    { tile := { acc.tile with depth := acc.tile.depth.setIfInBounds e dep, stencil := acc.tile.stencil.setIfInBounds e ste },
      passed := if pass then acc.passed ++ [e] else acc.passed,
      changed := acc.changed ++ (if dep = d0 then [] else [(8, blockKey e)]) ++ (if ste = s0 then [] else [(9, blockKey e)]) }
  | _, _ => acc

/-- The samples of a primitive tested in a tile, with the planes' updates (R258). -/
def testPrim (b : List Byte) (t : Nat) (p : TilePrim) (tile : Tile) : Tested :=
  let (ox, oy) := tileOrigin t
  (countUp 0 (1024 * psSamples b)).foldl (testSample b ox oy p) { tile := tile, passed := [], changed := [] }

/-- The visibility pass of a deferred run (R259): each sample that passes records its primitive's position in the run, from 1. -/
def visPass (b : List Byte) (t : Nat) (run : List TilePrim) (tile : Tile) : Tested :=
  (run.zipIdx).foldl (fun acc p =>
    let r := testPrim b t p.1 acc.tile
    { tile := { r.tile with vis := r.passed.foldl (fun v e => v.setIfInBounds e (p.2 + 1)) r.tile.vis }, passed := [],
      changed := acc.changed ++ r.changed })
    { tile := { tile with vis := Array.replicate (1024 * psSamples b) 0 }, passed := [], changed := [] }

/-- A fragment: its primitive, pixel in the tile, sample under SAMPLE_SHADE, and the samples it stands for. -/
structure Fragment where
  prim : TilePrim
  pixel : Nat
  sample : Option Nat
  mask : Nat

/-- The fragments of a primitive for the entries it is shaded at: one for each pixel, or for each sample under SAMPLE_SHADE (R259). -/
def fragsOf (p : TilePrim) (es : List Nat) : List Fragment :=
  if p.su.raster.testBit 4 then es.map (fun e => { prim := p, pixel := e % 1024, sample := some (e / 1024), mask := 2 ^ (e / 1024) })
  else ((es.map (fun e => e % 1024)).eraseDups).map (fun x =>
    { prim := p, pixel := x, sample := none, mask := ((es.filter (fun e => e % 1024 == x)).map (fun e => 2 ^ (e / 1024))).sum })

/-- The registers of a lane at a pixel of a primitive (Table 9.9). -/
def fragRegs (b : List Byte) (t : Nat) (p : TilePrim) (varyings pixel : Nat) (sample : Option Nat) (mask : Nat) : List (Nat × W32) :=
  let x := (tileOrigin t).1 + pixel % 32
  let y := (tileOrigin t).2 + pixel / 32
  let q := match sample with | some k => (samplePos (psSamples b)).getD k (8, 8) | none => (8, 8)
  let px : Int := ((256 * x + 16 * q.1 : Nat) : Int)
  let py : Int := ((256 * y + 16 * q.2 : Nat) : Int)
  let vs := p.su.verts
  let b1 := baryAt vs p.verts px py 1
  let b2 := baryAt vs p.verts px py 2
  [(0, BitVec.ofNat 32 (x + 65536 * y)), (1, BitVec.ofNat 32 mask), (2, b1), (3, b2), (4, BitVec.ofNat 32 p.su.prim),
   (5, depthAt b vs p.verts (weightsAt p.verts px py) px py), (6, BitVec.ofNat 32 pixel),
   (7, if frontBit p.su.raster p.su.topo p.verts then 1 else 0)]
    ++ (countUp 0 varyings).map (fun k => (8 + k, attrAt vs b1 b2 k))

/-- The lanes of a primitive's fragments of one sample key, gathered in 2 × 2 quads, row by row; a pixel of a quad without a fragment is a
helper lane (R260). -/
def quadLanes (b : List Byte) (t varyings : Nat) (p : TilePrim) (sample : Option Nat) (fs : List Fragment) : List LaneStart :=
  let quads := (countUp 0 256).filter (fun q => fs.any (fun f => f.pixel / 64 * 16 + f.pixel % 32 / 2 == q))
  quads.flatMap (fun q => (countUp 0 4).map (fun l =>
    let pixel := 32 * (2 * (q / 16) + l / 2) + 2 * (q % 16) + l % 2
    let f := fs.find? (fun f => f.pixel == pixel)
    let mask := match f with | some g => g.mask | none => 0
    { here := true, exec := f.isSome, index := 0, mask := mask, regs := fragRegs b t p varyings pixel sample mask }))

/-- The lanes of a primitive's fragments. -/
def primLanes (b : List Byte) (t varyings : Nat) (p : TilePrim) (es : List Nat) : List LaneStart :=
  let fs := fragsOf p es
  ((fs.map (fun f => f.sample)).eraseDups).flatMap (fun k => quadLanes b t varyings p k (fs.filter (fun f => f.sample == k)))

/-! ### Writing out (R253, R263, R267) -/

/-- The cells of one block written to an attachment's memory: the whole stored form with its metadata byte, or the pixels within the
render area where the attachment has no metadata. -/
def storeBlock (pages : Map Nat) (b : List Byte) (fmt data md : Nat) (t smp : Nat) (k : Nat × Nat × Nat) (keepClear : Bool)
    (ts : List Nat) : List Host.Cell :=
  let n := 64 * texelBytes fmt
  let va := data + smp * planeStep b fmt + k.2.2 * n
  let cells (va : Nat) (l : List Byte) : List Host.Cell := (cellsAt va l).filterMap (fun c => (pageLook pages c.1).map (fun pa => (pa, c.2)))
  if md = 0 then
    let (ox, oy) := tileOrigin t
    (ts.zipIdx).flatMap (fun p =>
      if ox + 8 * k.1 + p.2 % 8 < psW b ∧ oy + 8 * k.2.1 + p.2 / 8 < psH b then cells (va + p.2 * texelBytes fmt) (natLe (texelBytes fmt) p.1)
      else [])
  else
    let mva := md + smp * metaStep b + k.2.2
    if keepClear then cells mva [0]
    else
      let (m, bytes) := writeBlock fmt ts
      cells va bytes ++ cells mva (natLe 1 m)

/-- The cells of one attachment of a tile written to DATA. A block is written as a clear one only where it was loaded from CLEAR and no write
has changed it (R267). -/
def storePlane (pages : Map Nat) (b r : List Byte) (t : Nat) (changed : Nat → Bool) (a : Array Nat) : List Host.Cell :=
  (countUp 0 (psSamples b)).flatMap (fun smp => (tileBlocks b t).flatMap (fun k =>
    storeBlock pages b (atFmt r) (leAt r 0 8) (leAt r 8 8) t smp k (atLoad r == 1 && !changed (16 * smp + 4 * k.2.1 + k.1))
      (getBlock a smp k.1 k.2.1)))

/-- One pixel's samples averaged (R263). -/
def resolveTexel (fmt n : Nat) (codes : List Nat) : Nat :=
  if n = 1 then codes.headD 0
  else
    let vs := codes.map (decodeTexel fmt)
    let inv := (pack32 true false 1 (-(Nat.log2 n : Int))).v
    encodeTexel fmt 0 15 ((countUp 0 4).map (fun k =>
      let l := vs.map (fun v => lget 0 v k)
      (fMul true (l.tail.foldl (fun a x => (fAdd true a x).v) (l.headD 0)) inv).v))

/-- The cells of the resolve target of a colour attachment. -/
def resolvePlane (pages : Map Nat) (b r : List Byte) (t : Nat) (a : Array Nat) : List Host.Cell :=
  let n := psSamples b
  (tileBlocks b t).flatMap (fun k =>
    let ts := (countUp 0 64).map (fun i =>
      resolveTexel (atFmt r) n ((countUp 0 n).map (fun smp => a.getD (1024 * smp + 32 * (8 * k.2.1 + i / 8) + 8 * k.1 + i % 8) 0)))
    storeBlock pages b (atFmt r) (leAt r 0x20 8) (leAt r 0x28 8) t 0 k false ts)

/-- Every cell that a tile's write-out stores (R253, R263): in a flush every attachment; in the last segment by STORE. -/
def storeTile (pages : Map Nat) (b : List Byte) (t : Nat) (flush : Bool) (changed : List (Nat × Nat)) (tile : Tile) : List Host.Cell :=
  let planes := ((countUp 0 (psColours b)).map (fun a => (a, tile.colours.getD a #[])))
    ++ (if psDepth b then [(8, tile.depth)] else []) ++ (if psStencil b then [(9, tile.stencil)] else [])
  planes.flatMap (fun p =>
    let r := psAttach b p.1
    if flush ∨ atStore r = 0 then storePlane pages b r t (fun k => decide ((p.1, k) ∈ changed)) p.2
    else if atStore r = 2 then resolvePlane pages b r t p.2
    else [])

end Sys2Proof.Machine
end

