-- ==== Sys2Proof/Machine/Geo.lean ====
section
/-! DEFINITION. Render passes (09, R236 to R256): acceptance, the join, chunks and binning, the ordered merge, partial flushes, tiles
and the end of a pass. Vertex and fragment groups run on the cores as blocks of one group that GEO places (R243). -/

namespace Sys2Proof.Machine

/-! ### Passes -/

/-- Whether a die is lit for rendering (R22). -/
def litForRender (s : State) (d : DieId) : Bool :=
  s.agree.joined.testBit d.val && domLit s d 8 && (countUp 0 8).any (domLit s d)

/-- The domains of a die that a pass holds lit from its start (R243). -/
def heldNow (s : State) (d : DieId) : Nat :=
  ((8 :: countUp 0 8).filter (domLit s d)).foldl (fun a x => a ||| 2 ^ x) 0

/-- A flag of GEO_ERR raised. -/
def geoErr (s : State) (d : DieId) (flag : Nat) : State :=
  let u := getGeo s d
  let e := errRaise u.err s.now flag
  setGeo s d { u with err := if flag = 5 then errCount e s.now 31 16 1 else e }

/-- An entry of layout P of the engine. -/
def geoLog (s : State) (d : DieId) (p : GeoPass) (code value : Nat) : State :=
  logEntry s d { code := code, kind := 0x02, index := 0, tenant := some p.tenant, ctx := some p.ctx, queue := p.queue, sub := p.sub,
                 detail := detP p.pass p.dies (maskOfDies (litOf p)) value }

/-- The GEO_ERR flag of a code. -/
def geoFlag (code : Nat) : Nat :=
  match code with | 0x0401 => 0 | 0x0402 => 1 | 0x0403 => 2 | 0x0404 => 3 | _ => 4

/-- A pass aborted for a cause that die `d` detects: its entry and flag there, and the abort everywhere (R241). -/
def abortPass (s : State) (d : DieId) (p : GeoPass) (code value : Nat) : State :=
  markAborted (geoErr (geoLog s d p code value) d (geoFlag code)) p

/-! ### Acceptance (R236 to R238, R242) -/

/-- Whether a `k.bin` descriptor keeps Table 9.1. -/
def binLegal (d : DieId) (b : List Byte) : Bool :=
  decide (leAt b 0x14 1 < 16) && (leAt b 0x14 1).testBit d.val && zeroAt b 0x15 3 && leAt b 0x18 8 % 64 == 0 && leAt b 0x20 8 % 64 == 0
    && decide (1 ≤ leAt b 0x28 4) && decide (leAt b 0x28 4 ≤ 2 ^ 20) && zeroAt b 0x2C 4 && leAt b 0x30 8 % 65536 == 0
    && leAt b 0x38 4 % 64 == 0 && decide (2048 ≤ leAt b 0x38 4) && zeroAt b 0x3C 68

/-- The ranges of an attachment: DATA, META, RESOLVE (R237). -/
def attachRanges (b : List Byte) (a : Nat) : List (Nat × Nat) :=
  let r := psAttach b a
  let n := psSamples b
  [(leAt r 0 8, n * planeStep b (atFmt r))]
    ++ (if leAt r 8 8 = 0 then [] else [(leAt r 8 8, n * metaStep b)])
    ++ (if atStore r = 2 then
          (leAt r 0x20 8, planeStep b (atFmt r)) :: (if leAt r 0x28 8 = 0 then [] else [(leAt r 0x28 8, metaStep b)])
        else [])

/-- Ranges translated one after another into one page table. -/
def translateAll (d : DieId) (c : Nat) (a : XlAsk) : List (Nat × Nat) → State → Map Nat → List Nat →
    Except (Nat × Nat) (Map Nat × List Nat) × State
  | [], s, m, os => (.ok (m, os), s)
  | (va, n) :: r, s, m, os =>
    match translateRange s d c va n a with
    | (.error x, s1) => (.error x, s1)
    | (.ok (m1, o1), s1) => translateAll d c a r s1 (m1.foldl (fun t e => mins t e.1 e.2) m) (joinObjs os o1)

/-- The ranges of a descriptor translated in order: state block and draw list, then the pool, then the attachments. A pool that does
not lie in the die's memory is PLACEMENT. -/
def binSides (s : State) (d : DieId) (c : Nat) (b : List Byte) : Except (Nat × Nat) (Map Nat × List Nat × List Byte) × State :=
  match translateAll d c {} [(leAt b 0x18 8, 1024), (leAt b 0x20 8, 64 * leAt b 0x28 4)] s [] [] with
  | (.error x, s1) => (.error x, s1)
  | (.ok (m1, o1), s1) =>
    match translateAll d c { write := true } [(leAt b 0x30 8, 1024 * leAt b 0x38 4)] s1 [] [] with
    | (.error x, s2) => (.error x, s2)
    | (.ok (mp, o2), s2) =>
      match mp.find? (fun e => !(dieOf e.2 == d)) with
      | some e => (.error (e.1 * 2 ^ 25, 0x08), s2)
      | none =>
        match readPages s2 d m1 (leAt b 0x18 8) 1024 with
        | none => (.error (leAt b 0x18 8, 0x03), s2)
        | some blk =>
          let ranges := (psUsed blk).flatMap (attachRanges blk)
          match translateAll d c { write := true } ranges s2 (mp.foldl (fun t e => mins t e.1 e.2) m1) (joinObjs o1 o2) with
          | (.error x, s3) => (.error x, s3)
          | (.ok (m3, o3), s3) => (.ok (m3, o3, blk), s3)

/-- A pass as its descriptor opens it. -/
def passOfDesc (d : DieId) (c tenant : Nat) (x : Submission) (sub : Nat) : GeoPass :=
  let b := x.desc
  { pass := leAt b 0x10 4, ctx := c, tenant := tenant, queue := x.queue, count := x.count, sub := sub, fence := false, fencePa := 0,
    value := le64 (b.drop 8), dies := leAt b 0x14 1, stateVa := leAt b 0x18 8, drawsVa := leAt b 0x20 8, drawCount := leAt b 0x28 4,
    pool := leAt b 0x30 8, poolKib := leAt b 0x38 4, block := [], pages := [], pins := [],
    leader := (diesOf (leAt b 0x14 1)).headD d, lit := none, phase := 0, since := 0, joinLogged := false, nextChunk := 0,
    out := qall [], away := qall [], inbox := qall [], mergeNext := 0, bins := [], setups := [], prims := 0, records := 0, segments := 0,
    flushTo := none, flushed := 0, cursor := 0, rendered := [], reported := [], aborted := false, done := false, held := qall 0,
    begun := 0, verts := [], jobs := [] }

/-- A rejected descriptor aborts its pass on the other dies (R237, R241). -/
def rejectPass (s : State) (d : DieId) (p : GeoPass) : State :=
  geoErr (markAborted s { p with dies := p.dies - 2 ^ d.val * b2n (p.dies.testBit d.val) }) d 5

/-- What a die keeps of a pass that ended or was aborted before its descriptor came. -/
def endedEntry (s : State) (d : DieId) (p : GeoPass) : Option Bool :=
  ((getGeo s d).ended.find? (fun e => e.1 == p.ctx && e.2.1 == p.pass)).map (fun e => e.2.2)

/-- What GEO_STATUS and GEO_COUNT keep of a pass that leaves. -/
def saveStatus (s : State) (d : DieId) (p : GeoPass) : State :=
  setGeo s d { getGeo s d with
    status := packFields [(p.pass, 0), (maskOfDies (litOf p), 36), (p.leader.val, 40), (min 65535 p.segments, 48)],
    counts := packFields [(p.prims, 0), (min (2 ^ 32 - 1) p.records, 32)] }

/-- GEO takes the descriptor at the head of its submission queue (R100, R237, R238, R242). The leader samples L, which begins the
pass, and waits to accept while no die of DIES is lit for rendering. -/
def acceptGeo (s : State) (d : DieId) (x : Submission) : State :=
  let c := subCtx s d x
  let p := passOfDesc d c (subTenant s d x) x (nextCount s d 0)
  let l := (diesOf p.dies).filter (litForRender s)
  if ctxFaulted s d x then rejectPass (rejectFaulted s d 0 x) d p
  else if ¬ binLegal d x.desc then rejectPass (endProgram (popSub s d 0) d x.frame (some 3)) d p
  else if p.leader = d ∧ l = [] ∧ (endedEntry s d p).isNone then s
  else
    match binSides s d c x.desc with
    | (.error (va, f), s1) => rejectPass (rejectXlate s1 d 0 x va f) d p
    | (.ok (m, os, blk), s1) =>
      match fenceSide s1 d c x.desc with
      | (.error (va, f), s2) => rejectPass (rejectXlate s2 d 0 x va f) d p
      | (.ok (hasF, fpa, fo), s2) =>
        let pins := joinObjs os fo
        if ¬ pinRoom s2 d pins then rejectPass (rejectXlate s2 d 0 x p.stateVa 0x0D) d p
        else
          let s3 := acceptSub s2 d 0 x pins
          let q := { p with fence := hasF, fencePa := fpa, pages := m, pins := pins, block := blk, since := dtime s d }
          let u := getGeo s3 d
          let keep := u.ended.filter (fun e => !(e.1 == p.ctx && e.2.1 == p.pass))
          match endedEntry s d p with
          | some true => setGeo s3 d { u with passes := u.passes ++ [{ q with aborted := true }], ended := keep }
          | some false =>
            opFinish (saveStatus (setGeo s3 d { u with ended := keep }) d q) d q.queue q.count q.fence q.fencePa q.value q.pins
          | none =>
            if p.leader = d then
              let held := qmap (fun n _ => if n ∈ l then heldNow s n else 0) (qall 0)
              setGeo s3 d { u with passes := u.passes ++ [{ q with lit := some l, held := held }] }
            else
              setGeo s3 d { u with passes := u.passes ++ [{ q with lit := (mateOf s p.leader p).bind (fun k => k.lit) }] }

/-- BIN_ACCEPT (R237): GEO accepts the `k.bin` descriptor at the head of its submission queue. -/
def execBinAccept (d : DieId) (s : State) : Host.Outcome State Fault Refusal :=
  match headSub s d 0, dieRuns s d && !(engineOf s d 0).fenced with
  | some x, true => ok (settleSubs (acceptGeo s d x) d 0)
  | _, _ => ok s

/-! ### The join (R239, R240, R244) -/

/-- The pass whose join a die runs: the first accepted that has not joined and in whose L the die may be (R240). -/
def joining (s : State) (d : DieId) : Option GeoPass :=
  (getGeo s d).passes.find? (fun p => p.phase == 0 && !p.done && !p.aborted && (match p.lit with | some l => d ∈ l || d == p.leader | none => true))

/-- Dies of L that have not accepted a descriptor for this leader's join yet. -/
def notJoined (s : State) (p : GeoPass) : List DieId :=
  (litOf p).filter (fun n => match joining s n with | some q => !(q.leader == p.leader) | none => true)

/-- Whether a die's descriptor differs from the leader's (R239). -/
def differs (p q : GeoPass) : Bool :=
  !(samePass p q) || decide (p.dies ≠ q.dies) || decide (p.stateVa ≠ q.stateVa) || decide (p.drawsVa ≠ q.drawsVa)
    || decide (p.drawCount ≠ q.drawCount)

/-- The place of a die in L. -/
def placeIn (l : List DieId) (d : DieId) : Nat := l.findIdx (fun n => n == d)

/-- The join of the leader's pass: mismatch, unfit, or binning begins on every die of L; a die of DIES outside L only waits for the end. -/
def joinPass (s : State) (p : GeoPass) : State :=
  let l := litOf p
  match l.find? (fun n => match joining s n with | some q => differs p q | none => true) with
  | some n => abortPass s p.leader p 0x0401 n.val
  | none =>
    let share := (ctxOf s p.leader p.ctx).tileShare * 4096
    if ¬ blockOk p.block ∨ share < tileFootprint p.block then abortPass s p.leader p 0x0403 (tileFootprint p.block)
    else
      let s1 := (diesOf p.dies).foldl (fun t n =>
        match mateOf t n p with
        | some q => setPass t n { q with lit := some l, phase := if n ∈ l then 1 else 4, nextChunk := placeIn l n }
        | none => t) s
      match joining s1 p.leader with
      | some q => setPass s1 p.leader { q with since := dtime s1 p.leader }
      | none => s1

/-- PASS_JOIN (R239): every die of L has accepted its descriptor. -/
def execPassJoin (leader : DieId) (pass : W32) (s : State) : Host.Outcome State Fault Refusal :=
  match joining s leader with
  | some p => event (p.pass == pass.toNat && p.leader == leader && (notJoined s p).isEmpty && dieRuns s leader) s (joinPass s p)
  | none => ok s

/-- PASS_JOIN_WAIT (R239): the join has waited 100 ms; one entry, and the wait goes on. -/
def execPassJoinWait (leader : DieId) (pass : W32) (s : State) : Host.Outcome State Fault Refusal :=
  match joining s leader with
  | some p =>
    let out := notJoined s p
    event (p.pass == pass.toNat && p.leader == leader && !out.isEmpty && !p.joinLogged && decide (p.since + 100000000 ≤ dtime s leader)) s
      (geoErr (geoLog (setPass s leader { p with joinLogged := true }) leader p 0x0402 (maskOfDies out)) leader 1)
  | none => ok s

/-! ### Aborts (R241) -/

/-- The slots of a pass's context after the pass has changed (R243, Table 5.1). -/
def settlePass (c : Nat) (s : State) : State := allDies.foldl (fun t n => refreshSlot t n c) s

/-- A pass taken out of a die's list. -/
def dropPass (s : State) (d : DieId) (p : GeoPass) : State :=
  settlePass p.ctx <| saveStatus (setGeo s d { getGeo s d with passes := (getGeo s d).passes.filter (fun q => !(q.sub == p.sub)) }) d p

/-- PASS_ABORT (R241): the abort of a pass acts on a die: its work stops and its record has its operation stopped. A reset of the
context's tenant aborts the pass itself. -/
def execPassAbort (d : DieId) (pass : W32) (s : State) : Host.Outcome State Fault Refusal :=
  let find (t : State) : Option GeoPass := (getGeo t d).passes.find? (fun p => p.pass == pass.toNat && p.aborted)
  let s1 := match passOf s d pass.toNat with
    | some p => if (find s).isNone ∧ resettingTenant s p.tenant then markAborted s p else s
    | none => s
  match find s1 with
  | some p => ok (opStop (geoErr (dropPass (killPass s1 d p.sub) d p) d 5) d p.queue p.count p.pins)
  | none => ok s1

/-! ### Draws (R244 to R246) -/

/-- Draw record `i` of a pass. -/
def drawRec (s : State) (d : DieId) (p : GeoPass) (i : Nat) : Option (List Byte) := readPages s d p.pages (p.drawsVa + 64 * i) 64

/-- The draws of a pass: index, first primitive, primitives; an unreadable record counts none. -/
def drawTable (s : State) (d : DieId) (p : GeoPass) : List (Nat × Nat × Nat) :=
  ((countUp 0 p.drawCount).foldl (fun (acc : List (Nat × Nat × Nat) × Nat) i =>
    let n := match drawRec s d p i with | some b => leAt b 0 4 | none => 0
    ((i, acc.2, n) :: acc.1, acc.2 + n)) ([], 0)).1.reverse

/-- Chunks of a pass (R246). -/
def chunksIn (t : List (Nat × Nat × Nat)) : Nat := max 1 (ceilDiv ((t.map (fun e => e.2.2)).sum) 256)

/-- Draws that a chunk reaches. -/
def drawsOf (t : List (Nat × Nat × Nat)) (c : Nat) : List (Nat × Nat × Nat) :=
  t.filter (fun e => decide (e.2.1 < 256 * (c + 1)) && decide (256 * c < e.2.1 + max 1 e.2.2))

/-- Whether a draw record's own fields keep Table 9.4. -/
def drawFieldsOk (b : List Byte) : Bool :=
  decide (1 ≤ leAt b 0 4) && decide (leAt b 0 4 ≤ 2 ^ 24) && decide (leAt b 4 1 ≤ 3) && decide (leAt b 5 1 % 4 ≤ 2)
    && decide (leAt b 5 1 < 32) && decide (leAt b 6 1 < 64) && (leAt b 0x18 8 == 0 || leAt b 0x2C 1 == 1 || leAt b 0x2C 1 == 2)
    && decide (leAt b 0x2D 1 ≤ 32) && zeroAt b 0x2E 18

/-- Whether a kernel header serves a draw (R245). -/
def drawKernelOk (cx : Ctx) (b : List Byte) (varyings args : Nat) : Bool :=
  match kernelOf b args with
  | some k => k.groups == 1 && k.tileKib == 0 && kernelFits cx k && decide (8 + varyings ≤ k.vregs)
  | none => false

/-- The check of a draw that binning reaches (R245). -/
def drawCheck (s : State) (d : DieId) (p : GeoPass) (i : Nat) : Bool × State :=
  match drawRec s d p i with
  | none => (false, s)
  | some b =>
    let kv := leAt b 8 8
    let kf := leAt b 0x10 8
    let cx := ctxOf s d p.ctx
    if ¬ drawFieldsOk b ∨ kv % 64 ≠ 0 ∨ kf % 64 ≠ 0 then (false, s)
    else
      match vaBytes d p.ctx 2 kv 64 s with
      | (.error _, s1) => (false, s1)
      | (.ok hv, s1) =>
        match vaBytes d p.ctx 2 kf 64 s1 with
        | (.error _, s2) => (false, s2)
        | (.ok hf, s2) => (drawKernelOk cx hv (leAt b 0x2D 1) (leAt b 0x20 8) && drawKernelOk cx hf (leAt b 0x2D 1) (leAt b 0x20 8), s2)

/-- A draw's kernel whose header VA stands at `o` of its record, with the argument words copied (R210, R248); none where it cannot be read. -/
def drawKernel (d : DieId) (p : GeoPass) (b : List Byte) (o : Nat) (s : State) : Option (Kernel × List W64) × State :=
  let av := leAt b 0x20 8
  match vaBytes d p.ctx 2 (leAt b o 8) 64 s with
  | (.error _, s1) => (none, s1)
  | (.ok h, s1) =>
    match kernelOf h av with
    | none => (none, s1)
    | some k =>
      match vaBytes d p.ctx 2 av (8 * k.argWords) s1 with
      | (.error _, s2) => (none, s2)
      | (.ok ws, s2) => (some (k, (chunksOf 8 56 ws).map le64), s2)

/-- One group of a pass, as a dispatch of one block of one group with every cluster allowed (R243). -/
def geoDispatch (p : GeoPass) (b : List Byte) (o : Nat) (k : Kernel × List W64) (kib : Nat) (w : GeoWork) : Dispatch :=
  { engine := 0, ctx := p.ctx, tenant := p.tenant, queue := p.queue, count := p.count, sub := p.sub, fencePa := 0, fence := false,
    value := 0, width := k.1.width, vregs := k.1.vregs, groups := 1, orphanLog2 := k.1.orphan, tileKib := kib, entry := k.1.entry,
    kernel := leAt b o 8, args := BitVec.ofNat 64 (leAt b 0x20 8), words := k.2, gx := 1, gy := 1, gz := 1, clusters := 0, placed := 0,
    ended := 0, started := [], dead := false, pins := [], geo := some w }

/-- Lanes of a draw launched in groups of the kernel's width; false where the kernel cannot be read. -/
def launchLanes (d : DieId) (p : GeoPass) (i : Nat) (b : List Byte) (o : Nat) (tile : Option Nat) (kib : Nat) (scalars : List (Nat × W32))
    (lanes : List LaneStart) (s : State) : Bool × State :=
  match drawKernel d p b o s with
  | (none, s1) => (false, s1)
  | (some k, s1) =>
    (true, (chunksOf k.1.width lanes.length lanes).foldl (fun t l =>
      let w : GeoWork := { sub := p.sub, draw := i, tile := tile, blend := leAt b 6 1 % 8, varyings := leAt b 0x2D 1, scalars := scalars,
                           lanes := l }
      { setDisp t d t.nextId (geoDispatch p b o k kib w) with nextId := t.nextId + 1 }) s1)

/-- Whether groups of a pass for a tile, or for its vertices, are still there. -/
def geoBusy (s : State) (d : DieId) (sub : Nat) (tile : Option Nat) : Bool :=
  (getCores s d).dispatches.any (fun e => match e.2.geo with | some w => w.sub == sub && w.tile == tile | none => false)

/-- GEO's blocks placed as far as R121 lets them be. -/
def placeGeo (d : DieId) (s : State) : State :=
  let n := ((getCores s d).dispatches.filter (fun e => e.2.engine == 0 && e.2.placed == 0)).length
  (countUp 0 n).foldl (fun t _ => placeNext t d 0) s

/-- The elements of primitive `i` of a draw by topology (Table 9.4). -/
def elements (topo i : Nat) : List Nat :=
  match topo with
  | 0 => [3 * i, 3 * i + 1, 3 * i + 2]
  | 1 => if i % 2 = 1 then [i + 1, i, i + 2] else [i, i + 1, i + 2]
  | 2 => [2 * i, 2 * i + 1]
  | _ => [i]

/-- The vertex index of an element: FIRST + k, or the index buffer's value (R248). -/
def vertexIndex (d : DieId) (p : GeoPass) (b : List Byte) (k : Nat) (s : State) : Option Nat × State :=
  let e := leAt b 0x28 4 + k
  if leAt b 0x18 8 = 0 then (some (e % 2 ^ 32), s)
  else
    let n := 2 * leAt b 0x2C 1
    match vaBytes d p.ctx 2 (leAt b 0x18 8 + e * n) n s with
    | (.ok l, s1) => (some (leNat l), s1)
    | (.error _, s1) => (none, s1)

/-- The vertex indices of a primitive's elements; none where the index buffer cannot be read. -/
def primIndices (d : DieId) (p : GeoPass) (b : List Byte) : List Nat → State → Option (List Nat) × State
  | [], s => (some [], s)
  | k :: r, s =>
    match vertexIndex d p b k s with
    | (none, s1) => (none, s1)
    | (some v, s1) =>
      match primIndices d p b r s1 with
      | (none, s2) => (none, s2)
      | (some vs, s2) => (some (v :: vs), s2)

/-- The vertex indices of primitives of a draw, in order. -/
def drawIndices (d : DieId) (p : GeoPass) (b : List Byte) : List Nat → State → Option (List Nat) × State
  | [], s => (some [], s)
  | k :: r, s =>
    match primIndices d p b (elements (leAt b 4 1) k) s with
    | (none, s1) => (none, s1)
    | (some vs, s1) =>
      match drawIndices d p b r s1 with
      | (none, s2) => (none, s2)
      | (some l, s2) => (some (vs ++ l), s2)

/-- The primitives of a draw in a chunk. -/
def chunkPrims (c base n : Nat) : List Nat :=
  let lo := 256 * c - base
  countUp lo (min n (256 * (c + 1) - base) - lo)

/-- The vertex groups of a chunk launched, draw by draw: one lane for each distinct index, v0 holding it, s4 the draw (R245, R248); the draw
that is bad, where one is. -/
def beginChunk (d : DieId) (p : GeoPass) (c : Nat) : List (Nat × Nat × Nat) → State → Option Nat × State
  | [], s => (none, s)
  | (i, base, n) :: r, s =>
    match drawCheck s d p i with
    | (false, s1) => (some i, s1)
    | (true, s1) =>
      let b := (drawRec s1 d p i).getD []
      match drawIndices d p b (chunkPrims c base n) s1 with
      | (none, s2) => (some i, s2)
      | (some vs, s2) =>
        let lane (v : Nat) : LaneStart := { here := true, exec := true, index := v, mask := 0, regs := [(0, BitVec.ofNat 32 v)] }
        match launchLanes d p i b 8 none 0 [(4, BitVec.ofNat 32 i), (5, Config.gridWord)] (vs.eraseDups.map lane) s2 with
        | (false, s3) => (some i, s3)
        | (true, s3) => beginChunk d p c r s3

/-- What a chunk's preparation gives: its primitives as setup blocks, a bad draw, or a vertex that has not been
transformed. -/
inductive ChunkPrep where
  | ready (ps : List Setup)
  | bad (draw : Nat)
  | missing

/-- The primitives of a draw in a chunk, from primitive `k` of the draw, `n` of them. -/
def prepDraw (d : DieId) (p : GeoPass) (c : Nat) (i base : Nat) (b : List Byte) (verts : List VertexOut) : List Nat → State → ChunkPrep × State
  | [], s => (.ready [], s)
  | k :: r, s =>
    match primIndices d p b (elements (leAt b 4 1) k) s with
    | (none, s1) => (.bad i, s1)
    | (some vs, s1) =>
      let got := vs.map (fun v => verts.find? (fun x => x.draw == i && x.index == v))
      if got.any (fun g => g.isNone) then (.missing, s1)
      else
        match prepDraw d p c i base b verts r s1 with
        | (.ready l, s2) =>
          (.ready ({ prim := base + k, chunk := c, topo := leAt b 4 1, draw := i, raster := leAt b 5 1, sets := leAt b 6 1,
                     sref := leAt b 7 1, verts := got.filterMap id, size := 64 + 48 * ceilDiv (leAt b 0x2D 1) 4 } :: l), s2)
        | (e, s2) => (e, s2)

/-- A chunk prepared, draw by draw (R245, R248). -/
def prepChunk (d : DieId) (p : GeoPass) (c : Nat) (verts : List VertexOut) : List (Nat × Nat × Nat) → State → ChunkPrep × State
  | [], s => (.ready [], s)
  | (i, base, n) :: r, s =>
    match drawCheck s d p i with
    | (false, s1) => (.bad i, s1)
    | (true, s1) =>
      let b := (drawRec s1 d p i).getD []
      match prepDraw d p c i base b verts (chunkPrims c base n) s1 with
      | (.ready l, s2) =>
        match prepChunk d p c verts r s2 with
        | (.ready q, s3) => (.ready (l ++ q), s3)
        | (e, s3) => (e, s3)
      | (e, s2) => (e, s2)

/-! ### Binning (R247, R249 to R251) -/

/-- The super-tile columns and rows of a pass. -/
def superCols (p : GeoPass) : Nat := ceilDiv (psW p.block) 128
/-- The super-tile rows of a pass. -/
def superRows (p : GeoPass) : Nat := ceilDiv (psH p.block) 128

/-- The owner of a super-tile (R247). -/
def ownerOf (p : GeoPass) (sx sy : Nat) : DieId := (litOf p).getD ((sx + 3 * sy) % (litOf p).length) p.leader

/-- The super-tiles a die owns, by 128·sy + sx in ascending order. -/
def ownedSupers (p : GeoPass) (d : DieId) : List Nat :=
  ((countUp 0 (superRows p)).flatMap (fun sy => (countUp 0 (superCols p)).map (fun sx => (sx, sy)))).filterMap
    (fun q => if ownerOf p q.1 q.2 = d then some (128 * q.2 + q.1) else none)

/-- The pixels a primitive may meet, as first and last column and row, within scissor and render area: by its snapped bounding box; the whole
area where a vertex has no snapped place, at w ≤ 0 or beyond the number format (DESIGN CHOICE, log 16). -/
def primBox (p : GeoPass) (su : Setup) : Option (Nat × Nat × Nat × Nat) :=
  let b := p.block
  let x0 := leAt b 0x20 2
  let y0 := leAt b 0x22 2
  let x1 := min (leAt b 0x24 2) (psW b)
  let y1 := min (leAt b 0x26 2) (psH b)
  let whole := !(su.verts.all (fun v => finiteV v && snapsV b v))
  let grow : Int := if su.topo < 2 then 0 else 128
  let xs := su.verts.map (fun v => snap256 (windowXY b v).1)
  let ys := su.verts.map (fun v => snap256 (windowXY b v).2)
  let lo (l : List Int) (a : Nat) : Nat := if whole then a else max a ((l.foldl min (l.headD 0) - grow) / 256).toNat
  let hi (l : List Int) (z : Nat) : Int := if whole then (z : Int) - 1 else min ((z : Int) - 1) ((l.foldl max (l.headD 0) + grow) / 256)
  if (lo xs x0 : Int) ≤ hi xs x1 ∧ (lo ys y0 : Int) ≤ hi ys y1 then some (lo xs x0, lo ys y0, (hi xs x1).toNat, (hi ys y1).toNat) else none

/-- The bin records of a primitive (R250, Table 9.6), by rows of super-tiles. -/
def primRecords (p : GeoPass) (d : DieId) (su : Setup) (data : Nat) : List BinRec :=
  match primBox p su with
  | none => []
  | some (x0, y0, x1, y1) =>
    (countUp (y0 / 128) (y1 / 128 + 1 - y0 / 128)).flatMap (fun sy =>
      (countUp (x0 / 128) (x1 / 128 + 1 - x0 / 128)).map (fun sx =>
        let meets (t : Nat) : Bool :=
          let tx := 4 * sx + t % 4
          let ty := 4 * sy + t / 4
          decide (x0 / 32 ≤ tx) && decide (tx ≤ x1 / 32) && decide (y0 / 32 ≤ ty) && decide (ty ≤ y1 / 32)
        { prim := su.prim, tiles := ((countUp 0 16).filter meets).foldl (fun a t => a + 2 ^ t) 0, sx := sx, sy := sy, src := d.val,
          data := data, draw := su.draw, ordered := su.raster.testBit 3 }))

/-- Bin records in a stream. -/
def recordsIn (l : List BinItem) : Nat := (l.filter (fun i => match i with | .record _ => true | .mark _ => false)).length

/-- Bytes used in a die's pool (R253): setup blocks, which begin at multiples of 64 bytes (Table 9.6), records that wait for the merge, bin lists. -/
def poolUsed (p : GeoPass) : Nat :=
  (p.setups.map (fun e => roundUp e.2.size 64)).sum
    + 16 * ((allDies.map (fun n => recordsIn (qget p.inbox n))).sum + (p.bins.map (fun e => e.2.length)).sum)

/-- Free bytes of a die's pool. -/
def poolFree (p : GeoPass) : Nat := 1024 * p.poolKib - poolUsed p

/-- Whether a chunk is known on a die to be finished: merged, its own, or its marker has arrived (R246). -/
def knownDone (p : GeoPass) (d : DieId) (c : Nat) : Bool :=
  let src := (litOf p).getD (c % (litOf p).length) p.leader
  decide (c < p.mergeNext) || (src == d && decide (c < p.nextChunk))
    || (qget p.inbox src).any (fun i => match i with | .mark k => k == c | .record _ => false)

/-- The lowest chunk that some die of L has not finished. -/
def lowestOpen (s : State) (p : GeoPass) (chunks : Nat) : Nat :=
  ((litOf p).map (fun n => match mateOf s n p with | some q => q.nextChunk | none => 0)).foldl min chunks

/-- The merge of R252 on one die, up to a flush's chunk. -/
def mergeLoop (limit : Nat) : Nat → GeoPass → GeoPass
  | 0, p => p
  | f + 1, p =>
    if limit ≤ p.mergeNext then p
    else
      let src := (litOf p).getD (p.mergeNext % (litOf p).length) p.leader
      match qget p.inbox src with
      | [] => p
      | .record r :: rest =>
        let k := 128 * r.sy + r.sx
        mergeLoop limit f { p with inbox := qset p.inbox src rest, bins := mput [] p.bins k (mget [] p.bins k ++ [r]),
                                   records := p.records + 1 }
      | .mark _ :: rest => mergeLoop limit f { p with inbox := qset p.inbox src rest, mergeNext := p.mergeNext + 1 }

/-- Merge what has arrived; when every chunk is merged, tiles may be rendered. -/
def mergePass (p : GeoPass) (chunks : Nat) : GeoPass :=
  let n := (allDies.map (fun d => (qget p.inbox d).length)).sum
  let q := mergeLoop (p.flushTo.getD chunks) (n + 1) p
  if q.phase = 1 ∧ q.mergeNext = chunks then { q with phase := 3, cursor := 0 } else q

/-- The place for the next setup block, in 64-byte units. -/
def nextSetup (p : GeoPass) : Nat := (p.setups.map (fun e => e.1 + ceilDiv e.2.size 64)).foldl max 0

/-- Setup blocks laid one after another in the pool, with their places. -/
def placeSetups : Nat → List Setup → List (Nat × Setup)
  | _, [] => []
  | o, x :: r => (o, x) :: placeSetups (o + ceilDiv x.size 64) r

/-- A chunk's survivors binned (R250, R251): setup blocks, records in PRIM order to each owner, and the chunk's markers. -/
def binChunk (p : GeoPass) (d : DieId) (c n : Nat) (ps : List Setup) : GeoPass :=
  let live := ps.filter (fun x => !(x.verts.all finiteV && culled p.block x.raster x.verts))
  let placed := placeSetups (nextSetup p) live
  let recs := placed.flatMap (fun e => primRecords p d e.2 e.1)
  let forDie (m : DieId) : List BinItem :=
    (recs.filter (fun r => ownerOf p r.sx r.sy == m)).map (fun r => BinItem.record r) ++ [BinItem.mark c]
  let l := litOf p
  { p with
    setups := placed.foldl (fun m e => mins m e.1 e.2) p.setups,
    out := qmap (fun m x => if m ∈ l ∧ m ≠ d then x ++ forDie m else x) p.out,
    inbox := qmap (fun m x => if m = d then x ++ forDie d else x) p.inbox,
    prims := p.prims + ps.length, nextChunk := c + n, begun := 0, verts := [] }

/-- A die that cannot store what binning needs: where a flush would not advance F the pass aborts with BIN_EXHAUSTED (R254); otherwise it
waits for the flush. -/
def poolShort (s : State) (d : DieId) (p : GeoPass) (chunks : Nat) : State :=
  if lowestOpen s p chunks ≤ p.flushed then abortPass s d p 0x0405 (poolFree p / 1024) else s

/-- Whether a die's own binning of a pass has ended (R240). -/
def binEnded (s : State) (d : DieId) (q : GeoPass) : Bool :=
  q.aborted || q.done || (decide (q.phase ≠ 0) && (!(decide (d ∈ litOf q)) || decide (chunksIn (drawTable s d q) ≤ q.nextChunk)))

/-- Whether a die's binning of the passes before this one has ended (R240). -/
def binFree (s : State) (d : DieId) (p : GeoPass) : Bool :=
  ((getGeo s d).passes.takeWhile (fun q => !(q.sub == p.sub))).all (binEnded s d)

/-- The pool space below which a die asks for a flush (R253). -/
def flushLevel (p : GeoPass) (d : DieId) : Nat := 2 ^ 20 + (ownedSupers p d).length * 37 * 1024

/-- Whether a flush is asked for that would advance F: then no die starts a chunk (R253). -/
def flushDue (s : State) (p : GeoPass) (chunks : Nat) : Bool :=
  let f := lowestOpen s p chunks
  decide (p.flushed < f) && decide (f < chunks)
    && (litOf p).any (fun n => match mateOf s n p with | some q => decide (poolFree q < flushLevel q n) | none => false)

/-- A chunk whose vertex groups have ended, set up and binned (R249 to R251). -/
def finishChunk (s : State) (d : DieId) (p : GeoPass) (chunk chunks : Nat) : State :=
  match prepChunk d p chunk p.verts (drawsOf (drawTable s d p) chunk) s with
  | (.missing, s1) => s1
  | (.bad i, s1) => faultContext (abortPass s1 d p 0x0404 i) d p.ctx
  | (.ready ps, s1) =>
    let q := binChunk p d chunk (litOf p).length ps
    if 1024 * p.poolKib < poolUsed q then poolShort (setPass s1 d { p with begun := 2 }) d p chunks
    else settlePass p.ctx (setPass s1 d (mergePass q chunks))

/-- CHUNK_BIN (R246, R248 to R251): the next chunk of a die. Its vertex groups are launched and placed; when they have ended, its primitives are
set up and binned. -/
def execChunkBin (d : DieId) (pass : W32) (chunk : Nat) (part : ChunkPart) (s : State) : Host.Outcome State Fault Refusal :=
  match passOf s d pass.toNat with
  | none => ok s
  | some p =>
    let chunks := chunksIn (drawTable s d p)
    if p.phase ≠ 1 ∨ p.flushTo.isSome ∨ p.nextChunk ≠ chunk ∨ chunks ≤ chunk ∨ ¬ dieRuns s d ∨ (part == .launch) ≠ (p.begun == 0) then ok s
    else if p.begun = 0 then
      if ¬ binFree s d p ∨ ¬ (countUp 0 (chunk - 8)).all (knownDone p d) ∨ flushDue s p chunks then ok s
      else
        match beginChunk d p chunk (drawsOf (drawTable s d p) chunk) s with
        | (some i, s1) => ok (faultContext (abortPass (killPass s1 d p.sub) d p 0x0404 i) d p.ctx)
        | (none, s1) => ok (placeGeo d (setPass s1 d { p with begun := 1, verts := [] }))
    else if geoBusy s d p.sub none then ok (placeGeo d s)
    else ok (finishChunk s d p chunk chunks)

/-- Items that one BIN transaction carries: up to eight records (Table 14.5). -/
def leadRecords (l : List BinItem) : List BinItem :=
  (l.take 8).takeWhile (fun i => match i with | .record _ => true | .mark _ => false)

/-! ### Partial flush (R253) -/

/-- BIN_FLUSH (R253): some die's pool is low, every die has finished the chunks it had started, and the package flushes up to F, the lowest chunk not finished. -/
def execBinFlush (leader : DieId) (pass : W32) (s : State) : Host.Outcome State Fault Refusal :=
  match passOf s leader pass.toNat with
  | none => ok s
  | some p =>
    let l := litOf p
    let chunks := chunksIn (drawTable s leader p)
    let f := lowestOpen s p chunks
    let ready := l.all (fun n => match mateOf s n p with | some q => q.phase == 1 && q.flushTo.isNone && !(q.begun == 1) | none => false)
    if p.leader ≠ leader ∨ ¬ flushDue s p chunks ∨ ¬ ready then ok s
    else
      let s1 := l.foldl (fun t n =>
        match mateOf t n p with
        | some q => setPass t n (mergePass { q with phase := 2, flushTo := some f, segments := q.segments + 1, cursor := 0, reported := [] } chunks)
        | none => t) s
      ok (settlePass p.ctx (geoLog s1 leader p 0x0406 (f + 2 ^ 32 * (p.segments + 1))))

/-! ### Tiles (R240, R256) -/

/-- Whether a tile has records in its bin list. -/
def tileHas (p : GeoPass) (t : Nat) : Bool := (mget [] p.bins (t / 16)).any (fun r => r.tiles.testBit (t % 16))

/-- Whether any attachment asks for tiles without records to be written out (R256). -/
def emptyTiles (b : List Byte) : Bool := (psUsed b).any (fun a => atLoad (psAttach b a) == 1 || atStore (psAttach b a) == 2)

/-- The tiles a die has still to render in this segment, in order (R253, R256). -/
def tilesLeft (p : GeoPass) (d : DieId) : List Nat :=
  ((ownedSupers p d).flatMap (fun k => countUp (16 * k) 16)).filter (fun t =>
    decide (p.cursor ≤ t) && (tileHas p t || (decide (p.phase = 3) && (t ∈ p.rendered || emptyTiles p.block))))

/-- Whether a die may render tiles of a pass now: its lists are complete for the segment, and every tile of the previous pass is
written out (R240). -/
def mayRender (s : State) (d : DieId) (p : GeoPass) : Bool :=
  decide (d ∈ litOf p) && (p.phase == 3 || (p.phase == 2 && p.flushTo == some p.mergeNext))
    && ((getGeo s d).passes.takeWhile (fun q => !(q.sub == p.sub))).all
         (fun q => q.aborted || q.done || q.phase == 4 || !(decide (d ∈ litOf q)))

/-- The primitives of bin records with their setup blocks, read from the binning dies' pools (R251). -/
def tilePrims (s : State) (d : DieId) (p : GeoPass) (recs : List BinRec) : Option (List TilePrim) :=
  let got := recs.map (fun r =>
    let n : DieId := ⟨r.src % 4, Nat.mod_lt _ (by decide)⟩
    if reach s d n then (mateOf s n p).bind (fun q => (mfind q.setups r.data).map (fun su => TilePrim.mk su (rastVs p.block su.verts)))
    else none)
  if got.all (fun g => g.isSome) then some (got.filterMap id) else none

/-- The entries of metadata bytes that are no state of a block (R267). -/
def logBadMeta (s : State) (d : DieId) (p : GeoPass) (l : List (Nat × Nat)) : State :=
  l.foldl (fun t e => logEntry t d { code := 0x0407, kind := 0x02, index := 0, tenant := some p.tenant, ctx := some p.ctx, addr := e.1,
                                     cause := e.2, queue := p.queue, sub := p.sub, detail := detA e.1 e.2 0 p.queue 0 }) s

/-- A plane of a tile by number. -/
def planeOf (t : Tile) (a : Nat) : Array Nat := if a < 8 then t.colours.getD a #[] else if a = 8 then t.depth else if a = 9 then t.stencil else t.vis

/-- A tile's planes put into the tile memory of its core (R255). -/
def putTile (s : State) (d : DieId) (p : GeoPass) (j : TileJob) (t : Tile) : State :=
  let k := getCores s d
  setCores s d { k with tile := (tilePlanes p.block).foldl (fun m q =>
    putCells m (cellsAt (tileKey p.ctx j.core (1024 * j.off + q.2.1)) ((planeOf t q.1).toList.flatMap (natLe q.2.2)))) k.tile }

/-- A tile's planes as they stand in the tile memory of its core. -/
def readTile (s : State) (d : DieId) (p : GeoPass) (j : TileJob) : Tile :=
  let plane (a : Nat) : Array Nat :=
    match (tilePlanes p.block).find? (fun q => q.1 == a) with
    | some (_, base, n) => ((countUp 0 (1024 * psSamples p.block)).map (fun e =>
        leNat ((countUp 0 n).map (fun i => mget 0 (getCores s d).tile (tileKey p.ctx j.core (1024 * j.off + base + e * n + i)))))).toArray
    | none => #[]
  { colours := (countUp 0 (psColours p.block)).map plane, depth := plane 8, stencil := plane 9, vis := plane 10 }

/-- A tile in progress replaced. -/
def setJob (s : State) (d : DieId) (p : GeoPass) (j : TileJob) : State :=
  setPass s d { p with jobs := p.jobs.map (fun k => if k.tile = j.tile then j else k) }

/-- Tiles in progress on core `m`. -/
def jobsOn (p : GeoPass) (m : Nat) : Nat := (p.jobs.filter (fun j => j.core == m)).length

/-- The core that the next tile goes to: lit, with the fewest tiles in progress, the lowest enabled number on a tie (R256). -/
def tileCore (s : State) (d : DieId) (p : GeoPass) : Option Nat :=
  ((countUp 0 32).filter (coreLit s d)).foldl (fun b m =>
    match b with
    | none => some m
    | some k => if jobsOn p m < jobsOn p k then some m else b) none

/-- Where the next tile is rendered: its core and run, where that core is not full (R255). -/
def tileSpot (s : State) (d : DieId) (p : GeoPass) : Option (Nat × Nat) :=
  let share := 4 * (ctxOf s d p.ctx).tileShare
  let kib := tileFootprint p.block / 1024
  (tileCore s d p).bind (fun m =>
    if jobsOn p m < min 4 (share / kib) then (lowestFit (tileRuns s d p.ctx m) kib share).map (fun o => (m, o)) else none)

/-- The blocks of CLEAR-loaded attachments that an earlier segment wrote out as changed (R267). -/
def changedBefore (s : State) (p : GeoPass) (t : Nat) : List (Nat × Nat) :=
  ((psUsed p.block).filter (fun a => atLoad (psAttach p.block a) == 1 && leAt (psAttach p.block a) 8 8 != 0)).flatMap (fun a =>
    (countUp 0 (psSamples p.block)).flatMap (fun smp => (tileBlocks p.block t).filterMap (fun k =>
      let va := leAt (psAttach p.block a) 8 8 + smp * metaStep p.block + k.2.2
      if attachBytes s p.pages va 1 = [0] then none else some (a, 16 * smp + 4 * k.2.1 + k.1))))

/-- The reads of a tile's planes as memory meets them (R289). -/
def noteTile (p : GeoPass) (t : Nat) (again : Bool) (s : State) : State :=
  ((psUsed p.block).filter (fun a => again || atLoad (psAttach p.block a) == 0)).foldl (fun u a =>
    let r := psAttach p.block a
    let n := 64 * texelBytes (atFmt r)
    (countUp 0 (psSamples p.block)).foldl (fun u smp => (tileBlocks p.block t).foldl (fun u k =>
      match pageLook p.pages (leAt r 0 8 + smp * planeStep p.block (atFmt r) + k.2.2 * n) with
      | some pa => noteRead u pa n
      | none => u) u) u) s

/-- The next tile handed to a core and loaded into its run (R255, R256). -/
def handTile (s : State) (d : DieId) (p : GeoPass) (t : Nat) : State :=
  match tileSpot s d p with
  | none => s
  | some (m, o) =>
    let again := decide (t ∈ p.rendered)
    let s1 := noteTile p t again s
    let (tile, bad) := loadTile s1 p.pages p.block t again
    let j : TileJob := { tile := t, core := m, off := o, kib := tileFootprint p.block / 1024, again := again,
                         left := (mget [] p.bins (t / 16)).filter (fun r => r.tiles.testBit (t % 16)),
                         changed := if again then changedBefore s1 p t else [] }
    putTile (setPass (logBadMeta (useFree s1) d p bad) d { p with cursor := t + 1, jobs := p.jobs ++ [j] }) d p j tile

/-- A tile written out (R253, R256, R263). -/
def finishTile (s : State) (d : DieId) (p : GeoPass) (j : TileJob) : State :=
  let s1 := writeCells s (storeTile p.pages p.block j.tile (p.phase == 2) j.changed (readTile s d p j))
  setPass s1 d { p with jobs := p.jobs.filter (fun k => !(k.tile == j.tile)),
                        rendered := if p.phase = 2 ∧ ¬ j.again then p.rendered ++ [j.tile] else p.rendered }

/-- The scalars of a fragment group (Table 9.9). -/
def fragScalars (b : List Byte) (draw t : Nat) : List (Nat × W32) :=
  let (x, y) := tileOrigin t
  [(4, BitVec.ofNat 32 draw), (5, Config.gridWord), (6, BitVec.ofNat 32 (x + 65536 * y))]
    ++ (countUp 0 8).map (fun a => (8 + a, match (tilePlanes b).find? (fun q => q.1 == a) with
      | some (_, base, _) => BitVec.ofNat 32 base
      | none => Config.planeWord a))

/-- The fragment groups of some primitives launched, draw by draw (R259, R260); the draw that is bad, where one is. `es` gives each primitive's
entries to shade. -/
def launchFrags (d : DieId) (p : GeoPass) (j : TileJob) (prims : List (TilePrim × List Nat)) : List Nat → State → Option Nat × State
  | [], s => (none, s)
  | i :: r, s =>
    match drawRec s d p i with
    | none => (some i, s)
    | some b =>
      let lanes := (prims.filter (fun q => q.1.su.draw == i)).flatMap (fun q => primLanes p.block j.tile (leAt b 0x2D 1) q.1 q.2)
      if lanes.isEmpty then launchFrags d p j prims r s
      else
        match launchLanes d p i b 0x10 (some j.tile) j.kib (fragScalars p.block i j.tile) lanes s with
        | (false, s1) => (some i, s1)
        | (true, s1) => launchFrags d p j prims r s1

/-- A tile taken further, none of its groups being left: a deferred run goes through its visibility pass and is shaded, or one primitive of an
ordered run is drawn, so that blending keeps PRIM order (R258 to R260); a tile with nothing left is written out. -/
def stepTile (s : State) (d : DieId) (p : GeoPass) (j : TileJob) : State :=
  let run := j.left.takeWhile (fun r => !r.ordered)
  let seg := if run.isEmpty then j.left.take 1 else run
  if seg.isEmpty then finishTile s d p j
  else
    match tilePrims s d p seg with
    | none => s
    | some prims =>
      let tile := readTile s d p j
      let r : Tested := match run.isEmpty, prims with
        | true, q :: _ => testPrim p.block j.tile q tile
        | _, _ => visPass p.block j.tile prims tile
      let shaded (q : TilePrim × Nat) : List Nat :=
        if run.isEmpty then r.passed else (countUp 0 (1024 * psSamples p.block)).filter (fun e => r.tile.vis.getD e 0 == q.2 + 1)
      let j1 := { j with left := j.left.drop seg.length, changed := j.changed ++ r.changed }
      let s1 := putTile (setJob s d p j1) d p j1 r.tile
      match launchFrags d p j1 (prims.zipIdx.map (fun q => (q.1, shaded q))) ((seg.map (fun x => x.draw)).eraseDups) s1 with
      | (none, s2) => s2
      | (some i, s2) => faultContext (abortPass (killPass s2 d p.sub) d p 0x0404 i) d p.ctx

/-- TILE_RENDER (R256 to R263): a die goes on with a tile in the context's share of its cores. The next tile in order is handed to a core; one
in progress has its groups placed, and when they have all ended it is taken further. -/
def execTileRender (d : DieId) (pass : W32) (tile : Nat) (s : State) : Host.Outcome State Fault Refusal :=
  match passOf s d pass.toNat with
  | none => ok s
  | some p =>
    if ¬ mayRender s d p ∨ ¬ dieRuns s d ∨ ¬ slotOpen s d p.ctx then ok s
    else
      match p.jobs.find? (fun j => j.tile == tile) with
      | some j => ok (placeGeo d (if geoBusy s d p.sub (some tile) then s else stepTile s d p j))
      | none => if (tilesLeft p d).head? = some tile then ok (placeGeo d (handTile s d p tile)) else ok s

/-! ### The end of a pass (R242, R253) -/

/-- A flush has ended on every die: setup blocks below F and the bin lists are freed, and binning resumes. -/
def endFlush (s : State) (p : GeoPass) (f chunks : Nat) : State :=
  (litOf p).foldl (fun t n =>
    match mateOf t n p with
    | some q => setPass t n (mergePass { q with setups := q.setups.filter (fun e => decide (f ≤ e.2.chunk)), bins := [], flushTo := none,
                                                flushed := f, phase := 1, cursor := 0, reported := [] } chunks)
    | none => t) s

/-- The leader sends the end to every die of DIES (R242). -/
def endPass (s : State) (p : GeoPass) : State :=
  (diesOf p.dies).foldl (fun t n =>
    match mateOf t n p with
    | some q => setPass t n { q with done := true, lit := p.lit }
    | none => setGeo t n { getGeo t n with ended := (getGeo t n).ended ++ [(p.ctx, p.pass, false)] }) s

/-- PASS_REPORT (R242, R253): a die has written out its tiles of the pass, or of a flush's segment, and reports to the leader. -/
def execPassReport (d : DieId) (pass : W32) (s : State) : Host.Outcome State Fault Refusal :=
  match passOf s d pass.toNat with
  | none => ok s
  | some p =>
    match mateOf s p.leader p with
    | none => ok s
    | some k =>
      if ¬ mayRender s d p ∨ ¬ (tilesLeft p d).isEmpty ∨ ¬ p.jobs.isEmpty ∨ d ∈ k.reported ∨ ¬ reach s d p.leader then ok s
      else
        let s1 := if p.phase = 3 then setPass s d { p with phase := 4 } else s
        let k1 := { ((mateOf s1 p.leader p).getD k) with reported := k.reported ++ [d] }
        let s2 := setPass s1 p.leader k1
        ok (settlePass p.ctx
          (if ¬ (litOf p).all (fun n => decide (n ∈ k1.reported)) then s2
           else match p.flushTo with
             | some f => endFlush s2 k1 f (chunksIn (drawTable s p.leader p))
             | none => endPass s2 k1))

/-- PASS_END (R242): the leader's end reaches a die, which signals its own descriptor's fence. -/
def execPassEnd (d : DieId) (pass : W32) (s : State) : Host.Outcome State Fault Refusal :=
  match (getGeo s d).passes.find? (fun p => p.pass == pass.toNat && p.done) with
  | some p => ok (opFinish (dropPass s d p) d p.queue p.count p.fence p.fencePa p.value p.pins)
  | none => ok s

/-! ### Registers (Tables 9.17 to 9.19) -/

/-- The pass that GEO_STATUS shows: the first that has begun on the die. -/
def currentPass (s : State) (d : DieId) : Option GeoPass := (getGeo s d).passes.find? (fun p => p.lit.isSome)

/-- GEO_STATUS. -/
def geoStatusReg (s : State) (d : DieId) : W64 :=
  match currentPass s d with
  | none => (getGeo s d).status
  | some p =>
    let st := if p.done ∨ p.aborted ∨ p.phase = 4 then 5 else p.phase + 1
    packFields [(p.pass, 0), (st, 32), (maskOfDies (litOf p), 36), (p.leader.val, 40), (min 65535 p.segments, 48)]

/-- GEO_COUNT. -/
def geoCountReg (s : State) (d : DieId) : W64 :=
  match currentPass s d with
  | none => (getGeo s d).counts
  | some p => packFields [(p.prims, 0), (min (2 ^ 32 - 1) p.records, 32)]

/-- A write of GEO_ERR. -/
def wrGeoErr (s : State) (d : DieId) (v : W64) : State :=
  setGeo s d { getGeo s d with err := errClear (getGeo s d).err s.now v 16 [(5, 31, 16)] }

end Sys2Proof.Machine
end

