-- ==== Sys2Proof/Machine/Codec.lean ====
section
/-! DEFINITION. The retort block code (12, R318 to R330): prefix tables, classes, the three modes, encoding and decoding of a block. -/

namespace Sys2Proof.Machine

/-! ### Bits, classes and prefix tables (R320 to R322) -/

/-- `n` bits of a number, least significant first. -/
def lsbBits (n x : Nat) : List Bool := (countUp 0 n).map x.testBit

/-- `n` bits of a number, most significant first. -/
def msbBits (n x : Nat) : List Bool := (lsbBits n x).reverse

/-- The number of bits given least significant first. -/
def ofLsb (l : List Bool) : Nat := l.foldr (fun b a => 2 * a + b2n b) 0

/-- The bits of bytes, least significant first. -/
def bitsOfBytes (l : List Byte) : List Bool := l.flatMap (fun b => lsbBits 8 b.toNat)

/-- Bits put into bytes and zero-padded to a multiple of 8 bytes (R318). -/
def bytesOfBits (l : List Bool) : List Byte := natLe (8 * ceilDiv l.length 64) (ofLsb l)

/-- The class of a value (R321). -/
def classOf (z : Nat) : Nat := if z = 0 then 0 else log2 z + 1

/-- The extra bits of a value: c - 1 of them (R321). -/
def extraBits (z : Nat) : List Bool := let c := classOf z; lsbBits (c - 1) (z - 2 ^ (c - 1))

/-- A signed residual as a value of 0 or more (R321). -/
def zig (r : Int) : Nat := if 0 ≤ r then (2 * r).toNat else (-2 * r - 1).toNat

/-- The signed residual of a value. -/
def unzig (z : Nat) : Int := if z % 2 = 0 then (z / 2 : Nat) else -((z / 2 : Nat) + 1 : Int)

/-- The symbols of length `n` in ascending order. -/
def symsOf (lens : List Nat) (n : Nat) : List Nat := (lens.zipIdx.filter (fun p => p.1 == n)).map (fun p => p.2)

/-- The canonical codes of lengths `n` upward (R322): symbol, length, code. -/
def canonFrom (lens : List Nat) : Nat → Nat → Nat → List (Nat × Nat × Nat)
  | 0, _, _ => []
  | k + 1, n, code =>
    let syms := symsOf lens n
    (syms.zipIdx.map (fun p => (p.1, n, code + p.2))) ++ canonFrom lens k (n + 1) (2 * (code + syms.length))

/-- The canonical code of a table (R322). -/
def canon (lens : List Nat) : List (Nat × Nat × Nat) := canonFrom lens 15 1 0

/-- Whether a table is valid (R322). -/
def tableValid (lens : List Nat) : Bool :=
  let here := lens.filter (fun n => decide (0 < n))
  here.all (fun n => decide (n ≤ 15)) && ((here.map (fun n => 2 ^ (15 - n))).sum == 2 ^ 15 || here == [1])

/-- The bits of a symbol under a code. -/
def symBits (code : List (Nat × Nat × Nat)) (sym : Nat) : List Bool :=
  match code.find? (fun e => e.1 == sym) with
  | some e => msbBits e.2.1 e.2.2
  | none => []

/-- Read one symbol: the code whose bits begin the stream (R320). -/
def readSym (code : List (Nat × Nat × Nat)) : Nat → Nat → Nat → List Bool → Option (Nat × List Bool)
  | 0, _, _, _ => none
  | _ + 1, _, _, [] => none
  | k + 1, n, acc, b :: r =>
    let v := 2 * acc + b2n b
    match code.find? (fun e => e.2.1 == n + 1 && e.2.2 == v) with
    | some e => some (e.1, r)
    | none => readSym code k (n + 1) v r

/-- Read extra bits, least significant first. -/
def readExtra (n : Nat) (l : List Bool) : Option (Nat × List Bool) :=
  if l.length < n then none else some (ofLsb (l.take n), l.drop n)

/-- The value of a class and its extra bits, read from the stream. -/
def readClass (c : Nat) (l : List Bool) : Option (Nat × List Bool) :=
  if c = 0 then some (0, l)
  else match readExtra (c - 1) l with
    | some (x, r) => some (2 ^ (c - 1) + x, r)
    | none => none

/-- Static code lengths of the residual classes (Table 12.3). -/
def residualStatic : List Nat := [2, 2, 3, 3, 4, 4, 5, 6, 7] ++ rep 12 8 ++ rep 12 9
/-- Static code lengths of literals and length classes (Table 12.3). -/
def literalStatic : List Nat := rep 256 9 ++ rep 16 5
/-- Static code lengths of distance classes (Table 12.3). -/
def distanceStatic : List Nat := rep 15 4 ++ rep 2 5

/-- A dynamic table as stored: 4-bit lengths, low nibble first (R322). -/
def tableBytes (lens : List Nat) : List Byte :=
  (countUp 0 (ceilDiv lens.length 2)).map (fun i => BitVec.ofNat 8 (lget 0 lens (2 * i) + 16 * lget 0 lens (2 * i + 1)))

/-- A dynamic table read back. -/
def readTable (b : List Byte) (n : Nat) : List Nat :=
  (countUp 0 n).map (fun i => (lget 0 b (i / 2)).toNat / 16 ^ (i % 2) % 16)

/-! ### What a block is coded as: symbols with their extra bits -/

/-- A coded item: whether it uses the distance table, its symbol, its extra bits. -/
structure Item where
  dist : Bool
  sym : Nat
  extra : List Bool

/-- The item of a value under the residual table. -/
def resItem (z : Nat) : Item := ⟨false, classOf z, extraBits z⟩

/-! ### Image mode (R319, R323, R324) -/

/-- Channel widths of a texel format, from bit 0. -/
def chanWidths (fmt : Nat) : List Nat := (fmtChans fmt).map chanBits

/-- Raw texel number of texel (x, y) of a block (R319). -/
def rawTexel (x y : Nat) : Nat := 64 * (8 * (y / 8) + x / 8) + 8 * (y % 8) + x % 8

/-- Split a texel into channels. -/
def retSplit : List Nat → Nat → List Nat
  | [], _ => []
  | w :: r, v => v % 2 ^ w :: retSplit r (v / 2 ^ w)

/-- Channels put back into a texel. -/
def retJoin : List Nat → List Nat → Nat
  | w :: r, v :: q => v + 2 ^ w * retJoin r q
  | _, _ => 0

/-- The prediction of a channel of `w` bits at (x, y) from left, upper and upper-left (R323). -/
def retPredict (w x y a b c : Nat) : Nat :=
  if x = 0 ∧ y = 0 then 2 ^ (w - 1)
  else if y = 0 then a
  else if x = 0 then b
  else if max a b ≤ c then min a b
  else if c ≤ min a b then max a b
  else a + b - c

/-- The reconstruction of a quantised residual (R324). -/
def recon (w k pred : Nat) (q : Int) : Nat :=
  (max 0 (min ((2 ^ w : Nat) - 1 : Int) ((pred : Int) + q * (2 * k + 1)))).toNat

/-- One channel coded: the value to code and its reconstruction (R323, R324). -/
def retChan (w k value pred : Nat) : Nat × Nat :=
  if k = 0 then (zig (sx w (value + 2 ^ w - pred)), value)
  else
    let e : Int := (value : Int) - pred
    let m : Int := ((e.natAbs + k) / (2 * k + 1) : Nat)
    let q := if e < 0 then -m else m
    (zig q, recon w k pred q)

/-- A channel of a texel already coded, from the rows kept: `prev` is the row above, `row` this row so far in reverse. -/
def chanAt (t : List Nat) (i : Nat) : Nat := lget 0 t i

/-- One texel coded from its neighbours: items and the reconstructed channels. -/
def codeTexel (ws : List Nat) (k x y : Nat) (t a b c : List Nat) : List Item × List Nat :=
  let one := (ws.zipIdx).map (fun p => retChan p.1 k (chanAt t p.2) (retPredict p.1 x y (chanAt a p.2) (chanAt b p.2) (chanAt c p.2)))
  (one.map (fun p => resItem p.1), one.map (fun p => p.2))

/-- The texels of a row coded left to right; `ups` is the row above. -/
def codeRow (ws : List Nat) (k y : Nat) : Nat → List (List Nat) → List Nat → List (List Nat) → List Nat → List Item × List (List Nat)
  | _, [], _, _, _ => ([], [])
  | x, t :: r, a, ups, c =>
    let b := ups.headD []
    let (is, o) := codeTexel ws k x y t a b c
    let (js, q) := codeRow ws k y (x + 1) r o ups.tail b
    (is ++ js, o :: q)

/-- The rows of a block coded top to bottom. -/
def codeRows (ws : List Nat) (k : Nat) : Nat → List (List (List Nat)) → List (List Nat) → List Item × List (List (List Nat))
  | _, [], _ => ([], [])
  | y, t :: r, ups =>
    let (is, o) := codeRow ws k y 0 t [] ups []
    let (js, q) := codeRows ws k (y + 1) r o
    (is ++ js, o :: q)

/-- The channels of the texels of an image block, row by row. -/
def imageRows (fmt : Nat) (raw : List Byte) : List (List (List Nat)) :=
  let n := texelBytes fmt
  let cells := ((chunksOf n 4096 raw).map leNat).toArray
  (countUp 0 64).map (fun y => (countUp 0 64).map (fun x => retSplit (chanWidths fmt) (cells.getD (rawTexel x y) 0)))

/-- The raw bytes of an image block from its rows. -/
def rowsBytes (fmt : Nat) (rows : List (List (List Nat))) : List Byte :=
  let n := texelBytes fmt
  let arr := (rows.map (fun r => (r.map (retJoin (chanWidths fmt))).toArray)).toArray
  (countUp 0 4096).flatMap (fun i =>
    let t := i / 64
    let x := 8 * (t % 8) + i % 8
    let y := 8 * (t / 8) + i % 64 / 8
    natLe n ((arr.getD y #[]).getD x 0))

/-- An image block as items, with the bytes that it decodes to. -/
def imageItems (fmt k : Nat) (raw : List Byte) : List Item × List Byte :=
  let (is, rows) := codeRows (chanWidths fmt) k 0 (imageRows fmt raw) []
  (is, if k = 0 then raw else rowsBytes fmt rows)

/-! ### Tensor mode (R325) -/

/-- The items of 16-bit words after the word `p`. -/
def tensorItems (xor : Bool) : Nat → List Nat → List Item
  | _, [] => []
  | p, w :: r => resItem (if xor then w ^^^ p else zig (sx 16 (w + 65536 - p))) :: tensorItems xor w r

/-! ### Byte mode (R326, R327) -/

/-- How many bytes from `p` and from `i` agree, at most `n`. -/
def matchLen (b : Array Byte) (p i : Nat) : Nat → Nat
  | 0 => 0
  | n + 1 => if b.getD p 0 = b.getD i 0 then matchLen b (p + 1) (i + 1) n + 1 else 0

/-- Candidates examined at a level (Table 12.4). -/
def levelN (l : Nat) : Nat := if l = 0 then 0 else 2 ^ (l - 1)

/-- The candidates before `i`, nearest first, at most `n` of those among the `k` positions below `p`. -/
def candidates (b : Array Byte) (i : Nat) : Nat → Nat → List Nat
  | 0, _ => []
  | p + 1, n => if n = 0 then [] else if matchLen b p i 4 = 4 then p :: candidates b i p (n - 1) else candidates b i p n

/-- The longest of candidates' matches, the nearest among equals: position and length. -/
def bestMatch (b : Array Byte) (i limit : Nat) (l : List Nat) : Option (Nat × Nat) :=
  l.foldl (fun (m : Option (Nat × Nat)) p =>
    let n := matchLen b p i limit
    match m with
    | some (_, k) => if k < n then some (p, n) else m
    | none => some (p, n)) none

/-- The items of a byte block from position `i`. -/
def byteItems (b : Array Byte) (n : Nat) : Nat → Nat → List Item
  | 0, _ => []
  | f + 1, i =>
    if b.size ≤ i then []
    else
      let left := b.size - i
      let m := if left < 4 then none else bestMatch b i (min 32771 left) (candidates b i i n)
      match m with
      | some (p, k) =>
        ⟨false, 256 + classOf (k - 4), extraBits (k - 4)⟩ :: ⟨true, classOf (i - p - 1), extraBits (i - p - 1)⟩ :: byteItems b n f (i + k)
      | none => ⟨false, (b.getD i 0).toNat, []⟩ :: byteItems b n f (i + 1)

/-! ### Encoding a block (R318, R328) -/

/-- The bits of items under two tables. -/
def itemBits (main dist : List Nat) (l : List Item) : List Bool :=
  let cm := canon main
  let cd := canon dist
  l.flatMap (fun i => symBits (if i.dist then cd else cm) i.sym ++ i.extra)

/-- Symbol counts of items in one table. -/
def itemCounts (l : List Item) (dist : Bool) : Map Nat :=
  l.foldl (fun m i => if i.dist = dist then mput 0 m i.sym (mget 0 m i.sym + 1) else m) []

/-- The encoder's dynamic lengths from counts, one added to each (R328); the model takes them where they are valid and give every
symbol a code (log 4). -/
def dynamicTable (counts : Map Nat) (n : Nat) (static : List Nat) : List Nat :=
  let l := Config.dynLengths ((countUp 0 n).map (fun i => mget 0 counts i + 1))
  if l.length = n ∧ l.all (fun x => decide (1 ≤ x)) ∧ tableValid l then l else static

/-- A coded block: its bytes, and the counts for the next table. -/
structure Coded where
  bytes : List Byte
  counts : Map Nat
  dcounts : Map Nat

/-- A block's header (Table 12.2). -/
def blockHeader (mode coding near param raw coded : Nat) (decoded : List Byte) : List Byte :=
  natLe 1 (mode + 4 * coding + 16 * near) ++ natLe 1 param ++ natLe 2 0 ++ natLe 4 raw ++ natLe 4 coded ++ natLe 4 (crc32c decoded).toNat

/-- A block coded under a job's mode and parameters. `prev` is the previous block's counts, none for the first block or under
STATIC_ONLY. -/
def encodeBlock (mode param near : Nat) (prev : Option (Map Nat × Map Nat)) (raw : List Byte) : Coded :=
  let (items, decoded) : List Item × List Byte :=
    if mode = 0 then imageItems param near raw
    else if mode = 1 then (tensorItems (param.testBit 0) 0x8000 ((chunksOf 2 raw.length raw).map leNat), raw)
    else (byteItems raw.toArray (levelN (param % 16)) raw.length 0, raw)
  let ms := if mode = 2 then literalStatic else residualStatic
  let static := bytesOfBits (itemBits ms distanceStatic items)
  let dynamic := prev.map (fun c =>
    let m := dynamicTable c.1 ms.length ms
    let t := dynamicTable c.2 17 distanceStatic
    let table := tableBytes m ++ (if mode = 2 then tableBytes t else [])
    bytesOfBits (bitsOfBytes table ++ itemBits m t items))
  let (coding, payload) := match dynamic with
    | some p => if p.length < static.length then (2, p) else (1, static)
    | none => (1, static)
  let stored := 8 * ceilDiv raw.length 8
  { bytes :=
      if stored ≤ payload.length then blockHeader mode 0 0 param raw.length stored raw ++ padTo stored 0 raw
      else blockHeader mode coding near param raw.length payload.length decoded ++ payload,
    counts := itemCounts items false, dcounts := itemCounts items true }

/-! ### Decoding a block (R330) -/

/-- Whether a format is UNORM (R315). -/
def isUnorm (fmt : Nat) : Bool := fmt ∈ [1, 2, 3, 4, 5, 0x0C]

/-- Whether PARAM is legal for a mode (Table 12.1). -/
def paramLegal (mode param : Nat) : Bool :=
  if mode = 0 then isTarget param else if mode = 1 then decide (param < 4) else decide (param < 32) && decide (param % 16 ≤ 9)

/-- Whether a header is legal but for CODED_LEN's reach (Table 12.2, cause BAD_HEADER); a STORED block's NEAR is zero (R328). -/
def headerLegal (b : List Byte) : Bool :=
  let kind := leAt b 0 1
  let mode := kind % 4
  let raw := leAt b 4 4
  decide (mode ≠ 3) && decide (kind / 4 % 4 ≠ 3)
    && (kind / 16 == 0 || (mode == 0 && decide (kind / 4 % 4 ≠ 0) && isUnorm (leAt b 1 1)))
    && paramLegal mode (leAt b 1 1) && zeroAt b 2 2 && decide (1 ≤ raw) && decide (raw ≤ 65536)
    && (decide (mode ≠ 0) || raw == 4096 * texelBytes (leAt b 1 1)) && leAt b 8 4 % 8 == 0

/-- One residual read: its value z. -/
def readValue (code : List (Nat × Nat × Nat)) (l : List Bool) : Option (Nat × List Bool) :=
  match readSym code 15 0 0 l with
  | some (c, r) => readClass c r
  | none => none

/-- One channel decoded (R323, R324); a residual out of range for its channel is no code (cause BAD_CODE). -/
def decodeChanBits (code : List (Nat × Nat × Nat)) (w k pred : Nat) (l : List Bool) : Option (Nat × List Bool) :=
  match readValue code l with
  | some (z, r) =>
    if 2 ^ w ≤ z then none
    else if k = 0 then some (wrapI w ((pred : Int) + unzig z), r) else some (recon w k pred (unzig z), r)
  | none => none

/-- The channels of one texel decoded. -/
def retChans (code : List (Nat × Nat × Nat)) (k x y : Nat) (a b c : List Nat) : List (Nat × Nat) → List Bool → Option (List Nat × List Bool)
  | [], l => some ([], l)
  | (w, i) :: ws, l =>
    match decodeChanBits code w k (retPredict w x y (chanAt a i) (chanAt b i) (chanAt c i)) l with
    | some (v, r) =>
      match retChans code k x y a b c ws r with
      | some (vs, q) => some (v :: vs, q)
      | none => none
    | none => none

/-- One row decoded; `ups` is the row above. -/
def decodeRow (code : List (Nat × Nat × Nat)) (ws : List Nat) (k y : Nat) : Nat → Nat → List Nat → List (List Nat) → List Nat → List Bool →
    Option (List (List Nat) × List Bool)
  | 0, _, _, _, _, l => some ([], l)
  | n + 1, x, a, ups, c, l =>
    let b := ups.headD []
    match retChans code k x y a b c ws.zipIdx l with
    | some (t, r) =>
      match decodeRow code ws k y n (x + 1) t ups.tail b r with
      | some (q, r2) => some (t :: q, r2)
      | none => none
    | none => none

/-- Rows decoded top to bottom. -/
def decodeRows (code : List (Nat × Nat × Nat)) (ws : List Nat) (k : Nat) : Nat → Nat → List (List Nat) → List Bool → Option (List (List (List Nat)))
  | 0, _, _, _ => some []
  | n + 1, y, ups, l =>
    match decodeRow code ws k y 64 0 [] ups [] l with
    | some (row, r) => (decodeRows code ws k n (y + 1) row r).map (fun q => row :: q)
    | none => none

/-- Tensor words decoded: `n` bytes are left, and `p` is the word before. -/
def decodeTensor (code : List (Nat × Nat × Nat)) (xor : Bool) : Nat → Nat → List Bool → Option (List Byte)
  | 0, _, _ => some []
  | 1, _, _ => none
  | n + 2, p, l =>
    match readValue code l with
    | some (z, r) =>
      if 65536 ≤ z then none
      else
        let w := if xor then z ^^^ p else wrapI 16 ((p : Int) + unzig z)
        (decodeTensor code xor n w r).map (fun q => natLe 2 w ++ q)
    | none => none

/-- A match copied one byte at a time (R326). -/
def copyMatch : Nat → Nat → Array Byte → Array Byte
  | 0, _, o => o
  | n + 1, dist, o => copyMatch n dist (o.push (o.getD (o.size - dist) 0))

/-- Byte symbols decoded until `raw` bytes stand (R326). -/
def decodeBytes (main dist : List (Nat × Nat × Nat)) (raw : Nat) : Nat → Array Byte → List Bool → Option (Array Byte)
  | 0, o, _ => if o.size = raw then some o else none
  | f + 1, o, l =>
    if o.size = raw then some o
    else
      match readSym main 15 0 0 l with
      | none => none
      | some (c, r) =>
        if c < 256 then decodeBytes main dist raw f (o.push (BitVec.ofNat 8 c)) r
        else
          match readClass (c - 256) r with
          | none => none
          | some (z, r2) =>
            match readValue dist r2 with
            | none => none
            | some (dz, r3) =>
              if o.size < dz + 1 ∨ raw < o.size + z + 4 then none
              else decodeBytes main dist raw f (copyMatch (z + 4) (dz + 1) o) r3

/-- A block whose header is legal, decoded from its payload: its bytes, or cause 2, 3 or 4 of Table 12.5. -/
def decodeBlock (h payload : List Byte) : Except Nat (List Byte) :=
  let kind := leAt h 0 1
  let mode := kind % 4
  let param := leAt h 1 1
  let raw := leAt h 4 4
  let near := kind / 16
  let ms := if mode = 2 then literalStatic else residualStatic
  let mb := ceilDiv ms.length 2
  let tb := if mode = 2 then mb + 9 else mb
  let main := if kind / 4 % 4 = 2 then readTable payload ms.length else ms
  let dist := if kind / 4 % 4 = 2 then readTable (payload.drop mb) 17 else distanceStatic
  let dynamic := decide (kind / 4 % 4 = 2)
  if kind / 4 % 4 = 0 then
    if payload.length < raw then .error 3 else check (payload.take raw)
  else if dynamic ∧ payload.length < tb then .error 3
  else if dynamic ∧ ¬ (tableValid main ∧ (mode ≠ 2 ∨ tableValid dist)) then .error 2
  else
    let bits := bitsOfBytes (if dynamic then payload.drop tb else payload)
    let cm := canon main
    let out : Option (List Byte) :=
      if mode = 0 then (decodeRows cm (chanWidths param) near 64 0 [] bits).map (rowsBytes param)
      else if mode = 1 then decodeTensor cm (param.testBit 0) raw 0x8000 bits
      else (decodeBytes cm (canon dist) raw raw #[] bits).map (fun a => a.toList)
    match out with
    | some l => check l
    | none => .error 3
where
  /-- CHECK of the decoded bytes (Table 12.2). -/
  check (l : List Byte) : Except Nat (List Byte) := if leAt h 0xC 4 = (crc32c l).toNat then .ok l else .error 4

end Sys2Proof.Machine
end

