-- ==== Sys2Proof/Machine/Ret.lean ====
section
/-! DEFINITION. The retort engines (12): jobs, ports and request lines, blocks, ends and stops. -/

namespace Sys2Proof.Machine

/-! ### Acceptance (R314, R315) -/

/-- A job read from its descriptor. -/
def retJobOf (c tenant : Nat) (x : Submission) (sub : Nat) : RetJob :=
  let b := x.desc
  { ctx := c, tenant := tenant, queue := x.queue, count := x.count, sub := sub, fence := false, fencePa := 0, value := le64 (b.drop 8),
    op := leAt b 0x10 1, mode := leAt b 0x11 1, param := leAt b 0x12 1, near := leAt b 0x13 1, staticOnly := leAt b 0x14 1 == 1,
    inBytes := leAt b 0x18 8, outBytes := leAt b 0x20 8, resAt := if leAt b 0x28 8 = 0 then none else some (leAt b 0x28 8), pins := [] }

/-- Whether a descriptor keeps every rule of Table 12.1 and R315. -/
def retLegal (j : RetJob) (b : List Byte) : Bool :=
  decide (j.op ≤ 1) && (if j.op = 0 then j.mode == 0 && j.param == 0 else decide (j.mode ≤ 2) && paramLegal j.mode j.param)
    && decide (j.near < 16) && decide (leAt b 0x14 1 ≤ 1) && zeroAt b 0x15 3 && zeroAt b 0x30 16
    && decide (1 ≤ j.inBytes) && decide (j.inBytes ≤ 2 ^ 40) && decide (1 ≤ j.outBytes) && decide (j.outBytes ≤ 2 ^ 40)
    && decide (leAt b 0x28 8 % 32 = 0)
    && (j.near == 0 || (j.op == 1 && j.mode == 0 && isUnorm j.param))
    && !(j.op == 1 && j.mode == 0 && decide (j.inBytes % (4096 * texelBytes j.param) ≠ 0))
    && !(j.op == 1 && j.mode == 1 && j.inBytes % 2 == 1)

/-- RET_ERR changed. -/
def retErr (s : State) (d : DieId) (flag : Nat) : State :=
  let u := getRet s d
  let e := errRaise u.err s.now flag
  setRet s d { u with err := if flag = 0 then errCount e s.now 31 16 1 else e }

/-- A retort engine takes the descriptor at the head of its submission queue (R100, R314, R315). -/
def acceptRet (s : State) (d : DieId) (e : Nat) (x : Submission) : State :=
  let c := subCtx s d x
  let j := retJobOf c (subTenant s d x) x (nextCount s d e)
  if ¬ retLegal j x.desc then rejectMalformed (retErr s d 1) d e x 0x0703 0
  else
    match translateRange s d c (j.resAt.getD 0) (if j.resAt.isSome then 32 else 0) { write := true } with
    | (.error (va, f), s1) => rejectXlate s1 d e x va f
    | (.ok (rm, ro), s1) =>
      match fenceSide s1 d c x.desc with
      | (.error (va, f), s2) => rejectXlate s2 d e x va f
      | (.ok (hasF, fpa, fo), s2) =>
        let pins := joinObjs ro fo
        if ¬ pinRoom s2 d pins then rejectXlate s2 d e x (j.resAt.getD 0) 0x0D
        else
          let y : RetJob := { j with fence := hasF, fencePa := fpa, resAt := j.resAt.bind (pageLook rm), pins := pins }
          let s3 := acceptSub s2 d e x pins
          let r := retOf s3 d (e - 9)
          setRetE s3 d (e - 9) { r with waiting := r.waiting ++ [y] }

/-- RET_JOB_START (R314): the previous job has ended and GRT is lit; the buffers, the request counts and the tables start clear. The descriptor
leaves the engine's submission queue (R99). -/
def execRetJobStart (d : DieId) (e : Fin 2) (s : State) : Host.Outcome State Fault Refusal :=
  let r := retOf s d e.val
  match r.job, r.waiting, domLit s d 9 && dieRuns s d with
  | none, j :: rest, true =>
    let s1 := setRetE s d e.val { retEngineReset with waiting := rest, job := some j, progressAt := dtime s d, op := j.op,
                                                      mode := j.mode, last := j.sub }
    ok (settleSubs (setLine (setLine s1 d (0x10 + 2 * e.val) 0) d (0x11 + 2 * e.val) 0) d (9 + e.val))
  | _, _, _ => ok s

/-! ### Requests (R316) -/

/-- The channel paced by a line of an engine, where its context belongs to the job's tenant: its burst. -/
def servedBurst (s : State) (d : DieId) (line tenant : Nat) : Option Nat :=
  match pacedBy s d line with
  | some (_, j) => if j.tenant = tenant then some (2 ^ j.log2) else none
  | none => none

/-- Bytes of the input buffer (R316). -/
def retInCap : Nat := 160 * 1024

/-- The bytes that the next input request covers, if one may be raised (R316). -/
def inRequest (x : RetEngine) (j : RetJob) (burst : Nat) : Option Nat :=
  if x.reqIn < j.inBytes ∧ x.inBuf.length + (x.reqIn - x.inTaken) + burst ≤ retInCap then some (min burst (j.inBytes - x.reqIn))
  else none

/-- Output bytes that requests may cover: what has been released, and the zero fill after ENCODE's last block. -/
def outEnd (x : RetEngine) (j : RetJob) : Nat := if x.padding ∧ j.op = 1 then j.outBytes else x.outReleased

/-- The bytes that the next output request covers: a burst, or the final shorter remainder (R316). -/
def outRequest (x : RetEngine) (j : RetJob) (burst : Nat) : Option Nat :=
  let left := outEnd x j - x.reqOut
  if burst ≤ left then some burst else if 0 < left ∧ outEnd x j = j.outBytes then some left else none

/-- RET_REQUEST_RAISE (R316): one request on the input or the output line. -/
def execRetRequestRaise (d : DieId) (e : Fin 2) (output : Bool) (s : State) : Host.Outcome State Fault Refusal :=
  let x := retOf s d e.val
  let line := 0x10 + 2 * e.val + b2n output
  match x.job with
  | none => ok s
  | some j =>
    match servedBurst s d line j.tenant with
    | none => ok s
    | some b =>
      if output then
        match outRequest x j b, x.stop with
        | some n, none => ok (raiseLine (setRetE s d e.val { x with reqOut := x.reqOut + n }) d line)
        | _, _ => ok s
      else
        match inRequest x j b, x.stop.isNone || x.draining with
        | some n, true => ok (raiseLine (setRetE s d e.val { x with reqIn := x.reqIn + n }) d line)
        | _, _ => ok s

/-! ### Blocks (R318, R328 to R330) -/

/-- Input bytes consumed by released blocks and whatever followed them. -/
def consumed (x : RetEngine) : Nat := x.inTaken - x.inBuf.length

/-- Raw bytes of a full block of an ENCODE (R318). -/
def blockSize (j : RetJob) : Nat :=
  if j.mode = 0 then 4096 * texelBytes j.param
  else if (j.mode = 1 ∧ j.param.testBit 1) ∨ (j.mode = 2 ∧ j.param.testBit 4) then 65536 else 4096

/-- A block's bytes released to the output port. -/
def release (s : State) (d : DieId) (x : RetEngine) (used : Nat) (out : List Byte) : RetEngine :=
  { x with inBuf := x.inBuf.drop used, inUsed := x.inUsed + used, outBuf := x.outBuf ++ out, outReleased := x.outReleased + out.length,
           blocks := x.blocks + 1, progressAt := dtime s d }

/-- RET_BLOCK_ENCODE (R328, R329): the next block of the input is coded and released, unless the output would pass OUT_BYTES (FULL);
after the last block the zero fill begins. -/
def execRetBlockEncode (d : DieId) (e : Fin 2) (s : State) : Host.Outcome State Fault Refusal :=
  let x := retOf s d e.val
  match x.job, x.stop with
  | some j, none =>
    let n := min (blockSize j) (j.inBytes - consumed x)
    if j.op ≠ 1 ∨ n = 0 ∨ x.inBuf.length < n then ok s
    else
      let c := encodeBlock j.mode j.param j.near (if x.tabled ∧ ¬ j.staticOnly then some (x.counts, x.dcounts) else none) (x.inBuf.take n)
      if j.outBytes < x.outReleased + c.bytes.length then ok (setRetE s d e.val { x with stop := some 6 })
      else
        let y := { release s d x n c.bytes with tabled := true, counts := c.counts, dcounts := c.dcounts }
        ok (setRetE s d e.val { y with padding := consumed y == j.inBytes })
  | _, _ => ok s

/-- What the decoder finds at the front of its input (R330, R331). -/
inductive DecodeStep where
  | wait
  | pad
  | stop (cause : Nat)
  | block (used : Nat) (mode : Nat) (out : List Byte)

/-- The decoder's next step. -/
def decodeNext (x : RetEngine) (j : RetJob) : DecodeStep :=
  let left := j.inBytes - consumed x
  if left = 0 then (if x.outReleased = j.outBytes then .wait else .stop 5)
  else if left < 16 then .stop 5
  else if x.inBuf.length < 16 then .wait
  else if zeroAt x.inBuf 0 16 then (if x.outReleased = j.outBytes then .pad else .stop 5)
  else if x.outReleased = j.outBytes then .stop 5
  else
    let n := leAt x.inBuf 8 4
    if ¬ headerLegal x.inBuf ∨ left < 16 + n then .stop 1
    else if x.inBuf.length < 16 + n then .wait
    else
      match decodeBlock (x.inBuf.take 16) ((x.inBuf.drop 16).take n) with
      | .error c => .stop c
      | .ok out => if j.outBytes < x.outReleased + out.length then .stop 5 else .block (16 + n) (leAt x.inBuf 0 1 % 4) out

/-- RET_BLOCK_DECODE (R330): a whole block is decoded, checked and released, a pad marker ends the blocks, or a cause of Table 12.5
stops the job. -/
def execRetBlockDecode (d : DieId) (e : Fin 2) (s : State) : Host.Outcome State Fault Refusal :=
  let x := retOf s d e.val
  match x.job, x.stop with
  | some j, none =>
    if j.op ≠ 0 ∨ x.padding then ok s
    else
      match decodeNext x j with
      | .wait => ok s
      | .pad => ok (setRetE s d e.val { x with padding := true, inBuf := [] })
      | .stop c => ok (setRetE s d e.val { x with stop := some c })
      | .block n m out => ok (setRetE s d e.val { release s d x n out with mode := m })
  | _, _ => ok s

/-! ### Ends and stops (R317, R331, R332) -/

/-- A result block (Table 12.6). -/
def retResult (x : RetEngine) (j : RetJob) (outcome cause : Nat) : List Byte :=
  natLe 1 outcome ++ natLe 1 cause ++ natLe 2 0 ++ natLe 4 j.sub ++ natLe 4 x.blocks ++ natLe 4 0 ++ natLe 8 x.inUsed
    ++ natLe 8 x.outReleased

/-- Whether a job's result block can be written. -/
def retResultOk (s : State) (d : DieId) (j : RetJob) : Bool :=
  match j.resAt with
  | some a => reach s d (dieOf a)
  | none => true

/-- Whether the write of a job's result block waits (R291, R359). -/
def retResultWaits (s : State) (d : DieId) (j : RetJob) : Bool :=
  match j.resAt with
  | some a => cordWaits s d (dieOf a) || rowWaits s a 32
  | none => false

/-- The result block written where the job names one that is in reach. -/
def putRetResult (s : State) (d : DieId) (j : RetJob) (b : List Byte) : State :=
  match j.resAt with
  | some a => if reach s d (dieOf a) then memWrite s a b else s
  | none => s

/-- Whether a job has ended well: every input byte taken, every output byte taken (R317, R330). -/
def retDone (x : RetEngine) (j : RetJob) : Bool :=
  x.inTaken == j.inBytes && x.inBuf.isEmpty && outEnd x j == j.outBytes && x.outTaken == j.outBytes

/-- RET_JOB_DONE (R317, R332): the result block, then the fence. A job whose block is out of reach ends unfinished (R101); over a cord that trains,
or into a row that is being retired, the write waits (R291, R359). -/
def execRetJobDone (d : DieId) (e : Fin 2) (s : State) : Host.Outcome State Fault Refusal :=
  let x := retOf s d e.val
  match x.job, x.stop with
  | some j, none =>
    if ¬ retDone x j ∨ retResultWaits s d j then ok s
    else
      let s1 := setRetE (putRetResult s d j (retResult x j 0 0)) d e.val { x with job := none }
      if retResultOk s d j then ok (opFinish s1 d j.queue j.count j.fence j.fencePa j.value j.pins)
      else ok (opStop s1 d j.queue j.count j.pins)
  | _, _ => ok s

/-- The cause, if any, for which the engine's job is to stop: one found, or its tenant's reset. -/
def retCause (s : State) (x : RetEngine) : Option Nat :=
  match x.job, x.draining with
  | some j, false => match x.stop with
    | some c => some c
    | none => if resettingTenant s j.tenant then some 9 else none
  | _, _ => none

/-- Causes after which the engine goes on taking and discarding input (R331). -/
def keepsTaking (c : Nat) : Bool := (decide (1 ≤ c) && decide (c ≤ 6)) || c == 0x0A

/-- A job stops (R331): the result block, the entry, RET_ERR, the indication to the channel on its output line with the first unreleased output
offset. Released blocks stay released: the output port still gives them while the engine discards input. -/
def stopRet (s : State) (d : DieId) (e : Nat) (x : RetEngine) (j : RetJob) (c : Nat) : State :=
  let out := match pacedBy s d (0x11 + 2 * e) with
    | some (_, k) => if k.tenant = j.tenant then [(0x11 + 2 * e, k.sub, x.outReleased)] else []
    | none => []
  let s1 := putRetResult s d j (retResult x j 1 c)
  let stay := keepsTaking c && decide (x.inTaken < j.inBytes)
  let s2 := setRetE s1 d e { x with job := if stay then some j else none, draining := stay, stop := if stay then some c else none,
                                    inBuf := [], progressAt := dtime s d }
  let s3 := setDma s2 d { getDma s2 d with aborted := (getDma s2 d).aborted ++ out }
  let s4 := logEntry (retErr s3 d 0) d
    { code := 0x0704, kind := 0x02, index := 9 + e, tenant := some j.tenant, ctx := some j.ctx,
      detail := detO (9 + e) c j.queue j.sub x.blocks, cause := c, queue := j.queue, sub := j.sub }
  opStop s4 d j.queue j.count j.pins

/-- RET_JOB_STOP (R331). A stopped engine that still discards input is free where its tenant is reset (log 15). -/
def execRetJobStop (d : DieId) (e : Fin 2) (s : State) : Host.Outcome State Fault Refusal :=
  let x := retOf s d e.val
  match x.job, retCause s x with
  | some j, some c => ok (stopRet s d e.val x j c)
  | some j, none => event (x.draining && resettingTenant s j.tenant) s (setRetE s d e.val (retFree x))
  | _, _ => ok s

/-- RET_STALL (Table 12.5): neither input taken nor output released for 100 ms. -/
def execRetStall (d : DieId) (e : Fin 2) (s : State) : Host.Outcome State Fault Refusal :=
  let x := retOf s d e.val
  event (x.job.isSome && decide (x.progressAt + 100000000 ≤ dtime s d) && !x.draining && x.stop.isNone) s
    (setRetE s d e.val { x with stop := some 0x0A })

/-! ### Registers (Tables 12.8, 12.9) -/

/-- RET_ENGe. -/
def retEngReg (s : State) (d : DieId) (e : Nat) : W64 :=
  let x := retOf s d e
  let ready : Bool := match x.job with
    | none => false
    | some j =>
      if j.op = 1 then decide (0 < j.inBytes - consumed x) && decide (min (blockSize j) (j.inBytes - consumed x) ≤ x.inBuf.length)
      else match decodeNext x j with | .wait => false | _ => !x.padding
  let st := if x.job.isNone then 0 else if x.stop.isSome then 3 else if ready then 1 else 2
  packFields [(st, 0), (x.op, 2), (x.mode, 3), (x.last, 16), (min 65535 x.blocks, 48)]

/-- A write of RET_ERR. -/
def wrRetErr (s : State) (d : DieId) (v : W64) : State :=
  setRet s d { getRet s d with err := errClear (getRet s d).err s.now v 16 [(0, 31, 16)] }

/-- A tenant's waiting jobs discarded (R331); how many. -/
def discardRet (s : State) (d : DieId) (t : Nat) : Nat × State :=
  let mine (j : RetJob) : Bool := j.tenant == t
  let one (x : RetEngine) : RetEngine := { x with waiting := x.waiting.filter (fun j => !mine j) }
  let u := getRet s d
  let gone := u.e0.waiting.filter mine ++ u.e1.waiting.filter mine
  (gone.length, settleSubs (settleSubs (gone.foldl (fun x j => dropPins x d j.pins) (setRet s d { u with e0 := one u.e0, e1 := one u.e1 })) d 9) d 10)

end Sys2Proof.Machine
end

