-- ==== Sys2Proof/Machine/Accept.lean ====
section
/-! DEFINITION. SUBMISSION_ACCEPT (04, R99, R100): an engine takes the submission at the head of its queue. -/

namespace Sys2Proof.Machine

/-- SUBMISSION_ACCEPT (R100): the engine's own checks, the translation, and the count to rd, or the rejection. Engines are numbered as
QCP_CMD.ENGINE. -/
def execSubmissionAccept (d : DieId) (engine : Fin 13) (s : State) : Host.Outcome State Fault Refusal :=
  let e := engine.val
  match headSub s d e with
  | none => ok s
  | some x =>
    event (dieRuns s d && !(engineOf s d e).fenced) s
      (settleSubs (if e = 0 then acceptGeo s d x
       else if ctxFaulted s d x then rejectFaulted s d e x
       else if e < 5 then acceptDispatch s d e x
       else if e < 9 then acceptDma s d e x
       else if e < 11 then acceptRet s d e x
       else if e = 11 then acceptEas s d x
       else acceptGen s d x) d e)

end Sys2Proof.Machine
end

