-- ==== Sys2Proof/Machine/Flags.lean ====
section
/-! DEFINITION. The arithmetic flags of a group (R173, R234, Table 7.2): how instructions raise, read and clear them. -/

namespace Sys2Proof.Machine

/-- Flags of several results combined by OR (R173). -/
def joinFlags (rs : List FRes) : Nat := rs.foldl (fun a r => a ||| r.fl) 0

/-- Raise flags on a group: they are sticky (R173). -/
def raiseFlags (g : Group) (fl : Nat) : Group := { g with flags := g.flags ||| fl }

/-- The flags a group shows in bits [7:0] of `rdflags` (R234, Table 8.20). -/
def flagsWord (g : Group) : W32 := BitVec.ofNat 32 (g.flags % 256)

/-- Clear the flags set in bits [7:0] of a word (Table 8.20). -/
def clearGroupFlags (g : Group) (v : W32) : Group :=
  { g with flags := g.flags - (g.flags &&& (v.toNat % 256)) }

end Sys2Proof.Machine
end

