-- ==== Sys2Proof/Machine/Operands.lean ====
section
/-! DEFINITION. Shader instruction words and their operands (08, R201 to R208, R211, R213): fields, legality, operand values, lane
enabling, register writes, and the one runner that every shader instruction goes through. -/

namespace Sys2Proof.Machine

/-! ### Words (R201, R203, R204) -/

/-- The fields of an instruction word (Table 8.1) with its extension word. -/
structure Wd where
  op : Nat
  fmt : Nat
  dst : Nat
  s0 : Nat
  s1 : Nat
  s2 : Nat
  pred : Nat
  strict : Bool
  pneg : Bool
  ext : Bool
  mod : Nat
  e : W64
  deriving DecidableEq, Repr

/-- The fields of a word. -/
def wdOf (w e : W64) : Wd :=
  { op := fld w 63 54, fmt := fld w 53 51, dst := fld w 50 43, s0 := fld w 42 35, s1 := fld w 34 27, s2 := fld w 26 19,
    pred := fld w 18 16, strict := bit w 15, pneg := bit w 14, ext := bit w 13, mod := fld w 12 0,
    e := if bit w 13 then e else 0 }

/-- The bytes an instruction occupies (R201). -/
def wdLen (w : Wd) : Nat := if w.ext then 16 else 8

/-- Source field `k`. -/
def srcField (w : Wd) (k : Nat) : Nat := if k = 0 then w.s0 else if k = 1 then w.s1 else w.s2

/-- Whether source `k` is a scalar-class operand (Table 8.1). -/
def srcScalar (w : Wd) (k : Nat) : Bool := w.fmt.testBit k

/-- The signed value of extension bits [31:0], zero without an extension word (R219, R223). -/
def immOf (w : Wd) : Int := if w.ext then sx 32 (fld w.e 31 0) else 0

/-- Opcodes that the class tables list (R211). -/
def opListed (op : Nat) : Bool :=
  let alu (o : Nat) : Bool := (o ≤ 8 && decide (0 ≤ o)) || (decide (0x10 ≤ o) && decide (o ≤ 0x15))
  let int (o : Nat) : Bool := decide (0x40 ≤ o) && decide (o ≤ 0x62)
  alu op || int op || (decide (0x80 ≤ op) && alu (op - 0x80)) || (decide (0xC0 ≤ op) && int (op - 0x80) && op != 0xD7 && op != 0xD8)
    || (decide (0xF0 ≤ op) && decide (op ≤ 0xF9)) || (decide (0x100 ≤ op) && decide (op ≤ 0x102))
    || (decide (0x140 ≤ op) && decide (op ≤ 0x147)) || (decide (0x180 ≤ op) && decide (op ≤ 0x183))
    || (decide (0x1C0 ≤ op) && decide (op ≤ 0x1CC)) || (decide (0x200 ≤ op) && decide (op ≤ 0x203)) || op == 0x240
    || (decide (0x280 ≤ op) && decide (op ≤ 0x28A)) || (decide (0x2C0 ≤ op) && decide (op ≤ 0x2C4))
    || (decide (0x300 ≤ op) && decide (op ≤ 0x306))

/-! ### Legality (R202, R203, R205, R144) -/

/-- How an instruction uses a source field: not at all, as a run of either class, of vector registers, of a scalar-class operand,
as a predicate, or as a bare number. -/
inductive SrcUse where
  | no
  | reg (n : Nat)
  | vec (n : Nat)
  | sca (n : Nat)
  | pred
  | raw (limit : Nat)
  deriving DecidableEq, Repr

/-- How an instruction uses its destination field. -/
inductive DstUse where
  | no
  | v (n : Nat)
  | s (n : Nat)
  | p
  | raw (limit : Nat)
  deriving DecidableEq, Repr

/-- The operands of an instruction, the MOD bits [12:0] it defines, and whether its PRED must be zero. -/
structure Use where
  a : SrcUse := .no
  b : SrcUse := .no
  c : SrcUse := .no
  d : DstUse := .no
  mods : Nat := 0
  predZero : Bool := false
  deriving DecidableEq, Repr

/-- A run's length rounded up to a power of two (R202). -/
def pow2Up (n : Nat) : Nat := if n ≤ 1 then 1 else if n ≤ 2 then 2 else if n ≤ 4 then 4 else if n ≤ 8 then 8 else 16

/-- A scalar-class operand value that Table 8.2 gives a meaning, a run of `n` starting at it. -/
def scaLegal (n v : Nat) (ext : Bool) : Bool :=
  if v < 0x80 then v % pow2Up n == 0 && decide (v + n ≤ 128)
  else if v = 0x86 ∨ v = 0x87 then ext
  else decide (v ≤ 0x85) || (decide (0xC0 ≤ v) && decide (v ≤ 0xE9))

/-- Whether a source field is legal for its use. -/
def srcLegal (u : SrcUse) (scalar : Bool) (v : Nat) (ext : Bool) : Bool :=
  match u with
  | .no => !scalar && v == 0
  | .reg n => if scalar then scaLegal n v ext else v % pow2Up n == 0
  | .vec n => !scalar && v % pow2Up n == 0
  | .sca n => scalar && scaLegal n v ext
  | .pred => !scalar && decide (v < 8)
  | .raw m => !scalar && decide (v < m)

/-- Whether a destination field is legal for its use. -/
def dstLegal (u : DstUse) (v : Nat) : Bool :=
  match u with
  | .no => v == 0
  | .v n => v % pow2Up n == 0
  | .s n => v % pow2Up n == 0 && decide (v + n ≤ 128)
  | .p => decide (v < 8)
  | .raw m => decide (v < m)

/-- Whether a word is legal for its operands and modifiers (R205). -/
def wordLegal (w : Wd) (u : Use) : Bool :=
  srcLegal u.a (srcScalar w 0) w.s0 w.ext && srcLegal u.b (srcScalar w 1) w.s1 w.ext && srcLegal u.c (srcScalar w 2) w.s2 w.ext
    && dstLegal u.d w.dst && (w.mod &&& u.mods) == w.mod && (!u.predZero || w.pred == 0)

/-- One past the highest vector register that a source names. -/
def srcTop (u : SrcUse) (scalar : Bool) (v : Nat) : Nat :=
  match u with
  | .reg n => if scalar then 0 else v + n
  | .vec n => v + n
  | _ => 0

/-- One past the highest vector register that a word names (R144). -/
def wordTop (w : Wd) (u : Use) : Nat :=
  max (max (srcTop u.a (srcScalar w 0) w.s0) (srcTop u.b (srcScalar w 1) w.s1))
    (max (srcTop u.c (srcScalar w 2) w.s2) (match u.d with | .v n => w.dst + n | _ => 0))

/-! ### What issues -/

/-- A group that issues: its dispatch and block, the pc and the lanes of its current path. -/
structure Issue where
  d : DieId
  gid : Nat
  g : Group
  x : Dispatch
  b : Block
  pc : Nat
  mask : Nat
  deriving DecidableEq, Repr

/-- Whether an opcode goes to the quarter's scalar pipeline (Tables 8.6 and 8.21). -/
def onScalar (op : Nat) : Bool := (decide (0x80 ≤ op) && decide (op < 0x100)) || op == 0x182 || op == 0x183 || decide (0x2C0 ≤ op)

/-- Whether a group of the active set is able to issue: 8 cycles (8 ns) after it entered (R146), with its current path due (R152). -/
def dueGroup (s : State) (g : Group) : Bool :=
  g.active && ableGroup g && decide (g.since + 8 ≤ s.now) && (decide (g.issues < 64) || !otherPath g)

/-- The opcode that a group of a context issues next, where its word can be read. -/
def nextOp (s : State) (d : DieId) (c : Nat) (g : Group) : Option Nat :=
  match curPath g with
  | some (pc, _, _) =>
    match (translate s d c pc {}).1 with
    | .ok (pa, _) => if pc % 8 = 0 then some (fld (memWord s pa) 63 54) else none
    | .error _ => none
  | none => none

/-- When a group last issued to the scalar or to the vector pipelines of its quarter. -/
def lastIssue (scalar : Bool) (g : Group) : Nat := if scalar then g.lastS else g.lastV

/-- Whether another group of the quarter comes first at the pipeline that group `gid` issues to next (R148): one able to issue, of a higher
class, or of the same class with a less recent issue there. A group with interlocked results in flight may or may not be able to issue in
this cycle: free (log 39). -/
def outranked (s : State) (d : DieId) (m gid : Nat) (g : Group) : Bool :=
  let op (h : Group) : Option Nat := (groupCtx s d h).bind (fun c => nextOp s d c h)
  match (op g).map onScalar with
  | none => false
  | some sc =>
    (getCores s d).groups.any (fun e =>
      let p := groupPrio s d g
      let q := groupPrio s d e.2
      e.1 != gid && e.2.quarter == g.quarter && groupCore s d e.2 == m && dueGroup s e.2
        && (decide (p < q) || (p == q && decide (lastIssue sc e.2 < lastIssue sc g))) && (op e.2).map onScalar == some sc
        && (decide (e.2.busy ≤ s.now) || Config.freeBool s.freeCtr (2 ^ 31 + e.1)))

/-- A group that can issue now: able to issue, and first at its pipeline (R146 to R148, R152). -/
def issueOf (s : State) (r : GRef) : Option Issue :=
  match groupOf s r.die r.gid with
  | none => none
  | some g =>
    match curPath g, blockOf s r.die g.block, (blockOf s r.die g.block).bind (blockDisp s r.die) with
    | some p, some b, some x =>
      if dieRuns s r.die && dueGroup s g && !outranked s r.die b.core r.gid g then
        some { d := r.die, gid := r.gid, g := g, x := x, b := b, pc := p.1, mask := p.2.1 }
      else none
    | _, _, _ => none

/-- A predicate bit of a lane (R206): p0 reads as 1. -/
def predBit (g : Group) (p lane : Nat) : Bool := p == 0 || (lget 0 g.preds p).testBit lane

/-- Lanes of the current path with their exec bit set (R208, R231). -/
def pathExec (i : Issue) : List Nat := (countUp 0 i.x.width).filter (fun l => i.mask.testBit l && i.g.exec.testBit l)

/-- The lanes in which a vector instruction acts (R207). -/
def actingLanes (i : Issue) (w : Wd) : List Nat := (pathExec i).filter (fun l => predBit i.g w.pred l != w.pneg)

/-! ### Registers and results in flight (R158, R222) -/

/-- The cell of a vector register's lane in the context's share: the footprint's first 1,024 bytes hold the group's other state. -/
def vreg (i : Issue) (r lane : Nat) : Nat := regKey i.x.ctx i.b.core i.g.quarter i.g.regOff i.x.width r lane

/-- Word `k` of a load's result from the bytes of its access (R220). -/
def loadWord (size : Nat) (signed : Bool) (bytes : List Byte) (k : Nat) : W32 :=
  if size < 4 then
    let v := leNat (bytes.take size)
    BitVec.ofNat 32 (if signed then wrapI 32 (sx (8 * size) v) else v)
  else BitVec.ofNat 32 (leAt bytes (4 * k) 4)

/-- The bytes a lane's access gives as its operation completes: those a fill has brought, or memory as it stands with the group's own older
stores laid over it (R160, R163). -/
def accessBytes (s : State) (d : DieId) (gid : Nat) (o : CountedOp) (a : LaneAccess) : List Byte :=
  match a.got with
  | some b => b
  | none => groupRead s d gid o.serial a.pa a.bytes

/-- What a load that completes writes into register `r` of a lane. -/
def loadResult (s : State) (d : DieId) (gid : Nat) (o : CountedOp) (r lane : Nat) : W32 :=
  match o.kind, o.access.find? (fun a => a.lane == lane) with
  | .load size signed _ _, some a => loadWord size signed (accessBytes s d gid o a) (r - o.dst)
  | _, _ => 0

/-- The result of a counted operation for register `r` of a lane, where it has been performed; none while it still waits on memory, when no
read can return it (R158). -/
def opNew (o : CountedOp) (r lane : Nat) : Option W32 :=
  match o.kind with
  | .load size signed _ _ =>
    ((o.access.find? (fun a => a.lane == lane)).bind (fun a => a.got)).map (fun b => loadWord size signed b (r - o.dst))
  | .atomic _ _ _ _ => none
  | _ => (o.result.find? (fun x => x.1 == r && x.2.1 == lane)).map (fun x => x.2.2)

/-- Whether an operation's destinations are scalar registers. -/
def opScalar (o : CountedOp) : Bool := match o.kind with | .load _ _ sc _ => sc | _ => false

/-- Operations in flight whose destination holds register `r` of a lane. -/
def pendingOn (g : Group) (scalar : Bool) (r lane : Nat) : List CountedOp :=
  (g.vq ++ g.tq ++ g.mq).filter (fun o => opScalar o == scalar && o.dests.any (fun x => x.1 == r && x.2 == lane))

/-- A read of a register that operations in flight are to write gives its old value or one of theirs, and the device does not say
which (R158): the choice is free (log 4). -/
def racedRead (s : State) (i : Issue) (scalar : Bool) (r lane : Nat) (old : W32) : W32 :=
  (pendingOn i.g scalar r lane).foldl (fun v o =>
    if Config.freeBool s.freeCtr (((r * 64 + lane) * 256 + o.serial) * 2 + b2n scalar) then (opNew o r lane).getD v else v) old

/-- A vector register's lane as an instruction reads it. -/
def readV (s : State) (i : Issue) (r lane : Nat) : W32 := racedRead s i false r lane (mget 0 (getCores s i.d).vrf (vreg i r lane))

/-- A scalar register as an instruction reads it. -/
def readS (s : State) (i : Issue) (r : Nat) : W32 := racedRead s i true r 0 (mget 0 i.g.sregs r)

/-- Word `k` of a scalar-class operand (Table 8.2). Words past the first of an operand that is no register and not the extension
word are not stated: free values (log 4). -/
def scalarOperand (s : State) (i : Issue) (w : Wd) (v k lane : Nat) : W32 :=
  if v < 0x80 then readS s i (v + k)
  else if v = 0x86 ∧ k = 1 then BitVec.ofNat 32 (fld w.e 63 32)
  else if k ≠ 0 then Config.freeW32 s.freeCtr (2 ^ 24 + v * 8 + k)
  else
    BitVec.ofNat 32 (match v with
      | 0x80 => lane
      | 0x81 => i.g.index
      | 0x82 => i.b.x
      | 0x83 => i.b.y
      | 0x84 => i.b.z
      | 0x85 => i.x.width
      | 0x86 => fld w.e 31 0
      | 0x87 => fld w.e 63 32
      | 0xE0 => 0xFFFFFFFF
      | 0xE1 => 0x3F000000
      | 0xE2 => 0x3F800000
      | 0xE3 => 0x40000000
      | 0xE4 => 0x40800000
      | 0xE5 => 0xBF000000
      | 0xE6 => 0xBF800000
      | 0xE7 => 0xC0000000
      | 0xE8 => 0xC0800000
      | 0xE9 => 0x3E22F983
      | n => n - 0xC0)

/-- Word `k` of source `n` in a lane. -/
def operand (s : State) (i : Issue) (w : Wd) (n k lane : Nat) : W32 :=
  if srcScalar w n then scalarOperand s i w (srcField w n) k lane else readV s i (srcField w n + k) lane

/-- The 64-bit value of source `n` as a pair (R202). -/
def operandPair (s : State) (i : Issue) (w : Wd) (n lane : Nat) : Nat :=
  (operand s i w n 0 lane).toNat + 2 ^ 32 * (operand s i w n 1 lane).toNat

/-- Operations in flight told that an instruction has written one of their destinations (R158). -/
def markOver (scalar : Bool) (ws : List (Nat × Nat)) (o : CountedOp) : CountedOp :=
  if opScalar o = scalar then { o with stale := o.stale ++ o.dests.filter (fun x => x ∈ ws && !(x ∈ o.stale)) } else o

/-- The marks put on every operation of a group. -/
def markGroup (scalar : Bool) (ws : List (Nat × Nat)) (g : Group) : Group :=
  { g with vq := g.vq.map (markOver scalar ws), tq := g.tq.map (markOver scalar ws), mq := g.mq.map (markOver scalar ws) }

/-- Vector registers written: register, lane, word. -/
def writeV (s : State) (i : Issue) (ws : List (Nat × Nat × W32)) : State :=
  let k := getCores s i.d
  let s1 := setCores s i.d { k with vrf := ws.foldl (fun m x => mput 0 m (vreg i x.1 x.2.1) x.2.2) k.vrf }
  match groupOf s1 i.d i.gid with
  | some g => setGroup s1 i.d i.gid (markGroup false (ws.map (fun x => (x.1, x.2.1))) g)
  | none => s1

/-- The group of an issue changed. -/
def updGroup (s : State) (i : Issue) (f : Group → Group) : State := modGroup s i.d i.gid f

/-- Scalar registers written. -/
def writeS (s : State) (i : Issue) (ws : List (Nat × W32)) : State :=
  updGroup s i (fun g => markGroup true (ws.map (fun x => (x.1, 0)))
    { g with sregs := ws.foldl (fun m x => mput 0 m x.1 x.2) g.sregs })

/-- A scalar pair written. -/
def writeS64 (s : State) (i : Issue) (r v : Nat) : State :=
  writeS s i [(r, BitVec.ofNat 32 v), (r + 1, BitVec.ofNat 32 (v / 2 ^ 32))]

/-- Bits of a predicate written in some lanes: p0 discards them (R206). -/
def writeP (s : State) (i : Issue) (p : Nat) (bits : List (Nat × Bool)) : State :=
  if p = 0 then s
  else
    updGroup s i (fun g =>
      let v := bits.foldl (fun a (x : Nat × Bool) =>
        if a.testBit x.1 = x.2 then a else if x.2 then a + 2 ^ x.1 else a - 2 ^ x.1) (lget 0 g.preds p)
      { g with preds := lset g.preds p v })

/-! ### The runner -/

/-- How an instruction leaves its issue: stalled as it was or with what it has begun, with a core fault, gone on to the next instruction, or the path moved by the
instruction itself. -/
inductive IsaRes where
  | stall
  | stalled (t : State)
  | fault (code cause addr : Nat) (t : State)
  | next (t : State)
  | moved (t : State)

/-- One word of code at a pc of a context: the word, or the fault of the fetch; a pc that is not 8-byte aligned is MISALIGNED
(R201, R205). -/
def codeWord (s : State) (d : DieId) (c pc : Nat) : Except (Nat × Nat) W64 × State :=
  match translate s d c pc {} with
  | (.error x, s1) => (.error (0x0310, x), s1)
  | (.ok (pa, _), s1) =>
    if pc % 8 ≠ 0 then (.error (0x0316, 0), s1)
    else if ¬ reach s1 d (dieOf pa) then (.error (0x0310, hopCause s1 d (dieOf pa)), noteLate s1 d (dieOf pa))
    else
      let s2 := noteRead s1 pa 8
      if poisonAt s2 pa then (.error (0x0317, 0xFF), s2) else (.ok (memWord s2 pa), s2)

/-- The group after an instruction that goes on: its issue is counted (R152) and its pc moves. -/
def stepPath (s : State) (i : Issue) (len : Nat) : State :=
  match groupOf s i.d i.gid with
  | none => s
  | some g =>
    let y := movePath { g with issues := g.issues + 1 } (i.pc + len)
    let s1 := setGroup s i.d i.gid y
    if y.paths.length = g.paths.length then s1 else afterGroup s1 i.d y

/-- Cycles until a word's interlocked result is available (Table 8.21), the bank cycles of a tile access at their most. -/
def latencyOf (w : Wd) : Nat :=
  if w.op < 0x40 then (if w.strict then 8 else 6)
  else if w.op < 0x80 then (if 0x42 ≤ w.op ∧ w.op ≤ 0x45 ∨ w.op = 0x57 ∨ w.op = 0x58 then 8 else 4)
  else if w.op < 0x100 then 4
  else if w.op < 0x140 then 12
  else if w.op < 0x180 then 36
  else if 0x1C0 ≤ w.op ∧ w.op < 0x200 then 266
  else if 0x2C0 ≤ w.op then 4
  else 0

/-- Nanoseconds of a number of shader cycles at 1.1 GHz, rounded up. -/
def cyclesNs (c : Nat) : Nat := ceilDiv (c * 10) 11

/-- An issue noted: when the group last issued to the pipeline (R148), and its interlocked result (R235). -/
def noteIssue (s : State) (i : Issue) (w : Wd) : State :=
  let k := getCores s i.d
  let n := k.issueNo + 1
  updGroup (setCores s i.d { k with issueNo := n }) i (fun g =>
    { g with lastV := if onScalar w.op then g.lastV else n, lastS := if onScalar w.op then n else g.lastS,
             busy := max g.busy (s.now + cyclesNs (latencyOf w)) })

/-- A group that stalls at issue: it looks again when a counter of it falls or a fill of its core arrives (R157, R160). -/
def stallGroup (s : State) (i : Issue) : State :=
  match groupOf s i.d i.gid with
  | some g => afterGroup (setGroup s i.d i.gid { g with waiting := true }) i.d { g with waiting := true }
  | none => s

/-- What a result makes of the state (R158: each issue is its own occasion for free values). -/
def isaEnd (s : State) (i : Issue) (w : Wd) : IsaRes → State
  | .stall => stallGroup s i
  | .stalled t => stallGroup t i
  | .fault code cause addr t => useFree (coreFault t i.d i.gid code cause addr none)
  | .next t => useFree (stepPath (noteIssue t i w) i (wdLen w))
  | .moved t => useFree (noteIssue t i w)

/-- The checks that come before an instruction's effect: its legality (ILLEGAL_OP) and its registers (REG_RANGE) (R144, R205). -/
def checked (i : Issue) (w : Wd) (u : Use) (more : Bool) (s : State) (k : State → IsaRes) : IsaRes :=
  if ¬ (wordLegal w u ∧ more = true) then .fault 0x0315 0 0 s
  else if i.x.vregs < wordTop w u then .fault 0x0313 0 0 s
  else k s

/-- A shader instruction (R201): the group issues the word at its pc where it is `w` (with `e` after it) and its opcode is one of
the row's; a reserved opcode is ILLEGAL_OP in any row, and a word of another row is absorbed (log 8). -/
def runIsa (row : Nat → Bool) (g : GRef) (w e : W64) (s : State) (k : Issue → Wd → State → IsaRes) : Host.Outcome State Fault Refusal :=
  match issueOf s g with
  | none => ok s
  | some i =>
    match codeWord s i.d i.x.ctx i.pc with
    | (.error (code, cause), s1) => ok (useFree (coreFault s1 i.d i.gid code cause i.pc none))
    | (.ok v, s1) =>
      let wd := wdOf w e
      if v ≠ w then ok s
      else if ¬ opListed wd.op then ok (useFree (coreFault s1 i.d i.gid 0x0315 0 0 none))
      else if ¬ row wd.op then ok s
      else if wd.ext then
        match codeWord s1 i.d i.x.ctx (i.pc + 8) with
        | (.error (code, cause), s2) => ok (useFree (coreFault s2 i.d i.gid code cause (i.pc + 8) none))
        | (.ok x, s2) => if x ≠ e then ok s else ok (isaEnd s i wd (k i wd s2))
      else ok (isaEnd s i wd (k i wd s1))

end Sys2Proof.Machine
end

