-- ==== Sys2Proof/Machine/Alu.lean ====
section
/-! DEFINITION. The vector and scalar ALU (08, R212 to R214, Tables 8.7 and 8.8) and the special functions (R218). -/

namespace Sys2Proof.Machine

/-! ### Results -/

/-- An FP32 ALU result (Table 8.7, opcodes 0x000 to 0x008). -/
def aluF (op : Nat) (strict : Bool) (a b c : W32) : FRes :=
  match op with
  | 0 => fAdd strict a b
  | 1 => fSub strict a b
  | 2 => fMul strict a b
  | 3 => fFma strict a b c
  | 4 => fMinMax strict false a b
  | 5 => fMinMax strict true a b
  | 6 => fIntegral strict 0 a
  | 7 => fIntegral strict 1 a
  | _ => fIntegral strict 2 a

/-- Leading zeros of a word, 32 for zero. -/
def clz32 (a : W32) : Nat := if a = 0 then 32 else 31 - Nat.log2 a.toNat

/-- An integer ALU result (R183, Table 8.7, opcodes 0x040 to 0x054 and 0x056). -/
def aluI (op : Nat) (a b c : W32) : W32 :=
  let n := b.toNat % 32
  match op with
  | 0x40 => a + b
  | 0x41 => a - b
  | 0x42 => a * b
  | 0x43 => a * b + c
  | 0x44 => BitVec.ofInt 32 (a.toInt * b.toInt / 2 ^ 32)
  | 0x45 => BitVec.ofNat 32 (a.toNat * b.toNat / 2 ^ 32)
  | 0x46 => if b.toInt < a.toInt then b else a
  | 0x47 => if a.toInt < b.toInt then b else a
  | 0x48 => if b.toNat < a.toNat then b else a
  | 0x49 => if a.toNat < b.toNat then b else a
  | 0x4A => a &&& b
  | 0x4B => a ||| b
  | 0x4C => a ^^^ b
  | 0x4D => ~~~a
  | 0x4E => a <<< n
  | 0x4F => a >>> n
  | 0x50 => a.sshiftRight n
  | 0x51 => a.rotateLeft n
  | 0x52 => BitVec.ofNat 32 (popcount 32 a.toNat)
  | 0x53 => BitVec.ofNat 32 (clz32 a)
  | 0x54 => BitVec.ofNat 32 ((a.toNat >>> n) % 2 ^ (c.toNat % 33))
  | _ => a

/-- An integer comparison (R183, Table 8.7, opcodes 0x059 to 0x062). -/
def setI (op : Nat) (a b : W32) : Bool :=
  match op with
  | 0x59 => a == b
  | 0x5A => !(a == b)
  | 0x5B => decide (a.toInt < b.toInt)
  | 0x5C => decide (a.toInt ≤ b.toInt)
  | 0x5D => decide (b.toInt < a.toInt)
  | 0x5E => decide (b.toInt ≤ a.toInt)
  | 0x5F => decide (a.toNat < b.toNat)
  | 0x60 => decide (a.toNat ≤ b.toNat)
  | 0x61 => decide (b.toNat < a.toNat)
  | _ => decide (b.toNat ≤ a.toNat)

/-- Sources that an ALU opcode of the vector numbering uses. -/
def aluSrcs (op : Nat) : Nat :=
  if op ∈ [6, 7, 8, 0x4D, 0x52, 0x53, 0x56] then 1 else if op ∈ [3, 0x43, 0x54] then 3 else 2

/-- ABS and NEG of source `k` (R213): the sign cleared, then inverted. -/
def signMods (w : Wd) (k : Nat) (v : W32) : W32 :=
  let a := if w.mod.testBit (3 + k) then v &&& 0x7FFFFFFF else v
  if w.mod.testBit k then a ^^^ 0x80000000 else a

/-- Source `k` of an instruction with floating-point sign modifiers. -/
def fOperand (s : State) (i : Issue) (w : Wd) (k lane : Nat) : W32 := signMods w k (operand s i w k 0 lane)

/-- The lane for which a scalar instruction stands, where an operand differs between lanes: the spec does not say which (log 4). -/
def scalarLane (i : Issue) : Nat := Config.scalarLane i.x.width % i.x.width

/-! ### Vector forms -/

/-- Operands of an ALU instruction with `n` sources of one register each. -/
def aluUse (n : Nat) (d : DstUse) (fp : Bool) : Use :=
  { a := .reg 1, b := if 1 < n then .reg 1 else .no, c := if 2 < n then .reg 1 else .no, d := d, mods := if fp then 63 else 0 }

/-- A vector instruction that writes one register in each acting lane and raises flags (R173, R207). -/
def vecWrite (i : Issue) (w : Wd) (u : Use) (f : Nat → FRes) (s : State) : IsaRes :=
  checked i w u true s (fun s =>
    let rs := (actingLanes i w).map (fun l => (l, f l))
    .next (updGroup (writeV s i (rs.map (fun r => (w.dst, r.1, r.2.v)))) i (fun g => raiseFlags g (joinFlags (rs.map (fun r => r.2))))))

/-- A vector instruction that writes a predicate bit in each acting lane. -/
def vecSet (i : Issue) (w : Wd) (u : Use) (f : Nat → Bool × Nat) (s : State) : IsaRes :=
  checked i w u true s (fun s =>
    let rs := (actingLanes i w).map (fun l => (l, f l))
    .next (updGroup (writeP s i w.dst (rs.map (fun r => (r.1, r.2.1)))) i (fun g => raiseFlags g (rs.foldl (fun a r => a ||| r.2.2) 0))))

/-- An FP32 ALU row (R181, R182). -/
def vecF (row : Nat → Bool) (g : GRef) (w e : W64) (s : State) : Host.Outcome State Fault Refusal :=
  runIsa row g w e s (fun i wd t => vecWrite i wd (aluUse (aluSrcs wd.op) (.v 1) true)
    (fun l => aluF wd.op wd.strict (fOperand t i wd 0 l) (fOperand t i wd 1 l) (fOperand t i wd 2 l)) t)

/-- An integer ALU row (R183). -/
def vecI (row : Nat → Bool) (g : GRef) (w e : W64) (s : State) : Host.Outcome State Fault Refusal :=
  runIsa row g w e s (fun i wd t => vecWrite i wd (aluUse (aluSrcs wd.op) (.v 1) false)
    (fun l => ⟨aluI wd.op (operand t i wd 0 0 l) (operand t i wd 1 0 l) (operand t i wd 2 0 l), 0⟩) t)

/-- A special-function result (R218, Table 8.10). -/
def specialF (op : Nat) (strict : Bool) (a b : W32) : FRes :=
  match op with
  | 0x140 => fRcp strict a
  | 0x141 => fSqrt strict true a
  | 0x142 => fSqrt strict false a
  | 0x143 => fExp2 strict a
  | 0x144 => fLog2 strict a
  | 0x145 => fTrig strict false a
  | 0x146 => fTrig strict true a
  | _ => fDiv strict a b

/-- A special-function row (R218). -/
def vecS (row : Nat → Bool) (g : GRef) (w e : W64) (s : State) : Host.Outcome State Fault Refusal :=
  runIsa row g w e s (fun i wd t => vecWrite i wd (aluUse (if wd.op = 0x147 then 2 else 1) (.v 1) true)
    (fun l => specialF wd.op wd.strict (fOperand t i wd 0 l) (fOperand t i wd 1 l)) t)

/-- ADD_F32 (R181). -/
def execAddF32 (g : GRef) (w e : W64) (s : State) : Host.Outcome State Fault Refusal := vecF (· == 0) g w e s
/-- SUB_F32 (R181). -/
def execSubF32 (g : GRef) (w e : W64) (s : State) : Host.Outcome State Fault Refusal := vecF (· == 1) g w e s
/-- MUL_F32 (R181). -/
def execMulF32 (g : GRef) (w e : W64) (s : State) : Host.Outcome State Fault Refusal := vecF (· == 2) g w e s
/-- FMA_F32 (R181). -/
def execFmaF32 (g : GRef) (w e : W64) (s : State) : Host.Outcome State Fault Refusal := vecF (· == 3) g w e s
/-- MIN_F32 (R182). -/
def execMinF32 (g : GRef) (w e : W64) (s : State) : Host.Outcome State Fault Refusal := vecF (· == 4) g w e s
/-- MAX_F32 (R182). -/
def execMaxF32 (g : GRef) (w e : W64) (s : State) : Host.Outcome State Fault Refusal := vecF (· == 5) g w e s
/-- FLOOR_F32 (R171). -/
def execFloorF32 (g : GRef) (w e : W64) (s : State) : Host.Outcome State Fault Refusal := vecF (· == 6) g w e s
/-- CEIL_F32 (R171). -/
def execCeilF32 (g : GRef) (w e : W64) (s : State) : Host.Outcome State Fault Refusal := vecF (· == 7) g w e s
/-- TRUNC_F32 (R171). -/
def execTruncF32 (g : GRef) (w e : W64) (s : State) : Host.Outcome State Fault Refusal := vecF (· == 8) g w e s

/-- SET_F32 (R182): comparisons into a predicate. -/
def execSetF32 (g : GRef) (w e : W64) (s : State) : Host.Outcome State Fault Refusal :=
  runIsa (fun o => decide (0x10 ≤ o) && decide (o ≤ 0x15)) g w e s (fun i wd t => vecSet i wd (aluUse 2 .p true)
    (fun l => fCmp wd.strict (wd.op - 0x10) (fOperand t i wd 0 l) (fOperand t i wd 1 l)) t)

/-- ADD (R183). -/
def execAdd (g : GRef) (w e : W64) (s : State) : Host.Outcome State Fault Refusal := vecI (· == 0x40) g w e s
/-- SUB (R183). -/
def execSub (g : GRef) (w e : W64) (s : State) : Host.Outcome State Fault Refusal := vecI (· == 0x41) g w e s
/-- MUL (R183). -/
def execMul (g : GRef) (w e : W64) (s : State) : Host.Outcome State Fault Refusal := vecI (· == 0x42) g w e s
/-- MAD (R183). -/
def execMad (g : GRef) (w e : W64) (s : State) : Host.Outcome State Fault Refusal := vecI (· == 0x43) g w e s
/-- MULHI (R183): signed and unsigned. -/
def execMulhi (g : GRef) (w e : W64) (s : State) : Host.Outcome State Fault Refusal := vecI (fun o => o == 0x44 || o == 0x45) g w e s
/-- MIN_MAX_INT (R183). -/
def execMinMaxInt (g : GRef) (w e : W64) (s : State) : Host.Outcome State Fault Refusal :=
  vecI (fun o => decide (0x46 ≤ o) && decide (o ≤ 0x49)) g w e s
/-- AND (R183). -/
def execAnd (g : GRef) (w e : W64) (s : State) : Host.Outcome State Fault Refusal := vecI (· == 0x4A) g w e s
/-- OR (R183). -/
def execOr (g : GRef) (w e : W64) (s : State) : Host.Outcome State Fault Refusal := vecI (· == 0x4B) g w e s
/-- XOR (R183). -/
def execXor (g : GRef) (w e : W64) (s : State) : Host.Outcome State Fault Refusal := vecI (· == 0x4C) g w e s
/-- NOT (R183). -/
def execNot (g : GRef) (w e : W64) (s : State) : Host.Outcome State Fault Refusal := vecI (· == 0x4D) g w e s
/-- SHL (R183). -/
def execShl (g : GRef) (w e : W64) (s : State) : Host.Outcome State Fault Refusal := vecI (· == 0x4E) g w e s
/-- SHR (R183): logical and arithmetic. -/
def execShr (g : GRef) (w e : W64) (s : State) : Host.Outcome State Fault Refusal := vecI (fun o => o == 0x4F || o == 0x50) g w e s
/-- ROTL (R183). -/
def execRotl (g : GRef) (w e : W64) (s : State) : Host.Outcome State Fault Refusal := vecI (· == 0x51) g w e s
/-- POPC (R183). -/
def execPopc (g : GRef) (w e : W64) (s : State) : Host.Outcome State Fault Refusal := vecI (· == 0x52) g w e s
/-- CLZ (R183). -/
def execClz (g : GRef) (w e : W64) (s : State) : Host.Outcome State Fault Refusal := vecI (· == 0x53) g w e s
/-- BFE_U32 (R183). -/
def execBfeU32 (g : GRef) (w e : W64) (s : State) : Host.Outcome State Fault Refusal := vecI (· == 0x54) g w e s
/-- MOV (R207). -/
def execMov (g : GRef) (w e : W64) (s : State) : Host.Outcome State Fault Refusal := vecI (· == 0x56) g w e s

/-- SEL (R207): `a` where the predicate that SRC2 names is set in the lane, else `b`. -/
def execSel (g : GRef) (w e : W64) (s : State) : Host.Outcome State Fault Refusal :=
  runIsa (· == 0x55) g w e s (fun i wd t => vecWrite i wd { a := .reg 1, b := .reg 1, c := .pred, d := .v 1 }
    (fun l => ⟨if predBit i.g wd.s2 l then operand t i wd 0 0 l else operand t i wd 1 0 l, 0⟩) t)

/-- SHFL (R214): `a` as held by lane (b mod W). -/
def execShfl (g : GRef) (w e : W64) (s : State) : Host.Outcome State Fault Refusal :=
  runIsa (· == 0x57) g w e s (fun i wd t => vecWrite i wd (aluUse 2 (.v 1) false)
    (fun l => ⟨operand t i wd 0 0 ((operand t i wd 1 0 l).toNat % i.x.width), 0⟩) t)

/-- RDLANE (R214): a vector instruction that writes a scalar; it acts where at least one lane acts. -/
def execRdlane (g : GRef) (w e : W64) (s : State) : Host.Outcome State Fault Refusal :=
  runIsa (· == 0x58) g w e s (fun i wd t => checked i wd { a := .vec 1, b := .sca 1, d := .s 1 } true t (fun t =>
    if (actingLanes i wd).isEmpty then .next t
    else .next (writeS t i [(wd.dst, operand t i wd 0 0 ((operand t i wd 1 0 (scalarLane i)).toNat % i.x.width))])))

/-- SET_INT (R183): integer comparisons into a predicate. -/
def execSetInt (g : GRef) (w e : W64) (s : State) : Host.Outcome State Fault Refusal :=
  runIsa (fun o => decide (0x59 ≤ o) && decide (o ≤ 0x62)) g w e s (fun i wd t => vecSet i wd (aluUse 2 .p false)
    (fun l => (setI wd.op (operand t i wd 0 0 l) (operand t i wd 1 0 l), 0)) t)

/-! ### Scalar forms -/

/-- Operands of a scalar form (R212). -/
def scalarUse (n : Nat) (d : DstUse) (fp : Bool) : Use :=
  { a := .sca 1, b := if 1 < n then .sca 1 else .no, c := if 2 < n then .sca 1 else .no, d := d, mods := if fp then 63 else 0,
    predZero := true }

/-- A predicate written with one bit in every lane below W. -/
def writeAll (s : State) (i : Issue) (p : Nat) (f : Nat → Bool) : State :=
  writeP s i p ((countUp 0 i.x.width).map (fun l => (l, f l)))

/-- The scalar form of an ALU opcode `o` of the vector numbering (R212). -/
def scalarForm (i : Issue) (w : Wd) (o : Nat) (s : State) : IsaRes :=
  let l := scalarLane i
  let put (r : FRes) (t : State) : IsaRes := .next (updGroup (writeS t i [(w.dst, r.v)]) i (fun g => raiseFlags g r.fl))
  if o ≤ 8 then
    checked i w (scalarUse (aluSrcs o) (.s 1) true) true s
      (fun t => put (aluF o w.strict (fOperand t i w 0 l) (fOperand t i w 1 l) (fOperand t i w 2 l)) t)
  else if o ≤ 0x15 then
    checked i w (scalarUse 2 .p true) true s (fun t =>
      let r := fCmp w.strict (o - 0x10) (fOperand t i w 0 l) (fOperand t i w 1 l)
      .next (updGroup (writeAll t i w.dst (fun _ => r.1)) i (fun g => raiseFlags g r.2)))
  else if o = 0x55 then
    checked i w { a := .sca 1, b := .sca 1, c := .pred, d := .s 1, predZero := true } true s
      (fun t => put ⟨if predBit i.g w.s2 l then operand t i w 0 0 l else operand t i w 1 0 l, 0⟩ t)
  else if o ≤ 0x56 then
    checked i w (scalarUse (aluSrcs o) (.s 1) false) true s
      (fun t => put ⟨aluI o (operand t i w 0 0 l) (operand t i w 1 0 l) (operand t i w 2 0 l), 0⟩ t)
  else
    checked i w (scalarUse 2 .p false) true s
      (fun t => .next (writeAll t i w.dst (fun _ => setI o (operand t i w 0 0 l) (operand t i w 1 0 l))))

/-- SCALAR_ALU (R212): the scalar forms, opcode plus 0x080. -/
def execScalarAlu (g : GRef) (w e : W64) (s : State) : Host.Outcome State Fault Refusal :=
  runIsa (fun o => decide (0x80 ≤ o) && decide (o < 0xF0)) g w e s (fun i wd t => scalarForm i wd (wd.op - 0x80) t)

/-- A 64-bit scalar sum or difference (Table 8.8). -/
def scalar64 (op : Nat) (f : Nat → Nat → Nat) (g : GRef) (w e : W64) (s : State) : Host.Outcome State Fault Refusal :=
  runIsa (· == op) g w e s (fun i wd t => checked i wd { a := .sca 2, b := .sca 2, d := .s 2, predZero := true } true t (fun t =>
    let l := scalarLane i
    .next (writeS64 t i wd.dst (f (operandPair t i wd 0 l) (operandPair t i wd 1 l)))))

/-- SADD64 (R212). -/
def execSadd64 (g : GRef) (w e : W64) (s : State) : Host.Outcome State Fault Refusal := scalar64 0xF0 (fun a b => (a + b) % 2 ^ 64) g w e s
/-- SSUB64 (R212). -/
def execSsub64 (g : GRef) (w e : W64) (s : State) : Host.Outcome State Fault Refusal :=
  scalar64 0xF1 (fun a b => (a + 2 ^ 64 - b) % 2 ^ 64) g w e s

/-- A predicate operation (Table 8.8). -/
def predOp (op : Nat) (two : Bool) (f : Bool → Bool → Bool) (g : GRef) (w e : W64) (s : State) : Host.Outcome State Fault Refusal :=
  runIsa (· == op) g w e s (fun i wd t =>
    checked i wd { a := .pred, b := if two then .pred else .no, d := .p, predZero := true } true t (fun t =>
      .next (writeAll t i wd.dst (fun l => f (predBit i.g wd.s0 l) (predBit i.g wd.s1 l)))))

/-- PAND (R212). -/
def execPand (g : GRef) (w e : W64) (s : State) : Host.Outcome State Fault Refusal := predOp 0xF2 true (fun a b => a && b) g w e s
/-- POR (R212). -/
def execPor (g : GRef) (w e : W64) (s : State) : Host.Outcome State Fault Refusal := predOp 0xF3 true (fun a b => a || b) g w e s
/-- PXOR (R212). -/
def execPxor (g : GRef) (w e : W64) (s : State) : Host.Outcome State Fault Refusal := predOp 0xF4 true xor g w e s
/-- PNOT (R212). -/
def execPnot (g : GRef) (w e : W64) (s : State) : Host.Outcome State Fault Refusal := predOp 0xF5 false (fun a _ => !a) g w e s

/-- BALLOT (R212): the lanes of the current path with exec set whose predicate bit is 1. -/
def execBallot (g : GRef) (w e : W64) (s : State) : Host.Outcome State Fault Refusal :=
  runIsa (· == 0xF6) g w e s (fun i wd t => checked i wd { a := .pred, d := .s 2, predZero := true } true t (fun t =>
    .next (writeS64 t i wd.dst (((pathExec i).filter (predBit i.g wd.s0)).foldl (fun a l => a + 2 ^ l) 0))))

/-- S2P (R212): a pair's bits into a predicate. -/
def execS2p (g : GRef) (w e : W64) (s : State) : Host.Outcome State Fault Refusal :=
  runIsa (· == 0xF7) g w e s (fun i wd t => checked i wd { a := .sca 2, d := .p, predZero := true } true t (fun t =>
    .next (writeAll t i wd.dst (fun l => (operandPair t i wd 0 (scalarLane i)).testBit l))))

/-- RDEXEC (R208). -/
def execRdexec (g : GRef) (w e : W64) (s : State) : Host.Outcome State Fault Refusal :=
  runIsa (· == 0xF8) g w e s (fun i wd t => checked i wd { d := .s 2, predZero := true } true t (fun t =>
    .next (writeS64 t i wd.dst i.g.exec)))

/-- WREXEC (R208): bits at and above W and those of exited lanes stay 0. -/
def execWrexec (g : GRef) (w e : W64) (s : State) : Host.Outcome State Fault Refusal :=
  runIsa (· == 0xF9) g w e s (fun i wd t => checked i wd { a := .sca 2, predZero := true } true t (fun t =>
    let v := operandPair t i wd 0 (scalarLane i) % 2 ^ i.x.width
    .next (updGroup t i (fun g => { g with exec := v - (v &&& g.exited) }))))

/-! ### Special functions -/

/-- RCP (R218). -/
def execRcp (g : GRef) (w e : W64) (s : State) : Host.Outcome State Fault Refusal := vecS (· == 0x140) g w e s
/-- RSQRT (R218). -/
def execRsqrt (g : GRef) (w e : W64) (s : State) : Host.Outcome State Fault Refusal := vecS (· == 0x141) g w e s
/-- SQRT (R218). -/
def execSqrt (g : GRef) (w e : W64) (s : State) : Host.Outcome State Fault Refusal := vecS (· == 0x142) g w e s
/-- EXP2 (R218). -/
def execExp2 (g : GRef) (w e : W64) (s : State) : Host.Outcome State Fault Refusal := vecS (· == 0x143) g w e s
/-- LOG2 (R218). -/
def execLog2 (g : GRef) (w e : W64) (s : State) : Host.Outcome State Fault Refusal := vecS (· == 0x144) g w e s
/-- SIN (R218). -/
def execSin (g : GRef) (w e : W64) (s : State) : Host.Outcome State Fault Refusal := vecS (· == 0x145) g w e s
/-- COS (R218). -/
def execCos (g : GRef) (w e : W64) (s : State) : Host.Outcome State Fault Refusal := vecS (· == 0x146) g w e s
/-- DIV (R218). -/
def execDiv (g : GRef) (w e : W64) (s : State) : Host.Outcome State Fault Refusal := vecS (· == 0x147) g w e s

end Sys2Proof.Machine
end

