-- ==== Sys2Proof/Machine/Converts.lean ====
section
/-! DEFINITION. The convert class and the matrix instruction (08, R215 to R217, R226 to R228). -/

namespace Sys2Proof.Machine

/-! ### Conversions (R215 to R217) -/

/-- Positions a format has in a register (R215). -/
def fmtPositions (c : Nat) : Nat := if fmtBits c = 32 then 1 else if fmtBits c = 16 then 2 else 4

/-- Bits from the start of a register to position `p` of a format. -/
def posShift (c p : Nat) : Nat := if fmtBits c = 16 then 16 * p else 8 * p

/-- The code of a format at a position of a register. -/
def takeCode (c p : Nat) (v : W32) : Nat := (v.toNat / 2 ^ posShift c p) % 2 ^ fmtBits c

/-- A code put at its position: a byte's unused bits are cleared and the rest of the register stays (R215). -/
def putCode (c p : Nat) (old : W32) (x : Nat) : W32 :=
  if fmtBits c = 32 then BitVec.ofNat 32 x
  else
    let w := if fmtBits c = 16 then 16 else 8
    let sh := posShift c p
    let o := old.toNat
    BitVec.ofNat 32 (o - (o / 2 ^ sh % 2 ^ w) * 2 ^ sh + (x % 2 ^ w) * 2 ^ sh)

/-- CVT (R215). -/
def execCvt (g : GRef) (w e : W64) (s : State) : Host.Outcome State Fault Refusal :=
  runIsa (· == 0x100) g w e s (fun i wd t =>
    let b := fldN wd.mod 3 0
    let a := fldN wd.mod 7 4
    let dp := fldN wd.mod 9 8
    let sp := fldN wd.mod 11 10
    let u : Use := { a := .reg 1, d := .v 1, mods := 0xFFF }
    checked i wd u (cvtListed a b && decide (dp < fmtPositions b) && decide (sp < fmtPositions a)) t (fun t =>
      vecWrite i wd u (fun l =>
        let r := convert wd.strict a b (takeCode a sp (operand t i wd 0 0 l))
        ⟨putCode b dp (readV t i wd.dst l) r.1, r.2⟩) t))

/-- Element codes of an MX block (Table 8.9, R216). -/
def mxCode (c : Nat) : Bool := c ∈ [3, 4, 5, 6, 7, 9]

/-- MXQ (R216): one block per 32 lanes, in every lane of the group. -/
def execMxq (g : GRef) (w e : W64) (s : State) : Host.Outcome State Fault Refusal :=
  runIsa (· == 0x101) g w e s (fun i wd t =>
    let c := fldN wd.mod 3 0
    checked i wd { a := .reg 1, d := .v 1, mods := 0xF, predZero := true } (mxCode c && decide (32 ≤ i.x.width)) t (fun t =>
      let blocks := (countUp 0 (i.x.width / 32)).map (fun b =>
        (b, mxQuant wd.strict c ((countUp (32 * b) 32).map (fun l => operand t i wd 0 0 l))))
      let ws := blocks.flatMap (fun q => (countUp 0 32).map (fun k =>
        (wd.dst, 32 * q.1 + k, (BitVec.ofNat 32 (lget 0 q.2.2.1 k % 256 + 256 * q.2.1) : W32))))
      .next (updGroup (writeV t i ws) i (fun g => raiseFlags g (blocks.foldl (fun a q => a ||| q.2.2.2) 0)))))

/-- MXDQ (R217): element times 2^(scale - 127). -/
def execMxdq (g : GRef) (w e : W64) (s : State) : Host.Outcome State Fault Refusal :=
  runIsa (· == 0x102) g w e s (fun i wd t =>
    let c := fldN wd.mod 7 4
    let sp := fldN wd.mod 11 10
    let u : Use := { a := .reg 1, b := .reg 1, d := .v 1, mods := 0xCF0 }
    checked i wd u (mxCode c) t (fun t =>
      vecWrite i wd u (fun l =>
        mxDequant wd.strict c (((operand t i wd 0 0 l).toNat / 2 ^ (8 * sp)) % 256) ((operand t i wd 1 0 l).toNat % 256)) t))

/-! ### The matrix instruction (R226 to R228) -/

/-- The element code of Table 8.9 of a matrix format (Table 8.16); 9 stands for INT8 and MXINT8. -/
def mmaCode (f : Nat) : Nat :=
  match f with
  | 0 => 1
  | 1 => 2
  | 2 => 3
  | 3 => 4
  | 4 => 3
  | 5 => 4
  | 6 => 6
  | 7 => 5
  | 8 => 7
  | _ => 9

/-- Whether a matrix format is an MX format. -/
def mmaMx (f : Nat) : Bool := decide (4 ≤ f) && decide (f ≤ 9)

/-- Bytes of an operand image (Table 8.17). -/
def imageBytes (f : Nat) : Nat :=
  let bits := fmtBits (mmaCode f)
  if mmaMx f then 16 * (32 * bits / 8) else 256 * bits / 8

/-- Registers of an image of `n` bytes at width `w` (R227). -/
def imageRegs (n w : Nat) : Nat := ceilDiv n (4 * w)

/-- An operand image read from registers as one little-endian number (R227). -/
def imageNat (s : State) (i : Issue) (base n : Nat) : Nat :=
  let w := i.x.width
  (countUp 0 (n / 4)).reverse.foldl (fun acc k => acc * 2 ^ 32 + (readV s i (base + k / w) (k % w)).toNat) 0

/-- Element `k` of block or row `n` of an operand image as a value of its format: not MX by its index, MX by block and HALF
(R227). -/
def imageElem (strict : Bool) (f half image scales n k : Nat) (byRow : Bool) : MElem :=
  let c := mmaCode f
  let b := fmtBits c
  if mmaMx f then
    let code := image / 2 ^ (32 * b * n + b * (k + 16 * half)) % 2 ^ b
    let sc := scales / 2 ^ (8 * n) % 256
    { v := (mxElem c code).1, scale := if sc = 255 then none else some ((sc : Int) - 127) }
  else
    let idx := if byRow then 16 * n + k else 16 * k + n
    { v := match fmtOf c with
        | some g => (readF g strict (image / 2 ^ (b * idx) % 2 ^ b)).1
        | none => .fin false 0 0
      scale := some 0 }

/-- Flags that reading an operand element sets (R178, R179). -/
def elemFlags (strict : Bool) (f half image n k : Nat) (byRow : Bool) : Nat :=
  let c := mmaCode f
  let b := fmtBits c
  let code := if mmaMx f then image / 2 ^ (32 * b * n + b * (k + 16 * half)) % 2 ^ b
    else image / 2 ^ (b * (if byRow then 16 * n + k else 16 * k + n)) % 2 ^ b
  match fmtOf c with
  | some g => (readF g (strict || mmaMx f) code).2
  | none => 0

/-- Whether two runs of registers meet. -/
def runsMeet (a n b m : Nat) : Bool := decide (a < b + m) && decide (b < a + n)

/-- The numbers 0 to 15. -/
def sixteen : List Nat := countUp 0 16

/-- D of a floating `mma`, row by row, with the flags raised (R186 to R191). -/
def mmaFloat (strict : Bool) (fa fb half ia ib sa sb : Nat) (c : Nat → W32) : List FRes :=
  let as := sixteen.map (fun i => sixteen.map (fun k => imageElem strict fa half ia sa i k true))
  let bs := sixteen.map (fun j => sixteen.map (fun k => imageElem strict fb half ib sb j k false))
  as.zipIdx.flatMap (fun r => bs.zipIdx.map (fun q =>
    let ci := read32 strict (c (16 * r.2 + q.2))
    withFl (mmaElem strict (r.1.zip q.1) ci.1) ci.2))

/-- D of an INT8 `mma` (R192). -/
def mmaInt (ia ib : Nat) (c : Nat → W32) : List FRes :=
  sixteen.flatMap (fun i => sixteen.map (fun j =>
    let dot := sixteen.foldl (fun (a : Int) k => a + sx 8 (ia / 2 ^ (8 * (16 * i + k))) * sx 8 (ib / 2 ^ (8 * (16 * k + j)))) 0
    ⟨BitVec.ofInt 32 ((c (16 * i + j)).toInt + dot), 0⟩))

/-- Operands of an `mma`: the sizes of its runs (Table 8.17). -/
def mmaUse (i : Issue) (w : Wd) : Use :=
  let n := imageRegs 1024 i.x.width
  { a := .vec (imageRegs (imageBytes (fldN w.mod 3 0)) i.x.width), b := .vec (imageRegs (imageBytes (fldN w.mod 7 4)) i.x.width),
    c := if w.mod.testBit 9 then .no else .vec n, d := .v n, mods := 0x3FF, predZero := true }

/-- The conditions of R203, R226 to R228 beside those of the fields: formats, scale registers, overlaps and the end of the
registers. -/
def mmaLegal (i : Issue) (w : Wd) : Bool :=
  let fa := fldN w.mod 3 0
  let fb := fldN w.mod 7 4
  let n := imageRegs 1024 i.x.width
  let na := imageRegs (imageBytes fa) i.x.width
  let nb := imageRegs (imageBytes fb) i.x.width
  let ra := fld w.e 7 0
  let rb := fld w.e 15 8
  let mx := mmaMx fa || mmaMx fb
  decide (fa ≤ 10) && decide (fb ≤ 10) && ((fa == 10) == (fb == 10)) && (!mx || w.ext)
    && (mmaMx fa || ra == 0) && (mmaMx fb || rb == 0) && fld w.e 63 16 == 0
    && !runsMeet w.dst n w.s0 na && !runsMeet w.dst n w.s1 nb
    && !(mmaMx fa && runsMeet w.dst n ra 1) && !(mmaMx fb && runsMeet w.dst n rb 1)
    && (w.mod.testBit 9 || w.s2 == w.dst || !runsMeet w.dst n w.s2 n)
    && decide (wordTop w (mmaUse i w) ≤ i.x.vregs) && (!mmaMx fa || decide (ra < i.x.vregs)) && (!mmaMx fb || decide (rb < i.x.vregs))

/-- MMA (R226): the operands are read at issue; D is written when MCNT counts it done (R158). -/
def execMma (g : GRef) (w e : W64) (s : State) : Host.Outcome State Fault Refusal :=
  runIsa (· == 0x240) g w e s (fun i wd t => checked i wd (mmaUse i wd) (mmaLegal i wd) t (fun t =>
    if 63 ≤ i.g.mq.length then .stall
    else
      let fa := fldN wd.mod 3 0
      let fb := fldN wd.mod 7 4
      let half := fldN wd.mod 8 8
      let ia := imageNat t i wd.s0 (imageBytes fa)
      let ib := imageNat t i wd.s1 (imageBytes fb)
      let sa := if mmaMx fa then imageNat t i (fld wd.e 7 0) 16 else 0
      let sb := if mmaMx fb then imageNat t i (fld wd.e 15 8) 16 else 0
      let wdt := i.x.width
      let c (k : Nat) : W32 := if wd.mod.testBit 9 then 0 else readV t i (wd.s2 + k / wdt) (k % wdt)
      let rs := if fa = 10 then mmaInt ia ib c else mmaFloat wd.strict fa fb half ia ib sa sb c
      let inFl := if fa = 10 then 0
        else sixteen.foldl (fun a n => sixteen.foldl (fun a k =>
          a ||| elemFlags wd.strict fa half ia n k true ||| elemFlags wd.strict fb half ib n k false) a) 0
      let res := rs.zipIdx.map (fun r => (wd.dst + r.2 / wdt, r.2 % wdt, r.1.v))
      let op : CountedOp :=
        { serial := t.nextId, issuedAt := t.now, kind := .fixed, dst := wd.dst, access := [], result := res,
          flags := inFl ||| joinFlags rs, dests := res.map (fun r => (r.1, r.2.1)), stale := [], posted := false, pc := i.pc }
      .next (updGroup { t with nextId := t.nextId + 1 } i (fun g => { g with mq := g.mq ++ [op] }))))

end Sys2Proof.Machine
end

