-- ==== Sys2Proof/Machine/CoreMem.lean ====
section
/-! DEFINITION. Memory, atomic and tile-memory instructions and the wait counters (06, R157, R158, R160 to R168; 08, R219 to R223,
R229). -/

namespace Sys2Proof.Machine

/-! ### Addresses (R219, R221) -/

/-- Bytes of an access by its SIZE code (Table 8.12). -/
def sizeBytes (c : Nat) : Nat := 2 ^ c

/-- Registers of a run for a SIZE code (R220). -/
def sizeRegs (c : Nat) : Nat := if c ≤ 2 then 1 else 2 ^ (c - 2)

/-- The virtual address of a lane under the ADDR mode (R219). -/
def laneAddr (s : State) (i : Issue) (w : Wd) (addr lane : Nat) : Nat :=
  let base := operandPair s i w 0 lane
  let idx := if addr = 1 then (operand s i w 1 0 lane).toNat else 0
  (((base + idx : Nat) : Int) + immOf w) % (2 ^ 64 : Int) |>.toNat

/-- Sources of an address under the ADDR mode (R219). -/
def addrSrc (addr : Nat) : SrcUse × SrcUse := if addr = 0 then (.vec 2, .no) else if addr = 1 then (.sca 2, .vec 1) else (.sca 2, .no)

/-- Addresses translated lane by lane, the lowest first (R221): the physical addresses, or the first fault as code, cause and
address, an unmapped address before a misaligned one. -/
def resolveLanes (d : DieId) (c : Nat) (write : Bool) (bytes : Nat) :
    List (Nat × Nat) → State → List (Nat × Nat) → Except (Nat × Nat × Nat) (List (Nat × Nat)) × State
  | [], s, acc => (.ok acc, s)
  | (lane, va) :: r, s, acc =>
    match translate s d c va { write := write } with
    | (.error x, s1) => (.error (0x0310, x, va), s1)
    | (.ok (pa, _), s1) =>
      if ¬ reach s1 d (dieOf pa) ∧ ¬ cordWaits s1 d (dieOf pa) then (.error (0x0310, 0x0A, va), s1)
      else if va % bytes ≠ 0 then (.error (0x0316, 0, va), s1)
      else resolveLanes d c write bytes r s1 (acc ++ [(lane, pa)])

/-- A memory instruction's lanes resolved, then its effect; a fault stops it with no access in any lane (R221). -/
def withLanes (i : Issue) (write : Bool) (bytes : Nat) (lanes : List (Nat × Nat)) (s : State) (k : List (Nat × Nat) → State → IsaRes) :
    IsaRes :=
  match resolveLanes i.d i.x.ctx write bytes lanes s [] with
  | (.error f, s1) => .fault f.1 f.2.1 f.2.2 s1
  | (.ok ps, s1) => k ps s1

/-- An operation counted under VCNT; one that would raise the counter above 63 stalls (R157). -/
def countV (i : Issue) (op : CountedOp) (s : State) : State :=
  updGroup { s with nextId := s.nextId + 1 } i (fun g => { g with vq := g.vq ++ [op] })

/-- An operation counted under SCNT. -/
def countS (i : Issue) (op : CountedOp) (s : State) : State :=
  updGroup { s with nextId := s.nextId + 1 } i (fun g => { g with sq := g.sq ++ [op] })

/-- An operation counted under TCNT. -/
def countT (i : Issue) (op : CountedOp) (s : State) : State :=
  updGroup { s with nextId := s.nextId + 1 } i (fun g => { g with tq := g.tq ++ [op] })

/-! ### Loads and stores (R160 to R163, R219 to R222) -/

/-- Lines of a list of physical addresses, each once, in order. -/
def lanesLines (ps : List (Nat × Nat)) : List Nat := ps.foldl (fun l p => if p.2 / 128 ∈ l then l else l ++ [p.2 / 128]) []

/-- The bytes of an access that a near cache holds. -/
def nearBytes (n : NearCache) (pa bytes : Nat) : Option (List Byte) :=
  (n.lines.find? (fun l => l.line == pa / 128)).map (fun l => (l.data.drop (pa % 128)).take bytes)

/-- Whether an access meets poison in a near-cache line (R290). -/
def nearPoison (n : NearCache) (pa : Nat) : Bool :=
  match n.lines.find? (fun l => l.line == pa / 128) with
  | some l => (pa / 64) % 2 ∈ l.poison
  | none => false

/-- A load at issue carried on (R160): each access that has no bytes takes them from a line of the near cache, waits for a fill in flight, or
starts one where fewer than 16 are in flight. Answers the accesses, the cache and whether every access is served or waits. -/
def beginAccesses (pre last : Bool) : List LaneAccess → NearCache → List LaneAccess → List LaneAccess × NearCache × Bool
  | [], n, acc => (acc, n, true)
  | a :: r, n, acc =>
    let l := a.pa / 128
    if a.got.isSome then beginAccesses pre last r n (acc ++ [a])
    else if n.lines.any (fun x => x.line == l) then
      beginAccesses pre last r (nearTouch n l last) (acc ++ [{ a with got := nearBytes n a.pa a.bytes }])
    else if n.fills.any (fun f => f.line == l) ∨ n.fills.length < 16 then beginAccesses pre last r (startFill n l pre last) (acc ++ [a])
    else (acc ++ a :: r, n, false)

/-- A load issued (R160 to R162, R219): hits take their bytes from the near cache, misses wait for fills, COHERENT reads the die
cache at completion. A load that needs a 17th fill stalls at issue, and goes on with what it has begun as fills end. -/
def issueLoad (i : Issue) (w : Wd) (hint size : Nat) (signed scalar : Bool) (ps : List (Nat × Nat)) (s : State) : IsaRes :=
  let n := nearOf s i.d i.b.core
  let bytes := sizeBytes size
  let regs := sizeRegs size
  if 63 ≤ i.g.vq.length then .stall
  else
    let dests := (if scalar then [0] else ps.map (fun p => p.1)).flatMap (fun l => (countUp w.dst regs).map (fun r => (r, l)))
    let fresh : CountedOp :=
      { serial := s.nextId, issuedAt := s.now, kind := .load bytes signed scalar (hint == 3), dst := w.dst,
        access := ps.map (fun p => { lane := p.1, pa := p.2, bytes := bytes, got := none }), result := [], flags := 0, dests := dests,
        stale := [], posted := false, pc := i.pc }
    if hint = 3 then .next (countV i fresh s)
    else
      let op := i.g.part.getD fresh
      match op.access.find? (fun a => a.got.isNone && nearPoison n a.pa) with
      | some a => .fault 0x0317 0xFF a.pa s
      | none =>
        let r := beginAccesses (hint == 0) (hint == 2) op.access n []
        let s1 := setNear s i.d i.b.core r.2.1
        let op1 := { op with access := r.1 }
        if r.2.2 then .next (countV i op1 (updGroup s1 i (fun g => { g with part := none })))
        else .stalled (updGroup { s1 with nextId := s1.nextId + 1 } i (fun g => { g with part := some op1 }))

/-- A store issued (R163, R222): its bytes go into the core's own copy of the line, and reach the die cache when SCNT counts it
done; the lanes' bytes in ascending lane order. -/
def issueStore (i : Issue) (data : List (Nat × Byte)) (access : List LaneAccess) (s : State) : IsaRes :=
  if 63 ≤ i.g.sq.length then .stall
  else
    let op : CountedOp :=
      { serial := s.nextId, issuedAt := s.now, kind := .store data, dst := 0, access := access, result := [], flags := 0, dests := [],
        stale := [], posted := false, pc := i.pc }
    .next (countS i op (setNear s i.d i.b.core (nearStore (nearOf s i.d i.b.core) data)))

/-- The bytes of a data run in a lane (R220). -/
def dataBytes (s : State) (i : Issue) (w : Wd) (k size lane : Nat) : List Byte :=
  ((countUp 0 (sizeRegs size)).flatMap (fun r => natLe 4 (operand s i w k r lane).toNat)).take (sizeBytes size)

/-- LD (R219). -/
def execLd (g : GRef) (w e : W64) (s : State) : Host.Outcome State Fault Refusal :=
  runIsa (· == 0x180) g w e s (fun i wd t =>
    let size := fldN wd.mod 4 2
    let addr := fldN wd.mod 7 6
    let sa := addrSrc addr
    checked i wd { a := sa.1, b := sa.2, d := .v (sizeRegs size), mods := 0xFF }
      (decide (size ≤ 4) && decide (addr ≤ 2) && (!wd.mod.testBit 5 || decide (size ≤ 1))) t (fun t =>
      withLanes i false (sizeBytes size) ((actingLanes i wd).map (fun l => (l, laneAddr t i wd addr l))) t
        (fun ps t => issueLoad i wd (fldN wd.mod 1 0) size (wd.mod.testBit 5) false ps t)))

/-- SLD (R219): ADDR 2 only, for the group. -/
def execSld (g : GRef) (w e : W64) (s : State) : Host.Outcome State Fault Refusal :=
  runIsa (· == 0x182) g w e s (fun i wd t =>
    let size := fldN wd.mod 4 2
    checked i wd { a := .sca 2, d := .s (sizeRegs size), mods := 0xFF, predZero := true }
      (decide (size ≤ 5) && fldN wd.mod 7 6 == 2 && (!wd.mod.testBit 5 || decide (size ≤ 1))) t (fun t =>
      withLanes i false (sizeBytes size) [(0, laneAddr t i wd 2 (scalarLane i))] t
        (fun ps t => issueLoad i wd (fldN wd.mod 1 0) size (wd.mod.testBit 5) true ps t)))

/-- A store's lanes with their data. -/
def storeLanes (i : Issue) (w : Wd) (size : Nat) (lane : Nat → Nat) (ps : List (Nat × Nat)) (s : State) : IsaRes :=
  issueStore i (ps.flatMap (fun p => cellsAt p.2 (dataBytes s i w 2 size (lane p.1))))
    (ps.map (fun p => { lane := p.1, pa := p.2, bytes := sizeBytes size, got := none })) s

/-- ST (R219). -/
def execSt (g : GRef) (w e : W64) (s : State) : Host.Outcome State Fault Refusal :=
  runIsa (· == 0x181) g w e s (fun i wd t =>
    let size := fldN wd.mod 4 2
    let addr := fldN wd.mod 7 6
    let sa := addrSrc addr
    checked i wd { a := sa.1, b := sa.2, c := .reg (sizeRegs size), mods := 0xFF }
      (decide (size ≤ 4) && decide (addr ≤ 2) && !wd.mod.testBit 5) t (fun t =>
      withLanes i true (sizeBytes size) ((actingLanes i wd).map (fun l => (l, laneAddr t i wd addr l))) t
        (fun ps t => storeLanes i wd size (fun l => l) ps t)))

/-- SST (R219): ADDR 2 only, for the group. -/
def execSst (g : GRef) (w e : W64) (s : State) : Host.Outcome State Fault Refusal :=
  runIsa (· == 0x183) g w e s (fun i wd t =>
    let size := fldN wd.mod 4 2
    checked i wd { a := .sca 2, c := .sca (sizeRegs size), mods := 0xFF, predZero := true }
      (decide (size ≤ 5) && fldN wd.mod 7 6 == 2 && !wd.mod.testBit 5) t (fun t =>
      withLanes i true (sizeBytes size) [(0, laneAddr t i wd 2 (scalarLane i))] t
        (fun ps t => storeLanes i wd size (fun _ => scalarLane i) ps t)))

/-! ### Atomics (R194, R229) -/

/-- What a word becomes (Tables 8.13, 8.18): operation, size in bits, old value, operand, second operand. -/
def atomicNew (op bits old b c : Nat) : Nat :=
  let m := 2 ^ bits
  match op with
  | 0 => (old + b) % m
  | 1 => (fAdd true (BitVec.ofNat 32 old) (BitVec.ofNat 32 b)).v.toNat
  | 2 => if sx bits b < sx bits old then b else old
  | 3 => if sx bits old < sx bits b then b else old
  | 4 => min old b
  | 5 => max old b
  | 6 => old &&& b
  | 7 => old ||| b
  | 8 => old ^^^ b
  | 9 => b
  | _ => if old = b then c else old

/-- Flags of an atomic's arithmetic (R173, R194). -/
def atomicFlags (op old b : Nat) : Nat := if op = 1 then (fAdd true (BitVec.ofNat 32 old) (BitVec.ofNat 32 b)).fl else 0

/-- A word of data in registers from `k` on: one, or a pair. -/
def atomicArg (s : State) (i : Issue) (w : Wd) (k bits lane : Nat) : W64 :=
  BitVec.ofNat 64 (if bits = 64 then operandPair s i w k lane else (operand s i w k 0 lane).toNat)

/-- Operands of an atomic by its ADDR mode, its size and whether it has a second operand (R229). -/
def atomicUse (cas : Bool) (addr n : Nat) (ret : Bool) : Use :=
  let sa := addrSrc addr
  { a := sa.1, b := if addr = 1 then sa.2 else .reg n, c := if addr = 1 ∨ cas then .reg n else .no,
    d := if ret then .v n else .no, mods := 0xFC }

/-- The new value's vector register of a `cas` under ADDR 1: bits [7:0] of the extension word's upper half (R229). -/
def casExtReg (w : Wd) : Nat := fld w.e 39 32

/-- An atomic row (R229): issued with its operands; it acts at the memory when its counter counts it done. -/
def atomRow (row : Nat → Bool) (sixtyFour cas : Bool) (g : GRef) (w e : W64) (s : State) : Host.Outcome State Fault Refusal :=
  runIsa row g w e s (fun i wd t =>
    let size := fldN wd.mod 4 2
    let addr := fldN wd.mod 7 6
    let ret := wd.mod.testBit 5
    let n := sizeRegs size
    let bits := 8 * sizeBytes size
    let extCas := cas && addr == 1
    let more := (size == 2 || (size == 3 && sixtyFour)) && decide (addr ≤ 2)
      && (!extCas || (wd.ext && fld wd.e 31 0 == 0 && fld wd.e 63 40 == 0 && casExtReg wd % n == 0))
    checked i wd (atomicUse cas addr n ret) more t (fun t =>
      if extCas ∧ i.x.vregs < casExtReg wd + n then .fault 0x0313 0 0 t
      else
        withLanes i true (sizeBytes size) ((actingLanes i wd).map (fun l => (l, laneAddr t i wd addr l))) t (fun ps t =>
          if (if ret then 63 ≤ i.g.vq.length else 63 ≤ i.g.sq.length) then .stall
          else
            let arg (l : Nat) : Nat × W64 × W64 :=
              let b := atomicArg t i wd (if addr = 1 then 2 else 1) bits l
              let c := if extCas then BitVec.ofNat 64 ((readV t i (casExtReg wd) l).toNat
                    + (if bits = 64 then 2 ^ 32 * (readV t i (casExtReg wd + 1) l).toNat else 0))
                else if cas then atomicArg t i wd 2 bits l else 0
              (l, b, c)
            let op : CountedOp :=
              { serial := t.nextId, issuedAt := t.now, kind := .atomic (wd.op - 0x280) bits ret (ps.map (fun p => arg p.1)), dst := wd.dst,
                access := ps.map (fun p => { lane := p.1, pa := p.2, bytes := bits / 8, got := none }), result := [], flags := 0,
                dests := if ret then ps.flatMap (fun p => (countUp wd.dst n).map (fun r => (r, p.1))) else [], stale := [], posted := false, pc := i.pc }
            let t1 := setNear t i.d i.b.core (nearDrop (nearOf t i.d i.b.core) (lanesLines ps))
            .next (if ret then countV i op t1 else countS i op t1))))

/-- ATOM_ADD (R229). -/
def execAtomAdd (g : GRef) (w e : W64) (s : State) : Host.Outcome State Fault Refusal := atomRow (· == 0x280) true false g w e s
/-- ATOM_ADD_F32 (R194). -/
def execAtomAddF32 (g : GRef) (w e : W64) (s : State) : Host.Outcome State Fault Refusal := atomRow (· == 0x281) false false g w e s
/-- ATOM_MIN_MAX (R229). -/
def execAtomMinMax (g : GRef) (w e : W64) (s : State) : Host.Outcome State Fault Refusal :=
  atomRow (fun o => decide (0x282 ≤ o) && decide (o ≤ 0x285)) false false g w e s
/-- ATOM_LOGIC (R229). -/
def execAtomLogic (g : GRef) (w e : W64) (s : State) : Host.Outcome State Fault Refusal :=
  atomRow (fun o => decide (0x286 ≤ o) && decide (o ≤ 0x288)) false false g w e s
/-- ATOM_EXCH (R229). -/
def execAtomExch (g : GRef) (w e : W64) (s : State) : Host.Outcome State Fault Refusal := atomRow (· == 0x289) true false g w e s
/-- ATOM_CAS (R229). -/
def execAtomCas (g : GRef) (w e : W64) (s : State) : Host.Outcome State Fault Refusal := atomRow (· == 0x28A) true true g w e s

/-- One lane's atomic applied at its word: the state after and the old value. -/
def applyAtomic (s : State) (op bits pa b c : Nat) : State × Nat :=
  let old := memNat s pa (bits / 8)
  (memWrite s pa (natLe (bits / 8) (atomicNew op bits old b c)), old)

/-! ### Completion (R157, R158, R222) -/

/-- A completed operation's words written: where another instruction has written the register meanwhile, either value stands
(R158; log 4). -/
def landResult (s : State) (i : Issue) (scalar : Bool) (o : CountedOp) (ws : List (Nat × Nat × W32)) : State :=
  let keep := ws.filter (fun x => !((x.1, x.2.1) ∈ o.stale) || Config.freeBool s.freeCtr (2 ^ 30 + x.1 * 64 + x.2.1))
  let k := getCores s i.d
  if scalar then updGroup s i (fun g => { g with sregs := keep.foldl (fun m x => mput 0 m x.1 x.2.2) g.sregs })
  else setCores s i.d { k with vrf := keep.foldl (fun m x => mput 0 m (vreg i x.1 x.2.1) x.2.2) k.vrf }

/-- The lanes of an atomic applied in ascending order (R229): the state after, the old values by lane, the flags. -/
def applyLanes (op bits : Nat) (args : List (Nat × W64 × W64)) : List LaneAccess → State → List (Nat × Nat) → Nat → State × List (Nat × Nat) × Nat
  | [], s, olds, fl => (s, olds, fl)
  | a :: r, s, olds, fl =>
    match args.find? (fun x => x.1 == a.lane) with
    | some x =>
      let p := applyAtomic s op bits a.pa x.2.1.toNat x.2.2.toNat
      applyLanes op bits args r p.1 (olds ++ [(a.lane, p.2)]) (fl ||| atomicFlags op p.2 x.2.1.toNat)
    | none => applyLanes op bits args r s olds fl

/-- Every destination word of a load as it completes. -/
def loadWords (s : State) (d : DieId) (gid : Nat) (o : CountedOp) : List (Nat × Nat × W32) :=
  o.dests.map (fun x => (x.1, x.2, loadResult s d gid o x.1 x.2))

/-- The old values as register words. -/
def oldWords (o : CountedOp) (olds : List (Nat × Nat)) : List (Nat × Nat × W32) :=
  o.dests.map (fun x => (x.1, x.2, BitVec.ofNat 32 (((olds.find? (fun y => y.1 == x.2)).getD (0, 0)).2 / 2 ^ (32 * (x.1 - o.dst)))))

/-- The first access of an operation at home that meets poison (R290). -/
def accessFault (s : State) (d : DieId) (o : CountedOp) : Option (Nat × Nat × Nat) :=
  (o.access.filter (fun a => a.got.isNone && dieOf a.pa == d)).findSome? (fun a => if poisonAt s a.pa then some (0x0317, 0xFF, a.pa) else none)

/-- Whether an operation waits for the copy of a row of its own die (R291); another die's part waits there. -/
def opWaits (s : State) (d : DieId) (o : CountedOp) : Bool :=
  o.access.any (fun a => a.got.isNone && dieOf a.pa == d && rowWaits s a.pa a.bytes)

/-- What an operation that reads memory does to the memory side of its own die (R289). -/
def noteOp (s : State) (d : DieId) (o : CountedOp) : State :=
  (o.access.filter (fun a => a.got.isNone && dieOf a.pa == d)).foldl (fun t a => noteRead t a.pa a.bytes) s

/-- A group as an operation of it completes; the group may have been stopped meanwhile. -/
def issueAt (s : State) (r : GRef) : Option Issue :=
  match groupOf s r.die r.gid with
  | none => none
  | some g =>
    match blockOf s r.die g.block, (blockOf s r.die g.block).bind (blockDisp s r.die) with
    | some b, some x => some { d := r.die, gid := r.gid, g := g, x := x, b := b, pc := 0, mask := 0 }
    | _, _ => none

/-- After a counter has gone down: the group looks at its `wait` again, and goes where it has ended. -/
def afterCount (s : State) (i : Issue) : State := useFree (sweepGroup (updGroup s i (fun g => { g with waiting := false })) i.d i.gid)

/-- An operation performed at the memory of its own die, once (R157, R222): a COHERENT load reads, an atomic acts on its lanes in ascending order
(R229), a store's bytes become visible. What lies on other dies remains to be asked for; without such a part the operation is done. It keeps
its place in its counter. -/
def performOp (s : State) (d : DieId) (gid : Nat) (o : CountedOp) : State × CountedOp :=
  let home (a : LaneAccess) : Bool := dieOf a.pa == d
  let far := o.access.filter (fun a => !(home a))
  if o.posted then (s, o)
  else
    match o.kind with
    | .load _ _ _ true =>
      (s, { o with posted := true,
                   access := o.access.map (fun a => if home a then { a with got := some (accessBytes s d gid o a) } else a) })
    | .atomic op bits _ args =>
      let r := applyLanes op bits args (o.access.filter home) s [] 0
      (r.1, { o with posted := true, kind := if far.isEmpty then .fixed else o.kind, access := far,
                     result := oldWords { o with dests := o.dests.filter (fun x => r.2.1.any (fun y => y.1 == x.2)) } r.2.1, flags := r.2.2 })
    | .store data =>
      let out := data.filter (fun c => !(dieOf c.1 == d))
      (writeCells s (data.filter (fun c => dieOf c.1 == d)), { o with posted := true, kind := if out.isEmpty then .fixed else .store out, access := far })
    | _ => (s, o)

/-- The requests of an operation to other dies (R288): a read of each 64-byte unit that a COHERENT load needs, a write of each that a store
needs, and one atomic for each lane, in ascending order (R229; the places of ARG: log 12). -/
def opAsks (gid : Nat) (o : CountedOp) : List AskFor :=
  match o.kind with
  | .load _ _ _ true =>
    (((o.access.filter (fun a => a.got.isNone)).map (fun a => a.pa / 64)).eraseDups).map (fun u => memReadFor (.op gid o.serial u) u)
  | .store data => (unitCells data).map (fun p => memWriteFor (.op gid o.serial p.1) p.1 p.2)
  | .atomic op bits _ args =>
    o.access.filterMap (fun a => (args.find? (fun x => x.1 == a.lane)).map (fun x =>
      { who := .op gid o.serial a.lane, die := dieOf a.pa, typ := 4, len := 1, addr := a.pa / 64 * 64,
        arg := 0x280 + op + (if bits = 64 then 3 else 2) * 2 ^ 12 + a.pa % 64 * 2 ^ 16, data := natLe 8 x.2.1.toNat ++ natLe 8 x.2.2.toNat }))
  | _ => []

/-- The first request of an operation that failed, as a fault of its group: code, cause and address (R288, R290, R364). -/
def askFault (l : List (AskFor × Answer)) : Option (Nat × Nat × Nat) :=
  (l.find? (fun p => p.2.status ≠ 0)).map (fun p => (if p.2.status = 2 then 0x0317 else 0x0310, statusCause p.2.status, p.1.addr))

/-- An operation with the answers of the other dies taken in: a load's bytes, under the group's own older stores (R163), and an atomic's old
values with the flags they raise. -/
def takeAnswers (s : State) (d : DieId) (gid : Nat) (o : CountedOp) (l : List (AskFor × Answer)) : CountedOp :=
  match o.kind with
  | .load _ _ _ true =>
    let own := (pendingStores s d (fun i _ => i == gid)).filter (fun w => decide (w.1 < o.serial))
    let got (a : LaneAccess) : Option (List Byte) :=
      match l.find? (fun p => p.1.addr == a.pa / 64 * 64) with
      | some p => some (overlay a.pa (padTo a.bytes 0 ((p.2.data.drop (a.pa % 64)).take a.bytes)) own)
      | none => a.got
    { o with access := o.access.map (fun a => if a.got.isNone then { a with got := got a } else a) }
  | .atomic op bits _ args =>
    let olds := o.access.filterMap (fun a => (l.find? (fun p => p.1.who == .op gid o.serial a.lane)).map (fun p => (a.lane, leNat (p.2.data.take (bits / 8)))))
    let fl := olds.foldl (fun f y => match args.find? (fun x => x.1 == y.1) with | some x => f ||| atomicFlags op y.2 x.2.1.toNat | none => f) o.flags
    { o with kind := .fixed, access := [], flags := fl,
             result := o.result ++ oldWords { o with dests := o.dests.filter (fun x => olds.any (fun y => y.1 == x.2)) } olds }
  | .store _ => { o with kind := .fixed, access := [] }
  | _ => o

/-- How an operation at the head of its counter stands, once its part at home is done and the rest asked for. -/
inductive OpEnd where
  | waits (s : State) (o : CountedOp)
  | faults (s : State) (f : Nat × Nat × Nat)
  | done (s : State) (o : CountedOp)

/-- An operation at the head of its counter brought on as far as it goes (R157, R288, R363). -/
def bringOn (s : State) (d : DieId) (gid : Nat) (o : CountedOp) : OpEnd :=
  let reads : Bool := match o.kind with | .store _ => false | _ => true
  let s1 := if reads then noteOp s d o else s
  match (if reads then accessFault s1 d o else none) with
  | some f => .faults s1 f
  | none =>
    let p := performOp s1 d gid o
    let asks := opAsks gid p.2
    let s2 := asks.foldl (askDie d) p.1
    match answersOf s2 d asks with
    | none => .waits s2 p.2
    | some l =>
      let s3 := dropAnswers d s2 asks
      match askFault l with
      | some f => .faults s3 f
      | none => .done s3 (takeAnswers s3 d gid p.2 l)

/-- The words with which an operation ends. -/
def endWords (s : State) (d : DieId) (gid : Nat) (o : CountedOp) : List (Nat × Nat × W32) :=
  match o.kind with
  | .load _ _ _ _ => loadWords s d gid o
  | _ => o.result

/-- VCNT_DECREMENT (R157): the oldest operation under VCNT completes and its result is in the registers. -/
def execVcntDecrement (g : GRef) (s : State) : Host.Outcome State Fault Refusal :=
  match issueAt s g with
  | none => ok s
  | some i =>
    match i.g.vq with
    | [] => ok s
    | o :: rest =>
      let fills : Bool := match o.kind with | .load _ _ _ false => o.access.any (fun a => a.got.isNone) | _ => false
      if opWaits s i.d o ∨ fills then ok s
      else
        match bringOn s i.d i.gid o with
        | .waits t p => ok (updGroup t i (fun g => { g with vq := p :: rest }))
        | .faults t f => ok (useFree (coreFault (updGroup t i (fun g => { g with vq := rest })) i.d i.gid f.1 f.2.1 f.2.2 none (some o.pc)))
        | .done t p =>
          ok (afterCount (updGroup (landResult t i (opScalar o) o (endWords t i.d i.gid p)) i (fun g => raiseFlags { g with vq := rest } p.flags)) i)

/-- SCNT_DECREMENT (R157, R222): the oldest operation under SCNT is visible in the die cache of the memory's die. -/
def execScntDecrement (g : GRef) (s : State) : Host.Outcome State Fault Refusal :=
  match issueAt s g with
  | none => ok s
  | some i =>
    match i.g.sq with
    | [] => ok s
    | o :: rest =>
      if opWaits s i.d o then ok s
      else
        match bringOn s i.d i.gid o with
        | .waits t p => ok (updGroup t i (fun g => { g with sq := p :: rest }))
        | .faults t f => ok (useFree (coreFault (updGroup t i (fun g => { g with sq := rest })) i.d i.gid f.1 f.2.1 f.2.2 none (some o.pc)))
        | .done t p => ok (afterCount (updGroup t i (fun g => raiseFlags { g with sq := rest } p.flags)) i)

/-- The oldest operation of a queue that has not been performed, performed where the free choice says that it is now (R157, R158; log 4): none
that waits for a row, or that faults. Its requests to other dies are issued. -/
def performNext (s : State) (d : DieId) (gid : Nat) (q : List CountedOp) : State × List CountedOp :=
  let pending (o : CountedOp) : Bool := !o.posted && (match o.kind with
    | .load _ _ _ c => c && o.access.any (fun a => a.got.isNone)
    | .atomic _ _ _ _ => true
    | .store _ => true
    | .fixed => false)
  match q.find? pending with
  | some o =>
    if Config.performs s.now o.serial ∧ ¬ opWaits s d o ∧ (accessFault s d o).isNone then
      let p := performOp (noteOp s d o) d gid o
      ((opAsks gid p.2).foldl (askDie d) p.1, q.map (fun x => if x.serial = o.serial then p.2 else x))
    else (s, q)
  | none => (s, q)

/-- What a nanosecond brings to a die's operations in flight. -/
def performOps (s : State) (d : DieId) : State :=
  (getCores s d).groups.foldl (fun t e =>
    match groupOf t d e.1 with
    | none => t
    | some g =>
      let v := performNext t d e.1 g.vq
      let w := performNext v.1 d e.1 g.sq
      setGroup w.1 d e.1 { g with vq := v.2, sq := w.2 }) s

/-- TCNT_DECREMENT (R157): the oldest texture operation's result is in the registers. -/
def execTcntDecrement (g : GRef) (s : State) : Host.Outcome State Fault Refusal :=
  match issueAt s g with
  | none => ok s
  | some i =>
    match i.g.tq with
    | [] => ok s
    | o :: rest => ok (afterCount (updGroup (landResult s i false o o.result) i (fun g => raiseFlags { g with tq := rest } o.flags)) i)

/-- MCNT_DECREMENT (R157): the oldest `mma`'s accumulator is in the registers. -/
def execMcntDecrement (g : GRef) (s : State) : Host.Outcome State Fault Refusal :=
  match issueAt s g with
  | none => ok s
  | some i =>
    match i.g.mq with
    | [] => ok s
    | o :: rest => ok (afterCount (updGroup (landResult s i false o o.result) i (fun g => raiseFlags { g with mq := rest } o.flags)) i)

/-! ### Tile memory (R166 to R168, R223) -/

/-- The tile allocation's byte `o` in the context's share on the core. -/
def tileCell (i : Issue) (o : Nat) : Nat := tileKey i.x.ctx i.b.core (i.b.tileOff * 1024 + o)

/-- Bytes of the block's tile allocation. -/
def tileRead (s : State) (i : Issue) (o n : Nat) : List Byte := (countUp o n).map (fun k => mget 0 (getCores s i.d).tile (tileCell i k))

/-- Bytes put into the block's tile allocation. -/
def tilePut (s : State) (i : Issue) (o : Nat) (bs : List Byte) : State :=
  let k := getCores s i.d
  setCores s i.d { k with tile := putCells k.tile (cellsAt (tileCell i o) bs) }

/-- A tile store of a group. A fragment group's stores to its tile's planes, other than through the blend path, have no defined effect (R261):
the bytes are free (log 4). -/
def tileWrite (s : State) (i : Issue) (o : Nat) (bs : List Byte) : State :=
  match i.x.geo.bind (fun w => w.tile) with
  | none => tilePut s i o bs
  | some _ => useFree (tilePut s i o ((countUp o bs.length).map (Config.freeByte s.freeCtr)))

/-- The tile offset of a lane (R223), modulo 2^64. -/
def tileAddr (s : State) (i : Issue) (w : Wd) (lane : Nat) : Nat :=
  ((((operand s i w 0 0 lane).toNat : Int) + immOf w) % (2 ^ 64 : Int)).toNat

/-- The first lane whose tile offset is misaligned or outside the allocation (R168, R223). -/
def tileFault (i : Issue) (bytes : Nat) (ls : List (Nat × Nat)) : Option (Nat × Nat) :=
  ls.findSome? (fun p =>
    if p.2 % bytes ≠ 0 then some (0x0316, p.2) else if i.x.tileKib * 1024 < p.2 + bytes then some (0x0314, p.2) else none)

/-- A tile-memory row: its operands checked and its lanes' offsets within the allocation. -/
def tileRow (row : Nat → Bool) (u : Wd → Use) (more : Wd → Bool) (g : GRef) (w e : W64) (s : State)
    (k : Issue → Wd → List (Nat × Nat) → State → State) : Host.Outcome State Fault Refusal :=
  runIsa row g w e s (fun i wd t => checked i wd (u wd) (more wd && !(srcScalar wd 0 && wd.s0 == 0x80)) t (fun t =>
    let ls := (actingLanes i wd).map (fun l => (l, tileAddr t i wd l))
    match tileFault i (sizeBytes (fldN wd.mod 4 2)) ls with
    | some f => .fault f.1 0 f.2 t
    | none => .next (k i wd ls t)))

/-- TLD (R223). -/
def execTld (g : GRef) (w e : W64) (s : State) : Host.Outcome State Fault Refusal :=
  tileRow (· == 0x1C0) (fun wd => { a := .reg 1, d := .v (sizeRegs (fldN wd.mod 4 2)), mods := 0x3C })
    (fun wd => decide (fldN wd.mod 4 2 ≤ 4) && (!wd.mod.testBit 5 || decide (fldN wd.mod 4 2 ≤ 1))) g w e s (fun i wd ls t =>
    let size := fldN wd.mod 4 2
    writeV t i (ls.flatMap (fun p => (countUp 0 (sizeRegs size)).map (fun r =>
      (wd.dst + r, p.1, loadWord (sizeBytes size) (wd.mod.testBit 5) (tileRead t i p.2 (sizeBytes size)) r)))))

/-- A tile atomic's operation in the coding of `atomicNew`, from its opcode (Table 8.13). -/
def tatomOp (op : Nat) : Nat :=
  match op with
  | 0x1C2 => 0
  | 0x1C3 => 4
  | 0x1C4 => 5
  | 0x1C5 => 6
  | 0x1C6 => 7
  | 0x1C7 => 8
  | 0x1C8 => 9
  | 0x1C9 => 10
  | 0x1CA => 1
  | 0x1CB => 2
  | _ => 3

/-- A tile atomic row (R167, R223): the lanes in ascending order, each old value reflecting the lanes before it. -/
def tatomRow (row : Nat → Bool) (cas : Bool) (g : GRef) (w e : W64) (s : State) : Host.Outcome State Fault Refusal :=
  tileRow row (fun _ => { a := .reg 1, b := .reg 1, c := if cas then .reg 1 else .no, d := .v 1, mods := 0x1C })
    (fun wd => fldN wd.mod 4 2 == 2) g w e s (fun i wd ls t =>
    let b (l : Nat) : Nat := (operand t i wd 1 0 l).toNat
    let c (l : Nat) : Nat := (operand t i wd 2 0 l).toNat
    let r := ls.foldl (fun (acc : State × List (Nat × Nat × W32) × Nat) p =>
      let old := leNat (tileRead acc.1 i p.2 4)
      (tileWrite acc.1 i p.2 (natLe 4 (atomicNew (tatomOp wd.op) 32 old (b p.1) (c p.1))),
       acc.2.1 ++ [(wd.dst, p.1, BitVec.ofNat 32 old)], acc.2.2 ||| atomicFlags (tatomOp wd.op) old (b p.1))) (t, [], 0)
    updGroup (writeV r.1 i r.2.1) i (fun g => raiseFlags g r.2.2))

/-- TATOM_INT (R223). -/
def execTatomInt (g : GRef) (w e : W64) (s : State) : Host.Outcome State Fault Refusal :=
  tatomRow (fun o => (decide (0x1C2 ≤ o) && decide (o ≤ 0x1C7)) || o == 0x1CB || o == 0x1CC) false g w e s
/-- TATOM_EXCH (R223). -/
def execTatomExch (g : GRef) (w e : W64) (s : State) : Host.Outcome State Fault Refusal := tatomRow (· == 0x1C8) false g w e s
/-- TATOM_CAS (R223). -/
def execTatomCas (g : GRef) (w e : W64) (s : State) : Host.Outcome State Fault Refusal := tatomRow (· == 0x1C9) true g w e s
/-- TATOM_ADD_F32 (R223). -/
def execTatomAddF32 (g : GRef) (w e : W64) (s : State) : Host.Outcome State Fault Refusal := tatomRow (· == 0x1CA) false g w e s

end Sys2Proof.Machine
end

