-- ==== Sys2Proof/Machine/Cords.lean ====
section
/-! DEFINITION. Cords (14, R352 to R364): training and width, flits and replay, classes and credits, transactions at both ends,
timeouts. -/

namespace Sys2Proof.Machine

/-! ### Ends -/

/-- A cord's two ends: die and end number. -/
def cordEnds (i : Nat) : List (DieId × Nat) :=
  let p := cordDies i
  [(p.1, endTo p.1 p.2), (p.2, endTo p.2 p.1)]

/-- A change applied to both ends of a cord. -/
def onEnds (s : State) (i : Nat) (f : CordEnd → CordEnd) : State := (cordEnds i).foldl (fun t p => setEnd t p.1 p.2 (f (endOf t p.1 p.2))) s

/-- A flag of CORD_ERRe raised on both ends of a cord. -/
def flagEnds (s : State) (i flag : Nat) : State := onEnds s i (fun x => { x with err := errRaise x.err s.now flag })

/-- An end as a fresh link finds it: its records stay, and its requests. One that was not sent is answered TARGET_DARK; one that was goes on
until its 20 us are over (R359, R364). -/
def freshEnd (x : CordEnd) : CordEnd :=
  let y := failAsks x (fun t => x.waiting.any (fun w => w.hdr.tag.toNat == t && !(w.hdr.cls == 2)))
  { endReset with err := x.err, checkers := x.checkers, replayLogged := x.replayLogged, toLogged := x.toLogged, toCount := x.toCount,
                  repCount := x.repCount, asks := y.asks, answers := y.answers }

/-- Whether a cord carries flits now: lit, UP or FENCED, not training. -/
def cordRuns (s : State) (i : Nat) : Bool :=
  let c := cordOf s i
  s.board.powerOk && c.lit && !c.training && (c.state == .up || c.state == .fenced)

/-! ### Training (R353, R354, R359) -/

/-- Whether kiln holds a cord in pattern mode: either end's KILN_LINKe.MODE is not 0 (R429). -/
def patternMode (s : State) (i : Nat) : Bool := (cordEnds i).any (fun p => decide (fld (lget 0 (getKiln s p.1).links p.2) 2 0 ≠ 0))

/-- A retrain begins (R353, R359): both ends of a cord that was UP or FENCED set RETRAIN. -/
def retrainCord (s : State) (i : Nat) : State :=
  let c := cordOf s i
  let s1 := if c.state = .up ∨ c.state = .fenced then flagEnds s i 1 else s
  setCord s1 i { c with training := true, since := s.now }

/-- CORD_TRAIN (R353): a cord whose L-domain has been lit begins its training. -/
def execCordTrain (a b : DieId) (s : State) : Host.Outcome State Fault Refusal :=
  let i := cordIdx a b
  let c := cordOf s i
  event (decide (a < b) && s.board.powerOk && c.lit && !c.training && c.state == .dark && !patternMode s i) s
    (setCord s i { c with training := true, since := s.now })

/-- Failed lanes of a range of data lanes. -/
def failedIn (failed lo n : Nat) : Nat := popcount n (failed / 2 ^ lo)

/-- The width that failed lanes leave (R354): its code and the lanes repaired; 0 where no choice is whole. -/
def cordWidth (failed : Nat) : Nat × Nat :=
  let choices := [(3, 0, 64), (2, 0, 32), (2, 32, 32), (1, 0, 16), (1, 16, 16), (1, 32, 16), (1, 48, 16)]
  match choices.find? (fun c => decide (failedIn failed c.2.1 c.2.2 ≤ 4)) with
  | some c => (c.1, failedIn failed c.2.1 c.2.2)
  | none => (0, 0)

/-- Serials exchanged at a link-up (R368, Table 14.14). -/
def noteSerials (s : State) (i : Nat) : State :=
  let p := cordDies i
  let put (t : State) (d n : DieId) : State :=
    let r := getCordRegs t d
    setCordRegs t d { r with serials := lset r.serials n.val (getOtp t n).serial }
  put (put s p.1 p.2) p.2 p.1

/-- A training ends (R354, R359): a whole width brings the cord up, with unacknowledged flits to be resent where it was up before;
none leaves it DOWN with nothing in flight. -/
def trainDone (s : State) (i : Nat) (failed : Nat) : State :=
  let c := cordOf s i
  let (w, rep) := cordWidth failed
  let kept := c.state = .up ∨ c.state = .fenced
  if w = 0 then
    let s1 := setCord s i { dropCord c with training := false, state := .down, width := 0, repaired := 0, failed := failed }
    let s2 := flagEnds (onEnds s1 i freshEnd) i 3
    (cordEnds i).foldl (fun t p => cordLog t p.1 p.2 0x0903 p.2 failed) s2
  else
    let s1 := setCord s i { c with training := false, state := .up, width := w, repaired := rep, failed := failed }
    let s2 := onEnds s1 i (fun x => if kept then { x with resend := x.replay.map (fun r => r.1) } else freshEnd x)
    let s3 := if kept then s2 else noteSerials s2 i
    if w < 3 then (cordEnds i).foldl (fun t p => cordLog t p.1 p.2 0x0902 (p.2 + 256 * w) failed) (flagEnds s3 i 2) else s3

/-! ### Flits (R356 to R358) -/

/-- A header slot (Table 14.4). -/
def hdrSlot (h : CordHdr) : BitVec 128 :=
  BitVec.ofNat 128 (h.typ.toNat + h.cls.toNat * 2 ^ 8 + h.len.toNat * 2 ^ 11 + h.tag.toNat * 2 ^ 16 + h.status.toNat * 2 ^ 28
    + h.addr.toNat * 2 ^ 32 + h.arg.toNat * 2 ^ 72)

/-- A header read from its slot. -/
def hdrOf (x : BitVec 128) : CordHdr :=
  let f (hi lo : Nat) : Nat := fldN x.toNat hi lo
  { typ := BitVec.ofNat 8 (f 7 0), cls := BitVec.ofNat 3 (f 10 8), len := BitVec.ofNat 4 (f 14 11), tag := BitVec.ofNat 12 (f 27 16),
    status := BitVec.ofNat 4 (f 31 28), addr := BitVec.ofNat 40 (f 71 32), arg := BitVec.ofNat 56 (f 127 72) }

/-- Data bytes as slots. -/
def dataSlots (n : Nat) (data : List Byte) : List (BitVec 128) := (countUp 0 n).map (fun k => BitVec.ofNat 128 (leNat ((data.drop (16 * k)).take 16)))

/-- A transaction's slots. -/
def txSlots (t : CordTx) : List (BitVec 128) := hdrSlot t.hdr :: dataSlots t.hdr.len.toNat t.data

/-- Class and lengths of a type (Table 14.5). -/
def typeInfo (t : Nat) : Option (Nat × List Nat) :=
  match t with
  | 0x01 => some (1, [0])
  | 0x02 => some (1, [4])
  | 0x03 => some (1, [5])
  | 0x04 => some (1, [1])
  | 0x05 => some (1, [1])
  | 0x06 => some (0, [4])
  | 0x07 => some (0, [5])
  | 0x08 => some (1, [0])
  | 0x09 => some (1, [5])
  | 0x10 => some (2, [4, 8])
  | 0x11 => some (2, [0])
  | 0x12 => some (2, [1])
  | 0x13 => some (2, [0])
  | 0x20 => some (3, [1, 2, 3, 4, 5, 6, 7, 8])
  | 0x21 => some (3, [0])
  | 0x30 => some (4, [0, 1, 2, 3, 4, 5, 6, 7, 8])
  | 0x31 => some (4, [2])
  | 0x32 => some (4, [1])
  | _ => none

/-- Whether a header slot keeps Tables 14.4 and 14.5. -/
def hdrLegal (x : BitVec 128) : Bool :=
  let h := hdrOf x
  let t := h.typ.toNat
  let a := h.addr.toNat
  match typeInfo t with
  | none => false
  | some (c, lens) =>
    h.cls.toNat == c && decide (h.len.toNat ∈ lens) && !(x.toNat.testBit 15)
      && (if 0x10 ≤ t ∧ t ≤ 0x13 then decide (h.status.toNat ≤ 4) else h.status == 0)
      && (if 1 ≤ t ∧ t ≤ 7 then a % 64 == 0
          else if t = 8 ∨ t = 9 then a % 64 == 0 && decide (0x100000 ≤ a) && decide (a ≤ 0x7FFFFF) else a == 0)

/-- The first 248 bytes of a flit (Table 14.2). -/
def flitBytes (f : Flit) : List Byte :=
  let cr := (f.credit.zipIdx).foldl (fun acc c => acc + c.1.toNat * 2 ^ (32 + 4 * c.2)) 0
  natLe 8 (f.seq.toNat + f.ack.toNat * 2 ^ 12 + b2n f.nak * 2 ^ 24 + b2n f.idle * 2 ^ 25 + cr)
    ++ f.payload.flatMap (fun p => natLe 16 p.toNat)

/-- A flit's CRC (R356). -/
def flitCrc (f : Flit) : W64 := crc64 (2 ^ 64 - 1) (flitBytes f)

/-- Slots of a transaction. -/
def txSize (t : CordTx) : Nat := 1 + t.hdr.len.toNat

/-- The next transaction that may be sent (R360): C0, C4, then C2, C1 and C3 in rotation after the class sent last, each with credits
for all of its slots; a FENCED cord passes C4 only. -/
def nextTx (x : CordEnd) (fenced : Bool) (room : Nat) : Option CordTx :=
  let rot := match x.lastClass with | 2 => [1, 3, 2] | 1 => [3, 2, 1] | _ => [2, 1, 3]
  let order := if fenced then [4] else [0, 4] ++ rot
  let first (c : Nat) : Option CordTx := x.waiting.find? (fun t => t.hdr.cls.toNat == c)
  (order.filterMap first).find? (fun t => decide (txSize t ≤ lget 0 x.credits t.hdr.cls.toNat) && decide (txSize t ≤ room))

/-- Whole transactions packed into the slots of a flit. -/
def packTx (fenced : Bool) : Nat → Nat → CordEnd → List (BitVec 128) → CordEnd × List (BitVec 128)
  | 0, _, x, acc => (x, acc)
  | fuel + 1, room, x, acc =>
    match nextTx x fenced room with
    | none => (x, acc)
    | some t =>
      let c := t.hdr.cls.toNat
      let y : CordEnd := { x with waiting := x.waiting.erase t, credits := lset x.credits c (lget 0 x.credits c - txSize t),
                                  lastClass := if c ∈ [1, 2, 3] then c else x.lastClass }
      packTx fenced fuel (room - txSize t) y (acc ++ txSlots t)

/-- The place of Table 9.6 of a bin record. -/
def binBytes (r : BinRec) : List Byte :=
  natLe 16 (r.prim + r.tiles * 2 ^ 32 + r.sx * 2 ^ 48 + r.sy * 2 ^ 55 + r.src * 2 ^ 62 + r.data * 2 ^ 64 + r.draw * 2 ^ 96 + b2n r.ordered * 2 ^ 116)

/-- The transaction that carries the items at the head of a bin stream (R251, Table 14.5): up to eight records, or a marker; how many items. -/
def binTx (l : List BinItem) : Option (CordTx × Nat) :=
  let tx (typ len arg : Nat) (data : List Byte) : CordTx :=
    { hdr := { typ := BitVec.ofNat 8 typ, cls := 3, len := BitVec.ofNat 4 len, tag := 0, status := 0, addr := 0, arg := BitVec.ofNat 56 arg },
      data := data }
  match l with
  | [] => none
  | .mark c :: _ => some (tx 0x21 0 (c % 2 ^ 32) [], 1)
  | .record _ :: _ =>
    let rs := leadRecords l
    some (tx 0x20 rs.length 0 (rs.flatMap (fun i => match i with | .record r => binBytes r | .mark _ => [])), rs.length)

/-- The next transaction of the bin class put onto an end that has none waiting: from the first pass of the die that has items for the peer. -/
def pullBins (s : State) (d : DieId) (e : Nat) : State :=
  let n := endPeer d e
  let x := endOf s d e
  if x.waiting.any (fun t => t.hdr.cls == 3) then s
  else
    match (getGeo s d).passes.find? (fun p => !(qget p.out n).isEmpty) with
    | none => s
    | some p =>
      match binTx (qget p.out n) with
      | none => s
      | some (t, k) =>
        let q := { p with out := qset p.out n ((qget p.out n).drop k), away := qset p.away n (qget p.away n ++ (qget p.out n).take k) }
        setEnd (setPass s d q) d e { x with waiting := x.waiting ++ [t] }

/-- FLIT_TRANSMIT (R356, R357): a flit to be replayed goes first; otherwise waiting transactions, while fewer than 64 flits are
unacknowledged; otherwise an idle flit with acknowledgement and credits. -/
def execFlitTransmit (d : DieId) (e : Fin 3) (s0 : State) : Host.Outcome State Fault Refusal :=
  let i := endCord d e.val
  let s := if cordRuns s0 i && (cordOf s0 i).state == .up then pullBins s0 d e.val else s0
  let x := endOf s d e.val
  match x.resend with
  | f :: rest => event (cordRuns s i) s0 (setEnd s d e.val { x with resend := rest, sent := some f })
  | [] =>
    let can := decide (x.replay.length < 64)
    let p := if can then packTx ((cordOf s i).state == .fenced) 15 15 x [] else (x, [])
    let idle := p.2.isEmpty
    let cr := x.freed.map (fun n => BitVec.ofNat 4 (min 15 n))
    let f0 : Flit := { seq := BitVec.ofNat 12 x.txSeq, ack := BitVec.ofNat 12 (x.rxNext + 4095), nak := x.sendNak, idle := idle,
                       credit := cr, payload := padTo 15 0 p.2, crc := 0 }
    let f : Flit := { f0 with crc := flitCrc f0 }
    let y : CordEnd := { p.1 with freed := x.freed.map (fun n => n - 15), sendNak := false, sent := some f,
                                  sendAck := (x.rxNext + 4095) % 4096 }
    event (cordRuns s i) s0 (setEnd s d e.val (if idle then y
      else { y with txSeq := (x.txSeq + 1) % 4096, replay := x.replay ++ [(f, s.now, 0)] }))

/-- A replay by end `e` of die `d` (R357, R359): every unacknowledged flit is resent in order; REPLAY is set and counted on both ends;
more than 16 replays in 1 ms, or a fourth resend of one flit, retrain the cord. -/
def replayFrom (s : State) (d : DieId) (e : Nat) : State :=
  let i := endCord d e
  let x := endOf s d e
  let rs := s.now :: x.replays.filter (fun t => decide (s.now < t + 1000000))
  let due := match x.replayLogged with | some t => decide (t + 1000000000 ≤ dtime s d) | none => true
  let y : CordEnd := { x with resend := x.replay.map (fun r => r.1), replay := x.replay.map (fun r => (r.1, s.now, r.2.2 + 1)), replays := rs,
                              repCount := if due then 0 else x.repCount + 1, replayLogged := if due then some (dtime s d) else x.replayLogged }
  let s1 := onEnds (setEnd s d e y) i (fun z => { z with err := errCount (errRaise z.err s.now 0) s.now 31 16 1 })
  let s2 := if due then cordLog s1 d e 0x0901 e (x.repCount + 1) else s1
  if decide (16 < rs.length) || y.replay.any (fun r => decide (4 ≤ r.2.2)) then retrainCord s2 i else s2

/-- Received slots taken apart into transactions: what remains of an unfinished one, the whole ones, and the first header that is
illegal. An all-zero header slot is empty. -/
def parseSlots : Nat → List (BitVec 128) → List CordTx → List (BitVec 128) × List CordTx × Option (BitVec 128)
  | 0, l, acc => (l, acc, none)
  | _ + 1, [], acc => ([], acc, none)
  | fuel + 1, h :: r, acc =>
    if h = 0 then parseSlots fuel r acc
    else if ¬ hdrLegal h then ([], acc, some h)
    else
      let n := (hdrOf h).len.toNat
      if r.length < n then (h :: r, acc, none)
      else parseSlots fuel (r.drop n) (acc ++ [{ hdr := hdrOf h, data := (r.take n).flatMap (fun p => natLe 16 p.toNat) }])

/-- A good flit in sequence (R357): its acknowledgement and credits are taken, and its transactions delivered. -/
def acceptFlit (s : State) (d : DieId) (e : Nat) (f : Flit) : State :=
  let x := endOf s d e
  let acked := match x.replay.findIdx? (fun r => r.1.seq == f.ack) with | some k => x.replay.drop (k + 1) | none => x.replay
  let cr := (x.credits.zip f.credit).map (fun p => p.1 + p.2.toNat)
  let y : CordEnd := { x with gap := false, replay := acked, credits := cr,
                              resend := x.resend.filter (fun r => acked.any (fun a => a.1 == r)) }
  let p := if f.idle then (y.slots, [], none) else parseSlots 64 (y.slots ++ f.payload) []
  let z : CordEnd := { y with slots := p.1, inbox := y.inbox ++ p.2.1, rxNext := if f.idle then y.rxNext else (y.rxNext + 1) % 4096 }
  let s1 := setEnd s d e z
  let s2 := if f.nak then replayFrom s1 d e else s1
  match p.2.2 with
  | some h => retrainCord (cordLog s2 d e 0x0904 e (h.toNat % 2 ^ 64)) (endCord d e)
  | none => s2

/-- FLIT_RECEIVE (R357): a flit whose CRC fails, or whose number is not the next expected, is discarded, with one NAK a gap. -/
def execFlitReceive (d : DieId) (e : Fin 3) (f : Flit) (s : State) : Host.Outcome State Fault Refusal :=
  let x := endOf s d e.val
  let good := f.crc == flitCrc f && f.seq.toNat == x.rxNext
  event (cordRuns s (endCord d e.val)) s
    (if good then acceptFlit s d e.val f else setEnd s d e.val { x with gap := true, sendNak := x.sendNak || !x.gap })

/-- FLIT_ACK_TIMEOUT (R357): a flit not acknowledged within 2 us is resent as on a NAK. -/
def execFlitAckTimeout (d : DieId) (e : Fin 3) (s : State) : Host.Outcome State Fault Refusal :=
  event (cordRuns s (endCord d e.val) && (endOf s d e.val).replay.any (fun r => decide (r.2.1 + 2000 ≤ s.now))) s (replayFrom s d e.val)

/-! ### Transactions at the receiving die (R288, R309, R360 to R363) -/

/-- Whether an earlier transaction must be applied first (R360): in C0 and C3 any earlier one of the class, in C1 one to the same
64-byte unit. -/
def blocks (a b : CordTx) : Bool :=
  let c := b.hdr.cls.toNat
  a.hdr.cls == b.hdr.cls && (c == 0 || c == 3 || (c == 1 && a.hdr.addr.toNat / 64 == b.hdr.addr.toNat / 64))

/-- Whether a transaction has been delivered and no earlier one must come first. -/
def deliverable (x : CordEnd) (t : CordTx) : Bool :=
  decide (t ∈ x.inbox) && !((x.inbox.takeWhile (fun a => !(decide (a = t)))).any (fun a => blocks a t))

/-- A delivered transaction leaves its slots, which are freed for the sender (R360). -/
def takeTx (s : State) (d : DieId) (e : Nat) (t : CordTx) : State :=
  let x := endOf s d e
  let c := t.hdr.cls.toNat
  setEnd s d e { x with inbox := x.inbox.erase t, freed := lset x.freed c (lget 0 x.freed c + txSize t) }

/-- A response put behind what waits on an end. -/
def respond (s : State) (d : DieId) (e : Nat) (typ len tag status arg : Nat) (data : List Byte) : State :=
  let x := endOf s d e
  let h : CordHdr := { typ := BitVec.ofNat 8 typ, cls := 2, len := BitVec.ofNat 4 len, tag := BitVec.ofNat 12 tag,
                       status := BitVec.ofNat 4 status, addr := 0, arg := BitVec.ofNat 56 arg }
  setEnd s d e { x with waiting := x.waiting ++ [{ hdr := h, data := data }] }

/-- A transaction row: it acts where its type is `typ`, it has been delivered at the end and its turn has come, on a cord that is UP. One of
memory waits for the copy of its row (R291). -/
def txRow (typ : Nat) (d : DieId) (e : Nat) (h : CordHdr) (data : List Byte) (s : State) (f : State → State) : Host.Outcome State Fault Refusal :=
  let t : CordTx := { hdr := h, data := data }
  event (h.typ.toNat == typ && deliverable (endOf s d e) t && cordRuns s (endCord d e) && (cordOf s (endCord d e)).state == .up
      && !(decide (1 ≤ typ) && decide (typ ≤ 7) && rowWaits s h.addr.toNat 64)) s
    (f (takeTx s d e t))

/-- The enabled bytes of a WRP, DRWP or SWRP (Table 14.5): mask in the first slot, data in the next four. -/
def maskedCells (base : Nat) (data : List Byte) : List Host.Cell :=
  let m := leNat (data.take 8)
  (cellsAt base ((data.drop 16).take 64)).filter (fun c => m.testBit (c.1 - base))

/-- RD (R288): 64 or 128 bytes read at their home die. -/
def execRd (d : DieId) (e : Fin 3) (h : CordHdr) (data : List Byte) (s : State) : Host.Outcome State Fault Refusal :=
  txRow 0x01 d e.val h data s (fun t =>
    let n := if h.arg.toNat.testBit 0 then 128 else 64
    let u := noteRead t h.addr.toNat n
    respond u d e.val 0x10 (n / 16) h.tag.toNat (if poisonIn u h.addr.toNat n then 2 else 0) 0 (memRead u h.addr.toNat n))

/-- A write of 64 bytes acknowledged. -/
def txWrite (typ : Nat) (d : DieId) (e : Nat) (h : CordHdr) (data : List Byte) (s : State) : Host.Outcome State Fault Refusal :=
  txRow typ d e h data s (fun t => respond (memWrite t h.addr.toNat (data.take 64)) d e 0x11 0 h.tag.toNat 0 0 [])

/-- A write under a mask acknowledged. -/
def txMasked (typ : Nat) (d : DieId) (e : Nat) (h : CordHdr) (data : List Byte) (s : State) : Host.Outcome State Fault Refusal :=
  txRow typ d e h data s (fun t => respond (writeCells t (maskedCells h.addr.toNat data)) d e 0x11 0 h.tag.toNat 0 0 [])

/-- WR (R288). -/
def execWr (d : DieId) (e : Fin 3) (h : CordHdr) (data : List Byte) (s : State) : Host.Outcome State Fault Refusal := txWrite 0x02 d e.val h data s

/-- WRP (R309). -/
def execWrp (d : DieId) (e : Fin 3) (h : CordHdr) (data : List Byte) (s : State) : Host.Outcome State Fault Refusal := txMasked 0x03 d e.val h data s

/-- DRW (R46). -/
def execDrw (d : DieId) (e : Fin 3) (h : CordHdr) (data : List Byte) (s : State) : Host.Outcome State Fault Refusal := txWrite 0x06 d e.val h data s

/-- DRWP (R46). -/
def execDrwp (d : DieId) (e : Fin 3) (h : CordHdr) (data : List Byte) (s : State) : Host.Outcome State Fault Refusal := txMasked 0x07 d e.val h data s

/-- ATOM (R292): applied at the home die. ARG bits [11:0] hold the opcode, [14:12] the size code, [21:16] the word's place in the
unit (log 12). -/
def execAtom (d : DieId) (e : Fin 3) (h : CordHdr) (data : List Byte) (s : State) : Host.Outcome State Fault Refusal :=
  txRow 0x04 d e.val h data s (fun t =>
    let arg := h.arg.toNat
    let n := if fldN arg 14 12 = 3 then 8 else 4
    let pa := h.addr.toNat + fldN arg 21 16 / n * n
    let u := noteRead t pa n
    if poisonAt u pa then respond u d e.val 0x12 1 h.tag.toNat 2 0 (rep 16 0)
    else
      let p := applyAtomic u (fldN arg 11 0 - 0x280) (8 * n) pa (leNat (data.take n)) (leNat ((data.drop 8).take n))
      respond p.1 d e.val 0x12 1 h.tag.toNat 0 0 (natLe 16 p.2))

/-- SIG (R81): a fence signal applied at the home die; the outcome goes back. ARG bits [5:0] hold the word's place in the unit (log 12). -/
def execSig (d : DieId) (e : Fin 3) (h : CordHdr) (data : List Byte) (s : State) : Host.Outcome State Fault Refusal :=
  txRow 0x05 d e.val h data s (fun t =>
    let pa := h.addr.toNat + fldN h.arg.toNat 5 0 / 8 * 8
    let u := noteRead t pa 8
    if poisonAt u pa then respond u d e.val 0x13 0 h.tag.toNat 2 0 []
    else
      let (o, t1) := applySignal u pa (le64 data)
      respond t1 d e.val 0x13 0 h.tag.toNat 0 o [])

/-- Staging offset of a port-store offset. -/
def stagingOff (a : Nat) : Nat := a - 0x100000

/-- SRD (R362): a staging read checked against its piece's tag; a failing staging word is reported (R411). -/
def execSrd (d : DieId) (e : Fin 3) (h : CordHdr) (data : List Byte) (s : State) : Host.Outcome State Fault Refusal :=
  txRow 0x08 d e.val h data s (fun t =>
    let o := stagingOff h.addr.toNat
    if stageOk t d o 64 (h.arg.toNat % 16) then
      respond (reportSpots t ((countUp o 64).map (fun k => .stage d k))) d e.val 0x10 4 h.tag.toNat 0 0 (stageRead t d o 64)
    else respond t d e.val 0x10 4 h.tag.toNat 4 0 (rep 64 0))

/-- SWRP (R362): a staging write checked against its piece's tag. -/
def execSwrp (d : DieId) (e : Fin 3) (h : CordHdr) (data : List Byte) (s : State) : Host.Outcome State Fault Refusal :=
  txRow 0x09 d e.val h data s (fun t =>
    let o := stagingOff h.addr.toNat
    if stageOk t d o 64 (h.arg.toNat % 16) then
      respond ((maskedCells o data).foldl (fun x c => stageWrite x d c.1 [c.2]) t) d e.val 0x11 0 h.tag.toNat 0 0 []
    else respond t d e.val 0x11 0 h.tag.toNat 4 0 [])

/-! ### The aperture drain (R46, R47) -/

/-- A dropped aperture write (R47): counted, with one entry per window per millisecond. The entry's detail takes the window's base as
its channel address, with space 0 and count 0 (DESIGN CHOICE, log 42). -/
def dropWrite (s : State) (d : DieId) (w : Nat) (base : W64) (dark : Bool) : State :=
  let h := getHregs s d
  let p := getPort s d
  let s1 := setHregs s d { h with aptStatus := if dark then bumpFld h.aptStatus 31 16 1 else bumpFld h.aptStatus 15 0 1 }
  let again := match mfind p.dropLogged w with | some t => decide (dtime s d < t + 1000000) | none => false
  if again then s1
  else
    logEntry (setPort s1 d { p with dropLogged := mins p.dropLogged w (dtime s d) }) d
      { code := 0x0103, kind := 0x01, tenant := some (fld base 7 4), detail := detA (0x40000000 + w * 2 ^ 25) (if dark then 2 else 1) 0 w 0 }

/-- A write leaves the drain's buffer. -/
def dropDrain (s : State) (d : DieId) (serial : Nat) : State :=
  let p := getPort s d
  setPort s d { p with drain := p.drain.filter (fun i => !(i.serial == serial)) }

/-! ### Responses at the requester (R361, R363, R364) -/

/-- Whether the unit that asked still waits for its answer: not the fill of a line that is no longer wanted, an operation that is gone, or a
transfer that has ended. -/
def stillAsks (s : State) (d : DieId) : Asker → Bool
  | .fill m u => (nearOf s d m).fills.any (fun f => f.line == u / 2)
  | .op gid k _ => (match groupOf s d gid with | some g => (g.vq ++ g.sq).any (fun o => o.serial == k) | none => false)
  | .dma ch sub _ => (match (chanOf s d ch).active with | some j => j.sub == sub | none => false)
  | .drain k _ => (getPort s d).drain.any (fun i => i.serial == k)
  | .signal k => (mfind s.signals k).isSome
  | .stoker f q n _ => (frameOf' s d f).busy && (frameOf' s d f).queue == q && (frameOf' s d f).count == n

/-- What an answer does at once at its unit: a signal's reaches who sent it (R97, R98, R101), and a drain write that every die has acknowledged
leaves the buffer; one that failed counts as dropped (R47). Any other waits on the end for its unit. -/
def answered (s : State) (d : DieId) (e : Nat) (a : Answer) (outcome : Nat) : State :=
  if ¬ stillAsks s d a.who then s
  else
    match a.who with
    | .signal k =>
      match mfind s.signals k with
      | some x => signalDone { s with signals := mdel s.signals k } x
          (match a.status with | 0 => outcome | 2 => 3 | 3 => 5 | _ => 4)
      | none => s
    | .drain k _ =>
      let more := (endOf s d e).asks.any (fun z => match z.2.who with | .drain j _ => j == k | _ => false)
      let s1 := if more then s else dropDrain s d k
      match a.status, (getPort s d).drain.find? (fun i => i.serial == k) with
      | 0, _ => s1
      | _, some i => dropWrite s1 d i.window i.base true
      | _, none => s1
    | _ => let x := endOf s d e; setEnd s d e { x with answers := x.answers ++ [a] }

/-- A response taken: its request ends, the room kept for it is free (R361), and its unit has its answer. One that comes after its timeout is
discarded (R364). -/
def takeResponse (s : State) (d : DieId) (e : Nat) (h : CordHdr) (data : List Byte) : State :=
  let x := endOf s d e
  match mfind x.asks h.tag.toNat with
  | some q =>
    answered (setEnd s d e { x with asks := mdel x.asks h.tag.toNat }) d e { who := q.who, status := h.status.toNat, data := data }
      (fldN h.arg.toNat 1 0)
  | none => setEnd s d e { x with late := x.late.erase h.tag.toNat }

/-- RD_RSP (R363). -/
def execRdRsp (d : DieId) (e : Fin 3) (h : CordHdr) (data : List Byte) (s : State) : Host.Outcome State Fault Refusal :=
  txRow 0x10 d e.val h data s (fun t => takeResponse t d e.val h data)

/-- WR_ACK (R363). -/
def execWrAck (d : DieId) (e : Fin 3) (h : CordHdr) (data : List Byte) (s : State) : Host.Outcome State Fault Refusal :=
  txRow 0x11 d e.val h data s (fun t => takeResponse t d e.val h data)

/-- ATOM_RSP (R363). -/
def execAtomRsp (d : DieId) (e : Fin 3) (h : CordHdr) (data : List Byte) (s : State) : Host.Outcome State Fault Refusal :=
  txRow 0x12 d e.val h data s (fun t => takeResponse t d e.val h data)

/-- SIG_ACK (R97): the outcome reaches the signal that waits for it, unless it has timed out. -/
def execSigAck (d : DieId) (e : Fin 3) (h : CordHdr) (data : List Byte) (s : State) : Host.Outcome State Fault Refusal :=
  txRow 0x13 d e.val h data s (fun t => takeResponse t d e.val h data)

/-! ### Timeouts (R364) -/

/-- TRANSACTION_TIMEOUT (R364): a request of type `typ` whose response has not arrived 20 us after it was issued completes at its requester with TIMEOUT. What
it has asked for is not cancelled (R126): it may still take effect, and its response is discarded. -/
def execTransactionTimeout (d : DieId) (e : Fin 3) (tag : BitVec 12) (typ : Byte) (s : State) : Host.Outcome State Fault Refusal :=
  let x := endOf s d e.val
  match mfind x.asks tag.toNat with
  | none => ok s
  | some q =>
    let s1 := noteTimeout (setEnd s d e.val { x with asks := mdel x.asks tag.toNat }) d e.val (some tag.toNat)
    event (s.board.powerOk && q.typ == typ.toNat && decide (q.at_ + 20000 ≤ s.now)) s (answered s1 d e.val { who := q.who, status := 3, data := [] } 0)

/-! ### Bin records and markers (R251, R252, Table 14.5) -/

/-- The first transaction of the bin class that die `dst` has received from `src`. -/
def binHead (s : State) (src dst : DieId) : Option CordTx := (endOf s dst (endTo dst src)).inbox.find? (fun t => t.hdr.cls == 3)

/-- Whether a received transaction is the one that carries the items a pass has on their way. -/
def carries (t : CordTx) (l : List BinItem) : Bool := match binTx l with | some (x, _) => x == t | none => false

/-- What arrives of a pass that has ended, or has no part on the die, is dropped, and its slots are free. -/
def dropStray (s : State) (src dst : DieId) (t : CordTx) : State :=
  if (getGeo s src).passes.any (fun p => !p.done && !p.aborted && carries t (qget p.away dst)) then s else takeTx s dst (endTo dst src) t

/-- The items that a received transaction carries moved to the merge of the receiving die. -/
def moveItems (s : State) (src dst : DieId) (p q : GeoPass) (t : CordTx) (n : Nat) : State :=
  let items := (qget p.away dst).take n
  let s1 := setPass (takeTx s dst (endTo dst src) t) src { p with away := qset p.away dst ((qget p.away dst).drop n) }
  let q1 := { q with inbox := qset q.inbox src (qget q.inbox src ++ items) }
  settlePass q.ctx (setPass s1 dst (mergePass q1 (chunksIn (drawTable s dst q))))

/-- A transaction of the bin class that has arrived: of type `typ`, for pass `pass` of the die that sent it. -/
def binRow (typ : Nat) (src dst : DieId) (pass : W32) (s : State) : Host.Outcome State Fault Refusal :=
  let i := cordIdx src dst
  match binHead s src dst with
  | none => ok s
  | some t =>
    if src = dst ∨ ¬ cordRuns s i ∨ (cordOf s i).state ≠ .up ∨ t.hdr.typ.toNat ≠ typ then ok s
    else
      match passOf s src pass.toNat with
      | none => ok (dropStray s src dst t)
      | some p =>
        match mateOf s dst p, binTx (qget p.away dst) with
        | some q, some (x, n) =>
          if x ≠ t ∨ ¬ dst ∈ litOf q then ok (dropStray s src dst t)
          else if typ = 0x20 ∧ poolFree q < 16 * n then ok (poolShort s dst q (chunksIn (drawTable s dst q)))
          else ok (moveItems s src dst p q t n)
        | _, _ => ok (dropStray s src dst t)

/-- BIN (R251): bin records arrive at the owning die and wait for or enter the merge. -/
def execBin (src dst : DieId) (pass : W32) (s : State) : Host.Outcome State Fault Refusal := binRow 0x20 src dst pass s

/-- BIN_MARK (R252): a chunk-done marker arrives, and the merge may pass the chunk. -/
def execBinMark (src dst : DieId) (pass : W32) (s : State) : Host.Outcome State Fault Refusal := binRow 0x21 src dst pass s

/-- A control transaction of type `typ` from die `n` that die `d` has received leaves its slots as the message it brings is taken (R360). -/
def takeControl (s : State) (d n : DieId) (typ : Nat) : State :=
  match (endOf s d (endTo d n)).inbox.find? (fun t => t.hdr.typ.toNat == typ) with
  | some t => takeTx s d (endTo d n) t
  | none => s

/-! ### Registers (Tables 14.12, 14.13) -/

/-- CORD_ENDe. -/
def cordEndReg (s : State) (d : DieId) (e : Nat) : W64 :=
  let c := cordOf s (endCord d e)
  let st := match c.state with | .dark => 0 | .up => 1 | .fenced => 2 | .down => 3
  packFields [(st, 0), (c.width, 2), (c.repaired, 4), (b2n c.training, 7), ((endPeer d e).val, 8)]

/-- A write of CORD_ERRe. -/
def wrCordErr (s : State) (d : DieId) (e : Nat) (v : W64) : State :=
  let x := endOf s d e
  setEnd s d e { x with err := errClear x.err s.now v 16 [(0, 31, 16), (4, 47, 32)] }

/-- A write of CORD_CMD RETRAIN (R353): on a DARK cord only where it joins D0 to a held-dark die, whose domain is then lit for the
training and the check. -/
def wrCordCmd (s : State) (d : DieId) (e : Nat) : State :=
  let i := endCord d e
  let c := cordOf s i
  let p := cordDies i
  if c.state ≠ .dark then (if patternMode s i ∨ c.training then s else retrainCord s i)
  else if p.1 = 0 ∧ (mfind s.agree.held p.2.val).isSome then
    (if c.training then s else setCord s i { c with lit := true, checked := true, training := true, since := s.now })
  else countDiscard s d

/-- CORD_RETRAIN (R353). -/
def execCordRetrain (d : DieId) (e : Fin 3) (s : State) : Host.Outcome State Fault Refusal := ok (viaSlot s d 13 0 (fun t => wrCordCmd t d e.val))

end Sys2Proof.Machine
end

