-- ==== Sys2Proof/Machine/Agreement.lean ====
section
/-! DEFINITION. Agreement among dies (14, R365 to R373, R450): the joined set, fencing and holding dark, agreement checks, engine
messages, time alignment. -/

namespace Sys2Proof.Machine

/-! ### The joined set (R365, R366) -/

/-- Whether a cord is physically up, whatever traffic a fence lets pass. -/
def physUp (s : State) (i : Nat) : Bool :=
  let c := cordOf s i
  c.lit && (c.state == .up || c.state == .fenced)

/-- A bit set or cleared in a mask. -/
def putBit (m n : Nat) (v : Bool) : Nat := if v then m ||| 2 ^ n else if m.testBit n then m - 2 ^ n else m

/-- Whether a die is fenced. -/
def isFenced (s : State) (n : DieId) : Bool := (mfind s.agree.fenced n.val).isSome

/-- Whether a die is held dark. -/
def isHeld (s : State) (n : DieId) : Bool := (mfind s.agree.held n.val).isSome

/-- Whether a fence for time still stands: fewer than two consecutive exchanges have been within 20 ns (R373). -/
def timeFenced (s : State) (n : DieId) : Bool := match mfind s.agree.timeOk n.val with | some k => decide (k < 2) | none => false

/-- Dies of a candidate set taken out while a pair has no cord up (R365). -/
def prunePairs (s : State) : List (DieId × DieId) → Nat → Nat
  | [], j => j
  | (a, b) :: r, j => prunePairs s r (if j.testBit a.val && j.testBit b.val && !physUp s (cordIdx a b) then putBit j b.val false else j)

/-- The pairs of dies, lowest first. -/
def diePairs : List (DieId × DieId) := [(0, 1), (0, 2), (0, 3), (1, 2), (1, 3), (2, 3)]

/-- The joined set as R365 computes it, leaving out the fenced dies that `p` keeps out. -/
def computeJoined (s : State) (p : DieId → Bool) : Nat :=
  let ok (n : DieId) : Bool :=
    awake s n && physUp s (cordIdx 0 n) && s.agree.passed.testBit n.val && !isHeld s n && !timeFenced s n && (!isFenced s n || p n)
  prunePairs s diePairs (([1, 2, 3] : List DieId).foldl (fun j n => if ok n then j ||| 2 ^ n.val else j) 1)

/-- Traffic of a die's cords that a fence does not let pass leaves both ends, and its requests are answered TARGET_DARK (Table 14.7). -/
def stopTraffic (s : State) (n : DieId) : State :=
  (allDies.filter (fun m => m ≠ n)).foldl (fun t m =>
    onEnds t (cordIdx n m) (fun x =>
      { failAsks x (fun _ => true) with
        waiting := x.waiting.filter (fun y => y.hdr.cls == 4), inbox := x.inbox.filter (fun y => y.hdr.cls == 4) })) s

/-- Running passes whose L holds a die aborted on every die of DIES (Table 14.7). -/
def abortPassesOf (s : State) (n : DieId) : State :=
  let ps := allDies.flatMap (fun m => (getGeo s m).passes.filter (fun p => !p.done && !p.aborted && p.leader == m && decide (n ∈ litOf p)))
  ps.foldl markAborted s

/-- A die fenced for its state has to reload D0's before it may come back (R366, R369). -/
def needReload (s : State) (n : DieId) (cause : Nat) : State :=
  if cause = 2 then setCordRegs s n { getCordRegs s n with mustReload := true } else s

/-- A die fenced (R366, Table 14.7): the first cause stands, D0 makes the entry, and the passes that it renders are aborted. -/
def fenceDie (s0 : State) (n : DieId) (cause : Nat) : State :=
  let s := needReload s0 n cause
  if isFenced s n then s
  else
    let a := s.agree
    let s1 := { s with agree := { a with fenced := mins a.fenced n.val cause, joined := putBit a.joined n.val false } }
    let s2 := logEntry s1 0 { code := 0x0906, kind := 0x0D, index := n.val, detail := detV n.val cause }
    abortPassesOf (stopTraffic s2 n) n

/-- A die held dark (R367, Table 14.7): its cords go dark, and no domain of it is in the lit target. -/
def holdDie (s : State) (n : DieId) (cause : Nat) : State :=
  let a := s.agree
  let known := isHeld s n
  let s1 := { s with agree := { a with held := mins a.held n.val cause, fenced := mdel a.fenced n.val, joined := putBit a.joined n.val false,
                                       passed := putBit a.passed n.val false },
                     cords := (s.cords.zipIdx).map (fun p =>
                       let e := cordDies p.2
                       if e.1 = n ∨ e.2 = n then darken p.1 else p.1) }
  let s2 := abortPassesOf s1 n
  retarget (if known then s2 else logEntry s2 0 { code := 0x0907, kind := 0x0D, index := n.val, detail := detV n.val cause })

/-- CORD_AGREE as D0 sends it (Table 14.11). -/
def agreeValue (s : State) : W64 :=
  let a := s.agree
  packFields [(a.cpv % 256, 0), (a.abi % 256, 8), (a.joined, 16), (a.fenced.foldl (fun m e => m ||| 2 ^ e.1) 0, 20),
    (a.held.foldl (fun m e => m ||| 2 ^ e.1) 0, 24), (a.checks % 2 ^ 32, 32)]

/-- D0 sends the joined set to every die whose cord to it is up (R365), and each cord shows whether it is fenced. The relay blocks of dies
behind a cord that is not up are frozen (R53). -/
def sendAgree (s : State) : State :=
  let st (i : Nat) (c : Cord) : Cord :=
    let p := cordDies i
    if c.state = .up ∨ c.state = .fenced then 
      (if isFenced s p.1 || isFenced s p.2 then { dropCord c with state := .fenced } else { c with state := .up }) else c
  let s1 : State := { s with cords := (s.cords.zipIdx).map (fun (p : Cord × Nat) => st p.2 p.1) }
  { s1 with cordRegs := qmap (fun n r => if n = 0 || physUp s1 (cordIdx 0 n) then { r with agree := agreeValue s1 } else r) s1.cordRegs,
            frozen := ([1, 2, 3] : List DieId).foldl (fun m n => if (cordOf s1 (cordIdx 0 n)).state = .up then m else m ||| 2 ^ n.val) s1.frozen }

/-- Dies whose cord to D0 is not lit await a first check when they come back (R365). A fence stands while its die sleeps: it ends under R366
alone. -/
def markFresh (s : State) : State :=
  let a := s.agree
  let gone (n : DieId) : Bool := !(cordOf s (cordIdx 0 n)).lit
  let ns : List DieId := ([1, 2, 3] : List DieId).filter gone
  { s with agree := { a with fresh := ns.foldl (fun m n => putBit m n.val true) a.fresh,
                             passed := ns.foldl (fun m n => putBit m n.val false) a.passed,
                             asked := a.asked.filter (fun e => !(ns.any (fun n => n.val == e.1))) } }

/-- Whether a newly awake die still awaits its first check (R365): then it is neither joined nor fenced. -/
def awaitsCheck (s : State) (n : DieId) : Bool := s.agree.fresh.testBit n.val && !((cordOf s (cordIdx 0 n)).state == .down) && !timeFenced s n

/-- D0 recomputes the joined set (R365): every lit die outside it is fenced, but for dies held dark and newly awake ones. A die of the joined set
is fenced for time no more (R373). -/
def recompute (s : State) : State :=
  let s1 := markFresh (relightCords s)
  let j := computeJoined s1 (fun _ => false)
  let s2 := { s1 with agree := { s1.agree with joined := j, timeOk := s1.agree.timeOk.filter (fun e => !(j.testBit e.1)) } }
  let out : List DieId := ([1, 2, 3] : List DieId).filter (fun n => awake s2 n && !isHeld s2 n && !j.testBit n.val && !awaitsCheck s2 n)
  sendAgree (out.foldl (fun t n => fenceDie t n 5) s2)

/-- Whether a fenced die holds D0's state (R366, R369): it is not reloading, has reloaded where it must, and its STATE_GEN is D0's. -/
def stateSame (s : State) (n : DieId) : Bool :=
  !(getCordRegs s n).reloading && !(getCordRegs s n).mustReload && (getTables s n).stateGen == (tabs s).stateGen

/-- Whether a fenced die may rejoin at an epoch's start (R366, R369, R403): its state and image are D0's. -/
def mayRejoin (s : State) (n : DieId) : Bool :=
  stateSame s n
    && (match (getSec s n).image, (getSec s 0).image with | some a, some b => a.manifest == b.manifest | _, _ => true)

/-- The rotation of a fenced die to D0's image that goes before its unfencing (R403). -/
def catchUp (s : State) (n : DieId) : State :=
  let x := getSec s n
  let u := getStk s n
  match x.image, (getSec s 0).image with
  | some a, some b =>
    if isFenced s n ∧ u.rotateTo.isNone ∧ ¬ (a.manifest = b.manifest) ∧ x.started then
      setStk (setSec s n { x with pendingImage := some b, rotated := [] }) n { u with rotateTo := some (leNat b.manifest) }
    else s
  | _, _ => s

/-- Whether fenced die `n` would enter the joined set but for its image. -/
def canJoinBut (s : State) (n : DieId) : Bool := isFenced s n && (computeJoined s (fun m => m == n)).testBit n.val && stateSame s n

/-- The unfencing of an epoch's start (R366): a fenced die that would enter the joined set does, with its DIE_REJOINED entry. -/
def rejoin (s : State) (n : DieId) : State :=
  if ¬ isFenced s n then s
  else if (computeJoined s (fun m => m == n && mayRejoin s m)).testBit n.val then
    let a := s.agree
    recompute (logEntry { s with agree := { a with fenced := mdel a.fenced n.val, timeOk := mdel a.timeOk n.val } } n
      { code := 0x0908, kind := 0x0D, index := n.val, detail := detV n.val (tabs s).stateGen })
  else if canJoinBut s n then catchUp s n
  else s

/-! ### Agreement checks (R367, R368) -/

/-- CPV range a die offers: 1 to 1 before its firmware runs (Table 14.6). -/
def cpvOffer (s : State) (n : DieId) : Nat × Nat :=
  match (getSec s n).started, (getSec s n).image with
  | true, some x => (x.cpvMin, x.cpvMax)
  | _, _ => (1, 1)

/-- ABI range a die offers: 0 to 0 before its firmware runs. -/
def abiOffer (s : State) (n : DieId) : Nat × Nat :=
  match (getSec s n).started, (getSec s n).image with
  | true, some x => (x.abiMin, x.abiMax)
  | _, _ => (0, 0)

/-- The row of Table 14.8 that holds a die dark, if one does. -/
def holdCause (s : State) (n : DieId) : Option Nat :=
  let c := cpvOffer s n
  let c0 := cpvOffer s 0
  let a := abiOffer s n
  if (getSec s n).hash ≠ (getSec s 0).hash then some 6
  else if c.2 < c0.1 ∨ c0.2 < c.1 then some 7
  else if (getSec s n).started ∧ ¬ (a.1 ≤ s.agree.abi ∧ s.agree.abi ≤ a.2) then some 8
  else none

/-- D0 compares a die's agreement record with its own and decides (Table 14.8). A held-dark die stays so unless its record passes every row. -/
def checkDie (s : State) (n : DieId) : State :=
  let a := s.agree
  let s0 := { s with agree := { a with checks := a.checks + 1, fresh := putBit a.fresh n.val false, asked := mdel a.asked n.val },
                     cords := lset s.cords (cordIdx 0 n) { cordOf s (cordIdx 0 n) with checked := false } }
  let good := (getTables s n).stateGen == (tabs s).stateGen
  match mfind a.held n.val, holdCause s0 n, good with
  | some 9, _, _ => holdDie s0 n 9
  | _, some c, _ => holdDie s0 n c
  | some c, none, false => holdDie s0 n c
  | _, none, _ =>
    let x := getSec s0 n
    let s1 := retarget (setSec { s0 with agree := { s0.agree with held := mdel s0.agree.held n.val } } n
      { x with checkedAt3 := x.checkedAt3 || x.stage == 3 })
    let s2 :=
      if (getSec s n).active = (getSec s 0).active then s1
      else logEntry s1 0 { code := 0x0909, kind := 0x0D, index := n.val, detail := detV n.val ((getSec s n).active.getD 0) }
    let s3 := { s2 with agree := { s2.agree with passed := putBit s2.agree.passed n.val good } }
    if good ∨ ¬ awake s3 n then s3 else fenceDie s3 n 2

/-- The lowest CPV_MAX among the joined dies (R368). -/
def lowestCpv (s : State) : Nat :=
  (allDies.filter (fun n => s.agree.joined.testBit n.val)).foldl (fun m n => min m (cpvOffer s n).2) (cpvOffer s 0).2

/-- The CPV in force before any epoch has set one (R368). -/
def firstCpv (s : State) : State := if s.agree.cpv = 0 then { s with agree := { s.agree with cpv := lowestCpv s } } else s

/-- Whether D0 may exchange agreement messages with a die now. -/
def canAsk (s : State) (n : DieId) : Bool := decide (n ≠ 0) && cordRuns s (cordIdx 0 n)

/-- D0 asks die `n` for its agreement record (R367): now, and whether by the check of an epoch's start. -/
def askRecord (epoch : Bool) (s : State) (n : DieId) : State :=
  { s with agree := { s.agree with asked := mins s.agree.asked n.val (s.now, epoch) } }

/-- NEG (R367): the agreement record of a die that D0 has asked arrives, and D0 decides; after the check of an epoch's start a fenced die that
passes is unfenced (R366). -/
def execNeg (n : DieId) (s : State) : Host.Outcome State Fault Refusal :=
  let s1 := recompute (checkDie (takeControl s 0 n 0x31) n)
  match mfind s.agree.asked n.val with
  | some (_, epoch) => event (canAsk s n) s (sendAgree (firstCpv (if epoch then rejoin s1 n else s1)))
  | none => ok s

/-- AGREEMENT_CHECK (R367, R368): at the start of a frame epoch D0 asks each die that is joined or fenced for its record, and the CPV in force
is set. -/
def execAgreementCheck (s : State) : Host.Outcome State Fault Refusal :=
  let due := decide (s.agree.epochDone ≤ (getTime s 0).epoch) && (getSec s 0).started && s.board.powerOk
  let ns : List DieId := ([1, 2, 3] : List DieId).filter (fun n =>
    (s.agree.joined.testBit n.val || isFenced s n) && awake s n && physUp s (cordIdx 0 n) && !isHeld s n)
  let s1 := ns.foldl (askRecord true) s
  let a := s1.agree
  event due s (sendAgree { s1 with agree := { a with epochDone := (getTime s 0).epoch + 1, cpv := lowestCpv s1 } })

/-- AGREEMENT_NO_ANSWER (R367): a die that was asked has not answered within 20 us. -/
def execAgreementNoAnswer (n : DieId) (s : State) : Host.Outcome State Fault Refusal :=
  let a := s.agree
  let s1 := { s with agree := { a with checks := a.checks + 1, passed := putBit a.passed n.val false, fresh := putBit a.fresh n.val false,
                                       asked := mdel a.asked n.val },
                     cords := lset s.cords (cordIdx 0 n) { cordOf s (cordIdx 0 n) with checked := false } }
  match mfind a.asked n.val with
  | some (t, _) =>
    event (decide (n ≠ 0) && s.board.powerOk && decide (t + 20000 ≤ s.now)) s
      (recompute (if awake s n && !isHeld s n then fenceDie s1 n 1 else s1))
  | none => ok s

/-- CORD_TRAIN_DONE (R353, R354): a training ends, and the joined set is recomputed; at the link-up of a cord to D0, D0 asks for the die's record
(R367). A held-dark die's cord that comes up DOWN is dark again. -/
def execCordTrainDone (a b : DieId) (failed : BitVec 64) (s : State) : Host.Outcome State Fault Refusal :=
  let i := cordIdx a b
  let c := cordOf s i
  let s1 := trainDone s i failed.toNat
  let c1 := cordOf s1 i
  let s2 := if c1.state = .down ∧ c1.checked then setCord s1 i (darken c1) else s1
  let s3 := if a = 0 ∧ c.state = .dark then setTime s2 b { getTime s2 b with lastSync := s2.now, sync := none } else s2
  let s4 := recompute s3
  event (decide (a < b) && s.board.powerOk && c.training) s (if a = 0 ∧ c1.state ≠ .down then askRecord false s4 b else s4)

/-! ### Engine messages (Table 14.5, 0x30) -/

/-- A pass of a die by number and context. -/
def passByCtx (s : State) (d : DieId) (pass ctx : Nat) : Option GeoPass :=
  (getGeo s d).passes.find? (fun p => p.pass == pass && p.ctx == ctx)

/-- MSG (R361): an engine message arrives over a cord that is UP; it brings what its sender holds. -/
def execMsg (src dst : DieId) (m : EngineMsg) (s0 : State) : Host.Outcome State Fault Refusal :=
  let up := src ≠ dst ∧ (cordOf s0 (cordIdx src dst)).state = .up ∧ cordRuns s0 (cordIdx src dst) = true
  if ¬ up then ok s0
  else
    let s := takeControl s0 dst src 0x30
    match m with
    | .passL pass ctx _ leader =>
      match passByCtx s src pass.toNat ctx.toNat, passByCtx s dst pass.toNat ctx.toNat with
      | some p, some q =>
        if p.leader = leader ∧ src = leader ∧ q.lit.isNone then ok (setGeo s dst { getGeo s dst with
          passes := (getGeo s dst).passes.map (fun x => if x = q then { x with lit := p.lit } else x) }) else ok s
      | _, _ => ok s
    | .passAbort pass ctx =>
      match passByCtx s src pass.toNat ctx.toNat with
      | some p => if p.aborted then ok (setGeo s dst { getGeo s dst with
          passes := (getGeo s dst).passes.map (fun x => if x.pass = p.pass ∧ x.ctx = p.ctx then { x with aborted := true } else x) }) else ok s
      | none => ok s
    | .flushTo pass ctx upto =>
      match passByCtx s src pass.toNat ctx.toNat with
      | some p =>
        if p.flushTo = some upto ∧ p.leader = src then ok (setGeo s dst { getGeo s dst with
          passes := (getGeo s dst).passes.map (fun x =>
            if x.pass = p.pass ∧ x.ctx = p.ctx ∧ x.flushTo.isNone then { x with flushTo := some upto } else x) }) else ok s
      | none => ok s
    | .lampCopy => ok (if src = 0 then retarget s else s)
    | .tableCopy => ok (if src = 0 ∧ inStep s dst then setTables s dst (tabs s) else s)
    | .tagRead _ => ok s

/-! ### Time alignment (R370 to R373, R450) -/

/-- TIME_EXCHANGE (R370): every 1 ms of its device time D0 begins an exchange with each die whose cord to it is up. -/
def execTimeExchange (s : State) : Host.Outcome State Fault Refusal :=
  let t0 := getTime s 0
  let s1 := setTime s 0 { t0 with lastSync := t0.dt }
  event (s.board.powerOk && decide (t0.lastSync + 1000000 ≤ t0.dt)) s
    { s1 with times := qmap (fun n t => if canAsk s n then { t with sync := some (t0.dt, 0, 0, false) } else t) s1.times }

/-- A die fenced for time (R371, R373): it rejoins after two consecutive valid exchanges within 20 ns. -/
def fenceTime (s : State) (n : DieId) (cause : Nat) : State :=
  let s1 := { s with agree := { s.agree with timeOk := mins s.agree.timeOk n.val 0 } }
  if awake s1 n ∧ ¬ isHeld s1 n then recompute (fenceDie s1 n cause) else s1

/-- The offset of an exchange in nanoseconds, and its delay (R370). -/
def exchange (t1 t2 t3 t4 : Nat) : Int × Int :=
  let i (x : Nat) : Int := x
  (((i t2 - i t1) - (i t4 - i t3)).tdiv 2, ((i t4 - i t1) - (i t3 - i t2)).tdiv 2)

/-- A follower's time corrected by a valid offset (R371): a slew up to 1,000 ns, a step beyond it. Where it stands still for a backward step, it
stands for what the newest exchange says is left. -/
def correctedTime (t : TimeD) (off : Int) : TimeD :=
  let m := off.natAbs
  if m ≤ 1000 then
    if 0 < t.standFor ∧ 0 < off then { t with standFor := m, slew := none }
    else { t with standFor := 0, slew := if m = 0 then none else some { amount := m, forward := decide (off < 0), left := 10000 * m,
                                                                        span := 10000 * m, acc := 0 } }
  else if off < 0 then { t with dt := t.dt + m, standFor := 0, slew := none }
  else { t with standFor := m, slew := none }

/-- A valid exchange's result applied by the follower (R371, R373): an offset above 1,000 ns fences it for time, unless it stands still for a step
that did already. -/
def correctTime (s : State) (n : DieId) (off delay : Int) : State :=
  let r := getCordRegs s n
  let s1 := setCordRegs s n { r with time := packFields [(wrapI 32 off, 0), (min 65535 delay.toNat, 32)] }
  let t0 := getTime s1 n
  let a := s1.agree
  let s2 := match mfind a.timeOk n.val with
    | some k => { s1 with agree := { a with timeOk := mins a.timeOk n.val (if off.natAbs ≤ 20 then k + 1 else 0) } }
    | none => s1
  let s3 := setTime s2 n (correctedTime { t0 with sync := none, lastSync := s.now } off)
  if off.natAbs ≤ 1000 ∨ (0 < t0.standFor ∧ 0 < off) then s3 else fenceTime s3 n 3

/-- TSYNC (R370, R372, R387, R450): one message of an exchange. The request brings the epoch grid and a step that D0 has made; the stamp
is the time of the die that takes it. A grid sent while one of the two has begun the next epoch and the other has not is left for the
next exchange (log 12). -/
def execTsync (n : DieId) (step : TsyncStep) (stamp : W64) (replayed : Bool) (s0 : State) : Host.Outcome State Fault Refusal :=
  let s := match step with | .reply => takeControl s0 0 n 0x32 | _ => takeControl s0 n 0 0x32
  let t := getTime s n
  let t0 := getTime s 0
  match t.sync, canAsk s n with
  | some (t1, t2, t3, bad), true =>
    match step with
    | .request =>
      let k := t.owed
      let t' : TimeD := { t with sync := some (t1, t.dt + k, 0, bad || replayed), dt := t.dt + k, owed := 0 }
      event (stamp.toNat == t.dt && t2 == 0) s0 (setTime s n
        (if t0.epoch = t.epoch + 1 ∨ t.epoch = t0.epoch + 1 then { t' with shift := t.shift + k }
         else { t' with epoch := t0.epoch, epochStart := t0.epochStart, period := t0.period, shift := t0.shift }))
    | .reply => event (stamp.toNat == t.dt && decide (t2 ≠ 0) && t3 == 0) s0 (setTime s n { t with sync := some (t1, t2, t.dt, bad || replayed) })
    | .result =>
      let (off, delay) := exchange t1 t2 t3 t0.dt
      let drop := setTime s n { t with sync := none }
      event (stamp.toNat == t0.dt && decide (t3 ≠ 0)) s0 (if bad || replayed || decide (200 < delay) then drop else correctTime s n off delay)
  | _, _ => ok s0

/-- TIME_LOST (R373): no valid exchange for 10 ms. -/
def execTimeLost (n : DieId) (s : State) : Host.Outcome State Fault Refusal :=
  event (decide (n ≠ 0) && s.board.powerOk && awake s n && !isHeld s n && (mfind s.agree.timeOk n.val).isNone && !awaitsCheck s n
      && decide ((getTime s n).lastSync + 10000000 ≤ s.now)) s (fenceTime s n 4)

/-- CORD_TIME (Table 14.14). -/
def cordTimeReg (s : State) (n : DieId) : W64 := setFld (getCordRegs s n).time 48 48 (b2n (mfind s.agree.timeOk n.val).isSome)

/-- STATE_RELOAD (R369): a fenced die whose state is not D0's, or that has to reload it, begins to copy it over its cord to D0. -/
def execStateReload (n : DieId) (s : State) : Host.Outcome State Fault Refusal :=
  event (canAsk s n && isFenced s n && !(getCordRegs s n).reloading
      && (!((getTables s n).stateGen == (tabs s).stateGen) || (getCordRegs s n).mustReload)) s
    (setCordRegs s n { getCordRegs s n with reloading := true })

end Sys2Proof.Machine
end

