-- ==== Sys2Proof/Machine/Board.lean ====
section
/-! DEFINITION. The board's side (19, R438 to R446), lamp and thermal commands (15), PPS and period (R385, R386, R388), and the
logbook's own commands (R420, R421). -/

namespace Sys2Proof.Machine

/-! ### Rails -/

/-- A die's floor: the consecutive 1 bits of its floor row from bit 0 (R404). -/
def floorOf (w : W64) : Nat := ((countUp 0 65).reverse.find? (fun n => w.toNat % 2 ^ n + 1 == 2 ^ n)).getD 0

/-- The OTP of a die whose burn power loss stops (R398, R405): the slot being burnt is SPENT, and a floor being raised ends between its
old value and the new one. -/
def otpLost (o : Otp) (x : Sec) (choice : Byte) : Otp :=
  let o1 := match x.burning with
    | some (k, _) => { o with spent := lset o.spent k true }
    | none => o
  match x.raising with
  | some f =>
    let n := floorOf o1.floorRow
    { o1 with floorRow := BitVec.ofNat 64 (2 ^ (n + choice.toNat % (f + 1 - n)) - 1) }
  | none => o1

/-- Every rail down at once: nothing survives but the OTP, the board's side and the sensors' last readings (R382, R389, R441). -/
def powerOff (s : State) : State :=
  { State.reset with
    pending := s.pending
    now := s.now
    freeCtr := s.freeCtr + 1
    nextId := s.nextId
    board := { s.board with powerOk := false, released := false }
    otps := qmap (fun d o => otpLost o (qget s.secs d) (Config.freeByte s.freeCtr d.val)) s.otps
    lamps := qmap (fun d l => { l with temps := (getLamp s d).temps }) State.reset.lamps }

/-- VIN within 1.746 to 1.854 V (R438). -/
def vinOk (b : Board) : Bool := decide (1746 ≤ b.vinMv) && decide (b.vinMv ≤ 1854)

/-- RESET_RELEASE (R440, R441): the board releases RESET_N; a latched trip is cleared and the rails are to rise. -/
def execResetRelease (s : State) : Host.Outcome State Fault Refusal :=
  event (!s.board.resetN && vinOk s.board) s
    { s with board := { s.board with resetN := true, released := true, tripLatch := false } }

/-- RESET_ASSERT (R441): a low of RESET_N of `lowNs` nanoseconds; a low of 1 to 10 us is taken or not. -/
def execResetAssert (lowNs : Nat) (taken : Bool) (s : State) : Host.Outcome State Fault Refusal :=
  if lowNs < 1000 then ok s
  else if lowNs < 10000 ∧ ¬ taken then ok s
  else ok (powerOff { s with board := { s.board with resetN := false } })

/-- VIN_DROP (R441, R445): below 1.70 V with RESET_N high the package is reset; a VIN out of its range loses the management
target's dynamic address and trip record. -/
def execVinDrop (mv : Nat) (s : State) : Host.Outcome State Fault Refusal :=
  if s.board.vinMv < mv then ok s
  else
    let b := { s.board with vinMv := mv }
    let b2 := if vinOk b then b else { b with dynAddr := none, trip := 0 }
    if mv < 1700 ∧ s.board.resetN then ok (powerOff { s with board := b2 }) else ok { s with board := b2 }

/-- VIN_ENTERS_RANGE (R440, R441). -/
def execVinEntersRange (mv : Nat) (s : State) : Host.Outcome State Fault Refusal :=
  event (decide (1746 ≤ mv) && decide (mv ≤ 1854)) s { s with board := { s.board with vinMv := mv } }

/-! ### Management target (R445, R446) -/

/-- Whether the management target answers: VIN has not fallen below the band of R441. -/
def mgPowered (s : State) : Bool := decide (1700 ≤ s.board.vinMv)

/-- Stage shown for a die; zero while its rails are down (Table 19.5). -/
def mgStage (s : State) (d : DieId) : Nat := if s.board.powerOk then (getSec s d).stage else 0

/-- MG_LOGn (Table 19.5). -/
def mgLogReg (s : State) (d : DieId) : W64 :=
  let l := getLog s d
  packFields [(l.head % 2 ^ 32, 0), (l.severe, 32), (l.lastCode, 48)]

/-- The management registers as a snapshot takes them (Table 19.4), from the board's measurements of VIN. -/
def mgSnapshot (s : State) (mv ca pw : W16) : Map W64 :=
  let up := s.board.powerOk
  let z (x : W64) : W64 := if up then x else 0
  let regs : List (Nat × W64) :=
    [(0, packFields [(4, 0), (0xB1, 16), (b2n (gradeE s 0), 24)]),
     (0x08, packFields ([(b2n (vinOk s.board), 0), (b2n up, 1), (b2n s.board.tripLatch, 2), (b2n (!s.board.resetN), 3)]
        ++ allDies.map (fun d => (mgStage s d, 4 + 4 * d.val)))),
     (0x10, packFields [(mv.toNat, 0), (ca.toNat, 16), (pw.toNat, 32), (s.lampPkg.inForce, 48)])]
    ++ allDies.map (fun d => (0x18 + 8 * d.val, z (keepBits (lampTempReg s d) 0x3FFFFF)))
    ++ allDies.map (fun d => (0x38 + 8 * d.val, z (keepBits (lampStateReg s d) 0x7FFFFF)))
    ++ allDies.map (fun d => (0x58 + 8 * d.val, z (mgLogReg s d)))
    ++ [(0x78, s.board.trip)]
  regs.foldl (fun m e => mput 0 m e.1 e.2) []

/-- MG_SNAPSHOT_REFRESH (R446): the snapshots take the registers as they stand and the board's measurements. -/
def execMgSnapshotRefresh (vinMv vinCa power : W16) (s : State) : Host.Outcome State Fault Refusal :=
  event (mgPowered s) s { s with board := { s.board with mgRegs := mgSnapshot s vinMv vinCa power } }

/-- A byte of the management registers; an unassigned offset reads 0xFF (R446). -/
def mgByte (m : Map W64) (o : Nat) : Byte :=
  if o < 0x80 then lget 0 (natLe 8 (mget 0 m (8 * (o / 8))).toNat) (o % 8) else 0xFF

/-- MG_TRANSFER (R446): bytes from the offset upward, wrapping; what is written after the offset is ignored. -/
def execMgTransfer (offset : Byte) (_written : List Byte) (n : Nat) (s : State) : Host.Outcome State Fault Refusal :=
  event (mgPowered s) s
    { s with board := { s.board with lastRead := (countUp offset.toNat n).map (fun o => mgByte s.board.mgRegs (o % 256)) } }

/-- SETDASA (R445): the static address 0x5A takes a dynamic address; one already held is kept. -/
def execSetdasa (addr : BitVec 7) (s : State) : Host.Outcome State Fault Refusal :=
  event (mgPowered s && s.board.dynAddr.isNone) s { s with board := { s.board with dynAddr := some addr.toNat } }

/-- ENTDAA (R445): a target without a dynamic address takes the one assigned. -/
def execEntdaa (addr : BitVec 7) (s : State) : Host.Outcome State Fault Refusal :=
  event (mgPowered s && s.board.dynAddr.isNone) s { s with board := { s.board with dynAddr := some addr.toNat } }

/-- RSTDAA (R445): the dynamic address is lost. -/
def execRstdaa (s : State) : Host.Outcome State Fault Refusal :=
  event (mgPowered s) s { s with board := { s.board with dynAddr := none } }

/-- A CCC read: the answer of `n` bytes is the standard's, left open here (R445). -/
def cccRead (s : State) (ccc n : Nat) : Host.Outcome State Fault Refusal :=
  event (mgPowered s) s { s with board := { s.board with lastRead := (countUp 0 n).map (Config.ccc ccc) } }

/-- GETPID (R445): six bytes. -/
def execGetpid (s : State) : Host.Outcome State Fault Refusal := cccRead s 0 6
/-- GETBCR (R445): one byte. -/
def execGetbcr (s : State) : Host.Outcome State Fault Refusal := cccRead s 1 1
/-- GETDCR (R445): one byte. -/
def execGetdcr (s : State) : Host.Outcome State Fault Refusal := cccRead s 2 1
/-- GETSTATUS (R445): two bytes. -/
def execGetstatus (s : State) : Host.Outcome State Fault Refusal := cccRead s 3 2

/-! ### Lamp registers and transitions -/

/-- LAMP_ENVELOPE_WRITE (R377). -/
def execLampEnvelopeWrite (d : DieId) (v : W64) (s : State) : Host.Outcome State Fault Refusal :=
  ok (viaSlot s d 7 v (fun t => onD0 t d (fun t => wrEnvelope t v)))

/-- LAMP_ORDER_WRITE (R378). -/
def execLampOrderWrite (d : DieId) (v : W64) (s : State) : Host.Outcome State Fault Refusal :=
  ok (viaSlot s d 7 v (fun t => onD0 t d (fun t => wrOrder t v)))

/-- LAMP_MASK_WRITE (R378). -/
def execLampMaskWrite (d n : DieId) (v : W64) (s : State) : Host.Outcome State Fault Refusal :=
  ok (viaSlot s d 7 v (fun t => onD0 t d (fun t => wrMask t n v)))

/-- A drain that goes on: one whose cluster is to stay lit after all ends (R136). -/
def drainLeft (s : State) (d : DieId) : Option (Nat × Nat × Bool) :=
  match (getLamp s d).draining with
  | some x => if wanted s d x.1 == .lit then none else some x
  | none => none

/-- DOMAIN_TRANSITION (R379, R136): the die's lamp controller begins its next change, or the drain of a cluster that is to leave
the lit state. A change waits for any stop bath or save on the die. -/
def execDomainTransition (d : DieId) (s : State) : Host.Outcome State Fault Refusal :=
  let l := { getLamp s d with draining := drainLeft s d }
  let left (c : Nat) : Option (Nat × Nat × Bool) := match l.draining with | some x => if x.1 = c then none else some x | none => none
  if l.changing.isSome ∨ bathRunning s d then ok s
  else match nextChange s d with
    | some c => ok (refreshDevice (setLamp s d { l with changing := some c, draining := left c.1 }) d)
    | none => match l.draining, nextDrain s d with
      | none, some c => ok (refreshDevice (setLamp s d { l with draining := some (c, s.now, false) }) d)
      | _, _ => ok (setLamp s d l)

/-- SENSOR_READ (R381, R382): the readings, the WARN crossing with its THERM_WARN entry, and the trip. -/
def execSensorRead (d : DieId) (temps : List (BitVec 12)) (s : State) : Host.Outcome State Fault Refusal :=
  if temps.length ≠ 11 then ok s
  else
    let l := { getLamp s d with temps := temps }
    let (i, t) := hottest l
    let tj := tjQ s d
    if ¬ s.board.powerOk then ok (setLamp s d l)
    else if tj + 60 ≤ t then
      let trips := satAdd 32 (fld s.board.trip 63 32) 1
      let b := { s.board with tripLatch := true, tripHold := true,
                              trip := packFields [(wrapI 12 t, 0), (i, 12), (d.val, 16), (trips, 32)] }
      ok (powerOff { setLamp s d l with board := b })
    else
      let warn := if tj - 20 ≤ t then true else if t ≤ tj - 28 then false else l.warn
      let s1 := setLamp s d { l with warn := warn }
      if warn && !l.warn then
        ok (logEntry s1 d { code := 0x0A01, kind := 0x09, index := i, detail := detV i (wrapI 64 t) })
      else ok s1

/-- THERM_CAP (R381): while a sensor reads Tj or more, one more cluster leaves the die's lit target, at most every 10 ms. -/
def execThermCap (d : DieId) (s : State) : Host.Outcome State Fault Refusal :=
  let l := getLamp s d
  let (i, t) := hottest l
  let left := popcount 8 (dropHigh 8 l.target l.removed)
  event (s.board.powerOk && decide (tjQ s d ≤ t) && decide (0 < left)
      && (l.removed == 0 || decide (l.cappedAt + 10000000 ≤ s.now))) s
    (logEntry (setLamp s d { l with removed := l.removed + 1, cappedAt := s.now }) d
      { code := 0x0A02, kind := 0x09, index := i, detail := detV i (l.removed + 1) })

/-- THERM_RESTORE (R381): while every sensor reads below Tj - 5, one removed cluster returns every 100 ms. -/
def execThermRestore (d : DieId) (s : State) : Host.Outcome State Fault Refusal :=
  let l := getLamp s d
  event (s.board.powerOk && decide ((hottest l).2 < tjQ s d - 20) && decide (0 < l.removed)
      && decide (max l.cappedAt l.restoredAt + 100000000 ≤ s.now)) s
    (setLamp s d { l with removed := l.removed - 1, restoredAt := s.now })

/-! ### PPS, period, logbook -/

/-- The error of an edge stamped at `t`: in (-5e8, 5e8] (R385). -/
def ppsError (t : Nat) : Int :=
  let r := t % 1000000000
  if r ≤ 500000000 then (r : Int) else (r : Int) - 1000000000

/-- A forward step of D0's device time by `k` (R385, R372, R388): it moves the start of every epoch not yet begun, and the next
TSYNC to each die carries it. -/
def stepD0 (s : State) (k : Nat) : State :=
  { s with times := qmap (fun d t => if d = 0 then { t with dt := t.dt + k, shift := t.shift + k } else { t with owed := t.owed + k }) s.times }

/-- PPS_EDGE (R385): D0 stamps an edge of PPS_IN. -/
def execPpsEdge (falling : Bool) (s : State) : Host.Outcome State Fault Refusal :=
  let p := s.pps
  let t := dtime s 0
  if ¬ (s.board.powerOk && bit p.ctl 0 && bit p.ctl 1 == falling) then ok s
  else if (match p.lastMarked with | some m => decide (t < m + 500000000) | none => false) then
    ok { s with pps := { p with ignored := satAdd 8 p.ignored 1 } }
  else
    let e := ppsError t
    let acc : PpsState := { p with seen := true, freeRun := false, lastAccepted := some t, lastMarked := some t, candidates := [],
                                   error := BitVec.ofInt 32 e, edge := BitVec.ofNat 64 t }
    if e.natAbs ≤ 1000000 then
      let slew : Option Slew :=
        if e = 0 then none
        else some { amount := min e.natAbs 100000, forward := decide (e < 0), left := 1000000000, span := 1000000000, acc := 0 }
      let s1 := { s with pps := { acc with streak := p.streak + 1 } }
      ok (setTime s1 0 { getTime s1 0 with slew := slew })
    else if p.candidates.any (fun c => decide (c + 999900000 ≤ t) && decide (t ≤ c + 1000100000)) then
      let k := wrapStep e
      let s1 := stepD0 { s with pps := { acc with steps := satAdd 8 p.steps 1, streak := 0,
                                                  lastAccepted := some (t + k), lastMarked := some (t + k),
                                                  stepTime := BitVec.ofNat 64 (t + k) } } k
      ok (logEntry s1 0 { code := 0x0A03, kind := 0x0A, detail := detV k t })
    else ok { s with pps := { p with candidates := p.candidates ++ [t], lastMarked := some t } }
where
  /-- (-e) mod 10^9. -/
  wrapStep (e : Int) : Nat := ((-e) % 1000000000).toNat

/-- SLEW_END (R385): D0's slew has run its 10^9 ns. -/
def execSlewEnd (s : State) : Host.Outcome State Fault Refusal :=
  let t := getTime s 0
  match t.slew with
  | some w => event (w.left == 0) s (setTime s 0 { t with slew := none })
  | none => ok s

/-- TIME_FREE_RUN (R386): 2.5 s of device time without an accepted edge. -/
def execTimeFreeRun (s : State) : Host.Outcome State Fault Refusal :=
  event (s.board.powerOk && !s.pps.freeRun && decide (s.pps.lastAccepted.getD 0 + 2500000000 ≤ dtime s 0)) s
    (logEntry { s with pps := { s.pps with freeRun := true } } 0
      { code := 0x0A04, kind := 0x0A, detail := detV s.pps.edge.toNat 0 })

/-- Whether a period is legal (Table 15.7). -/
def periodLegal (v : W64) : Bool := decide (4000000 ≤ fld v 31 0) && decide (fld v 31 0 ≤ 16700000)

/-- A write of TIME_PERIOD (R388): it sets the first epoch that begins 200 us or more later. -/
def wrPeriod (s : State) (v : W64) : State :=
  if periodLegal v then
    { s with pps := { s.pps with periodReg := keepBits v 0xFFFFFFFF, periodPending := s.pps.periodPending ++ [(fld v 31 0, dtime s 0)] } }
  else s

/-- TIME_PERIOD_WRITE (R388). -/
def execTimePeriodWrite (d : DieId) (v : W64) (s : State) : Host.Outcome State Fault Refusal :=
  ok (viaSlot s d 8 v (fun t => onD0 t d (fun t => wrPeriod t v)))

/-- A write of TIME_CTL (Table 15.7). -/
def wrTimeCtl (s : State) (v : W64) : State := { s with pps := { s.pps with ctl := keepBits v 3 } }

/-- TIME_PPS (Table 15.7). -/
def timePpsReg (s : State) : W64 :=
  let slewing := match (getTime s 0).slew with | some w => decide (0 < w.left) | none => false
  packFields [(b2n s.pps.seen, 0), (b2n s.pps.freeRun, 1), (b2n slewing, 2), (s.pps.ignored, 8), (s.pps.steps, 16),
    (s.pps.error.toNat, 32)]

/-- LOG_SUPPRESSED (R420): the entry at the end of a millisecond in which entries were suppressed. -/
def execLogSuppressed (d : DieId) (s : State) : Host.Outcome State Fault Refusal :=
  let l := getLog s d
  event (decide (0 < l.supCount) && decide (l.msIndex < dtime s d / 1000000)) s (setLog s d (logRoll l (dtime s d)))

/-- LOG_MARK (Table 17.9): the driver's mark. -/
def wrLogMark (s : State) (d : DieId) (v : W64) : State :=
  logEntry s d { code := 0x0C06, kind := 0x01, detail := detV v.toNat 0 }

/-- LOG_MARK (R421). -/
def execLogMark (d : DieId) (v : W64) (s : State) : Host.Outcome State Fault Refusal :=
  ok (viaSlot s d 9 v (fun t => wrLogMark t d v))

/-- LOG_HEAD (Table 17.9). -/
def logHeadReg (s : State) (d : DieId) : W64 := packFields [((getLog s d).head % 2 ^ 32, 0), ((getLog s d).faultHead % 2 ^ 32, 32)]

/-- LOG_STATUS (Table 17.9). -/
def logStatusReg (s : State) (d : DieId) : W64 :=
  let l := getLog s d
  packFields [(l.suppressed, 0), (l.contained, 16), (l.corrected, 32), (l.fencedUnits, 48), (b2n l.dieError, 56)]

end Sys2Proof.Machine
end

