-- ==== Sys2Proof/Machine/Control.lean ====
section
/-! DEFINITION. Branch and sync, wait and control (08, R230 to R234; 06, R149 to R157, R165). -/

namespace Sys2Proof.Machine

/-- An address `off` bytes from the pc. -/
def pcPlus (pc : Nat) (off : Int) : Nat := (((pc : Int) + off) % (2 ^ 64 : Int)).toNat

/-- A lane set as a mask. -/
def maskLanes (ls : List Nat) : Nat := ls.foldl (fun a l => a + 2 ^ l) 0

/-- The group put back after an instruction that moved its path. -/
def putMoved (s : State) (i : Issue) (g : Group) : State := afterGroup (setGroup s i.d i.gid g) i.d g

/-- A uniform taken branch: the pc moves, and a backward one gives way to another path that can issue (R149, R152). -/
def takeBranch (g : Group) (pc target : Nat) : Group :=
  let y := movePath { g with issues := g.issues + 1 } target
  if target ≤ pc ∧ otherPath g ∧ y.paths.length = g.paths.length then rotatePath y else y

/-- BR (R231). -/
def execBr (g : GRef) (w e : W64) (s : State) : Host.Outcome State Fault Refusal :=
  runIsa (· == 0x2C0) g w e s (fun i wd t =>
    let target := pcPlus i.pc (sx 32 (fld wd.e 31 0))
    let join := pcPlus i.pc (sx 32 (fld wd.e 63 32))
    checked i wd {} (wd.ext && fld wd.e 2 0 == 0 && fld wd.e 34 32 == 0) t (fun t =>
      let lanes := pathExec i
      let taken := lanes.filter (fun l => predBit i.g wd.pred l != wd.pneg)
      if taken.isEmpty then .next t
      else if taken.length = lanes.length then
        match groupOf t i.d i.gid with
        | some g => .moved (putMoved t i (takeBranch g i.pc target))
        | none => .stall
      else
        match groupOf t i.d i.gid with
        | some g =>
          let m := maskLanes taken
          match divergePath g (i.mask - m) m (i.pc + 16) target join with
          | some y => .moved (putMoved t i y)
          | none => .fault 0x0312 0 0 t
        | none => .stall))

/-- CALL (R232): the address of the next instruction into the pair, and the pc to the target. -/
def execCall (g : GRef) (w e : W64) (s : State) : Host.Outcome State Fault Refusal :=
  runIsa (· == 0x2C1) g w e s (fun i wd t =>
    checked i wd { d := .s 2, predZero := true } (wd.ext && !wd.pneg && fld wd.e 2 0 == 0 && fld wd.e 63 32 == 0) t (fun t =>
      let t1 := writeS64 t i wd.dst (i.pc + 16)
      match groupOf t1 i.d i.gid with
      | some g => .moved (putMoved t1 i (takeBranch g i.pc (pcPlus i.pc (sx 32 (fld wd.e 31 0)))))
      | none => .stall))

/-- RET (R232). -/
def execRet (g : GRef) (w e : W64) (s : State) : Host.Outcome State Fault Refusal :=
  runIsa (· == 0x2C2) g w e s (fun i wd t =>
    checked i wd { a := .sca 2, predZero := true } (!wd.pneg) t (fun t =>
      match groupOf t i.d i.gid with
      | some g => .moved (putMoved t i (takeBranch g i.pc (operandPair t i wd 0 (scalarLane i))))
      | none => .stall))

/-- The group after lanes of its current path have exited; what is left of the path goes on (R150, R232). -/
def exitLanes (g : Group) (m next : Nat) : Group :=
  let y := { g with paths := exitEntries g.paths m, exited := g.exited ||| m, exec := g.exec - (g.exec &&& m), issues := g.issues + 1 }
  let t := sweepPaths y.paths.length { ps := y.paths, cur := y.cur, lost := false }
  let z := withTab y t
  if t.lost then z else movePath z next

/-- What the lanes `m` of a vertex group leave as they exit: v0 to v3 and the attributes (R248). -/
def captureVerts (s : State) (i : Issue) (m : Nat) : State :=
  match i.x.geo, passOfDisp s i.d i.x with
  | some w, some p =>
    if w.tile.isSome then s
    else
      let out (l : LaneStart × Nat) : VertexOut :=
        { draw := w.draw, index := l.1.index, x := readV s i 0 l.2, y := readV s i 1 l.2, z := readV s i 2 l.2, w := readV s i 3 l.2,
          attrs := (countUp 8 w.varyings).map (fun r => readV s i r l.2) }
      setPass s i.d { p with verts := p.verts ++ ((w.lanes.zipIdx).filter (fun l => l.1.here && m.testBit l.2)).map out }
  | _, _ => s

/-- EXIT (R232): the path's lanes whose predicate bit is set exit, whatever their exec bits. -/
def execExit (g : GRef) (w e : W64) (s : State) : Host.Outcome State Fault Refusal :=
  runIsa (· == 0x2C3) g w e s (fun i wd t => checked i wd {} true t (fun t =>
    let m := maskLanes ((countUp 0 i.x.width).filter (fun l => i.mask.testBit l && (predBit i.g wd.pred l != wd.pneg)))
    match groupOf t i.d i.gid with
    | none => .stall
    | some g =>
      let y := exitLanes g m (i.pc + wdLen wd)
      let t1 := captureVerts t i m
      if y.paths.isEmpty then .moved (endGroup t1 i.d i.gid y)
      else .moved (checkBarriers (putMoved t1 i y) i.d y.block)))

/-- The group whose current path has arrived at barrier `b`: it waits, and will resume at `next` (R154). -/
def arriveBar (g : Group) (b next : Nat) : Group :=
  match g.paths[g.cur]? with
  | some (.path _ m j _) =>
    withTab { g with issues := g.issues + 1 } { ps := lset g.paths g.cur (.path next m j (some b)), cur := g.cur, lost := false }
  | _ => g

/-- BAR (R154). Its PRED is taken as zero whatever it holds (R207, R232). -/
def execBar (g : GRef) (w e : W64) (s : State) : Host.Outcome State Fault Refusal :=
  runIsa (· == 0x2C4) g w e s (fun i wd t => checked i wd { mods := 0xF } true t (fun t =>
    let b := fldN wd.mod 3 0
    match groupOf t i.d i.gid, blockOf t i.d i.g.block with
    | some g, some k =>
      let y := arriveBar g b (i.pc + wdLen wd)
      let t1 := setBlock (setGroup t i.d i.gid y) i.d i.g.block
        { k with arrivals := if b ∈ k.arrivals then k.arrivals else k.arrivals ++ [b] }
      .moved (checkBarriers (afterGroup t1 i.d y) i.d i.g.block)
    | _, _ => .stall))

/-- WAIT (R157): the group stalls until every counter is at or below its threshold. -/
def execWait (g : GRef) (w e : W64) (s : State) : Host.Outcome State Fault Refusal :=
  runIsa (· == 0x300) g w e s (fun i wd t =>
    checked i wd { a := .raw 64, b := .raw 64, c := .raw 64, d := .raw 64, predZero := true } true t (fun t =>
      if i.g.vq.length ≤ wd.s0 ∧ i.g.sq.length ≤ wd.s1 ∧ i.g.tq.length ≤ wd.s2 ∧ i.g.mq.length ≤ wd.dst then .next t
      else .moved (putMoved t i { i.g with waiting := true })))

/-- SLEEP (R233): out of the active set for at least that many cycles. A number outside 1 to 2^20 has no stated meaning: the time
is free (log 4). -/
def execSleep (g : GRef) (w e : W64) (s : State) : Host.Outcome State Fault Refusal :=
  runIsa (· == 0x301) g w e s (fun i wd t => checked i wd { a := .sca 1, predZero := true } true t (fun t =>
    let v := (operand t i wd 0 0 (scalarLane i)).toNat
    let c := if 1 ≤ v ∧ v ≤ 2 ^ 20 then v else (Config.freeW32 t.freeCtr (2 ^ 25)).toNat
    match groupOf t i.d i.gid with
    | some g =>
      let y := movePath { g with issues := g.issues + 1 } (i.pc + wdLen wd)
      .moved (putMoved t i { y with sleepUntil := some (t.now + cyclesNs c), active := false, since := t.now })
    | none => .stall))

/-- INV_NEAR (R165). -/
def execInvNear (g : GRef) (w e : W64) (s : State) : Host.Outcome State Fault Refusal :=
  runIsa (· == 0x302) g w e s (fun i wd t => checked i wd { predZero := true } true t (fun t =>
    .next (invalidateCores t i.d (fun m => m == i.b.core))))

/-- RDFLAGS (R234). -/
def execRdflags (g : GRef) (w e : W64) (s : State) : Host.Outcome State Fault Refusal :=
  runIsa (· == 0x303) g w e s (fun i wd t => checked i wd { d := .s 1, predZero := true } true t (fun t =>
    .next (writeS t i [(wd.dst, flagsWord i.g)])))

/-- CLRFLAGS (R234). -/
def execClrflags (g : GRef) (w e : W64) (s : State) : Host.Outcome State Fault Refusal :=
  runIsa (· == 0x304) g w e s (fun i wd t => checked i wd { a := .sca 1, predZero := true } true t (fun t =>
    let v := operand t i wd 0 0 (scalarLane i)
    .next (updGroup t i (fun g => clearGroupFlags g v))))

/-- RDTIME (Table 8.20). -/
def execRdtime (g : GRef) (w e : W64) (s : State) : Host.Outcome State Fault Refusal :=
  runIsa (· == 0x305) g w e s (fun i wd t => checked i wd { d := .s 2, predZero := true } true t (fun t =>
    .next (writeS64 t i wd.dst (dtime t i.d))))

/-- NOP (R207). -/
def execNop (g : GRef) (w e : W64) (s : State) : Host.Outcome State Fault Refusal :=
  runIsa (· == 0x306) g w e s (fun i wd t => checked i wd { predZero := true } true t (fun t => .next t))

end Sys2Proof.Machine
end

