-- ==== Sys2Proof/Machine/Sec.lean ====
section
/-! DEFINITION. Start-up, identity, OTP and signed firmware (16, R389 to R409), and the rotation of the stokers (04, R115, R116). -/

namespace Sys2Proof.Machine

/-! ### OTP slots (R393 to R396) -/

/-- Settings slot `k` of an OTP. -/
def otpSlot (o : Otp) (k : Nat) : List Byte := lget [] o.slots k

/-- Vendor key `k` of kindling's ROM (R399). -/
def vendorKeyBytes (k : Nat) : List Byte := (countUp 0 32).map (Config.vendorKey k)

/-- Whether a spare's field is in range: an enabled core number, or 0xFF when unused (Table 16.2). -/
def spareOk (x : Nat) : Bool := decide (x < 32) || x == 0xFF

/-- A settings block's fields for slot `k` of a die (R394, Table 16.2). -/
def blockFields (serial : W64) (k : Nat) (b : List Byte) : Bool :=
  let s0 := leAt b 0x10 1
  let s1 := leAt b 0x11 1
  leAt b 0 4 == 0x4750544F && leAt b 4 1 == k && decide (leAt b 5 1 ≤ 1) && decide (leAt b 6 1 ≤ 1) && leAt b 7 1 == 0
    && leAt b 8 8 == serial.toNat && spareOk s0 && spareOk s1 && (decide (s0 ≠ s1) || s0 == 0xFF) && zeroAt b 0x12 46
    && decide (leAt b 0x48 1 ≤ 1) && decide (25 ≤ leAt b 0x49 1) && decide (leAt b 0x49 1 ≤ 120) && leAt b 0x49 1 % 5 == 0
    && zeroAt b 0x4A 246 && zeroAt b 0x140 640

/-- Whether a block is valid for slot `k` of a die (R394). -/
def blockValid (serial : W64) (k : Nat) (b : List Byte) : Bool :=
  blockFields serial k b && edVerify (vendorKeyBytes (leAt b 5 1)) (sha512 (b.take 0x3C0)) ((b.drop 0x3C0).take 64)

/-- The state of slot `k`: 0 BLANK, 1 VALID, 2 SPENT (R394, R398). -/
def slotCode (o : Otp) (k : Nat) : Nat :=
  if lget false o.spent k then 2
  else if (otpSlot o k).all (fun b => b == 0) then 0
  else if blockValid o.serial k (otpSlot o k) then 1 else 2

/-- The first valid slot of G3, G2, G1 and G0 (R394). -/
def selectGen (o : Otp) : Option Nat := [3, 2, 1, 0].find? (fun k => slotCode o k == 1)

/-- The active block of a die. -/
def activeBlock (s : State) (d : DieId) : List Byte := match (getSec s d).active with | some k => otpSlot (getOtp s d) k | none => []

/-- The settings hash of a block (R395). -/
def settingsHash (b : List Byte) : W64 := le64 (sha512 ((b.drop 0x40).take 256))

/-- The identity key's seed (R406). -/
def idSeed (o : Otp) : List Byte := (sha512 (o.seed ++ natLe 8 o.serial.toNat ++ [1])).take 32

/-- Whether the active generation revokes key 0 (R396). -/
def revoked (s : State) (d : DieId) : Bool := (leAt (activeBlock s d) 6 1).testBit 0

/-- The floor of a die (R404). -/
def dieFloor (s : State) (d : DieId) : Nat := floorOf (getOtp s d).floorRow

/-! ### Start-up (R390 to R392) -/

/-- A die enters stage 0xF with its one entry (R391). -/
def failStart (s : State) (d : DieId) (cause : Nat) : State :=
  logEntry (setSec s d { getSec s d with stage := 15, failCause := cause }) d { code := 0x0B01, kind := 0x0B, detail := detV cause 0 }

/-- The ROM self-check of one die at POWER_OK. -/
def romCheck (s : State) (p : DieId × SelfCheck) : State :=
  match p.2 with
  | .pass => setSec s p.1 { getSec s p.1 with romOk := true }
  | .fail => failStart s p.1 1

/-- The limit Tj of a die whose rails are down, in quarter degrees (R381, R396): by the GRADE of the generation its OTP would select. -/
def tjDown (s : State) (d : DieId) : Int :=
  match selectGen (getOtp s d) with
  | some k => if leAt (otpSlot (getOtp s d) k) 0x48 1 = 1 then 420 else 380
  | none => 380

/-- After a thermal trip the rails rise only once every sensor reads below Tj (R441). -/
def coolEnough (s : State) : Bool :=
  !s.board.tripHold || allDies.all (fun d => (getLamp s d).temps.all (fun x => decide (x.toInt < tjDown s d)))

/-- POWER_OK_ASSERT (R390 step 3, R384, R441): the base rails are up; device time starts at zero, the stage is 0x0 and kindling's ROM
checks itself. -/
def execPowerOkAssert (rom : List SelfCheck) (s : State) : Host.Outcome State Fault Refusal :=
  let s1 : State := { s with board := { s.board with powerOk := true, tripHold := false }, frozen := 14,
                             times := qmap (fun d _ => { timeReset with running := true, lastSync := if d = 0 then 0 else s.now }) s.times }
  event (s.board.released && s.board.resetN && !s.board.powerOk && vinOk s.board && rom.length == 4 && coolEnough s) s
    ((allDies.zip rom).foldl romCheck s1)

/-- The enabled numbering of a settings block (R17, Table 16.2): the physical core behind each number, 32 and 33 being the spares. -/
def coreMapOf (b : List Byte) : List Nat :=
  (countUp 0 32).map (fun m => if leAt b 0x10 1 = m then 32 else if leAt b 0x11 1 = m then 33 else m)

/-- KINDLING_OTP (R390 step 4, R17, R394, R395, R406): the active generation, its spare map, the settings hash and the identity key. -/
def execKindlingOtp (d : DieId) (s : State) : Host.Outcome State Fault Refusal :=
  let x := getSec s d
  let o := getOtp s d
  let y := { x with otpDone := true, idPub := edPublic (idSeed o) }
  let t := match selectGen o with
    | some k => setSec s d { y with active := some k, hash := settingsHash (otpSlot o k), coreMap := coreMapOf (otpSlot o k) }
    | none => failStart (setSec s d y) d 2
  event (s.board.powerOk && x.romOk && x.stage == 0 && !x.otpDone) s t

/-- STARTUP_DRAM_TRAIN (R390 step 5, R391): the die's DRAM trains, and the cords between D0 and the dies that have trained light. -/
def execStartupDramTrain (d : DieId) (trained : SelfCheck) (s : State) : Host.Outcome State Fault Refusal :=
  let x := getSec s d
  event (s.board.powerOk && x.otpDone && x.active.isSome && x.stage == 0) s
    (match trained with
     | .pass => recompute (setSec s d { x with stage := 1 })
     | .fail => failStart s d 3)

/-! ### Results (Table 16.7) -/

/-- SEC_RESULT after a command: one refused while another runs leaves BUSY at 1. -/
def secDone (s : State) (d : DieId) (op status cause : Nat) (busy : Bool) : State :=
  let x := getSec s d
  setSec s d { x with result := cmdResult x.result status [(b2n (busy || bit x.result 24), 24), (op, 28), (cause, 32)] }

/-- SEC_RESULT.BUSY falls. -/
def secIdle (s : State) (d : DieId) : State :=
  let x := getSec s d
  setSec s d { x with result := setFld x.result 24 24 0 }

/-- The entry of a failed check (R400): `reg` is 0 for SEC_CMD and 1 for OTP_CMD. -/
def fwRejected (s : State) (d : DieId) (cause op reg : Nat) : State :=
  logEntry s d { code := 0x0B02, kind := 0x0B, detail := detV cause (op + 256 * reg) }

/-- A SEC_CMD that fails with a cause of Table 16.4. -/
def secFail (s : State) (d : DieId) (op cause : Nat) : State := fwRejected (secDone s d op 3 cause false) d cause op 0

/-! ### Images (R399 to R402) -/

/-- Whether an image's range lies wholly in a die's own memory, 64-byte aligned (R400, R401). -/
def imageRange (d : DieId) (pa len : Nat) : Bool :=
  let last := pa + max len 1 - 1
  paValid pa && paValid last && pa % 64 == 0 && dieOf pa == d && dieOf last == d

/-- The header fields of an image (Table 16.3). -/
def imageHeader (h : List Byte) : Bool :=
  leAt h 0 4 == 0x5746584B && decide (leAt h 8 2 ≤ 64) && decide (1 ≤ leAt h 0xA 1) && decide (leAt h 0xA 1 ≤ leAt h 0xB 1)
    && decide (1 ≤ leAt h 0xC 1) && decide (leAt h 0xC 1 ≤ leAt h 0xD 1) && leAt h 0xE 1 == 0xB1 && decide (leAt h 0xF 1 ≤ 1)
    && zeroAt h 0x14 236

/-- The image as it lies in memory. -/
def imageAt (s : State) (pa : Nat) : Image :=
  let h := memRead s pa 256
  let n := leAt h 0x10 4
  { version := leAt h 4 4, svn := leAt h 8 2, abiMin := leAt h 0xA 1, abiMax := leAt h 0xB 1, cpvMin := leAt h 0xC 1,
    cpvMax := leAt h 0xD 1, body := memRead s (pa + 256) n, manifest := memRead s (pa + 256 + n) 64 }

/-- The bytes of an image that its checks read: none of a range that is refused before any, the first 64 of one whose length is wrong
(R400). -/
def imageReads (s : State) (home : DieId) (pa len : Nat) : Nat :=
  if ¬ imageRange home pa len ∨ len < 388 then 0
  else if len ≠ 384 + leAt (memRead s pa 64) 0x10 4 then 64 else len

/-- The memory side after the checks of an image have read it (R289). -/
def seeImage (s : State) (home : DieId) (pa len : Nat) : State := noteRead s pa (imageReads s home pa len)

/-- The checks of Table 16.4 in order (R400), of die `d` over an image in die `home`'s memory: the cause of the first that fails, or the
image. `exact` and `same` are the ABI and the MANIFEST that a die must match once D0 runs (R401). -/
def checkImage (s : State) (d home : DieId) (pa len abi : Nat) (exact : Option Nat) (same : Option (List Byte)) : Except Nat Image :=
  let h := memRead s pa 256
  let n := leAt h 0x10 4
  let i := imageAt s pa
  if ¬ imageRange home pa len then .error 0x08
  else if len < 388 then .error 0x01
  else if poisonIn s pa 64 then .error 0x08
  else if len ≠ 384 + n ∨ n < 4 ∨ 16384 < n ∨ n % 4 ≠ 0 then .error 0x01
  else if poisonIn s pa 256 then .error 0x08
  else if ¬ imageHeader h then .error 0x02
  else if leAt h 0xF 1 = 0 ∧ revoked s d then .error 0x03
  else if i.svn < dieFloor s d then .error 0x04
  else if abi < i.abiMin ∨ i.abiMax < abi ∨ exact.getD abi ≠ abi then .error 0x05
  else if poisonIn s pa (320 + n) then .error 0x08
  else if sha512 (memRead s pa (256 + n)) ≠ i.manifest then .error 0x06
  else if poisonIn s pa len then .error 0x08
  else if ¬ edVerify (vendorKeyBytes (leAt h 0xF 1)) i.manifest (memRead s (pa + 320 + n) 64) then .error 0x07
  else match same with
    | some m => if m = i.manifest then .ok i else .error 0x09
    | none => .ok i

/-- The same offset in another die's memory. -/
def sameOffset (d : DieId) (pa : Nat) : Nat := pa % 2 ^ 33 + 2 ^ 33 * d.val

/-- SEC_CMD LOAD (R401): the image named by SEC_ARG0 and SEC_ARG1 is checked; on D0 its copies go to the dies that wait for one. -/
def cmdLoad (s0 : State) (d : DieId) : State :=
  let x := getSec s0 d
  let refused : Bool := decide (x.stage ≠ 1) || bit x.result 24 || (decide (d ≠ 0) && (getSec s0 0).stage == 15)
  let s := if refused then s0 else seeImage s0 d (fld x.arg0 39 0) (fld x.arg1 31 0)
  let pa := fld x.arg0 39 0
  let len := fld x.arg1 31 0
  let abi := fld x.arg1 39 32
  let up := decide (d ≠ 0) && (getSec s 0).stage == 3
  let exact := if up then some s.agree.abi else none
  let same := if up then (getSec s 0).image.map (fun i => i.manifest) else none
  if refused then secDone s d 1 1 0 false
  else match checkImage s d d pa len abi exact same with
    | .error c => secFail (setSec s d { x with loadFailed := true }) d 1 c
    | .ok i =>
      let s1 := secDone (setSec s d { x with stage := 2, pendingImage := some i, loadFailed := false, copyFrom := none }) d 1 0 0 true
      if d = 0 then
        { s1 with agree := { s1.agree with abi := abi },
                  secs := qmap (fun n y => if n ≠ 0 ∧ y.stage = 1 ∧ physUp s1 (cordIdx 0 n) then
                    { y with copyFrom := some (pa, len, abi), loadFailed := false } else y) s1.secs }
      else s1

/-- SEC_LOAD (R401). -/
def execSecLoad (d : DieId) (s : State) : Host.Outcome State Fault Refusal := ok (viaSlot s d 12 0 (fun t => cmdLoad t d))

/-- IMAGE_COPY (R401): a die receives D0's image at the same offset and checks it against its own floor and revocation. A die whose
check fails stays at stage 0x1 with its own cause. -/
def execImageCopy (d : DieId) (s : State) : Host.Outcome State Fault Refusal :=
  let x := getSec s d
  match x.copyFrom with
  | some (pa, len, abi) =>
    let pm := sameOffset d pa
    let s0 := noteRead s pa len
    let s1 := if poisonIn s0 pa len then s0 else memWrite s0 pm (memRead s0 pa len)
    let r := if poisonIn s0 pa len then .error 0x08 else checkImage s1 d d pm len abi none none
    let t := match r with
      | .ok i => setSec s1 d { x with stage := 2, pendingImage := some i, copyFrom := none }
      | .error c => fwRejected (setSec s1 d { x with copyFrom := none, loadFailed := true,
                                                     result := setFld (setFld x.result 39 32 c) 23 16 3 }) d c 1 0
    event (s.board.powerOk && x.stage == 1 && physUp s (cordIdx 0 d)) s t
  | none => ok s

/-! ### Kiln at start and firmware (R390 steps 8 and 9, R392, R408, R409) -/

/-- A mask of the numbers of a list. -/
def maskIn (l : List Nat) : Nat := l.foldl (fun m x => m ||| 2 ^ x) 0

/-- A domain that failed kiln: its entry, and no lit target holds it (R409, R426). `f` gives the domain, the failed segments and the failed
March elements. -/
def kilnFailed (s : State) (d : DieId) (f : Nat × Nat × Nat) : State :=
  let l := getLamp s d
  logEntry (setLamp s d { l with failed := l.failed ||| 2 ^ f.1 }) d
    { code := 0x0B03, kind := 0x0C, index := f.1, detail := detV f.1 (f.2.1 % 65536 + 65536 * (f.2.2 % 65536)) }

/-- Whether a domain test's outcome is one: at most 16 segments and 6 March elements fail (R423). -/
def testOutcome (f : Nat × Nat × Nat) : Bool := decide (f.1 < 11) && decide (f.2.1 ≤ 16) && decide (f.2.2 ≤ 6)

/-- STARTUP_KILN (R390 step 8, R408): kiln has tested every switched domain that no accepted token marks as passed, in ascending order;
`failed` names those that failed. -/
def execStartupKiln (d : DieId) (failed : List (Nat × Nat × Nat)) (s : State) : Host.Outcome State Fault Refusal :=
  let x := getSec s d
  let tested := (countUp 0 11).filter (fun k => !((x.token.getD 0).testBit k))
  let bad := failed.map (fun f => f.1)
  let good := failed.all (fun f => testOutcome f && decide (0 < f.2.1 + f.2.2) && tested.contains f.1) && decide (bad = tested.filter bad.contains)
  let k := getKiln s d
  let s1 := setKiln s d { k with tested := maskIn tested, failed := maskIn bad, passed := maskIn (tested.filter (fun y => !(bad.contains y))),
                                 current := 15 }
  let s2 := failed.foldl (fun t f => kilnFailed t d f) s1
  event (s.board.powerOk && x.stage == 2 && x.kilnDone.isNone && good) s (setSec s2 d { getSec s2 d with kilnDone := some s.now })

/-- STARTUP_WAIT_TIMEOUT (R392): 1 s has passed since the end of D0's own step 8. -/
def execStartupWaitTimeout (s : State) : Host.Outcome State Fault Refusal :=
  let x := getSec s 0
  event (s.board.powerOk && x.stage == 2 && (match x.kilnDone with | some t => decide (t + 1000000000 ≤ s.now) | none => false)) s
    (setSec s 0 { x with waitOver := true })

/-- Whether every other die whose cord to D0 is up has reached stage 0x3 or 0xF, or failed its LOAD (R392). -/
def othersSettled (s : State) : Bool :=
  ([1, 2, 3] : List DieId).all (fun n => !physUp s (cordIdx 0 n) || (getSec s n).stage == 3 || (getSec s n).stage == 15
    || ((getSec s n).stage == 1 && (getSec s n).loadFailed))

/-- FIRMWARE_START (R390 step 9, R392, R402): every stoker receives the firmware and the die reaches stage 0x3; agreement is checked
again, and D0 applies the envelope in force. -/
def execFirmwareStart (d : DieId) (s : State) : Host.Outcome State Fault Refusal :=
  let x := getSec s d
  match x.pendingImage with
  | some i =>
    let s1 := secIdle (setSec s d { x with stage := 3, started := true, image := some i, pendingImage := none }) d
    let u := getStk s1 d
    let s2 := setStk s1 d { u with stokers := u.stokers.map (fun k => { k with handout := true, image := leNat i.manifest }) }
    let asked : List DieId := ([1, 2, 3] : List DieId).filter (fun n => (d == 0 || d == n) && canAsk s2 n)
    let s3 := asked.foldl checkDie s2
    event (s.board.powerOk && x.stage == 2 && x.kilnDone.isSome && (decide (d ≠ 0) || othersSettled s || x.waitOver)) s
      (recompute (retarget s3))
  | none => ok s

/-! ### Tokens and attestation (R407, R408) -/

/-- The staging location of a command's operand (R307): die and offset, where it is aligned, in range, within reach and tagged 0. -/
def tag0Place (s : State) (d : DieId) (addr size align : Nat) : Option (DieId × Nat) :=
  let m : DieId := ⟨addr / 2 ^ 24 % 4, Nat.mod_lt _ (by decide)⟩
  let o := addr % 2 ^ 23
  if addr = o + 2 ^ 24 * m.val ∧ o % align = 0 ∧ o + size ≤ 0x700000 ∧ (m = d ∨ reach s d m = true) ∧ stageOk s m o size 0 = true then
    some (m, o)
  else none

/-- Whether a die accepts a token (R408). -/
def tokenGood (s : State) (d : DieId) (b : List Byte) : Bool :=
  let x := getSec s d
  leAt b 8 8 == (getOtp s d).serial.toNat && x.active == some (leAt b 6 1) && leAt b 0x10 8 == x.hash.toNat
    && edVerify x.idPub (sha512 (b.take 64)) ((b.drop 64).take 64)

/-- SEC_CMD TOKEN (R408). -/
def cmdToken (s : State) (d : DieId) : State :=
  let x := getSec s d
  if x.stage ≠ 1 ∨ bit x.result 24 then secDone s d 2 1 0 false
  else match tag0Place s d (fld x.arg0 39 0) 128 128 with
    | some (m, o) =>
      if m ≠ d then secFail s d 2 0x0A
      else
        let b := stageRead s d o 128
        if tokenGood s d b then secDone (setSec s d { x with token := some (leAt b 0x22 2) }) d 2 0 0 false
        else secFail (setSec s d { x with token := none }) d 2 0x0A
    | none => secFail s d 2 0x0A

/-- SEC_TOKEN (R408). -/
def execSecToken (d : DieId) (s : State) : Host.Outcome State Fault Refusal := ok (viaSlot s d 12 0 (fun t => cmdToken t d))

/-- The lit-domain mask of the contact sheet's DIE entry (Table 3.33). -/
def litMask (s : State) (d : DieId) : Nat := maskIn ((countUp 0 11).filter (fun x => domOf s d x == .lit))

/-- The report's first 192 bytes (Table 16.5). -/
def reportBytes (s : State) (d : DieId) : List Byte :=
  let x := getSec s d
  let run := if x.stage = 3 then x.image else none
  let part : List Byte := match x.active with
    | some k => natLe 1 (leAt (activeBlock s d) 0x48 1) ++ natLe 1 k
    | none => [0xFF, 0xFF]
  natLe 4 0x5441584B ++ natLe 1 d.val ++ natLe 1 0xB1 ++ part ++ natLe 8 (getOtp s d).serial.toNat
    ++ natLe 8 (if x.active.isSome then x.hash.toNat else 0) ++ natLe 4 (match run with | some i => i.version | none => 0)
    ++ natLe 1 (match run with | some i => i.svn | none => 0) ++ natLe 1 (dieFloor s d) ++ natLe 1 (if x.stage = 3 then s.agree.abi else 0)
    ++ natLe 1 x.stage ++ (match run with | some i => padTo 64 0 i.manifest | none => natLe 64 0)
    ++ x.nonce.flatMap (fun w => natLe 8 w.toNat) ++ natLe 8 (dtime s d) ++ natLe 2 (litMask s d) ++ natLe 6 0 ++ padTo 32 0 x.idPub ++ natLe 16 0

/-- SEC_CMD ATTEST (R407). -/
def cmdAttest (s : State) (d : DieId) : State :=
  let x := getSec s d
  let may := x.stage = 1 ∨ x.stage = 2 ∨ x.stage = 3 ∨ (x.stage = 15 ∧ 2 ≤ x.failCause ∧ x.otpDone = true)
  if ¬ may ∨ bit x.result 24 then secDone s d 3 1 0 false
  else match tag0Place s d (fld x.arg0 39 0) 256 256 with
    | none => secDone s d 3 3 0 false
    | some (m, o) =>
      let r := reportBytes s d
      secDone (stageWrite s m o (r ++ edSign (idSeed (getOtp s d)) (sha512 r))) d 3 0 0 false

/-- SEC_ATTEST (R407). -/
def execSecAttest (d : DieId) (s : State) : Host.Outcome State Fault Refusal := ok (viaSlot s d 12 0 (fun t => cmdAttest t d))

/-! ### Rotation (R115, R116, R403) -/

/-- Whether a rotation runs on any die. -/
def rotating (s : State) : Bool := allDies.any (fun n => (getStk s n).rotateTo.isSome)

/-- A die begins its rotation to an image. -/
def startRotation (s : State) (d : DieId) (i : Image) : State :=
  setStk (setSec s d { getSec s d with pendingImage := some i, rotated := [] }) d { getStk s d with rotateTo := some (leNat i.manifest) }

/-- One other joined die receives the image of a rotation from D0's memory, checks it, and rotates or keeps its image (R403). -/
def rotateOther (pa len : Nat) (s : State) (n : DieId) : State :=
  match checkImage s n 0 pa len s.agree.abi none none with
  | .ok i => startRotation s n i
  | .error c => fwRejected s n c 4 0

/-- SEC_CMD ROTATE (R403). -/
def cmdRotate (s : State) (d : DieId) : State :=
  let x := getSec s d
  let pa := fld x.arg0 39 0
  let len := fld x.arg1 31 0
  if d ≠ 0 ∨ x.stage ≠ 3 ∨ bit x.result 24 ∨ rotating s then secDone s d 4 1 0 false
  else match checkImage (seeImage s 0 pa len) 0 0 pa len s.agree.abi none none with
    | .error c => secFail (seeImage s 0 pa len) 0 4 c
    | .ok i =>
      let s1 := startRotation (setSec (seeImage s 0 pa len) 0 { x with oldImage := x.oldImage.or x.image, rotateStopped := false }) 0 i
      let js : List DieId := ([1, 2, 3] : List DieId).filter (fun n => s.agree.joined.testBit n.val)
      secDone (js.foldl (rotateOther pa len) s1) 0 4 0 0 true

/-- SEC_ROTATE (R403). -/
def execSecRotate (d : DieId) (s : State) : Host.Outcome State Fault Refusal := ok (viaSlot s d 12 0 (fun t => cmdRotate t d))

/-- The end of a die's rotation: with the last, D0's SEC_RESULT leaves BUSY, and the contact sheet shows the new version unless the rotation
has stopped on a die, whose last stoker has not rotated then (R116, R403). A stoker fenced for its image's sake serves again (R414). -/
def endRotation (s : State) (d : DieId) (done : Bool) : State :=
  let x := getSec s d
  let u := getStk s d
  let l := getLog s d
  let back := if done then (u.stokers.filter (fun k => k.fenced)).length else 0
  let s1 := setLog (setSec s d { x with image := if done then x.pendingImage else x.image, pendingImage := none, rotated := [] }) d
    { l with fencedUnits := l.fencedUnits - back }
  let end1 (k : Stoker) : Stoker :=
    { k with rotating := false, fenced := k.fenced && !done, handout := k.handout || (k.rotating && !k.dark) || (k.fenced && done) }
  let s2 := setStk s1 d { u with rotateTo := none, stokers := u.stokers.map end1 }
  let y := getSec s2 0
  let stopped := y.rotateStopped || (!done && y.oldImage.isSome)
  let s3 := setSec s2 0 { y with rotateStopped := stopped }
  if rotating s3 ∨ y.oldImage.isNone then s3
  else secIdle (setSec s3 0 { getSec s3 0 with oldImage := if stopped then y.oldImage else none }) 0

/-- Who waits for an answer, once frame `f` has become frame `g`. -/
def moveAsker (f g : Nat) : Asker → Asker
  | .stoker h q n pa => .stoker (if h = f then g else h) q n pa
  | w => w

/-- A frame moved whole to another stoker: everything that names it follows (R115). -/
def moveFrame (s : State) (d : DieId) (f g : Nat) : State :=
  let x := frameOf' s d f
  let s1 := setFrame (setFrame s d g x) d f (frameFree f)
  let sub (y : Submission) : Submission := if y.frame = f then { y with frame := g } else y
  let u := getStk s1 d
  let s2 := setStk s1 d { u with engines := u.engines.map (fun e => { e with subs := e.subs.map sub, full := e.full.map sub }) }
  let s3 := updRun s2 d x.queue x.count (fun r => { r with frame := g })
  let s4 : State := { s3 with
    signals := mmap (fun _ y => if y.src = d ∧ y.frame = some f then { y with frame := some g } else y) s3.signals,
    commits := mmap (fun _ y => if y.src = d ∧ y.frame = f then { y with frame := g } else y) s3.commits
    ends := qset s3.ends d ((getEnds s3 d).map (fun x =>
      { x with asks := mmap (fun _ a => { a with who := moveAsker f g a.who }) x.asks,
               answers := x.answers.map (fun a => { a with who := moveAsker f g a.who }) })) }
  if x.park = .ready then readyFrame s4 d g else s4

/-- The frames of a stoker moved where a frame of another stoker is free (R86, R115). -/
def moveFrames (s : State) (d : DieId) (k : Nat) : State :=
  (countUp (4 * k) 4).foldl (fun t f =>
    if (frameOf' t d f).busy then
      match pickFrame t d (fun j => j ≠ k && stokerOpen t d j) with
      | some g => moveFrame t d f g
      | none => t
    else t) s

/-- STOKER_ROTATE (R115, R116): the die rotates its next stoker: no records are handed to it, its frames are moved or waited for, and
once it holds none it loads the new image and starts, or fails and stays dark, which stops the rotation. -/
def execStokerRotate (d : DieId) (st : Fin 8) (started : SelfCheck) (s : State) : Host.Outcome State Fault Refusal :=
  let k := st.val
  let x := getSec s d
  let next := (countUp 0 8).find? (fun j => !(x.rotated.contains j) && !(stokerOf s d j).dark)
  match (getStk s d).rotateTo, x.pendingImage with
  | some image, some i =>
    let s1 := moveFrames (setStoker s d k { stokerOf s d k with handout := false, rotating := true }) d k
    let y := stokerOf s1 d k
    let t :=
      if (freeFrames s1 d k).length < 4 then s1
      else match started with
        | .pass =>
          let s2 := setStoker s1 d k { y with image := image, handout := !y.fenced, rotating := false }
          let s3 := setSec s2 d { getSec s2 d with rotated := (getSec s2 d).rotated ++ [k] }
          if (countUp 0 8).all (fun j => (getSec s3 d).rotated.contains j || (stokerOf s3 d j).dark) then endRotation s3 d true else s3
        | .fail =>
          let s2 := setStoker s1 d k { y with dark := true, rotating := false }
          endRotation (logEntry s2 d { code := 0x0205, kind := 0x03, index := 4 * k, detail := detV k i.version }) d false
    event (s.board.powerOk && next == some k) s t
  | _, _ => ok s

/-! ### OTP commands (R397, R398, R405) -/

/-- OTP_RESULT after a command. -/
def otpRes (s : State) (d : DieId) (status cause : Nat) (busy : Bool) : State :=
  let x := getSec s d
  setSec s d { x with otpResult := cmdResult x.otpResult status [(b2n (busy || bit x.otpResult 24), 24), (cause, 32)] }

/-- An OTP_CMD that fails with a cause. -/
def otpFail (s : State) (d : DieId) (op cause : Nat) : State := fwRejected (otpRes s d 3 cause false) d cause op 1

/-- OTP_RESULT.BUSY of a die as what it burns gives it; D0's stays until every die has raised its floor (R405). -/
def otpIdle (s : State) (d : DieId) : State :=
  let x := getSec s d
  if x.burning.isNone ∧ x.raising.isNone ∧ x.raiseLeft.isEmpty then setSec s d { x with otpResult := setFld x.otpResult 24 24 0 } else s

/-- OTP_CMD BURN (R397). -/
def cmdBurn (s : State) (d : DieId) : State :=
  let x := getSec s d
  if bit x.otpResult 24 ∨ x.stage ≠ 3 then otpRes s d 1 0 false
  else match tag0Place s d (fld x.otpArg 39 0) 1024 1 with
    | none => otpFail s d 1 0x0B
    | some (m, o) =>
      let b := stageRead s m o 1024
      let k := leAt b 4 1
      let ot := getOtp s d
      if k < 4 ∧ decide (x.active.getD 0 < k) ∧ slotCode ot k = 0 ∧ blockValid ot.serial k b ∧ ¬ (leAt b 5 1 = 0 ∧ revoked s d) then
        otpRes (setSec s d { x with burning := some (k, b) }) d 0 0 true
      else otpFail s d 1 0x0B

/-- OTP_BURN (R397). -/
def execOtpBurn (d : DieId) (s : State) : Host.Outcome State Fault Refusal := ok (viaSlot s d 11 0 (fun t => cmdBurn t d))

/-- BURN_DONE (R398, R405): a die's burn ends with its read-back; a mismatch leaves the slot SPENT. Where no slot is being burnt, the
raise of its floor ends. -/
def execBurnDone (d : DieId) (readBack : SelfCheck) (s : State) : Host.Outcome State Fault Refusal :=
  let x := getSec s d
  let o := getOtp s d
  match x.burning, x.raising with
  | some (k, b), _ =>
    let s1 := setSec s d { x with burning := none }
    event s.board.powerOk s
      (match readBack with
       | .pass => otpIdle (setOtp s1 d { o with slots := lset o.slots k b }) d
       | .fail =>
         let s2 := setOtp s1 d { o with spent := lset o.spent k true }
         let y := getSec s2 d
         fwRejected (otpIdle (setSec s2 d { y with otpResult := setFld (setFld y.otpResult 39 32 0x0C) 23 16 3 }) d) d 0x0C 1 1)
  | none, some f =>
    let s1 := setOtp (setSec s d { x with raising := none }) d { o with floorRow := BitVec.ofNat 64 (2 ^ f - 1) }
    let z := getSec s1 0
    event s.board.powerOk s (otpIdle (otpIdle (setSec s1 0 { z with raiseLeft := z.raiseLeft.erase d.val }) 0) d)
  | none, none => ok s

/-- OTP_CMD RAISE_FLOOR (R405). -/
def cmdRaise (s : State) (d : DieId) (f : Nat) : State :=
  let x := getSec s d
  if f < 1 ∨ 64 < f then s
  else if d ≠ 0 ∨ bit x.otpResult 24 ∨ x.stage ≠ 3 then otpRes s d 1 0 false
  else if f ≤ dieFloor s 0 ∨ (x.image.map (fun i => i.svn)).getD 0 < f then otpFail s 0 2 0x04
  else
    let js : List DieId := allDies.filter (fun n => s.agree.joined.testBit n.val && decide (dieFloor s n < f))
    let s1 := otpRes (setSec s 0 { x with raiseLeft := js.map (fun n => n.val) }) 0 0 0 true
    js.foldl (fun t n =>
      let y := getSec t n
      setSec t n { y with raising := some f, otpResult := setFld y.otpResult 24 24 1 }) s1

/-- OTP_RAISE_FLOOR (R405): a value of F outside 1 to 64 is reserved. -/
def execOtpRaiseFloor (d : DieId) (f : BitVec 7) (s : State) : Host.Outcome State Fault Refusal :=
  ok (viaSlot s d 11 0 (fun t => cmdRaise t d f.toNat))

/-! ### Registers (Tables 16.6 to 16.9) -/

/-- SEC_IMAGE. -/
def secImageReg (s : State) (d : DieId) : W64 :=
  match (getSec s d).started, (getSec s d).image with
  | true, some i => packFields [(i.version, 0), (i.svn, 32), (s.agree.abi % 256, 40)]
  | _, _ => 0

/-- OTP_STATE. -/
def otpStateReg (s : State) (d : DieId) : W64 :=
  packFields ((countUp 0 4).map (fun k => (slotCode (getOtp s d) k, 2 * k))
    ++ [((getSec s d).active.getD 0, 8), (b2n (revoked s d), 10), (dieFloor s d, 16)])

/-- A write of the SEC block. -/
def wrSec (s : State) (d : DieId) (off : Nat) (v : W64) : State :=
  let x := getSec s d
  if off = 0 then
    match fld v 3 0 with
    | 1 => cmdLoad s d
    | 2 => cmdToken s d
    | 3 => cmdAttest s d
    | 4 => cmdRotate s d
    | _ => s
  else if off = 8 then setSec s d { x with arg0 := keepBits v (2 ^ 40 - 1) }
  else if off = 0x10 then setSec s d { x with arg1 := keepBits v (2 ^ 40 - 1) }
  else setSec s d { x with nonce := lset x.nonce ((off - 0x28) / 8) v }

/-- A write of the OTP block. -/
def wrOtp (s : State) (d : DieId) (off : Nat) (v : W64) : State :=
  let x := getSec s d
  if off = 0 then
    match fld v 3 0 with
    | 1 => cmdBurn s d
    | 2 => cmdRaise s d (fld v 10 4)
    | _ => s
  else setSec s d { x with otpArg := keepBits v (2 ^ 40 - 1) }

end Sys2Proof.Machine
end

