-- ==== Sys2Proof/Machine/Kiln.lean ====
section
/-! DEFINITION. Kiln, link patterns, the DRAM pattern test and the test access port (18, R422 to R433). -/

namespace Sys2Proof.Machine

/-! ### PRBS sequences (R428) -/

/-- Degree and second tap of sequence `m` (Table 18.6). -/
def prbsTaps (m : Nat) : Nat × Nat :=
  match m with
  | 1 => (7, 6)
  | 2 => (15, 14)
  | 3 => (23, 18)
  | _ => (31, 28)

/-- The bit that follows the last `n` bits of a sequence, the newest in bit 0. -/
def prbsNext (m reg : Nat) : Bool := (reg.testBit ((prbsTaps m).1 - 1)).xor (reg.testBit ((prbsTaps m).2 - 1))

/-- A register that takes in one bit. -/
def prbsShift (m reg : Nat) (b : Bool) : Nat := (2 * reg + b2n b) % 2 ^ (prbsTaps m).1

/-- A generator's register after `k` bits. -/
def prbsRun (m : Nat) : Nat → Nat → Nat
  | 0, reg => reg
  | k + 1, reg => prbsRun m k (prbsShift m reg (prbsNext m reg))

/-- `k` bits of lane `j`'s generator, from its bit `from_` on: it starts at all-ones and is advanced by 97 j bits (R428). -/
def prbsBits (m j from_ k : Nat) : List Bool :=
  (countUp 0 k).map (fun i => (prbsRun m (97 * j + from_ + i) (2 ^ (prbsTaps m).1 - 1)).testBit ((prbsTaps m).1 - 1))

/-- A checker at rest. -/
def checkerFree : Checker := { reg := 0, taken := 0, good := 0, locked := false, errors := 0, recent := [] }

/-- A checker takes one received bit (R428). -/
def checkBit (m : Nat) (c : Checker) (b : Bool) : Checker :=
  let wrong := b.xor (prbsNext m c.reg)
  if c.locked then
    let last := (wrong :: c.recent).take 64
    let e := satAdd 32 c.errors (b2n wrong)
    if 32 ≤ (last.filter id).length then { checkerFree with errors := e }
    else { c with reg := prbsShift m c.reg (prbsNext m c.reg), errors := e, recent := last }
  else if c.taken < (prbsTaps m).1 then { c with reg := prbsShift m c.reg b, taken := c.taken + 1 }
  else if wrong then { checkerFree with reg := b2n b, taken := 1, errors := c.errors }
  else { c with reg := prbsShift m c.reg b, good := c.good + 1, locked := decide (63 ≤ c.good) }

/-- A checker takes the bits of its lane. -/
def checkBits (m : Nat) (c : Checker) (bits : List Bool) : Checker := bits.foldl (checkBit m) c

/-! ### Cord patterns (R428, R429) -/

/-- KILN_LINKe.MODE of an end. -/
def linkMode (s : State) (d : DieId) (e : Nat) : Nat := fld (lget 0 (getKiln s d).links e) 2 0

/-- The sequence that an end transmits: its own, or the one that its peer's mode asks for (R429). -/
def linkSends (s : State) (d : DieId) (e : Nat) : Nat :=
  if linkMode s d e ≠ 0 then linkMode s d e else linkMode s (endPeer d e) (endTo (endPeer d e) d)

/-- A write of KILN_LINKe (R429): pattern mode stops traffic and counts as DOWN; with MODE 0 on both ends the cord retrains. -/
def wrKilnLink (s : State) (d : DieId) (e : Nat) (v : W64) : State :=
  if 4 < fld v 2 0 ∨ 67 < fld v 14 8 then s
  else
    let k := getKiln s d
    let i := endCord d e
    let c := cordOf s i
    let s1 := setKiln s d { k with links := lset k.links e (keepBits v 0x7F07) }
    let now := patternMode s1 i
    if linkMode s1 d e = linkMode s d e then s1
    else if now then
      let s2 := onEnds s1 i (fun x => { freshEnd x with checkers := [] })
      recompute (if c.lit then setCord s2 i { dropCord c with state := .down, training := false } else s2)
    else recompute (if c.lit then retrainCord s1 i else s1)

/-- KILN_LINK_WRITE (R429). -/
def execKilnLinkWrite (d : DieId) (e : Fin 3) (v : W64) (s : State) : Host.Outcome State Fault Refusal :=
  ok (viaSlot s d 10 v (fun t => wrKilnLink t d e.val v))

/-- The checker of a lane of an end. -/
def laneChecker (s : State) (d : DieId) (e lane : Nat) : Checker := mget checkerFree (endOf s d e).checkers lane

/-- A lane's checker takes bits received from the peer. -/
def feedLane (s : State) (d : DieId) (e lane : Nat) (bits : List Bool) : State :=
  let x := endOf s d e
  let c := checkBits (linkSends s (endPeer d e) (endTo (endPeer d e) d)) (laneChecker s d e lane) bits
  setEnd s d e { x with checkers := mput checkerFree x.checkers lane c }

/-- Whether an end's lanes carry a pattern. -/
def patterned (s : State) (d : DieId) (e lane : Nat) : Bool :=
  s.board.powerOk && (cordOf s (endCord d e)).lit && patternMode s (endCord d e) && decide (lane < 68)

/-- CHECKER_LOCK (R428): a checker that is not locked loads its register from the bits received and locks. -/
def execCheckerLock (d : DieId) (e : Fin 3) (lane : BitVec 7) (bits : List Bool) (s : State) : Host.Outcome State Fault Refusal :=
  let t := feedLane s d e.val lane.toNat bits
  event (patterned s d e.val lane.toNat && !(laneChecker s d e.val lane.toNat).locked && (laneChecker t d e.val lane.toNat).locked) s t

/-- CHECKER_LOSES_LOCK (R428): a locked checker counts the bits in error; 32 of 64 drop its lock, and it may lock again. -/
def execCheckerLosesLock (d : DieId) (e : Fin 3) (lane : BitVec 7) (bits : List Bool) (s : State) : Host.Outcome State Fault Refusal :=
  event (patterned s d e.val lane.toNat && (laneChecker s d e.val lane.toNat).locked) s (feedLane s d e.val lane.toNat bits)

/-- KILN_LINK_ERRe: the checker of the selected lane. -/
def kilnLinkErrReg (s : State) (d : DieId) (e : Nat) : W64 :=
  let c := laneChecker s d e (fld (lget 0 (getKiln s d).links e) 14 8)
  packFields [(c.errors, 0), (b2n c.locked, 32)]

/-- KILN_HP_ERR: the host port's checkers. -/
def kilnHpErrReg (s : State) (d : DieId) : W64 :=
  let m := (getPort s d).checkers
  packFields ((m.foldl (fun a x => satAdd 32 a x.2.errors) 0, 0)
    :: (countUp 0 18).map (fun j => (b2n (mget checkerFree m j).locked, 32 + j)))

/-! ### DisplayPort patterns (R431) -/

/-- A write of KILN_DP: accepted while the output is off; a pattern of another coding, or a reserved rate or lane code, is reserved. -/
def wrKilnDp (s : State) (d : DieId) (v : W64) : State :=
  let k := getKiln s d
  let p := fld v 4 0
  if easOn (getEas s d) ∨ 15 < p ∨ ¬ dpPatternFits p (fld v 7 5) ∨ fld v 7 5 = 7 ∨ fld v 9 8 = 3 then s
  else setKiln s d { k with dp := keepBits v 0x7FF, dpActive := if p = 0 then 0 else keepBits v 0x3FF }

/-- KILN_DP_WRITE (R431). -/
def execKilnDpWrite (d : DieId) (v : W64) (s : State) : Host.Outcome State Fault Refusal :=
  ok (viaSlot s d 10 v (fun t => wrKilnDp t d v))

/-! ### Kiln runs (R422 to R427) -/

/-- Kiln lights the next domain of a run for its test, where its allowance fits the envelope in force (R424). -/
def kilnBegin (s : State) (d : DieId) : State :=
  let k := getKiln s d
  match k.run with
  | some r =>
    match r.left with
    | x :: rest =>
      if k.current = 15 ∧ fits s d x = true then
        let l := getLamp s d
        let s1 := setLamp (setKiln s d { k with current := x, run := some { r with left := rest, awake := true } }) d
          { l with dom := lset l.dom x .dark }
        if awake s d then s1 else recompute s1
      else s
    | [] => s
  | none => s

/-- KILN_RESULT after a command: one refused while a run is in progress leaves BUSY at 1. -/
def kilnDone (s : State) (d : DieId) (status : Nat) (busy : Bool) : State :=
  let k := getKiln s d
  setKiln s d { k with result := cmdResult k.result status [(b2n (busy || bit k.result 24), 24)] }

/-- Whether a domain may be tested: excluded by its mask, dark or ember, not changing (R425). -/
def testable (s : State) (d : DieId) (x : Nat) : Bool :=
  !(bit (maskOfDie s d) x) && !(domOf s d x == .lit) && (match (getLamp s d).changing with | some (y, _) => !(x == y) | none => true)

/-- KILN_CMD RUN (R425). -/
def cmdKilnRun (s : State) (d : DieId) (domains : Nat) (token : Bool) : State :=
  let k := getKiln s d
  let xs := (countUp 0 11).filter (fun x => domains.testBit x)
  let place := tag0Place s d (fld k.arg 39 0) 128 128
  if domains % 2 ^ 11 = 0 then s
  else if (getSec s d).stage ≠ 3 ∨ k.run.isSome ∨ ¬ xs.all (testable s d) then kilnDone s d 1 false
  else if token ∧ (match place with | some (m, _) => decide (m ≠ d) | none => true) = true then kilnDone s d 3 false
  else
    let r : KilnRun := { left := xs, token := if token then place.map (fun p => p.2) else none, awake := false, endAt := 0 }
    let s1 := kilnDone s d 0 true
    kilnBegin (setKiln s1 d { getKiln s1 d with tested := 0, passed := 0, failed := 0, current := 15, run := some r }) d

/-- KILN_RUN (R425). -/
def execKilnRun (d : DieId) (domains : BitVec 11) (token : Bool) (s : State) : Host.Outcome State Fault Refusal :=
  ok (viaSlot s d 10 0 (fun t => cmdKilnRun t d domains.toNat token))

/-- A run ends: KILN_RESULT.BUSY falls, and a die that kiln woke sleeps again (R424). -/
def kilnEnd (s : State) (d : DieId) : State :=
  let k := getKiln s d
  recompute (retarget (setKiln s d { k with run := none, result := setFld k.result 24 24 0 }))

/-- KILN_DOMAIN_TEST (R423, R426): the test of the domain under test ends, with the segments and March elements that failed; the next
begins, or the run waits for its token. -/
def execKilnDomainTest (d : DieId) (segments march : Nat) (s : State) : Host.Outcome State Fault Refusal :=
  let k := getKiln s d
  let x := k.current
  match k.run with
  | some r =>
    let pass := segments = 0 ∧ march = 0
    let m := 2 ^ x
    let s1 := setKiln s d { k with current := 15, tested := k.tested ||| m, passed := if pass then k.passed ||| m else k.passed,
                                   failed := if pass then k.failed else k.failed ||| m,
                                   run := some { r with endAt := dtime s d } }
    let s2 := if pass then s1 else retarget (kilnFailed s1 d (x, segments, march))
    let t := if r.left.isEmpty ∧ r.token.isNone then kilnEnd s2 d else kilnBegin s2 d
    event (s.board.powerOk && testOutcome (x, segments, march)) s t
  | none => ok s

/-- The token's first 64 bytes (Table 18.3). -/
def tokenBytes (s : State) (d : DieId) (time : Nat) : List Byte :=
  let k := getKiln s d
  let x := getSec s d
  natLe 4 0x5456584B ++ natLe 1 d.val ++ natLe 1 0xB1 ++ natLe 1 (x.active.getD 0) ++ natLe 1 1 ++ natLe 8 (getOtp s d).serial.toNat
    ++ natLe 8 x.hash.toNat ++ natLe 8 time ++ natLe 2 k.tested ++ natLe 2 k.passed ++ natLe 2 k.failed ++ natLe 2 0
    ++ natLe 4 (match x.image with | some i => i.version | none => 0) ++ natLe 20 0

/-- KILN_TOKEN_WRITE (R427): the signed token is written, where its piece is still tagged 0, and the run ends. -/
def execKilnTokenWrite (d : DieId) (s : State) : Host.Outcome State Fault Refusal :=
  match (getKiln s d).run with
  | some r =>
    match r.token with
    | some o =>
      let b := tokenBytes s d r.endAt
      let s1 := if stageOk s d o 128 0 then stageWrite s d o (b ++ edSign (idSeed (getOtp s d)) (sha512 b)) else s
      event (s.board.powerOk && r.left.isEmpty && (getKiln s d).current == 15) s (kilnEnd s1 d)
    | none => ok s
  | none => ok s

/-- KILN_STATUS. -/
def kilnStatusReg (s : State) (d : DieId) : W64 :=
  let k := getKiln s d
  packFields [(k.tested, 0), (k.passed, 16), (k.failed, 32), (k.current, 48)]

/-! ### DRAM pattern test (R432) -/

/-- KILN_DRAM_CMD RUN (R432): a reserved pattern or no passes is no command. -/
def cmdDramRun (s : State) (d : DieId) (pattern passes : Nat) : State :=
  let k := getKiln s d
  let res := k.dramResult
  if pattern < 1 ∨ 4 < pattern ∨ passes = 0 then s
  else if (getMemu s d).spares = 0 ∨ k.dram.isSome then
    setKiln s d { k with dramResult := cmdResult res 1 [(fld res 24 24, 24), (fld res 63 32, 32)] }
  else setKiln s d { k with dramResult := cmdResult res 0 [(1, 24), (0xFF, 32)],
                            dram := some { pattern := pattern, left := passes, inPass := true } }

/-- KILN_DRAM_RUN (R432). -/
def execKilnDramRun (d : DieId) (pattern : BitVec 3) (passes : Byte) (s : State) : Host.Outcome State Fault Refusal :=
  ok (viaSlot s d 10 0 (fun t => cmdDramRun t d pattern.toNat passes.toNat))

/-- KILN_DRAM_PASS (R432): a pass ends with the bit errors of each failing lane; after the last the result leaves BUSY. -/
def execKilnDramPass (d : DieId) (errors : List (Nat × Nat)) (s : State) : Host.Outcome State Fault Refusal :=
  let k := getKiln s d
  match k.dram with
  | some r =>
    let first := match errors with | (l, _) :: _ => if fld k.dramResult 39 32 = 0xFF then l else fld k.dramResult 39 32
                                   | [] => fld k.dramResult 39 32
    let n := errors.foldl (fun a p => satAdd 24 a p.2) (fld k.dramResult 63 40)
    let res := setFld (setFld k.dramResult 39 32 first) 63 40 n
    let good := errors.all (fun p => decide (p.1 < 144) && decide (0 < p.2))
    event (s.board.powerOk && r.inPass && good) s
      (if r.left ≤ 1 then setKiln s d { k with dramResult := setFld res 24 24 0, dram := none }
       else setKiln s d { k with dramResult := res, dram := some { r with left := r.left - 1, inPass := false } })
  | none => ok s

/-- What kiln does as time passes: it begins a test that waited for the envelope, and the next pass of a DRAM test, which ends where
retirement has taken its row (log 18). -/
def kilnTick (s : State) (d : DieId) : State :=
  let s1 := kilnBegin s d
  let k := getKiln s1 d
  match k.dram with
  | some r =>
    if r.inPass ∨ (getMemu s1 d).retiring.isSome then s1
    else if (getMemu s1 d).spares = 0 then setKiln s1 d { k with dramResult := setFld k.dramResult 24 24 0, dram := none }
    else setKiln s1 d { k with dram := some { r with inPass := true } }
  | none => s1

/-- A write of the KILN block. -/
def wrKiln (s : State) (d : DieId) (off : Nat) (v : W64) : State :=
  let k := getKiln s d
  if off = 0 then (if fld v 3 0 = 1 then cmdKilnRun s d (fld v 14 4) (bit v 15) else s)
  else if off = 8 then setKiln s d { k with arg := keepBits v (2 ^ 40 - 1) }
  else if off = 0x20 ∨ off = 0x28 ∨ off = 0x30 then wrKilnLink s d ((off - 0x20) / 8) v
  else if off = 0x58 then wrKilnDp s d v
  else if fld v 3 0 = 1 then cmdDramRun s d (fld v 6 4) (fld v 15 8) else s

/-! ### Test access port (R433) -/

/-- While EXTEST, CLAMP or HIGHZ stands in a die's instruction register its host port serves nothing. -/
def tapStopsPort (s : State) (d : DieId) : Bool :=
  let i := (getTap s d).ir
  i == 0x00 || i == 0x02 || i == 0x03

/-- A code loaded into a die's instruction register, with what it drives onto the balls. -/
def loadTap (s : State) (d : DieId) (code : Byte) (driven : List Bool) : State := setTap s d { getTap s d with ir := code, driven := driven }

/-- TAP_RESET (R433): BYPASS on every die. -/
def execTapReset (s : State) : Host.Outcome State Fault Refusal :=
  event s.board.powerOk s { s with taps := qmap (fun _ x => { x with ir := 0xFF, driven := [] }) s.taps }

/-- EXTEST (R433): the boundary cells drive the balls. -/
def execExtest (d : DieId) (s : State) : Host.Outcome State Fault Refusal := event s.board.powerOk s (loadTap s d 0x00 (getTap s d).cells)

/-- SAMPLE_PRELOAD (R433): the boundary cells are loaded; the balls stay the die's. -/
def execSamplePreload (d : DieId) (cells : List Bool) (s : State) : Host.Outcome State Fault Refusal :=
  event s.board.powerOk s (setTap s d { ir := 0x01, cells := cells, driven := [] })

/-- CLAMP (R433): the boundary cells drive the balls, and the bypass register is selected. -/
def execClamp (d : DieId) (s : State) : Host.Outcome State Fault Refusal := event s.board.powerOk s (loadTap s d 0x02 (getTap s d).cells)

/-- HIGHZ (R433): no ball is driven. -/
def execHighz (d : DieId) (s : State) : Host.Outcome State Fault Refusal := event s.board.powerOk s (loadTap s d 0x03 [])

/-- BYPASS (R433): every code but the four above and 0x80 to 0xFE. -/
def execBypass (d : DieId) (code : Byte) (s : State) : Host.Outcome State Fault Refusal :=
  event (s.board.powerOk && decide (4 ≤ code.toNat) && (decide (code.toNat < 0x80) || code == 0xFF)) s (loadTap s d code [])

/-- PRODUCTION_SCAN (R433): codes 0x80 to 0xFE; they act as BYPASS once OTP slot G0 is not BLANK. What the scan chains do while it is
BLANK is the maker's (log 19); the selection of the code is all the model holds. -/
def execProductionScan (d : DieId) (code : Byte) (s : State) : Host.Outcome State Fault Refusal :=
  event (s.board.powerOk && decide (0x80 ≤ code.toNat) && decide (code.toNat ≤ 0xFE)) s (loadTap s d code [])

end Sys2Proof.Machine
end

