-- ==== Sys2Proof/Machine/TenReset.lean ====
section
/-! DEFINITION. Tenant resets, DIE errors and the parity of on-die structures (17, R411 to R418). -/

namespace Sys2Proof.Machine

/-! ### Ending records at once (R107, R412) -/

/-- A frame's submissions leave the engines' queues. -/
def dropFrameSubs (s : State) (d : DieId) (f : Nat) : State :=
  let u := getStk s d
  let keep (y : Submission) : Bool := !(y.frame == f)
  setStk s d { u with engines := u.engines.map (fun e => { e with subs := e.subs.filter keep, full := e.full.filter keep }) }

/-- A frame ends at its current instruction and is free (R107). -/
def freeFrame (s : State) (d : DieId) (f : Nat) : State :=
  setFrame (parkFrame (dropFrameSubs s d f) d f .ended) d f (frameFree f)

/-- Every running record of queue `q` ends at once with the status `st` gives it, the steps they left open are aborted (R282), and the queue
is left STOPPED (R76). -/
def endRuns (s : State) (d : DieId) (q : Nat) (st : RunRec → Nat) : State :=
  let x := stopQueue (queueOf s d q)
  let y := x.runs.foldl (fun y r => endRecord { y with runs := y.runs.filter (fun z => !(z.record.count == r.record.count)) }
    r.record.count (st r) r.record.tag) x
  abortSteps (x.runs.foldl (fun t r => freeFrame t d r.frame) (setQueue s d q y)) d
    (fun z => z.queue == q && x.runs.any (fun r => r.record.count == z.count))

/-! ### Tenant reset (R416 to R418) -/

/-- A tenant's record on a die that has none. -/
def tenRecZero : TenRecord :=
  { start := 0, finish := 0, resets := 0, aborted := 0, slots := 0, ops := 0, flips := 0, faults := 0, lastFault := 0 }

/-- Tenant `t`'s record on die `d`. -/
def tenRec (s : State) (d : DieId) (t : Nat) : TenRecord := mget tenRecZero (getTenRecs s d) t

/-- Replace tenant `t`'s record on die `d`. -/
def setTenRec (s : State) (d : DieId) (t : Nat) (x : TenRecord) : State := setTenRecs s d (mput tenRecZero (getTenRecs s d) t x)

/-- Contexts of a tenant that are not FREE. -/
def ctxsOfTenant (s : State) (t : Nat) : List Nat := ((tabs s).contexts.filter (fun e => e.2.tenant == t && !(e.2.state == .free))).map (fun e => e.1)

/-- Operations of a tenant that run on a die: DMA, retort, generation steps and passes, for OPS_STOPPED (Table 17.4). -/
def tenantOps (s : State) (d : DieId) (t : Nat) : Nat :=
  let r := getRet s d
  ((getDma s d).chans.filter (fun c => (c.active.map (fun j => j.tenant)) == some t)).length
    + ([r.e0, r.e1].filter (fun e => (e.job.map (fun j => j.tenant)) == some t)).length
    + ((getGen s d).steps.filter (fun x => x.tenant == t)).length
    + ((getGeo s d).passes.filter (fun p => p.tenant == t && !p.done)).length

/-- The part of one die in a tenant reset (R416 steps 1 to 4): queues and frames, operations, slots. D0 makes TENANT_RESET_BEGIN
(Table 17.10 step 1). -/
def resetOnDie (t : Nat) (s : State) (d : DieId) : State :=
  let cs := ctxsOfTenant s t
  let qs := ((getQueues s d).filter (fun e => !(e.2.state == .free) && cs.contains e.2.ctx)).map (fun e => e.1)
  let aborted := (qs.map (fun q => (queueOf s d q).runs.length)).sum
  let held := (cs.filter (fun c => (slotHolding s d c).isSome)).length
  let running := tenantOps s d t
  let (n0, s0) := discardSubs s d t
  let s1 := qs.foldl (fun x q => endRuns x d q (fun _ => 5)) s0
  let (n1, s2) := discardDma s1 d t
  let (n2, s3) := discardRet s2 d t
  let (n3, s4) := discardGen s3 d t
  let s5 := abortSteps s4 d (fun x => x.tenant == t)
  let s6 := ((getGeo s5 d).passes.filter (fun p => p.tenant == t && !p.done && !p.aborted)).foldl markAborted s5
  let (flips, s7) := discardEas s6 d t
  let ds := ((getCores s7 d).dispatches.filter (fun e => cs.contains e.2.ctx)).map (fun e => e.1)
  let s8 := ds.foldl (fun x i => killDispatch x d i) s7
  let s9 := cs.foldl (fun x c => discardOn x d c) s8
  let r := tenRec s9 d t
  let s10 := setTenRec s9 d t { r with start := dtime s d, resets := r.resets + 1, aborted := aborted, slots := held,
                                       ops := n0 + n1 + n2 + n3 + running, flips := flips }
  if d = 0 then logEntry s10 0 { code := 0x0C01, kind := 0x0D, tenant := some t, detail := detV 0 0 } else s10

/-- TEN_CMD RESET (R61, R416): the tenant is RESETTING, and every die of the joined set acts. -/
def cmdTenantReset (s : State) (t : Nat) : State :=
  if t = 0 ∨ (tenantOf s 0 t).state ≠ .enabled then tenResult s 1
  else
    let s1 := putTenant s t { tenantOf s 0 t with state := .resetting }
    let ds : List DieId := allDies.filter (fun n => n == 0 || s.agree.joined.testBit n.val)
    tenResult (ds.foldl (resetOnDie t) { s1 with resets := mins s1.resets t { dies := ds, toReport := ds } }) 0

/-- TENANT_RESET (R416). -/
def execTenantReset (d : DieId) (t : Fin 16) (s : State) : Host.Outcome State Fault Refusal :=
  d0Command s d 3 (fun x => cmdTenantReset x t.val)

/-- Whether a die has stopped all work of a tenant (R416 steps 3 to 5). -/
def tenantQuietOn (s : State) (d : DieId) (t : Nat) : Bool :=
  let cs := ctxsOfTenant s t
  tenantOps s d t == 0 && !(cs.any (fun c => (slotHolding s d c).isSome)) && !((getCores s d).dispatches.any (fun e => cs.contains e.2.ctx))

/-- A die's RESET_END (Table 17.4). -/
def finishOnDie (t : Nat) (s : State) (d : DieId) : State := setTenRec s d t { tenRec s d t with finish := dtime s d }

/-- TENANT_RESET_END on a die (Table 17.10 step 6). -/
def endEntry (t : Nat) (s : State) (d : DieId) : State :=
  logEntry s d { code := 0x0C02, kind := 0x0D, tenant := some t, detail := detV 0 (tenRec s d t).aborted }

/-- TENANT_RESET_REPORT (R416): a die has stopped the tenant's work and reports; with the last report the tenant is ENABLED, and each of
its FAULTED contexts is LIVE, and every die that acted makes TENANT_RESET_END. D0's times are those of the package (R415). -/
def execTenantResetReport (d : DieId) (t : Fin 16) (s : State) : Host.Outcome State Fault Refusal :=
  match mfind s.resets t.val with
  | some r =>
    let left := r.toReport.filter (fun n => n ≠ d)
    let s1 := if d = 0 then s else finishOnDie t.val s d
    let done :=
      let s2 := (ctxsOfTenant s1 t.val).foldl (fun x c =>
        if (ctxOf x 0 c).state = .faulted then putCtx x c { ctxOf x 0 c with state := .live } else x) s1
      r.dies.foldl (endEntry t.val)
        (finishOnDie t.val (putTenant { s2 with resets := mdel s2.resets t.val } t.val { tenantOf s2 0 t.val with state := .enabled }) 0)
    event (s.board.powerOk && r.toReport.contains d && tenantQuietOn s d t.val) s
      (if left.isEmpty then done else { s1 with resets := mins s1.resets t.val { r with toReport := left } })
  | none => ok s

/-! ### DIE errors (R411, R412) -/

/-- What a DIE error does to a die: the slots stop and are discarded, their contexts are FAULTED, and every running record ends, with
CONTEXT_FAULT where its context is one of those and PROGRAM_FAULT otherwise. -/
def stopDie (s : State) (d : DieId) : State :=
  let cs := ((getCores s d).slots.filter (fun x => !(x.state == .free))).map (fun x => x.ctx)
  let ds := (getCores s d).dispatches.map (fun e => e.1)
  let s1 := ds.foldl (fun x i => killDispatch x d i) s
  let s2 := cs.foldl (fun x c => discardOn (faultContext x d c) d c) s1
  ((getQueues s2 d).map (fun e => e.1)).foldl (fun x q => endRuns x d q (fun r => if r.aborted then 5 else if r.ctxFault then 4 else 3)) s2

/-- DIE_ERROR (R411, R412): a die loses the address of dirty data; D0 holds it dark until RESET_N. When D0 itself errs, every die does
the same and the package starts no further record. -/
def execDieError (d : DieId) (what : DieErrSource) (s : State) : Host.Outcome State Fault Refusal :=
  let v : Nat × Nat := match what with | .cacheTags a => (0, a.toNat) | .other n a => (n, a.toNat)
  let s1 := if d = 0 then allDies.foldl stopDie s else stopDie s d
  let l := getLog s1 d
  let s2 := logEntry (setLog s1 d { l with dieError := true }) d { code := 0x0C04, kind := 0x0D, detail := detV v.1 v.2 }
  event (s.board.powerOk && !(getLog s d).dieError) s (if d = 0 then s2 else recompute (holdDie s2 d 9))

/-! ### Stoker firmware (R413, R414) -/

/-- Whether another stoker of a die holds the same image as stoker `k`. -/
def imageElsewhere (s : State) (d : DieId) (k : Nat) : Bool :=
  (countUp 0 8).any (fun j => j ≠ k && (stokerOf s d j).image == (stokerOf s d k).image && (stokerOf s d j).handout
    && !(stokerOf s d j).dark && !(stokerOf s d j).fenced)

/-- A stoker fenced for the parity of its firmware (R413, R414). -/
def fenceStoker (s : State) (d : DieId) (k : Nat) : State :=
  let l := getLog s d
  logEntry (setLog (setStoker s d k { stokerOf s d k with fenced := true }) d { l with fencedUnits := satAdd 8 l.fencedUnits 1 }) d
    { code := 0x0C03, kind := 0x0D, detail := detV (0x0300 + 4 * k) 0x0204 }

/-- STOKER_FIRMWARE_PARITY (R414): hand-out to the stoker stops and its frames end their records with PROGRAM_FAULT; without another
stoker that holds the image it is fenced. -/
def execStokerFirmwareParity (d : DieId) (st : Fin 8) (s : State) : Host.Outcome State Fault Refusal :=
  let k := st.val
  let x := stokerOf s d k
  let s1 := logEntry (setStoker s d k { x with handout := false }) d { code := 0x0204, kind := 0x03, index := 4 * k, detail := detV k 0 }
  let s2 := ((countUp (4 * k) 4).filter (fun f => (frameOf' s d f).busy)).foldl (fun t f => endProgram (dropFrameSubs t d f) d f (some 3)) s1
  event (dieRuns s d && !x.dark && !x.fenced) s (if imageElsewhere s d k then s2 else fenceStoker s2 d k)

/-- STOKER_FIRMWARE_RELOAD (R414): the region is reloaded from another stoker with the same image, and hand-out resumes; where no stoker holds
it any more, the stoker is fenced. -/
def execStokerFirmwareReload (d : DieId) (st : Fin 8) (s : State) : Host.Outcome State Fault Refusal :=
  let x := stokerOf s d st.val
  event (dieRuns s d && !x.handout && !x.dark && !x.fenced && !x.rotating) s
    (if imageElsewhere s d st.val then setStoker s d st.val { x with handout := true } else fenceStoker s d st.val)

/-! ### Parity errors of the other structures (R411) -/

/-- A line of the die cache with bad parity (R411): a clean one is dropped and read again, with its CACHE_CORRECTED entry; the chunks of a
dirty one are poisoned, with a MEM_UNCORRECTED entry each, the only code of class 2 that names a chunk (DESIGN CHOICE, log 34). -/
def upsetLine (s : State) (d : DieId) (line : Nat) : State :=
  let m := getMemu s d
  match (mget [] m.cache (cacheSet line)).find? (fun x => x.line == line) with
  | none => s
  | some x =>
    let s1 := setMemu s d { m with cache := mput [] m.cache (cacheSet line) ((mget [] m.cache (cacheSet line)).erase x) }
    if x.dirty then
      [2 * line, 2 * line + 1].foldl (fun t c => logEntry { t with poison := mput false t.poison c true } d
        { code := 0x0602, kind := 0x07, detail := detA (64 * c) 0 1 0 0 }) s1
    else logEntry s1 d { code := 0x0605, kind := 0x07, detail := detA (128 * line) 0 1 0 0 }

/-- A line of a near cache with bad parity is dropped and fetched again (R411): no entry of Table 17.7 names it. -/
def upsetNear (s : State) (d : DieId) (core line : Nat) : State :=
  let k := getCores s d
  match mfind k.near core with
  | some n => setCores s d { k with near := mins k.near core { n with lines := n.lines.filter (fun x => !(x.line == line)) } }
  | none => s

/-- Tile memory found bad in the blend or resolve of a pass (R411): its entry, and the pass aborts under R241. -/
def upsetPass (s : State) (d : DieId) (sub : Nat) : State :=
  match passBySub s d sub with
  | some p =>
    if p.done ∨ p.aborted then s
    else markAborted (killPass (logEntry s d { code := 0x0319, kind := 0x04, tenant := some p.tenant, ctx := some p.ctx, queue := p.queue,
                                               sub := p.sub, detail := detK 0 0 0 0 0 0 }) d p.sub) p
  | none => s

/-- A table copy with bad parity on D1 to D3 (R411): its entry, and the die is fenced and has to reload. -/
def upsetTable (s : State) (d : DieId) (table entry : Nat) : State :=
  if d = 0 ∨ 2 < table then s
  else recompute (fenceDie (logEntry s d { code := 0x0608, kind := 0x05, detail := detV table entry }) d 2)

/-- What a parity error does on its die (R289, R411). One of a DRAM chunk, of a staging piece or of a frame's region stands until it is
read. -/
def takeUpset (s : State) (d : DieId) (u : Config.Upset) : State :=
  match u with
  | .chunk c lost =>
    let m := getMemu s d
    setMemu s d { m with upset := mins m.upset (d.val * 2 ^ 27 + c % 2 ^ 27) lost }
  | .cacheLine line => upsetLine s d (d.val * 2 ^ 26 + line % 2 ^ 26)
  | .nearLine core line => upsetNear s d core line
  | .xlEntry i => let m := getMemu s d
    setMemu s d { m with xlate := m.xlate.eraseIdx i }
  | .regFile g => coreFault s d g 0x0318 0 0 none
  | .tileMem g => coreFault s d g 0x0319 0 0 none
  | .tilePass sub => upsetPass s d sub
  | .region f => if f < 32 ∧ (frameOf' s d f).busy then setFrame s d f { frameOf' s d f with regionBad := true } else s
  | .staging o => if o < 0x700000 then setStagingBad s d (mput false (getStagingBad s d) o true) else s
  | .tableCopy t e => upsetTable s d t e

/-- The parity error that this nanosecond brings to a die, where it brings one (log 34). -/
def upsetTick (s : State) (d : DieId) : State :=
  match Config.upset s.now d.val with
  | some u => takeUpset s d u
  | none => s

end Sys2Proof.Machine
end

