-- ==== Sys2Proof/Machine/Slots.lean ====
section
/-! DEFINITION. The register slots (R8, R9, R36, R43, Table 2.6): what a write of each slot does, and what each status mirror reads. -/

namespace Sys2Proof.Machine

/-! ### Writes -/

/-- CTL_HP_ERR (Table 2.11): clearing WPAR clears VND_PARERR too. -/
def wrHpErr (s : State) (d : DieId) (v : W64) : State :=
  let p := getPort s d
  setPort s d { p with hpErr := errClear p.hpErr s.now v 16 [(2, 31, 16), (1, 47, 32)], parErr := if bit v 0 then 0 else p.parErr }

/-- A write of the CTL block (Table 2.8). -/
def wrCtl (s : State) (d : DieId) (off : Nat) (v : W64) : State :=
  if off = 0 then
    if 1 ≤ fld v 7 0 ∧ fld v 7 0 ≤ 2 then setHregs s d { getHregs s d with version := keepBits v 0xFF } else s
  else if off = 0x10 then wrHpErr s d v
  else countDiscard s d

/-- A write of DBL_ERR (Table 3.31). -/
def wrDblErr (s : State) (d : DieId) (v : W64) : State :=
  let r := getQregs s d
  setQregs s d { r with dblErr := errClear r.dblErr s.now v 16 [(0, 31, 16), (1, 47, 32), (2, 47, 32)] }

/-- A write of QCP_CMD (Table 3.25). -/
def wrQcp (s : State) (d : DieId) (v : W64) : State :=
  let q := fld v 15 4
  match fld v 3 0 with
  | 1 => if 12 < fld v 19 16 then s else cmdQueueCreate s d q (fld v 19 16) (fld v 47 20)
  | 2 => cmdQueueDestroy s d q
  | 3 => qcpDone s d q 0
  | 4 => cmdQueueResume s d q
  | _ => s

/-- A write of the TEN block (Table 3.4). -/
def wrTen (s : State) (d : DieId) (off : Nat) (v : W64) : State :=
  if off = 0 then onD0 s d (fun t => wrTenTable t v)
  else if off = 8 then
    onD0 s d (fun t =>
      let n := fld v 7 4
      match fld v 3 0 with
      | 1 => cmdTenantEnable t n
      | 2 => cmdTenantUpdate t n
      | 3 => cmdTenantDisable t n
      | 4 => cmdTenantReset t n
      | _ => t)
  else if off = 0x18 then wrTenStage s d (fld v 6 0) (fld v 11 8)
  else countDiscard s d

/-- A write of the CTX block (Tables 3.12, 5.6). -/
def wrCtx (s : State) (d : DieId) (off : Nat) (v : W64) : State :=
  onD0 s d (fun t =>
    let c := fld v 31 16
    let n : DieId := BitVec.toFin (BitVec.ofNat 2 (fld v 5 4))
    if off = 0 then wrCtxTable t v
    else if off = 8 then
      match fld v 3 0 with
      | 1 => cmdCtxCreate t c
      | 2 => cmdCtxDestroy t c
      | 3 => ctxDone t c 0
      | 4 => cmdClearFault t c
      | _ => t
    else if off = 0x18 then
      match fld v 3 0 with
      | 1 => cmdResLoad t n c
      | 2 => cmdResEvict t n c
      | 3 => resDone t n c 0
      | _ => t
    else countDiscard t d)

/-- A write of the OBJ block (Tables 3.14, 11.6). -/
def wrObj (s : State) (d : DieId) (off : Nat) (v : W64) : State :=
  onD0 s d (fun t =>
    if off = 0 then wrObjTable t v
    else if off = 8 then
      match fld v 3 0 with
      | 1 => cmdObjCreate t (fld v 63 32)
      | 2 => cmdObjFree t (fld v 63 32)
      | 3 => cmdObjQuery t (fld v 63 32)
      | _ => t
    else if off = 0x18 then
      match fld v 3 0 with
      | 1 => cmdInvContext t (fld v 31 16)
      | 2 => cmdInvGib t (fld v 31 16) (fld v 49 32)
      | 3 => cmdInvAll t
      | _ => t
    else countDiscard t d)

/-- A write of APT_BASEw (Table 2.14): a PA beyond the package is reserved. -/
def wrApt (s : State) (d : DieId) (off : Nat) (v : W64) : State :=
  let h := getHregs s d
  if 0x100 ≤ off then countDiscard s d
  else if fld v 39 35 ≠ 0 then s
  else setHregs s d { h with aptBase := mput 0 h.aptBase (off / 8) (keepBits v (maskOf 39 25 + maskOf 7 4 + 1)) }

/-- A write of the LAMP block (Table 15.4), through D0 only. -/
def wrLamp (s : State) (d : DieId) (off : Nat) (v : W64) : State :=
  onD0 s d (fun t =>
    if off = 0 then wrEnvelope t v
    else if off = 8 then wrOrder t v
    else if off < 0x30 then wrMask t (BitVec.toFin (BitVec.ofNat 2 ((off - 0x10) / 8))) v
    else countDiscard t d)

/-- A write of the TIME block (Table 15.6). -/
def wrTime (s : State) (d : DieId) (off : Nat) (v : W64) : State :=
  if off = 8 then onD0 s d (fun t => wrTimeCtl t v)
  else if off = 0x10 then onD0 s d (fun t => wrPeriod t v)
  else countDiscard s d

/-- A write of the CORD block (Table 14.9). -/
def wrCord (s : State) (d : DieId) (off : Nat) (v : W64) : State :=
  if off = 0 then (if fld v 3 0 = 1 ∧ fld v 5 4 < 3 then wrCordCmd s d (fld v 5 4) else s)
  else if 0x28 ≤ off ∧ off < 0x40 then wrCordErr s d ((off - 0x28) / 8) v
  else countDiscard s d

/-- A write of the EAS block (Table 13.7). -/
def wrEas (s : State) (d : DieId) (off : Nat) (v : W64) : State :=
  let u := getEas s d
  if off = 0 then wrEasCtl s d v
  else if off < 0x20 then wrEasTiming s d ((off - 8) / 8) v
  else if off = 0x20 then setEas s d { u with bg := keepBits v (2 ^ 30 - 1) }
  else if off = 0x28 then setEas s d { u with blackoutCol := keepBits v (2 ^ 30 - 1) }
  else if off = 0x30 then setEas s d { u with owner := keepBits v (2 ^ 32 - 1) }
  else if off = 0x38 then wrAuxCmd s d (fld v 1 0) (fld v 23 4) (fld v 28 24) (bit v 29)
  else if off = 0x40 then setEas s d { u with aux0 := v }
  else if off = 0x48 then setEas s d { u with aux1 := v }
  else if off = 0x78 then wrEasErr s d v
  else countDiscard s d

/-- A write of the GEN block (Table 10.4). -/
def wrGen (s : State) (d : DieId) (off : Nat) (v : W64) : State :=
  if off = 0 then wrGenTable s d false v
  else if off = 8 then wrGenTable s d true v
  else if off = 0x10 then wrGenCmd s d v
  else if off = 0x20 then wrGenBudget s d v
  else if off = 0x30 then wrGenErr s d v
  else countDiscard s d

/-- A write of block `blk`, slot `off`, on die `d` (Table 2.6). A read-only register and an offset that no register has ignore the
write, which is counted (R36). -/
def slotWrite (s : State) (d : DieId) (blk off : Nat) (v : W64) : State :=
  match blk with
  | 0 => wrCtl s d off v
  | 1 => if off = 0 then wrDblErr s d v else countDiscard s d
  | 2 => if off = 0 then wrQcp s d v else countDiscard s d
  | 3 => wrTen s d off v
  | 4 => wrCtx s d off v
  | 5 => wrObj s d off v
  | 6 => wrApt s d off v
  | 7 => wrLamp s d off v
  | 8 => wrTime s d off v
  | 9 => if off = 0x10 then wrLogMark s d v else countDiscard s d
  | 10 => if off ∈ [0, 8, 0x20, 0x28, 0x30, 0x58, 0x60] then wrKiln s d off v else countDiscard s d
  | 11 => if off ∈ [0, 8] then wrOtp s d off v else countDiscard s d
  | 12 => if off ∈ [0, 8, 0x10, 0x28, 0x30, 0x38, 0x40] then wrSec s d off v else countDiscard s d
  | 13 => wrCord s d off v
  | 14 => wrEas s d off v
  | 15 => if off = 0x10 then wrRetErr s d v else countDiscard s d
  | 16 => if off = 0x80 then wrDmaReq s d v else if off = 0x90 then wrDmaErr s d v else countDiscard s d
  | 17 => wrGen s d off v
  | 18 => if off = 0x10 then wrGeoErr s d v else countDiscard s d
  | _ => countDiscard s d

/-- A slot write as the device applies it (R43, R44, R36). -/
def applySlot (s : State) (d : DieId) (blk off : Nat) (v : W64) : State := viaSlot s d blk v (fun t => slotWrite t d blk off v)

/-! ### Status mirrors -/

/-- The dies whose channels are trained (Table 2.3). -/
def trainedMask (s : State) : Nat := (allDies.map (fun d => b2n (getPort s d).trained * 2 ^ d.val)).sum

/-- PAR_EN of a channel now: the last write to VND_PARITY that is tMRD old (R33). -/
def parityOn (s : State) (d : DieId) : Bool :=
  (getPort s d).parityWrites.foldl (fun a w => if w.1 + Config.tMRD ≤ s.now then w.2 else a) false

/-- Mode register `n` as it stands now: writes apply tMRD after they are made (R30). -/
def mrNow (s : State) (d : DieId) (n : Nat) : Byte :=
  (getPort s d).mrWrites.foldl (fun a w => if w.2.1 = n ∧ w.1 + Config.tMRD ≤ s.now then w.2.2 else a) (mget 0 (getPort s d).mr n)

/-- The set point in use: FSP-OP in bits [3:2] of mode register 16. PRESUMED: the standard's place of the field (log 20). -/
def fspNow (s : State) (d : DieId) : Nat := fldN (mrNow s d 16).toNat 3 2

/-- The set point in use as one of the two that the channel has (Table 2.1). -/
def setPoint (s : State) (d : DieId) : Nat := fspNow s d % 2

/-- Where mode register `n` stands: the copy of the set point that FSP-WR (bits [1:0] of mode register 16, PRESUMED, log 20) names, where
the standard keeps one for each. -/
def mrKey (s : State) (d : DieId) (n : Nat) : Nat :=
  if n ≠ 16 ∧ Config.perSetPoint n = true ∧ fldN (mrNow s d 16).toNat 1 0 = 1 then 128 + n else n

/-- CTL_STATUS (Table 2.10). -/
def ctlStatusReg (s : State) (d : DieId) : W64 :=
  packFields [(trainedMask s, 0), (b2n (parityOn s d), 4), (if d = 0 then b2n (getPort s 0).trained else 0, 5), (fspNow s d, 6),
    (if d = 0 then s.frozen / 2 % 8 else 0, 8)]

/-- A status mirror; none for an offset that no register has. WO registers read as zero. -/
def mirrorReg (s : State) (d : DieId) (blk off : Nat) : Option W64 :=
  let h := getHregs s d
  let q := getQregs s d
  let u := getEas s d
  let k := getKiln s d
  let x := getSec s d
  let g := getGen s d
  let t := getTime s d
  let i := off / 8
  match blk with
  | 0 => lget none [some h.version, some (ctlStatusReg s d), some (getPort s d).hpErr.val] i
  | 1 => lget none [some q.dblErr.val] i
  | 2 => lget none [some 0, some q.result, some q.stats, some q.waitAddr, some q.waitThr, some q.waitCur] i
  | 3 => if i < 4 then lget none [some (getHregs s 0).tenTable, some 0, some (tenStateReg s), some 0] i
         else if i < 11 then some (stageMapReg s d (i - 4)) else none
  | 4 => lget none [some (getHregs s 0).ctxTable, some 0, some (getHregs s 0).ctxResult, some 0, some (getHregs s 0).ctxResResult,
           some (resStatusReg s)] i
  | 5 => lget none [some (getHregs s 0).objTable, some 0, some (getHregs s 0).objResult, some 0, some (getHregs s 0).xlatResult] i
  | 6 => if i < 32 then some (mget 0 h.aptBase i) else if i = 32 then some h.aptStatus else none
  | 7 =>
    if i < 2 then lget none [some s.lampPkg.envelope, some s.lampPkg.order] i
    else if i < 6 then some (lget 0 s.lampPkg.masks (i - 2))
    else if i < 10 then some (lampStateReg s (dieAt (i - 6)))
    else if i = 10 then some (lampStatusReg s)
    else if i < 15 then some (lampTempReg s (dieAt (i - 11)))
    else none
  | 8 => lget none [some (BitVec.ofNat 64 (t.dt - t.dt % 1000)), some s.pps.ctl, some s.pps.periodReg, some (BitVec.ofNat 64 t.epoch),
           some (BitVec.ofNat 64 t.epochStart), some (timePpsReg s), some s.pps.edge, some s.pps.stepTime] i
  | 9 => lget none [some (logHeadReg s d), some (logStatusReg s d), some 0] i
  | 10 => lget none [some 0, some k.arg, some k.result, some (kilnStatusReg s d), some (lget 0 k.links 0), some (lget 0 k.links 1),
            some (lget 0 k.links 2), some (kilnLinkErrReg s d 0), some (kilnLinkErrReg s d 1), some (kilnLinkErrReg s d 2),
            some (kilnHpErrReg s d), some k.dp, some 0, some k.dramResult] i
  | 11 => lget none [some 0, some x.otpArg, some x.otpResult, some (otpStateReg s d)] i
  | 12 =>
    if i < 5 then lget none [some 0, some x.arg0, some x.arg1, some x.result, some (secImageReg s d)] i
    else if i < 9 then some (lget 0 x.nonce (i - 5))
    else if i < 13 then some (le64 (x.idPub.drop (8 * (i - 9))))
    else none
  | 13 =>
    if i < 2 then lget none [some 0, some (getCordRegs s d).agree] i
    else if i < 5 then some (cordEndReg s d (i - 2))
    else if i < 8 then some (lget endReset (getEnds s d) (i - 5)).err.val
    else if i < 12 then some (lget 0 (getCordRegs s d).serials (i - 8))
    else if i = 12 then some (cordTimeReg s d)
    else none
  | 14 =>
    if i < 16 then
      lget none [some u.ctl, some u.timH, some u.timV, some u.pclk, some u.bg, some u.blackoutCol, some u.owner, some 0, some u.aux0,
        some u.aux1, some u.auxResult, some u.rd0, some u.rd1, some (easStatusReg s d), some (easSafeReg s d), some u.err.val] i
    else if i < 32 then some (mget 0 u.crcs (i - 16))
    else none
  | 15 => lget none [some (retEngReg s d 0), some (retEngReg s d 1), some (getRet s d).err.val] i
  | 16 => if i < 16 then some (dmaChReg s d i) else lget none [some 0, some (dmaLinesReg s d), some (getDma s d).err.val] (i - 16)
  | 17 => lget none [some g.seqTable, some g.modelTable, some 0, some g.result, some g.budget, some (genStatusReg s d), some g.err.val] i
  | 18 => lget none [some (geoStatusReg s d), some (geoCountReg s d), some (getGeo s d).err.val] i
  | _ => none
where
  /-- A die by its number. -/
  dieAt (n : Nat) : DieId := ⟨n % 4, Nat.mod_lt _ (by decide)⟩

end Sys2Proof.Machine
end

