-- ==== Sys2Proof/Machine/Epoch.lean ====
section
/-! DEFINITION. Frame epochs (15, R377, R387, R388), commits (04, R112 to R114), the end of a lamp transition (R375, R379), and the
reload of a die's state (14, R369). -/

namespace Sys2Proof.Machine

/-! ### The epoch grid (R387, R388) -/

/-- When the epoch after the one in progress begins on a die. -/
def nextStart (s : State) (d : DieId) : Nat := (getTime s d).epochStart + (getTime s d).period + (getTime s d).shift

/-- A grid walked forward: epoch, its start, its length and, once found, the start asked for. -/
structure Grid where
  epoch : Nat
  start : Nat
  period : Nat
  found : Option Nat

/-- One pending period (its length and the time of the write) taken into account (R388): it sets the first epoch that begins 200 us or
more after the write. -/
def gridStep (e : Nat) (g : Grid) (p : Nat × Nat) : Grid :=
  let m := if p.2 + 200000 ≤ g.start then 0 else ceilDiv (p.2 + 200000 - g.start) g.period
  if g.found.isSome then g
  else if e < g.epoch + m then { g with found := some (g.start + (e - g.epoch) * g.period) }
  else { epoch := g.epoch + m, start := g.start + m * g.period, period := p.1, found := none }

/-- The start of epoch `e`, later than the one in progress, on D0. -/
def epochStartD0 (s : State) (e : Nat) : Nat :=
  let t := getTime s 0
  let g := s.pps.periodPending.foldl (gridStep e) { epoch := t.epoch + 1, start := nextStart s 0, period := t.period, found := none }
  g.found.getD (g.start + (e - g.epoch) * g.period)

/-- The start of epoch `e`, later than the one in progress, by a die's own grid. -/
def epochStartOn (s : State) (d : DieId) (e : Nat) : Nat :=
  if d = 0 then epochStartD0 s e else nextStart s d + (e - (getTime s d).epoch - 1) * (getTime s d).period

/-- Whether epoch `e` has begun on a die. -/
def epochBegun (s : State) (d : DieId) (e : Nat) : Bool := decide (e ≤ (getTime s d).epoch)

/-- Whether less than `ns` nanoseconds remain on a die before epoch `e`. -/
def closeTo (s : State) (d : DieId) (e ns : Nat) : Bool := epochBegun s d e || decide (epochStartOn s d e < dtime s d + ns)

/-! ### Commits (R112 to R114) -/

/-- The entries of a commit block: die mask, block, offset and value of each. -/
def commitEntries (b : List Byte) : List (Nat × Nat × Nat × W64) :=
  (countUp 0 (leAt b 8 1)).map (fun i => (leAt b (0x11 + 16 * i) 1, leAt b (0x10 + 16 * i) 1, leAt b (0x12 + 16 * i) 2,
    BitVec.ofNat 64 (leAt b (0x18 + 16 * i) 8)))

/-- Whether a commit block is well formed (Table 4.10). An OFFSET above 0x1F8 or misaligned breaks the table, and Table 4.11 does not say what
comes of it: MALFORMED (DESIGN CHOICE, log 48). -/
def commitLegal (b : List Byte) : Bool :=
  let n := leAt b 8 1
  decide (1 ≤ n) && decide (n ≤ 16) && zeroAt b 9 7
    && (countUp 0 n).all (fun i => decide (leAt b (0x10 + 16 * i) 1 ≤ 18) && decide (leAt b (0x11 + 16 * i) 1 < 16)
      && decide (leAt b (0x12 + 16 * i) 2 ≤ 0x1F8) && leAt b (0x12 + 16 * i) 2 % 8 == 0 && zeroAt b (0x14 + 16 * i) 4)

/-- The program of a commit goes on with a result of Table 4.11; every refusal makes an entry on D0, with the dies that refused. -/
def commitDone (s : State) (src : DieId) (f q count epoch result dies : Nat) : State :=
  let y := frameOf' s src f
  let s1 :=
    match y.park with
    | .commit rd => if y.queue = q ∧ y.count = count then wakeFrame s src f rd (BitVec.ofNat 32 result) else s
    | _ => s
  if result = 0 then s1
  else logEntry s1 0 { code := 0x0206, kind := 0x0D, detail := detV epoch (result + 256 * dies) }

/-- Commits on which no decision to keep has been taken. -/
def commitsPending (s : State) : Nat := (s.commits.filter (fun e => !(e.2.decision == some false))).length

/-- The dies of the joined set, D0 among them. -/
def joinedDies (s : State) : List DieId := allDies.filter (fun n => n == 0 || s.agree.joined.testBit n.val)

/-- COMMIT_ARRIVAL (R112): D0 checks the epoch, the pending commits and the form, and stages the block on the joined dies. -/
def execCommitArrival (d : DieId) (f : Fin 32) (s : State) : Host.Outcome State Fault Refusal :=
  let x := frameOf' s d f.val
  let b := x.commitDesc
  let e := leAt b 0 8
  let s1 := setFrame s d f.val { x with commitDesc := [] }
  let c : Commit := { src := d, frame := f.val, queue := x.queue, count := x.count, epoch := e, entries := commitEntries b,
                      staged := joinedDies s, acked := [], decision := none, told := [], kept := [], applied := [] }
  let refuse (r : Nat) : State := commitDone s1 d f.val x.queue x.count e r 0
  let t :=
    if closeTo s 0 e 200000 then refuse 1
    else if 4 ≤ commitsPending s then refuse 3
    else if ¬ commitLegal b then refuse 4
    else { s1 with nextId := s.nextId + 1, commits := mins s1.commits s.nextId c }
  event (s.board.powerOk && x.busy && (match x.park with | .commit _ => true | _ => false) && !b.isEmpty && reach s d 0 && !cordWaits s d 0) s t

/-- Dies staged that are still in the joined set. -/
def stagedJoined (s : State) (c : Commit) : List DieId := c.staged.filter (fun n => (joinedDies s).contains n)

/-- COMMIT_ACKNOWLEDGE (R112): the acknowledgement of a staged die that reaches D0 50 us or more before the epoch. -/
def execCommitAcknowledge (id : Nat) (d : DieId) (s : State) : Host.Outcome State Fault Refusal :=
  match mfind s.commits id with
  | some c =>
    event (s.board.powerOk && c.decision.isNone && (stagedJoined s c).contains d && !c.acked.contains d && reach s 0 d && !cordWaits s 0 d
        && (!closeTo s 0 c.epoch 50000)) s
      { s with commits := mins s.commits id { c with acked := c.acked ++ [d] } }
  | none => ok s

/-- A commit that no die has yet to hear of or to apply leaves D0's list; one applied gives its program COMMITTED. -/
def settleCommit (s : State) (id : Nat) (c : Commit) : State :=
  let waits := c.staged.filter (fun n => !c.told.contains n && !c.kept.contains n)
  let toApply := c.told.filter (fun n => !c.applied.contains n)
  if c.decision.isNone ∨ ¬ waits.isEmpty ∨ ¬ toApply.isEmpty then { s with commits := mins s.commits id c }
  else
    let s1 := { s with commits := mdel s.commits id }
    if c.decision = some true then commitDone s1 c.src c.frame c.queue c.count c.epoch 0 0 else s1

/-- COMMIT_DECIDE (R112): 50 us before the epoch D0 decides to apply where every staged die still joined has acknowledged, and to keep
otherwise; a decision that comes after the deadline of R113 is to keep. D0 holds its own decision at once. -/
def execCommitDecide (id : Nat) (s : State) : Host.Outcome State Fault Refusal :=
  match mfind s.commits id with
  | some c =>
    let ds := stagedJoined s c
    let late := ds.filter (fun n => !c.acked.contains n)
    let yes := late.isEmpty && !closeTo s 0 c.epoch 20000
    let c1 : Commit := { c with decision := some yes, staged := ds, told := if yes then [0] else [], kept := if yes then [] else [0] }
    let s1 := settleCommit s id c1
    event (s.board.powerOk && c.decision.isNone && closeTo s 0 c.epoch 50001) s
      (if yes then s1 else commitDone s1 c.src c.frame c.queue c.count c.epoch 2 ((late.map (fun n => 2 ^ n.val)).sum))
  | none => ok s

/-- COMMIT_DECISION_RECEIVE (R112, R113): a staged die receives the decision, 20 us or more before the epoch. -/
def execCommitDecisionReceive (id : Nat) (d : DieId) (s : State) : Host.Outcome State Fault Refusal :=
  match mfind s.commits id with
  | some c =>
    let c1 : Commit := if c.decision = some true then { c with told := c.told ++ [d] } else { c with kept := c.kept ++ [d] }
    event (s.board.powerOk && c.decision.isSome && c.staged.contains d && !c.told.contains d && !c.kept.contains d && reach s 0 d
        && !cordWaits s 0 d && (!closeTo s d c.epoch 20000)) s
      (settleCommit s id c1)
  | none => ok s

/-- COMMIT_DEADLINE (R113): 20 us before the epoch a staged die that holds no decision keeps its settings and is fenced for state
disagreement. D0 takes the decision itself and is never without it. -/
def execCommitDeadline (id : Nat) (d : DieId) (s : State) : Host.Outcome State Fault Refusal :=
  match mfind s.commits id with
  | some c =>
    let c1 : Commit := { c with staged := c.staged.filter (fun n => n ≠ d) }
    event (s.board.powerOk && d ≠ 0 && c.staged.contains d && !c.told.contains d && !c.kept.contains d && closeTo s d c.epoch 20001) s
      (recompute (fenceDie (settleCommit s id c1) d 2))
  | none => ok s

/-- The slots that hold a value a commit can set: read-write registers (Table 2.6). -/
def rwSlot (blk off : Nat) : Bool :=
  match blk with
  | 0 | 3 | 4 | 5 => off == 0
  | 6 => decide (off < 0x100)
  | 7 => decide (off < 0x30)
  | 8 => off == 8 || off == 0x10
  | 10 => [8, 0x20, 0x28, 0x30, 0x58].contains off
  | 11 => off == 8
  | 12 => [8, 0x10, 0x28, 0x30, 0x38, 0x40].contains off
  | 14 => decide (off < 0x38) || off == 0x40 || off == 0x48
  | 17 => [0, 8, 0x20].contains off
  | _ => false

/-- One entry applied on a die at an epoch's start: a slot write (R43), and an envelope takes effect at once (R377). -/
def applyEntry (d : DieId) (s : State) (e : Nat × Nat × Nat × W64) : State :=
  let (mask, blk, off, v) := e
  if ¬ (mask = 0 ∨ mask.testBit d.val) then s
  else if d = 0 ∧ blk = 7 ∧ off = 0 then
    viaSlot s d 7 v (fun t =>
      if envelopeLegal t (fld v 7 0) then
        retarget { t with lampPkg := { t.lampPkg with envelope := keepBits v 0xFF, inForce := fld v 7 0 } }
      else t)
  else applySlot s d blk off v

/-- The key under which D0 keeps a register value applied by commit. -/
def commitKey (d : DieId) (blk off : Nat) : Nat := d.val * 2 ^ 20 + blk * 2 ^ 12 + off

/-- D0 keeps the values that a commit applies, for the lit dies that an entry names (R369). -/
def keepEntry (s : State) (m : Map W64) (e : Nat × Nat × Nat × W64) : Map W64 :=
  let (mask, blk, off, v) := e
  if ¬ rwSlot blk off ∨ v = BitVec.allOnes 64 then m
  else (allDies.filter (fun n => mask.testBit n.val || (mask == 0 && (n == 0 || awake s n)))).foldl
    (fun m n => mins m (commitKey n blk off) v) m

/-- STATE_GEN advanced on the dies that a predicate names (R369). -/
def bumpGen (s : State) (p : DieId → Bool) : State :=
  { s with tables := qmap (fun n t => if p n then { t with stateGen := t.stateGen + 1 } else t) s.tables }

/-- A die applies a commit whose epoch has begun, where it holds the decision to apply (R113). D0 keeps the values and advances the
STATE_GEN of the dies that apply. -/
def applyCommit (d : DieId) (s : State) (id : Nat) : State :=
  match mfind s.commits id with
  | some c =>
    if c.told.contains d ∧ ¬ c.applied.contains d ∧ epochBegun s d c.epoch = true then
      let s1 := c.entries.foldl (applyEntry d) s
      let s2 :=
        if d = 0 then
          let r := getCordRegs s1 0
          bumpGen (setCordRegs s1 0 { r with commitValues := c.entries.foldl (keepEntry s1) r.commitValues })
            (fun n => n == 0 || c.told.contains n)
        else s1
      settleCommit s2 id { c with applied := c.applied ++ [d] }
    else s
  | none => s

/-! ### EPOCH_START (R387) -/

/-- Pending writes (value, time) that are 200 us old at `start`: the last of them, and those that stay. -/
def takeDue (start : Nat) (l : List (Nat × Nat)) : Option Nat × List (Nat × Nat) :=
  (((l.filter (fun p => decide (p.2 + 200000 ≤ start))).getLast?).map (fun p => p.1), l.filter (fun p => !decide (p.2 + 200000 ≤ start)))

/-- A die's grid moves to its next epoch; D0's takes the period that is due (R388). -/
def advanceGrid (s : State) (d : DieId) : State :=
  let t := getTime s d
  let start := nextStart s d
  let due := takeDue start s.pps.periodPending
  let s1 := if d = 0 then { s with pps := { s.pps with periodPending := due.2 } } else s
  setTime s1 d { t with epoch := t.epoch + 1, epochStart := start, shift := 0, period := if d = 0 then due.1.getD t.period else t.period }

/-- D0 puts the envelope that is due into force (R377). -/
def advanceEnvelope (s : State) : State :=
  let due := takeDue (getTime s 0).epochStart s.lampPkg.envPending
  let s1 := { s with lampPkg := { s.lampPkg with envPending := due.2, inForce := due.1.getD s.lampPkg.inForce } }
  if due.1.isSome then retarget s1 else s1

/-- EPOCH_START (R387): the next frame epoch begins on a die. The envelope due (R377), the commits decided for it (R113), the epoch line of DMA
(Table 11.13), and the latch point of an output that is off (R337). -/
def execEpochStart (d : DieId) (s : State) : Host.Outcome State Fault Refusal :=
  let s1 := advanceGrid s d
  let s2 := if d = 0 then advanceEnvelope s1 else s1
  let s3 := (s2.commits.map (fun e => e.1)).foldl (applyCommit d) s2
  let s4 := easEpoch (if (pacedBy s3 d 0x30).isSome then raiseLine s3 d 0x30 else s3) d
  event (s.board.powerOk && (getTime s d).running && decide (nextStart s d ≤ dtime s d)) s s4

/-! ### The end of a transition (R375, R379) -/

/-- The register files and tile memories of a cluster's cores cleared to zero (R375). -/
def clearCluster (s : State) (d : DieId) (c : Nat) : State :=
  let k := getCores s d
  setCores s d { k with vrf := k.vrf.filter (fun e => !(e.1 / 2 ^ 15 / 4 % 32 / 4 == c)), tile := k.tile.filter (fun e => !(e.1 / 2 ^ 18 % 32 / 4 == c)) }

/-- DOMAIN_TRANSITION_DONE (R375, R379): the changing domain takes its new state; a cluster that leaves the dark state is cleared and one
that lights has its near caches invalidated; GRT rereads its tables (R271). -/
def execDomainTransitionDone (d : DieId) (s : State) : Host.Outcome State Fault Refusal :=
  let l := getLamp s d
  match l.changing with
  | some (x, nst) =>
    let s1 := setLamp s d { l with dom := lset l.dom x nst, changing := none }
    let s2 := if x < 8 ∧ domOf s d x = .dark ∧ nst ≠ .dark then clearCluster s1 d x else s1
    let s3 := if x < 8 ∧ nst = .lit then invalidateCores s2 d (fun m => m / 4 == x) else s2
    let s4 := if x = 9 ∧ nst = .lit then genReread s3 d else if x = 9 then genFlush s3 d
      else if x = 10 ∧ nst = .dark then easDark s3 d else s3
    event s.board.powerOk s (refreshDevice (recompute s4) d)
  | none => ok s

/-! ### STATE_RELOAD_DONE (R369) -/

/-- The register values that D0 keeps for a die, written there. -/
def reloadValues (s : State) (n : DieId) : State :=
  ((getCordRegs s 0).commitValues.filter (fun e => e.1 / 2 ^ 20 == n.val)).foldl
    (fun t e => applySlot t n (e.1 / 2 ^ 12 % 2 ^ 8) (e.1 % 2 ^ 12) e.2) s

/-- Tenants whose reset a die has missed (R417). -/
def missedResets (s : State) (n : DieId) : List Nat :=
  (countUp 1 15).filter (fun t => decide ((tenRec s n t).resets < (tenRec s 0 t).resets))

/-- STATE_RELOAD_DONE (R369, R416): the copy ends, the die has D0's tables, register values and STATE_GEN, and has applied the tenant
resets it missed, each with its TENANT_RESET_END. -/
def execStateReloadDone (n : DieId) (s : State) : Host.Outcome State Fault Refusal :=
  let s1 := (missedResets s n).foldl (fun t k =>
    let t1 := resetOnDie k t n
    endEntry k (finishOnDie k (setTenRec t1 n k { tenRec t1 n k with resets := (tenRec t1 0 k).resets }) n) n) s
  let s2 := reloadValues (setTables s1 n (tabs s1)) n
  event (canAsk s n && isFenced s n && (getCordRegs s n).reloading) s
    (setCordRegs s2 n { getCordRegs s2 n with reloading := false, mustReload := false })

end Sys2Proof.Machine
end

