-- ==== Sys2Proof/Machine/Store.lean ====
section
/-! DEFINITION. What the port store shows (02, R34 to R37, R50): the control page's header, slots and mirrors, completion slots, the
logbook mirror and the fault records, the contact sheet (R84, R85) and the relay copies. -/

namespace Sys2Proof.Machine

/-! ### The contact sheet (R84, R85, Tables 3.32, 3.33) -/

/-- An entry: its header and payload. -/
def sheetEntry (type : Nat) (payload : List Byte) : List Byte := natLe 2 type ++ natLe 2 1 ++ natLe 4 (8 + payload.length) ++ payload

/-- Domains of a die in a state, as a mask. -/
def domMask (p : Nat → Bool) : Nat := ((countUp 0 11).filter p).foldl (fun a x => a + 2 ^ x) 0

/-- Stokers of the package that still rotate (R116). -/
def stokersRotating (s : State) : Nat :=
  (allDies.map (fun n =>
    if (getStk s n).rotateTo.isNone then 0
    else ((countUp 0 8).filter (fun k => !(getSec s n).rotated.contains k && !(stokerOf s n k).dark)).length)).sum

/-- The version of the package's image: the old one while a rotation runs (R116). -/
def sheetVersion (s : State) : Nat :=
  match (getSec s 0).oldImage, (getSec s 0).image with
  | some i, _ => i.version
  | none, some i => i.version
  | none, none => 0

/-- Width in lanes and state of a cord as the sheet shows them. -/
def sheetCord (c : Cord) : Nat × Nat :=
  let w := match c.width with | 1 => 16 | 2 => 32 | 3 => 64 | _ => 0
  match c.state with
  | .up => (w, 1)
  | .fenced => (w, 2)
  | _ => (0, 0)

/-- The contact sheet's bytes as the package stands, for die `d`. -/
def sheetBytes (s : State) (d : DieId) : List Byte :=
  let die (n : DieId) : List Byte :=
    sheetEntry 2 (natLe 1 n.val ++ natLe 1 0 ++ natLe 2 (domMask (domLit s n)) ++ natLe 2 (domMask (fun x => domOf s n x == .ember))
      ++ natLe 2 (litCores s n))
  let mem (n : DieId) : List Byte :=
    let m := getMemu s n
    natLe 4 8192 ++ natLe 2 ((m.rows.filter (fun e => e.2.retired)).length) ++ natLe 2 m.spares
  let disp (n : DieId) : List Byte :=
    let u := getEas s n
    sheetEntry 6 (natLe 1 n.val ++ natLe 1 (b2n u.hpd) ++ natLe 1 (if u.linkUp then u.rate else 0)
      ++ natLe 1 (if u.linkUp then 2 ^ u.lanes else 0) ++ natLe 4 0)
  let cord (i : Nat) : List Byte :=
    let p := sheetCord (cordOf s i)
    sheetEntry 7 (natLe 1 i ++ natLe 1 p.1 ++ natLe 1 p.2 ++ natLe 5 0)
  sheetEntry 1 (natLe 2 4 ++ natLe 1 0xB1 ++ natLe 1 (b2n (gradeE s 0)) ++ natLe 1 ((allDies.map (fun n => b2n (awake s n) * 2 ^ n.val)).sum)
      ++ natLe 1 s.lampPkg.inForce ++ natLe 1 ((getSec s 0).active.getD 0) ++ natLe 1 0)
    ++ allDies.flatMap die
    ++ sheetEntry 3 (natLe 2 4096 ++ natLe 2 48 ++ natLe 2 1024 ++ natLe 2 112 ++ natLe 4 65536 ++ natLe 4 1048576)
    ++ sheetEntry 4 (natLe 1 (fld (getHregs s d).version 7 0) ++ natLe 1 s.agree.abi ++ natLe 2 0 ++ natLe 4 (sheetVersion s)
      ++ natLe 1 (stokersRotating s) ++ natLe 7 0)
    ++ sheetEntry 5 (allDies.flatMap mem)
    ++ allDies.flatMap disp
    ++ (countUp 0 6).flatMap cord
    ++ sheetEntry 8 (natLe 1 (b2n s.pps.seen + 2 * b2n s.pps.freeRun) ++ natLe 7 0 ++ natLe 8 s.pps.stepTime.toNat)
    ++ sheetEntry 0xFFFF []

/-- CONTACT_SHEET_REWRITE (R85): a reported value has changed; the generation word goes odd for the rewrite and even after it. -/
def execContactSheetRewrite (d : DieId) (s : State) : Host.Outcome State Fault Refusal :=
  let b := sheetBytes s d
  let x := getSheet s d
  event (s.board.powerOk && (getSec s d).started && !(x.bytes == b)) s (setSheet s d { bytes := b, gen := x.gen + 2 })

/-! ### The header of the control page (Tables 2.6, 2.7) -/

/-- Whether the identity fields are written (VND_READY[4]). -/
def identityValid (s : State) (d : DieId) : Bool := (getSec s d).otpDone && (getSec s d).active.isSome

/-- VND_ABI_MIN and VND_ABI_MAX of a die: zero until its firmware runs. -/
def abiShown (s : State) (d : DieId) : Nat × Nat := abiOffer s d

/-- Word `w` of the control page's header. -/
def headerWord (s : State) (d : DieId) (w : Nat) : W64 :=
  let x := getSec s d
  let ok := identityValid s d
  let z (n : Nat) : Nat := if ok then n else 0
  match w with
  | 0 => packFields [(z 0x3441454B, 0), (z 4, 32), (z 0xB1, 48), (z (b2n (gradeE s d)), 56)]
  | 1 => packFields [(z d.val, 0), (x.stage, 8), (z (x.active.getD 0), 32)]
  | 2 => if ok then (getOtp s d).serial else 0
  | 3 => if ok then x.hash else 0
  | 8 => packFields [(1, 0), (2, 8), ((abiShown s d).1 % 256, 16), ((abiShown s d).2 % 256, 24)]
  | 16 => packFields [(0x40000, 0), ((getSheet s d).bytes.length, 32)]
  | 17 => BitVec.ofNat 64 (getSheet s d).gen
  | _ => 0

/-! ### Records (R415, R419, Table 17.4) -/

/-- A tenant's record as the port store holds it. -/
def tenantBytes (r : TenRecord) : List Byte :=
  padTo 256 0 (natLe 8 r.start ++ natLe 8 r.finish ++ natLe 4 r.resets ++ natLe 4 r.aborted ++ natLe 2 r.slots ++ natLe 2 r.ops
    ++ natLe 2 r.flips ++ natLe 2 0 ++ natLe 4 r.faults ++ natLe 4 r.lastFault)

/-- A word of a list of bytes, absent bytes zero. -/
def wordAt (b : List Byte) (o : Nat) : W64 := le64 (padTo 8 0 (b.drop o))

/-! ### Relay copies (R50, R53) -/

/-- The words of a die's control page that its own channel serves: header and status mirrors. -/
def pageCopy (s : State) (n : DieId) : Map W64 :=
  let header := (countUp 0 128).foldl (fun m w => mput 0 m w (headerWord s n w)) []
  (countUp 0 19).foldl (fun m b => (countUp 0 64).foldl (fun m i =>
    match mirrorReg s n b (8 * i) with
    | some v => mput 0 m (128 + 128 * b + 64 + i) v
    | none => m) m) header

/-- D0's copy of a die's control page, doorbells, completion slots, most recent logbook entries and fault records. -/
def copyOf (s : State) (n : DieId) : RelayCopy :=
  let l := getLog s n
  { page := pageCopy s n
    bells := getBells s n
    slots := (getQueues s n).foldl (fun m e => mput 0 m e.1 e.2.slot) []
    log := (countUp (l.head - 1024) (min 1024 l.head)).foldl (fun m i => mput [] m (i % 1024) (mget [] l.ring (i % 4096))) []
    faults := l.faults
    tenants := (getTenRecs s n).foldl (fun m e => mput [] m e.1 (tenantBytes e.2)) [] }

/-! ### The port store by word (Table 2.5) -/

/-- Bytes that the spec leaves open: a read of a register slot, of a gap in a block, or beyond the contact sheet. -/
def openWord (s : State) (o : Nat) : List Byte := (countUp 0 8).map (fun k => Config.freeByte s.freeCtr (o + k))

/-- All-ones: nothing is assigned (R34). -/
def onesWord : List Byte := rep 8 (0xFF : Byte)

/-- A word of the register blocks: the slots' own addresses are left open, the mirrors read their registers. -/
def blockWord (s : State) (o : Nat) (mirror : Nat → Nat → Option W64) : List Byte :=
  let b := (o - 0x400) / 0x400
  let r := o % 0x400
  if r < 0x200 then openWord s o
  else match mirror b (r - 0x200) with
    | some v => natLe 8 v.toNat
    | none => openWord s o

/-- A word of a relay block of die `n` (Table 2.16). -/
def relayWord (s : State) (n : DieId) (o : Nat) : List Byte :=
  let c := getRelay s n
  let w (v : W64) : List Byte := natLe 8 v.toNat
  if o < 0x400 then w (mget 0 c.page (o / 8))
  else if o < 0x5000 then
    blockWord s o (fun b x => if (mirrorReg s n b x).isSome then some (mget 0 c.page (128 + 128 * b + 64 + x / 8)) else none)
  else if o < 0x8000 then onesWord
  else if o < 0x10000 then w (mget 0 c.bells ((o - 0x8000) / 8))
  else if o < 0x18000 then w (mget 0 c.slots ((o - 0x10000) / 8))
  else w (wordAt (mget [] c.log ((o - 0x18000) / 32)) (o % 32))

/-- A word of the fault-record area: tenant records, then context fault records. -/
def faultWord (faults tenants : Map (List Byte)) (o : Nat) : List Byte :=
  if o < 0x1000 then natLe 8 (wordAt (mget [] tenants (o / 256)) (o % 256)).toNat
  else natLe 8 (wordAt (mget [] faults ((o - 0x1000) / 64)) (o % 64)).toNat

/-- The 8 bytes at port-store offset `o`, a multiple of 8, on die `d`'s channel (Table 2.5). -/
def storeWord (s : State) (d : DieId) (o : Nat) : List Byte :=
  let w (v : W64) : List Byte := natLe 8 v.toNat
  let l := getLog s d
  if o < 0x400 then w (headerWord s d (o / 8))
  else if o < 0x5000 then blockWord s o (mirrorReg s d)
  else if o < 0x8000 then onesWord
  else if o < 0x10000 then w (mget 0 (getBells s d) ((o - 0x8000) / 8))
  else if o < 0x18000 then w (queueOf s d ((o - 0x10000) / 8)).slot
  else if o < 0x38000 then w (wordAt (mget [] l.ring ((o - 0x18000) / 32)) (o % 32))
  else if o < 0x39000 then w (wordAt (tenantBytes (tenRec s d ((o - 0x38000) / 256))) (o % 256))
  else if o < 0x40000 then faultWord l.faults [] (o - 0x38000)
  else if o < 0x80000 then
    let b := (getSheet s d).bytes
    if o - 0x40000 + 8 ≤ b.length then (b.drop (o - 0x40000)).take 8 else openWord s o
  else if o < 0x100000 then
    if d ≠ 0 then onesWord
    else if o < 0xE0000 then relayWord s (relayDie ((o - 0x80000) / 0x20000)) ((o - 0x80000) % 0x20000)
    else if o < 0xF8000 then
      let c := getRelay s (relayDie ((o - 0xE0000) / 0x8000))
      faultWord c.faults c.tenants ((o - 0xE0000) % 0x8000)
    else onesWord
  else if o < 0x800000 then
    let p := pieceOf s d ((o - 0x100000) / 65536)
    if p.clearing.isSome then rep 8 (0 : Byte) else stageRead s d (o - 0x100000) 8
  else onesWord
where
  /-- The die of relay block `k`. -/
  relayDie (k : Nat) : DieId := ⟨(k + 1) % 4, Nat.mod_lt _ (by decide)⟩

end Sys2Proof.Machine
end

