-- ==== Sys2Proof/Machine/Port.lean ====
section
/-! DEFINITION. The host port (02, R27 to R53, R74, R430): channel reset and training, mode registers, bursts, the aperture and its drain,
staging, doorbells, register slots, and the relay through D0. -/

namespace Sys2Proof.Machine

/-! ### The channel (R28, R30, R49) -/

/-- Whether a channel's command decoder is active (Table 2.2 step 2, R433). -/
def cmdOk (s : State) (d : DieId) : Bool :=
  let p := getPort s d
  s.board.powerOk && p.resetN && !p.down && !tapStopsPort s d && decide (p.releasedAt + 2000 ≤ s.now)

/-- CHANNEL_RESET_FALL (R49, R32): mode registers, parity, pattern mode and training are lost; what arrived whole stands. -/
def execChannelResetFall (ch : DieId) (s : State) : Host.Outcome State Fault Refusal :=
  let p := getPort s ch
  let q : HostPort := { p with resetN := false, steps := 0, trained := false, down := false, mr := mrReset, parityWrites := [], mrWrites := [],
                               rows := [], parErr := 0, dq := [], dmi := [], dqLanes := [], mrr := 0, fifo := [], prbsTx := 0 }
  let t := setPort s ch q
  event p.resetN s (if s.board.powerOk then logEntry t ch { code := 0x0102, kind := 0x01, detail := detV 0 0 } else t)

/-- CHANNEL_RESET_RELEASE (Table 2.2 step 1). -/
def execChannelResetRelease (ch : DieId) (s : State) : Host.Outcome State Fault Refusal :=
  let p := getPort s ch
  event (!p.resetN) s (setPort s ch { p with resetN := true, releasedAt := s.now, steps := 0, mr := mrReset })

/-- What a mode register reads (R31, Table 2.3). Mode register 8 is PRESUMED: 16 Gb and x16 in the standard's encoding (log 20). -/
def mrRead (s : State) (d : DieId) (n : Nat) : Byte :=
  let x := getSec s d
  let nat (k : Nat) : Byte := BitVec.ofNat 8 k
  match n with
  | 5 => 0xC5
  | 6 => 0xB1
  | 7 => 0x04
  | 8 => 0x18
  | 96 => 0x4B
  | 97 => 0xB1
  | 98 => nat (d.val + 4 * b2n (gradeE s d))
  | 99 => nat (x.stage % 16 + 16 * b2n (identityValid s d))
  | 100 => 0x01
  | 101 => 0x02
  | 102 => nat (abiShown s d).1
  | 103 => nat (abiShown s d).2
  | 104 => nat (b2n (parityOn s d))
  | 105 => nat (getPort s d).parErr
  | 107 => nat (trainedMask s)
  | _ => if n < 108 then mrNow s d (mrKey s d n) else 0

/-- A training step done at the set point in use (Table 2.1), with what the device drives on DQ. -/
def trainStep (s : State) (ch : DieId) (step : Nat) (dq : List Byte) : State :=
  let p := getPort s ch
  setPort s ch { p with steps := p.steps ||| 2 ^ (4 * setPoint s ch + step), dq := dq, dmi := [], dqLanes := [] }

/-- COMMAND_BUS_TRAINING (Table 2.2 step 4): the sampled pattern comes back on DQ. -/
def execCommandBusTraining (ch : DieId) (pattern : W16) (s : State) : Host.Outcome State Fault Refusal :=
  event (cmdOk s ch) s (trainStep s ch 0 (natLe 2 pattern.toNat))

/-- WCK2CK_LEVELLING (Table 2.2 step 5): the sampled phase comes back on DQ. -/
def execWck2ckLevelling (ch : DieId) (phase : Byte) (s : State) : Host.Outcome State Fault Refusal :=
  event (cmdOk s ch) s (trainStep s ch 1 [phase])

/-- READ_DQ_CALIBRATION (Table 2.2 step 6): the pattern of the pattern mode registers, the standard's. -/
def execReadDqCalibration (ch : DieId) (s : State) : Host.Outcome State Fault Refusal :=
  let regs := (countUp 0 96).map (mrRead s ch)
  event (cmdOk s ch) s (trainStep s ch 2 ((countUp 0 32).map (Config.dqPattern regs)))

/-- WRITE_TRAINING (Table 2.2 step 7): the data written comes back through the read FIFO. -/
def execWriteTraining (ch : DieId) (data : List Byte) (s : State) : Host.Outcome State Fault Refusal :=
  let t := trainStep s ch 3 data
  event (cmdOk s ch && !data.isEmpty) s (setPort t ch { getPort t ch with fifo := data })

/-- A command that breaks bank state or the supported subset is flagged and counted (R28, Table 2.11). -/
def protoError (s : State) (d : DieId) : State :=
  let p := getPort s d
  setPort s d { p with hpErr := errCount (errRaise p.hpErr s.now 1) s.now 47 32 1 }

/-- BANK_COMMAND (R28): an activate opens a row, a precharge closes it. -/
def execBankCommand (ch : DieId) (bank : Fin 16) (op : BankOp) (s : State) : Host.Outcome State Fault Refusal :=
  let p := getPort s ch
  event (cmdOk s ch) s
    (match op with
     | .activate row =>
       if mget 0 p.rows bank.val = 0 then setPort s ch { p with rows := mput 0 p.rows bank.val (row.toNat + 1) } else protoError s ch
     | .precharge => setPort s ch { p with rows := mput 0 p.rows bank.val 0 }
     | .prechargeAll => setPort s ch { p with rows := [] })

/-- REFRESH (R27, R28): accepted and ignored. -/
def execRefresh (_ch : DieId) (_allBank : Bool) (s : State) : Host.Outcome State Fault Refusal := ok s

/-- POWER_DOWN_ENTRY (R27): deep sleep is handled as power-down; the channel takes no command until the exit. -/
def execPowerDownEntry (ch : DieId) (_deep : Bool) (s : State) : Host.Outcome State Fault Refusal :=
  event (cmdOk s ch) s (setPort s ch { getPort s ch with down := true })

/-- POWER_DOWN_EXIT (R27). -/
def execPowerDownExit (ch : DieId) (s : State) : Host.Outcome State Fault Refusal :=
  event (s.board.powerOk && (getPort s ch).resetN) s (setPort s ch { getPort s ch with down := false })

/-! ### Mode registers (R31 to R33, Table 2.3) -/

/-- VND_PRBS.MODE of a channel. -/
def prbsMode (s : State) (d : DieId) : Nat := (mget 0 (getPort s d).mr 106).toNat % 8

/-- A write of VND_PARITY (R33): PAR_EN applies tMRD later. -/
def wrParity (s : State) (d : DieId) (v : Byte) : State :=
  let p := getPort s d
  let old := p.parityWrites.filter (fun w => decide (s.now < w.1 + Config.tMRD))
  let base := if parityOn s d then [(0, true)] else []
  setPort s d { p with parityWrites := base ++ old ++ [(s.now, v.toNat.testBit 0)] }

/-- A write of VND_PRBS (R430): generators and checkers restart and KILN_HP_ERR clears; a reserved code changes nothing. -/
def wrPrbs (s : State) (d : DieId) (v : Byte) : State :=
  if 4 < v.toNat % 8 then s
  else
    let p := getPort s d
    setPort s d { p with mr := mput 0 p.mr 106 (BitVec.ofNat 8 (v.toNat % 8)), prbsTx := 0, checkers := [] }

/-- What a write leaves of its value: enables of features that are not supported stay zero (R27), and so do the set-point fields of
mode register 16 where they name a set point beyond FSP 1. -/
def mrKept (n : Nat) (v : Byte) : Byte :=
  let x := v &&& ~~~Config.unsupported n
  if n = 16 then x &&& ~~~BitVec.ofNat 8 (3 * b2n (v.toNat.testBit 1) + 12 * b2n (v.toNat.testBit 3)) else x

/-- A mode-register write: standard registers but the identity ones take it tMRD later, those with a copy for each set point into the
copy that FSP-WR names; a write that tries to enable what is not supported breaks the supported subset (R27, Table 2.11); the vendor's
own but VND_PARITY and VND_PRBS ignore it (R32). -/
def wrMr (s : State) (d : DieId) (n : Nat) (v : Byte) : State :=
  let p := getPort s d
  if n = 104 then wrParity s d v
  else if n = 106 then wrPrbs s d v
  else if 96 ≤ n ∨ (5 ≤ n ∧ n ≤ 8) then s
  else
    let settled := (p.mrWrites.filter (fun w => decide (w.1 + Config.tMRD ≤ s.now))).foldl (fun m w => mput 0 m w.2.1 w.2.2) p.mr
    let t := setPort s d { p with mr := settled, mrWrites := p.mrWrites.filter (fun w => !decide (w.1 + Config.tMRD ≤ s.now))
                                                      ++ [(s.now, mrKey s d n, mrKept n v)] }
    if mrKept n v = v then t else protoError t d

/-- MODE_REGISTER_WRITE (R27, R30, R32). -/
def execModeRegisterWrite (ch : DieId) (mr : Nat) (v : Byte) (s : State) : Host.Outcome State Fault Refusal :=
  event (cmdOk s ch) s (wrMr s ch mr v)

/-- VND_PARITY_WRITE (R33). -/
def execVndParityWrite (ch : DieId) (v : Byte) (s : State) : Host.Outcome State Fault Refusal := event (cmdOk s ch) s (wrParity s ch v)

/-- VND_PRBS_WRITE (R430). -/
def execVndPrbsWrite (ch : DieId) (v : Byte) (s : State) : Host.Outcome State Fault Refusal := event (cmdOk s ch) s (wrPrbs s ch v)

/-- MODE_REGISTER_READ (R31, R32). -/
def execModeRegisterRead (ch : DieId) (mr : Nat) (s : State) : Host.Outcome State Fault Refusal :=
  event (cmdOk s ch) s (setPort s ch { getPort s ch with mrr := mrRead s ch mr })

/-! ### Column commands (R28, R29) -/

/-- The channel address of a column command: none where the bank is closed or the column is not a burst's start. -/
def burstAddr (s : State) (d : DieId) (bank : Fin 16) (col n : Nat) : Option Nat :=
  let row := mget 0 (getPort s d).rows bank.val
  if row = 0 ∨ 2048 < col + n ∨ col % n ≠ 0 then none else some ((row - 1) * 32768 + bank.val * 2048 + col)

/-- Whether the training of Table 2.2 has been done since the last channel reset at the set point in use. -/
def stepsDone (s : State) (d : DieId) : Bool := (getPort s d).steps / 2 ^ (4 * setPoint s d) % 16 == 15

/-- Whether the channel carries data at the set point in use: FSP 0 once the channel is trained, FSP 1 once it has its own training
(Table 2.1; log 20). -/
def setPointReady (s : State) (d : DieId) : Bool := setPoint s d == 0 || stepsDone s d

/-- Lane `j` of a burst's bytes: DQ 0 to 15 carry two bytes a beat, DMI 0 and 1 one bit a byte. -/
def laneBits (data : List Byte) (dmi : List Bool) (j : Nat) : List Bool :=
  (countUp 0 (data.length / 2)).map (fun b =>
    if j < 16 then (lget 0 data (2 * b + j / 8)).toNat.testBit (j % 8) else lget false dmi (2 * b + (j - 16)))

/-! ### Reads (R34) -/

/-- The parity errors that a read of staging meets: the port-store offsets of failing words (R411). -/
def badWords (s : State) (d : DieId) (a n : Nat) : List Nat :=
  (countUp (a / 8) (n / 8)).filter (fun w => decide (0x20000 ≤ w) && decide (w < 0x100000)
    && (countUp (8 * w - 0x100000) 8).any (fun o => mget false (getStagingBad s d) o))

/-- The DMI bits of a read with parity on: even parity, inverted where the stored byte fails (R33, R411). -/
def readDmi (s : State) (d : DieId) (a : Nat) (bytes : List Byte) : List Bool :=
  (bytes.zipIdx).map (fun (p : Byte × Nat) =>
    (evenParityBit p.1).xor (decide (0x100000 ≤ a + p.2) && mget false (getStagingBad s d) (a + p.2 - 0x100000)))

/-- A read burst of the port store or of unassigned addresses. -/
def readStore (s : State) (d : DieId) (a n : Nat) : State :=
  let bytes := (countUp 0 (n / 8)).flatMap (fun k => if a < 0x800000 then storeWord s d (a + 8 * k) else onesWord)
  let dmi := if parityOn s d then readDmi s d a bytes else []
  let s1 := useFree (setPort s d { getPort s d with trained := true, dq := bytes, dmi := dmi, dqLanes := [] })
  (badWords s d a n).foldl (fun t w => portParity t d (8 * w - 0x100000)) s1

/-- A read burst in pattern mode (R430): every lane drives the next bits of its generator. -/
def readPattern (s : State) (d : DieId) (n : Nat) : State :=
  let p := getPort s d
  let lanes := (countUp 0 18).map (fun j => prbsBits (prbsMode s d) j p.prbsTx (n / 2))
  setPort s d { p with dq := [], dmi := [], dqLanes := lanes, prbsTx := p.prbsTx + n / 2 }

/-- A read of the aperture: all-ones, counted (Table 2.15). -/
def readAperture (s : State) (d : DieId) (n : Nat) : State :=
  let h := getHregs s d
  let bytes := rep n (0xFF : Byte)
  let dmi := if parityOn s d then bytes.map evenParityBit else []
  setHregs (setPort s d { getPort s d with trained := true, dq := bytes, dmi := dmi, dqLanes := [] }) d
    { h with aptStatus := bumpFld h.aptStatus 47 32 1 }

/-- HOST_READ_BURST (R28, R34, R430). -/
def execHostReadBurst (ch : DieId) (b : HostRead) (s : State) : Host.Outcome State Fault Refusal :=
  let n := if b.bl32 then 64 else 32
  if ¬ cmdOk s ch then ok s
  else match burstAddr s ch b.bank b.col n with
    | none => ok (protoError s ch)
    | some a =>
      if prbsMode s ch ≠ 0 then ok (readPattern s ch n)
      else if ¬ ((getPort s ch).trained && setPointReady s ch || stepsDone s ch) then ok s
      else if 0x40000000 ≤ a then ok (readAperture s ch n)
      else ok (readStore s ch a n)

/-! ### The aperture (R45 to R47) -/

/-- The bytes a burst enables, from address `a` on. -/
def enabledBytes (a : Nat) (b : HostWrite) : List (Nat × Byte) :=
  (b.data.zipIdx).filterMap (fun (p : Byte × Nat) => if b.mask.isEmpty || lget false b.mask p.2 then some (a + p.2, p.1) else none)

/-- A write burst to the aperture goes into the drain under the mapping in force, or is dropped (R45, R47). -/
def writeAperture (s : State) (d : DieId) (a : Nat) (b : HostWrite) : State :=
  let w := (a - 0x40000000) / 2 ^ 25
  let base := mget 0 (getHregs s d).aptBase w
  let pa := fld base 39 25 * 2 ^ 25 + a % 2 ^ 25
  if ¬ bit base 0 then dropWrite s d w base false
  else if ¬ reach s d (dieOf pa) then dropWrite s d w base true
  else
    let p := getPort s d
    let i : DrainItem := { window := w, base := base, pa := pa, cells := enabledBytes pa b, serial := p.drainNext, sent := false }
    setPort s d { p with drain := p.drain ++ [i], drainNext := p.drainNext + 1 }

/-- The transactions of the drain class that carry a write to another die: DRW, or DRWP under its byte enables (Table 14.5). -/
def drainAsks (i : DrainItem) : List AskFor :=
  (unitCells i.cells).map (fun p => writeFor (.drain i.serial p.1) (dieOf i.pa) 6 7 (64 * p.1) (64 * p.1) 0 p.2)

/-- The oldest write of the drain that was sent and found its cord gone: its request was answered TARGET_DARK (R364). -/
def failedDrain (s : State) (d : DieId) : Option DrainItem :=
  (getPort s d).drain.find? (fun i => i.sent && (drainAsks i).any (fun q => (answerOf s d q.die q.who).isSome))

/-- APERTURE_DRAIN (R46): the oldest write that has not been sent reaches memory. One to another die goes onto the drain class of the cord, and
stays in the buffer until it is acknowledged (R363); a cord that has gone dark drops it, before it was sent or after (R47). -/
def execApertureDrain (d : DieId) (s : State) : Host.Outcome State Fault Refusal :=
  let p := getPort s d
  match failedDrain s d, p.drain.find? (fun i => !i.sent) with
  | some i, _ => event s.board.powerOk s (dropWrite (dropAnswers d (dropDrain s d i.serial) (drainAsks i)) d i.window i.base true)
  | none, some i =>
    let n := dieOf i.pa
    let s1 := dropDrain s d i.serial
    let send := setPort ((drainAsks i).foldl (askDie d) s) d
      { p with drain := p.drain.map (fun x => if x.serial = i.serial then { x with sent := true } else x) }
    event (s.board.powerOk && !(n == d && rowWaits s i.pa 64)
        && (n == d || decide (slotsTaken (endOf s d (endTo d n)) + (drainAsks i).length ≤ 1024))) s
      (if n = d then writeCells s1 i.cells
       else if hop s d n = .dark then dropWrite s1 d i.window i.base true
       else if i.cells.isEmpty then s1
       else send)
  | none, none => ok s

/-! ### Writes to the port store (R35, R36, R43, R44, R62, R74) -/

/-- The words of a burst by address, each with its bytes and their enables. -/
def burstWords (a : Nat) (b : HostWrite) : List (Nat × List Byte × List Bool) :=
  (countUp 0 (b.data.length / 8)).map (fun k =>
    (a + 8 * k, (b.data.drop (8 * k)).take 8, if b.mask.isEmpty then rep 8 true else (b.mask.drop (8 * k)).take 8))

/-- A burst to a staging piece (R35); discarded and counted while the piece clears (R62). -/
def writeStaging (s : State) (d : DieId) (a : Nat) (b : HostWrite) : State :=
  if (pieceOf s d ((a - 0x100000) / 65536)).clearing.isSome then countDiscard s d
  else (enabledBytes (a - 0x100000) b).foldl (fun t c => stageWrite t d c.1 [c.2]) s

/-- The word that a burst leaves at a place: enabled bytes replaced. -/
def mergeWord (old : W64) (bytes : List Byte) (en : List Bool) : W64 :=
  le64 ((natLe 8 old.toNat).zipIdx.map (fun (p : Byte × Nat) => if lget false en p.2 then lget 0 bytes p.2 else p.1))

/-- A doorbell word (R44, R48, R74): what passes its checks is shown at once and waits for the aperture writes before it (R42). -/
def writeBell (s : State) (d : DieId) (w : Nat × List Byte × List Bool) : State :=
  let q := (w.1 - 0x8000) / 8
  let v := mergeWord (mget 0 (getBells s d) q) w.2.1 w.2.2
  if ¬ w.2.2.any id then s
  else match doorbellCheck s d q v with
    | .error t => t
    | .ok tail =>
      let s1 := setBells s d (mput 0 (getBells s d) q v)
      let p := getPort s1 d
      setPort s1 d { p with held := p.held ++ [{ queue := q, tail := tail, after := p.drainNext }] }

/-- A register-slot word (R43): one with some of its bytes masked is discarded and counted (DESIGN CHOICE, log 20). -/
def writeSlotWord (s : State) (d : DieId) (w : Nat × List Byte × List Bool) : State :=
  if ¬ w.2.2.any id then s
  else if ¬ w.2.2.all id then countDiscard s d
  else applySlot s d ((w.1 - 0x400) / 0x400) (w.1 % 0x400) (le64 w.2.1)

/-- A word written to a relay block of die `n` (R51, R53). -/
def relayWriteWord (n : DieId) (s : State) (w : Nat × List Byte × List Bool) : State :=
  if ¬ w.2.2.any id then s
  else setForwards s n (getForwards s n ++
    [{ off := w.1, value := le64 w.2.1, enable := w.2.2, after := (getPort s 0).drainNext }])

/-- Regions of the window map as a write meets them (Tables 2.4, 2.5, 2.16). -/
inductive Region where
  | slots
  | bells
  | staging
  | aperture
  | relay (n : DieId) (off : Nat)
  | ignored
  deriving DecidableEq

/-- The region of an address on die `d`'s channel. -/
def regionOf (d : DieId) (a : Nat) : Region :=
  if 0x40000000 ≤ a then .aperture
  else if 0x400 ≤ a ∧ a < 0x5000 ∧ a % 0x400 < 0x200 then .slots
  else if 0x8000 ≤ a ∧ a < 0x10000 then .bells
  else if 0x100000 ≤ a ∧ a < 0x800000 then .staging
  else if d = 0 ∧ 0x80000 ≤ a ∧ a < 0xE0000 ∧ (a - 0x80000) % 0x20000 < 0x10000 then
    .relay (BitVec.toFin (BitVec.ofNat 2 ((a - 0x80000) / 0x20000 + 1))) ((a - 0x80000) % 0x20000)
  else .ignored

/-- A write burst as it reaches its region. What WR_DISCARD counts as one write (R36) is the burst in an ignored area, in a staging
piece that clears and in a frozen relay block, and the 8-byte word in register slots, doorbells and relayed words (DESIGN CHOICE, log 41). -/
def writeRegion (s : State) (d : DieId) (a : Nat) (b : HostWrite) : State :=
  match regionOf d a with
  | .slots => (burstWords a b).foldl (fun t w => writeSlotWord t d w) s
  | .bells => (burstWords a b).foldl (fun t w => writeBell t d w) s
  | .staging => writeStaging s d a b
  | .aperture => writeAperture s d a b
  | .relay n off => if s.frozen.testBit n.val then (if b.mask.isEmpty && b.data.all (fun x => x == 0xFF) then s else countDiscard s d) else (burstWords off b).foldl (relayWriteWord n) s
  | .ignored => countDiscard s d

/-- A write burst that fails parity, or is masked while parity is on (R33). The entry's detail names a channel address, for which
layout A has no space code: 0 (DESIGN CHOICE, log 42). -/
def parityFail (s : State) (d : DieId) (a : Nat) : State :=
  let p := getPort s d
  let n := satAdd 8 p.parErr 1
  logEntry (setPort s d { p with parErr := n, hpErr := errRaise p.hpErr s.now 0 }) d
    { code := 0x0101, kind := 0x01, detail := detA a 0 0 0 n }

/-- A write burst in pattern mode: every lane's checker takes its bits (R430). -/
def writePattern (s : State) (d : DieId) (b : HostWrite) : State :=
  let p := getPort s d
  let m := prbsMode s d
  setPort s d { p with checkers := (countUp 0 18).foldl (fun c j =>
    mput checkerFree c j (checkBits m (mget checkerFree c j) (laneBits b.data b.dmi j))) p.checkers }

/-- Whether a write burst is of one of the two lengths, with no enables or one per byte. -/
def burstLegal (b : HostWrite) : Bool :=
  (b.data.length == 32 || b.data.length == 64) && (b.mask.isEmpty || b.mask.length == b.data.length)

/-- Whether any byte of a burst fails its parity (R33): with its DMI bit it has an odd number of ones. -/
def parityFails (b : HostWrite) : Bool := b.data.zipIdx.any (fun p => evenParityBit p.1 != lget false b.dmi p.2)

/-- A write burst on a channel (R28, R33, R39, R430), for the regions that `p` names; one of another region is not this command's. -/
def hostWrite (s : State) (d : DieId) (b : HostWrite) (p : Region → Bool) : Host.Outcome State Fault Refusal :=
  if ¬ (cmdOk s d && burstLegal b) then ok s
  else match burstAddr s d b.bank b.col b.data.length with
    | none => ok (protoError s d)
    | some a =>
      if ¬ p (regionOf d a) then ok s
      else if prbsMode s d ≠ 0 then ok (writePattern s d b)
      else if ¬ ((getPort s d).trained && setPointReady s d) then ok s
      else if parityOn s d ∧ (parityFails b ∨ ¬ b.mask.isEmpty) then ok (parityFail s d a)
      else ok (writeRegion s d a b)

/-- APERTURE_WRITE (R45, R47). -/
def execApertureWrite (ch : DieId) (b : HostWrite) (s : State) : Host.Outcome State Fault Refusal :=
  hostWrite s ch b (fun r => r = .aperture)

/-- STAGING_WRITE (R34, R35). -/
def execStagingWrite (ch : DieId) (b : HostWrite) (s : State) : Host.Outcome State Fault Refusal :=
  hostWrite s ch b (fun r => r = .staging)

/-- IGNORED_WRITE (R34, R36). -/
def execIgnoredWrite (ch : DieId) (b : HostWrite) (s : State) : Host.Outcome State Fault Refusal :=
  hostWrite s ch b (fun r => r = .ignored)

/-- DOORBELL_WRITE (R74). -/
def execDoorbellWrite (ch : DieId) (b : HostWrite) (s : State) : Host.Outcome State Fault Refusal :=
  hostWrite s ch b (fun r => r = .bells)

/-- REGISTER_SLOT_WRITE (R43). -/
def execRegisterSlotWrite (ch : DieId) (b : HostWrite) (s : State) : Host.Outcome State Fault Refusal :=
  hostWrite s ch b (fun r => r = .slots)

/-- RELAY_WRITE (R51, R53): on D0's channel. -/
def execRelayWrite (b : HostWrite) (s : State) : Host.Outcome State Fault Refusal :=
  hostWrite s 0 b (fun r => match r with | .relay _ _ => true | _ => false)

/-- CTL_HP_ERR_WRITE (R38, Table 2.11). -/
def execCtlHpErrWrite (d : DieId) (v : W64) (s : State) : Host.Outcome State Fault Refusal :=
  ok (viaSlot s d 0 v (fun t => wrHpErr t d v))

/-- Whether the aperture writes of a channel before serial `after` have drained. -/
def drainedTo (s : State) (d : DieId) (after : Nat) : Bool := (getPort s d).drain.all (fun i => decide (after ≤ i.serial))

/-- DOORBELL_TAKES_EFFECT (R42): the oldest doorbell held, once every aperture write that arrived before it is visible. -/
def execDoorbellTakesEffect (d : DieId) (s : State) : Host.Outcome State Fault Refusal :=
  let p := getPort s d
  match p.held with
  | h :: rest => event (s.board.powerOk && drainedTo s d h.after) s (ringBell (setPort s d { p with held := rest }) d h.queue h.tail)
  | [] => ok s

/-! ### Relay (R50 to R53) -/

/-- A forwarded word as it takes effect at its die (R51). -/
def applyForward (s : State) (n : DieId) (x : Forward) : State :=
  let w := (x.off, natLe 8 x.value.toNat, x.enable)
  match regionOf n x.off with
  | .slots => writeSlotWord s n w
  | .bells =>
    let q := (x.off - 0x8000) / 8
    let v := mergeWord (mget 0 (getBells s n) q) w.2.1 x.enable
    match doorbellCheck s n q v with
    | .error t => t
    | .ok tail => ringBell (setBells s n (mput 0 (getBells s n) q v)) n q tail
  | _ => countDiscard s n

/-- A relayed word that is the all-ones of a no-write (R44). -/
def forwardNoWrite (x : Forward) : Bool := x.value == BitVec.allOnes 64 && x.enable.all id

/-- RELAY_FORWARD_APPLY (R42, R51): the oldest write on its way to a die arrives there; a doorbell waits for D0's earlier aperture
writes, and a cord that has gone drops the write, which D0 counts unless it is a no-write (R44). -/
def execRelayForwardApply (d : DieId) (s : State) : Host.Outcome State Fault Refusal :=
  match getForwards s d with
  | x :: rest =>
    let s1 := setForwards s d rest
    let waits := cordWaits s 0 d || (regionOf d x.off == .bells && !drainedTo s 0 x.after)
    event (s.board.powerOk && !waits) s (if reach s 0 d then applyForward s1 d x else if forwardNoWrite x then s1 else countDiscard s1 0)
  | [] => ok s

/-- RELAY_COPY_UPDATE (R41, R50): D0's copy of a die that is not frozen. -/
def execRelayCopyUpdate (d : DieId) (s : State) : Host.Outcome State Fault Refusal :=
  event (s.board.powerOk && decide (d ≠ 0) && !s.frozen.testBit d.val && reach s 0 d) s (setRelay s d (copyOf s d))

/-- RELAY_REFRESH (R53): the cord is up again and the die is not fenced: the copy is refreshed, and the freeze ends. -/
def execRelayRefresh (d : DieId) (s : State) : Host.Outcome State Fault Refusal :=
  event (s.board.powerOk && decide (d ≠ 0) && s.frozen.testBit d.val && reach s 0 d && !isFenced s d) s
    { setRelay s d (copyOf s d) with frozen := s.frozen - 2 ^ d.val }

end Sys2Proof.Machine
end

