-- ==== Sys2Proof/Machine/Texture.lean ====
section
/-! DEFINITION. Texture instructions (08, R224, R225; 09, R264 to R266) and tile stores. -/

namespace Sys2Proof.Machine

/-! ### Descriptors (Tables 9.13, 9.14) -/

/-- A texture descriptor. -/
structure TexDesc where
  data : Nat
  metaVa : Nat
  w : Nat
  h : Nat
  depth : Nat
  levels : Nat
  fmt : Nat
  dim : Nat
  array : Bool
  swizzle : Nat

/-- A texture descriptor from its 64 bytes, or none where it holds a reserved encoding (Table 9.13). -/
def texDescOf (b : List Byte) : Option TexDesc :=
  let t : TexDesc :=
    { data := leAt b 0 8, metaVa := leAt b 8 8, w := leAt b 0x10 2, h := leAt b 0x12 2, depth := leAt b 0x14 2, levels := leAt b 0x16 1,
      fmt := leAt b 0x17 1, dim := leAt b 0x18 1 % 4, array := (leAt b 0x18 1).testBit 2, swizzle := leAt b 0x1A 2 }
  if 1 ≤ t.w ∧ t.w ≤ 16384 ∧ 1 ≤ t.h ∧ t.h ≤ 16384 ∧ 1 ≤ t.depth ∧ t.depth ≤ 2048 ∧ 1 ≤ t.levels ∧ t.levels ≤ 15
      ∧ fmtListed t.fmt ∧ leAt b 0x18 1 < 8 ∧ leAt b 0x19 1 = 0 ∧ t.swizzle < 4096
      ∧ (countUp 0 4).all (fun k => decide (t.swizzle / 8 ^ k % 8 ≤ 5)) ∧ zeroAt b 0x1C 36 ∧ t.data % 4096 = 0 then some t
  else none

/-- A sampler descriptor. -/
structure Sampler where
  mag : Bool
  min : Bool
  mip : Nat
  aniso : Nat
  addr : List Nat
  compare : Nat
  bias : W32
  minLod : W32
  maxLod : W32
  border : Nat

/-- A sampler descriptor from its 32 bytes, or none where it holds a reserved encoding (Table 9.14). -/
def samplerOf (b : List Byte) : Option Sampler :=
  let x (o : Nat) : Nat := leAt b o 1
  let w (o : Nat) : W32 := BitVec.ofNat 32 (leAt b o 4)
  if x 0 ≤ 1 ∧ x 1 ≤ 1 ∧ x 2 ≤ 2 ∧ x 3 ∈ [0, 2, 4, 8, 16] ∧ x 4 ≤ 3 ∧ x 5 ≤ 3 ∧ x 6 ≤ 3 ∧ x 7 ≤ 8 ∧ x 0x14 ≤ 2 ∧ zeroAt b 0x15 11 then
    some { mag := x 0 == 1, min := x 1 == 1, mip := x 2, aniso := x 3, addr := [x 4, x 5, x 6], compare := x 7, bias := w 8,
           minLod := w 0xC, maxLod := w 0x10, border := x 0x14 }
  else none

/-! ### Texels in memory (R264, R267) -/

/-- Bytes of a context's address space for a texture access. -/
abbrev TexFault := Nat × Nat

/-- The slices a texture holds. -/
def texSlice (t : TexDesc) (slice : Nat) : Nat := t.data + slice * sliceBytes t.fmt t.w t.h t.levels

/-- The address of a texel of an image stored without compression. -/
def texelVa (t : TexDesc) (level slice x y : Nat) : Nat :=
  let b := blockAt t.fmt (levelDim t.w level) x y
  texSlice t slice + levelOffset t.fmt t.w t.h level + b.1 * (blockShape t.fmt).2.2 + b.2 * texelBytes t.fmt

/-- The metadata byte of a block: slices follow one another, each rounded up to 256 bytes. -/
def texMetaVa (t : TexDesc) (slice blk : Nat) : Nat :=
  t.metaVa + slice * roundUp (ceilDiv t.w 8 * ceilDiv t.h 8) 256 + blk

/-- One texel's four components (R264, R267): from a plain image, a compressed render target or a block format. Other metadata
values make the block zero, with an entry (R267); the clear value of a render target is not in the descriptor and stays open. -/
def readTexel (s : State) (i : Issue) (t : TexDesc) (level slice x y : Nat) : Except TexFault (List W32) × State :=
  let d := i.d
  let c := i.x.ctx
  let b := blockAt t.fmt (levelDim t.w level) x y
  let blkVa := texSlice t slice + levelOffset t.fmt t.w t.h level + b.1 * (blockShape t.fmt).2.2
  if ¬ isTarget t.fmt then
    match vaBytes d c 2 blkVa (blockShape t.fmt).2.2 s with
    | (.error e, s1) => (.error e, s1)
    | (.ok bytes, s1) =>
      (.ok (blockTexel t.fmt bytes (x % (blockShape t.fmt).1) (y % (blockShape t.fmt).2.1)), s1)
  else if t.metaVa = 0 then
    match vaBytes d c 2 (texelVa t level slice x y) (texelBytes t.fmt) s with
    | (.error e, s1) => (.error e, s1)
    | (.ok bytes, s1) => (.ok (decodeTexel t.fmt (leNat bytes)), s1)
  else
    match vaBytes d c 1 (texMetaVa t slice b.1) 1 s with
    | (.error e, s1) => (.error e, s1)
    | (.ok m, s1) =>
      let code := leNat m
      let full := 64 * texelBytes t.fmt
      let n := if full / 32 < code then 0 else 32 * code
      match vaBytes d c 2 blkVa n s1 with
      | (.error e, s2) => (.error e, s2)
      | (.ok bytes, s2) =>
        match readBlock t.fmt code bytes with
        | some ts =>
          let s3 := if full / 32 < code then
              logEntry s2 d { code := 0x0407, kind := 0x04, index := i.b.core, tenant := some i.x.tenant, ctx := some c,
                              detail := detA (texMetaVa t slice b.1) code 0 0 0, addr := texMetaVa t slice b.1, cause := code }
            else s2
          (.ok (decodeTexel t.fmt (lget 0 ts b.2)), s3)
        | none => (.ok ((countUp 0 4).map (Config.clearTexel (texMetaVa t slice b.1) t.fmt)), s2)

/-! ### Coordinates and filtering (R266) -/

/-- A texel that a filter takes, with its weight as a dyadic; none is a border texel. -/
structure TexTap where
  wm : Nat
  we : Int
  level : Nat
  slice : Nat
  place : Option (Nat × Nat)

/-- An index brought into an axis by an address mode (Table 9.14); none is the border. -/
def wrapIndex (mode n : Nat) (i : Int) : Option Nat :=
  let k : Int := n
  match mode with
  | 0 => some (i % k).toNat
  | 1 =>
    let m := (i % (2 * k)).toNat
    some (if m < n then m else 2 * n - 1 - m)
  | 2 => some (min i.toNat (n - 1))
  | _ => if 0 ≤ i ∧ i < k then some i.toNat else none

/-- A value rounded to an integer, ties to even. -/
def roundEven (q : Rat) : Int :=
  let f := q.floor
  let r := q - f
  if r < 1 / 2 then f else if 1 / 2 < r then f + 1 else if f % 2 = 0 then f else f + 1

/-- A coordinate with an offset added, times an axis, in 1/256 texel, rounded; and its floor in texels. -/
def axisPos (u : W32) (du : Rat) (n : Nat) : Int × Int :=
  match dyadic32 u with
  | some _ => let q := (ratOf u + du) * n; (roundEven (256 * q), q.floor)
  | none => (Config.coordOf u n, Config.coordOf u n / 256)

/-- The taps of one axis: weight in 1/256 and index (bilinear weights are quantised to 1/256 of a texel, R266). -/
def axisTaps (linear : Bool) (mode n : Nat) (u : W32) (du : Rat) (off : Int) : List (Nat × Option Nat) :=
  let p := axisPos u du n
  if linear then
    let t := p.1 - 128
    let i := t / 256
    let f := (t % 256).toNat
    (if f = 256 then [] else [(256 - f, wrapIndex mode n (i + off))]) ++ (if f = 0 then [] else [(f, wrapIndex mode n (i + 1 + off))])
  else [(256, wrapIndex mode n (p.2 + off))]

/-- A texture coordinate set: as the instruction gives it, with what a probe adds to each coordinate. -/
structure Coords where
  u : W32
  v : W32
  w : W32
  add : Rat × Rat × Rat
  layer : Nat
  offs : List Int

/-- The taps of one probe at one level, weighted by `wm` × 2^we. -/
def levelTaps (t : TexDesc) (sm : Sampler) (linear : Bool) (c : Coords) (level : Nat) (wm : Nat) (we : Int) : List TexTap :=
  let w := levelDim t.w level
  let h := levelDim t.h level
  let cube := Config.cubeFace c.u c.v c.w
  let u := if t.dim = 3 then cube.2.1 else c.u
  let v := if t.dim = 3 then cube.2.2 else c.v
  let mode (k : Nat) : Nat := if t.dim = 3 then 2 else lget 0 sm.addr k
  let xs := axisTaps linear (mode 0) w u c.add.1 (lget 0 c.offs 0)
  let ys := if t.dim = 0 then [(256, some 0)] else axisTaps linear (mode 1) h v c.add.2.1 (lget 0 c.offs 1)
  let zs := if t.dim = 2 then axisTaps linear (mode 2) (levelDim t.depth level) c.w c.add.2.2 (lget 0 c.offs 2)
    else [(256, some (if t.dim = 3 then 6 * c.layer + cube.1 % 6 else c.layer))]
  xs.flatMap (fun x => ys.flatMap (fun y => zs.map (fun z =>
    { wm := wm * x.1 * y.1 * z.1, we := we - 24, level := level, slice := z.2.getD 0,
      place := match x.2, y.2, z.2 with | some a, some b, some _ => some (a, b) | _, _, _ => none })))

/-- An FP32 value in 1/256 and exactly, as a multiple of 2^-149. -/
def lodExact (v : W32) : Int :=
  match decodeF fp32 v.toNat with
  | .fin n m e => if n then -((m * 2 ^ (e + 149).toNat : Nat) : Int) else ((m * 2 ^ (e + 149).toNat : Nat) : Int)
  | _ => Config.coordOf v 0

/-- A level of detail quantised to 1/256 with ties to even (R266). -/
def lodQuant (x : Int) : Int :=
  let r := (roundTo x.natAbs (-141) 0).1
  if x < 0 then -(r : Int) else (r : Int)

/-- The footprint of a lane quad (R225, R266): the square of the length of its major and minor axis in texels, and the major axis in
coordinates. -/
structure Footprint where
  major : Rat
  minor : Rat
  axis : Rat × Rat × Rat

/-- The footprint from the differences of a quad's coordinates, lanes 4k + 1 and 4k + 2 being the x and y neighbours of lane 4k (R225); none for
a cube, or where a coordinate is no finite number. `q` lists u, v, w of the four lanes. -/
def footprintOf (t : TexDesc) (q : List W32) : Option Footprint :=
  if t.dim = 3 ∨ ¬ (q.take 9).all (fun c => (dyadic32 c).isSome) then none
  else
    let diff (l k : Nat) : Rat := ratOf (lget 0 q (3 * l + k)) - ratOf (lget 0 q k)
    let vec (l : Nat) : Rat × Rat × Rat := (diff l 0, diff l 1, diff l 2)
    let len (v : Rat × Rat × Rat) : Rat :=
      let a := v.1 * t.w
      let b := v.2.1 * t.h
      let c := if t.dim = 2 then v.2.2 * t.depth else 0
      a * a + b * b + c * c
    let x := len (vec 1)
    let y := len (vec 2)
    if x < y then some { major := y, minor := x, axis := vec 2 } else some { major := x, minor := y, axis := vec 1 }

/-- The power of two of the number of probes: the ratio of the axes rounded up to one, up to ANISO (R266). -/
def probeLog (aniso : Nat) (f : Footprint) : Nat :=
  if f.major = 0 then 0
  else ((countUp 0 (Nat.log2 aniso)).find? (fun k => decide (f.major ≤ f.minor * (4 ^ k : Nat)))).getD (Nat.log2 aniso)

/-- The level of detail of a `tex` in 1/256: its source, the bias and the clamps (R266); `minor` for that of the minor axis. -/
def lodOf (sm : Sampler) (mode : Nat) (t : TexDesc) (quad : List W32) (reg : W32) (minor : Bool) : Int :=
  if mode = 3 then 0
  else
    let implicit := match footprintOf t quad with
      | some f => Config.lodOfAxis (if minor then f.minor else f.major)
      | none => Config.texFootprint quad (b2n minor)
    let src := if mode = 2 then lodExact reg else lodExact implicit + (if mode = 1 then lodExact reg else 0)
    lodQuant (min (max (src + lodExact sm.bias) (lodExact sm.minLod)) (lodExact sm.maxLod))

/-- The levels and weights that a level of detail takes under MIP (R266): weight in 1/256. -/
def mipLevels (t : TexDesc) (mip : Nat) (l : Int) : List (Nat × Nat) :=
  let top := t.levels - 1
  match mip with
  | 0 => [(0, 256)]
  | 1 => [(min (roundTo l.toNat (-8) 0).1 top, 256)]
  | _ =>
    let k := l.toNat / 256
    let f := l.toNat % 256
    if top ≤ k then [(top, 256)] else if f = 0 then [(k, 256)] else [(k, 256 - f), (k + 1, f)]

/-- The probes of a sample: N of them at even spacing along the major axis, in the middles of N equal parts of it (R266; DESIGN CHOICE, log 52).
-/
def probesOf (t : TexDesc) (sm : Sampler) (quad : List W32) (c : Coords) : List Coords :=
  match footprintOf t quad with
  | some f =>
    let n := 2 ^ probeLog sm.aniso f
    (countUp 0 n).map (fun k =>
      let r : Rat := (2 * k + 1 : Nat) / (2 * n : Nat) - 1 / 2
      { c with add := (r * f.axis.1, r * f.axis.2.1, r * f.axis.2.2) })
  | none =>
    let p := min (Nat.log2 sm.aniso) ((Config.texFootprint quad 2).toNat % 5)
    if p = 0 then [c]
    else (countUp 0 (2 ^ p)).map (fun k => { c with u := Config.texFootprint quad (3 + 2 * k), v := Config.texFootprint quad (4 + 2 * k) })

/-- The taps of a filtered sample (R266). -/
def sampleTaps (t : TexDesc) (sm : Sampler) (mode : Nat) (quad : List W32) (reg : W32) (c : Coords) : List TexTap :=
  let aniso := decide (sm.aniso ≠ 0) && decide (mode ≤ 1)
  let l := lodOf sm mode t quad reg aniso
  let linear := if l ≤ 0 then sm.mag else sm.min
  let ps := if aniso then probesOf t sm quad c else [c]
  ps.flatMap (fun k => (mipLevels t sm.mip l).flatMap (fun m => levelTaps t sm linear k m.1 m.2 (-(Nat.log2 ps.length : Int) - 8)))

/-- The border's components (Table 9.14). -/
def borderTexel (code : Nat) : List W32 :=
  match code with
  | 0 => [0, 0, 0, 0]
  | 1 => [0, 0, 0, one32]
  | _ => [one32, one32, one32, one32]

/-- The exact weighted sum of components, rounded once to FP32 (R266). -/
def weightedSum (xs : List (Nat × Int × W32)) : W32 :=
  let ts := xs.filterMap (fun x => prodF (.fin false x.1 x.2.1) (decodeF fp32 x.2.2.toNat))
  (sum32 true ts (xs.map (fun x => decodeF fp32 x.2.2.toNat))).v

/-- The components in the order of SWIZZLE (Table 9.13). -/
def swizzled (t : TexDesc) (v : List W32) : List W32 :=
  (countUp 0 4).map (fun k =>
    match t.swizzle / 8 ^ k % 8 with
    | 4 => 0
    | 5 => one32
    | n => lget 0 v n)

/-- Taps read in order, each texel's components; a depth comparison replaces them by 0 or 1, which the spec leaves open with the
reference it names no register for (log 4). -/
def readTaps (i : Issue) (t : TexDesc) (sm : Sampler) (quad : List W32) : List TexTap → State → List (Nat × Int × List W32) →
    Except TexFault (List (Nat × Int × List W32)) × State
  | [], s, acc => (.ok acc, s)
  | p :: r, s, acc =>
    let got : Except TexFault (List W32) × State :=
      match p.place with
      | some q => readTexel s i t p.level p.slice q.1 q.2
      | none => (.ok (borderTexel sm.border), s)
    match got with
    | (.error e, s1) => (.error e, s1)
    | (.ok v, s1) =>
      let x := if sm.compare = 0 then v
        else rep 4 (if Config.texCompare sm.compare (lget 0 v 0) quad then one32 else 0)
      readTaps i t sm quad r s1 (acc ++ [(p.wm, p.we, x)])

/-! ### Instructions -/

/-- The fields of a texture instruction's MOD (Table 8.15). -/
structure TexMod where
  dim : Nat
  array : Bool
  lod : Nat
  offset : Bool
  mask : Nat

/-- MOD as Table 8.15 reads it. -/
def texMod (w : Wd) : TexMod :=
  { dim := fldN w.mod 1 0, array := w.mod.testBit 2, lod := fldN w.mod 4 3, offset := w.mod.testBit 5, mask := fldN w.mod 9 6 }

/-- Coordinate registers that an instruction reads (R224). -/
def coordRegs (m : TexMod) : Nat :=
  1 + b2n (decide (1 ≤ m.dim)) + b2n (decide (2 ≤ m.dim)) + b2n m.array + b2n (m.lod == 1 || m.lod == 2) + b2n m.offset

/-- Which coordinate register holds the layer, the level, the offsets. -/
def coordIdx (m : TexMod) (what : Nat) : Nat :=
  let base := 1 + b2n (decide (1 ≤ m.dim)) + b2n (decide (2 ≤ m.dim))
  if what = 0 then base else if what = 1 then base + b2n m.array else base + b2n m.array + b2n (m.lod == 1 || m.lod == 2)

/-- The offsets of a lane: three signed 4-bit values (Table 8.15). -/
def texOffsets (s : State) (i : Issue) (w : Wd) (lane : Nat) : List Int :=
  let m := texMod w
  if m.offset then
    let v := (operand s i w 0 (coordIdx m 2) lane).toNat
    [sx 4 v, sx 4 (v / 16), sx 4 (v / 256)]
  else [0, 0, 0]

/-- The u, v and w registers of a lane, zero where the dimension has none. -/
def texUvw (s : State) (i : Issue) (w : Wd) (lane k : Nat) : W32 :=
  if k = 0 ∨ k ≤ (texMod w).dim ∧ k ≤ 1 ∨ k = 2 ∧ 2 ≤ (texMod w).dim then operand s i w 0 k lane else 0

/-- The bytes of the descriptor that SRC1 names. -/
def texBytes (s : State) (i : Issue) (w : Wd) (n : Nat) : Except TexFault (List Byte) × State :=
  vaBytes i.d i.x.ctx 2 (operandPair s i w 1 (scalarLane i)) n s

/-- Whether an instruction agrees with a descriptor's TYPE (R265). -/
def texAgrees (m : TexMod) (t : TexDesc) : Bool := m.dim == t.dim && m.array == t.array

/-- A float layer coordinate as a layer: rounded to nearest, within the layers. -/
def layerOf (t : TexDesc) (v : W32) : Nat :=
  let n := if t.dim = 3 then t.depth / 6 else t.depth
  match decodeF fp32 v.toNat with
  | .fin neg m e => if neg then 0 else min (roundTo m e 0).1 (n - 1)
  | _ => min (Config.coordOf v n).toNat (n - 1)

/-- A lane's sample of `tex` (R266), swizzled. -/
def texLane (s : State) (i : Issue) (w : Wd) (t : TexDesc) (sm : Sampler) (lane : Nat) : Except TexFault (List W32) × State :=
  let m := texMod w
  let q := 4 * (lane / 4)
  let quad := (countUp q 4).flatMap (fun l => (countUp 0 3).map (texUvw s i w l))
  let c : Coords := { u := texUvw s i w lane 0, v := texUvw s i w lane 1, w := texUvw s i w lane 2,
                      add := (0, 0, 0),
                      layer := if m.array then layerOf t (operand s i w 0 (coordIdx m 0) lane) else 0, offs := texOffsets s i w lane }
  let reg := if m.lod = 1 ∨ m.lod = 2 then operand s i w 0 (coordIdx m 1) lane else 0
  match readTaps i t sm quad (sampleTaps t sm m.lod quad reg c) s [] with
  | (.error e, s1) => (.error e, s1)
  | (.ok xs, s1) => (.ok (swizzled t ((countUp 0 4).map (fun k => weightedSum (xs.map (fun x => (x.1, x.2.1, lget 0 x.2.2 k)))))), s1)

/-- The place of an integer access (`texld`, `texst`): level, slice, x, y; none outside the image. -/
def texPlace (s : State) (i : Issue) (w : Wd) (t : TexDesc) (lane : Nat) : Option (Nat × Nat × Nat × Nat) :=
  let m := texMod w
  let o := texOffsets s i w lane
  let at_ (k : Nat) : Int := (texUvw s i w lane k).toInt + lget 0 o k
  let level := if m.lod = 2 then (operand s i w 0 (coordIdx m 1) lane).toNat
    else if m.lod = 3 then 0
    else (Config.texFootprint ((countUp (4 * (lane / 4)) 4).flatMap (fun l => (countUp 0 3).map (texUvw s i w l))) 0).toNat % t.levels
  let layer := if m.array then (operand s i w 0 (coordIdx m 0) lane).toNat else 0
  let z : Int := if t.dim = 2 then at_ 2 else if t.dim = 3 then 6 * layer + at_ 2 else layer
  let depth : Int := if t.dim = 2 then levelDim t.depth level else if t.dim = 3 ∨ t.array then t.depth else 1
  if level < t.levels ∧ 0 ≤ at_ 0 ∧ at_ 0 < levelDim t.w level ∧ 0 ≤ at_ 1
      ∧ at_ 1 < (if t.dim = 0 then 1 else (levelDim t.h level : Int)) ∧ 0 ≤ z ∧ z < depth then
    some (level, z.toNat, (at_ 0).toNat, (at_ 1).toNat)
  else none

/-- A lane's texel of `texld`, swizzled; what lies outside the image is not stated (log 4). -/
def texldLane (s : State) (i : Issue) (w : Wd) (t : TexDesc) (lane : Nat) : Except TexFault (List W32) × State :=
  match texPlace s i w t lane with
  | some p =>
    match readTexel s i t p.1 p.2.1 p.2.2.1 p.2.2.2 with
    | (.error e, s1) => (.error e, s1)
    | (.ok v, s1) => (.ok (swizzled t v), s1)
  | none => (.ok ((countUp 0 4).map (Config.outsideTexel t.fmt)), s)

/-- Lanes in ascending order, each with its components; the lowest lane's fault stands (R221). -/
def texLanes (f : Nat → State → Except TexFault (List W32) × State) : List Nat → State → List (Nat × List W32) →
    Except TexFault (List (Nat × List W32)) × State
  | [], s, acc => (.ok acc, s)
  | l :: r, s, acc =>
    match f l s with
    | (.error e, s1) => (.error e, s1)
    | (.ok v, s1) => texLanes f r s1 (acc ++ [(l, v)])

/-- A texture access's fault as a core fault (R169, R290, Table 6.8). -/
def texFault (e : TexFault) (s : State) : IsaRes := if e.1 = 0xFF then .fault 0x0317 0xFF e.2 s else .fault 0x0310 e.1 e.2 s

/-- The counted operation of a texture result: the components of MASK, written when TCNT counts it done. -/
def texOp (s : State) (i : Issue) (w : Wd) (vs : List (Nat × List W32)) : IsaRes :=
  let m := texMod w
  let res := vs.flatMap (fun v => ((countUp 0 4).filter (fun k => m.mask.testBit k)).map (fun k => (w.dst + k, v.1, lget 0 v.2 k)))
  .next (countT i { serial := s.nextId, issuedAt := s.now, kind := .fixed, dst := w.dst, access := [], result := res, flags := 0,
                    dests := res.map (fun r => (r.1, r.2.1)), stale := [], posted := false, pc := i.pc } s)

/-- A texture row that writes a quad: its descriptor read once, then its lanes. -/
def texRow (op : Nat) (coords sampler : Bool) (g : GRef) (w e : W64) (s : State)
    (lane : Issue → Wd → TexDesc → List Byte → Nat → State → Except TexFault (List W32) × State) : Host.Outcome State Fault Refusal :=
  runIsa (· == op) g w e s (fun i wd t =>
    let m := texMod wd
    checked i wd { a := if coords then .reg (coordRegs m) else .no, b := .sca 2, d := .v 4, mods := 0x3FF } true t (fun t =>
      if 63 ≤ i.g.tq.length then .stall
      else if (actingLanes i wd).isEmpty then texOp t i wd []
      else
        match texBytes t i wd (if sampler then 96 else 64) with
        | (.error e, t1) => texFault e t1
        | (.ok b, t1) =>
          let zero := (actingLanes i wd).map (fun l => (l, rep 4 (0 : W32)))
          match texDescOf b with
          | some d =>
            if texAgrees m d && (!sampler || (samplerOf (b.drop 64)).isSome) then
              match texLanes (lane i wd d (b.drop 64)) (actingLanes i wd) t1 [] with
              | (.error e, t2) => texFault e t2
              | (.ok vs, t2) => texOp t2 i wd vs
            else texOp t1 i wd zero
          | none => texOp t1 i wd zero))

/-- TEX (R224). -/
def execTex (g : GRef) (w e : W64) (s : State) : Host.Outcome State Fault Refusal :=
  texRow 0x200 true true g w e s (fun i wd d sb l t =>
    match samplerOf sb with
    | some sm => texLane t i wd d sm l
    | none => (.ok (rep 4 0), t))

/-- TEXLD (R224). -/
def execTexld (g : GRef) (w e : W64) (s : State) : Host.Outcome State Fault Refusal :=
  texRow 0x201 true false g w e s (fun i wd d _ l t => texldLane t i wd d l)

/-- TEXQ (R224): width, height, depth or layers, levels. -/
def execTexq (g : GRef) (w e : W64) (s : State) : Host.Outcome State Fault Refusal :=
  texRow 0x203 false false g w e s (fun _ _ d _ _ t =>
    (.ok [BitVec.ofNat 32 d.w, BitVec.ofNat 32 d.h, BitVec.ofNat 32 d.depth, BitVec.ofNat 32 d.levels], t))

/-- The bits of a texel that the components of a mask take. -/
def maskBits (c mask : Nat) : Nat :=
  joinChans (fmtChans c) (((fmtChans c).zipIdx).map (fun p => if mask.testBit p.2 then 2 ^ chanBits p.1 - 1 else 0))

/-- The bytes that a lane of `texst` stores: those that hold a component of MASK. A byte that holds bits of another as well keeps these as the
group reads them (R163). -/
def texstLane (s : State) (i : Issue) (w : Wd) (t : TexDesc) (lane : Nat) : Except TexFault (Option (Nat × List Host.Cell)) × State :=
  match texPlace s i w t lane with
  | none => (.ok none, s)
  | some p =>
    let va := texelVa t p.1 p.2.1 p.2.2.1 p.2.2.2
    match translate s i.d i.x.ctx va { write := true } with
    | (.error e, s1) => (.error (e, va), s1)
    | (.ok (pa, _), s1) =>
      if ¬ reach s1 i.d (dieOf pa) then (.error (0x0A, va), s1)
      else
        let n := texelBytes t.fmt
        let v := (countUp 0 4).map (fun k => operand s1 i w 2 k lane)
        let old := groupRead s1 i.d i.gid s1.nextId pa n
        let bits := natLe n (maskBits t.fmt (texMod w).mask)
        let new := natLe n (encodeTexel t.fmt (leNat old) (texMod w).mask v)
        (.ok (some (pa, ((cellsAt pa new).zip bits).filterMap (fun c => if c.2 = 0 then none else some c.1))), s1)

/-- The stores of the lanes of a `texst`. -/
def texstLanes (i : Issue) (w : Wd) (t : TexDesc) : List Nat → State → List (Nat × Nat × List Host.Cell) →
    Except TexFault (List (Nat × Nat × List Host.Cell)) × State
  | [], s, acc => (.ok acc, s)
  | l :: r, s, acc =>
    match texstLane s i w t l with
    | (.error e, s1) => (.error e, s1)
    | (.ok (some x), s1) => texstLanes i w t r s1 (acc ++ [(l, x)])
    | (.ok none, s1) => texstLanes i w t r s1 acc

/-- TEXST (R265): only uncompressed formats without META are written; anything else writes nothing. -/
def execTexst (g : GRef) (w e : W64) (s : State) : Host.Outcome State Fault Refusal :=
  runIsa (· == 0x202) g w e s (fun i wd t =>
    let m := texMod wd
    checked i wd { a := .reg (coordRegs m), b := .sca 2, c := .reg 4, mods := 0x3FF } true t (fun t =>
      if (actingLanes i wd).isEmpty then issueStore i [] [] t
      else
        match texBytes t i wd 64 with
        | (.error e, t1) => texFault e t1
        | (.ok b, t1) =>
          match texDescOf b with
          | some d =>
            if texAgrees m d && isTarget d.fmt && d.metaVa == 0 then
              match texstLanes i wd d (actingLanes i wd) t1 [] with
              | (.error e, t2) => texFault e t2
              | (.ok xs, t2) =>
                issueStore i (xs.flatMap (fun x => x.2.2))
                  (xs.map (fun x => { lane := x.1, pa := x.2.1, bytes := texelBytes d.fmt, got := none })) t2
            else issueStore i [] [] t1
          | none => issueStore i [] [] t1))

/-- The colour that a BLEND write hands to the blend path: with b128 the run is red, green, blue and alpha in FP32 (DEDUCED, log 16); which
components a smaller run gives, the spec does not say. -/
def blendColour (fmt size : Nat) (ws : List W32) : List W32 :=
  if size = 4 then ws else (countUp 0 4).map (Config.blendSource fmt size ws)

/-- A lane's BLEND write to the entry of sample 0 of a pixel in a colour plane: each sample of the lane's mask goes through the blend path
under the draw's blend set (R261, R262). A block that changes is no clear block any more (R267). -/
def blendSample (i : Issue) (w : GeoWork) (a base e0 : Nat) (src : List W32) (s : State) (smp : Nat) : State :=
  match passOfDisp s i.d i.x with
  | none => s
  | some p =>
    let fmt := atFmt (psAttach p.block a)
    let n := texelBytes fmt
    let o := base + (1024 * smp + e0) * n
    let old := leNat (tileRead s i o n)
    let v := blendTexel fmt (psBlend p.block w.blend a) (psConst p.block) src old
    let mark (j : TileJob) : TileJob :=
      if some j.tile = w.tile ∧ v ≠ old then { j with changed := j.changed ++ [(a, blockKey (1024 * smp + e0))] } else j
    setPass (tilePut s i o (natLe n v)) i.d { p with jobs := p.jobs.map mark }

/-- A lane's BLEND write of a fragment group. An offset that names no such entry has no stated effect: the bytes it covers are free. -/
def blendLane (i : Issue) (w : GeoWork) (p : GeoPass) (size o lane : Nat) (ws : List W32) (s : State) : State :=
  match (tilePlanes p.block).find? (fun q => decide (q.1 < 8) && decide (q.2.1 ≤ o) && decide (o < q.2.1 + 1024 * q.2.2) && (o - q.2.1) % q.2.2 == 0) with
  | some (a, base, n) =>
    let mask := match w.lanes[lane]? with | some l => l.mask | none => 0
    ((countUp 0 (psSamples p.block)).filter (fun smp => mask.testBit smp)).foldl
      (blendSample i w a base ((o - base) / n) (blendColour (atFmt (psAttach p.block a)) size ws)) s
  | none => tileWrite s i o (rep (sizeBytes size) 0)

/-- TST (R223, R261): a store to tile memory. With BLEND outside a render pass's fragment group the blend path has no state that the spec
gives, and what lands in the entry is open (log 4). -/
def execTst (g : GRef) (w e : W64) (s : State) : Host.Outcome State Fault Refusal :=
  tileRow (· == 0x1C1) (fun wd => { a := .reg 1, c := .reg (sizeRegs (fldN wd.mod 4 2)), mods := 0x5C })
    (fun wd => decide (fldN wd.mod 4 2 ≤ 4)) g w e s (fun i wd ls t =>
    let size := fldN wd.mod 4 2
    let store (u : State) (p : Nat × Nat) : State :=
      if ¬ wd.mod.testBit 6 then tileWrite u i p.2 (dataBytes t i wd 2 size p.1)
      else
        match i.x.geo, passOfDisp u i.d i.x with
        | some gw, some pass => blendLane i gw pass size p.2 p.1 ((countUp 0 (sizeRegs size)).map (fun k => operand t i wd 2 k p.1)) u
        | _, _ => tileWrite u i p.2 ((countUp 0 (sizeBytes size)).map (fun k => Config.freeByte t.freeCtr (p.1 * 16 + k)))
    ls.foldl store t)

end Sys2Proof.Machine
end

