-- ==== Sys2Proof/Machine/Dispatch.lean ====
section
/-! DEFINITION. `exec`: one arm per command, each a direct call of its meaning. -/

namespace Sys2Proof.Machine


/-- The effect of a command on everything but the queue. -/
def exec (i : Instr) (s : State) : Host.Outcome State Fault Refusal :=
  match i with
  | .channelResetFall ch => Sys2Proof.Machine.execChannelResetFall ch s
  | .channelResetRelease ch => Sys2Proof.Machine.execChannelResetRelease ch s
  | .commandBusTraining ch pattern => Sys2Proof.Machine.execCommandBusTraining ch pattern s
  | .wck2ckLevelling ch phase => Sys2Proof.Machine.execWck2ckLevelling ch phase s
  | .readDqCalibration ch => Sys2Proof.Machine.execReadDqCalibration ch s
  | .writeTraining ch data => Sys2Proof.Machine.execWriteTraining ch data s
  | .modeRegisterWrite ch mr v => Sys2Proof.Machine.execModeRegisterWrite ch mr v s
  | .vndParityWrite ch v => Sys2Proof.Machine.execVndParityWrite ch v s
  | .vndPrbsWrite ch v => Sys2Proof.Machine.execVndPrbsWrite ch v s
  | .modeRegisterRead ch mr => Sys2Proof.Machine.execModeRegisterRead ch mr s
  | .bankCommand ch bank op => Sys2Proof.Machine.execBankCommand ch bank op s
  | .refresh ch allBank => Sys2Proof.Machine.execRefresh ch allBank s
  | .powerDownEntry ch deep => Sys2Proof.Machine.execPowerDownEntry ch deep s
  | .powerDownExit ch => Sys2Proof.Machine.execPowerDownExit ch s
  | .hostReadBurst ch b => Sys2Proof.Machine.execHostReadBurst ch b s
  | .apertureWrite ch b => Sys2Proof.Machine.execApertureWrite ch b s
  | .apertureDrain d => Sys2Proof.Machine.execApertureDrain d s
  | .stagingWrite ch b => Sys2Proof.Machine.execStagingWrite ch b s
  | .ignoredWrite ch b => Sys2Proof.Machine.execIgnoredWrite ch b s
  | .doorbellWrite ch b => Sys2Proof.Machine.execDoorbellWrite ch b s
  | .doorbellTakesEffect d => Sys2Proof.Machine.execDoorbellTakesEffect d s
  | .registerSlotWrite ch b => Sys2Proof.Machine.execRegisterSlotWrite ch b s
  | .ctlHpErrWrite d v => Sys2Proof.Machine.execCtlHpErrWrite d v s
  | .relayWrite b => Sys2Proof.Machine.execRelayWrite b s
  | .relayForwardApply d => Sys2Proof.Machine.execRelayForwardApply d s
  | .relayCopyUpdate d => Sys2Proof.Machine.execRelayCopyUpdate d s
  | .relayRefresh d => Sys2Proof.Machine.execRelayRefresh d s
  | .tenTableWrite d v => Sys2Proof.Machine.execTenTableWrite d v s
  | .ctxTableWrite d v => Sys2Proof.Machine.execCtxTableWrite d v s
  | .objTableWrite d v => Sys2Proof.Machine.execObjTableWrite d v s
  | .tenantEnable d t => Sys2Proof.Machine.execTenantEnable d t s
  | .tenantUpdate d t => Sys2Proof.Machine.execTenantUpdate d t s
  | .tenantDisable d t => Sys2Proof.Machine.execTenantDisable d t s
  | .tenantReset d t => Sys2Proof.Machine.execTenantReset d t s
  | .tenantResetReport d t => Sys2Proof.Machine.execTenantResetReport d t s
  | .tenStage d piece t => Sys2Proof.Machine.execTenStage d piece t s
  | .stageClearDone d piece => Sys2Proof.Machine.execStageClearDone d piece s
  | .contextCreate d c => Sys2Proof.Machine.execContextCreate d c s
  | .contextDestroy d c => Sys2Proof.Machine.execContextDestroy d c s
  | .contextDestroyDone c => Sys2Proof.Machine.execContextDestroyDone c s
  | .contextQuery d c => Sys2Proof.Machine.execContextQuery d c s
  | .clearFault d c => Sys2Proof.Machine.execClearFault d c s
  | .objectCreate d h => Sys2Proof.Machine.execObjectCreate d h s
  | .objectFree d h => Sys2Proof.Machine.execObjectFree d h s
  | .objectQuery d h => Sys2Proof.Machine.execObjectQuery d h s
  | .objectEntryWriteback index => Sys2Proof.Machine.execObjectEntryWriteback index s
  | .queueCreate d q engine header => Sys2Proof.Machine.execQueueCreate d q engine header s
  | .queueDestroy d q => Sys2Proof.Machine.execQueueDestroy d q s
  | .queueQuery d q => Sys2Proof.Machine.execQueueQuery d q s
  | .queueResume d q => Sys2Proof.Machine.execQueueResume d q s
  | .recordFetch d q => Sys2Proof.Machine.execRecordFetch d q s
  | .recordHandout d => Sys2Proof.Machine.execRecordHandout d s
  | .recordRetire d q count => Sys2Proof.Machine.execRecordRetire d q count s
  | .fenceSignal id => Sys2Proof.Machine.execFenceSignal id s
  | .waitSatisfied d f => Sys2Proof.Machine.execWaitSatisfied d f s
  | .waitTimeout d f => Sys2Proof.Machine.execWaitTimeout d f s
  | .contactSheetRewrite d => Sys2Proof.Machine.execContactSheetRewrite d s
  | .sliceEnd d st => Sys2Proof.Machine.execSliceEnd d st s
  | .framesFull d => Sys2Proof.Machine.execFramesFull d s
  | .rv32Instruction d f => Sys2Proof.Machine.execRv32Instruction d f s
  | .kWaitge d f => Sys2Proof.Machine.execKWaitge d f s
  | .kSigmax d f => Sys2Proof.Machine.execKSigmax d f s
  | .kLaunch d f => Sys2Proof.Machine.execKLaunch d f s
  | .kDma d f => Sys2Proof.Machine.execKDma d f s
  | .kBin d f => Sys2Proof.Machine.execKBin d f s
  | .kStep d f => Sys2Proof.Machine.execKStep d f s
  | .kPrefetch d f => Sys2Proof.Machine.execKPrefetch d f s
  | .kAdvise d f => Sys2Proof.Machine.execKAdvise d f s
  | .kYield d f => Sys2Proof.Machine.execKYield d f s
  | .kTime d f => Sys2Proof.Machine.execKTime d f s
  | .kCommit d f => Sys2Proof.Machine.execKCommit d f s
  | .kWindow d f => Sys2Proof.Machine.execKWindow d f s
  | .kGraph d f => Sys2Proof.Machine.execKGraph d f s
  | .graphNode d f => Sys2Proof.Machine.execGraphNode d f s
  | .kEnd d f => Sys2Proof.Machine.execKEnd d f s
  | .submissionAccept d engine => Sys2Proof.Machine.execSubmissionAccept d engine s
  | .commitArrival d f => Sys2Proof.Machine.execCommitArrival d f s
  | .commitAcknowledge id d => Sys2Proof.Machine.execCommitAcknowledge id d s
  | .commitDecide id => Sys2Proof.Machine.execCommitDecide id s
  | .commitDecisionReceive id d => Sys2Proof.Machine.execCommitDecisionReceive id d s
  | .commitDeadline id d => Sys2Proof.Machine.execCommitDeadline id d s
  | .stokerRotate d st started => Sys2Proof.Machine.execStokerRotate d st started s
  | .blockPlace d cmp => Sys2Proof.Machine.execBlockPlace d cmp s
  | .contextLoad d c => Sys2Proof.Machine.execContextLoad d c s
  | .contextLoadDone d slot => Sys2Proof.Machine.execContextLoadDone d slot s
  | .stopBath d slot => Sys2Proof.Machine.execStopBath d slot s
  | .stopBathDone d slot => Sys2Proof.Machine.execStopBathDone d slot s
  | .saveDone d slot => Sys2Proof.Machine.execSaveDone d slot s
  | .slotStarved d => Sys2Proof.Machine.execSlotStarved d s
  | .autoEvictDecision d => Sys2Proof.Machine.execAutoEvictDecision d s
  | .resLoad d target c => Sys2Proof.Machine.execResLoad d target c s
  | .resEvict d target c => Sys2Proof.Machine.execResEvict d target c s
  | .resQuery d target c => Sys2Proof.Machine.execResQuery d target c s
  | .clusterDrainTimeout d cl => Sys2Proof.Machine.execClusterDrainTimeout d cl s
  | .quarterPreempt d core quarter => Sys2Proof.Machine.execQuarterPreempt d core quarter s
  | .activeSetRotate d core quarter => Sys2Proof.Machine.execActiveSetRotate d core quarter s
  | .pathRotate g => Sys2Proof.Machine.execPathRotate g s
  | .barrierOrphan d block => Sys2Proof.Machine.execBarrierOrphan d block s
  | .sleepEnd g => Sys2Proof.Machine.execSleepEnd g s
  | .nearCacheFill d core line => Sys2Proof.Machine.execNearCacheFill d core line s
  | .vcntDecrement g => Sys2Proof.Machine.execVcntDecrement g s
  | .scntDecrement g => Sys2Proof.Machine.execScntDecrement g s
  | .tcntDecrement g => Sys2Proof.Machine.execTcntDecrement g s
  | .mcntDecrement g => Sys2Proof.Machine.execMcntDecrement g s
  | .addF32 g w ext => Sys2Proof.Machine.execAddF32 g w ext s
  | .subF32 g w ext => Sys2Proof.Machine.execSubF32 g w ext s
  | .mulF32 g w ext => Sys2Proof.Machine.execMulF32 g w ext s
  | .fmaF32 g w ext => Sys2Proof.Machine.execFmaF32 g w ext s
  | .minF32 g w ext => Sys2Proof.Machine.execMinF32 g w ext s
  | .maxF32 g w ext => Sys2Proof.Machine.execMaxF32 g w ext s
  | .floorF32 g w ext => Sys2Proof.Machine.execFloorF32 g w ext s
  | .ceilF32 g w ext => Sys2Proof.Machine.execCeilF32 g w ext s
  | .truncF32 g w ext => Sys2Proof.Machine.execTruncF32 g w ext s
  | .setF32 g w ext => Sys2Proof.Machine.execSetF32 g w ext s
  | .add g w ext => Sys2Proof.Machine.execAdd g w ext s
  | .sub g w ext => Sys2Proof.Machine.execSub g w ext s
  | .mul g w ext => Sys2Proof.Machine.execMul g w ext s
  | .mad g w ext => Sys2Proof.Machine.execMad g w ext s
  | .mulhi g w ext => Sys2Proof.Machine.execMulhi g w ext s
  | .minMaxInt g w ext => Sys2Proof.Machine.execMinMaxInt g w ext s
  | .and g w ext => Sys2Proof.Machine.execAnd g w ext s
  | .or g w ext => Sys2Proof.Machine.execOr g w ext s
  | .xor g w ext => Sys2Proof.Machine.execXor g w ext s
  | .not g w ext => Sys2Proof.Machine.execNot g w ext s
  | .shl g w ext => Sys2Proof.Machine.execShl g w ext s
  | .shr g w ext => Sys2Proof.Machine.execShr g w ext s
  | .rotl g w ext => Sys2Proof.Machine.execRotl g w ext s
  | .popc g w ext => Sys2Proof.Machine.execPopc g w ext s
  | .clz g w ext => Sys2Proof.Machine.execClz g w ext s
  | .bfeU32 g w ext => Sys2Proof.Machine.execBfeU32 g w ext s
  | .sel g w ext => Sys2Proof.Machine.execSel g w ext s
  | .mov g w ext => Sys2Proof.Machine.execMov g w ext s
  | .shfl g w ext => Sys2Proof.Machine.execShfl g w ext s
  | .rdlane g w ext => Sys2Proof.Machine.execRdlane g w ext s
  | .setInt g w ext => Sys2Proof.Machine.execSetInt g w ext s
  | .scalarAlu g w ext => Sys2Proof.Machine.execScalarAlu g w ext s
  | .sadd64 g w ext => Sys2Proof.Machine.execSadd64 g w ext s
  | .ssub64 g w ext => Sys2Proof.Machine.execSsub64 g w ext s
  | .pand g w ext => Sys2Proof.Machine.execPand g w ext s
  | .por g w ext => Sys2Proof.Machine.execPor g w ext s
  | .pxor g w ext => Sys2Proof.Machine.execPxor g w ext s
  | .pnot g w ext => Sys2Proof.Machine.execPnot g w ext s
  | .ballot g w ext => Sys2Proof.Machine.execBallot g w ext s
  | .s2p g w ext => Sys2Proof.Machine.execS2p g w ext s
  | .rdexec g w ext => Sys2Proof.Machine.execRdexec g w ext s
  | .wrexec g w ext => Sys2Proof.Machine.execWrexec g w ext s
  | .cvt g w ext => Sys2Proof.Machine.execCvt g w ext s
  | .mxq g w ext => Sys2Proof.Machine.execMxq g w ext s
  | .mxdq g w ext => Sys2Proof.Machine.execMxdq g w ext s
  | .rcp g w ext => Sys2Proof.Machine.execRcp g w ext s
  | .rsqrt g w ext => Sys2Proof.Machine.execRsqrt g w ext s
  | .sqrt g w ext => Sys2Proof.Machine.execSqrt g w ext s
  | .exp2 g w ext => Sys2Proof.Machine.execExp2 g w ext s
  | .log2 g w ext => Sys2Proof.Machine.execLog2 g w ext s
  | .sin g w ext => Sys2Proof.Machine.execSin g w ext s
  | .cos g w ext => Sys2Proof.Machine.execCos g w ext s
  | .div g w ext => Sys2Proof.Machine.execDiv g w ext s
  | .ld g w ext => Sys2Proof.Machine.execLd g w ext s
  | .st g w ext => Sys2Proof.Machine.execSt g w ext s
  | .sld g w ext => Sys2Proof.Machine.execSld g w ext s
  | .sst g w ext => Sys2Proof.Machine.execSst g w ext s
  | .tld g w ext => Sys2Proof.Machine.execTld g w ext s
  | .tst g w ext => Sys2Proof.Machine.execTst g w ext s
  | .tatomInt g w ext => Sys2Proof.Machine.execTatomInt g w ext s
  | .tatomExch g w ext => Sys2Proof.Machine.execTatomExch g w ext s
  | .tatomCas g w ext => Sys2Proof.Machine.execTatomCas g w ext s
  | .tatomAddF32 g w ext => Sys2Proof.Machine.execTatomAddF32 g w ext s
  | .tex g w ext => Sys2Proof.Machine.execTex g w ext s
  | .texld g w ext => Sys2Proof.Machine.execTexld g w ext s
  | .texst g w ext => Sys2Proof.Machine.execTexst g w ext s
  | .texq g w ext => Sys2Proof.Machine.execTexq g w ext s
  | .mma g w ext => Sys2Proof.Machine.execMma g w ext s
  | .atomAdd g w ext => Sys2Proof.Machine.execAtomAdd g w ext s
  | .atomAddF32 g w ext => Sys2Proof.Machine.execAtomAddF32 g w ext s
  | .atomMinMax g w ext => Sys2Proof.Machine.execAtomMinMax g w ext s
  | .atomLogic g w ext => Sys2Proof.Machine.execAtomLogic g w ext s
  | .atomExch g w ext => Sys2Proof.Machine.execAtomExch g w ext s
  | .atomCas g w ext => Sys2Proof.Machine.execAtomCas g w ext s
  | .br g w ext => Sys2Proof.Machine.execBr g w ext s
  | .call g w ext => Sys2Proof.Machine.execCall g w ext s
  | .ret g w ext => Sys2Proof.Machine.execRet g w ext s
  | .exit g w ext => Sys2Proof.Machine.execExit g w ext s
  | .bar g w ext => Sys2Proof.Machine.execBar g w ext s
  | .wait g w ext => Sys2Proof.Machine.execWait g w ext s
  | .sleep g w ext => Sys2Proof.Machine.execSleep g w ext s
  | .invNear g w ext => Sys2Proof.Machine.execInvNear g w ext s
  | .rdflags g w ext => Sys2Proof.Machine.execRdflags g w ext s
  | .clrflags g w ext => Sys2Proof.Machine.execClrflags g w ext s
  | .rdtime g w ext => Sys2Proof.Machine.execRdtime g w ext s
  | .nop g w ext => Sys2Proof.Machine.execNop g w ext s
  | .binAccept d => Sys2Proof.Machine.execBinAccept d s
  | .passJoin leader pass => Sys2Proof.Machine.execPassJoin leader pass s
  | .passJoinWait leader pass => Sys2Proof.Machine.execPassJoinWait leader pass s
  | .passAbort d pass => Sys2Proof.Machine.execPassAbort d pass s
  | .chunkBin d pass chunk part => Sys2Proof.Machine.execChunkBin d pass chunk part s
  | .bin src dst pass => Sys2Proof.Machine.execBin src dst pass s
  | .binMark src dst pass => Sys2Proof.Machine.execBinMark src dst pass s
  | .binFlush leader pass => Sys2Proof.Machine.execBinFlush leader pass s
  | .tileRender d pass tile => Sys2Proof.Machine.execTileRender d pass tile s
  | .passReport d pass => Sys2Proof.Machine.execPassReport d pass s
  | .passEnd d pass => Sys2Proof.Machine.execPassEnd d pass s
  | .genSeqTableWrite d v => Sys2Proof.Machine.execGenSeqTableWrite d v s
  | .genModelTableWrite d v => Sys2Proof.Machine.execGenModelTableWrite d v s
  | .modelLoad d m => Sys2Proof.Machine.execModelLoad d m s
  | .modelUnload d m => Sys2Proof.Machine.execModelUnload d m s
  | .modelQuery d m => Sys2Proof.Machine.execModelQuery d m s
  | .seqLoad d k => Sys2Proof.Machine.execSeqLoad d k s
  | .seqRetire d j => Sys2Proof.Machine.execSeqRetire d j s
  | .seqReady d j => Sys2Proof.Machine.execSeqReady d j s
  | .seqPark d j => Sys2Proof.Machine.execSeqPark d j s
  | .seqQuery d j => Sys2Proof.Machine.execSeqQuery d j s
  | .seqForget d j => Sys2Proof.Machine.execSeqForget d j s
  | .stepOpen d => Sys2Proof.Machine.execStepOpen d s
  | .stepClose d => Sys2Proof.Machine.execStepClose d s
  | .stepReady d => Sys2Proof.Machine.execStepReady d s
  | .stepPark d => Sys2Proof.Machine.execStepPark d s
  | .genEntryWriteback d model j => Sys2Proof.Machine.execGenEntryWriteback d model j s
  | .rowRetire d row => Sys2Proof.Machine.execRowRetire d row s
  | .rowRetireDone d => Sys2Proof.Machine.execRowRetireDone d s
  | .translationWalk d engines stokers cores => Sys2Proof.Machine.execTranslationWalk d engines stokers cores s
  | .xlateFaultMerged d c page => Sys2Proof.Machine.execXlateFaultMerged d c page s
  | .invContext d c => Sys2Proof.Machine.execInvContext d c s
  | .invGib d c gib => Sys2Proof.Machine.execInvGib d c gib s
  | .invAll d => Sys2Proof.Machine.execInvAll d s
  | .dmaShadowLoad d ch => Sys2Proof.Machine.execDmaShadowLoad d ch s
  | .dmaActivate d ch => Sys2Proof.Machine.execDmaActivate d ch s
  | .dmaBurst d ch => Sys2Proof.Machine.execDmaBurst d ch s
  | .dmaFinish d ch => Sys2Proof.Machine.execDmaFinish d ch s
  | .dmaStop d ch => Sys2Proof.Machine.execDmaStop d ch s
  | .sourceAborted d line => Sys2Proof.Machine.execSourceAborted d line s
  | .dmaReqRaise d mask => Sys2Proof.Machine.execDmaReqRaise d mask s
  | .dmaReqClear d mask => Sys2Proof.Machine.execDmaReqClear d mask s
  | .retJobStart d e => Sys2Proof.Machine.execRetJobStart d e s
  | .retRequestRaise d e output => Sys2Proof.Machine.execRetRequestRaise d e output s
  | .retBlockEncode d e => Sys2Proof.Machine.execRetBlockEncode d e s
  | .retBlockDecode d e => Sys2Proof.Machine.execRetBlockDecode d e s
  | .retJobDone d e => Sys2Proof.Machine.execRetJobDone d e s
  | .retJobStop d e => Sys2Proof.Machine.execRetJobStop d e s
  | .retStall d e => Sys2Proof.Machine.execRetStall d e s
  | .flipAccept d => Sys2Proof.Machine.execFlipAccept d s
  | .flipDecision d => Sys2Proof.Machine.execFlipDecision d s
  | .flipGroupDecision leader => Sys2Proof.Machine.execFlipGroupDecision leader s
  | .flipGroupSplit d => Sys2Proof.Machine.execFlipGroupSplit d s
  | .flipGroupWait d => Sys2Proof.Machine.execFlipGroupWait d s
  | .latchPoint d => Sys2Proof.Machine.execLatchPoint d s
  | .firstActiveLine d => Sys2Proof.Machine.execFirstActiveLine d s
  | .lineCompose d y late => Sys2Proof.Machine.execLineCompose d y late s
  | .hpdPlug d => Sys2Proof.Machine.execHpdPlug d s
  | .hpdUnplug d => Sys2Proof.Machine.execHpdUnplug d s
  | .irqHpd d why => Sys2Proof.Machine.execIrqHpd d why s
  | .dpLinkTrain d sinkRates sinkLanes ok => Sys2Proof.Machine.execDpLinkTrain d sinkRates sinkLanes ok s
  | .easCtlWrite d v => Sys2Proof.Machine.execEasCtlWrite d v s
  | .retrain d => Sys2Proof.Machine.execRetrain d s
  | .easTimingWrite d reg v => Sys2Proof.Machine.execEasTimingWrite d reg v s
  | .auxNativeWrite d addr len mot => Sys2Proof.Machine.execAuxNativeWrite d addr len mot s
  | .auxNativeRead d addr len mot => Sys2Proof.Machine.execAuxNativeRead d addr len mot s
  | .auxI2cWrite d addr len mot => Sys2Proof.Machine.execAuxI2cWrite d addr len mot s
  | .auxI2cRead d addr len mot => Sys2Proof.Machine.execAuxI2cRead d addr len mot s
  | .auxComplete d reply => Sys2Proof.Machine.execAuxComplete d reply s
  | .cordTrain a b => Sys2Proof.Machine.execCordTrain a b s
  | .cordTrainDone a b failed => Sys2Proof.Machine.execCordTrainDone a b failed s
  | .cordRetrain d e => Sys2Proof.Machine.execCordRetrain d e s
  | .flitTransmit d e => Sys2Proof.Machine.execFlitTransmit d e s
  | .flitReceive d e flit => Sys2Proof.Machine.execFlitReceive d e flit s
  | .flitAckTimeout d e => Sys2Proof.Machine.execFlitAckTimeout d e s
  | .rd d e h data => Sys2Proof.Machine.execRd d e h data s
  | .wr d e h data => Sys2Proof.Machine.execWr d e h data s
  | .wrp d e h data => Sys2Proof.Machine.execWrp d e h data s
  | .atom d e h data => Sys2Proof.Machine.execAtom d e h data s
  | .sig d e h data => Sys2Proof.Machine.execSig d e h data s
  | .drw d e h data => Sys2Proof.Machine.execDrw d e h data s
  | .drwp d e h data => Sys2Proof.Machine.execDrwp d e h data s
  | .srd d e h data => Sys2Proof.Machine.execSrd d e h data s
  | .swrp d e h data => Sys2Proof.Machine.execSwrp d e h data s
  | .rdRsp d e h data => Sys2Proof.Machine.execRdRsp d e h data s
  | .wrAck d e h data => Sys2Proof.Machine.execWrAck d e h data s
  | .atomRsp d e h data => Sys2Proof.Machine.execAtomRsp d e h data s
  | .sigAck d e h data => Sys2Proof.Machine.execSigAck d e h data s
  | .msg src dst m => Sys2Proof.Machine.execMsg src dst m s
  | .neg d => Sys2Proof.Machine.execNeg d s
  | .tsync d step stamp replayed => Sys2Proof.Machine.execTsync d step stamp replayed s
  | .transactionTimeout d e tag typ => Sys2Proof.Machine.execTransactionTimeout d e tag typ s
  | .agreementCheck => Sys2Proof.Machine.execAgreementCheck s
  | .agreementNoAnswer d => Sys2Proof.Machine.execAgreementNoAnswer d s
  | .stateReload d => Sys2Proof.Machine.execStateReload d s
  | .stateReloadDone d => Sys2Proof.Machine.execStateReloadDone d s
  | .timeExchange => Sys2Proof.Machine.execTimeExchange s
  | .timeLost d => Sys2Proof.Machine.execTimeLost d s
  | .lampEnvelopeWrite d v => Sys2Proof.Machine.execLampEnvelopeWrite d v s
  | .lampOrderWrite d v => Sys2Proof.Machine.execLampOrderWrite d v s
  | .lampMaskWrite d n v => Sys2Proof.Machine.execLampMaskWrite d n v s
  | .domainTransition d => Sys2Proof.Machine.execDomainTransition d s
  | .domainTransitionDone d => Sys2Proof.Machine.execDomainTransitionDone d s
  | .sensorRead d temps => Sys2Proof.Machine.execSensorRead d temps s
  | .thermCap d => Sys2Proof.Machine.execThermCap d s
  | .thermRestore d => Sys2Proof.Machine.execThermRestore d s
  | .ppsEdge falling => Sys2Proof.Machine.execPpsEdge falling s
  | .slewEnd => Sys2Proof.Machine.execSlewEnd s
  | .timeFreeRun => Sys2Proof.Machine.execTimeFreeRun s
  | .epochStart d => Sys2Proof.Machine.execEpochStart d s
  | .timePeriodWrite d v => Sys2Proof.Machine.execTimePeriodWrite d v s
  | .resetRelease => Sys2Proof.Machine.execResetRelease s
  | .powerOkAssert rom => Sys2Proof.Machine.execPowerOkAssert rom s
  | .kindlingOtp d => Sys2Proof.Machine.execKindlingOtp d s
  | .startupDramTrain d trained => Sys2Proof.Machine.execStartupDramTrain d trained s
  | .secLoad d => Sys2Proof.Machine.execSecLoad d s
  | .imageCopy d => Sys2Proof.Machine.execImageCopy d s
  | .startupKiln d failed => Sys2Proof.Machine.execStartupKiln d failed s
  | .startupWaitTimeout => Sys2Proof.Machine.execStartupWaitTimeout s
  | .firmwareStart d => Sys2Proof.Machine.execFirmwareStart d s
  | .secToken d => Sys2Proof.Machine.execSecToken d s
  | .secAttest d => Sys2Proof.Machine.execSecAttest d s
  | .secRotate d => Sys2Proof.Machine.execSecRotate d s
  | .otpBurn d => Sys2Proof.Machine.execOtpBurn d s
  | .burnDone d readBack => Sys2Proof.Machine.execBurnDone d readBack s
  | .otpRaiseFloor d f => Sys2Proof.Machine.execOtpRaiseFloor d f s
  | .dieError d what => Sys2Proof.Machine.execDieError d what s
  | .stokerFirmwareParity d st => Sys2Proof.Machine.execStokerFirmwareParity d st s
  | .stokerFirmwareReload d st => Sys2Proof.Machine.execStokerFirmwareReload d st s
  | .logSuppressed d => Sys2Proof.Machine.execLogSuppressed d s
  | .logMark d v => Sys2Proof.Machine.execLogMark d v s
  | .kilnRun d domains token => Sys2Proof.Machine.execKilnRun d domains token s
  | .kilnDomainTest d segments march => Sys2Proof.Machine.execKilnDomainTest d segments march s
  | .kilnTokenWrite d => Sys2Proof.Machine.execKilnTokenWrite d s
  | .kilnLinkWrite d e v => Sys2Proof.Machine.execKilnLinkWrite d e v s
  | .kilnDpWrite d v => Sys2Proof.Machine.execKilnDpWrite d v s
  | .kilnDramRun d pattern passes => Sys2Proof.Machine.execKilnDramRun d pattern passes s
  | .kilnDramPass d errors => Sys2Proof.Machine.execKilnDramPass d errors s
  | .tapReset => Sys2Proof.Machine.execTapReset s
  | .extest d => Sys2Proof.Machine.execExtest d s
  | .samplePreload d cells => Sys2Proof.Machine.execSamplePreload d cells s
  | .clamp d => Sys2Proof.Machine.execClamp d s
  | .highz d => Sys2Proof.Machine.execHighz d s
  | .bypass d code => Sys2Proof.Machine.execBypass d code s
  | .productionScan d code => Sys2Proof.Machine.execProductionScan d code s
  | .resetAssert lowNs taken => Sys2Proof.Machine.execResetAssert lowNs taken s
  | .vinDrop mv => Sys2Proof.Machine.execVinDrop mv s
  | .mgTransfer offset written n => Sys2Proof.Machine.execMgTransfer offset written n s
  | .mgSnapshotRefresh vinMv vinCa power => Sys2Proof.Machine.execMgSnapshotRefresh vinMv vinCa power s
  | .setdasa addr => Sys2Proof.Machine.execSetdasa addr s
  | .entdaa addr => Sys2Proof.Machine.execEntdaa addr s
  | .rstdaa => Sys2Proof.Machine.execRstdaa s
  | .getpid => Sys2Proof.Machine.execGetpid s
  | .getbcr => Sys2Proof.Machine.execGetbcr s
  | .getdcr => Sys2Proof.Machine.execGetdcr s
  | .getstatus => Sys2Proof.Machine.execGetstatus s
  | .vinEntersRange mv => Sys2Proof.Machine.execVinEntersRange mv s
  | .checkerLock d e lane bits => Sys2Proof.Machine.execCheckerLock d e lane bits s
  | .checkerLosesLock d e lane bits => Sys2Proof.Machine.execCheckerLosesLock d e lane bits s

end Sys2Proof.Machine
end

