-- ==== Sys2Proof/Machine/Tick.lean ====
section
/-! DEFINITION. What time does: the nanosecond that passes while no command waits (log 1). Device time and its slews (R371, R384,
R385), the orphan watchdogs (R123, R156), the starvation mark (R132), kiln's own work (R424, R432), and the parity errors
that come to on-die structures (R411). -/

namespace Sys2Proof.Machine

/-- One nanosecond of a die's device time: it stands while a backward step is made up (R372), and a slew adds or removes single
nanoseconds spread over its span (R371, R385). `keep` leaves a slew that has run out in place, as D0's is until SLEW_END. -/
def tickTime (keep : Bool) (t : TimeD) : TimeD :=
  if ¬ t.running then t
  else if 0 < t.standFor then { t with standFor := t.standFor - 1 }
  else
    match t.slew with
    | none => { t with dt := t.dt + 1 }
    | some w =>
      if w.left = 0 then { t with dt := t.dt + 1, slew := if keep then t.slew else none }
      else
        let a := w.acc + w.amount
        let hit := decide (w.span ≤ a)
        let w1 : Slew := { w with left := w.left - 1, acc := if hit then a - w.span else a }
        { t with dt := t.dt + (if hit then (if w.forward then 2 else 0) else 1), slew := if w1.left = 0 && !keep then none else some w1 }

/-- A block's watchdog counts while a barrier has arrivals and a group of the block is in the active set (R123, R156). -/
def tickBlock (k : Cores) (b : Nat) (x : Block) : Block :=
  if x.arrivals.isEmpty then x
  else if k.groups.any (fun e => e.2.block == b && e.2.active) then { x with watch := x.watch + 1 } else x

/-- One nanosecond of a die's cores and of its starvation mark. -/
def tickCores (s : State) (d : DieId) : State :=
  let k := getCores s d
  let st := starvedCond s d
  settleAuto (setCores (performOps s d) d
    { getCores (performOps s d) d with blocks := mmap (tickBlock k) k.blocks
                                       starvedSince := if st then some (k.starvedSince.getD s.now) else none
                                       starved := k.starved && st }) d

/-- The package after one nanosecond with no command. -/
def idle (s : State) : State :=
  let s1 := { s with now := s.now + 1, times := qmap (fun d t => tickTime (d == 0) t) s.times }
  if s.board.powerOk then allDies.foldl (fun t d => upsetTick (kilnTick (noteFull (tickCores t d) d) d) d) s1 else { s with now := s.now + 1 }

end Sys2Proof.Machine
end

