-- ==== Sys2Proof/Safety.lean ====
section
/-! DEFINITION. What a safe run is, and the terms in which the statements are made: a command that answers a next state with a
property, and a command that is absorbed. -/

namespace Sys2Proof

/-- A state from which `k` steps all answer a next state. -/
def Safe (k : Nat) (s : Machine.State) : Prop := ∃ t, core.run k s = .next t

/-- Command `c` answers, in state `s`, a next state with the property `P`. -/
def Answers (c : Instr) (s : Machine.State) (P : Machine.State → Prop) : Prop := ∃ t, Machine.exec c s = .next t ∧ P t

/-- Command `c` changes nothing in state `s`: the event it stands for does not happen there (log 8). -/
def Absorbed (c : Instr) (s : Machine.State) : Prop := Machine.exec c s = .next s

namespace Machine

/-- Addresses of a channel below the aperture that Tables 2.4, 2.5 and 2.16 assign to nothing. -/
def unassigned (d : DieId) (a : Nat) : Bool :=
  (decide (0x5000 ≤ a) && decide (a < 0x8000)) || (decide (d ≠ 0) && decide (0x80000 ≤ a) && decide (a < 0x100000))
    || (decide (0xF8000 ≤ a) && decide (a < 0x100000)) || (decide (0x800000 ≤ a) && decide (a < 0x40000000))

/-- What a read of memory may change (R289, R292): the memory side, poison that it finds, and the entries of what it finds. -/
def ReadOnly (s u : State) : Prop := u = { s with memu := u.memu, poison := u.poison, logs := u.logs }

/-- What a look-up for a unit of a die may change: what a read may, and the end at which a time-out is noted (R298, R364). -/
def Looked (s u : State) : Prop := u = { s with memu := u.memu, poison := u.poison, logs := u.logs, ends := u.ends }

/-- A write burst that reaches channel address `a` of die `d` in normal operation, at a set point that carries data. -/
def PortBurst (s : State) (d : DieId) (b : HostWrite) (a : Nat) : Prop :=
  cmdOk s d = true ∧ burstLegal b = true ∧ burstAddr s d b.bank b.col b.data.length = some a ∧ prbsMode s d = 0 ∧
    (getPort s d).trained = true ∧ setPointReady s d = true

/-- Such a burst with parity off. -/
def PortWrite (s : State) (d : DieId) (b : HostWrite) (a : Nat) : Prop := PortBurst s d b a ∧ parityOn s d = false

/-- CTL_HP_ERR of die `d` has flag `i` raised and its count in bits [hi:lo] one higher, saturating (R36, R38), and nothing else changed. -/
def HpCounted (s t : State) (d : DieId) (i hi lo : Nat) : Prop :=
  t = setPort s d { getPort s d with hpErr := (getPort t d).hpErr } ∧ bit (getPort t d).hpErr.val i = true ∧
    fld (getPort t d).hpErr.val hi lo = min (fld (getPort s d).hpErr.val hi lo + 1) (2 ^ (hi + 1 - lo) - 1)

/-- A write is ignored: WR_DISCARD of die `d` and its count, and nothing else (R36). -/
def Discarded (s t : State) (d : DieId) : Prop := HpCounted s t d 2 31 16

/-- A BL16 burst whose word `k` is `v` and whose other words are the all-ones of a no-write (R44). -/
def OneWord (b : HostWrite) (k : Nat) (v : W64) : Prop :=
  b.mask = [] ∧ b.data = rep (8 * k) 0xFF ++ natLe 8 v.toNat ++ rep (8 * (3 - k)) 0xFF

/-- Register block `blk` of die `d` is served: POWER_OK is high, and firmware runs or kindling serves the block (16). -/
def Served (s : State) (d : DieId) (blk : Nat) : Prop := s.board.powerOk = true ∧ slotServed s d blk = true

/-- A tenant command has ended with `status` in TEN_STATE and SEQ advanced (R57), with nothing changed but the tenants of the tables,
STATE_GEN and D0's result. -/
def TenantDone (s t : State) (status : Nat) : Prop :=
  (getHregs t 0).tenStatus = status ∧ (getHregs t 0).tenSeq = ((getHregs s 0).tenSeq + 1) % 65536 ∧
    (getTables t 0).contexts = (getTables s 0).contexts ∧ (getTables t 0).objects = (getTables s 0).objects ∧
    t = { setHregs s 0 (getHregs t 0) with tables := t.tables }

/-- A queue command of die `d` on queue `q` has ended with `status` in QCP_RESULT and SEQ advanced, with nothing changed but that queue
and the die's QCP registers. -/
def QueueDone (s t : State) (d : DieId) (q status : Nat) : Prop :=
  fld (getQregs t d).result 23 16 = status ∧ fld (getQregs t d).result 15 0 = (fld (getQregs s d).result 15 0 + 1) % 65536 ∧
    (∀ k, k ≠ q → queueOf t d k = queueOf s d k) ∧ t = setQregs (setQueues s d (getQueues t d)) d (getQregs t d)

/-- One operation fewer is out in the record `count` of a queue; a stopped one leaves PROGRAM_FAULT where no status stood (R73, R101). -/
def OpEnded (s t : State) (d : DieId) (q count : Nat) (stopped : Bool) : Prop :=
  ∀ r ∈ (queueOf s d q).runs, r.record.count = count →
    { r with opsOut := r.opsOut - 1, status := if stopped then some (r.status.getD 3) else r.status } ∈ (queueOf t d q).runs

/-- An operation has finished: its fence is on its way with the value, or it names none and its record has one fewer out (R101). -/
def OpDone (s t : State) (d : DieId) (q count : Nat) (fence : Bool) (pa : Nat) (v : W64) : Prop :=
  if fence then
    t.signals = mins s.signals s.nextId
      { src := d, frame := none, queue := q, count := count, va := 0, pa := pa, value := v, sentAt := s.now }
  else OpEnded s t d q count false ∧ t.signals = s.signals

/-- Submission `x` is at the head of engine `e` of die `d`, with `rest` after it, its context is not FAULTED, and its frame waits for the
engine with the count's register `rd`. -/
def AtHead (s : State) (d : DieId) (e : Nat) (x : Submission) (rest : List Submission) (rd : Nat) : Prop :=
  dieRuns s d = true ∧ (ctxOf s d (subCtx s d x)).state ≠ .faulted ∧ (engineOf s d e).fenced = false ∧ (engineOf s d e).subs = x :: rest ∧ (engineOf s d e).full = [] ∧ (getStk s d).engines.length = 13 ∧ e < 13 ∧
    (getStk s d).frames.length = 32 ∧ x.frame < 32 ∧ (frameOf' s d x.frame).park = .submitted e rd ∧ (frameOf' s d x.frame).walk = none ∧
    mwf 0 (frameOf' s d x.frame).regs = true

/-- The submission has been accepted (R100): the engine's count is one higher modulo 2^32 and stands in rd, the program is ready at its
next instruction, other frames and every byte of memory are as before. -/
def Accepted (s t : State) (d : DieId) (e : Nat) (x : Submission) (rest : List Submission) (rd : Nat) : Prop :=
  (engineOf t d e).count = ((engineOf s d e).count + 1) % 2 ^ 32 ∧ (engineOf t d e).subs = rest ∧ (frameOf' t d x.frame).park = .ready ∧
    (frameOf' t d x.frame).pc = (frameOf' s d x.frame).pc + 4 ∧
    (rd ≠ 0 → rvGet (frameOf' t d x.frame) rd = BitVec.ofNat 32 (engineOf t d e).count) ∧
    (∀ g, g ≠ x.frame → frameOf' t d g = frameOf' s d g) ∧ ∀ a, memByte t a = memByte s a

/-- The submission has been turned away (R100): the count stands, the program is over, every byte of memory is as before. -/
def Rejected (s t : State) (d : DieId) (e : Nat) (x : Submission) (rest : List Submission) : Prop :=
  (engineOf t d e).count = (engineOf s d e).count ∧ (engineOf t d e).subs = rest ∧ (frameOf' t d x.frame).park = .ended ∧
    ∀ a, memByte t a = memByte s a

/-- A command of GEN has ended with `status` in GEN_RESULT and SEQ advanced, no byte of memory changed (Table 10.6). -/
def GenDone (s t : State) (d : DieId) (status : Nat) : Prop :=
  fld (getGen t d).result 23 16 = status ∧ fld (getGen t d).result 15 0 = (fld (getGen s d).result 15 0 + 1) % 65536 ∧
    ∀ a, memByte t a = memByte s a

/-- A command of GEN fails with `status`: nothing but GEN_RESULT changes. -/
def GenFails (s t : State) (d : DieId) (status : Nat) : Prop :=
  GenDone s t d status ∧ t = setGen s d { getGen s d with result := (getGen t d).result }

/-- The word of a stoker command (Table 4.4): custom-0 or custom-1 by `minor`, with its fields at RISC-V's places. -/
def customWord (minor f3 f7 rd rs1 rs2 : Nat) : Nat :=
  (if minor = 0 then 0x0B else 0x2B) + rd * 2 ^ 7 + f3 * 2 ^ 12 + rs1 * 2 ^ 15 + rs2 * 2 ^ 20 + f7 * 2 ^ 25

/-- Frame `f` of die `d` issues, outside a graph walk, and fetches the four-byte instruction `w`, which leaves the state `u`. -/
def Issuing (s : State) (d : DieId) (f w : Nat) (u : State) : Prop :=
  issues s d f = true ∧ (frameOf' s d f).walk = none ∧ rvFetch s d f = (.ok (w, 4), u) ∧ (getStk u d).frames.length = 32

/-- The submission commands (Tables 4.4, 4.6): funct3, funct7 and engine of each. -/
def submitRows (d : DieId) (f : Fin 32) : List (Instr × Nat × Nat × Nat) :=
  [(.kBin d f, 4, 0, 0), (.kStep d f, 5, 0, 12)] ++ [1, 2, 3, 4, 9, 10, 11].map (fun n => (.kLaunch d f, 2, n, n))
    ++ [0, 1, 2, 3].map (fun n => (.kDma d f, 3, n, 5 + n))

/-- Group `r` issues the word `w`, with the extension word `e` after it where bit 13 asks for one, as the issue `i`; the fetch leaves
the state `u`. -/
def IssuesWord (s : State) (r : GRef) (w e : W64) (i : Issue) (u : State) : Prop :=
  issueOf s r = some i ∧ ∃ v, codeWord s i.d i.x.ctx i.pc = (.ok w, v) ∧
    ((bit w 13 = false ∧ u = v) ∨ (bit w 13 = true ∧ codeWord v i.d i.x.ctx (i.pc + 8) = (.ok e, u)))

/-- A word that passes the checks of R144 and R205 for its operands. -/
def Fits (i : Issue) (w : Wd) (use : Use) : Prop := wordLegal w use = true ∧ wordTop w use ≤ i.x.vregs

/-- Register files in their canonical form. -/
def Canonical (i : Issue) (u : State) : Prop := mwf 0 (getCores u i.d).vrf = true ∧ mwf 0 i.g.sregs = true

/-- Nothing but the cores of die `d` (and the model's counter of free values) differs between two states. -/
def CoresOnly (d : DieId) (u t : State) : Prop := t = { setCores u d (getCores t d) with freeCtr := t.freeCtr }

/-- What an instruction that goes on leaves: the cores of one die alone change, and there neither tile memory nor a near cache; other
groups only in their scheduling; of its own group the flags gain `fl`, a group of one path goes on at the next instruction, and `P`
holds of it. -/
def GroupStep (i : Issue) (w : Wd) (u t : State) (fl : Nat) (P : Group → Prop) : Prop :=
  CoresOnly i.d u t ∧ (getCores t i.d).tile = (getCores u i.d).tile ∧ (getCores t i.d).near = (getCores u i.d).near ∧
    (getCores t i.d).blocks = (getCores u i.d).blocks ∧ (getCores t i.d).dispatches = (getCores u i.d).dispatches ∧
    (∀ k g, k ≠ i.gid → groupOf u i.d k = some g → ∃ y, groupOf t i.d k = some y ∧
      { y with active := g.active, since := g.since, unable := g.unable } = g) ∧
    ∃ g, groupOf t i.d i.gid = some g ∧ g.flags = i.g.flags ||| fl ∧ g.exited = i.g.exited ∧
      (∀ m, i.g.paths = [.path i.pc m none none] → g.paths = [.path (i.pc + wdLen w) m none none]) ∧ P g

/-- A vector instruction's result: `f l` in register DST of each acting lane `l`, every other register and every predicate and exec
bit as before, and the lanes' flags raised (R173, R207). -/
def VectorResult (i : Issue) (w : Wd) (u t : State) (f : Nat → FRes) : Prop :=
  (∀ l ∈ actingLanes i w, mget 0 (getCores t i.d).vrf (vreg i w.dst l) = (f l).v) ∧
    (∀ k, (∀ l ∈ actingLanes i w, k ≠ vreg i w.dst l) → mget 0 (getCores t i.d).vrf k = mget 0 (getCores u i.d).vrf k) ∧
    GroupStep i w u t (joinFlags ((actingLanes i w).map f)) (fun g => g.sregs = i.g.sregs ∧ g.preds = i.g.preds ∧ g.exec = i.g.exec)

/-- An instruction that writes predicate DST: `f l` in each lane `l` of `ls`, p0 discarding (R206), nothing else but flags. -/
def PredicateResult (i : Issue) (w : Wd) (u t : State) (ls : List Nat) (f : Nat → Bool) (fl : Nat) : Prop :=
  (getCores t i.d).vrf = (getCores u i.d).vrf ∧
    GroupStep i w u t fl (fun g => g.sregs = i.g.sregs ∧ g.exec = i.g.exec ∧ lget 0 g.preds 0 = lget 0 i.g.preds 0 ∧
      (∀ q, q ≠ w.dst → lget 0 g.preds q = lget 0 i.g.preds q) ∧
      (w.dst ≠ 0 → w.dst < i.g.preds.length → (∀ l ∈ ls, (lget 0 g.preds w.dst).testBit l = f l) ∧
        ∀ l, l ∉ ls → (lget 0 g.preds w.dst).testBit l = (lget 0 i.g.preds w.dst).testBit l))

/-- An instruction that writes scalar registers: the words of `ws` from DST on, nothing else but flags. -/
def ScalarResult (i : Issue) (w : Wd) (u t : State) (ws : List W32) (fl : Nat) : Prop :=
  (getCores t i.d).vrf = (getCores u i.d).vrf ∧
    GroupStep i w u t fl (fun g => g.preds = i.g.preds ∧ g.exec = i.g.exec ∧
      (∀ k, k < ws.length → mget 0 g.sregs (w.dst + k) = lget 0 ws k) ∧
      ∀ r, (r < w.dst ∨ w.dst + ws.length ≤ r) → mget 0 g.sregs r = mget 0 i.g.sregs r)

/-- An instruction that issues an operation counted by `q` leaves it last there and goes on; registers, tile memory and memory are as
they were when the accesses had been translated (the state `u`). -/
def OpIssued (i : Issue) (w : Wd) (u t : State) (q : Group → List CountedOp) (P : CountedOp → Prop) : Prop :=
  t = { setCores u i.d (getCores t i.d) with freeCtr := t.freeCtr, nextId := u.nextId + 1 } ∧
    (getCores t i.d).vrf = (getCores u i.d).vrf ∧ (getCores t i.d).tile = (getCores u i.d).tile ∧
    ∃ g op, groupOf t i.d i.gid = some g ∧ q g = q i.g ++ [op] ∧ g.sregs = i.g.sregs ∧ g.preds = i.g.preds ∧ g.flags = i.g.flags ∧
      (∀ m, i.g.paths = [.path i.pc m none none] → g.paths = [.path (i.pc + wdLen w) m none none]) ∧ op.stale = [] ∧ P op

/-- The joined set of a state keeps R365: a die in it is awake, has passed its check, is neither held dark nor fenced, and its cords to
every other die in it are up. -/
def JoinedSound (t : State) : Prop :=
  ∀ n : DieId, n ≠ 0 → t.agree.joined.testBit n.val = true → awake t n = true ∧ t.agree.passed.testBit n.val = true ∧ isHeld t n = false ∧
    isFenced t n = false ∧ physUp t (cordIdx 0 n) = true ∧
    ∀ m : DieId, m ≠ n → t.agree.joined.testBit m.val = true → physUp t (cordIdx m n) = true

/-- Every rail of the package has gone down in `t`, which was `s`: nothing survives but the OTP, the board's side, the sensors' last
readings, the command queue and the model's own counters (R382, R389, R441). -/
def PowerLost (s t : State) : Prop :=
  t.board = { s.board with powerOk := false, released := false } ∧
    t = { State.reset with
      pending := s.pending, now := s.now, freeCtr := s.freeCtr + 1, nextId := s.nextId, board := t.board, otps := t.otps, lamps := t.lamps } ∧
    (∀ d, getLamp t d = { getLamp State.reset d with temps := (getLamp s d).temps }) ∧
    (∀ d, (getSec s d).burning = none → (getSec s d).raising = none → getOtp t d = getOtp s d) ∧
    ∀ d k b, (getSec s d).burning = some (k, b) → (getSec s d).raising = none →
      getOtp t d = { getOtp s d with spent := lset (getOtp s d).spent k true }

/-- The lists of a state that stand for a fixed number of things have that many items. -/
def Shape (s : State) : Prop :=
  s.cords.length = 6 ∧ s.lampPkg.masks.length = 4 ∧
    ∀ d, (getEnds s d).length = 3 ∧ (getStk s d).stokers.length = 8 ∧ (getStk s d).frames.length = 32 ∧ (getStk s d).engines.length = 13 ∧
      (getCores s d).slots.length = 48 ∧ (getDma s d).chans.length = 16 ∧ (getLamp s d).dom.length = 11 ∧ (getKiln s d).links.length = 3 ∧
      (getTables s d).tenants.length = 16 ∧ (getEas s d).layers.length = 8 ∧ (getOtp s d).slots.length = 4 ∧ (getOtp s d).spent.length = 4

/-- The sparse tables of a state outside device memory have the canonical form: keys strictly rising, no entry equal to what an unlisted
one reads as. -/
def Forms (s : State) : Prop :=
  ∀ d, mwf 0 (getStaging s d) = true ∧ mwf pieceFree (getPieces s d) = true ∧ mwf 0 (getBells s d) = true ∧ mwf 0 (getPort s d).rows = true ∧
    mwf 0 (getPort s d).mr = true ∧ mwf 0 (getHregs s d).aptBase = true ∧ mwf ctxFree (getTables s d).contexts = true ∧
    mwf queueFree (getQueues s d) = true ∧ mwf 0 (getDma s d).lines = true ∧ mwf 0 (getEas s d).crcs = true ∧
    ∀ f ∈ (getStk s d).frames, mwf 0 f.regs = true ∧ mwf 0 f.region = true

/-- The shader instructions: the constructors that carry an instruction word, in the table's order. -/
def isaRows : List (GRef → W64 → W64 → Instr) :=
  [.addF32, .subF32, .mulF32, .fmaF32, .minF32, .maxF32, .floorF32, .ceilF32, .truncF32, .setF32, .add, .sub, .mul, .mad, .mulhi,
   .minMaxInt, .and, .or, .xor, .not, .shl, .shr, .rotl, .popc, .clz, .bfeU32, .sel, .mov, .shfl, .rdlane, .setInt, .scalarAlu,
   .sadd64, .ssub64, .pand, .por, .pxor, .pnot, .ballot, .s2p, .rdexec, .wrexec, .cvt, .mxq, .mxdq, .rcp, .rsqrt, .sqrt, .exp2,
   .log2, .sin, .cos, .div, .ld, .st, .sld, .sst, .tld, .tst, .tatomInt, .tatomExch, .tatomCas, .tatomAddF32, .tex, .texld, .texst,
   .texq, .mma, .atomAdd, .atomAddF32, .atomMinMax, .atomLogic, .atomExch, .atomCas, .br, .call, .ret, .exit, .bar, .wait, .sleep,
   .invNear, .rdflags, .clrflags, .rdtime, .nop]

end Machine

end Sys2Proof
end

