-- ==== Sys2Proof/WellFormed.lean ====
section
/-! DEFINITION. Which operands a command may carry, where their types allow more than the spec does: burst lengths and columns
(R29, Table 2.1), training data, the layout of a cord transaction (Table 14.4) and of a flit (Table 14.2), and the index ranges
of operands that are plain numbers. -/

namespace Sys2Proof

/-- A write burst is BL16 or BL32 at an aligned column of a 2 KiB row segment, with no mask or one enable per byte, and
with DMI low or one DMI bit per byte. -/
def HostWrite.wf (b : HostWrite) : Bool :=
  (b.data.length == 32 || b.data.length == 64) && b.col % b.data.length == 0 && decide (b.col + b.data.length ≤ 2048)
    && (b.mask.isEmpty || b.mask.length == b.data.length) && (b.dmi.isEmpty || b.dmi.length == b.data.length)

/-- Bytes of a read burst. -/
def HostRead.len (b : HostRead) : Nat := if b.bl32 then 64 else 32

/-- A read burst is aligned within a 2 KiB row segment. -/
def HostRead.wf (b : HostRead) : Bool := b.col % b.len == 0 && decide (b.col + b.len ≤ 2048)

/-- A transaction's data fill its data slots (Table 14.4). -/
def CordHdr.wf (h : CordHdr) (data : List Byte) : Bool := decide (h.len.toNat ≤ 8) && data.length == 16 * h.len.toNat

/-- A flit has five credit fields and fifteen slots (Table 14.2). -/
def Flit.wf (f : Flit) : Bool := f.credit.length == 5 && f.payload.length == 15

/-- The operands of a command are in range. -/
def Instr.wf : Instr → Bool
  | .apertureWrite _ b => b.wf
  | .stagingWrite _ b => b.wf
  | .ignoredWrite _ b => b.wf
  | .doorbellWrite _ b => b.wf
  | .registerSlotWrite _ b => b.wf
  | .relayWrite b => b.wf
  | .hostReadBurst _ b => b.wf
  | .modeRegisterWrite _ mr _ => decide (mr < 128)
  | .modeRegisterRead _ mr => decide (mr < 128)
  | .writeTraining _ data => data.length == 32
  | .flitReceive _ _ f => f.wf
  | .rd _ _ h data => h.wf data
  | .wr _ _ h data => h.wf data
  | .wrp _ _ h data => h.wf data
  | .atom _ _ h data => h.wf data
  | .sig _ _ h data => h.wf data
  | .drw _ _ h data => h.wf data
  | .drwp _ _ h data => h.wf data
  | .srd _ _ h data => h.wf data
  | .swrp _ _ h data => h.wf data
  | .rdRsp _ _ h data => h.wf data
  | .wrAck _ _ h data => h.wf data
  | .atomRsp _ _ h data => h.wf data
  | .sigAck _ _ h data => h.wf data
  | .xlateFaultMerged _ _ page => decide (page < 2 ^ 39)
  | .sensorRead _ temps => temps.length == 11
  | .powerOkAssert rom => rom.length == 4
  | .cordTrain a b => decide (a < b)
  | .cordTrainDone a b _ => decide (a < b)
  | .resetAssert lowNs _ => decide (0 < lowNs)
  | .vinEntersRange mv => decide (1746 ≤ mv) && decide (mv ≤ 1854)
  | _ => true

end Sys2Proof
end

