-- ==== Sys2Proof/Certificates/Slice0/Obligations.lean ====
section
/-! DEFINITION. The statements made of the KX4: what each family of commands does and what it leaves, from the rules of spec/. -/

open Sys2Proof Sys2Proof.Machine

/-- A step runs the command at the front of the queue on the state with the queue's rest; on an empty queue a nanosecond passes. -/
def Obligations.StepRunsTheFrontCommand : Prop :=
  (∀ (c : Instr) (rest : List Instr) (s : State), s.pending = c :: rest →
    step s = exec c { s with pending := rest }) ∧
  (∀ s : State, s.pending = [] → ∃ t, step s = .next t ∧ t.now = s.now + 1 ∧ t.pending = [])

/-- No command stops the device: every command answers a next state in every state. A command neither adds to the queue of waiting commands
nor takes from it, and no time passes while it acts. -/
def Obligations.CommandsAnswerAndLeaveTheQueue : Prop :=
  (
    ∀ (c : Instr) (s : State), Answers c s fun _ => True) ∧
  (
    ∀ (c : Instr) (s t : State), exec c s = .next t → t.pending = s.pending ∧ t.now = s.now)

/-- Memory's canonical form is kept by every step, from every state: addresses strictly rising, no byte listed that equals what an
unlisted byte reads as; and so is the poison's. -/
def Obligations.EveryStepKeepsCanonicalMemory : Prop :=
  ∀ s t : State, Memory.wf s.mem → mwf false s.poison = true → step s = .next t →
    Memory.wf t.mem ∧ mwf false t.poison = true

/-- The state after reset has the canonical form and the shape of every state, and the registers named read in their mirrors the reset
values that the spec's register tables give. -/
def Obligations.ResetStateIsCanonicalAndReadsResetValues : Prop :=
  Memory.wf State.reset.mem ∧ mwf false State.reset.poison = true ∧ State.reset.pending = [] ∧ Shape State.reset ∧ Forms State.reset ∧
  ∀ d : DieId,
    mirrorReg State.reset d 0 0 = some 0 ∧ mirrorReg State.reset d 0 0x10 = some 0 ∧ mirrorReg State.reset d 1 0 = some 0 ∧
    mirrorReg State.reset d 2 8 = some 0 ∧ mirrorReg State.reset d 3 0 = some 0 ∧ mirrorReg State.reset d 3 0x10 = some 1 ∧
    mirrorReg State.reset d 4 0x10 = some 0 ∧ mirrorReg State.reset d 4 0x20 = some 0 ∧ mirrorReg State.reset d 5 0x10 = some 0 ∧
    mirrorReg State.reset d 5 0x20 = some 0 ∧ (∀ w, w < 32 → mirrorReg State.reset d 6 (8 * w) = some 0) ∧
    mirrorReg State.reset d 6 0x100 = some 0 ∧ mirrorReg State.reset d 7 0 = some 0x19 ∧ mirrorReg State.reset d 7 8 = some 0x4E4 ∧
    (∀ n, n < 4 → mirrorReg State.reset d 7 (0x10 + 8 * n) = some 0xFFF) ∧
    (∀ n, n < 4 → mirrorReg State.reset d 7 (0x58 + 8 * n) = some 0) ∧ mirrorReg State.reset d 8 8 = some 1 ∧
    mirrorReg State.reset d 8 0x10 = some 0xFE502B ∧ mirrorReg State.reset d 9 0 = some 0 ∧ mirrorReg State.reset d 9 8 = some 0 ∧
    mirrorReg State.reset d 10 0x18 = some 0x000F000000000000 ∧ mirrorReg State.reset d 11 8 = some 0 ∧
    mirrorReg State.reset d 12 0x18 = some 0 ∧ mirrorReg State.reset d 13 8 = some 0 ∧
    (∀ e, e < 3 → mirrorReg State.reset d 13 (0x28 + 8 * e) = some 0) ∧ mirrorReg State.reset d 14 0 = some 0x264 ∧
    mirrorReg State.reset d 14 0x68 = some 0 ∧ mirrorReg State.reset d 14 0x78 = some 0 ∧ mirrorReg State.reset d 15 0x10 = some 0 ∧
    (∀ k, k < 16 → mirrorReg State.reset d 16 (8 * k) = some 0) ∧ mirrorReg State.reset d 16 0x88 = some 0 ∧
    mirrorReg State.reset d 17 0x20 = some 0x12C ∧ mirrorReg State.reset d 17 0x28 = some 0 ∧ mirrorReg State.reset d 18 0 = some 0 ∧
    mirrorReg State.reset d 18 8 = some 0 ∧ mirrorReg State.reset d 18 0x10 = some 0

/-- R27, R28, R30, R49, Table 2.2: what a channel's reset, training steps, power-down, refresh and bank commands do, on that channel's port
only (and, for the reset, in the die's logbook). R31, Table 2.3: the identity mode registers and the vendor's constants read as the
spec lists them on every channel; registers 108 to 127 read as zero; a read changes nothing but what the channel drives. R30, R32, R33,
R430: writes of mode registers. A standard register holds what was written tMRD later (less the bits that enable what is not
supported, an attempt at which is flagged and counted in PROTO), in the copy of the set point that FSP-WR names where the standard keeps
two; the vendor's registers but VND_PARITY and VND_PRBS ignore writes; PAR_EN changes tMRD later and not before; VND_PRBS takes
its four codes and restarts the generators, and a reserved code changes nothing. -/
def Obligations.ChannelResetTrainingAndModeRegisters : Prop :=
  (
    ∀ (s : State) (ch : DieId),
      ((getPort s ch).resetN = true → Answers (.channelResetFall ch) s fun t =>
        t = setLog (setPort s ch (getPort t ch)) ch (getLog t ch) ∧ (getPort t ch).trained = false ∧ (getPort t ch).steps = 0 ∧
        (getPort t ch).rows = [] ∧ (getPort t ch).parErr = 0 ∧ (getPort t ch).drain = (getPort s ch).drain ∧
        (getPort t ch).held = (getPort s ch).held ∧ parityOn t ch = false ∧ prbsMode t ch = 0 ∧ cmdOk t ch = false ∧
        (s.board.powerOk = true → getLog t ch = getLog (logEntry s ch { code := 0x0102, kind := 0x01, detail := detV 0 0 }) ch)) ∧
      ((getPort s ch).resetN = false → Answers (.channelResetRelease ch) s fun t =>
        t = setPort s ch (getPort t ch) ∧ (getPort t ch).resetN = true ∧ (getPort t ch).releasedAt = s.now ∧
        (getPort t ch).trained = (getPort s ch).trained) ∧
      (cmdOk s ch = true →
        (∀ pattern, Answers (.commandBusTraining ch pattern) s fun t =>
          t = setPort s ch (getPort t ch) ∧ (getPort t ch).dq = natLe 2 pattern.toNat ∧ (getPort t ch).steps.testBit (4 * setPoint s ch) = true) ∧
        (∀ phase, Answers (.wck2ckLevelling ch phase) s fun t =>
          t = setPort s ch (getPort t ch) ∧ (getPort t ch).dq = [phase] ∧ (getPort t ch).steps.testBit (4 * setPoint s ch + 1) = true) ∧
        Answers (.readDqCalibration ch) s (fun t =>
          t = setPort s ch (getPort t ch) ∧ (getPort t ch).dq.length = 32 ∧ (getPort t ch).steps.testBit (4 * setPoint s ch + 2) = true) ∧
        (∀ data, data ≠ [] → Answers (.writeTraining ch data) s fun t =>
          t = setPort s ch (getPort t ch) ∧ (getPort t ch).dq = data ∧ (getPort t ch).fifo = data ∧
          (getPort t ch).steps.testBit (4 * setPoint s ch + 3) = true) ∧
        (∀ deep, Answers (.powerDownEntry ch deep) s fun t =>
          t = setPort s ch (getPort t ch) ∧ cmdOk t ch = false ∧ (getPort t ch).trained = (getPort s ch).trained ∧
          Answers (.powerDownExit ch) t fun u => cmdOk u ch = true ∧ u = setPort s ch (getPort u ch) ∧
            (getPort u ch).rows = (getPort s ch).rows)) ∧
      (∀ allBank, Answers (.refresh ch allBank) s fun t => t = s)) ∧
  (
    ∀ (s : State) (ch : DieId) (mr : Nat), cmdOk s ch = true → Answers (.modeRegisterRead ch mr) s fun t =>
      t = setPort s ch { getPort s ch with mrr := (getPort t ch).mrr } ∧
      (mr = 5 → (getPort t ch).mrr = 0xC5) ∧ (mr = 6 → (getPort t ch).mrr = 0xB1) ∧ (mr = 7 → (getPort t ch).mrr = 0x04) ∧
      (mr = 96 → (getPort t ch).mrr = 0x4B) ∧ (mr = 97 → (getPort t ch).mrr = 0xB1) ∧ (mr = 100 → (getPort t ch).mrr = 0x01) ∧
      (mr = 101 → (getPort t ch).mrr = 0x02) ∧
      (mr = 98 → (getPort t ch).mrr.toNat % 4 = ch.val ∧ (getPort t ch).mrr.toNat / 8 = 0) ∧
      (mr = 99 → (getPort t ch).mrr.toNat % 16 = (getSec s ch).stage % 16) ∧
      (mr = 107 → ∀ d : DieId, (getPort t ch).mrr.toNat.testBit d.val = (getPort s d).trained) ∧
      (108 ≤ mr → (getPort t ch).mrr = 0)) ∧
  (
    ∀ (s : State) (ch : DieId) (v : Byte), cmdOk s ch = true →
      (∀ mr, mr < 96 → ¬ (5 ≤ mr ∧ mr ≤ 8) → Answers (.modeRegisterWrite ch mr v) s fun t =>
        t = setPort s ch (getPort t ch) ∧ mrNow { t with now := s.now + Config.tMRD } ch (mrKey s ch mr) = mrKept mr v ∧
        (mrKept mr v = v → (getPort t ch).hpErr = (getPort s ch).hpErr) ∧
        (mrKept mr v ≠ v → bit (getPort t ch).hpErr.val 1 = true ∧
          fld (getPort t ch).hpErr.val 47 32 = min (fld (getPort s ch).hpErr.val 47 32 + 1) 0xFFFF)) ∧
      (∀ mr, 96 ≤ mr → mr ≠ 104 → mr ≠ 106 → Absorbed (.modeRegisterWrite ch mr v) s) ∧
      (∀ mr, 5 ≤ mr → mr ≤ 8 → Absorbed (.modeRegisterWrite ch mr v) s) ∧
      (Answers (.vndParityWrite ch v) s fun t =>
        t = setPort s ch (getPort t ch) ∧ parityOn { t with now := s.now + Config.tMRD } ch = v.toNat.testBit 0 ∧
        (0 < Config.tMRD → parityOn t ch = parityOn s ch)) ∧
      (v.toNat % 8 ≤ 4 → mwf 0 (getPort s ch).mr = true → Answers (.vndPrbsWrite ch v) s fun t =>
        t = setPort s ch (getPort t ch) ∧ prbsMode t ch = v.toNat % 8 ∧ (getPort t ch).prbsTx = 0 ∧ (getPort t ch).checkers = []) ∧
      (4 < v.toNat % 8 → Absorbed (.vndPrbsWrite ch v) s) ∧
      Machine.exec (.modeRegisterWrite ch 104 v) s = Machine.exec (.vndParityWrite ch v) s ∧
      Machine.exec (.modeRegisterWrite ch 106 v) s = Machine.exec (.vndPrbsWrite ch v) s)

/-- R28, R29: an activated row gives the channel address of a column command; a precharge closes the bank; a second activate of an
open bank is a protocol error, flagged and counted. -/
def Obligations.BankCommandsOpenAndClose : Prop :=
  ∀ (s : State) (ch : DieId) (bank : Fin 16) (row : BitVec 16) (col n : Nat),
    cmdOk s ch = true → 0 < n → col % n = 0 → col + n ≤ 2048 → mwf 0 (getPort s ch).rows = true →
    (mget 0 (getPort s ch).rows bank.val = 0 →
      burstAddr s ch bank col n = none ∧
      Answers (.bankCommand ch bank (.activate row)) s fun t =>
        t = setPort s ch (getPort t ch) ∧ burstAddr t ch bank col n = some (row.toNat * 32768 + bank.val * 2048 + col) ∧
        ∀ other : Fin 16, other ≠ bank → burstAddr t ch other col n = burstAddr s ch other col n) ∧
    (mget 0 (getPort s ch).rows bank.val ≠ 0 → Answers (.bankCommand ch bank (.activate row)) s fun t =>
      HpCounted s t ch 1 47 32) ∧
    (Answers (.bankCommand ch bank .precharge) s fun t =>
      t = setPort s ch (getPort t ch) ∧ burstAddr t ch bank col n = none ∧
      ∀ other : Fin 16, other ≠ bank → burstAddr t ch other col n = burstAddr s ch other col n) ∧
    (Answers (.bankCommand ch bank .prechargeAll) s fun t =>
      t = setPort s ch (getPort t ch) ∧ ∀ other, burstAddr t ch other col n = none)

/-- R34, R35 and Table 2.15: a read burst drives the words of the port store from its address on; addresses that nothing is assigned to
give all-ones on every byte, and so do reads of the aperture, which APT_STATUS counts; a completion slot gives its word, a doorbell the
word it holds, a staging piece its bytes and zeros while it clears; no read changes what stands in the port store but for the entries of
failing staging words (R411). R33, R34, R36: a write to an ignored or unassigned address changes nothing but WR_DISCARD and its count; a
burst whose parity fails, or masked while parity is on, is discarded whole, counted in VND_PARERR, flagged and logged; CTL_HP_ERR
clears what is written 1, but for what was raised in the same instant, and VND_PARERR with WPAR. A burst to a closed bank is a
protocol error. -/
def Obligations.ReadBurstsAndDiscardedWrites : Prop :=
  (
    ∀ (s : State) (ch : DieId) (b : HostRead), cmdOk s ch = true →
      (burstAddr s ch b.bank b.col b.len = none → Answers (.hostReadBurst ch b) s fun t => HpCounted s t ch 1 47 32) ∧
      (∀ a, burstAddr s ch b.bank b.col b.len = some a → prbsMode s ch = 0 →
        (((getPort s ch).trained = true ∧ setPointReady s ch = true) ∨ stepsDone s ch = true) →
        (0x40000000 ≤ a → Answers (.hostReadBurst ch b) s fun t =>
          (getPort t ch).dq = rep b.len 0xFF ∧ (getPort t ch).trained = true ∧
          fld (getHregs t ch).aptStatus 47 32 = min (fld (getHregs s ch).aptStatus 47 32 + 1) 0xFFFF ∧
          t = setHregs (setPort s ch (getPort t ch)) ch (getHregs t ch)) ∧
        (a < 0x40000000 → Answers (.hostReadBurst ch b) s fun t =>
          (getPort t ch).dq.length = b.len ∧ (getPort t ch).trained = true ∧
          t = useFree (setLog (setPort s ch (getPort t ch)) ch (getLog t ch)) ∧
          ((a < 0x100000 ∨ 0x800000 ≤ a) → getLog t ch = getLog s ch) ∧
          (unassigned ch a = true → (getPort t ch).dq = rep b.len 0xFF) ∧
          (∀ o, o % 8 = 0 → a ≤ o → o + 8 ≤ a + b.len → o < 0x800000 → ((getPort t ch).dq.drop (o - a)).take 8 = storeWord s ch o) ∧
          (∀ q, q < 4096 → storeWord s ch (0x10000 + 8 * q) = natLe 8 (queueOf s ch q).slot.toNat ∧
            storeWord s ch (0x8000 + 8 * q) = natLe 8 (mget 0 (getBells s ch) q).toNat) ∧
          (∀ o, 0x100000 ≤ o → o < 0x800000 → storeWord s ch o =
            if (pieceOf s ch ((o - 0x100000) / 65536)).clearing = none then stageRead s ch (o - 0x100000) 8 else rep 8 0)))) ∧
  (
    ∀ (s : State) (ch : DieId),
      (∀ b a, PortWrite s ch b a → regionOf ch a = .ignored → Answers (.ignoredWrite ch b) s fun t => Discarded s t ch) ∧
      (∀ b a, PortBurst s ch b a → parityOn s ch = true → (parityFails b = true ∨ b.mask ≠ []) →
        ∀ e ∈ [(Instr.stagingWrite ch b, Region.staging), (.doorbellWrite ch b, .bells), (.registerSlotWrite ch b, .slots),
            (.apertureWrite ch b, .aperture), (.ignoredWrite ch b, .ignored)], regionOf ch a = e.2 → Answers e.1 s fun t =>
          t = setLog (setPort s ch { getPort s ch with hpErr := (getPort t ch).hpErr, parErr := (getPort t ch).parErr }) ch (getLog t ch) ∧
          bit (getPort t ch).hpErr.val 0 = true ∧ (getPort t ch).parErr = min ((getPort s ch).parErr + 1) 255 ∧
          getLog t ch = getLog (logEntry s ch { code := 0x0101, kind := 0x01, detail := detA a 0 0 0 (getPort t ch).parErr }) ch) ∧
      (∀ b a, PortBurst s ch b a → parityOn s ch = true → parityFails b = false → b.mask = [] → regionOf ch a = .ignored →
        Answers (.ignoredWrite ch b) s fun t => Discarded s t ch) ∧
      (∀ v : W64, s.board.powerOk = true → v ≠ BitVec.allOnes 64 → Answers (.ctlHpErrWrite ch v) s fun t =>
        let r := (getPort s ch).hpErr
        let w := (getPort t ch).hpErr.val
        let fresh := errFresh r s.now
        t = setPort s ch { getPort s ch with hpErr := (getPort t ch).hpErr, parErr := (getPort t ch).parErr } ∧
        (∀ i, i < 16 → bit w i = if bit v i then bit fresh i else bit r.val i) ∧
        fld w 31 16 = (if bit v 2 then fld fresh 31 16 else fld r.val 31 16) ∧
        fld w 47 32 = (if bit v 1 then fld fresh 47 32 else fld r.val 47 32) ∧
        (getPort t ch).parErr = (if bit v 0 then 0 else (getPort s ch).parErr)))

/-- R45, R46, R47: a write to an aperture window goes wholly to the mapping in force when it arrives and waits in the drain; a write to a
window that is not valid, or to a die behind a dark cord, is dropped and counted; the drain writes its oldest entry that is not on its
way to memory, and only the bytes the burst enables; one for another die is put onto the drain class of the cord as a request and stays
in the drain until it is acknowledged. R44, R50 to R53: a write to a relay block of a die that is not frozen is put on its way to that
die in arrival order; to a frozen block it is discarded and counted unless it is a no-write; a forwarded slot word acts at its die as a
slot write there, a doorbell word as a doorbell; what finds the cord gone is counted by D0; D0's copy follows the die while its block is
not frozen, and a refresh ends the freeze. -/
def Obligations.ApertureWritesAndRelay : Prop :=
  (
    (∀ (s : State) (ch : DieId) (b : HostWrite) (a : Nat), PortWrite s ch b a → 0x40000000 ≤ a →
      let w := (a - 0x40000000) / 2 ^ 25
      let base := mget 0 (getHregs s ch).aptBase w
      let pa := fld base 39 25 * 2 ^ 25 + a % 2 ^ 25
      (bit base 0 = true → reach s ch (dieOf pa) = true → Answers (.apertureWrite ch b) s fun t =>
        t = setPort s ch { getPort s ch with drain := (getPort t ch).drain, drainNext := (getPort s ch).drainNext + 1 } ∧
        ∃ i, (getPort t ch).drain = (getPort s ch).drain ++ [i] ∧ i.pa = pa ∧ i.window = w ∧ i.base = base ∧ i.sent = false ∧
          i.serial = (getPort s ch).drainNext ∧
          ∀ x, x ∈ i.cells ↔ ∃ k, k < b.data.length ∧ (b.mask = [] ∨ lget false b.mask k = true) ∧ x = (pa + k, lget 0 b.data k)) ∧
      (bit base 0 = false → Answers (.apertureWrite ch b) s fun t =>
        fld (getHregs t ch).aptStatus 15 0 = min (fld (getHregs s ch).aptStatus 15 0 + 1) 0xFFFF ∧
        t = setLog (setPort (setHregs s ch (getHregs t ch)) ch (getPort t ch)) ch (getLog t ch) ∧
        (getPort t ch).drain = (getPort s ch).drain) ∧
      (bit base 0 = true → reach s ch (dieOf pa) = false → Answers (.apertureWrite ch b) s fun t =>
        fld (getHregs t ch).aptStatus 31 16 = min (fld (getHregs s ch).aptStatus 31 16 + 1) 0xFFFF ∧
        t = setLog (setPort (setHregs s ch (getHregs t ch)) ch (getPort t ch)) ch (getLog t ch) ∧
        (getPort t ch).drain = (getPort s ch).drain)) ∧
    (∀ (s : State) (d : DieId) (i : DrainItem), s.board.powerOk = true → (getPort s d).drain.find? (fun x => !x.sent) = some i →
      (∀ x, failedDrain s d = some x → Answers (.apertureDrain d) s fun t =>
        (getPort t d).drain = (getPort s d).drain.filter (fun y => !(y.serial == x.serial)) ∧
        fld (getHregs t d).aptStatus 31 16 = min (fld (getHregs s d).aptStatus 31 16 + 1) 0xFFFF ∧ ∀ a, memByte t a = memByte s a) ∧
      (failedDrain s d = none → dieOf i.pa = d → rowWaits s i.pa 64 = false → Answers (.apertureDrain d) s fun t =>
        (getPort t d).drain = (getPort s d).drain.filter (fun x => !(x.serial == i.serial)) ∧
        (∀ x, (∀ c ∈ i.cells, c.1 ≠ x) → memByte t x = memByte s x) ∧
        (Memory.wf s.mem → ∀ pa bytes, i.cells = cellsAt pa bytes → memRead t pa bytes.length = bytes) ∧
        t = { setPort s d { getPort s d with drain := (getPort t d).drain } with
              mem := t.mem, poison := t.poison, memu := t.memu, watches := t.watches }) ∧
      (failedDrain s d = none → dieOf i.pa ≠ d → i.cells ≠ [] → slotsTaken (endOf s d (endTo d (dieOf i.pa))) + (drainAsks i).length ≤ 1024 →
        (hop s d (dieOf i.pa) ≠ .dark → Answers (.apertureDrain d) s fun t =>
          (getPort t d).drain = (getPort s d).drain.map (fun x => if x.serial = i.serial then { x with sent := true } else x) ∧
          t = setPort ((drainAsks i).foldl (askDie d) s) d { getPort s d with drain := (getPort t d).drain } ∧
          (∀ x, memByte t x = memByte s x)) ∧
        (hop s d (dieOf i.pa) = .dark → Answers (.apertureDrain d) s fun t =>
          (getPort t d).drain = (getPort s d).drain.filter (fun x => !(x.serial == i.serial)) ∧
          fld (getHregs t d).aptStatus 31 16 = min (fld (getHregs s d).aptStatus 31 16 + 1) 0xFFFF ∧
          ∀ x, memByte t x = memByte s x)))) ∧
  (
    (∀ (s : State) (b : HostWrite) (a : Nat) (n : DieId) (off : Nat), PortWrite s 0 b a → regionOf 0 a = .relay n off →
      (s.frozen.testBit n.val = true → ¬ (b.mask = [] ∧ ∀ x ∈ b.data, x = 0xFF) → Answers (.relayWrite b) s fun t => Discarded s t 0) ∧
      (s.frozen.testBit n.val = true → b.mask = [] → (∀ x ∈ b.data, x = 0xFF) → Absorbed (.relayWrite b) s) ∧
      (s.frozen.testBit n.val = false → Answers (.relayWrite b) s fun t =>
        t = setForwards s n (getForwards t n) ∧
        getForwards t n = getForwards s n ++ ((burstWords off b).filter (fun w => w.2.2.any id)).map (fun w =>
          { off := w.1, value := le64 w.2.1, enable := w.2.2, after := (getPort s 0).drainNext }))) ∧
    (∀ (s : State) (d : DieId) (x : Forward) (rest : List Forward),
      s.board.powerOk = true → getForwards s d = x :: rest → cordWaits s 0 d = false →
      (∀ blk off, reach s 0 d = true → blk < 19 → off < 0x200 → x.off = 0x400 + 0x400 * blk + off → x.enable = rep 8 true →
        Answers (.relayForwardApply d) s fun t => t = applySlot (setForwards s d rest) d blk off x.value) ∧
      (∀ q, reach s 0 d = true → q < 4096 → x.off = 0x8000 + 8 * q → x.enable = rep 8 true →
        (∀ i ∈ (getPort s 0).drain, x.after ≤ i.serial) → fld x.value 63 32 = 0 →
        ((queueOf s d q).state = .running ∨ (queueOf s d q).state = .stopped) →
        (fld x.value 31 0 + 2 ^ 32 - (queueOf s d q).done) % 2 ^ 32 ≤ 2 ^ (queueOf s d q).log2 →
        mwf 0 (getBells s d) = true → mwf queueFree (getQueues s d) = true → Answers (.relayForwardApply d) s fun t =>
          mget 0 (getBells t d) q = x.value ∧ queueOf t d q = { queueOf s d q with tail := fld x.value 31 0 } ∧
          t = setQueues (setBells (setForwards s d rest) d (getBells t d)) d (getQueues t d)) ∧
      (reach s 0 d = false → regionOf d x.off ≠ .bells → Answers (.relayForwardApply d) s fun t =>
        (forwardNoWrite x = true → t = setForwards s d rest) ∧ (forwardNoWrite x = false → Discarded (setForwards s d rest) t 0))) ∧
    (∀ (s : State) (d : DieId), s.board.powerOk = true → d ≠ 0 → reach s 0 d = true →
      (s.frozen.testBit d.val = false → Answers (.relayCopyUpdate d) s fun t =>
        t = setRelay s d (copyOf s d) ∧ ∀ q, mwf queueFree (getQueues s d) = true →
          mget 0 (getRelay t d).slots q = (queueOf s d q).slot) ∧
      (s.frozen.testBit d.val = true → isFenced s d = false → Answers (.relayRefresh d) s fun t =>
        t = { setRelay s d (copyOf s d) with frozen := t.frozen } ∧ t.frozen.testBit d.val = false ∧
        ∀ e : DieId, e ≠ d → t.frozen.testBit e.val = s.frozen.testBit e.val)))

/-- R35, R62: a write to a staging piece that is not clearing puts the enabled bytes of the burst there and changes no other byte; to a
piece that clears it is discarded and counted. R62: TEN_STAGE naming another tenant clears the piece's bytes to zero and leaves every
other byte; while the clear runs the tag in the map is the old one, and with its end it is the new one. Naming the tag that is being
set, or the current one, changes nothing. -/
def Obligations.StagingWritesAndTags : Prop :=
  (
    ∀ (s : State) (ch : DieId) (b : HostWrite) (a : Nat), PortWrite s ch b a → regionOf ch a = .staging →
      ((pieceOf s ch ((a - 0x100000) / 65536)).clearing = none → mwf 0 (getStaging s ch) = true → Answers (.stagingWrite ch b) s fun t =>
        t = setStaging (setStagingBad s ch (getStagingBad t ch)) ch (getStaging t ch) ∧
        (∀ k, k < b.data.length → (b.mask = [] ∨ lget false b.mask k = true) →
          mget 0 (getStaging t ch) (a - 0x100000 + k) = lget 0 b.data k) ∧
        (∀ k, k < b.data.length → b.mask ≠ [] → lget false b.mask k = false →
          mget 0 (getStaging t ch) (a - 0x100000 + k) = mget 0 (getStaging s ch) (a - 0x100000 + k)) ∧
        ∀ x, (x < a - 0x100000 ∨ a - 0x100000 + b.data.length ≤ x) → mget 0 (getStaging t ch) x = mget 0 (getStaging s ch) x) ∧
      ((pieceOf s ch ((a - 0x100000) / 65536)).clearing ≠ none → Answers (.stagingWrite ch b) s fun t => Discarded s t ch)) ∧
  (
    ∀ (s : State) (d : DieId) (p : BitVec 7) (k : Fin 16),
      (Served s d 3 → p.toNat < 112 →
        (k.val ≠ (pieceOf s d p.toNat).clearing.getD (pieceOf s d p.toNat).tag → Answers (.tenStage d p k) s fun t =>
          pieceOf t d p.toNat = { pieceOf s d p.toNat with clearing := some k.val, sets := (pieceOf s d p.toNat).sets + 1 } ∧
          (∀ x, p.toNat * 65536 ≤ x → x < (p.toNat + 1) * 65536 → mget 0 (getStaging t d) x = 0) ∧
          (∀ x, (x < p.toNat * 65536 ∨ (p.toNat + 1) * 65536 ≤ x) → mget 0 (getStaging t d) x = mget 0 (getStaging s d) x) ∧
          (∀ q, q ≠ p.toNat → pieceOf t d q = pieceOf s d q) ∧
          t = setPieces (setStagingBad (setStaging s d (getStaging t d)) d (getStagingBad t d)) d (getPieces t d)) ∧
        (k.val = (pieceOf s d p.toNat).clearing.getD (pieceOf s d p.toNat).tag → Absorbed (.tenStage d p k) s)) ∧
      (∀ g, (pieceOf s d p.toNat).clearing = some g → mwf pieceFree (getPieces s d) = true → Answers (.stageClearDone d p) s fun t =>
        pieceOf t d p.toNat = { pieceOf s d p.toNat with tag := g, clearing := none } ∧ (∀ q, q ≠ p.toNat → pieceOf t d q = pieceOf s d q) ∧
        t = setPieces s d (getPieces t d)))

/-- R42, R44, R74: a doorbell write whose other words are all-ones, to a queue that is RUNNING or STOPPED and with a tail within the ring,
is shown at once and held until the aperture writes before it have drained; then, still within the ring, it becomes the queue's tail.
R43, R44, Table 2.6: a burst whose other words are all-ones applies its one word to its register slot, and changes what that slot's
write changes; an all-ones word is no write. A written CTL_VERSION and APT_BASEw read back in their status mirrors. -/
def Obligations.DoorbellAndRegisterSlotWrites : Prop :=
  (
    (∀ (s : State) (ch : DieId) (b : HostWrite) (k q : Nat) (v : W64),
      k < 4 → q < 4096 → q % 4 = k → PortWrite s ch b (0x8000 + 8 * (q - k)) → OneWord b k v → fld v 63 32 = 0 →
      ((queueOf s ch q).state = .running ∨ (queueOf s ch q).state = .stopped) →
      (fld v 31 0 + 2 ^ 32 - (queueOf s ch q).done) % 2 ^ 32 ≤ 2 ^ (queueOf s ch q).log2 → mwf 0 (getBells s ch) = true →
      Answers (.doorbellWrite ch b) s fun t =>
        t = setPort (setBells s ch (getBells t ch)) ch { getPort s ch with held := (getPort t ch).held } ∧
        mget 0 (getBells t ch) q = v ∧ (∀ r, r ≠ q → mget 0 (getBells t ch) r = mget 0 (getBells s ch) r) ∧
        ∃ h, (getPort t ch).held = (getPort s ch).held ++ [h] ∧ h.queue = q ∧ h.tail = fld v 31 0 ∧ h.after = (getPort s ch).drainNext) ∧
    (∀ (s : State) (d : DieId) (h : HeldBell) (rest : List HeldBell),
      s.board.powerOk = true → (getPort s d).held = h :: rest →
      ((∃ i ∈ (getPort s d).drain, i.serial < h.after) → Absorbed (.doorbellTakesEffect d) s) ∧
      ((∀ i ∈ (getPort s d).drain, h.after ≤ i.serial) →
        ((queueOf s d h.queue).state = .running ∨ (queueOf s d h.queue).state = .stopped) → (h.tail + 2 ^ 32 - (queueOf s d h.queue).done) % 2 ^ 32 ≤ 2 ^ (queueOf s d h.queue).log2 →
        Answers (.doorbellTakesEffect d) s fun t =>
          (getPort t d).held = rest ∧ queueOf t d h.queue = { queueOf s d h.queue with tail := h.tail } ∧
          t = setQueues (setPort s d { getPort s d with held := rest }) d (getQueues t d) ∧
          ∀ r, r ≠ h.queue → queueOf t d r = queueOf s d r))) ∧
  (
    ∀ (s : State) (ch : DieId),
      (∀ (b : HostWrite) (k blk off : Nat) (v : W64), k < 4 → blk < 19 → off < 0x200 → off % 32 = 8 * k →
        PortWrite s ch b (0x400 + 0x400 * blk + (off - off % 32)) → OneWord b k v →
        Answers (.registerSlotWrite ch b) s fun t => t = applySlot s ch blk off v ∧
          (v ≠ BitVec.allOnes 64 →
            (blk = 0 → off = 0 → 1 ≤ fld v 7 0 → fld v 7 0 ≤ 2 →
              mirrorReg t ch 0 0 = some (keepBits v 0xFF) ∧ t = setHregs s ch { getHregs s ch with version := keepBits v 0xFF }) ∧
            (blk = 6 → off < 0x100 → fld v 39 35 = 0 → mwf 0 (getHregs s ch).aptBase = true →
              mirrorReg t ch 6 off = some (keepBits v (maskOf 39 25 + maskOf 7 4 + 1)) ∧
              t = setHregs s ch { getHregs s ch with aptBase := (getHregs t ch).aptBase }) ∧
            ((blk = 0 ∧ off = 8) ∨ (blk = 6 ∧ 0x100 ≤ off) → t = countDiscard s ch))) ∧
      (∀ blk off, applySlot s ch blk off (BitVec.allOnes 64) = s) ∧
      (∀ a, writeBell s ch (a, rep 8 0xFF, rep 8 true) = s))

/-- R54, R58, R59: writes of the table base registers on D0. TEN_TABLE while tenants 1 to 15 are DISABLED (with VALID = 1 it rereads
tenant 0's record, with VALID = 0 tenant 0 has every quota at its maximum); CTX_TABLE and OBJ_TABLE while every context, every object
is FREE. Otherwise, and on D1 to D3, the write has no effect and is counted. -/
def Obligations.TableBaseWrites : Prop :=
  ∀ (s : State) (v : W64), (∀ d, Served s d 3 ∧ Served s d 4 ∧ Served s d 5) → v ≠ BitVec.allOnes 64 → baseBad v = false →
    (getTables s 0).tenants.length = 16 →
    ((∀ t ∈ (getTables s 0).tenants.tail, t.state = .disabled) →
      (bit v 0 = false → Answers (.tenTableWrite 0 v) s fun t =>
        mirrorReg t 0 3 0 = some (baseStored v) ∧ tenantOf t 0 0 = tenantMax ∧
        (∀ k, k ≠ 0 → tenantOf t 0 k = tenantOf s 0 k) ∧
        t = { setHregs s 0 { getHregs s 0 with tenTable := baseStored v } with tables := t.tables }) ∧
      (∀ x u, bit v 0 = true → readTenant s v 0 .enabled = (some x, u) → ReadOnly s u ∧ Answers (.tenTableWrite 0 v) s fun t =>
        mirrorReg t 0 3 0 = some (baseStored v) ∧ tenantOf t 0 0 = x ∧ (∀ k, k ≠ 0 → tenantOf t 0 k = tenantOf s 0 k) ∧
        t = { setHregs u 0 { getHregs s 0 with tenTable := baseStored v } with tables := t.tables }) ∧
      (∀ u, bit v 0 = true → readTenant s v 0 .enabled = (none, u) → Looked s u ∧ Answers (.tenTableWrite 0 v) s fun t => Discarded u t 0)) ∧
    ((∃ t ∈ (getTables s 0).tenants.tail, t.state ≠ .disabled) →
      Answers (.tenTableWrite 0 v) s fun t => Discarded s t 0) ∧
    (Answers (.ctxTableWrite 0 v) s fun t =>
      if ∃ e ∈ (getTables s 0).contexts, e.2.state ≠ .free then Discarded s t 0
      else t = setHregs s 0 { getHregs s 0 with ctxTable := baseStored v } ∧ ∀ d, mirrorReg t d 4 0 = some (baseStored v)) ∧
    (fld v 24 12 = 0 → Answers (.objTableWrite 0 v) s fun t =>
      if ∃ e ∈ (getTables s 0).objects, e.2.state ≠ .free then Discarded s t 0
      else t = setHregs s 0 { getHregs s 0 with objTable := baseStored v } ∧ ∀ d, mirrorReg t d 5 0 = some (baseStored v)) ∧
    (∀ d : DieId, d ≠ 0 → ∀ c ∈ [Instr.tenTableWrite d v, .ctxTableWrite d v, .objTableWrite d v],
      Answers c s fun t => Discarded s t d)

/-- R57, R59 to R61: ENABLE, UPDATE and DISABLE of a tenant on D0: what each requires, the status it reports, SEQ advanced by one, and the
record it puts into the tables of D0 and of every die in step; no other tenant, context or object changes. R61, R416: RESET of an
ENABLED tenant moves it to RESETTING and waits for the reports of D0 and of every joined die; the last report makes it ENABLED again. A
reset of tenant 0 or of a tenant that is not ENABLED fails with BAD_STATE and stops nothing. -/
def Obligations.TenantCommandsAndResets : Prop :=
  (
    ∀ (s : State) (k : Fin 16), Served s 0 3 → (getTables s 0).tenants.length = 16 →
      (k ≠ 0 → (tenantOf s 0 k.val).state = .disabled → bit (getHregs s 0).tenTable 0 = true →
        ∀ x u, readTenant s (getHregs s 0).tenTable k.val .enabled = (some x, u) → ReadOnly s u ∧ Answers (.tenantEnable 0 k) s fun t =>
          TenantDone u t 0 ∧ tenantOf t 0 k.val = x ∧ x.state = .enabled ∧ ∀ j, j ≠ k.val → tenantOf t 0 j = tenantOf s 0 j) ∧
      ((k = 0 ∨ (tenantOf s 0 k.val).state ≠ .disabled) → Answers (.tenantEnable 0 k) s fun t => t = tenResult s 1) ∧
      ((tenantOf s 0 k.val).state = .enabled → bit (getHregs s 0).tenTable 0 = true →
        ∀ x u, readTenant s (getHregs s 0).tenTable k.val .enabled = (some x, u) → ReadOnly s u ∧ Answers (.tenantUpdate 0 k) s fun t =>
          TenantDone u t 0 ∧ tenantOf t 0 k.val = x ∧ ∀ j, j ≠ k.val → tenantOf t 0 j = tenantOf s 0 j) ∧
      ((tenantOf s 0 k.val).state ≠ .enabled → Answers (.tenantUpdate 0 k) s fun t => t = tenResult s 1) ∧
      (k ≠ 0 → (tenantOf s 0 k.val).state = .enabled →
        (∀ e ∈ (getTables s 0).contexts, e.2.tenant = k.val → e.2.state = .free) → Answers (.tenantDisable 0 k) s fun t =>
          TenantDone s t 0 ∧ tenantOf t 0 k.val = { tenantOf s 0 k.val with state := .disabled } ∧
          ∀ j, j ≠ k.val → tenantOf t 0 j = tenantOf s 0 j) ∧
      ((k = 0 ∨ ∃ e ∈ (getTables s 0).contexts, e.2.tenant = k.val ∧ e.2.state ≠ .free) →
        Answers (.tenantDisable 0 k) s fun t => t = tenResult s 1)) ∧
  (
    (∀ (s : State) (k : Fin 16), Served s 0 3 → (getTables s 0).tenants.length = 16 →
      (k ≠ 0 → (tenantOf s 0 k.val).state = .enabled → Answers (.tenantReset 0 k) s fun t =>
        (tenantOf t 0 k.val).state = .resetting ∧ (getHregs t 0).tenStatus = 0 ∧
        ∃ r, mfind t.resets k.val = some r ∧ (0 : DieId) ∈ r.toReport ∧
          ∀ d : DieId, s.agree.joined.testBit d.val = true → d ∈ r.toReport) ∧
      ((k = 0 ∨ (tenantOf s 0 k.val).state ≠ .enabled) → Answers (.tenantReset 0 k) s fun t => t = tenResult s 1)) ∧
    (∀ (s : State) (d : DieId) (k : Fin 16) (r : TenReset), s.board.powerOk = true → mfind s.resets k.val = some r → d ∈ r.toReport →
      tenantQuietOn s d k.val = true →
      ((∃ e ∈ r.toReport, e ≠ d) → Answers (.tenantResetReport d k) s fun t =>
        (∃ u, mfind t.resets k.val = some u ∧ u.toReport = r.toReport.filter (fun e => e ≠ d)) ∧
        t = { s with resets := t.resets, tenRecords := t.tenRecords, logs := t.logs }) ∧
      ((∀ e ∈ r.toReport, e = d) → (getTables s 0).tenants.length = 16 → Answers (.tenantResetReport d k) s fun t =>
        (tenantOf t 0 k.val).state = .enabled ∧
        t = { s with resets := mdel s.resets k.val, tenRecords := t.tenRecords, logs := t.logs, tables := t.tables })))

/-- R57, R65 to R67: the context commands. CREATE puts the descriptor's context into the tables as LIVE; DESTROY of a context all of whose
queues are FREE moves it to DESTROYING, discards its slots and drops its translations on every die, with no byte of memory written outside
its descriptor's DEVICE area; it becomes FREE, with its pins released, once it holds no slot; CLEAR_FAULT
returns it to LIVE; QUERY changes nothing but CTX_RESULT. Each reports in CTX_RESULT, or fails with BAD_STATE. R57, R68, R69, R300: the
object commands. CREATE makes the entry's object VALID; FREE makes an object without pins FREE with the next generation and one with
pins ZOMBIE, and no die keeps a translation that names it; a handle of another generation is STALE; the writeback stores STATE and GEN
in bytes 0x00 and 0x02 to 0x03 of the entry and no other byte of memory. -/
def Obligations.ContextAndObjectCommands : Prop :=
  (
    ∀ (s : State) (c : W16), Served s 0 4 →
      (∀ x u, (ctxOf s 0 c.toNat).state = .free → readCtx s c.toNat = (some x, u) → (tenantOf s 0 x.tenant).state = .enabled →
        tenantContexts s x.tenant < (tenantOf s 0 x.tenant).maxContexts → x.prio ≤ (tenantOf s 0 x.tenant).prioCeil →
        ReadOnly s u ∧ Answers (.contextCreate 0 c) s fun t =>
          (∀ d : DieId, inStep s d = true → ctxOf t d c.toNat = x) ∧ x.state = .live ∧ fld (getHregs t 0).ctxResult 23 16 = 0 ∧
          (∀ b, b ≠ c.toNat → ctxOf t 0 b = ctxOf s 0 b) ∧
          t = { setHregs u 0 { getHregs s 0 with ctxResult := (getHregs t 0).ctxResult } with tables := t.tables }) ∧
      ((ctxOf s 0 c.toNat).state ≠ .free → Answers (.contextCreate 0 c) s fun t =>
        t = ctxDone s c.toNat 1 ∧ fld (getHregs t 0).ctxResult 23 16 = 1) ∧
      (((ctxOf s 0 c.toNat).state = .live ∨ (ctxOf s 0 c.toNat).state = .faulted) → queuesFree s c.toNat = true →
        (tenantOf s 0 (ctxOf s 0 c.toNat).tenant).state ≠ .resetting → Answers (.contextDestroy 0 c) s fun t =>
          ctxOf t 0 c.toNat = { ctxOf s 0 c.toNat with state := .destroying } ∧
          (∀ d, ∀ e ∈ (getMemu t d).xlate, e.ctx ≠ c.toNat) ∧ (∀ b, b ≠ c.toNat → ctxOf t 0 b = ctxOf s 0 b) ∧ t.queues = s.queues ∧
          ∀ x, (x < (ctxOf s 0 c.toNat).desc + 0x40 ∨ (ctxOf s 0 c.toNat).desc + 0x100 ≤ x) → memByte t x = memByte s x) ∧
      (queuesFree s c.toNat = false → Answers (.contextDestroy 0 c) s fun t => t = ctxDone s c.toNat 1) ∧
      ((ctxOf s 0 c.toNat).state = .destroying → (∀ d, holdsSlot s d c.toNat = false) → mwf ctxFree (getTables s 0).contexts = true →
        Answers (.contextDestroyDone c) s fun t => ctxOf t 0 c.toNat = ctxFree ∧ (∀ b, b ≠ c.toNat → ctxOf t 0 b = ctxOf s 0 b) ∧
          (∀ d, (∀ e ∈ (getGen t d).models, e.2.ctx = c.toNat → e.2.pins = []) ∧ (∀ e ∈ (getGen t d).seqs, e.2.ctx = c.toNat → e.2.pins = []) ∧
            ∀ l ∈ (getEas t d).layers, l.ctx = c.toNat → l.pins = []) ∧
          t = { s with tables := t.tables, gen := t.gen, eas := t.eas, pins := t.pins }) ∧
      (Answers (.contextQuery 0 c) s fun t => t = setHregs s 0 { getHregs s 0 with ctxResult := (getHregs t 0).ctxResult } ∧
        fld (getHregs t 0).ctxResult 23 16 = 0 ∧ fld (getHregs t 0).ctxResult 39 24 = c.toNat ∧
        fld (getHregs t 0).ctxResult 15 0 = (fld (getHregs s 0).ctxResult 15 0 + 1) % 65536) ∧
      ((ctxOf s 0 c.toNat).state = .faulted → (tenantOf s 0 (ctxOf s 0 c.toNat).tenant).state ≠ .resetting →
        Answers (.clearFault 0 c) s fun t => ctxOf t 0 c.toNat = { ctxOf s 0 c.toNat with state := .live } ∧
          (∀ b, b ≠ c.toNat → ctxOf t 0 b = ctxOf s 0 b) ∧ t.queues = s.queues ∧ (∀ x, memByte t x = memByte s x)) ∧
      ((ctxOf s 0 c.toNat).state ≠ .faulted → Answers (.clearFault 0 c) s fun t => t = ctxDone s c.toNat 1)) ∧
  (
    ∀ (s : State) (h : W32), let i := h.toNat % 2 ^ 20
      (Served s 0 5 →
        (∀ b x u, h.toNat / 2 ^ 20 = (objOf s 0 i).gen → (objOf s 0 i).state = .free → i ≠ 0 → bit (getHregs s 0).objTable 0 = true →
          readFor s 0 (fld (getHregs s 0).objTable 39 12 * 4096 + 32 * i) 32 = (some b, u) → objRecord b (objOf s 0 i).gen = some x →
          (tenantOf s 0 x.tenant).state = .enabled → (tenantObjs s x.tenant).length < (tenantOf s 0 x.tenant).maxObjects →
          ((tenantObjs s x.tenant).map quotaPages).sum + quotaPages x ≤ (tenantOf s 0 x.tenant).maxPages →
          ReadOnly s u ∧ Answers (.objectCreate 0 h) s fun t => objOf t 0 i = x ∧ x.state = .valid ∧ x.gen = (objOf s 0 i).gen ∧
            fld (getHregs t 0).objResult 23 16 = 0 ∧ (∀ j, j ≠ i → objOf t 0 j = objOf s 0 j) ∧
            t = { setHregs u 0 { getHregs s 0 with objResult := (getHregs t 0).objResult } with tables := t.tables }) ∧
        (h.toNat / 2 ^ 20 = (objOf s 0 i).gen → (objOf s 0 i).state = .valid →
          (tenantOf s 0 (objOf s 0 i).tenant).state ≠ .resetting → Answers (.objectFree 0 h) s fun t =>
            (packagePins s i = 0 → (objOf t 0 i).state = .free ∧ (objOf t 0 i).gen = ((objOf s 0 i).gen + 1) % 4096) ∧
            (packagePins s i ≠ 0 → (objOf t 0 i).state = .zombie ∧ (objOf t 0 i).gen = (objOf s 0 i).gen) ∧
            (∀ d, ∀ e ∈ (getMemu t d).xlate, e.handle % 2 ^ 20 ≠ i) ∧ (∀ j, j ≠ i → objOf t 0 j = objOf s 0 j) ∧
            t = { setHregs s 0 (getHregs t 0) with tables := t.tables, memu := t.memu }) ∧
        (h.toNat / 2 ^ 20 ≠ (objOf s 0 i).gen → ∀ c ∈ [Instr.objectCreate 0 h, .objectFree 0 h, .objectQuery 0 h],
          Answers c s fun t => t = setHregs s 0 (getHregs t 0) ∧ fld (getHregs t 0).objResult 23 16 = 4) ∧
        (h.toNat / 2 ^ 20 = (objOf s 0 i).gen → Answers (.objectQuery 0 h) s fun t =>
          t = setHregs s 0 { getHregs s 0 with objResult := (getHregs t 0).objResult } ∧ fld (getHregs t 0).objResult 23 16 = 0 ∧
          fld (getHregs t 0).objResult 55 32 = min (packagePins s i) (2 ^ 24 - 1))) ∧
      (∀ index : BitVec 20, let pa := fld (getHregs s 0).objTable 39 12 * 4096 + 32 * index.toNat
        (objOf s 0 index.toNat).dirty = true → bit (getHregs s 0).objTable 0 = true → reach s 0 (dieOf pa) = true →
        Memory.wf s.mem → Answers (.objectEntryWriteback index) s fun t =>
          memByte t pa = (match (objOf s 0 index.toNat).state with | .free => 0 | .valid => 1 | .zombie => 2) ∧
          memRead t (pa + 2) 2 = natLe 2 (objOf s 0 index.toNat).gen ∧
          (∀ x, x ≠ pa → x ≠ pa + 2 → x ≠ pa + 3 → memByte t x = memByte s x) ∧
          t = { s with mem := t.mem, poison := t.poison, memu := t.memu, watches := t.watches, tables := t.tables }))

/-- R72, R76 to R78: the queue commands. CREATE that passes its checks makes the queue RUNNING with an empty completion slot; DESTROY
leaves it FREE, or DRAINING while records run; RESUME of a STOPPED queue makes it RUNNING with its latest tail; QUERY changes only the
result registers. Other queues, and memory, are unchanged. -/
def Obligations.QueueCommands : Prop :=
  ∀ (s : State) (d : DieId) (q : BitVec 12), Served s d 2 →
    (∀ (engine : BitVec 4) (header : BitVec 28) (b : List Byte) (c lg : Nat) (wd : Option Nat) (pa : Nat) (u : State), engine.toNat ≤ 12 →
      (queueOf s d q.toNat).state = .free → (engineOf s d engine.toNat).fenced = false →
      readFor s d (header.toNat * 4096) 64 = (some b, u) → ringHeader b = some (c, lg, wd, pa) → (ctxOf s d c).state = .live →
      (ctxOf s d c).dieMask.testBit d.val = true → (tenantOf s d (ctxOf s d c).tenant).state = .enabled →
      tenantQueues s d (ctxOf s d c).tenant < (tenantOf s d (ctxOf s d c).tenant).maxQueues →
      ReadOnly s u ∧ Answers (.queueCreate d q engine header) s fun t =>
        (queueOf t d q.toNat).state = .running ∧ (queueOf t d q.toNat).engine = engine.toNat ∧ (queueOf t d q.toNat).ctx = c ∧
        (queueOf t d q.toNat).ring = pa ∧ (queueOf t d q.toNat).log2 = lg ∧ (queueOf t d q.toNat).head = 0 ∧
        (queueOf t d q.toNat).done = 0 ∧ (queueOf t d q.toNat).slot = 0 ∧ QueueDone u t d q.toNat 0) ∧
    ((queueOf s d q.toNat).state ≠ .free → ∀ (engine : BitVec 4) (header : BitVec 28), engine.toNat ≤ 12 →
      Answers (.queueCreate d q engine header) s fun t => t = qcpDone s d q.toNat 1) ∧
    (((queueOf s d q.toNat).state = .running ∨ (queueOf s d q.toNat).state = .stopped) → queueResetting s d q.toNat = false →
      mwf queueFree (getQueues s d) = true → Answers (.queueDestroy d q) s fun t =>
        (queueOf t d q.toNat).state = (if (queueOf s d q.toNat).runs = [] then .free else .draining) ∧
        (queueOf t d q.toNat).fetched = [] ∧ (queueOf t d q.toNat).runs = (queueOf s d q.toNat).runs ∧
        (queueOf t d q.toNat).slot = (queueOf s d q.toNat).slot ∧ QueueDone s t d q.toNat 0) ∧
    (((queueOf s d q.toNat).state = .free ∨ (queueOf s d q.toNat).state = .draining) → Answers (.queueDestroy d q) s fun t =>
      t = qcpDone s d q.toNat 1) ∧
    ((queueOf s d q.toNat).state = .stopped → (engineOf s d (queueOf s d q.toNat).engine).fenced = false →
      queueResetting s d q.toNat = false → Answers (.queueResume d q) s fun t =>
        queueOf t d q.toNat = { queueOf s d q.toNat with state := .running } ∧ QueueDone s t d q.toNat 0) ∧
    ((queueOf s d q.toNat).state ≠ .stopped → Answers (.queueResume d q) s fun t => t = qcpDone s d q.toNat 1) ∧
    (Answers (.queueQuery d q) s fun t => QueueDone s t d q.toNat 0 ∧ t.queues = s.queues ∧
      fld (getQregs t d).result 35 24 = q.toNat ∧ fld (getQregs t d).stats 31 0 = (queueOf s d q.toNat).low % 2 ^ 32)

/-- R72, R75, R86 to R88, R106: a record is fetched from the ring at HEAD; the record offered is handed to the frame of R86, whose
registers are those of Table 4.1; with its program ended and no operation out it is posted when its turn comes, and its frame is free.
R85, R89, R90: the contact sheet is rewritten after a change, its generation even again; a stoker's slice ends and the frame that
issued rejoins last; frames that are all parked while records wait make one entry at the start and one at each full millisecond. -/
def Obligations.RecordsSlicesAndTheSheet : Prop :=
  (
    (∀ (s : State) (d : DieId) (q : BitVec 12) (p : Nat × Nat) (u : State), let x := queueOf s d q.toNat
      let pa := x.ring + 32 * (x.head % 2 ^ x.log2)
      let z := noteRead s pa 32
      let r := recordOf (memRead s pa 32) x.head (poisonIn z pa 32)
      dieRuns s d = true → x.state = .running → ageOf x x.head < ageOf x x.tail → (ctxOf s d x.ctx).state = .live → reach s d (dieOf pa) = true →
      rowWaits s pa 32 = false → (engineOf s d x.engine).fenced = false → tenantQuiet s (ctxOf s d x.ctx).tenant = false → r.ended = none →
      translate z d x.ctx r.program.toNat {} = (.ok p, u) → ReadOnly s u ∧ Answers (.recordFetch d q) s fun t =>
        (queueOf t d q.toNat).fetched = x.fetched ++ [r] ∧ (queueOf t d q.toNat).head = (x.head + 1) % 2 ^ 32 ∧ r.count = x.head ∧
        (queueOf t d q.toNat).done = x.done ∧ (∀ k, k ≠ q.toNat → queueOf t d k = queueOf s d k) ∧
        t = setQueues u d (getQueues t d)) ∧
    (∀ (s : State) (d : DieId) (q f : Nat) (r : Rec) (rest : List Rec), dieRuns s d = true → (getStk s d).frames.length = 32 →
      (((countUp ((getStk s d).lastEngine + 1) 13).map (fun e => e % 13)).flatMap (fun e =>
        (offers s d e).filter (frameQuota s d))).head? = some q → pickFrame s d (stokerOpen s d) = some f →
      (queueOf s d q).fetched = r :: rest → Answers (.recordHandout d) s fun t => let y := frameOf' t d f
        y.busy = true ∧ y.queue = q ∧ y.count = r.count ∧ y.ctx = (queueOf s d q).ctx ∧ y.park = .ready ∧ y.region = [] ∧ y.icache = [] ∧
        mget 0 y.regs 2 = 0x3000 ∧ mget 0 y.regs 10 = BitVec.ofNat 32 (fld r.arg0 31 0) ∧
        mget 0 y.regs 11 = BitVec.ofNat 32 (fld r.arg0 63 32) ∧ mget 0 y.regs 12 = BitVec.ofNat 32 (fld r.arg1 31 0) ∧
        mget 0 y.regs 13 = BitVec.ofNat 32 (fld r.arg1 63 32) ∧ y.pc = BitVec.ofNat 32 (0x40000000 + fld r.program 29 0) ∧
        (queueOf t d q).fetched = rest ∧ (∃ run, (queueOf t d q).runs = (queueOf s d q).runs ++ [run] ∧ run.record = r ∧ run.frame = f) ∧
        (∀ g, g ≠ f → frameOf' t d g = frameOf' s d g) ∧ t = setQueues (setStk s d (getStk t d)) d (getQueues t d)) ∧
    (∀ (s : State) (d : DieId) (q : BitVec 12) (count : W32) (r : RunRec), runOf (queueOf s d q.toNat) count.toNat = some r →
      r.opsOut = 0 → (frameOf' s d r.frame).park = .ended → r.frame < (getStk s d).frames.length →
      (∀ x ∈ (getGen s d).steps, ¬ (x.queue = q.toNat ∧ x.count = count.toNat)) →
      (queueOf s d q.toNat).ended = [] → (queueOf s d q.toNat).done = count.toNat → runStatus r = 0 →
      ((queueOf s d q.toNat).state = .running ∨ (queueOf s d q.toNat).state = .stopped) →
      Answers (.recordRetire d q count) s fun t =>
        frameOf' t d r.frame = frameFree r.frame ∧ (queueOf t d q.toNat).done = (count.toNat + 1) % 2 ^ 32 ∧
        (queueOf t d q.toNat).slot = packFields [((count.toNat + 1) % 2 ^ 32, 0), (0, 32), (r.record.tag, 48)] ∧
        (queueOf t d q.toNat).state = (queueOf s d q.toNat).state ∧ (∀ k, k ≠ q.toNat → queueOf t d k = queueOf s d k) ∧
        (∀ a, memByte t a = memByte s a))) ∧
  (
    ∀ (s : State) (d : DieId),
      (s.board.powerOk = true → (getSec s d).started = true → (getSheet s d).bytes ≠ sheetBytes s d →
        Answers (.contactSheetRewrite d) s fun t => (getSheet t d).bytes = sheetBytes t d ∧
          (getSheet t d).gen = (getSheet s d).gen + 2 ∧ t = setSheet s d (getSheet t d)) ∧
      (∀ st : Fin 8, let k := stokerOf s d st.val
        k.sliceAt + 7448 ≤ dtime s d → k.cur < 4 → (getStk s d).stokers.length = 8 →
        Answers (.sliceEnd d st) s fun t => (stokerOf t d st.val).order = k.order.filter (fun x => !(x == k.cur)) ++ [k.cur] ∧
          (stokerOf t d st.val).sliceAt = dtime s d ∧ t = setStk s d (getStk t d) ∧ (getStk t d).frames = (getStk s d).frames) ∧
      ((∀ f ∈ (getStk s d).frames, f.busy = true ∧ f.park ≠ .ready) → (∃ e ∈ getQueues s d, e.2.fetched ≠ []) →
        let entry : LogInfo := { code := 0x0202, kind := 0x0D, detail := detV (recordsWaiting s d) 0 }
        ((getStk s d).fullSince = none → Answers (.framesFull d) s fun t =>
          (getStk t d).fullSince = some (dtime s d) ∧ t = setLog (setStk s d (getStk t d)) d (getLog t d) ∧
          getLog t d = getLog (logEntry s d entry) d ∧ Absorbed (.framesFull d) t) ∧
        (∀ t0, (getStk s d).fullSince = some t0 →
          (t0 + (getStk s d).fullLogged * 1000000 ≤ dtime s d → Answers (.framesFull d) s fun t =>
            (getStk t d).fullLogged = (dtime s d - t0) / 1000000 + 1 ∧ (getStk t d).fullSince = some t0 ∧
            t = setLog (setStk s d (getStk t d)) d (getLog (logEntry s d entry) d)) ∧
          (dtime s d < t0 + (getStk s d).fullLogged * 1000000 → t0 ≤ dtime s d → Absorbed (.framesFull d) s))) ∧
      (framesFull s d = false → Answers (.framesFull d) s fun t =>
        t = setStk s d { getStk s d with fullSince := none, fullLogged := 0 }))

/-- R80, R81, R83, R97, R101: a signal replaces the fence's value where the signed difference is above zero, leaves it where it is zero, and
leaves it and counts in LOW_SIGNALS where it is negative; no other byte of memory changes, and every wait that the new value satisfies is
satisfied by it. A signal to another die goes over the cord, or is not applied where the cord is not up. A wait whose signed difference is
zero or more, now or at a change since it began, resumes its frame with the value that satisfied it; a wait that has lasted the queue's
watchdog is recorded once and goes on. -/
def Obligations.FencesSignalsAndWaits : Prop :=
  (∀ (s : State) (id : Nat) (x : Signal), mfind s.signals id = some x →
    (dieOf x.pa = x.src → rowWaits s x.pa 8 = false → poisonAt (noteRead { s with signals := mdel s.signals id } x.pa 8) x.pa = false →
      Memory.wf s.mem → Answers (.fenceSignal id) s fun t =>
      (0 < (x.value - memWord s x.pa).toInt → memWord t x.pa = x.value ∧
        ∀ k w, mfind s.watches k = some w → w.pa = x.pa → w.met = none → reach s w.die (dieOf x.pa) = true → 0 ≤ (x.value - w.thr).toInt →
          mfind t.watches k = some { w with met := some x.value }) ∧
      ((x.value - memWord s x.pa).toInt ≤ 0 → memWord t x.pa = memWord s x.pa ∧ t.watches = s.watches) ∧
      ((x.value - memWord s x.pa).toInt < 0 → x.frame = none →
        (queueOf t x.src x.queue).low = min ((queueOf s x.src x.queue).low + 1) (2 ^ 32 - 1)) ∧
      (∀ a, (a < x.pa ∨ x.pa + 8 ≤ a) → memByte t a = memByte s a) ∧ t.signals = mdel s.signals id) ∧
    (dieOf x.pa ≠ x.src → hop s x.src (dieOf x.pa) ≠ .dark → answerOf s x.src (dieOf x.pa) (.signal id) ≠ none → x.frame = none →
      Answers (.fenceSignal id) s fun t => OpEnded s t x.src x.queue x.count true ∧ t.signals = mdel s.signals id ∧ t.mem = s.mem) ∧
    (dieOf x.pa ≠ x.src → hop s x.src (dieOf x.pa) ≠ .dark → answerOf s x.src (dieOf x.pa) (.signal id) = none →
      Answers (.fenceSignal id) s fun t =>
      t = askDie x.src s (signalAsk id x) ∧ t.mem = s.mem ∧ t.signals = s.signals) ∧
    (hop s x.src (dieOf x.pa) = .dark → x.frame = none → Answers (.fenceSignal id) s fun t =>
      OpEnded s t x.src x.queue x.count true ∧ t = { setQueues s x.src (getQueues t x.src) with signals := mdel s.signals id })) ∧
  (∀ (s : State) (d : DieId) (f : Fin 32) (pa : Nat) (va thr : W64) (rd since : Nat) (logged : Bool),
    let x := frameOf' s d f.val
    let key := watchKey d x.queue x.count
    let resumed (t : State) (v : W64) : Prop :=
      (frameOf' t d f.val).park = .ready ∧ t = { setStk s d (getStk t d) with watches := mdel s.watches key } ∧
      (∀ g, g ≠ f.val → frameOf' t d g = frameOf' s d g) ∧
      (x.walk = none → (frameOf' t d f.val).pc = x.pc + 4 ∧
        (rd ≠ 0 → mwf 0 x.regs = true → mget 0 (frameOf' t d f.val).regs rd = BitVec.ofNat 32 v.toNat) ∧
        (∀ r, (r ≠ rd ∨ rd = 0) → mget 0 (frameOf' t d f.val).regs r = mget 0 x.regs r))
    x.park = .waitge pa va thr rd since logged → (getStk s d).frames.length = 32 →
    (∀ w v, mfind s.watches key = some w → w.met = some v → Answers (.waitSatisfied d f) s fun t => resumed t v) ∧
    ((∀ w, mfind s.watches key = some w → w.met = none) →
      (reach s d (dieOf pa) = true → poisonAt s pa = false → 0 ≤ (memWord s pa - thr).toInt →
        Answers (.waitSatisfied d f) s fun t => resumed t (memWord s pa)) ∧
      ((reach s d (dieOf pa) = false ∨ poisonAt s pa = true ∨ (memWord s pa - thr).toInt < 0) → Absorbed (.waitSatisfied d f) s)) ∧
    (∀ us, (queueOf s d (frameOf' s d f.val).queue).wdogUs = some us → since + us * 1000 ≤ dtime s d → logged = false →
      Answers (.waitTimeout d f) s fun t => let q := (frameOf' s d f.val).queue
        (queueOf t d q).waitAddr = va ∧ (queueOf t d q).waitThr = thr ∧ (queueOf t d q).waitCur = memWord s pa ∧
        (queueOf t d q).timeouts = min ((queueOf s d q).timeouts + 1) 65535 ∧
        (frameOf' t d f.val).park = .waitge pa va thr rd since true ∧ (∀ k, k ≠ q → queueOf t d k = queueOf s d k) ∧
        t = setLog (setQueues (setStk s d (getStk t d)) d (getQueues t d)) d (getLog t d)) ∧
    (logged = true → Absorbed (.waitTimeout d f) s))

/-- R91, Table 4.2: what a program's RV32IMC instruction does to its frame, for the frame that issues: arithmetic with wrapped 32-bit
results, x0 discarding, jumps and branches, loads and stores of the frame region little-endian, and `ecall` a stoker fault. Nothing
outside the frame changes, but for the fault's record. Encodings are the published ones (log 10). -/
def Obligations.ProgramInstructions : Prop :=
  ∀ (s u : State) (d : DieId) (f : Fin 32) (rd rs1 rs2 : Nat), rd < 32 → rs1 < 32 → rs2 < 32 →
    let x := frameOf' u d f.val
    let a := rvGet x rs1
    let b := rvGet x rs2
    let other (t : State) : Prop := t = setStk u d (getStk t d) ∧ ∀ g, g ≠ f.val → frameOf' t d g = frameOf' u d g
    mwf 0 x.regs = true →
    (∀ e ∈ [((0 : Nat), (0 : Nat), a + b), (0, 32, a - b), (1, 0, a <<< (b.toNat % 32)), (2, 0, if a.toInt < b.toInt then 1 else 0),
        (3, 0, if a.toNat < b.toNat then 1 else 0), (4, 0, a ^^^ b), (5, 0, a >>> (b.toNat % 32)),
        (5, 32, a.sshiftRight (b.toNat % 32)), (6, 0, a ||| b), (7, 0, a &&& b), (0, 1, a * b),
        (5, 1, if b = 0 then BitVec.allOnes 32 else BitVec.ofNat 32 (a.toNat / b.toNat)),
        (7, 1, if b = 0 then a else BitVec.ofNat 32 (a.toNat % b.toNat))],
      Issuing s d f.val (0x33 + rd * 2 ^ 7 + e.1 * 2 ^ 12 + rs1 * 2 ^ 15 + rs2 * 2 ^ 20 + e.2.1 * 2 ^ 25) u →
      Answers (.rv32Instruction d f) s fun t =>
        rvGet (frameOf' t d f.val) rd = (if rd = 0 then 0 else e.2.2) ∧ (frameOf' t d f.val).pc = x.pc + 4 ∧
        (∀ r, r ≠ rd → rvGet (frameOf' t d f.val) r = rvGet x r) ∧ (frameOf' t d f.val).region = x.region ∧ other t) ∧
    (∀ imm, imm < 4096 → Issuing s d f.val (0x13 + rd * 2 ^ 7 + rs1 * 2 ^ 15 + imm * 2 ^ 20) u → Answers (.rv32Instruction d f) s fun t =>
      rvGet (frameOf' t d f.val) rd = (if rd = 0 then 0 else a + sx32 12 imm) ∧ (frameOf' t d f.val).pc = x.pc + 4 ∧
      (∀ r, r ≠ rd → rvGet (frameOf' t d f.val) r = rvGet x r) ∧ other t) ∧
    (Issuing s d f.val (0x67 + rd * 2 ^ 7 + rs1 * 2 ^ 15) u → Answers (.rv32Instruction d f) s fun t =>
      (frameOf' t d f.val).pc = a &&& ~~~ 1#32 ∧ rvGet (frameOf' t d f.val) rd = (if rd = 0 then 0 else x.pc + 4) ∧ other t) ∧
    (Issuing s d f.val (0x63 + 8 * 2 ^ 7 + rs1 * 2 ^ 15 + rs2 * 2 ^ 20) u → Answers (.rv32Instruction d f) s fun t =>
      (frameOf' t d f.val).pc = x.pc + (if a = b then 8 else 4) ∧ (frameOf' t d f.val).regs = x.regs ∧ other t) ∧
    (Issuing s d f.val (0x23 + 2 * 2 ^ 12 + rs1 * 2 ^ 15 + rs2 * 2 ^ 20) u → a.toNat % 4 = 0 → a.toNat + 4 ≤ 0x3000 →
      mwf 0 x.region = true → Answers (.rv32Instruction d f) s fun t =>
        leNat ((countUp a.toNat 4).map (mget 0 (frameOf' t d f.val).region)) = b.toNat ∧
        (∀ o, (o < a.toNat ∨ a.toNat + 4 ≤ o) → mget 0 (frameOf' t d f.val).region o = mget 0 x.region o) ∧
        (frameOf' t d f.val).regs = x.regs ∧ (frameOf' t d f.val).pc = x.pc + 4 ∧ other t) ∧
    (Issuing s d f.val (0x03 + rd * 2 ^ 7 + 2 * 2 ^ 12 + rs1 * 2 ^ 15) u → a.toNat % 4 = 0 → a.toNat + 4 ≤ 0x3000 →
      x.regionBad = false → Answers (.rv32Instruction d f) s fun t =>
        rvGet (frameOf' t d f.val) rd =
          (if rd = 0 then 0 else BitVec.ofNat 32 (leNat ((countUp a.toNat 4).map (mget 0 x.region)))) ∧
        (frameOf' t d f.val).region = x.region ∧ (frameOf' t d f.val).pc = x.pc + 4 ∧ other t) ∧
    (Issuing s d f.val (0x03 + rd * 2 ^ 7 + 2 * 2 ^ 12 + rs1 * 2 ^ 15) u → a.toNat % 4 ≠ 0 → a.toNat + 4 ≤ 0x3000 →
      Answers (.rv32Instruction d f) s fun t => t = stokerFault u d f.val 3 a.toNat 0 ∧ (frameOf' t d f.val).park = .ended) ∧
    (Issuing s d f.val 0x73 u → Answers (.rv32Instruction d f) s fun t =>
      t = stokerFault u d f.val 5 x.pc.toNat 0 ∧ (frameOf' t d f.val).park = .ended)

/-- R89, R93, R103 to R106: the commands that do not park. k.time writes the die's time to its pair; k.window sets the data window;
k.yield ends the slice; k.prefetch brings the lines of the range's pages of this die into the die cache and k.advise keeps the advice, which
DONE drops; k.end ends
the program, with PROGRAM_FAULT where its register is not zero. A nonzero field that must be zero is an illegal instruction. -/
def Obligations.CommandsThatDoNotPark : Prop :=
  ∀ (s u : State) (d : DieId) (f : Fin 32) (rd rs1 rs2 : Nat), rd < 32 → rs1 < 32 → rs2 < 32 →
    let x := frameOf' u d f.val
    let other (t : State) : Prop := (∀ g, g ≠ f.val → frameOf' t d g = frameOf' u d g) ∧ ∀ a, memByte t a = memByte s a
    mwf 0 x.regs = true →
    (Issuing s d f.val (customWord 1 1 0 rd 0 0) u → rd % 2 = 0 → rd ≠ 0 → Answers (.kTime d f) s fun t =>
      rvPair (frameOf' t d f.val) rd = BitVec.ofNat 64 (dtime s d) ∧ (frameOf' t d f.val).pc = x.pc + 4 ∧
      (∀ r, r ≠ rd → r ≠ rd + 1 → rvGet (frameOf' t d f.val) r = rvGet x r) ∧ t = setStk u d (getStk t d) ∧ other t) ∧
    (Issuing s d f.val (customWord 1 3 0 0 rs1 0) u → rs1 % 2 = 0 → (rvPair x rs1).toNat < 2 ^ 48 → Answers (.kWindow d f) s fun t =>
      frameOf' t d f.val = { x with dataWin := (rvPair x rs1).toNat / 2 ^ 30, pc := x.pc + 4 } ∧ t = setStk u d (getStk t d) ∧ other t) ∧
    (Issuing s d f.val (customWord 1 0 0 0 0 0) u → (getStk u d).stokers.length = 8 → Answers (.kYield d f) s fun t =>
      frameOf' t d f.val = { x with pc := x.pc + 4 } ∧ ((stokerOf t d (f.val / 4)).order).getLast? = some (f.val % 4) ∧
      t = setStk u d (getStk t d) ∧ other t) ∧
    (∀ rs v, hintFor u d x.ctx (rvPair x rs1).toNat (rvGet x rs2).toNat = (rs, v) → Looked u v ∧
      (Issuing s d f.val (customWord 0 6 0 0 rs1 rs2) u → rs1 % 2 = 0 → Answers (.kPrefetch d f) s fun t =>
        (frameOf' t d f.val).pc = x.pc + 4 ∧ (frameOf' t d f.val).regs = x.regs ∧ t = setStk (fillLines v d rs) d (getStk t d) ∧
        (∀ p n, rs = [(p, n)] → 0 < n → (p + n - 1) / 128 = p / 128 → cacheHas (getMemu t d) (p / 128) = true) ∧ other t) ∧
      (∀ code, code < 3 → Issuing s d f.val (customWord 0 7 code 0 rs1 rs2) u → rs1 % 2 = 0 → rs ≠ [] → Answers (.kAdvise d f) s fun t =>
        (getMemu t d).advice.getLast? = some (code, rs) ∧
        ((getMemu u d).advice.length ≤ 64 → (getMemu t d).advice.length ≤ 64) ∧ (frameOf' t d f.val).pc = x.pc + 4 ∧
        t = setStk (adviseRanges v d code rs) d (getStk t d) ∧ other t) ∧
      (Issuing s d f.val (customWord 0 7 3 0 rs1 rs2) u → rs1 % 2 = 0 → Answers (.kAdvise d f) s fun t =>
        (rs ≠ [] → ∀ e ∈ (getMemu t d).advice, ∀ a ∈ e.2, ∀ r ∈ rs, overlaps r a = false) ∧
        (frameOf' t d f.val).pc = x.pc + 4 ∧ t = setStk (adviseRanges v d 3 rs) d (getStk t d) ∧ other t)) ∧
    (∀ q, (queueOf u d x.queue).runs.find? (fun r => r.record.count == x.count) = some q → x.queue < 4096 →
      Issuing s d f.val (customWord 1 5 0 0 rs1 0) u → Answers (.kEnd d f) s fun t =>
        (frameOf' t d f.val).park = .ended ∧ (∀ a, memByte t a = memByte s a) ∧
        (rvGet x rs1 = 0 → t.queues = u.queues) ∧
        (rvGet x rs1 ≠ 0 → ∃ r, (queueOf t d x.queue).runs.find? (fun r => r.record.count == x.count) = some r ∧
          r.status = some (q.status.getD 3))) ∧
    (∀ e ∈ [(Instr.kWaitge d f, (0 : Nat), (0 : Nat)), (.kSigmax d f, 0, 1), (.kBin d f, 0, 4), (.kStep d f, 0, 5), (.kPrefetch d f, 0, 6),
        (.kYield d f, 1, 0), (.kTime d f, 1, 1), (.kCommit d f, 1, 2), (.kWindow d f, 1, 3), (.kGraph d f, 1, 4), (.kEnd d f, 1, 5)],
      ∀ f7, 0 < f7 → f7 < 128 → Issuing s d f.val (customWord e.2.1 e.2.2 f7 rd rs1 rs2) u → Answers e.1 s fun t =>
        t = stokerFault u d f.val 1 x.pc.toNat 0 ∧ (frameOf' t d f.val).park = .ended)

/-- R94 to R99, R102, R112: the commands that park. A wait that holds completes at once with the word observed and one that does not
parks; a signal is sent and its frame parks; a submission copies its descriptor out of the frame and goes to its engine's queue, or
parks behind a full one; with the record's context FAULTED the record ends with CONTEXT_FAULT; k.commit of tenant 0 sends its block.
No byte of memory changes. -/
def Obligations.CommandsThatPark : Prop :=
  ∀ (s u v : State) (d : DieId) (f : Fin 32) (rd rs1 rs2 pa : Nat), rd < 32 → rs1 < 32 → rs2 < 32 →
    let x := frameOf' u d f.val
    let other (t : State) : Prop := (∀ g, g ≠ f.val → frameOf' t d g = frameOf' u d g) ∧ ∀ a, memByte t a = memByte s a
    (Issuing s d f.val (customWord 0 0 0 rd rs1 rs2) u → rs1 % 2 = 0 → rs2 % 2 = 0 →
      fenceAddr u d x.ctx (rvPair x rs1).toNat false = (.ok pa, v) → Answers (.kWaitge d f) s fun t => other t ∧
        (waitHolds (noteRead v pa 8) d pa (rvPair x rs2) = true → mwf 0 x.regs = true → x.walk = none →
          (frameOf' t d f.val).park = .ready ∧ (frameOf' t d f.val).pc = x.pc + 4 ∧
          (rd ≠ 0 → rvGet (frameOf' t d f.val) rd = BitVec.ofNat 32 (memWord s pa).toNat)) ∧
        (waitHolds (noteRead v pa 8) d pa (rvPair x rs2) = false →
          frameOf' t d f.val = { x with park := .waitge pa (rvPair x rs1) (rvPair x rs2) rd (dtime s d) false } ∧
          mfind t.watches (watchKey d x.queue x.count) = some { die := d, pa := pa, thr := rvPair x rs2, met := none })) ∧
    (Issuing s d f.val (customWord 0 1 0 rd rs1 rs2) u → rs1 % 2 = 0 → rs2 % 2 = 0 →
      fenceAddr u d x.ctx (rvPair x rs1).toNat true = (.ok pa, v) → Answers (.kSigmax d f) s fun t => other t ∧
        frameOf' t d f.val = { x with park := .sigmax rd } ∧ ∃ y, mfind t.signals s.nextId = some y ∧ y.src = d ∧ y.pa = pa ∧
          y.value = rvPair x rs2 ∧ y.frame = some f.val ∧ y.queue = x.queue ∧ y.count = x.count) ∧
    (∀ e ∈ submitRows d f, Issuing s d f.val (customWord 0 e.2.1 e.2.2.1 rd rs1 0) u → (getStk u d).engines.length = 13 →
      let a := (rvGet x rs1).toNat
      let desc := (countUp a (descLen e.2.2.2)).map (mget 0 x.region)
      let eng := engineOf u d e.2.2.2
      a % 8 = 0 → a + descLen e.2.2.2 ≤ 0x3000 → x.regionBad = false →
      ((ctxOf u d x.ctx).state ≠ .faulted → eng.fenced = false → Answers e.1 s fun t => other t ∧
        (eng.subs.length + heldSubs u d e.2.2.2 < 32 → eng.full = [] →
          engineOf t d e.2.2.2 = { eng with subs := eng.subs ++ [{ frame := f.val, queue := x.queue, count := x.count, desc := desc }] } ∧
          frameOf' t d f.val = { x with park := .submitted e.2.2.2 rd }) ∧
        (32 ≤ eng.subs.length + heldSubs u d e.2.2.2 →
          engineOf t d e.2.2.2 = { eng with full := eng.full ++ [{ frame := f.val, queue := x.queue, count := x.count, desc := desc }] } ∧
          frameOf' t d f.val = { x with park := .full e.2.2.2 rd })) ∧
      ((ctxOf u d x.ctx).state = .faulted → Answers e.1 s fun t =>
        t = endProgram u d f.val (some 4) ∧ (frameOf' t d f.val).park = .ended ∧ (getStk t d).engines = (getStk u d).engines) ∧
      ((ctxOf u d x.ctx).state ≠ .faulted → eng.fenced = true → Answers e.1 s fun t =>
        t = endProgram u d f.val (some 3) ∧ (frameOf' t d f.val).park = .ended ∧ (getStk t d).engines = (getStk u d).engines)) ∧
    (Issuing s d f.val (customWord 1 2 0 rd rs1 0) u → let a := (rvGet x rs1).toNat
      (x.tenant ≠ 0 → Answers (.kCommit d f) s fun t => t = stokerFault u d f.val 7 a 0 ∧ (frameOf' t d f.val).park = .ended) ∧
      (x.tenant = 0 → a % 8 = 0 → a + 272 ≤ 0x3000 → x.regionBad = false → Answers (.kCommit d f) s fun t => other t ∧
        (frameOf' t d f.val).park = .commit rd ∧
        (frameOf' t d f.val).commitDesc =
          (countUp a (16 + 16 * min 16 (mget 0 x.region (a + 8)).toNat)).map (mget 0 x.region)))

/-- R109, R110: a graph walk. k.graph reads its header and begins the walk at FIRST; a node newer than G sends it to the previous version,
an END node writes G to rd and ends it, a submission node hands its descriptor over and goes on to NEXT; a misaligned header or node is
a GRAPH fault. -/
def Obligations.GraphWalks : Prop :=
  (∀ (s u v : State) (d : DieId) (f : Fin 32) (rd rs1 : Nat) (b : List Byte), rd < 32 → rs1 < 32 → rs1 % 2 = 0 →
    Issuing s d f.val (customWord 1 4 0 rd rs1 0) u → let x := frameOf' u d f.val
    let va := (rvPair x rs1).toNat
    (va % 16 ≠ 0 → Answers (.kGraph d f) s fun t => t = stokerFault u d f.val 6 va 0 ∧ (frameOf' t d f.val).park = .ended) ∧
    (va % 16 = 0 → vaBytes d x.ctx 2 va 16 u = (.ok b, v) → zeroAt b 2 6 = true → Answers (.kGraph d f) s fun t =>
      frameOf' t d f.val = { x with walk := some { rd := rd, g := leAt b 0 2, node := le64 (b.drop 8), reads := 0 } } ∧
      (∀ g, g ≠ f.val → frameOf' t d g = frameOf' u d g) ∧ ∀ a, memByte t a = memByte s a)) ∧
  (∀ (s v : State) (d : DieId) (f : Fin 32) (w : Walk) (b : List Byte), issues s d f.val = true → (getStk s d).frames.length = 32 →
    let x := frameOf' s d f.val
    x.walk = some w →
    ((65536 ≤ w.reads ∨ w.node.toNat % 64 ≠ 0) → Answers (.graphNode d f) s fun t =>
      t = stokerFault s d f.val 6 w.node.toNat 0 ∧ (frameOf' t d f.val).park = .ended) ∧
    (w.reads < 65536 → w.node.toNat % 64 = 0 → vaBytes d x.ctx 1 w.node.toNat 64 s = (.ok b, v) → nodeOk b = true →
      (0 < sx 16 (leAt b 0 2 + 65536 - w.g) → le64 (b.drop 8) ≠ 0 → Answers (.graphNode d f) s fun t =>
        frameOf' t d f.val = { x with walk := some { w with node := le64 (b.drop 8), reads := w.reads + 1 } } ∧
        ∀ a, memByte t a = memByte s a) ∧
      (sx 16 (leAt b 0 2 + 65536 - w.g) ≤ 0 → leAt b 2 1 = 0 → Answers (.graphNode d f) s fun t =>
        (frameOf' t d f.val).walk = none ∧ (frameOf' t d f.val).pc = x.pc + 4 ∧ (frameOf' t d f.val).park = x.park ∧
        (w.rd ≠ 0 → mwf 0 x.regs = true → rvGet (frameOf' t d f.val) w.rd = BitVec.ofNat 32 w.g) ∧
        ∀ a, memByte t a = memByte s a) ∧
      (∀ desc z, sx 16 (leAt b 0 2 + 65536 - w.g) ≤ 0 → leAt b 2 1 = 1 → (le64 (b.drop 0x18)).toNat % 8 = 0 →
        vaBytes d x.ctx 2 (le64 (b.drop 0x18)).toNat (descLen (leAt b 3 1))
          (setFrame v d f.val { frameOf' v d f.val with walk := some { w with reads := w.reads + 1, node := le64 (b.drop 0x10) } })
            = (.ok desc, z) →
        (ctxOf s d x.ctx).state ≠ .faulted → (engineOf s d (leAt b 3 1)).fenced = false → (engineOf s d (leAt b 3 1)).full = [] →
        (engineOf s d (leAt b 3 1)).subs.length + heldSubs s d (leAt b 3 1) < 32 → (getStk s d).engines.length = 13 → Answers (.graphNode d f) s fun t =>
          (engineOf t d (leAt b 3 1)).subs = (engineOf s d (leAt b 3 1)).subs
            ++ [{ frame := f.val, queue := x.queue, count := x.count, desc := desc }] ∧
          (frameOf' t d f.val).walk = some { w with reads := w.reads + 1, node := le64 (b.drop 0x10) } ∧
          (frameOf' t d f.val).park = .submitted (leAt b 3 1) 0)))

/-- R112 to R114: a commit block that reaches D0 200 us or more before its epoch, with fewer than four pending and well formed, is staged
on the joined dies; an acknowledgement is taken 50 us or more before the epoch; with all of them in, the decision is to apply, and
otherwise to keep, which the program reads as 2; a staged die receives the decision 20 us or more before the epoch, and one that has
none by then is fenced. R113, R387: at an epoch's start a die's grid moves to the next epoch, and a die that holds the decision to
apply a commit of that epoch applies its entries as slot writes. -/
def Obligations.CommitsAndEpochs : Prop :=
  (
    (∀ (s : State) (d : DieId) (f : Fin 32) (rd : Nat), let x := frameOf' s d f.val
      s.board.powerOk = true → x.busy = true → x.park = .commit rd → x.commitDesc ≠ [] → reach s d 0 = true → cordWaits s d 0 = false →
      (closeTo s 0 (leAt x.commitDesc 0 8) 200000 = false → commitsPending s < 4 → commitLegal x.commitDesc = true →
        Answers (.commitArrival d f) s fun t => ∃ c, mfind t.commits s.nextId = some c ∧ c.epoch = leAt x.commitDesc 0 8 ∧
          c.entries = commitEntries x.commitDesc ∧ c.src = d ∧ c.frame = f.val ∧ c.decision = none ∧ c.acked = [] ∧
          (∀ n, n ∈ c.staged ↔ n = 0 ∨ s.agree.joined.testBit n.val = true) ∧
          t = { setStk s d (getStk t d) with nextId := s.nextId + 1, commits := t.commits }) ∧
      (closeTo s 0 (leAt x.commitDesc 0 8) 200000 = true → mwf 0 x.regs = true → x.walk = none → (getStk s d).frames.length = 32 →
        Answers (.commitArrival d f) s fun t => (frameOf' t d f.val).park = .ready ∧ (frameOf' t d f.val).pc = x.pc + 4 ∧
          (rd ≠ 0 → rvGet (frameOf' t d f.val) rd = 1) ∧ t = setLog (setStk s d (getStk t d)) 0 (getLog t 0))) ∧
    (∀ (s : State) (id : Nat) (c : Commit) (d : DieId), s.board.powerOk = true → mfind s.commits id = some c →
      (c.decision = none → d ∈ stagedJoined s c → d ∉ c.acked → reach s 0 d = true → cordWaits s 0 d = false →
        closeTo s 0 c.epoch 50000 = false → Answers (.commitAcknowledge id d) s fun t =>
          mfind t.commits id = some { c with acked := c.acked ++ [d] } ∧ t = { s with commits := t.commits }) ∧
      (closeTo s 0 c.epoch 50000 = true → Absorbed (.commitAcknowledge id d) s) ∧
      (c.decision = none → closeTo s 0 c.epoch 50001 = true → closeTo s 0 c.epoch 20000 = false → 0 ∉ c.applied →
        (∀ n ∈ stagedJoined s c, n ∈ c.acked) → Answers (.commitDecide id) s fun t =>
          mfind t.commits id = some { c with decision := some true, staged := stagedJoined s c, told := [0], kept := [] } ∧
          t = { s with commits := t.commits }) ∧
      (∀ rd, c.decision = none → closeTo s 0 c.epoch 50001 = true → (∃ n ∈ stagedJoined s c, n ∉ c.acked) →
        (frameOf' s c.src c.frame).park = .commit rd → (frameOf' s c.src c.frame).queue = c.queue →
        (frameOf' s c.src c.frame).count = c.count → c.frame < (getStk s c.src).frames.length → rd ≠ 0 →
        (frameOf' s c.src c.frame).walk = none → Answers (.commitDecide id) s fun t =>
          rvGet (frameOf' t c.src c.frame) rd = 2 ∧ (frameOf' t c.src c.frame).park = .ready ∧
          ((∃ n ∈ stagedJoined s c, n ≠ 0) → ∃ e, mfind t.commits id = some e ∧ e.decision = some false) ∧ ∀ a, memByte t a = memByte s a) ∧
      (c.decision = some true → d ∈ c.staged → d ∉ c.told → d ∉ c.kept → d ∉ c.applied → reach s 0 d = true → cordWaits s 0 d = false →
        closeTo s d c.epoch 20000 = false → Answers (.commitDecisionReceive id d) s fun t =>
          mfind t.commits id = some { c with told := c.told ++ [d] } ∧ t = { s with commits := t.commits }) ∧
      (d ≠ 0 → d ∈ c.staged → d ∉ c.told → d ∉ c.kept → closeTo s d c.epoch 20001 = true → awake s d = true →
        Answers (.commitDeadline id d) s fun t => isFenced t d = true ∧ ∀ a, memByte t a = memByte s a))) ∧
  (
    ∀ (s : State) (d : DieId), s.board.powerOk = true → (getTime s d).running = true → nextStart s d ≤ dtime s d →
      (s.commits = [] → (pacedBy s d 0x30).isSome = false → Answers (.epochStart d) s fun t =>
        (getTime t d).epoch = (getTime s d).epoch + 1 ∧ (getTime t d).epochStart = nextStart s d ∧ dtime t d = dtime s d ∧
        (d ≠ 0 → t = setEas (setTime s d (getTime t d)) d (getEas t d)) ∧
        ((easOn (getEas s d) && (getEas s d).linkUp) = false → (getEas t d).latchDue = true) ∧
        ((easOn (getEas s d) && (getEas s d).linkUp) = true → getEas t d = getEas s d) ∧ ∀ a, memByte t a = memByte s a) ∧
      (∀ (id : Nat) (c : Commit) (mask : Nat) (v : W64), s.commits = [(id, c)] → d ≠ 0 → d ∈ c.told → d ∉ c.applied →
        c.epoch ≤ (getTime s d).epoch + 1 → c.entries = [(mask, 0, 0, v)] → mask.testBit d.val = true → 1 ≤ fld v 7 0 → fld v 7 0 ≤ 2 →
        v ≠ BitVec.allOnes 64 → slotServed s d 0 = true → (pacedBy s d 0x30).isSome = false → c.decision = some true → (∃ n ∈ c.told, n ≠ d ∧ n ∉ c.applied) →
        Answers (.epochStart d) s fun t => mirrorReg t d 0 0 = some (keepBits v 0xFF) ∧
          (∃ e, mfind t.commits id = some e ∧ d ∈ e.applied) ∧ (getTime t d).epoch = (getTime s d).epoch + 1) ∧
      (dtime s d < nextStart s d → Absorbed (.epochStart d) s))

/-- R99, R100, R102, R120, R140: a CMP engine takes the dispatch at the head of its queue. While the context is FAULTED the dispatch is
rejected and changes no count. A malformed one ends with PROGRAM_FAULT and changes no count; an acceptable one is entered with the
fields of its descriptor and kernel header, the engine's submission count goes up by one modulo 2^32, and its program goes on with that
count. No byte of memory changes. R121, R141, R142, Table 8.5: an engine places the next block of the first dispatch that has one left,
on a lit core that the dispatch allows, with its groups on the quarters in turn, unless the block of another engine goes first; every group
starts at ENTRY with all its lanes and the start registers. -/
def Obligations.DispatchesAndBlocks : Prop :=
  (
    ∀ (s : State) (d : DieId) (e : Fin 13) (x : Submission) (rest : List Submission),
      1 ≤ e.val → e.val ≤ 4 → dieRuns s d = true → (engineOf s d e.val).subs = x :: rest → (engineOf s d e.val).full = [] → (engineOf s d e.val).fenced = false →
      (getStk s d).engines.length = 13 → (getStk s d).frames.length = 32 → x.frame < 32 →
      let b := x.desc
      let c := subCtx s d x
      let kv := leAt b 0x10 8
      let av := leAt b 0x18 8
      ((ctxOf s d c).state = .faulted → Answers (.submissionAccept d e) s fun t => t = rejectFaulted s d e.val x ∧
        (engineOf t d e.val).count = (engineOf s d e.val).count ∧ (engineOf t d e.val).subs = rest ∧ (frameOf' t d x.frame).park = .ended ∧
        (getCores t d).dispatches = (getCores s d).dispatches) ∧
      ((ctxOf s d c).state ≠ .faulted → (
        ((2 ^ 48 ≤ kv ∨ kv % 64 ≠ 0 ∨ 2 ^ 48 ≤ av ∨ av % 8 ≠ 0 ∨ leAt b 0x20 4 = 0 ∨ leAt b 0x24 2 = 0 ∨ leAt b 0x26 2 = 0 ∨
            ¬ zeroAt b 0x29 23) → Answers (.submissionAccept d e) s fun t =>
          t = rejectMalformed s d e.val x 0x0301 0 ∧ (engineOf t d e.val).count = (engineOf s d e.val).count ∧
          (engineOf t d e.val).subs = rest ∧ (frameOf' t d x.frame).park = .ended ∧ (getCores t d).dispatches = (getCores s d).dispatches) ∧
        (∀ (km am : Map Nat) (ko ao fo : List Nat) (s1 s2 s3 : State) (h ws : List Byte) (k : Kernel) (hasF : Bool) (fpa rd : Nat),
          ¬ (2 ^ 48 ≤ kv ∨ kv % 64 ≠ 0 ∨ 2 ^ 48 ≤ av ∨ av % 8 ≠ 0 ∨ leAt b 0x20 4 = 0 ∨ leAt b 0x24 2 = 0 ∨ leAt b 0x26 2 = 0 ∨
            ¬ zeroAt b 0x29 23) →
          translateRange s d c kv 64 {} = (.ok (km, ko), s1) → readPages s1 d km kv 64 = some h → kernelOf h av = some k →
          kernelFits (ctxOf s1 d c) k = true → translateRange s1 d c av (8 * k.argWords) {} = (.ok (am, ao), s2) →
          fenceSide s2 d c b = (.ok (hasF, fpa, fo), s3) → pinRoom s3 d (joinObjs (joinObjs ko ao) fo) = true →
          readPages s3 d am av (8 * k.argWords) = some ws → (frameOf' s d x.frame).park = .submitted e.val rd →
          (frameOf' s d x.frame).walk = none → mwf 0 (frameOf' s d x.frame).regs = true →
          Answers (.submissionAccept d e) s fun t =>
            (engineOf t d e.val).count = ((engineOf s d e.val).count + 1) % 2 ^ 32 ∧ (engineOf t d e.val).subs = rest ∧
            (frameOf' t d x.frame).park = .ready ∧ (frameOf' t d x.frame).pc = (frameOf' s d x.frame).pc + 4 ∧
            (rd ≠ 0 → rvGet (frameOf' t d x.frame) rd = BitVec.ofNat 32 (engineOf t d e.val).count) ∧
            (∀ g, g ≠ x.frame → frameOf' t d g = frameOf' s d g) ∧ (∀ a, memByte t a = memByte s a) ∧
            ∃ i y, dispOf t d i = some y ∧ y.engine = e.val ∧ y.ctx = c ∧ y.sub = (engineOf t d e.val).count ∧ y.gx = leAt b 0x20 4 ∧
              y.gy = leAt b 0x24 2 ∧ y.gz = leAt b 0x26 2 ∧ y.clusters = leAt b 0x28 1 ∧ y.width = k.width ∧ y.vregs = k.vregs ∧
              y.groups = k.groups ∧ y.tileKib = k.tileKib ∧ y.entry = k.entry ∧ y.kernel = kv ∧ y.args.toNat = av ∧
              y.placed = 0 ∧ y.fence = hasF ∧ y.fencePa = fpa ∧ y.value = le64 (b.drop 8) ∧ y.pins = joinObjs (joinObjs ko ao) fo)))) ∧
  (
    ∀ (s : State) (d : DieId) (cmp : Fin 4) (i j : Nat) (x : Dispatch), nextDisp s d (1 + cmp.val) = some (i, x) →
      slotHolding s d x.ctx = some j →
      ((slotOf s d j).state = .active ∨ (slotOf s d j).state = .blocked ∨ (slotOf s d j).state = .idle) → dieRuns s d = true → x.geo = none →
      ((pickCore s d x = none ∨ outplaced s d (1 + cmp.val) x = true) → Absorbed (.blockPlace d cmp) s) ∧
      (∀ m off gs, pickCore s d x = some (m, off, gs) → outplaced s d (1 + cmp.val) x = false → Answers (.blockPlace d cmp) s fun t =>
        coreLit s d m = true ∧ (x.clusters = 0 ∨ x.clusters.testBit (m / 4) = true) ∧
        dispOf t d i = some { x with placed := x.placed + 1, started := if m ∈ x.started then x.started else x.started ++ [m] } ∧
        (∃ b, blockOf t d s.nextId = some b ∧ b.disp = i ∧ b.x = x.placed % x.gx ∧ b.y = x.placed / x.gx % x.gy ∧
          b.z = x.placed / x.gx / x.gy ∧ b.core = m ∧ b.tileOff = off ∧ b.live = x.groups ∧ b.arrivals = [] ∧ b.watch = 0) ∧
        (∀ k, k < x.groups → ∃ g, groupOf t d (s.nextId + 1 + k) = some g ∧ g.block = s.nextId ∧ g.index = k ∧
          g.quarter = (k + startQuarter s d x.ctx m) % 4 ∧ g.paths = [.path x.entry (2 ^ x.width - 1) none none] ∧
          g.exec = 2 ^ x.width - 1 ∧ g.exited = 0 ∧ g.sregs = startScalars x ∧ g.flags = 0 ∧ g.vq = [] ∧ g.sq = [] ∧ g.tq = [] ∧
          g.mq = []) ∧
        (m ∈ x.started → (getCores t d).near = (getCores s d).near) ∧ t.nextId = s.nextId + 1 + x.groups ∧
        t = { setCores s d (getCores t d) with nextId := t.nextId }))

/-- R117 to R119, R124 to R131, R133, R159: the ways of a context through a slot. A load takes a free or released slot; at its end the share
reads as zero, or the saved groups, registers and tile bytes stand again with empty counters, and a stop that was owed begins; the stop bath
stops every group of the slot and no other; a drained slot is FREE after a discard and SAVING in an eviction; the end of a save frees the
slot and its share and leaves the context SAVED, and stores only in its save area and in the DEVICE areas of the contexts whose residency
changes. -/
def Obligations.ContextsMoveThroughSlots : Prop :=
  ∀ (s : State) (d : DieId), (getCores s d).slots.length = 48 →
    let area (c a : Nat) : Prop := (ctxOf s 0 c).desc + 0x40 ≤ a ∧ a < (ctxOf s 0 c).desc + 0x100
    (∀ (c : W16) (rel : List Nat), let n := c.toNat
      releasesFor s d n = some rel → dieRuns s d = true → awake s d = true → mayReside s d n = true → workWaits s d n = true →
      savedLit s d n = true → tenantSlots s d (rel.map (fun i => (slotOf s d i).ctx)) (ctxOf s d n).tenant
        < (tenantOf s d (ctxOf s d n).tenant).maxSlots → autoFirst s d n = false →
      saveLegal s d n = true → Answers (.contextLoad d c) s fun t => residOf t d n = .resident ∧
        (∀ a, ¬ area n a → (∀ j ∈ rel, ¬ area (slotOf s d j).ctx a) → memByte t a = memByte s a) ∧
        (∃ i, i < 48 ∧ (slotOf t d i).state = .loading ∧ (slotOf t d i).ctx = n ∧ ((slotOf s d i).state = .free ∨ i ∈ rel) ∧
          (∀ j, j ≠ i → j ∉ rel → slotOf t d j = slotOf s d j) ∧ (∀ j ∈ rel, j ≠ i → (slotOf t d j).state = .free)) ∧
        t = { setCores s d (getCores t d) with mem := t.mem, poison := t.poison, memu := t.memu, watches := t.watches }) ∧
    (∀ (slot : Fin 48), let x := slotOf s d slot.val
      let after (t : State) : Prop := (slotOf t d slot.val).ctx = x.ctx ∧ (x.owed = true → (slotOf t d slot.val).state = .stopping) ∧
        (x.owed = false → (slotOf t d slot.val).state = .idle ∨ (slotOf t d slot.val).state = .active ∨ (slotOf t d slot.val).state = .blocked)
      let empty (t : State) : Prop :=
        (∀ core q w, core < 32 → q < 4 → w < 2 ^ 15 → mget 0 (getCores t d).vrf (vrfKey x.ctx core q w) = 0) ∧
        (∀ core b, core < 32 → b < 2 ^ 18 → mget 0 (getCores t d).tile (tileKey x.ctx core b) = 0)
      (x.state = .loading → mfind (getCores s d).saved x.ctx = none → Answers (.contextLoadDone d slot) s fun t =>
        t = setCores s d (getCores t d) ∧ after t ∧ empty t) ∧
      (∀ v gid g, x.state = .loading → mfind (getCores s d).saved x.ctx = some v → savedLit s d x.ctx = true → v.groups = [(gid, g)] →
        let z := v.area.foldl (fun t e => if e.1 % 128 = 0 then noteRead t e.1 1 else t) s
        (∀ e ∈ v.area, memByte s e.1 = e.2 ∧ poisonAt z e.1 = false) → ReadOnly s z ∧ Answers (.contextLoadDone d slot) s fun t =>
          let awoken : Group := { g with stopped := false, waiting := false, sleepUntil := none, active := false, since := s.now, unable := none }
          t = setCores z d (getCores t d) ∧ after t ∧ mfind (getCores t d).saved x.ctx = none ∧
          (∃ y, groupOf t d gid = some y ∧ { y with active := false, since := s.now, unable := none } = awoken) ∧
          (∀ k w, v.vrf = [(k, w)] → mget 0 (getCores t d).vrf k = w) ∧ (∀ k w, v.tile = [(k, w)] → mget 0 (getCores t d).tile k = w)) ∧
      (∀ v, x.state = .loading → mfind (getCores s d).saved x.ctx = some v → savedLit s d x.ctx = false → Absorbed (.contextLoadDone d slot) s) ∧
      (∀ v, x.state = .loading → mfind (getCores s d).saved x.ctx = some v → savedLit s d x.ctx = true →
        (∃ e ∈ v.area, memByte s e.1 ≠ e.2) →
        (ctxOf s 0 x.ctx).state = .live → resettingTenant s (ctxOf s 0 x.ctx).tenant = false → Answers (.contextLoadDone d slot) s fun t =>
          (ctxOf t 0 x.ctx).state = .faulted ∧ empty t ∧ ∀ a, memByte t a = memByte s a) ∧
      (x.state = .stopping → Answers (.stopBath d slot) s fun t => t = setCores s d (getCores t d) ∧
        (∀ gid g, groupOf s d gid = some g →
          let halted : Group := { g with stopped := true, active := false, sleepUntil := none, waiting := false, unable := none, part := none }
          if groupCtx s d g = some x.ctx then groupOf t d gid = some halted
          else ∃ y, groupOf t d gid = some y ∧ { y with active := g.active, since := g.since, unable := g.unable } = g) ∧
        getCores t d = { getCores s d with groups := (getCores t d).groups, served := (getCores t d).served }) ∧
      (x.state ≠ .stopping → Absorbed (.stopBath d slot) s ∧ Absorbed (.stopBathDone d slot) s) ∧
      (x.state = .stopping → (∀ e ∈ ctxGroups s d x.ctx, e.2.stopped = true ∧ drained e.2 = true) →
        (x.discard = true → Answers (.stopBathDone d slot) s fun t => (slotOf t d slot.val).state = .free ∧
          (getCores t d).groups = (getCores s d).groups.filter (fun e => !(groupCtx s d e.2 == some x.ctx)) ∧
          residOf t d x.ctx = .none ∧ mfind (getCores t d).saved x.ctx = none ∧ ∀ a, ¬ area x.ctx a → memByte t a = memByte s a) ∧
        (x.discard = false → Answers (.stopBathDone d slot) s fun t => (slotOf t d slot.val).state = .saving ∧
          (slotOf t d slot.val).ctx = x.ctx ∧ t = setCores s d (getCores t d))) ∧
      (x.state = .saving → (ctxOf s d x.ctx).regShare ≤ 96 → (ctxOf s d x.ctx).tileShare ≤ 64 → Answers (.saveDone d slot) s fun t =>
        (slotOf t d slot.val).state = .free ∧ residOf t d x.ctx = .saved ∧ empty t ∧
        (∃ v, mfind (getCores t d).saved x.ctx = some v ∧ v.cores = (countUp 0 32).filter (coreLit s d) ∧
          v.groups = (getCores s d).groups.filter (fun e => groupCtx s d e.2 == some x.ctx)) ∧
        (let base := lget 0 (ctxOf s d x.ctx).save d.val
         (∀ a, (a < base ∨ base + 2 ^ 25 ≤ a) → ¬ area x.ctx a → memByte t a = memByte s a) ∧
         ∀ m b, m < 32 → coreLit s d m = true → b < (ctxOf s d x.ctx).tileShare * 4096 → Memory.wf s.mem →
           memByte t (base + 0x10000 + m * 0xA0000 + 0x60000 + b) = mget 0 (getCores s d).tile (tileKey x.ctx m b))))

/-- R132 to R136: starvation that has lasted 100 us is recorded once; an auto-evict decision evicts its victim for its candidate; the
residency commands load, evict and query with the results of Table 5.7; a cluster that has not drained in 1 ms has its contexts
evicted. -/
def Obligations.StarvationAndResidencyCommands : Prop :=
  ∀ (s : State) (d : DieId), (getCores s d).slots.length = 48 →
    (∀ since, (getCores s d).starvedSince = some since → starvedCond s d = true → (getCores s d).starved = false →
      (since + 100000 ≤ s.now → Answers (.slotStarved d) s fun t => (getCores t d).starved = true ∧
        getCores t d = { getCores s d with starved := true } ∧ t = setLog (setCores s d (getCores t d)) d (getLog t d) ∧
        Absorbed (.slotStarved d) t) ∧
      (s.now < since + 100000 → Absorbed (.slotStarved d) s)) ∧
    (∀ c i u, (getCores s d).starved = true → (∀ x ∈ (getCores s d).slots, x.byAuto = false) → autoCandidate s d = (some c, u) →
      autoVictim u d c = some i → Looked s u ∧ Answers (.autoEvictDecision d) s fun t => t = setCores u d (getCores t d) ∧
        (slotOf s d i).state = .blocked ∧ (slotOf t d i).state = .stopping ∧ (slotOf t d i).byAuto = true ∧ (getCores t d).auto = some c ∧
        (∀ j, j ≠ i → slotOf t d j = slotOf s d j) ∧ Absorbed (.autoEvictDecision d) t) ∧
    ((getCores s d).starved = false → Absorbed (.autoEvictDecision d) s) ∧
    (∀ (c : W16), let n := c.toNat
      let done (t : State) (status : Nat) : Prop := fld (getHregs t 0).ctxResResult 23 16 = status ∧
        fld (getHregs t 0).ctxResResult 15 0 = (fld (getHregs s 0).ctxResResult 15 0 + 1) % 65536 ∧
        fld (getHregs t 0).ctxResResult 39 24 = n ∧ fld (getHregs t 0).ctxResResult 41 40 = d.val
      Served s 0 4 →
      ((ctxOf s 0 n).state = .free ∨ resettingTenant s (ctxOf s 0 n).tenant = false →
        (∀ rel, releasesFor s d n = some rel → mayReside s d n = true → savedLit s d n = true → awake s d = true →
          (tenantSlots s d (rel.map (fun i => (slotOf s d i).ctx)) (ctxOf s 0 n).tenant < (tenantOf s d (ctxOf s 0 n).tenant).maxSlots →
            saveLegal s d n = true → Answers (.resLoad 0 d c) s fun t => done t 0 ∧ residOf t d n = .resident ∧
              (∃ i, (slotOf t d i).state = .loading ∧ (slotOf t d i).ctx = n) ∧
              t = { setHregs (setCores s d (getCores t d)) 0 (getHregs t 0) with
                    mem := t.mem, poison := t.poison, memu := t.memu, watches := t.watches }) ∧
          ((tenantOf s d (ctxOf s 0 n).tenant).maxSlots ≤
              tenantSlots s d (rel.map (fun i => (slotOf s d i).ctx)) (ctxOf s 0 n).tenant →
            Answers (.resLoad 0 d c) s fun t => done t 2 ∧ t = setHregs s 0 (getHregs t 0))) ∧
        (holdsSlot s d n = true → Answers (.resLoad 0 d c) s fun t => done t 1 ∧ t = setHregs s 0 (getHregs t 0)) ∧
        (∀ i, slotHolding s d n = some i → (slotOf s d i).state = .loading → Answers (.resEvict 0 d c) s fun t => done t 0 ∧
          slotOf t d i = { slotOf s d i with owed := true } ∧ t = setHregs (setCores s d (getCores t d)) 0 (getHregs t 0)) ∧
        (∀ i, slotHolding s d n = some i → (slotOf s d i).state ≠ .loading → (slotOf s d i).discard = true → Answers (.resEvict 0 d c) s fun t =>
          done t 1 ∧ t = setHregs s 0 (getHregs t 0)) ∧
        (∀ i, slotHolding s d n = some i → (slotOf s d i).state ≠ .loading → (slotOf s d i).discard = false →
          Answers (.resEvict 0 d c) s fun t => done t 0 ∧
          ((slotOf s d i).state ≠ .saving → (slotOf t d i).state = .stopping) ∧
          ((slotOf s d i).state = .saving → slotOf t d i = slotOf s d i) ∧
          t = setHregs (setCores s d (getCores t d)) 0 (getHregs t 0)) ∧
        (slotHolding s d n = none → Answers (.resEvict 0 d c) s fun t => done t 1 ∧ t = setHregs s 0 (getHregs t 0))) ∧
      ((ctxOf s 0 n).state ≠ .free → resettingTenant s (ctxOf s 0 n).tenant = true →
        (Answers (.resLoad 0 d c) s fun t => done t 5 ∧ t = setHregs s 0 (getHregs t 0)) ∧
        (Answers (.resEvict 0 d c) s fun t => done t 5 ∧ t = setHregs s 0 (getHregs t 0))) ∧
      (Answers (.resQuery 0 d c) s fun t => done t 0 ∧ t = setHregs s 0 (getHregs t 0))) ∧
    (∀ (cl : Fin 8) (since : Nat), (getLamp s d).draining = some (cl.val, since, false) →
      (since + 1000000 ≤ s.now → Answers (.clusterDrainTimeout d cl) s fun t =>
        (getLamp t d).draining = some (cl.val, since, true) ∧ t = setLamp (setCores s d (getCores t d)) d (getLamp t d) ∧
        ∀ i, i < 48 → let x := slotOf s d i
          let busy : Prop := x.state ≠ .free ∧ ∃ b ∈ (getCores s d).blocks, b.2.core / 4 = cl.val ∧
            (blockDisp s d b.2).map (fun y => y.ctx) = some x.ctx
          (busy → x.state = .active ∨ x.state = .blocked ∨ x.state = .idle → (slotOf t d i).state = .stopping) ∧
          (¬ busy → slotOf t d i = x)) ∧
      (s.now < since + 1000000 → Absorbed (.clusterDrainTimeout d cl) s))

/-- R122, R147, R152, R156, R233: scheduling. A group that can issue displaces the longest-held place of the lowest class below it; a
group that has been unable to issue, or has held its place too long while an equal waits, gives way; a path gives way to the next that
can issue; a sleep's end lets its group issue again; an orphaned barrier faults its context. Only the cores of that die change. -/
def Obligations.GroupsTakeTurns : Prop :=
  (∀ (s : State) (d : DieId) (core : Fin 32) (q : Fin 4) (gid : Nat) (g : Group),
    (getCores s d).groups.Pairwise (fun a b => a.1 < b.1) →
    ((getCores s d).groups.filter (fun e => e.2.quarter == q.val && groupCore s d e.2 == core.val && e.2.active)).length = 8 →
    (∀ w ∈ pendingAble s d core.val q.val, w.since < s.now) →
    (∀ e ∈ (getCores s d).groups, e.2.quarter = q.val → groupCore s d e.2 = core.val → e.2.active = true →
      e.2.paths.any pathIssues = true ∧ e.2.stopped = false ∧ e.2.sleepUntil = none) →
    (∀ p, p < 3 → (∀ r, r < p → oldestActive s d core.val q.val (fun x => groupPrio s d x == r) = none) →
      oldestActive s d core.val q.val (fun x => groupPrio s d x == p) = some (gid, g) →
      (∃ w ∈ pendingAble s d core.val q.val, p < groupPrio s d w) → Answers (.quarterPreempt d core q) s fun t =>
        t = setCores s d (getCores t d) ∧ groupPrio s d g = p ∧ (∃ y, groupOf t d gid = some y ∧ y.active = false ∧ y.since = s.now) ∧
        ∃ k x y, k ≠ gid ∧ groupOf s d k = some x ∧ x.active = false ∧ p < groupPrio s d x ∧ groupOf t d k = some y ∧ y.active = true) ∧
    (oldestActive s d core.val q.val (fun x =>
        ((match x.unable with | some t => decide (t + 30 ≤ s.now) && !ableGroup x | none => false) &&
          !(pendingAble s d core.val q.val).isEmpty) ||
        (decide (x.since + 3724 ≤ s.now) && (pendingAble s d core.val q.val).any (fun w => decide (groupPrio s d x ≤ groupPrio s d w))))
        = some (gid, g) → Answers (.activeSetRotate d core q) s fun t =>
      t = setCores s d (getCores t d) ∧ (∃ y, groupOf t d gid = some y ∧ y.active = false ∧ y.since = s.now) ∧
      ∃ k x y, k ≠ gid ∧ groupOf s d k = some x ∧ x.active = false ∧ groupOf t d k = some y ∧ y.active = true)) ∧
  (∀ (s : State) (d : DieId) (core : Fin 32) (q : Fin 4), pendingAble s d core.val q.val = [] →
    Absorbed (.quarterPreempt d core q) s ∧ Absorbed (.activeSetRotate d core q) s) ∧
  (∀ (s : State) (r : GRef) (x : Group), groupOf s r.die r.gid = some x →
    (64 ≤ x.issues → ∀ k, nextPath x.paths (x.cur + 1) = some k → k ≠ x.cur → Answers (.pathRotate r) s fun t =>
      t = setCores s r.die (getCores t r.die) ∧ groupOf t r.die r.gid = some { x with cur := k, issues := 0 } ∧
      (∀ j, j ≠ r.gid → groupOf t r.die j = groupOf s r.die j)) ∧
    (x.issues < 64 → Absorbed (.pathRotate r) s) ∧
    (∀ until_, x.sleepUntil = some until_ →
      (until_ ≤ s.now → Answers (.sleepEnd r) s fun t => t = setCores s r.die (getCores t r.die) ∧
        ∃ y, groupOf t r.die r.gid = some y ∧ y.sleepUntil = none ∧ y.paths = x.paths ∧ y.sregs = x.sregs ∧ y.flags = x.flags) ∧
      (s.now < until_ → Absorbed (.sleepEnd r) s))) ∧
  (∀ (s : State) (d : DieId) (block a gid : Nat) (rest : List Nat) (b : Block) (x : Dispatch) (g : Group),
    blockOf s d block = some b → blockDisp s d b = some x → b.arrivals = a :: rest →
    (getCores s d).groups.find? (fun e => e.2.block == block) = some (gid, g) →
    (orphanNs x ≤ b.watch → x.dead = false → groupOf s d gid = some g → (ctxOf s 0 x.ctx).state = .live →
      resettingTenant s (ctxOf s 0 x.ctx).tenant = false → Answers (.barrierOrphan d block) s fun t =>
        (ctxOf t 0 x.ctx).state = .faulted ∧ ∀ p, memByte t p = memByte s p) ∧
    (b.watch < orphanNs x → Absorbed (.barrierOrphan d block) s))

/-- R157, R158, R160, R163, R222, R229, R288, R363: operations in flight complete in order. A fill of a line at home delivers its bytes to the
loads that wait on it and installs the line, and one of another die's line is asked for over the cord; a load's result reaches its registers
when VCNT counts it done, a store's bytes memory when SCNT does, an atomic its word and its old value; an operation that waits for another
die keeps its place; texture and matrix results reach their registers under TCNT and MCNT. -/
def Obligations.CountedOperationsComplete : Prop :=
  (∀ (s : State) (d : DieId) (core : Fin 32) (line : BitVec 33) (f : NearFill), let l := line.toNat
    let z := noteRead s (l * 128) 128
    mwf ({ lines := [], fills := [] } : NearCache) (getCores s d).near = true →
    (nearOf s d core.val).fills.find? (fun x => x.line == l) = some f →
    (dieOf (l * 128) = d → rowWaits s (l * 128) 128 = false → (∀ k, k < 2 → poisonAt z (l * 128 + 64 * k) = false) →
      ReadOnly s z ∧ Answers (.nearCacheFill d core line) s fun t =>
      t = setCores z d (getCores t d) ∧ (∀ x ∈ (nearOf t d core.val).fills, x.line ≠ l) ∧
      (f.noInstall = false → (nearOf s d core.val).lines.length < 48 → pendingStores s d (fun _ g => groupCore s d g == core.val) = [] →
        ∃ x ∈ (nearOf t d core.val).lines, x.line = l ∧ x.data = memRead s (l * 128) 128) ∧
      (f.noInstall = true → (nearOf t d core.val).lines = (nearOf s d core.val).lines) ∧
      (∀ gid g, groupOf s d gid = some g → groupCore s d g = core.val →
        pendingStores s d (fun _ g => groupCore s d g == core.val) = [] → ∃ y, groupOf t d gid = some y ∧ y.vq.length = g.vq.length ∧
        ∀ (o o' : CountedOp) (a : LaneAccess) (k size : Nat) (signed scalar : Bool), g.vq[k]? = some o → y.vq[k]? = some o' →
          o.kind = .load size signed scalar false → a ∈ o.access → a.got = none → a.pa / 128 = l → a.pa % 128 + a.bytes ≤ 128 →
          { a with got := some (memRead s a.pa a.bytes) } ∈ o'.access)) ∧
    (dieOf (l * 128) ≠ d → let u := (fillAsks core.val l).foldl (askDie d) s
      answersOf u d (fillAsks core.val l) = none → Answers (.nearCacheFill d core line) s fun t => t = u ∧ t.cores = s.cores ∧ t.mem = s.mem)) ∧
  (∀ (s : State) (r : GRef) (i : Issue) (o : CountedOp) (rest : List CountedOp), issueAt s r = some i → i.g.paths ≠ [] →
    Canonical i s → opWaits s i.d o = false → o.stale = [] →
    let z := noteOp s i.d o
    accessFault z i.d o = none →
    (∀ size signed coherent, i.g.vq = o :: rest → o.kind = .load size signed false coherent →
      ((coherent = true ∧ o.posted = false ∧ ∀ a ∈ o.access, a.got = none ∧ dieOf a.pa = i.d) ∨ ∀ a ∈ o.access, a.got ≠ none) →
      ReadOnly s z ∧ Answers (.vcntDecrement r) s fun t => CoresOnly i.d z t ∧
        (∀ x ∈ o.dests, (∀ y ∈ o.dests, vreg i y.1 y.2 = vreg i x.1 x.2 → y = x) →
          mget 0 (getCores t i.d).vrf (vreg i x.1 x.2) = loadResult s i.d i.gid o x.1 x.2) ∧
        (∀ k, (∀ x ∈ o.dests, k ≠ vreg i x.1 x.2) → mget 0 (getCores t i.d).vrf k = mget 0 (getCores s i.d).vrf k) ∧
        ∃ y, groupOf t i.d i.gid = some y ∧ y.vq = rest ∧ y.waiting = false ∧ y.sregs = i.g.sregs ∧ y.flags = i.g.flags ||| o.flags) ∧
    (∀ size signed coherent rd, i.g.vq = o :: rest → o.kind = .load size signed true coherent → o.dests = [(rd, 0)] →
      ((coherent = true ∧ o.posted = false ∧ ∀ a ∈ o.access, a.got = none ∧ dieOf a.pa = i.d) ∨ ∀ a ∈ o.access, a.got ≠ none) →
      Answers (.vcntDecrement r) s fun t => CoresOnly i.d z t ∧
        (getCores t i.d).vrf = (getCores s i.d).vrf ∧
        ∃ y, groupOf t i.d i.gid = some y ∧ y.vq = rest ∧ mget 0 y.sregs rd = loadResult s i.d i.gid o rd 0 ∧
          ∀ k, k ≠ rd → mget 0 y.sregs k = mget 0 i.g.sregs k) ∧
    (∀ op bits b c (a : LaneAccess), i.g.vq = o :: rest → o.kind = .atomic op bits true [(a.lane, b, c)] → o.access = [a] →
      (bits = 32 ∨ bits = 64) → Memory.wf s.mem → o.posted = false → dieOf a.pa = i.d → Answers (.vcntDecrement r) s fun t =>
        memNat t a.pa (bits / 8) = atomicNew op bits (memNat s a.pa (bits / 8)) b.toNat c.toNat % 2 ^ bits ∧
        (∀ p, (p < a.pa ∨ a.pa + bits / 8 ≤ p) → memByte t p = memByte s p) ∧
        (o.dests = [(o.dst, a.lane)] →
          mget 0 (getCores t i.d).vrf (vreg i o.dst a.lane) = BitVec.ofNat 32 (memNat s a.pa (bits / 8))) ∧
        ∃ y, groupOf t i.d i.gid = some y ∧ y.vq = rest ∧
          y.flags = i.g.flags ||| atomicFlags op (memNat s a.pa (bits / 8)) b.toNat) ∧
    (∀ data, i.g.sq = o :: rest → o.kind = .store data → o.posted = false → (∀ e ∈ data, dieOf e.1 = i.d) →
      Answers (.scntDecrement r) s fun t => t = { writeCells s data with cores := t.cores, freeCtr := t.freeCtr } ∧
        (∀ p, (∀ e ∈ data, e.1 ≠ p) → memByte t p = memByte s p) ∧
        (∀ pre e post, data = pre ++ e :: post → (∀ x ∈ post, x.1 ≠ e.1) → Memory.wf s.mem → memByte t e.1 = e.2) ∧
        ∃ y, groupOf t i.d i.gid = some y ∧ y.sq = rest ∧ y.waiting = false) ∧
    (∀ op bits b c (a : LaneAccess), i.g.sq = o :: rest → o.kind = .atomic op bits false [(a.lane, b, c)] → o.access = [a] →
      (bits = 32 ∨ bits = 64) → Memory.wf s.mem → o.posted = false → dieOf a.pa = i.d → Answers (.scntDecrement r) s fun t =>
        memNat t a.pa (bits / 8) = atomicNew op bits (memNat s a.pa (bits / 8)) b.toNat c.toNat % 2 ^ bits ∧
        (getCores t i.d).vrf = (getCores s i.d).vrf ∧ (∀ p, (p < a.pa ∨ a.pa + bits / 8 ≤ p) → memByte t p = memByte s p)) ∧
    (∀ u p, bringOn s i.d i.gid o = .waits u p →
      (i.g.vq = o :: rest → (∀ size signed scalar, o.kind = .load size signed scalar false → ∀ a ∈ o.access, a.got ≠ none) →
        Answers (.vcntDecrement r) s fun t => t = setCores u i.d (getCores t i.d) ∧
          ∃ y, groupOf t i.d i.gid = some y ∧ y.vq = p :: rest ∧ y.sregs = i.g.sregs ∧ p.serial = o.serial) ∧
      (i.g.sq = o :: rest → Answers (.scntDecrement r) s fun t => t = setCores u i.d (getCores t i.d) ∧
          ∃ y, groupOf t i.d i.gid = some y ∧ y.sq = p :: rest ∧ p.serial = o.serial)) ∧
    (∀ e ∈ [(Instr.tcntDecrement r, i.g.tq, (fun (y : Group) => y.tq)), (.mcntDecrement r, i.g.mq, (fun y => y.mq))],
      e.2.1 = o :: rest → Answers e.1 s fun t => CoresOnly i.d s t ∧
        (∀ x ∈ o.result, (∀ y ∈ o.result, vreg i y.1 y.2.1 = vreg i x.1 x.2.1 → y = x) →
          mget 0 (getCores t i.d).vrf (vreg i x.1 x.2.1) = x.2.2) ∧
        (∀ k, (∀ x ∈ o.result, k ≠ vreg i x.1 x.2.1) → mget 0 (getCores t i.d).vrf k = mget 0 (getCores s i.d).vrf k) ∧
        ∃ y, groupOf t i.d i.gid = some y ∧ e.2.2 y = rest ∧ y.flags = i.g.flags ||| o.flags ∧ y.waiting = false))

/-- R171, R178 to R182, R184, R207, R213, R218: the FP32 vector instructions and the special functions. Each acting lane's result goes to
DST and the lanes' flags are raised; sources carry their ABS and NEG modifiers. NaN operands give the canonical NaN in fast mode, `min`
and `max` pass a NaN by, `sub` is `add` of the negated operand, a sum and a product do not depend on the order of their operands. R183,
R207, Table 8.7: the integer vector instructions, `mov`, `sel` and `shfl`: wrapped 32-bit results in every acting lane, no flag raised. -/
def Obligations.FloatingPointAndIntegerInstructions : Prop :=
  (
    (∀ (s u : State) (r : GRef) (w e : W64) (i : Issue), IssuesWord s r w e i u → Canonical i u → let wd := wdOf w e
      (∀ x ∈ [(Instr.addF32 r w e, (0 : Nat), fun a b _ => fAdd wd.strict a b), (.subF32 r w e, 1, fun a b _ => fSub wd.strict a b),
          (.mulF32 r w e, 2, fun a b _ => fMul wd.strict a b), (.fmaF32 r w e, 3, fun a b c => fFma wd.strict a b c),
          (.minF32 r w e, 4, fun a b _ => fMinMax wd.strict false a b), (.maxF32 r w e, 5, fun a b _ => fMinMax wd.strict true a b),
          (.floorF32 r w e, 6, fun a _ _ => fIntegral wd.strict 0 a), (.ceilF32 r w e, 7, fun a _ _ => fIntegral wd.strict 1 a),
          (.truncF32 r w e, 8, fun a _ _ => fIntegral wd.strict 2 a)],
        wd.op = x.2.1 → Fits i wd (aluUse (aluSrcs wd.op) (.v 1) true) → Answers x.1 s fun t =>
          VectorResult i wd u t (fun l => x.2.2 (fOperand u i wd 0 l) (fOperand u i wd 1 l) (fOperand u i wd 2 l))) ∧
      (∀ x ∈ [(Instr.rcp r w e, (0x140 : Nat), fun a _ => fRcp wd.strict a), (.rsqrt r w e, 0x141, fun a _ => fSqrt wd.strict true a),
          (.sqrt r w e, 0x142, fun a _ => fSqrt wd.strict false a), (.exp2 r w e, 0x143, fun a _ => fExp2 wd.strict a),
          (.log2 r w e, 0x144, fun a _ => fLog2 wd.strict a), (.sin r w e, 0x145, fun a _ => fTrig wd.strict false a),
          (.cos r w e, 0x146, fun a _ => fTrig wd.strict true a), (.div r w e, 0x147, fun a b => fDiv wd.strict a b)],
        wd.op = x.2.1 → Fits i wd (aluUse (if wd.op = 0x147 then 2 else 1) (.v 1) true) → Answers x.1 s fun t =>
          VectorResult i wd u t (fun l => x.2.2 (fOperand u i wd 0 l) (fOperand u i wd 1 l)))) ∧
    (∀ (a b c : W32), (decodeF fp32 a.toNat).isNan = true →
      (fAdd false a b).v = canonNan ∧ (fAdd false b a).v = canonNan ∧ (fMul false a b).v = canonNan ∧ (fMul false b a).v = canonNan ∧
      (fFma false a b c).v = canonNan ∧ (fFma false b c a).v = canonNan ∧ (fDiv false a b).v = canonNan ∧ (fRcp false a).v = canonNan ∧
      (∀ strict, (decodeF fp32 b.toNat).isNan = false → (fMinMax strict false a b).v = flushed32 strict b ∧
        (fMinMax strict true b a).v = flushed32 strict b)) ∧
    (∀ (strict : Bool) (a b : W32), (decodeF fp32 a.toNat).isNan = false → (decodeF fp32 b.toNat).isNan = false →
      fAdd strict a b = fAdd strict b a ∧ fMul strict a b = fMul strict b a ∧ fSub strict a b = fAdd strict a (b ^^^ 0x80000000))) ∧
  (
    ∀ (s u : State) (r : GRef) (w e : W64) (i : Issue), IssuesWord s r w e i u → Canonical i u → let wd := wdOf w e
      (∀ x ∈ [(Instr.add r w e, (0x40 : Nat), fun (a b _ : W32) => a + b), (.sub r w e, 0x41, fun a b _ => a - b),
          (.mul r w e, 0x42, fun a b _ => a * b), (.mad r w e, 0x43, fun a b c => a * b + c),
          (.mulhi r w e, 0x44, fun a b _ => BitVec.ofInt 32 (a.toInt * b.toInt / 2 ^ 32)),
          (.mulhi r w e, 0x45, fun a b _ => BitVec.ofNat 32 (a.toNat * b.toNat / 2 ^ 32)),
          (.minMaxInt r w e, 0x46, fun a b _ => if a.toInt ≤ b.toInt then a else b),
          (.minMaxInt r w e, 0x47, fun a b _ => if b.toInt ≤ a.toInt then a else b),
          (.minMaxInt r w e, 0x48, fun a b _ => if a.toNat ≤ b.toNat then a else b),
          (.minMaxInt r w e, 0x49, fun a b _ => if b.toNat ≤ a.toNat then a else b),
          (.and r w e, 0x4A, fun a b _ => a &&& b), (.or r w e, 0x4B, fun a b _ => a ||| b), (.xor r w e, 0x4C, fun a b _ => a ^^^ b),
          (.not r w e, 0x4D, fun a _ _ => ~~~a), (.shl r w e, 0x4E, fun a b _ => a <<< (b.toNat % 32)),
          (.shr r w e, 0x4F, fun a b _ => a >>> (b.toNat % 32)), (.shr r w e, 0x50, fun a b _ => a.sshiftRight (b.toNat % 32)),
          (.rotl r w e, 0x51, fun a b _ => (a <<< (b.toNat % 32)) ||| (a >>> (32 - b.toNat % 32))),
          (.popc r w e, 0x52, fun a _ _ => BitVec.ofNat 32 ((countUp 0 32).filter (fun k => a.toNat.testBit k)).length),
          (.clz r w e, 0x53, fun a _ _ => if a = 0 then 32 else BitVec.ofNat 32 (31 - Nat.log2 a.toNat)),
          (.bfeU32 r w e, 0x54, fun a b c => BitVec.ofNat 32 (a.toNat / 2 ^ (b.toNat % 32) % 2 ^ (c.toNat % 33))),
          (.mov r w e, 0x56, fun a _ _ => a)],
        wd.op = x.2.1 → Fits i wd (aluUse (aluSrcs wd.op) (.v 1) false) → Answers x.1 s fun t =>
          VectorResult i wd u t (fun l => ⟨x.2.2 (operand u i wd 0 0 l) (operand u i wd 1 0 l) (operand u i wd 2 0 l), 0⟩)) ∧
      (wd.op = 0x55 → Fits i wd { a := .reg 1, b := .reg 1, c := .pred, d := .v 1 } → Answers (.sel r w e) s fun t =>
        VectorResult i wd u t (fun l => ⟨if predBit i.g wd.s2 l then operand u i wd 0 0 l else operand u i wd 1 0 l, 0⟩)) ∧
      (wd.op = 0x57 → Fits i wd (aluUse 2 (.v 1) false) → Answers (.shfl r w e) s fun t =>
        VectorResult i wd u t (fun l => ⟨operand u i wd 0 0 ((operand u i wd 1 0 l).toNat % i.x.width), 0⟩)))

/-- R182, R183, R206, R208, R212, R214: comparisons, predicate operations and lane masks. Comparisons write DST's bit in the acting lanes,
predicate operations in every lane below W, p0 discarding; `ballot`, `rdexec` and `rdlane` write scalars, `wrexec` the exec bits. -/
def Obligations.PredicateInstructions : Prop :=
  ∀ (s u : State) (r : GRef) (w e : W64) (i : Issue), IssuesWord s r w e i u → Canonical i u → let wd := wdOf w e
    let lanes := countUp 0 i.x.width
    (0x10 ≤ wd.op → wd.op ≤ 0x15 → Fits i wd (aluUse 2 .p true) → Answers (.setF32 r w e) s fun t =>
      let f (l : Nat) := fCmp wd.strict (wd.op - 0x10) (fOperand u i wd 0 l) (fOperand u i wd 1 l)
      PredicateResult i wd u t (actingLanes i wd) (fun l => (f l).1) ((actingLanes i wd).foldl (fun a l => a ||| (f l).2) 0)) ∧
    (∀ x ∈ [((0x59 : Nat), fun (a b : W32) => decide (a = b)), (0x5A, fun a b => decide (a ≠ b)), (0x5B, fun a b => decide (a.toInt < b.toInt)),
        (0x5C, fun a b => decide (a.toInt ≤ b.toInt)), (0x5D, fun a b => decide (b.toInt < a.toInt)),
        (0x5E, fun a b => decide (b.toInt ≤ a.toInt)), (0x5F, fun a b => decide (a.toNat < b.toNat)),
        (0x60, fun a b => decide (a.toNat ≤ b.toNat)), (0x61, fun a b => decide (b.toNat < a.toNat)),
        (0x62, fun a b => decide (b.toNat ≤ a.toNat))],
      wd.op = x.1 → Fits i wd (aluUse 2 .p false) → Answers (.setInt r w e) s fun t =>
        PredicateResult i wd u t (actingLanes i wd) (fun l => x.2 (operand u i wd 0 0 l) (operand u i wd 1 0 l)) 0) ∧
    (∀ x ∈ [(Instr.pand r w e, (0xF2 : Nat), true, fun (a b : Bool) => a && b), (.por r w e, 0xF3, true, fun a b => a || b),
        (.pxor r w e, 0xF4, true, fun a b => xor a b), (.pnot r w e, 0xF5, false, fun a _ => !a)],
      wd.op = x.2.1 → Fits i wd { a := .pred, b := if x.2.2.1 then .pred else .no, d := .p, predZero := true } → Answers x.1 s fun t =>
        PredicateResult i wd u t lanes (fun l => x.2.2.2 (predBit i.g wd.s0 l) (predBit i.g wd.s1 l)) 0) ∧
    (wd.op = 0xF7 → Fits i wd { a := .sca 2, d := .p, predZero := true } → Answers (.s2p r w e) s fun t =>
      PredicateResult i wd u t lanes (fun l => (operandPair u i wd 0 (scalarLane i)).testBit l) 0) ∧
    (wd.op = 0xF6 → Fits i wd { a := .pred, d := .s 2, predZero := true } → wd.dst + 2 ≤ 128 → Answers (.ballot r w e) s fun t =>
      ∃ m, ScalarResult i wd u t [BitVec.ofNat 32 m, BitVec.ofNat 32 (m / 2 ^ 32)] 0 ∧
        ∀ l, m.testBit l = (decide (l ∈ pathExec i) && predBit i.g wd.s0 l)) ∧
    (wd.op = 0xF8 → Fits i wd { d := .s 2, predZero := true } → Answers (.rdexec r w e) s fun t =>
      ScalarResult i wd u t [BitVec.ofNat 32 i.g.exec, BitVec.ofNat 32 (i.g.exec / 2 ^ 32)] 0) ∧
    (wd.op = 0xF9 → Fits i wd { a := .sca 2, predZero := true } → Answers (.wrexec r w e) s fun t =>
      (getCores t i.d).vrf = (getCores u i.d).vrf ∧ GroupStep i wd u t 0 (fun g => g.sregs = i.g.sregs ∧ g.preds = i.g.preds ∧
        ∀ l, g.exec.testBit l = (decide (l < i.x.width) && (operandPair u i wd 0 (scalarLane i)).testBit l && !i.g.exited.testBit l))) ∧
    (wd.op = 0x58 → Fits i wd { a := .vec 1, b := .sca 1, d := .s 1 } → actingLanes i wd ≠ [] → Answers (.rdlane r w e) s fun t =>
      ScalarResult i wd u t [operand u i wd 0 0 ((operand u i wd 1 0 (scalarLane i)).toNat % i.x.width)] 0)

/-- R212, R234, Table 8.8, Table 8.20: the scalar forms: the vector instruction's result on scalar operands, 64-bit sums and differences
modulo 2^64, the flags read and cleared, the die's time, `nop`. -/
def Obligations.ScalarInstructions : Prop :=
  ∀ (s u : State) (r : GRef) (w e : W64) (i : Issue), IssuesWord s r w e i u → Canonical i u → let wd := wdOf w e
    let l := scalarLane i
    let pair (v : Nat) : List W32 := [BitVec.ofNat 32 v, BitVec.ofNat 32 (v / 2 ^ 32)]
    (∀ o, o ≤ 8 → wd.op = 0x80 + o → Fits i wd (scalarUse (aluSrcs o) (.s 1) true) → Answers (.scalarAlu r w e) s fun t =>
      let x := aluF o wd.strict (fOperand u i wd 0 l) (fOperand u i wd 1 l) (fOperand u i wd 2 l)
      ScalarResult i wd u t [x.v] x.fl) ∧
    (∀ o, 0x40 ≤ o → o ≤ 0x56 → o ≠ 0x55 → wd.op = 0x80 + o → Fits i wd (scalarUse (aluSrcs o) (.s 1) false) →
      Answers (.scalarAlu r w e) s fun t =>
        ScalarResult i wd u t [aluI o (operand u i wd 0 0 l) (operand u i wd 1 0 l) (operand u i wd 2 0 l)] 0) ∧
    (wd.op = 0x80 + 0x55 → Fits i wd { a := .sca 1, b := .sca 1, c := .pred, d := .s 1, predZero := true } →
      Answers (.scalarAlu r w e) s fun t =>
        ScalarResult i wd u t [if predBit i.g wd.s2 l then operand u i wd 0 0 l else operand u i wd 1 0 l] 0) ∧
    (∀ o, 0x10 ≤ o → o ≤ 0x15 → wd.op = 0x80 + o → Fits i wd (scalarUse 2 .p true) → Answers (.scalarAlu r w e) s fun t =>
      let x := fCmp wd.strict (o - 0x10) (fOperand u i wd 0 l) (fOperand u i wd 1 l)
      PredicateResult i wd u t (countUp 0 i.x.width) (fun _ => x.1) x.2) ∧
    (∀ o, 0x59 ≤ o → o ≤ 0x62 → wd.op = 0x80 + o → Fits i wd (scalarUse 2 .p false) → Answers (.scalarAlu r w e) s fun t =>
      PredicateResult i wd u t (countUp 0 i.x.width) (fun _ => setI o (operand u i wd 0 0 l) (operand u i wd 1 0 l)) 0) ∧
    (wd.op = 0xF0 → Fits i wd { a := .sca 2, b := .sca 2, d := .s 2, predZero := true } → Answers (.sadd64 r w e) s fun t =>
      ScalarResult i wd u t (pair ((operandPair u i wd 0 l + operandPair u i wd 1 l) % 2 ^ 64)) 0) ∧
    (wd.op = 0xF1 → Fits i wd { a := .sca 2, b := .sca 2, d := .s 2, predZero := true } → Answers (.ssub64 r w e) s fun t =>
      ScalarResult i wd u t (pair (((operandPair u i wd 0 l : Int) - operandPair u i wd 1 l) % 2 ^ 64).toNat) 0) ∧
    (wd.op = 0x303 → Fits i wd { d := .s 1, predZero := true } → Answers (.rdflags r w e) s fun t =>
      ScalarResult i wd u t [BitVec.ofNat 32 (i.g.flags % 256)] 0) ∧
    (wd.op = 0x304 → Fits i wd { a := .sca 1, predZero := true } → Answers (.clrflags r w e) s fun t =>
      CoresOnly i.d u t ∧ (getCores t i.d).vrf = (getCores u i.d).vrf ∧ ∃ g, groupOf t i.d i.gid = some g ∧ g.sregs = i.g.sregs ∧
        g.preds = i.g.preds ∧ g.exec = i.g.exec ∧ ∀ k, g.flags.testBit k =
          (i.g.flags.testBit k && !(decide (k < 8) && (operand u i wd 0 0 l).toNat.testBit k))) ∧
    (wd.op = 0x305 → Fits i wd { d := .s 2, predZero := true } → Answers (.rdtime r w e) s fun t =>
      ScalarResult i wd u t (pair (dtime u i.d)) 0) ∧
    (wd.op = 0x306 → Fits i wd { predZero := true } → Answers (.nop r w e) s fun t => ScalarResult i wd u t [] 0)

/-- R186, R192, R195, R199, R215 to R217, R226, R227: conversions and the matrix instruction. `cvt` puts the converted code into its
position of DST and keeps the rest; `mxq` quantises each block of 32 lanes under one scale, in every lane; `mxdq` gives element times
2^(scale - 127); `mma` is issued under MCNT with its 256 results, INT8 products summed exactly modulo 2^32. -/
def Obligations.ConvertAndMatrixInstructions : Prop :=
  ∀ (s u : State) (r : GRef) (w e : W64) (i : Issue), IssuesWord s r w e i u → Canonical i u → let wd := wdOf w e
    let lo := fldN wd.mod 3 0
    let hi := fldN wd.mod 7 4
    let dp := fldN wd.mod 9 8
    let sp := fldN wd.mod 11 10
    (wd.op = 0x100 → Fits i wd { a := .reg 1, d := .v 1, mods := 0xFFF } → cvtListed hi lo = true → dp < fmtPositions lo →
      sp < fmtPositions hi → Answers (.cvt r w e) s fun t => VectorResult i wd u t (fun l =>
        ⟨putCode lo dp (readV u i wd.dst l) (convert wd.strict hi lo (takeCode hi sp (operand u i wd 0 0 l))).1,
          (convert wd.strict hi lo (takeCode hi sp (operand u i wd 0 0 l))).2⟩)) ∧
    (wd.op = 0x101 → Fits i wd { a := .reg 1, d := .v 1, mods := 0xF, predZero := true } → mxCode lo = true → 32 ≤ i.x.width →
      Answers (.mxq r w e) s fun t =>
        let block (n : Nat) := mxQuant wd.strict lo ((countUp (32 * n) 32).map (fun l => operand u i wd 0 0 l))
        (∀ n k, n < i.x.width / 32 → k < 32 → mget 0 (getCores t i.d).vrf (vreg i wd.dst (32 * n + k)) =
          BitVec.ofNat 32 (lget 0 (block n).2.1 k % 256 + 256 * (block n).1)) ∧
        (∀ k, (∀ l, l < 32 * (i.x.width / 32) → k ≠ vreg i wd.dst l) →
          mget 0 (getCores t i.d).vrf k = mget 0 (getCores u i.d).vrf k) ∧
        GroupStep i wd u t ((countUp 0 (i.x.width / 32)).foldl (fun a n => a ||| (block n).2.2) 0)
          (fun g => g.sregs = i.g.sregs ∧ g.preds = i.g.preds ∧ g.exec = i.g.exec)) ∧
    (wd.op = 0x102 → Fits i wd { a := .reg 1, b := .reg 1, d := .v 1, mods := 0xCF0 } → mxCode hi = true →
      Answers (.mxdq r w e) s fun t => VectorResult i wd u t (fun l =>
        mxDequant wd.strict hi ((operand u i wd 0 0 l).toNat / 2 ^ (8 * sp) % 256) ((operand u i wd 1 0 l).toNat % 256))) ∧
    (wd.op = 0x240 → Fits i wd (mmaUse i wd) → mmaLegal i wd = true → i.g.mq.length < 63 → 0 < i.x.width → Answers (.mma r w e) s fun t =>
      let c (k : Nat) : W32 := if wd.mod.testBit 9 then 0 else readV u i (wd.s2 + k / i.x.width) (k % i.x.width)
      let ia := imageNat u i wd.s0 (imageBytes lo)
      let ib := imageNat u i wd.s1 (imageBytes hi)
      OpIssued i wd u t (·.mq) (fun op => op.dst = wd.dst ∧ op.kind = .fixed ∧ op.result.length = 256 ∧
        op.dests = op.result.map (fun x => (x.1, x.2.1)) ∧
        (lo = 10 → op.flags = 0 ∧ ∀ m n, m < 16 → n < 16 →
          op.result[16 * m + n]? = some (wd.dst + (16 * m + n) / i.x.width, (16 * m + n) % i.x.width,
            c (16 * m + n) + BitVec.ofInt 32 (((countUp 0 16).map (fun k =>
              sx 8 (ia / 2 ^ (8 * (16 * m + k))) * sx 8 (ib / 2 ^ (8 * (16 * k + n))))).sum))) ∧
        (lo ≠ 10 → ∀ k, k < 256 → op.result[k]? = some (wd.dst + k / i.x.width, k % i.x.width,
          (lget ⟨0, 0⟩ (mmaFloat wd.strict lo hi (fldN wd.mod 8 8) ia ib (if mmaMx lo then imageNat u i (fld wd.e 7 0) 16 else 0)
            (if mmaMx hi then imageNat u i (fld wd.e 15 8) 16 else 0) c) k).v))))

/-- R157, R160 to R163, R194, R219 to R222, R229: loads, stores and atomics as they issue. Each acting lane's address is translated, the
lowest lane first; the operation goes last under VCNT or SCNT with its accesses, its data as the registers stand; memory changes only
when it completes. A load takes what the near cache holds and waits for fills of the rest; with 16 fills in flight it stalls with what it
has begun, and goes on from there. An address that cannot be translated is a core fault with no access in any lane. -/
def Obligations.MemoryInstructionsIssue : Prop :=
  ∀ (s u v : State) (r : GRef) (w e : W64) (i : Issue) (ps : List (Nat × Nat)), IssuesWord s r w e i u →
    mwf ({ lines := [], fills := [] } : NearCache) (getCores s i.d).near = true → let wd := wdOf w e
    let size := fldN wd.mod 4 2
    let addr := fldN wd.mod 7 6
    let hint := fldN wd.mod 1 0
    let sgn := wd.mod.testBit 5
    let bytes := sizeBytes size
    let lanes := (actingLanes i wd).map (fun l => (l, laneAddr u i wd addr l))
    let one := [(0, laneAddr u i wd 2 (scalarLane i))]
    let near := nearOf v i.d i.b.core
    let todo := (i.g.part.map (fun o => o.access)).getD (ps.map (fun p => ({ lane := p.1, pa := p.2, bytes := bytes, got := none } : LaneAccess)))
    let begun := beginAccesses (hint == 0) (hint == 2) todo near []
    let bad := todo.find? (fun a => a.got.isNone && nearPoison near a.pa)
    let loads (c : Instr) (sc : Bool) (q : Nat × Nat → Prop) : Prop :=
      (hint = 3 ∨ (bad = none ∧ begun.2.2 = true) → Answers c s fun t =>
        OpIssued i wd v t (·.vq) (fun op =>
          ((i.g.part = none ∨ hint = 3) → op.kind = .load bytes sgn sc (hint == 3) ∧ op.dst = wd.dst ∧
            op.access.map (fun a => (a.lane, a.pa, a.bytes)) = ps.map (fun p => (p.1, p.2, bytes)) ∧ ∀ x, x ∈ op.dests ↔ q x) ∧
          (hint = 3 → ∀ a ∈ op.access, a.got = none) ∧
          (hint ≠ 3 → op.access = begun.1 ∧ (i.g.part = none → ∀ a ∈ op.access, a.got = nearBytes near a.pa bytes))) ∧
        (hint ≠ 3 → nearOf t i.d i.b.core = begun.2.1 ∧ ∀ a ∈ begun.1, a.got = none →
          ∃ f ∈ (nearOf t i.d i.b.core).fills, f.line = a.pa / 128)) ∧
      (hint ≠ 3 → bad = none → begun.2.2 = false → Answers c s fun t =>
        t = { setCores v i.d (getCores t i.d) with nextId := v.nextId + 1 } ∧ (getCores t i.d).vrf = (getCores v i.d).vrf ∧
          nearOf t i.d i.b.core = begun.2.1 ∧ ∃ y, groupOf t i.d i.gid = some y ∧ y.waiting = true ∧ y.paths = i.g.paths ∧ y.vq = i.g.vq ∧
            ∃ op, y.part = some op ∧ op.access = begun.1) ∧
      (∀ a, hint ≠ 3 → bad = some a → Answers c s fun t => t = useFree (coreFault v i.d i.gid 0x0317 0xFF a.pa none))
    (wd.op = 0x180 → Fits i wd { a := (addrSrc addr).1, b := (addrSrc addr).2, d := .v (sizeRegs size), mods := 0xFF } → size ≤ 4 → addr ≤ 2 →
      (sgn = true → size ≤ 1) → resolveLanes i.d i.x.ctx false bytes lanes u [] = (.ok ps, v) → i.g.vq.length < 63 →
      loads (.ld r w e) false (fun x => (∃ p ∈ ps, p.1 = x.2) ∧ wd.dst ≤ x.1 ∧ x.1 < wd.dst + sizeRegs size)) ∧
    (wd.op = 0x182 → Fits i wd { a := .sca 2, d := .s (sizeRegs size), mods := 0xFF, predZero := true } → size ≤ 5 → addr = 2 →
      (sgn = true → size ≤ 1) → resolveLanes i.d i.x.ctx false bytes one u [] = (.ok ps, v) → i.g.vq.length < 63 →
      loads (.sld r w e) true (fun x => x.2 = 0 ∧ wd.dst ≤ x.1 ∧ x.1 < wd.dst + sizeRegs size)) ∧
    (wd.op = 0x181 → Fits i wd { a := (addrSrc addr).1, b := (addrSrc addr).2, c := .reg (sizeRegs size), mods := 0xFF } → size ≤ 4 → addr ≤ 2 →
      sgn = false → resolveLanes i.d i.x.ctx true bytes lanes u [] = (.ok ps, v) → i.g.sq.length < 63 → Answers (.st r w e) s fun t =>
        OpIssued i wd v t (·.sq) (fun op => op.kind = .store (ps.flatMap (fun p => cellsAt p.2 (dataBytes v i wd 2 size p.1))))) ∧
    (wd.op = 0x183 → Fits i wd { a := .sca 2, c := .sca (sizeRegs size), mods := 0xFF, predZero := true } → size ≤ 5 → addr = 2 →
      sgn = false → resolveLanes i.d i.x.ctx true bytes one u [] = (.ok ps, v) → i.g.sq.length < 63 → Answers (.sst r w e) s fun t =>
        OpIssued i wd v t (·.sq) (fun op =>
          op.kind = .store (ps.flatMap (fun p => cellsAt p.2 (dataBytes v i wd 2 size (scalarLane i)))))) ∧
    (∀ x ∈ [(Instr.atomAdd r w e, [(0x280 : Nat)], true, false), (.atomAddF32 r w e, [0x281], false, false),
        (.atomMinMax r w e, [0x282, 0x283, 0x284, 0x285], false, false), (.atomLogic r w e, [0x286, 0x287, 0x288], false, false),
        (.atomExch r w e, [0x289], true, false), (.atomCas r w e, [0x28A], true, true)],
      let cas := x.2.2.2
      let n := sizeRegs size
      let ext := cas && addr == 1
      wd.op ∈ x.2.1 → Fits i wd (atomicUse cas addr n sgn) → (size = 2 ∨ size = 3 ∧ x.2.2.1 = true) → addr ≤ 2 →
      (ext = true → wd.ext = true ∧ fld wd.e 31 0 = 0 ∧ fld wd.e 63 40 = 0 ∧ casExtReg wd % n = 0 ∧ casExtReg wd + n ≤ i.x.vregs) →
      resolveLanes i.d i.x.ctx true bytes lanes u [] = (.ok ps, v) →
      let acts (op : CountedOp) : Prop := op.access.map (fun a => (a.lane, a.pa, a.bytes)) = ps.map (fun p => (p.1, p.2, bytes)) ∧
        ∃ args, op.kind = .atomic (wd.op - 0x280) (8 * bytes) sgn args ∧ args.map (fun a => a.1) = ps.map (fun p => p.1) ∧
          ∀ a ∈ args, a.2.1 = atomicArg v i wd (if addr = 1 then 2 else 1) (8 * bytes) a.1 ∧
            (ext = false → a.2.2 = if cas then atomicArg v i wd 2 (8 * bytes) a.1 else 0) ∧
            (ext = true → size = 2 → a.2.2 = BitVec.ofNat 64 (readV v i (casExtReg wd) a.1).toNat)
      (sgn = true → i.g.vq.length < 63 → Answers x.1 s fun t => OpIssued i wd v t (·.vq) (fun op => acts op ∧ op.dst = wd.dst)) ∧
      (sgn = false → i.g.sq.length < 63 → Answers x.1 s fun t => OpIssued i wd v t (·.sq) acts)) ∧
    (∀ f, wd.op = 0x180 → Fits i wd { a := (addrSrc addr).1, b := (addrSrc addr).2, d := .v (sizeRegs size), mods := 0xFF } → size ≤ 4 →
      addr ≤ 2 → (sgn = true → size ≤ 1) → resolveLanes i.d i.x.ctx false bytes lanes u [] = (.error f, v) → Answers (.ld r w e) s fun t =>
        t = useFree (coreFault v i.d i.gid f.1 f.2.1 f.2.2 none) ∧ ∀ p, memByte t p = memByte s p)

/-- R166 to R168, R223: tile memory, for the groups of a dispatch. Loads and stores act at once in the block's own allocation; tile atomics act in ascending lane
order, each old value reflecting the lanes before it. Device memory is unchanged. An offset beyond the allocation, or misaligned, is
a core fault. -/
def Obligations.TileMemoryInstructions : Prop :=
  ∀ (s u : State) (r : GRef) (w e : W64) (i : Issue), IssuesWord s r w e i u → Canonical i u → mwf 0 (getCores u i.d).tile = true →
    i.x.geo = none → let wd := wdOf w e
    let size := fldN wd.mod 4 2
    let n := sizeBytes size
    let at_ (l : Nat) : Nat := tileAddr u i wd l
    let byte (t : State) (o : Nat) : Byte := mget 0 (getCores t i.d).tile (tileCell i o)
    let others (t : State) (P : Nat → Prop) : Prop := ∀ k, (∀ o, P o → k ≠ tileCell i o) →
      mget 0 (getCores t i.d).tile k = mget 0 (getCores u i.d).tile k
    ¬ (srcScalar wd 0 = true ∧ wd.s0 = 0x80) →
    (wd.op = 0x1C0 → Fits i wd { a := .reg 1, d := .v (sizeRegs size), mods := 0x3C } → size ≤ 4 → (wd.mod.testBit 5 = true → size ≤ 1) →
      (tileFault i n ((actingLanes i wd).map (fun l => (l, at_ l))) = none → Answers (.tld r w e) s fun t =>
        (∀ l ∈ actingLanes i wd, ∀ k, k < sizeRegs size → mget 0 (getCores t i.d).vrf (vreg i (wd.dst + k) l) =
          loadWord n (wd.mod.testBit 5) (tileRead u i (at_ l) n) k) ∧
        (∀ k, (∀ l ∈ actingLanes i wd, ∀ j, j < sizeRegs size → k ≠ vreg i (wd.dst + j) l) →
          mget 0 (getCores t i.d).vrf k = mget 0 (getCores u i.d).vrf k) ∧
        GroupStep i wd u t 0 (fun g => g.sregs = i.g.sregs ∧ g.preds = i.g.preds ∧ g.exec = i.g.exec)) ∧
      (∀ f, tileFault i n ((actingLanes i wd).map (fun l => (l, at_ l))) = some f → Answers (.tld r w e) s fun t =>
        t = useFree (coreFault u i.d i.gid f.1 0 f.2 none))) ∧
    (wd.op = 0x1C1 → Fits i wd { a := .reg 1, c := .reg (sizeRegs size), mods := 0x5C } → size ≤ 4 →
      tileFault i n ((actingLanes i wd).map (fun l => (l, at_ l))) = none → Answers (.tst r w e) s fun t =>
        CoresOnly i.d u t ∧ (getCores t i.d).vrf = (getCores u i.d).vrf ∧ others t (fun o => ∃ l ∈ actingLanes i wd, at_ l ≤ o ∧ o < at_ l + n) ∧
        (wd.mod.testBit 6 = false → ∀ pre l post, actingLanes i wd = pre ++ l :: post → (∀ m ∈ post, at_ m + n ≤ at_ l ∨ at_ l + n ≤ at_ m) →
          ∀ k, k < n → byte t (at_ l + k) = lget 0 (dataBytes u i wd 2 size l) k) ∧
        ∃ g, groupOf t i.d i.gid = some g ∧ g.sregs = i.g.sregs ∧ g.preds = i.g.preds ∧ g.flags = i.g.flags) ∧
    (∀ x ∈ [(Instr.tatomInt r w e, (0x1C2 : Nat), false, (0 : Nat)), (.tatomInt r w e, 0x1C3, false, 4), (.tatomInt r w e, 0x1C4, false, 5),
        (.tatomInt r w e, 0x1C5, false, 6), (.tatomInt r w e, 0x1C6, false, 7), (.tatomInt r w e, 0x1C7, false, 8),
        (.tatomInt r w e, 0x1CB, false, 2), (.tatomInt r w e, 0x1CC, false, 3), (.tatomExch r w e, 0x1C8, false, 9),
        (.tatomCas r w e, 0x1C9, true, 10), (.tatomAddF32 r w e, 0x1CA, false, 1)],
      wd.op = x.2.1 → Fits i wd { a := .reg 1, b := .reg 1, c := if x.2.2.1 then .reg 1 else .no, d := .v 1, mods := 0x1C } → size = 2 →
      tileFault i 4 ((actingLanes i wd).map (fun l => (l, at_ l))) = none → Answers x.1 s fun t =>
        let after (l : Nat) (ls : List Nat) : Nat := (ls.filter (fun m => at_ m == at_ l)).foldl (fun a m =>
          atomicNew x.2.2.2 32 a (operand u i wd 1 0 m).toNat (operand u i wd 2 0 m).toNat) (leNat (tileRead u i (at_ l) 4))
        (∀ pre l post, actingLanes i wd = pre ++ l :: post →
          mget 0 (getCores t i.d).vrf (vreg i wd.dst l) = BitVec.ofNat 32 (after l pre)) ∧
        (∀ l ∈ actingLanes i wd, leNat (tileRead t i (at_ l) 4) = after l (actingLanes i wd)) ∧
        CoresOnly i.d u t ∧ others t (fun o => ∃ l ∈ actingLanes i wd, at_ l ≤ o ∧ o < at_ l + 4) ∧
        (∀ k, (∀ l ∈ actingLanes i wd, k ≠ vreg i wd.dst l) → mget 0 (getCores t i.d).vrf k = mget 0 (getCores u i.d).vrf k) ∧
        ∃ g, groupOf t i.d i.gid = some g ∧ g.sregs = i.g.sregs ∧ g.preds = i.g.preds ∧ (x.2.2.2 ≠ 1 → g.flags = i.g.flags))

/-- R157, R224, R225, R265: textures. A result operation goes last under TCNT with the components of MASK for each acting lane: the
sample of `tex`, the texel of `texld`, the sizes of `texq`; a descriptor with a reserved encoding gives zeros. `texst` stores its
texels under SCNT, and nothing through such a descriptor. -/
def Obligations.TextureInstructions : Prop :=
  ∀ (s u v z : State) (r : GRef) (w e : W64) (i : Issue) (b : List Byte) (d : TexDesc), IssuesWord s r w e i u → actingLanes i (wdOf w e) ≠ [] →
    let wd := wdOf w e
    let m := texMod wd
    let result (vs : List (Nat × List W32)) (op : CountedOp) : Prop := op.kind = .fixed ∧ op.dst = wd.dst ∧ op.flags = 0 ∧
      (∀ x, x ∈ op.result ↔ ∃ y ∈ vs, ∃ k, k < 4 ∧ m.mask.testBit k = true ∧ x = (wd.dst + k, y.1, lget 0 y.2 k)) ∧
      op.dests = op.result.map (fun x => (x.1, x.2.1))
    let quads (n : Nat) : Prop := Fits i wd { a := if n = 0 then .no else .reg n, b := .sca 2, d := .v 4, mods := 0x3FF } ∧ i.g.tq.length < 63
    (∀ sm vs, wd.op = 0x200 → quads (coordRegs m) → 0 < coordRegs m → texBytes u i wd 96 = (.ok b, v) → texDescOf b = some d →
      texAgrees m d = true → samplerOf (b.drop 64) = some sm → texLanes (fun l t => texLane t i wd d sm l) (actingLanes i wd) v [] = (.ok vs, z) →
      Answers (.tex r w e) s fun t => OpIssued i wd z t (·.tq) (result vs)) ∧
    (∀ vs, wd.op = 0x201 → quads (coordRegs m) → 0 < coordRegs m → texBytes u i wd 64 = (.ok b, v) → texDescOf b = some d →
      texAgrees m d = true → texLanes (fun l t => texldLane t i wd d l) (actingLanes i wd) v [] = (.ok vs, z) →
      Answers (.texld r w e) s fun t => OpIssued i wd z t (·.tq) (result vs)) ∧
    (wd.op = 0x203 → quads 0 → texBytes u i wd 64 = (.ok b, v) → texDescOf b = some d → texAgrees m d = true →
      Answers (.texq r w e) s fun t => OpIssued i wd v t (·.tq) (result ((actingLanes i wd).map (fun l =>
        (l, [BitVec.ofNat 32 d.w, BitVec.ofNat 32 d.h, BitVec.ofNat 32 d.depth, BitVec.ofNat 32 d.levels]))))) ∧
    (∀ x ∈ [(Instr.tex r w e, (0x200 : Nat), (96 : Nat)), (.texld r w e, 0x201, 64), (.texq r w e, 0x203, 64)], wd.op = x.2.1 →
      quads (if wd.op = 0x203 then 0 else coordRegs m) → 0 < coordRegs m → texBytes u i wd x.2.2 = (.ok b, v) → texDescOf b = none →
      Answers x.1 s fun t => OpIssued i wd v t (·.tq) (result ((actingLanes i wd).map (fun l => (l, [0, 0, 0, 0]))))) ∧
    (wd.op = 0x202 → Fits i wd { a := .reg (coordRegs m), b := .sca 2, c := .reg 4, mods := 0x3FF } → texBytes u i wd 64 = (.ok b, v) →
      i.g.sq.length < 63 →
      (∀ xs, texDescOf b = some d → texAgrees m d = true → isTarget d.fmt = true → d.metaVa = 0 →
        texstLanes i wd d (actingLanes i wd) v [] = (.ok xs, z) → Answers (.texst r w e) s fun t =>
          OpIssued i wd z t (·.sq) (fun op => op.kind = .store (xs.flatMap (fun x => x.2.2)))) ∧
      (texDescOf b = none → Answers (.texst r w e) s fun t => OpIssued i wd v t (·.sq) (fun op => op.kind = .store [])))

/-- R149 to R157, R165, R230 to R233: control flow, barriers and waits of a group of one path. A branch goes on, goes to its target, or
splits the path with a join; `call` leaves the return address; `exit` takes lanes out for good, the group with the last; a barrier
holds a path until all lanes of the block have arrived or exited; `wait` holds the group while a counter is above its threshold. -/
def Obligations.ControlFlowInstructions : Prop :=
  ∀ (s u : State) (r : GRef) (w e : W64) (i : Issue), IssuesWord s r w e i u → i.g.paths = [.path i.pc i.mask none none] → i.g.cur = 0 →
    let wd := wdOf w e
    let goes (t : State) (ps : List PathEntry) (P : Group → Prop) : Prop := CoresOnly i.d u t ∧ (getCores t i.d).vrf = (getCores u i.d).vrf ∧
      (getCores t i.d).tile = (getCores u i.d).tile ∧ ∃ g, groupOf t i.d i.gid = some g ∧ g.paths = ps ∧ g.flags = i.g.flags ∧ P g
    let kept (g : Group) : Prop := g.sregs = i.g.sregs ∧ g.preds = i.g.preds ∧ g.exec = i.g.exec ∧ g.exited = i.g.exited
    let target := pcPlus i.pc (sx 32 (fld wd.e 31 0))
    (wd.op = 0x2C0 → Fits i wd {} → wd.ext = true → fld wd.e 2 0 = 0 → fld wd.e 34 32 = 0 →
      let join := pcPlus i.pc (sx 32 (fld wd.e 63 32))
      let taken := (pathExec i).filter (fun l => predBit i.g wd.pred l != wd.pneg)
      (taken = [] → Answers (.br r w e) s fun t => goes t [.path (i.pc + 16) i.mask none none] kept) ∧
      (taken ≠ [] → taken = pathExec i → Answers (.br r w e) s fun t => goes t [.path target i.mask none none] kept) ∧
      (taken ≠ [] → taken ≠ pathExec i → join ≠ i.pc + 16 → join ≠ target → Answers (.br r w e) s fun t => ∃ m,
        (∀ l, m.testBit l = decide (l ∈ taken)) ∧ goes t [.join join i.mask 0 none, .path (i.pc + 16) (i.mask - m) (some join) none,
          .path target m (some join) none] kept)) ∧
    (wd.op = 0x2C1 → Fits i wd { d := .s 2, predZero := true } → wd.ext = true → wd.pneg = false → fld wd.e 2 0 = 0 → fld wd.e 63 32 = 0 →
      mwf 0 i.g.sregs = true → Answers (.call r w e) s fun t => goes t [.path target i.mask none none] (fun g =>
        mget 0 g.sregs wd.dst = BitVec.ofNat 32 (i.pc + 16) ∧ mget 0 g.sregs (wd.dst + 1) = BitVec.ofNat 32 ((i.pc + 16) / 2 ^ 32) ∧
        (∀ k, k ≠ wd.dst → k ≠ wd.dst + 1 → mget 0 g.sregs k = mget 0 i.g.sregs k) ∧ g.preds = i.g.preds ∧ g.exec = i.g.exec)) ∧
    (wd.op = 0x2C2 → Fits i wd { a := .sca 2, predZero := true } → wd.pneg = false → Answers (.ret r w e) s fun t =>
      goes t [.path (operandPair u i wd 0 (scalarLane i)) i.mask none none] kept) ∧
    (wd.op = 0x2C3 → Fits i wd {} → i.x.geo = none → (getCores s i.d).groups.Pairwise (fun a b => a.1 < b.1) → i.mask < 2 ^ i.x.width →
      let out (l : Nat) : Bool := i.mask.testBit l && (predBit i.g wd.pred l != wd.pneg)
      ((∀ l, i.mask.testBit l = true → out l = true) → Answers (.exit r w e) s fun t =>
        (∀ y, groupOf t i.d i.gid = some y → y.paths = []) ∧ ∀ p, memByte t p = memByte s p) ∧
      ((∃ l, l < i.x.width ∧ i.mask.testBit l = true ∧ out l = false) → i.b.arrivals = [] → Answers (.exit r w e) s fun t => ∃ m,
        (∀ l, m.testBit l = out l) ∧ goes t [.path (i.pc + wdLen wd) (i.mask - m) none none] (fun g => g.exited = i.g.exited ||| m ∧
          g.sregs = i.g.sregs ∧ g.preds = i.g.preds ∧ ∀ l, g.exec.testBit l = (i.g.exec.testBit l && !m.testBit l)))) ∧
    (wd.op = 0x2C4 → Fits i wd { mods := 0xF } → (getCores s i.d).groups.Pairwise (fun a b => a.1 < b.1) →
      let b := fldN wd.mod 3 0
      (∀ a ∈ i.b.arrivals, a = b) →
      let there := arrivedAt u i.d i.g.block b + popcount 64 i.mask + exitedLanes u i.d i.g.block i.x
      (there ≠ i.x.groups * i.x.width → Answers (.bar r w e) s fun t => goes t [.path (i.pc + wdLen wd) i.mask none (some b)] kept ∧
        ∃ k, blockOf t i.d i.g.block = some k ∧ b ∈ k.arrivals) ∧
      (there = i.x.groups * i.x.width → i.b.arrivals.length ≤ 1 → Answers (.bar r w e) s fun t =>
        goes t [.path (i.pc + wdLen wd) i.mask none none] kept ∧ ∃ k, blockOf t i.d i.g.block = some k ∧ k.arrivals = [] ∧ k.watch = 0)) ∧
    (wd.op = 0x300 → Fits i wd { a := .raw 64, b := .raw 64, c := .raw 64, d := .raw 64, predZero := true } →
      let met := i.g.vq.length ≤ wd.s0 ∧ i.g.sq.length ≤ wd.s1 ∧ i.g.tq.length ≤ wd.s2 ∧ i.g.mq.length ≤ wd.dst
      (met → Answers (.wait r w e) s fun t => goes t [.path (i.pc + wdLen wd) i.mask none none] kept) ∧
      (¬ met → Answers (.wait r w e) s fun t => goes t i.g.paths (fun g => g.waiting = true ∧ kept g))) ∧
    (wd.op = 0x301 → Fits i wd { a := .sca 1, predZero := true } → let c := (operand u i wd 0 0 (scalarLane i)).toNat
      Answers (.sleep r w e) s fun t => goes t [.path (i.pc + wdLen wd) i.mask none none] (fun g => kept g ∧ g.active = false ∧
        (1 ≤ c → c ≤ 2 ^ 20 → ∃ n, g.sleepUntil = some (s.now + n) ∧ c * 10 ≤ n * 11 ∧ n * 11 < c * 10 + 11))) ∧
    (wd.op = 0x302 → Fits i wd { predZero := true } → Answers (.invNear r w e) s fun t =>
      goes t [.path (i.pc + wdLen wd) i.mask none none] kept ∧ (nearOf t i.d i.b.core).lines = [] ∧
      ∀ f ∈ (nearOf t i.d i.b.core).fills, f.prefetch = false ∧ f.noInstall = true)

/-- R205, R211: a word whose opcode no table lists is ILLEGAL_OP in every row; a word that fails the rules of its operands is too, and one
that names a register beyond the kernel's is REG_RANGE; a fetch that fails is the core fault of its cause. The context is FAULTED. -/
def Obligations.IllegalShaderWords : Prop :=
  ∀ (s : State) (r : GRef) (w e : W64) (i : Issue), issueOf s r = some i → i.x.dead = false →
    (ctxOf s 0 i.x.ctx).state = .live → resettingTenant s (ctxOf s 0 i.x.ctx).tenant = false →
    let faults (c : Instr) (u : State) (code cause addr : Nat) : Prop := Answers c s fun t =>
      t = useFree (coreFault u i.d i.gid code cause addr none) ∧ (ctxOf t 0 i.x.ctx).state = .faulted ∧ ∀ p, memByte t p = memByte s p
    (∀ c ∈ isaRows,
      (∀ u, codeWord s i.d i.x.ctx i.pc = (.ok w, u) → opListed (wdOf w e).op = false → faults (c r w e) u 0x0315 0 0) ∧
      (∀ u code cause, codeWord s i.d i.x.ctx i.pc = (.error (code, cause), u) → faults (c r w e) u code cause i.pc)) ∧
    (∀ u, IssuesWord s r w e i u → ∀ x ∈ [(Instr.add r w e, (0x40 : Nat), aluUse 2 (.v 1) false), (.mad r w e, 0x43, aluUse 3 (.v 1) false),
        (.addF32 r w e, 0, aluUse 2 (.v 1) true), (.setInt r w e, 0x59, aluUse 2 .p false), (.sqrt r w e, 0x142, aluUse 1 (.v 1) true)],
      (wdOf w e).op = x.2.1 →
        (wordLegal (wdOf w e) x.2.2 = false → faults x.1 u 0x0315 0 0) ∧
        (wordLegal (wdOf w e) x.2.2 = true → i.x.vregs < wordTop (wdOf w e) x.2.2 → faults x.1 u 0x0313 0 0))

/-- R236 to R241: a render pass begins. A `k.bin` that breaks Table 9.1 ends its record with PROGRAM_FAULT and aborts the pass; the
leader's waits while no die of DIES is lit; an acceptable one is counted and enters the die's list, the leader's with L as it samples it.
The join aborts the pass on every die where a descriptor differs or the pass does not fit, and else begins
binning on every die of L; after 100 ms it is logged once. An aborted pass leaves each die with its record's operation stopped. -/
def Obligations.RenderPassesBeginTogether : Prop :=
  (∀ (s : State) (d : DieId) (x : Submission) (rest : List Submission), (engineOf s d 0).subs = x :: rest → (engineOf s d 0).full = [] → (engineOf s d 0).fenced = false →
    dieRuns s d = true → (ctxOf s d (subCtx s d x)).state ≠ .faulted → (getStk s d).engines.length = 13 → (getStk s d).frames.length = 32 → x.frame < 32 →
    let b := x.desc
    let c := subCtx s d x
    let p := passOfDesc d c (subTenant s d x) x (nextCount s d 0)
    let l := (diesOf p.dies).filter (litForRender s)
    ∀ cmd ∈ [Instr.binAccept d, .submissionAccept d 0],
    (binLegal d b = false → Answers cmd s fun t => (engineOf t d 0).count = (engineOf s d 0).count ∧ (engineOf t d 0).subs = rest ∧
      (frameOf' t d x.frame).park = .ended ∧ getGeo t d = { getGeo s d with err := errCount (errRaise (getGeo s d).err s.now 5) s.now 31 16 1 } ∧
      (∀ n, n ≠ d → n ∈ diesOf p.dies → ∀ q, mateOf s n p = some q → { q with aborted := true } ∈ (getGeo t n).passes) ∧
      ∀ a, memByte t a = memByte s a) ∧
    (binLegal d b = true → p.leader = d → l = [] → endedEntry s d p = none → Absorbed cmd s) ∧
    (∀ (m : Map Nat) (os fo : List Nat) (blk : List Byte) (s1 s2 : State) (hasF : Bool) (fpa rd : Nat), binLegal d b = true → p.leader = d →
      l ≠ [] → endedEntry s d p = none → binSides s d c b = (.ok (m, os, blk), s1) → fenceSide s1 d c b = (.ok (hasF, fpa, fo), s2) →
      pinRoom s2 d (joinObjs os fo) = true → (frameOf' s d x.frame).park = .submitted 0 rd → (frameOf' s d x.frame).walk = none →
      mwf 0 (frameOf' s d x.frame).regs = true → Answers cmd s fun t =>
        (engineOf t d 0).count = ((engineOf s d 0).count + 1) % 2 ^ 32 ∧ (engineOf t d 0).subs = rest ∧
        (frameOf' t d x.frame).park = .ready ∧ (frameOf' t d x.frame).pc = (frameOf' s d x.frame).pc + 4 ∧
        (rd ≠ 0 → rvGet (frameOf' t d x.frame) rd = BitVec.ofNat 32 (engineOf t d 0).count) ∧ (∀ a, memByte t a = memByte s a) ∧
        ∃ q, (getGeo t d).passes = (getGeo s d).passes ++ [q] ∧ q.pass = leAt b 0x10 4 ∧ q.ctx = c ∧ q.dies = leAt b 0x14 1 ∧
          q.stateVa = leAt b 0x18 8 ∧ q.drawsVa = leAt b 0x20 8 ∧ q.drawCount = leAt b 0x28 4 ∧ q.poolKib = leAt b 0x38 4 ∧
          q.lit = some l ∧ q.phase = 0 ∧ q.block = blk ∧ q.pins = joinObjs os fo ∧ q.sub = (engineOf t d 0).count ∧
          q.bins = [] ∧ q.setups = [] ∧ q.aborted = false ∧ q.done = false ∧ q.fence = hasF ∧ q.fencePa = fpa)) ∧
  (∀ (s : State) (leader : DieId) (pass : W32) (p : GeoPass), joining s leader = some p → p.pass = pass.toNat → p.leader = leader →
    dieRuns s leader = true → (∀ n, ((getGeo s n).passes.map (fun q => q.sub)).Nodup) →
    let l := litOf p
    let share := (ctxOf s leader p.ctx).tileShare * 4096
    let aborts (flag : Nat) : Prop := Answers (.passJoin leader pass) s fun t =>
      (∀ n ∈ diesOf p.dies, ∀ q, mateOf s n p = some q → { q with aborted := true } ∈ (getGeo t n).passes) ∧
      (getGeo t leader).err = errRaise (getGeo s leader).err s.now flag ∧ ∀ a, memByte t a = memByte s a
    (notJoined s p ≠ [] → Absorbed (.passJoin leader pass) s ∧
      (p.joinLogged = false → p.since + 100000000 ≤ dtime s leader → Answers (.passJoinWait leader pass) s fun t =>
        { p with joinLogged := true } ∈ (getGeo t leader).passes ∧ (getGeo t leader).err = errRaise (getGeo s leader).err s.now 1 ∧
        (∀ n, n ≠ leader → getGeo t n = getGeo s n) ∧ ∀ a, memByte t a = memByte s a) ∧
      (p.joinLogged = true ∨ dtime s leader < p.since + 100000000 → Absorbed (.passJoinWait leader pass) s)) ∧
    (notJoined s p = [] → Absorbed (.passJoinWait leader pass) s ∧
      ((∃ n ∈ l, ∃ q, joining s n = some q ∧ differs p q = true) → aborts 0) ∧
      ((∀ n ∈ l, ∀ q, joining s n = some q → differs p q = false) →
        (blockOk p.block = false ∨ share < tileFootprint p.block → aborts 2) ∧
        (blockOk p.block = true → tileFootprint p.block ≤ share → Answers (.passJoin leader pass) s fun t =>
          t = { s with geo := t.geo } ∧ ∀ n ∈ diesOf p.dies, ∀ q, mateOf s n p = some q →
            { q with lit := some l, phase := if n ∈ l then 1 else 4, nextChunk := placeIn l n } ∈ (getGeo t n).passes)))) ∧
  (∀ (s : State) (d : DieId) (pass : W32) (p : GeoPass),
    (getGeo s d).passes.find? (fun q => q.pass == pass.toNat && q.aborted) = some p → Answers (.passAbort d pass) s fun t =>
      (getGeo t d).passes = (getGeo s d).passes.filter (fun q => !(q.sub == p.sub)) ∧ OpEnded s t d p.queue p.count true ∧
      (getGeo t d).err = errCount (errRaise (getGeo s d).err s.now 5) s.now 31 16 1 ∧ (∀ n, n ≠ d → getGeo t n = getGeo s n) ∧
      t.signals = s.signals ∧ ∀ a, memByte t a = memByte s a)

/-- R245 to R254: binning. A die's next chunk has its vertex groups launched, one lane for each index, and when they have ended sends its
records to the owners of their super-tiles and a marker to every die of L; a bad draw aborts the pass and faults the context; records and
markers that have arrived over a cord go to the merge of the owner's die in their order, each record into its pool; a flush names the lowest
chunk not finished on every die of L. -/
def Obligations.ChunksAreBinnedAndMerged : Prop :=
  (∀ (s : State) (d : DieId) (pass : W32) (chunk : Nat) (part : ChunkPart) (p : GeoPass), passOf s d pass.toNat = some p →
    let l := litOf p
    let tab := drawTable s d p
    let draws := drawsOf tab chunk
    let mates (u t : State) : Prop := ∀ n ∈ diesOf p.dies, ∀ q, mateOf u n p = some q → ∃ q' ∈ (getGeo t n).passes, q'.sub = q.sub ∧ q'.aborted = true
    let spoilt : Prop := (ctxOf s 0 p.ctx).state = .live → resettingTenant s (ctxOf s 0 p.ctx).tenant = false →
      Answers (.chunkBin d pass chunk part) s fun t => (ctxOf t 0 p.ctx).state = .faulted ∧ mates s t ∧ ∀ a, memByte t a = memByte s a
    ((p.phase ≠ 1 ∨ p.flushTo ≠ none ∨ p.nextChunk ≠ chunk ∨ chunksIn tab ≤ chunk ∨ dieRuns s d = false ∨
      (part = .launch ∧ p.begun ≠ 0) ∨ (part = .finish ∧ p.begun = 0)) → Absorbed (.chunkBin d pass chunk part) s) ∧
    (p.phase = 1 → p.flushTo = none → p.nextChunk = chunk → chunk < chunksIn tab → dieRuns s d = true →
      (part = .launch → p.begun = 0 →
        let may := binFree s d p = true ∧ (countUp 0 (chunk - 8)).all (knownDone p d) = true ∧ flushDue s p (chunksIn tab) = false
        (¬ may → Absorbed (.chunkBin d pass chunk part) s) ∧
        (∀ s1, may → beginChunk d p chunk draws s = (none, s1) → Answers (.chunkBin d pass chunk part) s fun t =>
          t = { setPass s1 d { p with begun := 1, verts := [] } with cores := t.cores, nextId := t.nextId } ∧ (∀ a, memByte t a = memByte s a) ∧
          (∀ n, n ≠ d → getGeo t n = getGeo s n) ∧ ∀ e ∈ (getCores s1 d).dispatches, e ∈ (getCores s d).dispatches ∨
            (e.2.ctx = p.ctx ∧ e.2.groups = 1 ∧ ∃ w, e.2.geo = some w ∧ w.sub = p.sub ∧ w.tile = none ∧ w.draw ∈ draws.map (fun x => x.1) ∧
              ∀ x ∈ w.lanes, x.here = true ∧ x.exec = true ∧ x.regs = [(0, BitVec.ofNat 32 x.index)])) ∧
        (∀ i s1, may → beginChunk d p chunk draws s = (some i, s1) → spoilt)) ∧
      (part = .finish → p.begun ≠ 0 → geoBusy s d p.sub none = true → Answers (.chunkBin d pass chunk part) s fun t =>
        t = { s with cores := t.cores, nextId := t.nextId }) ∧
      (part = .finish → p.begun ≠ 0 → geoBusy s d p.sub none = false →
        (∀ ps s1, prepChunk d p chunk p.verts draws s = (.ready ps, s1) →
          let fits := poolUsed (binChunk p d chunk l.length ps) ≤ 1024 * p.poolKib
          let u := setPass s1 d { p with begun := 2 }
          (fits → Answers (.chunkBin d pass chunk part) s fun t => (∀ a, memByte t a = memByte s a) ∧ (∀ n, n ≠ d → getGeo t n = getGeo s n) ∧
            ∃ q ∈ (getGeo t d).passes, q.sub = p.sub ∧ q.nextChunk = chunk + l.length ∧ q.prims = p.prims + ps.length ∧ q.begun = 0 ∧ q.verts = [] ∧
              ∀ n ∈ l, n ≠ d → ∃ rs : List BinRec, qget q.out n = qget p.out n ++ rs.map BinItem.record ++ [.mark chunk] ∧
                ∀ r ∈ rs, ownerOf p r.sx r.sy = n ∧ r.src = d.val) ∧
          (¬ fits → lowestOpen u p (chunksIn tab) ≤ p.flushed → Answers (.chunkBin d pass chunk part) s fun t => mates u t ∧
            (getGeo t d).err = errRaise (getGeo s d).err s.now 4 ∧ ∀ a, memByte t a = memByte s a) ∧
          (¬ fits → p.flushed < lowestOpen u p (chunksIn tab) → Answers (.chunkBin d pass chunk part) s fun t => t = u)) ∧
        (∀ i s1, prepChunk d p chunk p.verts draws s = (.bad i, s1) → spoilt)))) ∧
  (∀ (s : State) (src dst : DieId) (pass : W32) (p q : GeoPass) (x : CordTx) (n : Nat), src ≠ dst → binHead s src dst = some x →
    cordRuns s (cordIdx src dst) = true → (cordOf s (cordIdx src dst)).state = .up → passOf s src pass.toNat = some p → mateOf s dst p = some q →
    binTx (qget p.away dst) = some (x, n) → dst ∈ litOf q → mwf [] q.bins = true → (getEnds s dst).length = 3 →
    let e := endOf s dst (endTo dst src)
    let moved (t : State) (P : GeoPass → Prop) : Prop := t = { s with geo := t.geo, ends := t.ends, cores := t.cores } ∧
      (∀ m k, m ≠ dst ∨ k ≠ endTo dst src → endOf t m k = endOf s m k) ∧ (endOf t dst (endTo dst src)).inbox = e.inbox.erase x ∧
      (∃ p' ∈ (getGeo t src).passes, p'.sub = p.sub ∧ qget p'.away dst = (qget p.away dst).drop n) ∧
      ∃ q' ∈ (getGeo t dst).passes, q'.sub = q.sub ∧ P q'
    (x.hdr.typ.toNat = 0x20 → Absorbed (.binMark src dst pass) s) ∧ (x.hdr.typ.toNat = 0x21 → Absorbed (.bin src dst pass) s) ∧
    (x.hdr.typ.toNat = 0x20 → 16 * n ≤ poolFree q → Answers (.bin src dst pass) s fun t => moved t (fun q' => poolUsed q' = poolUsed q + 16 * n)) ∧
    (x.hdr.typ.toNat = 0x20 → poolFree q < 16 * n → q.flushed < lowestOpen s q (chunksIn (drawTable s dst q)) → Absorbed (.bin src dst pass) s) ∧
    (∀ k rest, qget p.away dst = .mark k :: rest → Answers (.binMark src dst pass) s fun t => moved t (fun q' =>
      poolUsed q' = poolUsed q ∧ (q.mergeNext = k → (litOf q).getD (k % (litOf q).length) q.leader = src → qget q.inbox src = [] →
        k < q.flushTo.getD (chunksIn (drawTable s dst q)) → k < q'.mergeNext)))) ∧
  (∀ (s : State) (leader : DieId) (pass : W32) (p : GeoPass), passOf s leader pass.toNat = some p → p.leader = leader → (litOf p).Nodup →
    let chunks := chunksIn (drawTable s leader p)
    let f := lowestOpen s p chunks
    let low := ∃ n ∈ litOf p, ∃ q, mateOf s n p = some q ∧ poolFree q < flushLevel q n
    (low → (∀ n ∈ litOf p, ∃ q, mateOf s n p = some q ∧ q.phase = 1 ∧ q.flushTo = none ∧ q.begun ≠ 1) → p.flushed < f → f < chunks →
      Answers (.binFlush leader pass) s fun t => (∀ n ∈ litOf p, ∀ q, mateOf s n p = some q → ∃ q' ∈ (getGeo t n).passes,
        q'.sub = q.sub ∧ q'.phase = 2 ∧ q'.flushTo = some f ∧ q'.segments = q.segments + 1 ∧ q'.cursor = 0 ∧ q'.reported = []) ∧
        ∀ a, memByte t a = memByte s a) ∧
    ((¬ low ∨ f ≤ p.flushed) → Absorbed (.binFlush leader pass) s))

/-- R240, R242, R253, R255, R256, R258: the next tile in order goes to the lit core with the fewest tiles in progress, and stores nothing yet; a
tile goes through its list run by run, and with nothing left is written out, storing nothing but its own bytes; a die reports when it has
none left; the last report ends a flush's segment, or the pass on every die of DIES; each die then signals its own fence and drops the pass. -/
def Obligations.TilesRenderedAndPassesEnd : Prop :=
  (∀ (s : State) (d : DieId) (pass : W32) (tile : Nat) (p : GeoPass), passOf s d pass.toNat = some p →
    ((mayRender s d p = false ∨ dieRuns s d = false ∨ slotOpen s d p.ctx = false) → Absorbed (.tileRender d pass tile) s) ∧
    (mayRender s d p = false → Absorbed (.passReport d pass) s) ∧
    (mayRender s d p = true → dieRuns s d = true → slotOpen s d p.ctx = true →
      let job := p.jobs.find? (fun j => j.tile == tile)
      let next := (tilesLeft p d).head?
      let placed (t : State) : Prop := t = { s with cores := t.cores, nextId := t.nextId }
      (∀ j, job = some j → geoBusy s d p.sub (some tile) = true → Answers (.tileRender d pass tile) s placed) ∧
      (job = none → next = some tile → tileSpot s d p = none → Answers (.tileRender d pass tile) s placed) ∧
      (job = none → next ≠ some tile → Absorbed (.tileRender d pass tile) s) ∧
      (∀ m o, job = none → next = some tile → tileSpot s d p = some (m, o) → Answers (.tileRender d pass tile) s fun t =>
        (∀ a, memByte t a = memByte s a) ∧ coreLit s d m = true ∧ (∀ k, k < 32 → coreLit s d k = true → jobsOn p m ≤ jobsOn p k) ∧
        ∃ q ∈ (getGeo t d).passes, q.sub = p.sub ∧ q.cursor = tile + 1 ∧ q.bins = p.bins ∧ q.setups = p.setups ∧
          ∃ j, q.jobs = p.jobs ++ [j] ∧ j.tile = tile ∧ j.core = m ∧ j.off = o ∧
            j.left = (mget [] p.bins (tile / 16)).filter (fun r => r.tiles.testBit (tile % 16))) ∧
      (∀ j, job = some j → geoBusy s d p.sub (some tile) = false → j.left = [] → Answers (.tileRender d pass tile) s fun t =>
        let cells := storeTile p.pages p.block j.tile (p.phase == 2) j.changed (readTile s d p j)
        (∀ a, (∀ e ∈ cells, e.1 ≠ a) → memByte t a = memByte s a) ∧
        (∀ pre e post, cells = pre ++ e :: post → (∀ x ∈ post, x.1 ≠ e.1) → Memory.wf s.mem → memByte t e.1 = e.2) ∧
        (∀ m, m ≠ d → getGeo t m = getGeo s m) ∧ (getGeo t d).err = (getGeo s d).err ∧
        ∃ q ∈ (getGeo t d).passes, q.sub = p.sub ∧ q.jobs = p.jobs.filter (fun k => !(k.tile == j.tile)) ∧ q.bins = p.bins ∧ q.setups = p.setups) ∧
      (∀ j prims, job = some j → geoBusy s d p.sub (some tile) = false → j.left ≠ [] →
        let run := j.left.takeWhile (fun r => !r.ordered)
        let seg := if run.isEmpty then j.left.take 1 else run
        tilePrims s d p seg = some prims → Answers (.tileRender d pass tile) s fun t => (∀ a, memByte t a = memByte s a) ∧
          ∃ q ∈ (getGeo t d).passes, q.sub = p.sub ∧ ∃ k ∈ q.jobs, k.tile = j.tile ∧ k.core = j.core ∧ k.left = j.left.drop seg.length)) ∧
    (∀ k, mateOf s p.leader p = some k → mayRender s d p = true → tilesLeft p d = [] → p.jobs = [] → d ∉ k.reported → reach s d p.leader = true →
      let last := ∀ n ∈ litOf p, n ∈ k.reported ∨ n = d
      (p.phase = 3 → ¬ last → Answers (.passReport d pass) s fun t => t = { s with geo := t.geo, cores := t.cores } ∧
        (∃ q ∈ (getGeo t d).passes, q.sub = p.sub ∧ q.phase = 4) ∧
        ∃ q ∈ (getGeo t p.leader).passes, q.sub = k.sub ∧ q.reported = k.reported ++ [d]) ∧
      (last → p.flushTo = none → Answers (.passReport d pass) s fun t => t = { s with geo := t.geo, cores := t.cores } ∧
        ∀ n ∈ diesOf k.dies, ∀ q, mateOf s n p = some q → ∃ q' ∈ (getGeo t n).passes, q'.sub = q.sub ∧ q'.done = true) ∧
      (∀ f, last → p.flushTo = some f → Answers (.passReport d pass) s fun t => t = { s with geo := t.geo, cores := t.cores } ∧
        ∀ n ∈ litOf k, ∀ q, mateOf s n p = some q → ∃ q' ∈ (getGeo t n).passes, q'.sub = q.sub ∧ q'.flushTo = none ∧ q'.flushed = f))) ∧
  (∀ (s : State) (d : DieId) (pass : W32),
    ((∀ p ∈ (getGeo s d).passes, p.pass = pass.toNat → p.done = false) → Absorbed (.passEnd d pass) s) ∧
    ∀ p, (getGeo s d).passes.find? (fun q => q.pass == pass.toNat && q.done) = some p → Answers (.passEnd d pass) s fun t =>
      (getGeo t d).passes = (getGeo s d).passes.filter (fun q => !(q.sub == p.sub)) ∧ (getGeo t d).err = (getGeo s d).err ∧
      (∀ n, n ≠ d → getGeo t n = getGeo s n) ∧ OpDone s t d p.queue p.count p.fence p.fencePa p.value ∧ ∀ a, memByte t a = memByte s a)

/-- R270 to R274, Tables 10.3, 10.5, 10.6: the table bases and commands of GEN. A base is taken only while every entry is FREE; a load
takes its entry's fields, pins its objects and gives IDLE or, with READY set, READY; RETIRE and UNLOAD free; READY and PARK move a
sequence, or wait in it while it is ADMITTED; a command that may not act changes nothing but GEN_RESULT. -/
def Obligations.GenerationCommands : Prop :=
  ∀ (s : State) (d : DieId), Served s d 17 →
    let u := getGen s d
    let lit := domLit s d 9 = true
    (∀ v : W64, fld v 39 12 * 4096 < 2 ^ 35 → fld v 34 33 = d.val →
      ((∀ e ∈ u.seqs, e.2.state = 0) → Answers (.genSeqTableWrite d v) s fun t =>
        t = setGen s d { u with seqTable := keepBits v 0xFFFFFFF001 }) ∧
      ((∃ e ∈ u.seqs, e.2.state ≠ 0) → Answers (.genSeqTableWrite d v) s fun t => t = countDiscard s d) ∧
      ((∀ e ∈ u.models, e.2.loaded = false) → Answers (.genModelTableWrite d v) s fun t =>
        t = setGen s d { u with modelTable := keepBits v 0xFFFFFFF001 }) ∧
      ((∃ e ∈ u.models, e.2.loaded = true) → Answers (.genModelTableWrite d v) s fun t => t = countDiscard s d)) ∧
    (∀ v : W64, (2 ^ 35 ≤ fld v 39 12 * 4096 ∨ fld v 34 33 ≠ d.val) →
      Absorbed (.genSeqTableWrite d v) s ∧ Absorbed (.genModelTableWrite d v) s) ∧
    (∀ i : BitVec 10, let x := seqOf s d i.toNat
      let only (t : State) (y : GenSeq) : Prop := GenDone s t d 0 ∧ seqOf t d i.toNat = y ∧ (∀ j, j ≠ i.toNat → seqOf t d j = seqOf s d j) ∧
        t = setGen s d { u with seqs := (getGen t d).seqs, result := (getGen t d).result }
      Answers (.seqQuery d i) s (fun t => GenFails s t d 0 ∧ fld (getGen t d).result 35 34 = x.state % 4) ∧
      (∀ cmd ∈ [Instr.seqRetire d i, .seqReady d i, .seqPark d i, .seqForget d i], (¬ lit ∨ x.state = 0) →
        Answers cmd s fun t => GenFails s t d 1) ∧
      (lit → x.state ≠ 0 →
        Answers (.seqForget d i) s (fun t => only t { x with histCount := 0, dirty := true }) ∧
        (x.state = 3 → Answers (.seqReady d i) s (fun t => only t { x with pending := some true }) ∧
          Answers (.seqPark d i) s (fun t => only t { x with pending := some false }) ∧ Answers (.seqRetire d i) s fun t => GenFails s t d 1) ∧
        (x.state = 1 → Answers (.seqReady d i) s (fun t => only t { x with state := 2, lastAdmit := u.serial, dirty := true }) ∧
          Answers (.seqPark d i) s (fun t => only t x)) ∧
        (x.state = 2 → Answers (.seqReady d i) s (fun t => only t x) ∧
          Answers (.seqPark d i) s (fun t => only t { x with state := 1, dirty := true })) ∧
        ((x.state = 1 ∨ x.state = 2) → Answers (.seqRetire d i) s fun t => GenDone s t d 0 ∧
          seqOf t d i.toNat = { x with state := 0, pins := [], dirty := true } ∧ ∀ j, j ≠ i.toNat → seqOf t d j = seqOf s d j)) ∧
      ((¬ lit ∨ x.state ≠ 0) → Answers (.seqLoad d i) s fun t => GenFails s t d 1) ∧
      let z := noteEntry s u.seqTable i.toNat
      (lit → x.state = 0 → genEntry z u.seqTable i.toNat = none → Answers (.seqLoad d i) s fun t => ReadOnly s z ∧ GenFails z t d 3) ∧
      (∀ (b : List Byte) (os io : List Nat) (s1 s2 : State), lit → x.state = 0 → genEntry z u.seqTable i.toNat = some b →
        let c := leAt b 4 2
        let m := modelOf s d (leAt b 1 1)
        (loadOff s d c = true → Answers (.seqLoad d i) s fun t => ReadOnly s z ∧ GenFails z t d 5) ∧
        (loadOff s d c = false → loadCtx s d c = true → leAt b 1 1 ≤ 63 → leAt b 2 1 ≤ 3 → leAt b 3 1 ≤ 1 → zeroAt b 6 2 = true →
          zeroAt b 0x24 4 = true → zeroAt b 0x6C 20 = true → leAt b 0x20 4 ≠ 0 → m.loaded = true → m.ctx = c →
          rangeObjs z d c (leAt b 0x18 8) (leAt b 0x20 4) (homeOn d) = (some os, s1) →
          rangeObjs s1 d c (leAt b 0x28 8) (if leAt b 0x28 8 = 0 then 0 else 1) (fun _ => true) = (some io, s2) →
          pinRoom s2 d (joinObjs os io) = true → Answers (.seqLoad d i) s fun t => GenDone s t d 0 ∧
            (∀ j, j ≠ i.toNat → seqOf t d j = seqOf s d j) ∧ getPins t d = getPins (addPins s d (joinObjs os io)) d ∧
            let y := seqOf t d i.toNat
            y.state = (if leAt b 3 1 = 1 then 2 else 1) ∧ y.model = leAt b 1 1 ∧ y.prio = leAt b 2 1 ∧ y.flags = leAt b 3 1 ∧ y.ctx = c ∧ y.seed = le64 (b.drop 8) ∧
              y.step = BitVec.ofNat 32 (leAt b 0x10 4) ∧ y.stateVa = le64 (b.drop 0x18) ∧ y.ioVa = le64 (b.drop 0x28) ∧ y.histCount = 0 ∧
              y.skips = 0 ∧ y.pending = none ∧ y.pins = joinObjs os io ∧ y.dirty = true))) ∧
    (∀ i : BitVec 10, let m := modelOf s d i.toNat
      let busy := modelBusy u i.toNat = true ∨ ∃ e ∈ u.seqs, e.2.state ≠ 0 ∧ e.2.model = i.toNat
      (63 < i.toNat → ∀ cmd ∈ [Instr.modelLoad d i, .modelUnload d i, .modelQuery d i], Answers cmd s fun t => GenFails s t d 3) ∧
      (i.toNat ≤ 63 → Answers (.modelQuery d i) s (fun t => GenFails s t d 0 ∧ fld (getGen t d).result 34 34 = b2n m.loaded) ∧
        ((¬ lit ∨ m.loaded = true) → Answers (.modelLoad d i) s fun t => GenFails s t d 1) ∧
        ((¬ lit ∨ m.loaded = false ∨ busy) → Answers (.modelUnload d i) s fun t => GenFails s t d 1) ∧
        (lit → m.loaded = true → ¬ busy → Answers (.modelUnload d i) s fun t => GenDone s t d 0 ∧
          modelOf t d i.toNat = { m with loaded := false, pins := [], dirty := true } ∧ (getGen t d).seqs = u.seqs ∧
          ∀ j, j ≠ i.toNat → modelOf t d j = modelOf s d j) ∧
        let z := noteEntry s u.modelTable i.toNat
        (lit → m.loaded = false → genEntry z u.modelTable i.toNat = none → Answers (.modelLoad d i) s fun t => ReadOnly s z ∧ GenFails z t d 3) ∧
        (∀ (b : List Byte) (os : List Nat) (s1 : State), lit → m.loaded = false → genEntry z u.modelTable i.toNat = some b →
          let c := leAt b 4 2
          loadOff s d c = false → loadCtx s d c = true → zeroAt b 3 1 = true → zeroAt b 6 2 = true → zeroAt b 0x28 24 = true →
          zeroAt b 0x6A 22 = true → leAt b 0x10 8 ≠ 0 → leAt b 0x18 4 ≠ 0 → leAt b 0x1C 4 ≠ 0 →
          rangeObjs z d c (leAt b 8 8) (leAt b 0x10 8) (fun o => o.place == 1 || homeOn d o) = (some os, s1) → pinRoom s1 d os = true →
          Answers (.modelLoad d i) s fun t => GenDone s t d 0 ∧ (∀ j, j ≠ i.toNat → modelOf t d j = modelOf s d j) ∧
            getPins t d = getPins (addPins s d os) d ∧
            let y := modelOf t d i.toNat
            y.loaded = true ∧ y.maxBatch = (if leAt b 1 1 = 0 then 256 else leAt b 1 1) ∧ y.margin = leAt b 2 1 ∧ y.ctx = c ∧
              y.worstFixed = leAt b 0x18 4 ∧ y.worstSeq = leAt b 0x1C 4 ∧ y.histCount = 0 ∧ y.pins = os ∧ y.dirty = true)))

/-- R271, R273, R275 to R283: `k.step`. A descriptor that breaks Table 10.10, names what it may not, or finds no room ends its record; an
acceptable one queues. While GRT is lit the head applies: OPEN admits in gate order up to its limits and, with the gate on, up to the
time available, writes the work list and nothing else; CLOSE advances each admitted sequence; READY and PARK act as the commands do. -/
def Obligations.GenerationSteps : Prop :=
  (∀ (s : State) (d : DieId) (x : Submission) (rest : List Submission) (rd : Nat), AtHead s d 12 x rest rd →
    let b := x.desc
    let u := getGen s d
    let full := leAt b 0x10 1 = 0 ∧ (8 ≤ (opensAhead u).length ∨ (opensAhead u).any (fun e => e.1 == leAt b 0x11 1) = true)
    ((stepLegal b = false ∨ stepNames s d x = false) → Answers (.submissionAccept d 12) s fun t => Rejected s t d 12 x rest ∧
      getGen t d = { u with err := errRaise u.err s.now 2 }) ∧
    (stepLegal b = true → stepNames s d x = true → full → Answers (.submissionAccept d 12) s fun t => Rejected s t d 12 x rest ∧
      getGen t d = { u with err := errRaise u.err s.now 3 }) ∧
    (∀ (m : Map Nat) (os fo : List Nat) (s1 s2 : State) (hasF : Bool) (fpa : Nat), stepLegal b = true → stepNames s d x = true → ¬ full →
      translateRange s d (subCtx s d x) (leAt b 0x18 8)
        (if leAt b 0x10 1 = 0 then 64 + 64 * min (leAt b 0x14 2) (modelOf s d (leAt b 0x11 1)).maxBatch else 0) { write := true }
        = (.ok (m, os), s1) →
      fenceSide s1 d (subCtx s d x) b = (.ok (hasF, fpa, fo), s2) → pinRoom s2 d (joinObjs os fo) = true →
      Answers (.submissionAccept d 12) s fun t => Accepted s t d 12 x rest rd ∧
        (getGen t d).serial = (u.serial + b2n (leAt b 0x10 1 == 0)) % 2 ^ 64 ∧ ∃ o, (getGen t d).ops = u.ops ++ [o] ∧ o.op = leAt b 0x10 1 ∧
          o.model = leAt b 0x11 1 ∧ o.seq = leAt b 0x12 2 ∧ o.maxSeqs = leAt b 0x14 2 ∧ o.list = le64 (b.drop 0x18) ∧
          o.deadline = leAt b 0x20 8 ∧ o.budget = leAt b 0x28 4 ∧ o.acceptedAt = dtime s d ∧ o.fence = hasF ∧ o.fencePa = fpa ∧
          o.value = le64 (b.drop 8) ∧ o.pages = m)) ∧
  (∀ (s : State) (d : DieId), (getGen s d).ops = [] ∨ domLit s d 9 = false →
    ∀ cmd ∈ [Instr.stepOpen d, .stepClose d, .stepReady d, .stepPark d], Absorbed cmd s) ∧
  (∀ (s : State) (d : DieId) (o : GenOp) (rest : List GenOp), (getGen s d).ops = o :: rest → domLit s d 9 = true → dieRuns s d = true →
    let u := getGen s d
    let gone (t : State) : Prop := (getGen t d).ops = rest ∧ OpDone s t d o.queue o.count o.fence o.fencePa o.value
    (o.op = 0 → (∀ e ∈ o.pages, reach s d (dieOf e.2) = true) → Answers (.stepOpen d) s fun t => gone t ∧
      let cand := candidatesOf s d o.model
      let m := modelOf s d o.model
      ∃ st, (getGen t d).steps = u.steps ++ [st] ∧ st.model = o.model ∧ st.serial = o.serial ∧ st.queue = o.queue ∧ st.count = o.count ∧
        st.list = o.list ∧ st.release = dtime s d ∧ st.dl = (if o.deadline = 0 then nextEpochStart s d else o.deadline) ∧
        st.cores = litCores s d ∧ (litCores s d = 0 → st.admitted = []) ∧ st.admitted.length ≤ min o.maxSeqs m.maxBatch ∧
        (bit u.budget 16 = false → st.admitted ≠ [] → (st.total : Int) ≤ availableNs s d st.dl (dtime s d) o.budget) ∧
        (∃ k, st.admitted = (cand.take k).map (fun e => (e.1, predictSeq (litCores s d) m e.2))) ∧
        (∀ i, i ∈ st.admitted.map (fun e => e.1) →
          seqOf t d i = { seqOf s d i with state := 3, lastAdmit := o.serial, pending := none, dirty := true }) ∧
        (∀ i, i ∉ st.admitted.map (fun e => e.1) → i ∈ cand.map (fun e => e.1) →
          seqOf t d i = { seqOf s d i with skips := satAdd 16 (seqOf s d i).skips 1, dirty := true }) ∧
        (∀ i, i ∉ cand.map (fun e => e.1) → seqOf t d i = seqOf s d i) ∧
        let n := st.admitted.length
        let head := natLe 8 o.serial ++ natLe 1 o.model ++ natLe 1 st.cores ++ natLe 2 n ++ natLe 4 0 ++ natLe 8 (dtime s d) ++ natLe 8 st.dl
        (∀ a, (∀ k, k < 64 + 64 * n → pageLook o.pages (o.list.toNat + k) ≠ some a) → memByte t a = memByte s a) ∧
        (∀ a k, k < 32 → pageLook o.pages (o.list.toNat + k) = some a → Memory.wf s.mem →
          (∀ j, k < j → j < 64 + 64 * n → pageLook o.pages (o.list.toNat + j) ≠ some a) → memByte t a = lget 0 head k)) ∧
    (∀ x, o.op = 1 → u.steps.find? (fun y => y.queue == o.queue && y.count == o.count && y.list == o.list) = some x →
      (x.admitted.map (fun e => e.1)).Nodup → Answers (.stepClose d) s fun t => gone t ∧ (∀ a, memByte t a = memByte s a) ∧
        (getGen t d).steps = u.steps.filter (fun y => !(y.serial == x.serial)) ∧
        (x.admitted ≠ [] → (modelOf t d x.model).steps = ((modelOf s d x.model).steps + 1) % 2 ^ 64) ∧
        (∀ i, i ∉ x.admitted.map (fun e => e.1) → seqOf t d i = seqOf s d i) ∧
        ∀ j e, x.admitted[j]? = some e → let q := seqOf s d e.1
          let y := seqOf t d e.1
          y.step = q.step + 1 ∧ y.pending = none ∧ y.dirty = true ∧ y.histCount = min 8 (q.histCount + 1) ∧
          (q.pending = some true → y.state = 2) ∧ (q.pending = some false → y.state = 1) ∧
          (q.pending = none → y.state = if (listNat s d x (0x42 + 64 * j) 1).testBit 0 then 1 else 2)) ∧
    (∀ e ∈ [(Instr.stepReady d, (2 : Nat), true), (.stepPark d, 3, false)], o.op = e.2.1 → (seqOf s d o.seq).state ≠ 0 →
      Answers e.1 s fun t => gone t ∧ (∀ j, j ≠ o.seq → seqOf t d j = seqOf s d j) ∧ (∀ a, memByte t a = memByte s a) ∧
        let q := seqOf s d o.seq
        seqOf t d o.seq = if q.state = 3 then { q with pending := some e.2.2 }
          else if q.state = 1 ∧ e.2.2 = true then { q with state := 2, lastAdmit := u.serial, dirty := true }
          else if q.state = 2 ∧ e.2.2 = false then { q with state := 1, dirty := true } else q)) ∧
  (∀ (s : State) (d : DieId) (i : BitVec 10), Memory.wf s.mem → mwf modelFree (getGen s d).models = true → mwf seqFree (getGen s d).seqs = true →
    let u := getGen s d
    let n := i.toNat
    let at_ (base : W64) : Nat := fld base 39 12 * 4096 + 128 * n
    let may (base : W64) : Prop := bit base 0 = true ∧ domLit s d 9 = true ∧ dieRuns s d = true ∧ rowWaits s (at_ base) 128 = false
    ((modelOf s d n).dirty = true → may u.modelTable → Answers (.genEntryWriteback d true i) s fun t =>
      modelOf t d n = { modelOf s d n with dirty := false } ∧ (getGen t d).seqs = u.seqs ∧
      memByte t (at_ u.modelTable) = BitVec.ofNat 8 (b2n (modelOf s d n).loaded) ∧
      memNat t (at_ u.modelTable + 0x20) 8 = (modelOf s d n).steps % 2 ^ 64 ∧
      ∀ a, (a < at_ u.modelTable ∨ at_ u.modelTable + 128 ≤ a) → memByte t a = memByte s a) ∧
    ((seqOf s d n).dirty = true → may u.seqTable → Answers (.genEntryWriteback d false i) s fun t =>
      seqOf t d n = { seqOf s d n with dirty := false } ∧ (getGen t d).models = u.models ∧
      memByte t (at_ u.seqTable) = BitVec.ofNat 8 (seqOf s d n).state ∧ memNat t (at_ u.seqTable + 0x10) 4 = (seqOf s d n).step.toNat ∧
      ∀ a, (a < at_ u.seqTable ∨ at_ u.seqTable + 128 ≤ a) → memByte t a = memByte s a) ∧
    (((modelOf s d n).dirty = false ∨ domLit s d 9 = false) → Absorbed (.genEntryWriteback d true i) s) ∧
    (((seqOf s d n).dirty = false ∨ domLit s d 9 = false) → Absorbed (.genEntryWriteback d false i) s))

/-- R26, R291, R297 to R301, R303: translation, its cache and its faults, invalidation, and retired rows. A walk puts its leaf first in the
cache; a hit moves its entry first; a fault opens its window of 1 ms or counts in it, and puts nothing into the cache. Requests of one cycle
are served in the order of their units. An invalidation drops exactly the entries it names on every die. A row is retired once it has met
its condition, and its retirement changes no byte of memory. -/
def Obligations.TranslationsAndRows : Prop :=
  (∀ (s : State) (d : DieId),
    (s.board.powerOk = false → ∀ es ss cs, Absorbed (.translationWalk d es ss cs) s) ∧
    (s.board.powerOk = true → ∀ x : XlReq,
      let c := x.ctx.toNat
      let va := x.va.toNat
      let ask : XlAsk := { write := x.write }
      let hit := xlHit (getMemu s d).xlate c va
      ∀ walk : List XlReq → Instr, (walk ∈ [fun l => .translationWalk d l [] [], fun l => .translationWalk d [] l [],
        fun l => .translationWalk d [] [] l]) →
      (∀ e pa o s1, va < 2 ^ 48 → translate s d c va ask = (.ok (pa, o), s1) → ((ctxOf s d c).state = .live ∨ (ctxOf s d c).state = .faulted) →
        hit = some e → Answers (walk [x]) s fun t => t = setMemu s d { getMemu s d with xlate := e :: (getMemu s d).xlate.erase e }) ∧
      (∀ l fs pa o s1 s2 s3, va < 2 ^ 48 → translate s d c va ask = (.ok (pa, o), s1) → hit = none →
        walkTables s d (ctxOf s d c).ptRoot va = (.ok l, s2) → leafFrames s2 d (ctxOf s d c) l va d.val false = (.ok fs, s3) →
        Answers (walk [x]) s fun t => Looked s s3 ∧ t = setMemu s3 d { getMemu s3 d with xlate := (getMemu t d).xlate } ∧
          ∃ e, (getMemu t d).xlate.head? = some e ∧ e.ctx = c ∧ e.big = l.big ∧ e.base = (if l.big then va / 2 ^ 30 else va / 2 ^ 25) ∧
            e.frames = fs ∧ e.handle = l.handle ∧ e.w = l.w) ∧
      (∀ y s1, translate s d c va ask = (.error y, s1) →
        let key := winKey c va
        let old := mfind (getMemu s d).faultWins key
        Answers (walk [x]) s fun t => (∀ a, memByte t a = memByte s a) ∧
          (hit = none → (getMemu t d).xlate = (getMemu s d).xlate) ∧
          (∀ w, old = some w → dtime s d < w.at_ + 1000000 → getLog t d = getLog s1 d ∧
            mfind (getMemu t d).faultWins key = some { w with count := w.count + 1 }) ∧
          (old = none → ∃ w, mfind (getMemu t d).faultWins key = some w ∧ w.at_ = dtime s d ∧ w.count = 0)) ∧
      ∀ y : XlReq, unitRank x.unit < unitRank y.unit → exec (walk [y, x]) s = exec (walk [x, y]) s ∧
        exec (.translationWalk d [x] [y] []) s = exec (walk [x, y]) s ∧ exec (.translationWalk d [] [x] [y]) s = exec (walk [x, y]) s ∧
        Answers (walk [x]) s fun t => exec (walk [y, x]) s = exec (walk [y]) t)) ∧
  (∀ (s : State) (d : DieId) (c : W16) (page : Nat) (w : FaultWin),
    mfind (getMemu s d).faultWins (winKey c.toNat (page * 2 ^ 25)) = some w →
    (0 < w.count → w.at_ + 1000000 ≤ dtime s d → Answers (.xlateFaultMerged d c page) s fun t =>
      getMemu t d = { getMemu s d with faultWins := mdel (getMemu s d).faultWins (winKey c.toNat (page * 2 ^ 25)) } ∧
      t = setLog (setMemu s d (getMemu t d)) d (getLog t d)) ∧
    ((w.count = 0 ∨ dtime s d < w.at_ + 1000000) → Absorbed (.xlateFaultMerged d c page) s)) ∧
  (∀ (s : State) (d : DieId) (c : W16) (gib : BitVec 18), Served s d 5 →
    ∀ x ∈ [(Instr.invContext d c, fun (e : XlEntry) => decide (e.ctx = c.toNat)),
        (.invGib d c gib, fun e => decide (e.ctx = c.toNat ∧ (if e.big then e.base else e.base / 32) = gib.toNat)), (.invAll d, fun _ => true)],
      (d ≠ 0 → Answers x.1 s fun t => t = countDiscard s d) ∧
      (d = 0 → Answers x.1 s fun t => (∀ n, getMemu t n = { getMemu s n with xlate := (getMemu s n).xlate.filter (fun e => !x.2 e) }) ∧
        fld (getHregs t 0).xlatResult 23 16 = 0 ∧
        fld (getHregs t 0).xlatResult 15 0 = (fld (getHregs s 0).xlatResult 15 0 + 1) % 65536 ∧
        t = { setHregs s 0 { getHregs s 0 with xlatResult := (getHregs t 0).xlatResult } with memu := t.memu })) ∧
  (∀ (s : State) (d : DieId) (row : BitVec 19), let m := getMemu s d
    ((s.board.powerOk = false ∨ (rowOf s d row.toNat).retired = true ∨ rowDue (rowOf s d row.toNat) = false ∨ m.retiring ≠ none) →
      Absorbed (.rowRetire d row) s) ∧
    (s.board.powerOk = true → (rowOf s d row.toNat).retired = false → rowDue (rowOf s d row.toNat) = true → m.retiring = none →
      (0 < m.spares → (getKiln s d).dram = none → Answers (.rowRetire d row) s fun t => t = setMemu s d { m with retiring := some row.toNat }) ∧
      (m.spares = 0 → (rowOf s d row.toNat).exhausted = true → Absorbed (.rowRetire d row) s) ∧
      (m.spares = 0 → (rowOf s d row.toNat).exhausted = false → Answers (.rowRetire d row) s fun t =>
        rowOf t d row.toNat = { rowOf s d row.toNat with exhausted := true } ∧ (getMemu t d).spares = 0 ∧ (getMemu t d).retiring = none ∧
        t = setLog (setMemu s d (getMemu t d)) d (getLog t d)))) ∧
  (∀ (s : State) (d : DieId), let m := getMemu s d
    (m.retiring = none → Absorbed (.rowRetireDone d) s) ∧
    ∀ r, m.retiring = some r → Answers (.rowRetireDone d) s fun t => rowOf t d r = { rowOf s d r with retired := true } ∧
      (∀ k, k ≠ r → rowOf t d k = rowOf s d k) ∧ (getMemu t d).retiring = none ∧ (getMemu t d).spares = m.spares - 1 ∧
      t = setLog (setMemu s d (getMemu t d)) d (getLog t d))

/-- R302, R304, R306 to R308, R310: DMA descriptors, channels and request lines. A descriptor that breaks a rule of its tables ends its
record with DMA_ERR's flag; an acceptable one queues with its sides resolved. The oldest descriptor of a channel goes to its empty
shadow set, the shadow set becomes active unless its line is in use, and the channel's own line starts again from zero. A request counts
up to 65,535. -/
def Obligations.TransfersAreQueued : Prop :=
  (∀ (s : State) (d : DieId) (e : Fin 13) (x : Submission) (rest : List Submission) (rd : Nat), AtHead s d e.val x rest rd → 5 ≤ e.val → e.val ≤ 8 →
    let j := dmaJobOf e.val (subCtx s d x) (subTenant s d x) x (nextCount s d e.val)
    (dmaLegal j x.desc = false → Answers (.submissionAccept d e) s fun t => Rejected s t d e.val x rest ∧
      getDma t d = { getDma s d with err := errRaise (getDma s d).err s.now 1 }) ∧
    (∀ (sm : Map Nat) (dm : List (Map Nat)) (so dob ro fo : List Nat) (ra : Option Nat) (s1 s2 s3 s4 : State) (hasF : Bool) (fpa : Nat),
      dmaLegal j x.desc = true →
      (if j.op = 1 ∨ srcSpace j ≠ 0 then ((.ok ([], []), s) : SideResult × State)
        else vaSide s d j.ctx (sideRange j j.src j.sstr) {}) = (.ok (sm, so), s1) →
      dstSide s1 d j = (.ok (dm, dob), s2) → resSide s2 d j = (.ok (ra, ro), s3) → fenceSide s3 d j.ctx x.desc = (.ok (hasF, fpa, fo), s4) →
      stageSidesCause s4 d j = none → pinRoom s4 d (joinObjs (joinObjs (joinObjs so dob) ro) fo) = true →
      let y : DmaJob := { j with
        fence := hasF, fencePa := fpa, srcPages := sm, dstCopies := dm, resAt := ra, pins := joinObjs (joinObjs (joinObjs so dob) ro) fo }
      Answers (.submissionAccept d e) s fun t => Accepted s t d e.val x rest rd ∧ getDma t d = { getDma s d with
        queue := (getDma s d).queue ++ [{ y with seen := jobSets s y ++ [jobDrops s d y] }] })) ∧
  (∀ (s : State) (d : DieId) (ch : Fin 16), (getDma s d).chans.length = 16 → dieRuns s d = true →
    let x := chanOf s d ch.val
    let others (t : State) : Prop := ∀ k, k ≠ ch.val → chanOf t d k = chanOf s d k
    ((x.shadow ≠ none ∨ (∀ j ∈ (getDma s d).queue, j.chan ≠ ch.val)) → Absorbed (.dmaShadowLoad d ch) s) ∧
    (∀ j, x.shadow = none → (getDma s d).queue.find? (fun j => j.chan == ch.val) = some j → Answers (.dmaShadowLoad d ch) s fun t =>
      others t ∧ chanOf t d ch.val = { x with shadow := some j } ∧ (getDma t d).queue = (getDma s d).queue.erase j ∧
      (getDma t d).lines = (getDma s d).lines ∧ t = { s with dma := t.dma, stokers := t.stokers } ∧
      (∀ n, n ≠ d → getDma t n = getDma s n ∧ getStk t n = getStk s n)) ∧
    ((x.active ≠ none ∨ x.shadow = none) → Absorbed (.dmaActivate d ch) s) ∧
    (∀ j, x.active = none → x.shadow = some j →
      (lineBusy s d ch.val j = true → Absorbed (.dmaActivate d ch) s) ∧
      (lineBusy s d ch.val j = false → mwf 0 (getDma s d).lines = true → Answers (.dmaActivate d ch) s fun t => others t ∧
        t = setDma s d (getDma t d) ∧ chanOf t d ch.val = { active := some j, shadow := none, last := j.sub } ∧ lineCount t d (0x20 + ch.val) = 0 ∧
        (∀ l, l ≠ 0x20 + ch.val → lineCount t d l = lineCount s d l) ∧ (getDma t d).queue = (getDma s d).queue))) ∧
  (∀ (s : State) (d : DieId) (mask : Byte), Served s d 16 → mwf 0 (getDma s d).lines = true →
    let sw (l : Nat) : Prop := 1 ≤ l ∧ l ≤ 8 ∧ mask.toNat.testBit (l - 1) = true
    (Answers (.dmaReqRaise d mask) s fun t => t = setDma s d (getDma t d) ∧ (getDma t d).chans = (getDma s d).chans ∧
      (∀ l, sw l → lineCount s d l ≤ 65535 → lineCount t d l = min 65535 (lineCount s d l + 1)) ∧
      (∀ l, ¬ sw l → lineCount t d l = lineCount s d l) ∧
      ((∀ l, sw l → lineCount s d l < 65535) → (getDma t d).err = (getDma s d).err) ∧
      ((∃ l, sw l ∧ lineCount s d l = 65535) → bit (getDma t d).err.val 2 = true)) ∧
    (Answers (.dmaReqClear d mask) s fun t => t = setDma s d (getDma t d) ∧ (getDma t d).chans = (getDma s d).chans ∧
      (∀ l, sw l → lineCount t d l = 0) ∧ (∀ l, ¬ sw l → lineCount t d l = lineCount s d l) ∧ (getDma t d).err = (getDma s d).err))

/-- R304, R305, R309 to R313: DMA bursts, ends and stops. A burst of FILL or COPY writes its bytes at their places on every copy of the
destination and nothing else, COMPARE writes nothing and ends at the first difference; a paced burst takes one request and each burst
raises the channel's own line; one that needs another die asks for what it reads and waits. A transfer that has ended, or stops for a cause,
writes its result block and nothing else, and frees its channel; a stopped one tells the consumer of its output. -/
def Obligations.TransfersMoveAndEnd : Prop :=
  (∀ (s : State) (d : DieId) (ch : Fin 16) (j : DmaJob), (getDma s d).chans.length = 16 → (chanOf s d ch.val).active = some j →
    dieRuns s d = true →
    let n := burstLen j
    let own := 0x20 + ch.val
    let places (m : Map Nat) (k : Nat) : Option Nat := pageLook m (streamAddr j j.dst j.dstr (j.moved + k))
    let from_ (k : Nat) : Option Nat := pageLook j.srcPages (streamAddr j j.src j.sstr (j.moved + k))
    let z := noteSpots s (burstSpots j n)
    let home := (∀ m ∈ j.dstCopies, ∀ k a, k < n → places m k = some a → dieOf a = d) ∧ ∀ k a, k < n → from_ k = some a → dieOf a = d
    let went (t : State) : Prop := (chanOf t d ch.val).active = some { j with moved := j.moved + n } ∧
      (∀ k, k ≠ ch.val → chanOf t d k = chanOf s d k) ∧ (j.line ≠ 0 → j.line ≠ own → lineCount t d j.line = lineCount s d j.line - 1) ∧
      (j.line ≠ own → lineCount s d own < 65535 → lineCount t d own = lineCount s d own + 1) ∧
      (∀ l, l ≠ own → l ≠ j.line → lineCount t d l = lineCount s d l)
    let wrote (t : State) (data : Nat → Byte) : Prop :=
      t = { s with dma := t.dma, mem := t.mem, poison := t.poison, memu := t.memu, logs := t.logs, watches := t.watches } ∧
      (∀ a, (∀ m ∈ j.dstCopies, ∀ k, k < n → places m k ≠ some a) → memByte t a = memByte s a) ∧
      ∀ m, j.dstCopies = [m] → ∀ k a, k < n → places m k = some a → (∀ i, k < i → i < n → places m i ≠ some a) → memByte t a = data k
    ((dmaCause s d j ≠ none ∨ streamEnded j = true ∨ portsReady s d j n = false ∨ burstHeld s d j n = true ∨
      (j.step = .idle ∧ j.line ≠ 0 ∧ lineCount s d j.line = 0)) → Absorbed (.dmaBurst d ch) s) ∧
    (dmaCause s d j = none → streamEnded j = false → burstHeld s d j n = false → (j.line = 0 ∨ 0 < lineCount s d j.line) → dstSpace j = 0 →
      j.step = .idle → home → mwf 0 (getDma s d).lines = true → Memory.wf s.mem →
      (j.op = 1 → srcSpace j = 0 → Answers (.dmaBurst d ch) s fun t => went t ∧
        wrote t (fun k => lget 0 (natLe 8 j.pattern.toNat) ((j.moved + k) % 8))) ∧
      (j.op = 0 → srcSpace j = 0 → (∀ k a, k < n → from_ k = some a → poisonAt z a = false) → Answers (.dmaBurst d ch) s fun t => went t ∧
        wrote t (fun k => match from_ k with | some a => memByte s a | none => 0)) ∧
      (j.op = 2 → srcSpace j = 0 → (∀ k a, k < n → places (lget [] j.dstCopies 0) k = some a → dieOf a = d) →
        (∀ k a, k < n → from_ k = some a ∨ places (lget [] j.dstCopies 0) k = some a → poisonAt z a = false) →
        let same (k : Nat) : Prop := (match from_ k with | some a => memByte s a | none => 0) =
          match places (lget [] j.dstCopies 0) k with | some a => memByte s a | none => 0
        ReadOnly s z ∧ ((∀ k, k < n → same k) → Answers (.dmaBurst d ch) s fun t => went t ∧ t = { z with dma := t.dma }) ∧
        (∀ k, k < n → ¬ same k → (∀ i, i < k → same i) → Answers (.dmaBurst d ch) s fun t => t = { z with dma := t.dma } ∧
          (chanOf t d ch.val).active = some { j with mismatch := some (j.moved + k), moved := j.moved + k }))) ∧
    (dmaCause s d j = none → streamEnded j = false → portsReady s d j n = true → burstHeld s d j n = false → j.line = 0 → j.step = .idle →
      let asks := burstReads d ch.val j (burstSpots j n)
      let u := asks.foldl (askDie d) s
      answersOf u d asks = none → Answers (.dmaBurst d ch) s fun t => t = setActive u d ch.val { j with step := .reading } ∧
        t = { s with dma := t.dma, ends := t.ends })) ∧
  (∀ (s : State) (d : DieId) (ch : Fin 16) (j : DmaJob), (getDma s d).chans.length = 16 → (chanOf s d ch.val).active = some j →
    let freed (t : State) : Prop := (chanOf t d ch.val).active = none ∧ (chanOf t d ch.val).shadow = (chanOf s d ch.val).shadow ∧
      ∀ k, k ≠ ch.val → chanOf t d k = chanOf s d k
    let home := ∀ a, j.resAt = some a → (if j.resStage then (stageAddr a).1 else dieOf a) = d
    let block (t : State) (outcome cause : Nat) : Prop := ∀ a, j.resAt = some a → j.resStage = false →
      (Memory.wf s.mem → memByte t a = BitVec.ofNat 8 outcome ∧ memByte t (a + 1) = BitVec.ofNat 8 cause ∧ memNat t (a + 4) 4 = j.sub % 2 ^ 32) ∧
      ∀ b, (b < a ∨ a + 32 ≤ b) → memByte t b = memByte s b
    let stopped (t : State) : Prop := freed t ∧ bit (getDma t d).err.val 0 = true ∧ OpEnded s t d j.queue j.count true ∧ t.signals = s.signals
    let last := dmaResult s d j (b2n j.mismatch.isSome) 0 (rowsDone j) (j.mismatch.getD (2 ^ 64 - 1))
    ((streamEnded j = false ∨ j.stop ≠ none ∨ resultWaits s d j = true) → Absorbed (.dmaFinish d ch) s) ∧
    (streamEnded j = true → j.stop = none → dieRuns s d = true → resultWaits s d j = false →
      (home → resultBlocked s d j = none → Answers (.dmaFinish d ch) s fun t => freed t ∧
        block t (b2n j.mismatch.isSome) 0 ∧ (j.resAt = none → ∀ a, memByte t a = memByte s a) ∧ (getDma t d).err = (getDma s d).err ∧
        OpDone s t d j.queue j.count j.fence j.fencePa j.value) ∧
      (resultBlocked s d j ≠ none → Answers (.dmaFinish d ch) s fun t => stopped t ∧ ∀ a, memByte t a = memByte s a) ∧
      (∀ q, resultBlocked s d j = none → resultAsk d ch.val j last = some q → answerOf (askDie d s q) d q.die q.who = none →
        Answers (.dmaFinish d ch) s fun t => t = askDie d s q)) ∧
    (dmaCause s d j = none → Absorbed (.dmaStop d ch) s) ∧
    (∀ c, dmaCause s d j = some c → (j.stop ≠ none ∨ streamEnded j = false) → home → Answers (.dmaStop d ch) s fun t => stopped t ∧
      (resultBlocked s d j = none → block t 2 c) ∧ ((j.resAt = none ∨ resultBlocked s d j ≠ none) → ∀ a, memByte t a = memByte s a))) ∧
  (∀ (s : State) (d : DieId) (line : BitVec 8), (getDma s d).chans.length = 16 →
    let l := line.toNat
    ((∀ a ∈ (getDma s d).aborted, a.1 ≠ l) → Absorbed (.sourceAborted d line) s) ∧
    ∀ a, (getDma s d).aborted.find? (fun a => a.1 == l) = some a →
      (∀ ch j, l ≠ 0x10 → l ≠ 0x12 → pacedBy s d l = some (ch, j) → j.sub = a.2.1 → j.stop = none → Answers (.sourceAborted d line) s fun t =>
        t = setDma s d (getDma t d) ∧ (getDma t d).aborted = (getDma s d).aborted.erase a ∧
        (chanOf t d ch).active = some { j with stop := some 4 }) ∧
      (∀ r, (l = 0x10 ∨ l = 0x12) → (retOf s d ((l - 0x10) / 2)).job = some r → r.sub = a.2.1 → (retOf s d ((l - 0x10) / 2)).stop = none →
        Answers (.sourceAborted d line) s fun t => (getDma t d).aborted = (getDma s d).aborted.erase a ∧ (∀ p, memByte t p = memByte s p) ∧
          ((retOf s d ((l - 0x10) / 2)).draining = false → (retOf t d ((l - 0x10) / 2)).stop = some 7) ∧
          ((retOf s d ((l - 0x10) / 2)).draining = true → (retOf t d ((l - 0x10) / 2)).job = none)))

/-- R314 to R318, R328 to R332: the retort. A job is accepted or rejected, starts on an idle, lit engine with empty buffers and requests
at zero, asks for input it has room for and for the output it has, codes or decodes block by block into the output, and stops on the
causes of Table 12.5; at its end it writes its result block and nothing else, and signals its fence unless it was stopped. What is released
when a job stops stays for the output port, and an engine that goes on discarding input is free when its tenant is reset (log 15). -/
def Obligations.RetortJobs : Prop :=
  (∀ (s : State) (d : DieId) (n : Fin 13) (x : Submission) (rest : List Submission) (rd : Nat), AtHead s d n.val x rest rd → (n = 9 ∨ n = 10) →
    let c := subCtx s d x
    let j := retJobOf c (subTenant s d x) x (nextCount s d n.val)
    (retLegal j x.desc = false → Answers (.submissionAccept d n) s fun t => Rejected s t d n.val x rest ∧
      getRet t d = { getRet s d with err := errRaise (getRet s d).err s.now 1 }) ∧
    (∀ (m : Map Nat) (ro fo : List Nat) (s1 s2 : State) (hasF : Bool) (fpa : Nat), retLegal j x.desc = true →
      translateRange s d c (j.resAt.getD 0) (if j.resAt.isSome then 32 else 0) { write := true } = (.ok (m, ro), s1) →
      fenceSide s1 d c x.desc = (.ok (hasF, fpa, fo), s2) → pinRoom s2 d (joinObjs ro fo) = true → Answers (.submissionAccept d n) s fun t =>
        Accepted s t d n.val x rest rd ∧ retOf t d (n.val - 9) = { retOf s d (n.val - 9) with
          waiting := (retOf s d (n.val - 9)).waiting ++
            [{ j with fence := hasF, fencePa := fpa, resAt := j.resAt.bind (pageLook m), pins := joinObjs ro fo }] })) ∧
  (∀ (s : State) (d : DieId) (e : Fin 2), let x := retOf s d e.val
    let only (t : State) : Prop := (∀ k, k < 2 → k ≠ e.val → retOf t d k = retOf s d k) ∧ (getRet t d).err = (getRet s d).err
    ((x.job ≠ none ∨ x.waiting = [] ∨ domLit s d 9 = false) → Absorbed (.retJobStart d e) s) ∧
    (∀ j rest, x.job = none → x.waiting = j :: rest → domLit s d 9 = true → dieRuns s d = true → mwf 0 (getDma s d).lines = true →
      Answers (.retJobStart d e) s fun t => only t ∧ lineCount t d (0x10 + 2 * e.val) = 0 ∧ lineCount t d (0x11 + 2 * e.val) = 0 ∧
        (∀ l, l ≠ 0x10 + 2 * e.val → l ≠ 0x11 + 2 * e.val → lineCount t d l = lineCount s d l) ∧
        retOf t d e.val = { retEngineReset with
          waiting := rest, job := some j, progressAt := dtime s d, op := j.op, mode := j.mode, last := j.sub } ∧
        t = { setDma (setRet s d (getRet t d)) d (getDma t d) with stokers := t.stokers }) ∧
    (∀ j, x.job = some j →
      (∀ o, pacedBy s d (0x10 + 2 * e.val + b2n o) = none → Absorbed (.retRequestRaise d e o) s) ∧
      (∀ o ch k, pacedBy s d (0x10 + 2 * e.val + b2n o) = some (ch, k) → k.tenant = j.tenant →
        lineCount s d (0x10 + 2 * e.val + b2n o) < 65535 →
        let left := outEnd x j - x.reqOut
        let b := 2 ^ k.log2
        let raised (t : State) (y : RetEngine) : Prop := only t ∧ retOf t d e.val = y ∧
          lineCount t d (0x10 + 2 * e.val + b2n o) = lineCount s d (0x10 + 2 * e.val + b2n o) + 1
        (o = true → x.stop = none → b ≤ left → Answers (.retRequestRaise d e o) s fun t => raised t { x with reqOut := x.reqOut + b }) ∧
        (o = true → x.stop = none → 0 < left → left < b → outEnd x j = j.outBytes → Answers (.retRequestRaise d e o) s fun t =>
          raised t { x with reqOut := x.reqOut + left }) ∧
        (o = true → left < b → outEnd x j ≠ j.outBytes → Absorbed (.retRequestRaise d e o) s) ∧
        (o = false → (x.stop = none ∨ x.draining = true) → x.reqIn < j.inBytes → x.inBuf.length + (x.reqIn - x.inTaken) + b ≤ 163840 →
          Answers (.retRequestRaise d e o) s fun t => raised t { x with reqIn := x.reqIn + min b (j.inBytes - x.reqIn) }) ∧
        (o = false → (j.inBytes ≤ x.reqIn ∨ 163840 < x.inBuf.length + (x.reqIn - x.inTaken) + b) → Absorbed (.retRequestRaise d e o) s)) ∧
      (x.stop = none →
        let stops (cmd : Instr) (c : Nat) : Prop := Answers cmd s fun t => t = setRetE s d e.val { x with stop := some c }
        let releases (cmd : Instr) (n : Nat) (out : List Byte) : Prop := Answers cmd s fun t => t = setRetE s d e.val (retOf t d e.val) ∧
          let y := retOf t d e.val
          y.inBuf = x.inBuf.drop n ∧ y.inUsed = x.inUsed + n ∧ y.outBuf = x.outBuf ++ out ∧ y.outReleased = x.outReleased + out.length ∧
            y.blocks = x.blocks + 1 ∧ y.job = some j ∧ y.stop = none ∧ y.progressAt = dtime s d ∧
            (j.op = 1 → y.padding = (consumed y == j.inBytes))
        (j.op = 1 → let n := min (blockSize j) (j.inBytes - consumed x)
          let c := encodeBlock j.mode j.param j.near (if x.tabled ∧ ¬ j.staticOnly then some (x.counts, x.dcounts) else none) (x.inBuf.take n)
          ((n = 0 ∨ x.inBuf.length < n) → Absorbed (.retBlockEncode d e) s) ∧
          (0 < n → n ≤ x.inBuf.length → j.outBytes < x.outReleased + c.bytes.length → stops (.retBlockEncode d e) 6) ∧
          (0 < n → n ≤ x.inBuf.length → x.outReleased + c.bytes.length ≤ j.outBytes → releases (.retBlockEncode d e) n c.bytes)) ∧
        (j.op = 0 → x.padding = false → let left := j.inBytes - consumed x
          let n := leAt x.inBuf 8 4
          let code := decodeBlock (x.inBuf.take 16) ((x.inBuf.drop 16).take n)
          (0 < left → left < 16 → stops (.retBlockDecode d e) 5) ∧
          (16 ≤ left → 16 ≤ x.inBuf.length → zeroAt x.inBuf 0 16 = true → x.outReleased = j.outBytes → Answers (.retBlockDecode d e) s fun t =>
            t = setRetE s d e.val { x with padding := true, inBuf := [] }) ∧
          (16 ≤ left → 16 ≤ x.inBuf.length → zeroAt x.inBuf 0 16 = false → x.outReleased ≠ j.outBytes →
            ((headerLegal x.inBuf = false ∨ left < 16 + n) → stops (.retBlockDecode d e) 1) ∧
            (headerLegal x.inBuf = true → 16 + n ≤ left →
              (x.inBuf.length < 16 + n → Absorbed (.retBlockDecode d e) s) ∧
              (16 + n ≤ x.inBuf.length → (∀ c, code = .error c → stops (.retBlockDecode d e) c) ∧
                ∀ out, code = .ok out →
                  (j.outBytes < x.outReleased + out.length → stops (.retBlockDecode d e) 5) ∧
                  (x.outReleased + out.length ≤ j.outBytes → releases (.retBlockDecode d e) (16 + n) out))))) ∧
        (retDone x j = false → Absorbed (.retJobDone d e) s) ∧
        (retResultWaits s d j = true → Absorbed (.retJobDone d e) s) ∧
        (retDone x j = true → retResultWaits s d j = false → retResultOk s d j = false → Answers (.retJobDone d e) s fun t =>
          retOf t d e.val = { x with job := none } ∧ only t ∧ OpEnded s t d j.queue j.count true ∧ t.signals = s.signals ∧
          ∀ a, memByte t a = memByte s a) ∧
        (retDone x j = true → retResultWaits s d j = false → retResultOk s d j = true → Answers (.retJobDone d e) s fun t => retOf t d e.val = { x with job := none } ∧ only t ∧
          OpDone s t d j.queue j.count j.fence j.fencePa j.value ∧ (j.resAt = none → ∀ a, memByte t a = memByte s a) ∧
          ∀ a, j.resAt = some a → (∀ b, (b < a ∨ a + 32 ≤ b) → memByte t b = memByte s b) ∧ (Memory.wf s.mem → memByte t a = 0 ∧
            memNat t (a + 4) 4 = j.sub % 2 ^ 32 ∧ memNat t (a + 8) 4 = x.blocks % 2 ^ 32 ∧ memNat t (a + 24) 8 = x.outReleased % 2 ^ 64))) ∧
      (∀ c, x.draining = false → (x.stop = some c ∨ x.stop = none ∧ resettingTenant s j.tenant = true ∧ c = 9) →
        let stay := keepsTaking c = true ∧ x.inTaken < j.inBytes
        Answers (.retJobStop d e) s fun t => OpEnded s t d j.queue j.count true ∧ t.signals = s.signals ∧ bit (getRet t d).err.val 0 = true ∧
          (retOf t d e.val).inBuf = [] ∧ (retOf t d e.val).outBuf = x.outBuf ∧ (stay → (retOf t d e.val).job = some j ∧ (retOf t d e.val).draining = true) ∧
          (¬ stay → (retOf t d e.val).job = none ∧ (retOf t d e.val).draining = false) ∧
          (∀ a, j.resAt = some a → reach s d (dieOf a) = true → (∀ b, (b < a ∨ a + 32 ≤ b) → memByte t b = memByte s b) ∧
            (Memory.wf s.mem → memByte t a = 1 ∧ memByte t (a + 1) = BitVec.ofNat 8 c)) ∧
          ((∀ a, j.resAt = some a → reach s d (dieOf a) = false) → ∀ a, memByte t a = memByte s a)) ∧
      ((x.stop = none ∨ x.draining = true) → resettingTenant s j.tenant = false → Absorbed (.retJobStop d e) s) ∧
      (x.draining = true → resettingTenant s j.tenant = true → Answers (.retJobStop d e) s fun t =>
        t = setRetE s d e.val { x with job := none, draining := false, stop := none }) ∧
      (dtime s d < x.progressAt + 100000000 → Absorbed (.retStall d e) s) ∧
      (x.progressAt + 100000000 ≤ dtime s d →
        ((x.draining = true ∨ x.stop ≠ none) → Absorbed (.retStall d e) s) ∧
        (x.draining = false → x.stop = none → Answers (.retStall d e) s fun t => t = setRetE s d e.val { x with stop := some 0x0A }))))

/-- R334 to R338, R341, R344 to R346: flips and frames. A flip is rejected, or queues with its scene resolved; while EAS is unlit nothing
happens. At the decision instant, once before each latch point, the ready flips that apply are the longest run R336 allows, and the member
of a flip group reports its oldest flip to its leader; the leader sends one decision to the members whose reports have reached it, and a
member without one by the group deadline keeps its scene; at the latch point the decided flips' layers take the place of the scene's
and a new frame begins; at the first active line the fences of the applied flips are signalled; active lines are composed in order. -/
def Obligations.FlipsAndFrames : Prop :=
  (∀ (s : State) (d : DieId) (x : Submission) (rest : List Submission) (rd : Nat), AtHead s d 11 x rest rd →
    let b := x.desc
    let u := getEas s d
    let c := subCtx s d x
    let recs := fun (blk : List Byte) => (countUp 0 8).map (fun i => if (leAt b 0x28 1).testBit i then (blk.drop (64 * i)).take 64 else [])
    ∀ cmd ∈ [Instr.flipAccept d, .submissionAccept d 11],
    (domLit s d 10 = false → Absorbed cmd s) ∧
    (domLit s d 10 = true → flipLegal u d (subTenant s d x) b = false → Answers cmd s fun t => Rejected s t d 11 x rest ∧
      getEas t d = { u with err := errRaise u.err s.now 2 }) ∧
    (∀ (sm : Map Nat) (so wo fo : List Nat) (blk : List Byte) (ls : List Layer) (wpa : Option Nat) (hasF : Bool) (fpa : Nat)
        (s0 s2 s3 s4 : State),
      domLit s d 10 = true → flipLegal u d (subTenant s d x) b = true → translateRange s d c (leAt b 0x20 8) 1024 {} = (.ok (sm, so), s0) →
      let s1 := notePages sm s0 ((countUp 0 16).map (fun k => (leAt b 0x20 8 + 64 * k, 64)))
      readPages s1 d sm (leAt b 0x20 8) 1024 = some blk → (∀ r ∈ recs blk, layOn r = true → layerLegal (hActive u) (vActive u) r = true) →
      ((leAt b 0x29 1).testBit 1 = true → ∀ k, k < 16 → safeLegal (hActive u) (vActive u) ((blk.drop (0x200 + 32 * k)).take 32) = true) →
      (∀ u1, coeffsOk d c (recs blk) s1 = (false, u1) → Answers cmd s fun t => Rejected s t d 11 x rest ∧
        getEas t d = { u with err := errRaise u.err s.now 2 }) ∧
      ∀ u1, coeffsOk d c (recs blk) s1 = (true, u1) →
      resolveLayers d c (subTenant s d x) (recs blk) u1 [] = (.ok ls, s2) → waitSide s2 d c b = (.ok (wpa, wo), s3) →
      fenceSide s3 d c b = (.ok (hasF, fpa, fo), s4) →
      let own := joinObjs (joinObjs so wo) fo
      let pins := own ++ ls.flatMap (fun l => l.pins)
      (∀ o ∈ pins, pinCount s4 d o + pins.count o < 2 ^ 20) → Answers cmd s fun t => Accepted s t d 11 x rest rd ∧
        ∃ f, getEas t d = { u with pending := u.pending ++ [f] } ∧ f.records = ls ∧ f.layers = leAt b 0x28 1 ∧ f.waitPa = wpa ∧
          f.waitValue = le64 (b.drop 0x18) ∧ f.mailbox = (leAt b 0x29 1).testBit 0 ∧ f.safe = (leAt b 0x29 1).testBit 1 ∧
          f.group = leAt b 0x2A 1 ∧ f.groupId = leAt b 0x2C 4 ∧ f.fence = hasF ∧ f.fencePa = fpa ∧ f.value = le64 (b.drop 8) ∧ f.pins = own ∧
          f.at_ = dtime s d ∧ f.waitLogged = false)) ∧
  (∀ (s : State) (d : DieId), let u := getEas s d
    (easRuns s d = false → ∀ cmd ∈ [Instr.flipDecision d, .flipGroupDecision d, .flipGroupSplit d, .latchPoint d, .firstActiveLine d],
      Absorbed cmd s) ∧
    (easRuns s d = true →
      (u.instant = true → Absorbed (.flipDecision d) s) ∧
      (u.instant = false →
        let ready (f : Flip) : Prop := f.group = 0 ∧ flipWaitOver s d f = true
        (u.pending = [] → Answers (.flipDecision d) s fun t => t = setEas s d { u with instant := true, decided := [] }) ∧
        (∀ f r, u.pending = f :: r → f.group = 0 → Answers (.flipDecision d) s fun t =>
          t = setEas s d { u with instant := true, decided := (getEas t d).decided } ∧
          ∃ n, (getEas t d).decided = u.pending.take n ∧ n ≤ u.pending.length ∧
            (∀ i g, i < n → u.pending[i]? = some g → ready g ∧ (i ≠ 0 → g.mailbox = true)) ∧
            ∀ g, u.pending[n]? = some g → (n = 0 ∨ g.mailbox = true) → ¬ ready g) ∧
        (∀ f r, u.pending = f :: r → f.group ≠ 0 → Answers (.flipDecision d) s fun t =>
          t = setEas s d { u with instant := true, decided := [], held := (getEas t d).held,
                                  report := some (f.group, f.groupId, flipWaitOver s d f) } ∧
          ∃ n, (getEas t d).held = f :: r.take n ∧ n ≤ r.length ∧
            (∀ i g, i < n → r[i]? = some g → ready g ∧ g.mailbox = true) ∧ ∀ g, r[n]? = some g → g.mailbox = true → ¬ ready g)) ∧
      (u.instant = false → Absorbed (.flipGroupDecision d) s) ∧
      (u.instant = true → Answers (.flipGroupDecision d) s fun t => t = { s with eas := t.eas } ∧ ∀ n, let v := getEas s n
        let told (g : Nat) : Prop := g.testBit d.val = true ∧ (∀ m : DieId, g.testBit m.val = true → d ≤ m) ∧ reach s n d = true
        ((v.report = none ∨ v.groupDecision ≠ none ∨ (∃ g i w, v.report = some (g, i, w) ∧ ¬ told g)) → getEas t n = v) ∧
        ∀ g i w, v.report = some (g, i, w) → v.groupDecision = none → told g → ∃ apply : Bool,
          getEas t n = { v with groupDecision := some (i, apply), decided := if apply then v.held else [] } ∧
          (u.groupDecision = none → (apply = true ↔ ∀ m : DieId, g.testBit m.val = true → reach s m d = true ∧
            (getEas s m).report = some (g, i, true) ∧ (getEas s m).timH = u.timH ∧ (getEas s m).timV = u.timV ∧ (getEas s m).pclk = u.pclk)) ∧
          (∀ x, u.groupDecision = some x → (apply = true ↔ x.2 = true ∧ ∃ y, u.report = some (g, i, y)))) ∧
      ((u.report = none ∨ u.groupDecision ≠ none) → Absorbed (.flipGroupSplit d) s) ∧
      (u.report ≠ none → u.groupDecision = none → Answers (.flipGroupSplit d) s fun t =>
        getEas t d = { u with decided := [], held := [], report := none, err := errRaise u.err s.now 4 } ∧
        t = setLog (setEas s d (getEas t d)) d (getLog t d)) ∧
      ((easOn u = true → u.linkUp = true → u.line ≠ vActive u → Absorbed (.latchPoint d) s) ∧
      ((easOn u = false ∨ u.linkUp = false) → u.latchDue = false → Absorbed (.latchPoint d) s) ∧
      ((if easOn u && u.linkUp then u.line = vActive u else u.latchDue = true) → Answers (.latchPoint d) s fun t => let v := getEas t d
        v.frame = (u.frame + 1) % 2 ^ 32 ∧ v.line = 0 ∧ v.accum = [] ∧ v.decided = [] ∧ v.groupDecision = none ∧ v.disable = 0 ∧
        v.instant = false ∧ v.report = none ∧ v.held = [] ∧ v.latchDue = false ∧
        v.fresh = u.fresh ++ u.decided ∧ v.pending = u.pending.filter (fun f => !decide (f ∈ u.decided)) ∧
        (∀ i l, (u.decided = [] ∨ ∃ f, u.decided = [f] ∧ f.layers.testBit i = false) → u.layers[i]? = some l →
          v.layers[i]? = some (if u.disable.testBit i then layerOff else l)) ∧
        (∀ i l f, u.decided = [f] → f.layers.testBit i = true → u.disable.testBit i = false → u.layers[i]? = some l →
          v.layers[i]? = some (lget layerOff f.records i)) ∧
        (u.line ≠ 0 → vActive u ≤ u.line → mwf 0 u.crcs = true → ∀ k, k < 16 → mget 0 v.crcs k = if safeAction (lget [] u.table k) = 0 then 0 else mget 0 u.accum k) ∧
        (u.line ≠ 0 → vActive u ≤ u.line → ∀ k, v.mismatch.testBit k = (decide (k < 16) && decide (2 ≤ safeAction (lget [] u.table k)) &&
          decide (mget 0 u.accum k ≠ le64 ((lget [] u.table k).drop 0x10)))) ∧
        ((u.line = 0 ∨ u.line < vActive u) → v.crcs = u.crcs ∧ v.mismatch = u.mismatch ∧ v.err = u.err) ∧ t = setLog (setEas s d v) d (getLog t d))) ∧
      (u.line ≠ 0 → Absorbed (.firstActiveLine d) s) ∧
      (u.line = 0 → Answers (.firstActiveLine d) s fun t => (u.trained = none → getEas t d = { u with fresh := [], release := [] }) ∧
        (∀ r l, u.trained = some (r, l) →
          getEas t d = { u with fresh := [], release := [], trained := none, linkUp := true, rate := r, lanes := l }) ∧ (∀ a, memByte t a = memByte s a) ∧
        (u.fresh = [] → t.signals = s.signals) ∧ ∀ f, u.fresh = [f] → OpDone s t d f.queue f.count f.fence f.fencePa f.value))) ∧
  (∀ (s : State) (d : DieId), let u := getEas s d
    let due (f : Flip) : Prop := f.group ≠ 0 ∧ f.waitLogged = false ∧ f.at_ + 100000000 ≤ dtime s d
    ((∀ f ∈ u.pending, ¬ due f) → Absorbed (.flipGroupWait d) s) ∧
    ((∃ f ∈ u.pending, due f) → Answers (.flipGroupWait d) s fun t => (getEas t d).pending.length = u.pending.length ∧
      (∃ f ∈ u.pending, due f ∧ { f with waitLogged := true } ∈ (getEas t d).pending ∧ f ∉ (getEas t d).pending) ∧
      getEas t d = { u with pending := (getEas t d).pending, decided := (getEas t d).decided } ∧
      t = setLog (setEas s d (getEas t d)) d (getLog t d))) ∧
  (∀ (s : State) (d : DieId) (y : Nat) (late : List (Nat × Nat)), let u := getEas s d
    ((easRuns s d = false ∨ easOn u = false ∨ u.line ≠ y ∨ vActive u ≤ y ∨ (y = 0 ∧ (u.fresh ≠ [] ∨ u.release ≠ []))) →
      Absorbed (.lineCompose d y late) s) ∧
    (easRuns s d = true → easOn u = true → u.line = y → y < vActive u → (y ≠ 0 ∨ u.fresh = [] ∧ u.release = []) →
      Answers (.lineCompose d y late) s fun t => let v := getEas t d
        v.line = y + 1 ∧ v.lineOut.length = hActive u ∧ v.layers = u.layers ∧ v.frame = u.frame ∧ v.crcs = u.crcs ∧ (∀ a, memByte t a = memByte s a) ∧
        (bit u.ctl 2 = true → ∀ x k, x < hActive u → k < 16 → u.blackout.testBit k = true → inRegion (lget [] u.table k) x y = true →
          v.lineOut[x]? = some (fld u.blackoutCol 9 0, fld u.blackoutCol 19 10, fld u.blackoutCol 29 20)) ∧
        ((∀ l ∈ u.layers, layOn l.bytes = false) → v.err = u.err ∧ (bit u.ctl 2 = true → u.blackout = 0 → ∀ x, x < hActive u →
          v.lineOut[x]? = some (encodeUnorm 10 (decodeChan (.unorm 10) (fld u.bg 9 0)), encodeUnorm 10 (decodeChan (.unorm 10) (fld u.bg 19 10)),
            encodeUnorm 10 (decodeChan (.unorm 10) (fld u.bg 29 20)))))))

/-- R347 to R349, R351, Tables 13.6, 13.8, 13.9, 13.11: the DisplayPort link, its registers and AUX. A plug starts the link's training
where the output is enabled, an unplug ends it, loss of lock trains it again; training tries the combinations that carry the mode in
order, comes up at the next frame start and gives up after the last; the timing registers are written only while the output is off; one AUX transaction runs at a time,
and a DEFER is retried up to seven times. -/
def Obligations.DisplayLinkAndAux : Prop :=
  (∀ (s : State) (d : DieId), let u := getEas s d
    let down (v : EasUnit) : Prop := v.linkUp = false ∧ v.rate = 0 ∧ v.lanes = 0 ∧ v.trained = none
    (u.hpd = true → Absorbed (.hpdPlug d) s) ∧
    (u.hpd = false → Answers (.hpdPlug d) s fun t => let v := getEas t d
      t = setEas s d v ∧ v.hpd = true ∧ down v ∧ v.training = easOn u ∧ (easOn u = true → v.tries = 0 ∧ v.failed = false) ∧ v.ctl = u.ctl ∧ v.aux = u.aux) ∧
    (Answers (.hpdUnplug d) s fun t => let v := getEas t d
      v.hpd = false ∧ down v ∧ v.training = false ∧ v.ctl = u.ctl ∧ v.pending = u.pending ∧ (u.linkUp = false → u.trained = none → getLog t d = getLog s d) ∧
      t = setLog (setEas s d v) d (getLog t d)) ∧
    Absorbed (.irqHpd d .statusOk) s ∧
    ((u.hpd = false ∨ u.linkUp = false ∧ u.trained = none) → Absorbed (.irqHpd d .lostLock) s) ∧
    (u.hpd = true → (u.linkUp = true ∨ u.trained ≠ none) → Answers (.irqHpd d .lostLock) s fun t => let v := getEas t d
      down v ∧ v.training = easOn u ∧ v.hpd = true ∧ v.ctl = u.ctl ∧ t = setLog (setEas s d v) d (getLog t d)) ∧
    (∀ (p : BitVec 5) (r : BitVec 3) (l : BitVec 2),
      ((u.hpd = false ∨ bit (getKiln s d).dp 10 = false ∨ easOn u = true ∨ dpPatternFits p.toNat r.toNat = false ∨ l = 3) →
        Absorbed (.irqHpd d (.phyTest p r l)) s) ∧
      (u.hpd = true → bit (getKiln s d).dp 10 = true → easOn u = false → dpPatternFits p.toNat r.toNat = true → l ≠ 3 →
        Answers (.irqHpd d (.phyTest p r l)) s fun t => let k := getKiln t d
          t = setKiln s d { getKiln s d with dpActive := k.dpActive } ∧ fld k.dpActive 4 0 = p.toNat ∧ fld k.dpActive 7 5 = r.toNat ∧
            fld k.dpActive 9 8 = l.toNat)) ∧
    (∀ (sr : BitVec 6) (sl : BitVec 2) (good : Bool),
      ((easRuns s d = false ∨ u.training = false ∨ u.hpd = false ∨ easOn u = false) → Absorbed (.dpLinkTrain d sr sl good) s) ∧
      (easRuns s d = true → u.training = true → u.hpd = true → easOn u = true →
        let gaveUp (n : Nat) : Prop := Answers (.dpLinkTrain d sr sl good) s fun t =>
          getEas t d = { u with training := false, failed := true, tries := n, err := errRaise u.err s.now 3 } ∧
          t = setLog (setEas s d (getEas t d)) d (getLog t d)
        ((linkTries u sr.toNat sl.toNat).drop u.tries = [] → gaveUp u.tries) ∧
        (∀ r l rest, (linkTries u sr.toNat sl.toNat).drop u.tries = (r, l) :: rest →
          (good = true → Answers (.dpLinkTrain d sr sl good) s fun t =>
            t = setEas s d { u with training := false, trained := some (r, l), tries := u.tries + 1 } ∧
            r ≤ fld u.ctl 7 4 ∧ l ≤ fld u.ctl 9 8 ∧ l ≤ sl.toNat ∧ linkFits u r l = true) ∧
          (good = false → rest ≠ [] → Answers (.dpLinkTrain d sr sl good) s fun t => t = setEas s d { u with tries := u.tries + 1 }) ∧
          (good = false → rest = [] → gaveUp (u.tries + 1)))))) ∧
  (∀ (s : State) (d : DieId), Served s d 14 → let u := getEas s d
    let fine (v : W64) : Prop := 1 ≤ fld v 7 4 ∧ fld v 7 4 ≤ 6 ∧ fld v 9 8 ≠ 3
    (∀ v : W64, ¬ fine v → Absorbed (.easCtlWrite d v) s) ∧
    (∀ v : W64, fine v → Answers (.easCtlWrite d v) s fun t => let w := getEas t d
      t = setEas s d w ∧ w.ctl = keepBits v 0x3F7 ∧ w.timH = u.timH ∧ w.pending = u.pending ∧
      (bit v 0 = false → w.linkUp = false ∧ w.training = false) ∧
      (bit v 0 = true → (easOn u = false ∨ bit v 3 = true) → w.linkUp = false ∧ w.training = u.hpd ∧ (u.hpd = true → w.tries = 0)) ∧
      (bit v 0 = true → easOn u = true → bit v 3 = false → w.linkUp = u.linkUp ∧ w.training = u.training)) ∧
    (¬ fine u.ctl → Absorbed (.retrain d) s) ∧
    (fine u.ctl → Answers (.retrain d) s fun t => let w := getEas t d
      t = setEas s d w ∧ (∀ k, k < 10 → k ≠ 3 → bit w.ctl k = bit u.ctl k) ∧ w.linkUp = false ∧ w.training = (easOn u && u.hpd) ∧
      (easOn u = true → u.hpd = true → w.tries = 0 ∧ w.failed = false)) ∧
    (∀ v : W64, v ≠ BitVec.allOnes 64 → easOn u = true → ∀ r, Answers (.easTimingWrite d r v) s fun t => t = countDiscard s d) ∧
    (∀ v : W64, easOn u = false →
      (timingLegal 7680 v = true → Answers (.easTimingWrite d 0 v) s fun t => t = setEas s d { u with timH := v }) ∧
      (timingLegal 4320 v = true → Answers (.easTimingWrite d 1 v) s fun t => t = setEas s d { u with timV := v }) ∧
      (25000 ≤ fld v 31 0 → fld v 31 0 ≤ 2250000 → Answers (.easTimingWrite d 2 v) s fun t =>
        t = setEas s d { u with pclk := keepBits v (2 ^ 34 - 1) }) ∧
      (timingLegal 7680 v = false → Absorbed (.easTimingWrite d 0 v) s) ∧ (timingLegal 4320 v = false → Absorbed (.easTimingWrite d 1 v) s) ∧
      ((fld v 31 0 < 25000 ∨ 2250000 < fld v 31 0) → Absorbed (.easTimingWrite d 2 v) s)) ∧
    (∀ (a : BitVec 20) (n : BitVec 5) (mot : Bool),
      ∀ x ∈ [(Instr.auxNativeWrite d a n mot, (0 : Nat)), (.auxNativeRead d a n mot, 1), (.auxI2cWrite d a n mot, 2), (.auxI2cRead d a n mot, 3)],
        ((n = 0 ∨ 16 < n.toNat ∨ u.aux ≠ none) → Absorbed x.1 s) ∧
        (1 ≤ n.toNat → n.toNat ≤ 16 → u.aux = none →
          (u.hpd = true → Answers x.1 s fun t => t = setEas s d { u with
            aux := some { op := x.2, addr := a.toNat, len := n.toNat, mot := mot, defers := 0,
                          data := if x.2 % 2 = 0 then (natLe 8 u.aux0.toNat ++ natLe 8 u.aux1.toNat).take n.toNat else [] } }) ∧
          (u.hpd = false → Answers x.1 s fun t => (getEas t d).aux = none ∧ fld (getEas t d).auxResult 19 16 = 4 ∧
            fld (getEas t d).auxResult 15 0 = (fld u.auxResult 15 0 + 1) % 65536 ∧ (getEas t d).rd0 = u.rd0 ∧ t = setEas s d (getEas t d))))) ∧
  (∀ (s : State) (d : DieId), let u := getEas s d
    (u.aux = none → ∀ r, Absorbed (.auxComplete d r) s) ∧
    (∀ a, u.aux = some a → s.board.powerOk = true →
      let ends (r : AuxReply) (status len : Nat) (P : EasUnit → Prop) : Prop := Answers (.auxComplete d r) s fun t => let v := getEas t d
        t = setEas s d v ∧ v.aux = none ∧ fld v.auxResult 19 16 = status ∧ fld v.auxResult 28 24 = len ∧
        fld v.auxResult 15 0 = (fld u.auxResult 15 0 + 1) % 65536 ∧ P v
      (∀ data, a.op % 2 = 1 → a.len ≤ 16 → data.length = a.len → ends (.ack data) 0 a.len (fun v =>
        ∀ k, k < a.len → lget 0 (natLe 8 v.rd0.toNat ++ natLe 8 v.rd1.toNat) k = lget 0 data k)) ∧
      (∀ data, a.op % 2 = 0 → a.len ≤ 16 → ends (.ack data) 0 a.len (fun v => v.rd0 = u.rd0 ∧ v.rd1 = u.rd1)) ∧
      ends .nack 1 0 (fun v => v.rd0 = u.rd0 ∧ v.rd1 = u.rd1) ∧ ends .timeout 3 0 (fun v => v.rd0 = u.rd0 ∧ v.rd1 = u.rd1) ∧
      (a.defers < 7 → Answers (.auxComplete d .defer) s fun t => t = setEas s d { u with aux := some { a with defers := a.defers + 1 } }) ∧
      (7 ≤ a.defers → ends .defer 2 0 (fun _ => True))))

/-- R353, R354, R359, R365: training of a cord. A lit dark cord begins its training; the lane test's failed lanes choose the first whole
width of R354, a retrained cord resends what was not acknowledged, and a cord with no whole width is DOWN with nothing in flight;
CORD_CMD retrains a cord that has been up, or the cord of a held-dark die. -/
def Obligations.CordTraining : Prop :=
  (∀ (s : State) (a b : DieId), let i := cordIdx a b
    let c := cordOf s i
    let may := a < b ∧ s.board.powerOk = true ∧ c.lit = true ∧ c.training = false ∧ c.state = .dark ∧ patternMode s i = false
    (¬ may → Absorbed (.cordTrain a b) s) ∧
    (may → Answers (.cordTrain a b) s fun t => t = setCord s i { c with training := true, since := s.now }) ∧
    (∀ f : BitVec 64,
      ((b ≤ a ∨ s.board.powerOk = false ∨ c.training = false) → Absorbed (.cordTrainDone a b f) s) ∧
      (a < b → s.board.powerOk = true → c.training = true → c.lit = true → s.cords.length = 6 → (∀ n, (getEnds s n).length = 3) →
        (cordLitNow s i false = true ∨ c.checked = true) →
        let bad (lo n : Nat) : Nat := popcount n (f.toNat / 2 ^ lo)
        let whole := bad 0 64 ≤ 4 ∨ bad 0 32 ≤ 4 ∨ bad 32 32 ≤ 4 ∨ ∃ k, k < 4 ∧ bad (16 * k) 16 ≤ 4
        Answers (.cordTrainDone a b f) s fun t => let x := cordOf t i
          x.training = false ∧ x.failed = f.toNat ∧ (∀ m, memByte t m = memByte s m) ∧
          (bad 0 64 ≤ 4 → x.width = 3 ∧ x.repaired = bad 0 64) ∧
          (4 < bad 0 64 → bad 0 32 ≤ 4 → x.width = 2 ∧ x.repaired = bad 0 32) ∧
          (4 < bad 0 64 → 4 < bad 0 32 → bad 32 32 ≤ 4 → x.width = 2 ∧ x.repaired = bad 32 32) ∧
          (whole → x.lit = c.lit ∧ x.state = (if isFenced t a || isFenced t b then .fenced else .up) ∧ 1 ≤ x.width ∧
            ((c.state = .up ∨ c.state = .fenced) → ∀ p ∈ cordEnds i, (endOf t p.1 p.2).replay = (endOf s p.1 p.2).replay ∧
              (endOf t p.1 p.2).resend = (endOf s p.1 p.2).replay.map (fun r => r.1)) ∧
            (x.width < 3 → ∀ p ∈ cordEnds i, bit (endOf t p.1 p.2).err.val 2 = true)) ∧
          (¬ whole → x.width = 0 ∧ x.repaired = 0 ∧ (c.checked = false → x.state = .down ∧ x.lit = c.lit) ∧
            (c.checked = true → cordLitNow s i false = false → x.state = .dark ∧ x.lit = false) ∧
            ∀ p ∈ cordEnds i, let y := endOf t p.1 p.2
              bit y.err.val 3 = true ∧ y.replay = [] ∧ y.resend = [] ∧ y.waiting = [] ∧ y.inbox = [] ∧ y.slots = [])))) ∧
  (∀ (s : State) (d : DieId) (e : Fin 3), Served s d 13 → s.cords.length = 6 → (∀ n, (getEnds s n).length = 3) →
    let i := endCord d e.val
    let c := cordOf s i
    let p := cordDies i
    (c.state ≠ .dark → (patternMode s i = true ∨ c.training = true) → Absorbed (.cordRetrain d e) s) ∧
    (c.state ≠ .dark → patternMode s i = false → c.training = false → Answers (.cordRetrain d e) s fun t =>
      cordOf t i = { c with training := true, since := s.now } ∧ (∀ k, k ≠ i → cordOf t k = cordOf s k) ∧
      (c.state = .down → t.ends = s.ends) ∧ (c.state ≠ .down → ∀ q ∈ cordEnds i, bit (endOf t q.1 q.2).err.val 1 = true ∧
        (endOf t q.1 q.2).replay = (endOf s q.1 q.2).replay ∧ (endOf t q.1 q.2).waiting = (endOf s q.1 q.2).waiting) ∧
      t = { s with cords := t.cords, ends := t.ends }) ∧
    (c.state = .dark → c.training = true → p.1 = 0 → isHeld s p.2 = true → Absorbed (.cordRetrain d e) s) ∧
    (c.state = .dark → c.training = false → p.1 = 0 → isHeld s p.2 = true → Answers (.cordRetrain d e) s fun t =>
      t = setCord s i { c with lit := true, checked := true, training := true, since := s.now }) ∧
    (c.state = .dark → (p.1 ≠ 0 ∨ isHeld s p.2 = false) → Answers (.cordRetrain d e) s fun t => t = countDiscard s d))

/-- R356 to R360: flits and replay. Where no transaction of the bin class waits on the end, the next one of the die's passes is put there. A
flit to be replayed goes first; else waiting transactions for which there are credits, C0 before
all others, while fewer than 64 flits are unacknowledged, else an idle flit; a flit that is bad or out of sequence is discarded with
one NAK a gap; a good one acknowledges, returns credits and delivers its whole transactions; a NAK or 2 us without an acknowledgement
resends everything unacknowledged in order, and the 17th replay within 1 ms or a fourth resend of one flit retrains the cord. -/
def Obligations.FlitsAndReplay : Prop :=
  ∀ (s : State) (d : DieId) (e : Fin 3), (∀ n, (getEnds s n).length = 3) → s.cords.length = 6 →
    let i := endCord d e.val
    let x := endOf s d e.val
    let s0 := if (cordOf s i).state = .up then pullBins s d e.val else s
    let x0 := endOf s0 d e.val
    (cordRuns s i = false → Absorbed (.flitTransmit d e) s ∧ Absorbed (.flitAckTimeout d e) s ∧ ∀ f, Absorbed (.flitReceive d e f) s) ∧
    (cordRuns s i = true →
      ((cordOf s i).state = .fenced → s0 = s) ∧
      ((cordOf s i).state = .up → (∀ p ∈ (getGeo s d).passes, qget p.out (endPeer d e.val) = []) → s0 = s) ∧
      (∀ p tx k, (cordOf s i).state = .up → (∀ z ∈ (endOf s d e.val).waiting, z.hdr.cls ≠ 3) →
        (getGeo s d).passes.find? (fun p => !(qget p.out (endPeer d e.val)).isEmpty) = some p → binTx (qget p.out (endPeer d e.val)) = some (tx, k) →
        x0 = { x with waiting := x.waiting ++ [tx] }) ∧
      (∀ f rest, x0.resend = f :: rest → Answers (.flitTransmit d e) s fun t =>
        t = setEnd s0 d e.val { x0 with resend := rest, sent := some f }) ∧
      (x0.resend = [] → x0.credits.length = 5 → Answers (.flitTransmit d e) s fun t => ∃ (f : Flit) (txs : List CordTx),
        let x := x0
        let y := endOf t d e.val
        y.sent = some f ∧ f.seq = BitVec.ofNat 12 x.txSeq ∧ f.ack = BitVec.ofNat 12 (x.rxNext + 4095) ∧ f.nak = x.sendNak ∧ f.crc = flitCrc f ∧
        f.credit = x.freed.map (fun n => BitVec.ofNat 4 (min 15 n)) ∧ f.payload = padTo 15 0 (txs.flatMap txSlots) ∧
        (f.idle = true ↔ txs = []) ∧ x.waiting.Perm (txs ++ y.waiting) ∧ (txs.map txSize).sum ≤ 15 ∧
        (∀ c, c < 5 → lget 0 y.credits c + ((txs.filter (fun z => z.hdr.cls.toNat == c)).map txSize).sum = lget 0 x.credits c) ∧
        ((cordOf s i).state = .fenced → ∀ z ∈ txs, z.hdr.cls = 4) ∧
        ((cordOf s i).state = .up → x.replay.length < 64 → ∀ z, x.waiting.find? (fun w => w.hdr.cls.toNat == 0) = some z →
          txSize z ≤ lget 0 x.credits 0 → txSize z ≤ 15 → txs.head? = some z) ∧
        (64 ≤ x.replay.length → txs = []) ∧
        y.freed = x.freed.map (fun n => n - 15) ∧ y.sendNak = false ∧ y.rxNext = x.rxNext ∧ y.inbox = x.inbox ∧
        (txs = [] → y.txSeq = x.txSeq ∧ y.replay = x.replay) ∧
        (txs ≠ [] → y.txSeq = (x.txSeq + 1) % 4096 ∧ y.replay = x.replay ++ [(f, s.now, 0)]) ∧ t = setEnd s0 d e.val y) ∧
      (∀ f : Flit, (f.crc ≠ flitCrc f ∨ f.seq.toNat ≠ x.rxNext) → Answers (.flitReceive d e f) s fun t =>
        t = setEnd s d e.val { x with gap := true, sendNak := x.sendNak || !x.gap }) ∧
      (∀ f : Flit, f.crc = flitCrc f → f.seq.toNat = x.rxNext →
        let p := if f.idle then (x.slots, [], none) else parseSlots 64 (x.slots ++ f.payload) []
        Answers (.flitReceive d e f) s fun t => let y := endOf t d e.val
          y.gap = false ∧ y.rxNext = (if f.idle then x.rxNext else (x.rxNext + 1) % 4096) ∧ y.slots = p.1 ∧ y.inbox = x.inbox ++ p.2.1 ∧
          y.waiting = x.waiting ∧ y.credits = (x.credits.zip f.credit).map (fun q => q.1 + q.2.toNat) ∧ (∀ a, memByte t a = memByte s a) ∧
          ((∀ r ∈ x.replay, r.1.seq ≠ f.ack) → y.replay.map (fun r => r.1) = x.replay.map (fun r => r.1)) ∧
          (∀ k r, x.replay[k]? = some r → r.1.seq = f.ack → (∀ j q, j < k → x.replay[j]? = some q → q.1.seq ≠ f.ack) →
            y.replay.map (fun r => r.1) = (x.replay.drop (k + 1)).map (fun r => r.1)) ∧
          (f.nak = true → y.resend = y.replay.map (fun r => r.1) ∧ ∀ q ∈ cordEnds i, bit (endOf t q.1 q.2).err.val 0 = true) ∧
          (f.nak = false → p.2.2 = none → t = setEnd s d e.val y) ∧
          (∀ h, p.2.2 = some h → (cordOf t i).training = true)) ∧
      ((∀ r ∈ x.replay, s.now < r.2.1 + 2000) → Absorbed (.flitAckTimeout d e) s) ∧
      ((∃ r ∈ x.replay, r.2.1 + 2000 ≤ s.now) → Answers (.flitAckTimeout d e) s fun t => let y := endOf t d e.val
        let again := 16 ≤ (x.replays.filter (fun z => decide (s.now < z + 1000000))).length ∨ ∃ r ∈ x.replay, 3 ≤ r.2.2
        y.resend = x.replay.map (fun r => r.1) ∧ y.replay = x.replay.map (fun r => (r.1, s.now, r.2.2 + 1)) ∧ y.waiting = x.waiting ∧
        y.inbox = x.inbox ∧ (∀ q ∈ cordEnds i, bit (endOf t q.1 q.2).err.val 0 = true) ∧ (again → (cordOf t i).training = true) ∧
        (¬ again → t.cords = s.cords) ∧ ∀ a, memByte t a = memByte s a))

/-- R46, R81, R97, R288, R292, R309, R360 to R364, Table 14.5: transactions. A transaction acts when it has been delivered at an end of
a cord that is UP and its turn has come; it leaves its slots, and a request has its effect at the home die and its response put behind
what waits there; a response ends its request and reaches whoever waits for it; a request that has waited 20 us completes as timed out,
and its response, should it come, is discarded. -/
def Obligations.CordTransactions : Prop :=
  (∀ (s : State) (d : DieId) (e : Fin 3) (h : CordHdr) (data : List Byte), (getEnds s d).length = 3 →
    let x := endOf s d e.val
    let tx : CordTx := { hdr := h, data := data }
    let turn := deliverable x tx = true ∧ cordRuns s (endCord d e.val) = true ∧ (cordOf s (endCord d e.val)).state = .up
    let freed := lset x.freed h.cls.toNat (lget 0 x.freed h.cls.toNat + txSize tx)
    let reply (typ len status arg : Nat) (bytes : List Byte) : CordTx :=
      { hdr := { typ := BitVec.ofNat 8 typ, cls := 2, len := BitVec.ofNat 4 len, tag := h.tag, status := BitVec.ofNat 4 status, addr := 0,
                 arg := BitVec.ofNat 56 arg }, data := bytes }
    let replied (t : State) (r : CordTx) : Prop := getEnds t d =
      lset (getEnds s d) e.val { x with inbox := x.inbox.erase tx, freed := freed, waiting := x.waiting ++ [r] }
    let quiet (t : State) (r : CordTx) : Prop := t =
      setEnd s d e.val { x with inbox := x.inbox.erase tx, freed := freed, waiting := x.waiting ++ [r] }
    let a := h.addr.toNat
    let same (t : State) (lo n : Nat) : Prop := ∀ k, (k < lo ∨ lo + n ≤ k) → memByte t k = memByte s k
    let read (t : State) : Prop := t = { s with ends := t.ends, memu := t.memu, poison := t.poison, logs := t.logs }
    (∀ r ∈ [(Instr.rd d e h data, (0x01 : Nat)), (.wr d e h data, 0x02), (.wrp d e h data, 0x03), (.atom d e h data, 0x04), (.sig d e h data, 0x05),
        (.drw d e h data, 0x06), (.drwp d e h data, 0x07), (.srd d e h data, 0x08), (.swrp d e h data, 0x09), (.rdRsp d e h data, 0x10),
        (.wrAck d e h data, 0x11), (.atomRsp d e h data, 0x12), (.sigAck d e h data, 0x13)],
      (h.typ.toNat ≠ r.2 ∨ ¬ turn ∨ (r.2 ≤ 7 ∧ rowWaits s a 64 = true)) → Absorbed r.1 s) ∧
    (turn → rowWaits s a 64 = false →
      (h.typ = 1 → let n := if h.arg.toNat.testBit 0 then 128 else 64
        Answers (.rd d e h data) s fun t => read t ∧ replied t (reply 0x10 (n / 16) (if poisonIn t a n then 2 else 0) 0 (memRead s a n))) ∧
      (∀ r ∈ [(Instr.wr d e h data, (2 : Nat)), (.drw d e h data, 6)], h.typ.toNat = r.2 → data.length = 64 → Memory.wf s.mem →
        Answers r.1 s fun t => replied t (reply 0x11 0 0 0 []) ∧ memRead t a 64 = data ∧ same t a 64 ∧
          t = { s with mem := t.mem, poison := t.poison, memu := t.memu, watches := t.watches, ends := t.ends }) ∧
      (∀ r ∈ [(Instr.wrp d e h data, (3 : Nat)), (.drwp d e h data, 7)], h.typ.toNat = r.2 → data.length = 80 → Memory.wf s.mem →
        Answers r.1 s fun t => replied t (reply 0x11 0 0 0 []) ∧
          (∀ k, k < 64 → memByte t (a + k) = if (leNat (data.take 8)).testBit k then lget 0 data (16 + k) else memByte s (a + k)) ∧ same t a 64 ∧
          t = { s with mem := t.mem, poison := t.poison, memu := t.memu, watches := t.watches, ends := t.ends }) ∧
      (h.typ = 4 → let n := if fldN h.arg.toNat 14 12 = 3 then 8 else 4
        let pa := a + fldN h.arg.toNat 21 16 / n * n
        (poisonAt (noteRead s pa n) pa = true → Answers (.atom d e h data) s fun t => read t ∧ replied t (reply 0x12 1 2 0 (rep 16 0))) ∧
        (poisonAt (noteRead s pa n) pa = false → Memory.wf s.mem → Answers (.atom d e h data) s fun t =>
          replied t (reply 0x12 1 0 0 (natLe 16 (memNat s pa n))) ∧ same t pa n ∧
          memNat t pa n = atomicNew (fldN h.arg.toNat 11 0 - 0x280) (8 * n) (memNat s pa n) (leNat (data.take n)) (leNat ((data.drop 8).take n)) %
            2 ^ (8 * n))) ∧
      (h.typ = 5 → let pa := a + fldN h.arg.toNat 5 0 / 8 * 8
        let v := le64 data
        let old := memWord s pa
        (poisonAt (noteRead s pa 8) pa = true → Answers (.sig d e h data) s fun t => read t ∧ replied t (reply 0x13 0 2 0 [])) ∧
        (poisonAt (noteRead s pa 8) pa = false → Memory.wf s.mem → Answers (.sig d e h data) s fun t => same t pa 8 ∧
          memWord t pa = (if (v - old).msb then old else v) ∧
          replied t (reply 0x13 0 0 (if v = old then 0 else if (v - old).msb then 2 else 1) [])))) ∧
    (turn →
      (h.typ = 8 → let o := a - 0x100000
        (stageOk s d o 64 (h.arg.toNat % 16) = true → Answers (.srd d e h data) s fun t =>
          replied t (reply 0x10 4 0 0 (stageRead s d o 64)) ∧ t.staging = s.staging ∧ t.mem = s.mem) ∧
        (stageOk s d o 64 (h.arg.toNat % 16) = false → Answers (.srd d e h data) s fun t => quiet t (reply 0x10 4 4 0 (rep 64 0)))) ∧
      (h.typ = 9 → let o := a - 0x100000
        (stageOk s d o 64 (h.arg.toNat % 16) = false → Answers (.swrp d e h data) s fun t => quiet t (reply 0x11 0 4 0 [])) ∧
        (stageOk s d o 64 (h.arg.toNat % 16) = true → data.length = 80 → mwf 0 (getStaging s d) = true → Answers (.swrp d e h data) s fun t =>
          replied t (reply 0x11 0 0 0 []) ∧ (∀ k, memByte t k = memByte s k) ∧
          ∀ k, mget 0 (getStaging t d) k = if o ≤ k ∧ k < o + 64 ∧ (leNat (data.take 8)).testBit (k - o) = true then lget 0 data (16 + (k - o))
            else mget 0 (getStaging s d) k)) ∧
      (∀ r ∈ [(Instr.rdRsp d e h data, (0x10 : Nat)), (.wrAck d e h data, 0x11), (.atomRsp d e h data, 0x12), (.sigAck d e h data, 0x13)],
        h.typ.toNat = r.2 →
        let y : CordEnd := { x with inbox := x.inbox.erase tx, freed := freed }
        let z : CordEnd := { y with asks := mdel x.asks h.tag.toNat }
        (mfind x.asks h.tag.toNat = none → Answers r.1 s fun t => t = setEnd s d e.val { y with late := x.late.erase h.tag.toNat }) ∧
        (∀ q, mfind x.asks h.tag.toNat = some q → stillAsks s d q.who = false → Answers r.1 s fun t => t = setEnd s d e.val z) ∧
        (∀ q, mfind x.asks h.tag.toNat = some q → stillAsks s d q.who = true → (∀ k, q.who ≠ .signal k) → (∀ k u, q.who ≠ .drain k u) →
          Answers r.1 s fun t =>
            t = setEnd s d e.val { z with answers := x.answers ++ [{ who := q.who, status := h.status.toNat, data := data }] }) ∧
        (∀ q k u, mfind x.asks h.tag.toNat = some q → q.who = .drain k u → stillAsks s d q.who = true → h.status = 0 →
          (∀ p ∈ mdel x.asks h.tag.toNat, ∀ v, p.2.who ≠ .drain k v) →
          Answers r.1 s fun t => t = setPort (setEnd s d e.val z) d
            { getPort s d with drain := (getPort s d).drain.filter (fun i => !(i.serial == k)) }) ∧
        (∀ q k w, mfind x.asks h.tag.toNat = some q → q.who = .signal k → mfind s.signals k = some w → Answers r.1 s fun t =>
          t.signals = mdel s.signals k ∧ (∀ m, memByte t m = memByte s m) ∧ getEnds t d = lset (getEnds s d) e.val z ∧
          (∀ f rd, w.frame = some f → w.src = d → f < 32 → (getStk s d).frames.length = 32 → (frameOf' s d f).park = .sigmax rd → rd ≠ 32 →
            rd ≠ 0 → (frameOf' s d f).queue = w.queue → (frameOf' s d f).count = w.count → (frameOf' s d f).walk = none → h.status = 0 →
            fldN h.arg.toNat 1 0 ≠ 3 → mwf 0 (frameOf' s d f).regs = true →
            (frameOf' t d f).park = .ready ∧ (frameOf' t d f).pc = (frameOf' s d f).pc + 4 ∧
              rvGet (frameOf' t d f) rd = BitVec.ofNat 32 (fldN h.arg.toNat 1 0)) ∧
          (w.frame = none → h.status ≠ 0 → OpEnded s t w.src w.queue w.count true))))) ∧
  (∀ (s : State) (d : DieId) (e : Fin 3) (tag : BitVec 12) (typ : Byte), (getEnds s d).length = 3 →
    let x := endOf s d e.val
    (mfind x.asks tag.toNat = none → Absorbed (.transactionTimeout d e tag typ) s) ∧
    (∀ q, mfind x.asks tag.toNat = some q →
      ((s.board.powerOk = false ∨ q.typ ≠ typ.toNat ∨ s.now < q.at_ + 20000) → Absorbed (.transactionTimeout d e tag typ) s) ∧
      (s.board.powerOk = true → q.typ = typ.toNat → q.at_ + 20000 ≤ s.now → Answers (.transactionTimeout d e tag typ) s fun t => let y := endOf t d e.val
        bit y.err.val 4 = true ∧ y.late = x.late ++ [tag.toNat] ∧ y.asks = mdel x.asks tag.toNat ∧ (∀ a, memByte t a = memByte s a) ∧
        ((stillAsks s d q.who = false ∨ (∃ k, q.who = .signal k) ∨ (∃ k u, q.who = .drain k u)) → y.answers = x.answers) ∧
        (stillAsks s d q.who = true → (∀ k, q.who ≠ .signal k) → (∀ k u, q.who ≠ .drain k u) →
          y.answers = x.answers ++ [{ who := q.who, status := 3, data := [] }]) ∧
        (∀ k w, q.who = .signal k → mfind s.signals k = some w →
          t.signals = mdel s.signals k ∧ (w.frame = none → OpEnded s t w.src w.queue w.count true)) ∧
        (∀ k u, q.who = .drain k u → stillAsks s d q.who = true →
          fld (getHregs t d).aptStatus 31 16 = min (fld (getHregs s d).aptStatus 31 16 + 1) 0xFFFF ∧
          ((∀ p ∈ mdel x.asks tag.toNat, ∀ v, p.2.who ≠ .drain k v) →
            (getPort t d).drain = (getPort s d).drain.filter (fun i => !(i.serial == k))))))) ∧
  (∀ (s0 : State) (src dst : DieId), let up := src ≠ dst ∧ (cordOf s0 (cordIdx src dst)).state = .up ∧ cordRuns s0 (cordIdx src dst) = true
    let x := endOf s0 dst (endTo dst src)
    let s := takeControl s0 dst src 0x30
    let nothing (m : EngineMsg) : Prop := Answers (.msg src dst m) s0 fun t => t = s
    (¬ up → ∀ m, Absorbed (.msg src dst m) s0) ∧
    ((∀ t ∈ x.inbox, t.hdr.typ ≠ 0x30) → s = s0) ∧
    (∀ c, x.inbox.find? (fun t => t.hdr.typ.toNat == 0x30) = some c → s = setEnd s0 dst (endTo dst src) { x with
      inbox := x.inbox.erase c, freed := lset x.freed c.hdr.cls.toNat (lget 0 x.freed c.hdr.cls.toNat + txSize c) }) ∧
    (up →
      (∀ v, nothing (.tagRead v)) ∧
      (src ≠ 0 → nothing .lampCopy ∧ nothing .tableCopy) ∧
      (src = 0 → inStep s dst = true → Answers (.msg src dst .tableCopy) s0 fun t => t = setTables s dst (tabs s)) ∧
      (src = 0 → inStep s dst = false → nothing .tableCopy) ∧
      (src = 0 → Answers (.msg src dst .lampCopy) s0 fun t => t = { s with lamps := t.lamps } ∧
        ∀ n, getLamp t n = { getLamp s n with target := (getLamp t n).target }) ∧
      (∀ pass ctx, (∀ p, passByCtx s src pass.toNat ctx.toNat = some p → p.aborted = false) → nothing (.passAbort pass ctx)) ∧
      (∀ pass ctx p, passByCtx s src pass.toNat ctx.toNat = some p → p.aborted = true → Answers (.msg src dst (.passAbort pass ctx)) s0 fun t =>
        t = setGeo s dst { getGeo s dst with passes := (getGeo t dst).passes } ∧
          (∀ x ∈ (getGeo t dst).passes, x.pass = p.pass → x.ctx = p.ctx → x.aborted = true) ∧
          (getGeo t dst).passes.map (fun x => { x with aborted := false }) = (getGeo s dst).passes.map (fun x => { x with aborted := false })) ∧
      (∀ pass ctx upto p, passByCtx s src pass.toNat ctx.toNat = some p → p.flushTo = some upto → p.leader = src →
        Answers (.msg src dst (.flushTo pass ctx upto)) s0 fun t => t = setGeo s dst { getGeo s dst with passes := (getGeo t dst).passes } ∧
          ∀ x ∈ (getGeo t dst).passes, x.pass = p.pass → x.ctx = p.ctx → x.flushTo ≠ none) ∧
      (∀ pass ctx l leader p q, passByCtx s src pass.toNat ctx.toNat = some p → passByCtx s dst pass.toNat ctx.toNat = some q → p.leader = leader →
        src = leader → q.lit = none → Answers (.msg src dst (.passL pass ctx l leader)) s0 fun t =>
          t = setGeo s dst { getGeo s dst with passes := (getGeo t dst).passes } ∧ { q with lit := p.lit } ∈ (getGeo t dst).passes)))

/-- R365 to R369: agreement. At the start of an epoch D0 asks the dies that are joined or fenced for their records, and checks the record of a
die that answers: one that differs where dies must not differ is held dark with its cause, one with another STATE_GEN is fenced for state or
stays held; one that has not answered within 20 us is fenced; the joined set then holds only dies that
pass, with every cord among them up; a fenced die copies D0's tables. -/
def Obligations.AgreementAmongDies : Prop :=
  (∀ (s : State) (n : DieId), ((canAsk s n = false ∨ mfind s.agree.asked n.val = none) → Absorbed (.neg n) s) ∧
    (∀ q, mfind s.agree.asked n.val = some q → canAsk s n = true → s.cords.length = 6 →
      let same := (getTables s n).stateGen = (tabs s).stateGen
      let holds (c : Nat) : Prop := mfind s.agree.held n.val = some 9 ∧ c = 9 ∨ mfind s.agree.held n.val ≠ some 9 ∧ (holdCause s n = some c ∨
        holdCause s n = none ∧ ¬ same ∧ mfind s.agree.held n.val = some c)
      (Answers (.neg n) s fun t => t.agree.checks = s.agree.checks + 1 ∧ JoinedSound t ∧ (∀ a, memByte t a = memByte s a) ∧
        ∀ c, holds c → mfind t.agree.held n.val = some c ∧ t.agree.joined.testBit n.val = false ∧
          ∀ m, m ≠ n → (cordOf t (cordIdx n m)).lit = false ∧ (cordOf t (cordIdx n m)).state = .dark) ∧
      ((∀ c, ¬ holds c) → Answers (.neg n) s fun t => t.agree.held = mdel s.agree.held n.val ∧
        (¬ same → t.agree.passed.testBit n.val = false ∧ t.agree.joined.testBit n.val = false) ∧
        (¬ same → awake s n = true → isFenced t n = true ∧ (isFenced s n = false → mfind t.agree.fenced n.val = some 2)) ∧
        (same → awake s 0 = true → awake s n = true → isHeld s 0 = false → mfind (mdel s.agree.held n.val) n.val = none →
          t.agree.passed.testBit n.val = true)))) ∧
  (∀ (s : State) (n : DieId),
    ((getSec s n).hash ≠ (getSec s 0).hash → holdCause s n = some 6) ∧
    ((getSec s n).hash = (getSec s 0).hash → ((cpvOffer s n).2 < (cpvOffer s 0).1 ∨ (cpvOffer s 0).2 < (cpvOffer s n).1) → holdCause s n = some 7) ∧
    ((getSec s n).hash = (getSec s 0).hash → (cpvOffer s 0).1 ≤ (cpvOffer s n).2 → (cpvOffer s n).1 ≤ (cpvOffer s 0).2 → (getSec s n).started = true →
      (s.agree.abi < (abiOffer s n).1 ∨ (abiOffer s n).2 < s.agree.abi) → holdCause s n = some 8)) ∧
  (∀ s : State, let due := s.agree.epochDone ≤ (getTime s 0).epoch ∧ (getSec s 0).started = true ∧ s.board.powerOk = true
    let asks (n : DieId) : Prop := n ≠ 0 ∧ (s.agree.joined.testBit n.val = true ∨ isFenced s n = true) ∧ awake s n = true ∧
      physUp s (cordIdx 0 n) = true ∧ isHeld s n = false
    (¬ due → Absorbed .agreementCheck s) ∧
    (due → Answers .agreementCheck s fun t => (∀ n, asks n → mfind t.agree.asked n.val = some (s.now, true)) ∧
      (∀ n : DieId, ¬ asks n → mfind t.agree.asked n.val = mfind s.agree.asked n.val) ∧ t.agree.cpv = lowestCpv s ∧
      t.agree = { s.agree with asked := t.agree.asked, epochDone := (getTime s 0).epoch + 1, cpv := t.agree.cpv } ∧
      t = { s with agree := t.agree, cords := t.cords, cordRegs := t.cordRegs, frozen := t.frozen })) ∧
  (∀ (s : State) (n : DieId), let may := n ≠ 0 ∧ s.board.powerOk = true ∧ ∃ q, mfind s.agree.asked n.val = some q ∧ q.1 + 20000 ≤ s.now
    (¬ may → Absorbed (.agreementNoAnswer n) s) ∧
    (may → Answers (.agreementNoAnswer n) s fun t => t.agree.checks = s.agree.checks + 1 ∧ t.agree.passed.testBit n.val = false ∧
      t.agree.joined.testBit n.val = false ∧ JoinedSound t ∧ (∀ a, memByte t a = memByte s a) ∧
      (awake s n = true → isHeld s n = false → isFenced t n = true ∧ (isFenced s n = false → mfind t.agree.fenced n.val = some 1)))) ∧
  (∀ (s : State) (n : DieId), let r := getCordRegs s n
    let may := canAsk s n = true ∧ isFenced s n = true ∧ r.reloading = false ∧
      ((getTables s n).stateGen ≠ (tabs s).stateGen ∨ r.mustReload = true)
    (¬ may → Absorbed (.stateReload n) s) ∧ (may → Answers (.stateReload n) s fun t => t = setCordRegs s n { r with reloading := true }) ∧
    ((canAsk s n = false ∨ isFenced s n = false ∨ r.reloading = false) → Absorbed (.stateReloadDone n) s) ∧
    (canAsk s n = true → isFenced s n = true → r.reloading = true → Answers (.stateReloadDone n) s fun t =>
      (getCordRegs t n).reloading = false ∧ (getCordRegs t n).mustReload = false ∧
      ((∀ e ∈ (getCordRegs s 0).commitValues, e.1 / 2 ^ 20 ≠ n.val) → missedResets s n = [] → getTables t n = tabs s ∧
        t = setCordRegs (setTables s n (tabs s)) n { r with reloading := false, mustReload := false })))

/-- R370 to R373, R384 to R388: device time. An exchange stamps its four messages; a valid one slews the follower by up to 1,000 ns or
steps and fences it, and one that stands still for a step backwards stands for what the newest exchange leaves; an edge of PPS is ignored too near another, corrects D0 by a slew of at most 100 us, or, seen twice, by a forward
step to the second that the dies then make too; TIME_PERIOD acts through D0 and within its limits. -/
def Obligations.DeviceTime : Prop :=
  (∀ s : State, let t0 := getTime s 0
    ((s.board.powerOk = false ∨ t0.dt < t0.lastSync + 1000000) → Absorbed .timeExchange s) ∧
    (s.board.powerOk = true → t0.lastSync + 1000000 ≤ t0.dt → Answers .timeExchange s fun t => t = { s with times := t.times } ∧
      getTime t 0 = { t0 with lastSync := t0.dt } ∧ ∀ n, n ≠ 0 → getTime t n = if canAsk s n then
        { getTime s n with sync := some (t0.dt, 0, 0, false) } else getTime s n)) ∧
  (∀ (s : State) (n : DieId) (stamp : W64) (replayed : Bool), let x := getTime s n
    let x0 := getTime s 0
    let u := takeControl s n 0 0x32
    ((x.sync = none ∨ canAsk s n = false) → ∀ st, Absorbed (.tsync n st stamp replayed) s) ∧
    (∀ t1 t2 t3 bad, x.sync = some (t1, t2, t3, bad) → canAsk s n = true →
      ((stamp.toNat ≠ x.dt ∨ t2 ≠ 0) → Absorbed (.tsync n .request stamp replayed) s) ∧
      (stamp.toNat = x.dt → t2 = 0 → Answers (.tsync n .request stamp replayed) s fun t => let y := getTime t n
        t = setTime u n y ∧ y.sync = some (t1, x.dt + x.owed, 0, bad || replayed) ∧ y.dt = x.dt + x.owed ∧ y.owed = 0 ∧ y.slew = x.slew ∧
        ((x0.epoch = x.epoch + 1 ∨ x.epoch = x0.epoch + 1) → y.epoch = x.epoch ∧ y.shift = x.shift + x.owed) ∧
        (x0.epoch = x.epoch → y.epoch = x0.epoch ∧ y.epochStart = x0.epochStart ∧ y.period = x0.period ∧ y.shift = x0.shift)) ∧
      ((stamp.toNat ≠ x.dt ∨ t2 = 0 ∨ t3 ≠ 0) → Absorbed (.tsync n .reply stamp replayed) s) ∧
      (stamp.toNat = x.dt → t2 ≠ 0 → t3 = 0 → Answers (.tsync n .reply stamp replayed) s fun t =>
        t = setTime (takeControl s 0 n 0x32) n { x with sync := some (t1, t2, x.dt, bad || replayed) }) ∧
      ((stamp.toNat ≠ x0.dt ∨ t3 = 0) → Absorbed (.tsync n .result stamp replayed) s) ∧
      (stamp.toNat = x0.dt → t3 ≠ 0 → let p := exchange t1 t2 t3 x0.dt
        let m := p.1.natAbs
        let stands := 0 < x.standFor ∧ 0 < p.1
        ((bad = true ∨ replayed = true ∨ 200 < p.2) → Answers (.tsync n .result stamp replayed) s fun t => t = setTime u n { x with sync := none }) ∧
        (bad = false → replayed = false → p.2 ≤ 200 → Answers (.tsync n .result stamp replayed) s fun t => let y := getTime t n
          y.sync = none ∧ y.lastSync = s.now ∧ fld (getCordRegs t n).time 31 0 = wrapI 32 p.1 ∧ (∀ a, memByte t a = memByte s a) ∧
          (m ≤ 1000 → y.dt = x.dt ∧ (∀ k, mfind s.agree.timeOk n.val = some k →
              mfind t.agree.timeOk n.val = some (if m ≤ 20 then k + 1 else 0)) ∧
            (stands → y.slew = none ∧ y.standFor = m) ∧ (¬ stands → y.standFor = 0 ∧ (m = 0 → y.slew = none) ∧
              (m ≠ 0 → y.slew = some { amount := m, forward := decide (p.1 < 0), left := 10000 * m, span := 10000 * m, acc := 0 }))) ∧
          (1000 < m → y.slew = none ∧ (p.1 < 0 → y.dt = x.dt + m ∧ y.standFor = 0) ∧ (0 ≤ p.1 → y.dt = x.dt ∧ y.standFor = m) ∧
            (¬ stands → mfind t.agree.timeOk n.val = some 0 ∧ (awake s n = true → isHeld s n = false → isFenced t n = true))))))) ∧
  (∀ (s : State) (n : DieId),
    let lost := n ≠ 0 ∧ s.board.powerOk = true ∧ awake s n = true ∧ isHeld s n = false ∧
      mfind s.agree.timeOk n.val = none ∧ awaitsCheck s n = false ∧ (getTime s n).lastSync + 10000000 ≤ s.now
    (¬ lost → Absorbed (.timeLost n) s) ∧
    (lost → Answers (.timeLost n) s fun t => isFenced t n = true ∧ t.agree.joined.testBit n.val = false ∧ mfind t.agree.timeOk n.val = some 0 ∧
      (isFenced s n = false → mfind t.agree.fenced n.val = some 4) ∧ t.times = s.times ∧ ∀ a, memByte t a = memByte s a)) ∧
  (∀ (s : State) (falling : Bool), let p := s.pps
    let t0 := getTime s 0
    let e := ppsError t0.dt
    let counts := s.board.powerOk = true ∧ bit p.ctl 0 = true ∧ bit p.ctl 1 = falling
    let near := ∃ m, p.lastMarked = some m ∧ t0.dt < m + 500000000
    let again := ∃ c ∈ p.candidates, c + 999900000 ≤ t0.dt ∧ t0.dt ≤ c + 1000100000
    e > -500000000 ∧ e ≤ 500000000 ∧ ((t0.dt : Int) - e) % 1000000000 = 0 ∧
    (¬ counts → Absorbed (.ppsEdge falling) s) ∧
    (counts → near → Answers (.ppsEdge falling) s fun t => t = { s with pps := { p with ignored := satAdd 8 p.ignored 1 } }) ∧
    (counts → ¬ near → e.natAbs ≤ 1000000 → Answers (.ppsEdge falling) s fun t => t = setTime { s with pps := t.pps } 0 (getTime t 0) ∧
      t.pps.seen = true ∧ t.pps.freeRun = false ∧ t.pps.steps = p.steps ∧ t.pps.error = BitVec.ofInt 32 e ∧ t.pps.lastMarked = some t0.dt ∧
      t.pps.lastAccepted = some t0.dt ∧ t.pps.candidates = [] ∧
      ∃ w, getTime t 0 = { t0 with slew := w } ∧ (e = 0 → w = none) ∧
        (e ≠ 0 → w = some { amount := min e.natAbs 100000, forward := decide (e < 0), left := 1000000000, span := 1000000000, acc := 0 })) ∧
    (counts → ¬ near → 1000000 < e.natAbs → again → Answers (.ppsEdge falling) s fun t => ∃ k, k < 1000000000 ∧ (t0.dt + k) % 1000000000 = 0 ∧
      getTime t 0 = { t0 with dt := t0.dt + k, shift := t0.shift + k } ∧ (∀ n, n ≠ 0 → getTime t n = { getTime s n with owed := (getTime s n).owed + k }) ∧
      t.pps.steps = satAdd 8 p.steps 1 ∧ t.pps.freeRun = false ∧ t.pps.stepTime = BitVec.ofNat 64 (t0.dt + k) ∧ t.pps.candidates = [] ∧
      t = setLog { s with times := t.times, pps := t.pps } 0 (getLog t 0)) ∧
    (counts → ¬ near → 1000000 < e.natAbs → ¬ again → Answers (.ppsEdge falling) s fun t =>
      t = { s with pps := { p with candidates := p.candidates ++ [t0.dt], lastMarked := some t0.dt } })) ∧
  (∀ s : State, let t0 := getTime s 0
    ((∀ w, t0.slew = some w → w.left ≠ 0) → Absorbed .slewEnd s) ∧
    (∀ w, t0.slew = some w → w.left = 0 → Answers .slewEnd s fun t => t = setTime s 0 { t0 with slew := none }) ∧
    (let lost := s.board.powerOk = true ∧ s.pps.freeRun = false ∧ s.pps.lastAccepted.getD 0 + 2500000000 ≤ t0.dt
     (¬ lost → Absorbed .timeFreeRun s) ∧
     (lost → Answers .timeFreeRun s fun t => t = setLog { s with pps := { s.pps with freeRun := true } } 0 (getLog t 0)))) ∧
  (∀ (s : State) (d : DieId) (v : W64), Served s d 8 → v ≠ BitVec.allOnes 64 →
    (d ≠ 0 → Answers (.timePeriodWrite d v) s fun t => t = countDiscard s d) ∧
    (d = 0 → (fld v 31 0 < 4000000 ∨ 16700000 < fld v 31 0) → Absorbed (.timePeriodWrite d v) s) ∧
    (d = 0 → 4000000 ≤ fld v 31 0 → fld v 31 0 ≤ 16700000 → Answers (.timePeriodWrite d v) s fun t => t = { s with
      pps := { s.pps with periodReg := keepBits v 0xFFFFFFFF, periodPending := s.pps.periodPending ++ [(fld v 31 0, (getTime s 0).dt)] } }))

/-- R374 to R382: lamps and thermal control. The envelope, order and mask act through D0 within their limits, and the new lit target
keeps to the masks; a die changes one domain at a time, out of the lit state only when nothing holds it and into it only within the
envelope, and begins no change while a stop bath or a save runs; a cluster that leaves the dark state is clear; readings raise WARN with 2 degrees of hysteresis and trip the package at 15
degrees above Tj; a cap takes one cluster at most every 10 ms and gives one back at most every 100 ms. -/
def Obligations.LampsAndSensors : Prop :=
  (∀ (s : State) (d : DieId) (v : W64), Served s d 7 →
    let targets (t : State) : Prop := (∀ n, getLamp t n = { getLamp s n with target := (getLamp t n).target }) ∧
      ∀ n x, (getLamp t n).target.testBit x = true → bit (maskOfDie t n) x = true ∧ (getLamp s n).failed.testBit x = false
    (d ≠ 0 → v ≠ BitVec.allOnes 64 → ∀ cmd ∈ [Instr.lampEnvelopeWrite d v, .lampOrderWrite d v] ++ [0, 1, 2, 3].map (fun n => .lampMaskWrite d n v),
      Answers cmd s fun t => t = countDiscard s d) ∧
    (d = 0 → envelopeLegal s (fld v 7 0) = false → Absorbed (.lampEnvelopeWrite d v) s) ∧
    (d = 0 → envelopeLegal s (fld v 7 0) = true → Answers (.lampEnvelopeWrite d v) s fun t => t = { s with
      lampPkg := { s.lampPkg with envelope := keepBits v 0xFF, envPending := s.lampPkg.envPending ++ [(fld v 7 0, dtime s 0)] } } ∧
      25 ≤ fld v 7 0 ∧ fld v 7 0 ≤ 120 ∧ fld v 7 0 % 5 = 0) ∧
    (d = 0 → orderLegal v = false → Absorbed (.lampOrderWrite d v) s) ∧
    (d = 0 → v ≠ BitVec.allOnes 64 → orderLegal v = true → Answers (.lampOrderWrite d v) s fun t => targets t ∧
      t = { s with lampPkg := { s.lampPkg with order := keepBits v 0xFFC }, lamps := t.lamps }) ∧
    (∀ n : DieId, d = 0 → v ≠ BitVec.allOnes 64 → s.lampPkg.masks.length = 4 → Answers (.lampMaskWrite d n v) s fun t => targets t ∧
      (∀ k, bit (maskOfDie t n) k = (if n = 0 ∧ k = 11 then true else bit v k && (decide (k < 12) || (decide (16 ≤ k) && decide (k < 24))))) ∧
      (∀ m, m ≠ n → maskOfDie t m = maskOfDie s m) ∧ t = { s with lampPkg := { s.lampPkg with masks := t.lampPkg.masks }, lamps := t.lamps })) ∧
  (∀ (s : State) (d : DieId), let l := getLamp s d
    let drain := l.draining.filter (fun x => !(wanted s d x.1 == .lit))
    let only (t : State) : Prop := (∀ n, n ≠ d → getLamp t n = getLamp s n) ∧
      t = { s with lamps := t.lamps, mem := t.mem, poison := t.poison, memu := t.memu, watches := t.watches }
    ((l.changing ≠ none ∨ bathRunning s d = true) → Absorbed (.domainTransition d) s) ∧
    (∀ x st, l.changing = none → bathRunning s d = false → nextChange s d = some (x, st) → Answers (.domainTransition d) s fun t => only t ∧
      getLamp t d = { l with changing := some (x, st), draining := drain.filter (fun y => y.1 ≠ x) } ∧ st = wanted s d x ∧ domOf s d x ≠ st ∧
      (domOf s d x = .lit → holdOf s d x = false) ∧ (domOf s d x ≠ .lit → st ≠ .dark → fits s d x = true)) ∧
    (l.changing = none → bathRunning s d = false → nextChange s d = none → (drain ≠ none ∨ nextDrain s d = none) →
      Answers (.domainTransition d) s fun t => t = setLamp s d { l with draining := drain }) ∧
    (∀ c, l.changing = none → bathRunning s d = false → nextChange s d = none → drain = none → nextDrain s d = some c →
      Answers (.domainTransition d) s fun t => only t ∧ getLamp t d = { l with draining := some (c, s.now, false) }) ∧
    ((l.changing = none ∨ s.board.powerOk = false) → Absorbed (.domainTransitionDone d) s) ∧
    (∀ x st, l.changing = some (x, st) → s.board.powerOk = true → l.dom.length = 11 → x < 11 → Answers (.domainTransitionDone d) s fun t =>
      domOf t d x = st ∧ (∀ y, y ≠ x → domOf t d y = domOf s d y) ∧ (getLamp t d).changing = none ∧ JoinedSound t ∧
      (∀ n, n ≠ d → getLamp t n = getLamp s n) ∧
      (x < 8 → domOf s d x = .dark → st ≠ .dark → (∀ k, k / 2 ^ 15 / 4 % 32 / 4 = x → mget 0 (getCores t d).vrf k = 0) ∧
        ∀ k, k / 2 ^ 18 % 32 / 4 = x → mget 0 (getCores t d).tile k = 0))) ∧
  (∀ (s : State) (d : DieId) (temps : List (BitVec 12)), let l := { getLamp s d with temps := temps }
    let tj : Int := if gradeE s d then 420 else 380
    let h := (hottest l).2
    (temps.length ≠ 11 → Absorbed (.sensorRead d temps) s) ∧
    (temps.length = 11 → (∀ x ∈ temps, x.toInt ≤ h) ∧
      (s.board.powerOk = false → Answers (.sensorRead d temps) s fun t => t = setLamp s d l) ∧
      (s.board.powerOk = true → tj + 60 ≤ h → Answers (.sensorRead d temps) s fun t => ∃ b, PowerLost { setLamp s d l with board := b } t ∧
        b = { s.board with tripLatch := true, tripHold := true, trip := b.trip } ∧ fld b.trip 11 0 = wrapI 12 h ∧ fld b.trip 17 16 = d.val ∧
        fld b.trip 63 32 = satAdd 32 (fld s.board.trip 63 32) 1) ∧
      (s.board.powerOk = true → h < tj + 60 → Answers (.sensorRead d temps) s fun t =>
        getLamp t d = { l with warn := if tj - 20 ≤ h then true else if h ≤ tj - 28 then false else l.warn } ∧
        ((h < tj - 20 ∨ l.warn = true) → getLog t d = getLog s d) ∧ t = setLog (setLamp s d (getLamp t d)) d (getLog t d)))) ∧
  (∀ (s : State) (d : DieId), let l := getLamp s d
    let h := (hottest l).2
    let cap := s.board.powerOk = true ∧ tjQ s d ≤ h ∧ 0 < popcount 8 (dropHigh 8 l.target l.removed) ∧ (l.removed = 0 ∨ l.cappedAt + 10000000 ≤ s.now)
    let back := s.board.powerOk = true ∧ h < tjQ s d - 20 ∧ 0 < l.removed ∧ max l.cappedAt l.restoredAt + 100000000 ≤ s.now
    (¬ cap → Absorbed (.thermCap d) s) ∧ (¬ back → Absorbed (.thermRestore d) s) ∧
    (cap → Answers (.thermCap d) s fun t => t = setLog (setLamp s d { l with removed := l.removed + 1, cappedAt := s.now }) d (getLog t d)) ∧
    (back → Answers (.thermRestore d) s fun t => t = setLamp s d { l with removed := l.removed - 1, restoredAt := s.now }))

/-- R382, R384, R389 to R392, R394, R395, R402, R406, R408, R438, R440, R441: rails and start-up. A release of RESET_N raises the rails, a
long low or a fall of VIN takes everything down; from POWER_OK each die checks itself, selects the highest valid generation, trains its
DRAM, is tested by kiln, and starts its firmware on every stoker; a die that fails stays at stage 0xF with its cause. -/
def Obligations.PowerAndStartUp : Prop :=
  (∀ s : State, let inRange (mv : Nat) : Prop := 1746 ≤ mv ∧ mv ≤ 1854
    ((s.board.resetN = true ∨ ¬ inRange s.board.vinMv) → Absorbed .resetRelease s) ∧
    (s.board.resetN = false → inRange s.board.vinMv → Answers .resetRelease s fun t =>
      t = { s with board := { s.board with resetN := true, released := true, tripLatch := false } }) ∧
    (∀ (low : Nat) (taken : Bool), ((low < 1000 ∨ low < 10000 ∧ taken = false) → Absorbed (.resetAssert low taken) s) ∧
      (1000 ≤ low → (10000 ≤ low ∨ taken = true) → Answers (.resetAssert low taken) s fun t =>
        PowerLost { s with board := { s.board with resetN := false } } t)) ∧
    (∀ mv : Nat, let b : Board := if 1746 ≤ mv ∧ mv ≤ 1854 then { s.board with vinMv := mv }
        else { s.board with vinMv := mv, dynAddr := none, trip := 0 }
      (s.board.vinMv < mv → Absorbed (.vinDrop mv) s) ∧
      (mv ≤ s.board.vinMv → (1700 ≤ mv ∨ s.board.resetN = false) → Answers (.vinDrop mv) s fun t => t = { s with board := b }) ∧
      (mv ≤ s.board.vinMv → mv < 1700 → s.board.resetN = true → Answers (.vinDrop mv) s fun t => PowerLost { s with board := b } t) ∧
      (¬ inRange mv → Absorbed (.vinEntersRange mv) s) ∧
      (inRange mv → Answers (.vinEntersRange mv) s fun t => t = { s with board := { s.board with vinMv := mv } })) ∧
    (∀ rom : List SelfCheck,
      let may := s.board.released = true ∧ s.board.resetN = true ∧ s.board.powerOk = false ∧ inRange s.board.vinMv ∧ rom.length = 4 ∧
        (s.board.tripHold = true → ∀ d : DieId, ∀ x ∈ (getLamp s d).temps, x.toInt < tjDown s d)
      (¬ may → Absorbed (.powerOkAssert rom) s) ∧
      (may → Answers (.powerOkAssert rom) s fun t => t.board = { s.board with powerOk := true, tripHold := false } ∧
        (∀ d : DieId, getTime t d = { timeReset with running := true, lastSync := if d = 0 then 0 else s.now } ∧
          (rom[d.val]? = some .pass → getSec t d = { getSec s d with romOk := true } ∧ getLog t d = getLog s d) ∧
          (rom[d.val]? = some .fail → getSec t d = { getSec s d with stage := 15, failCause := 1 })) ∧
        t = { s with board := t.board, frozen := 14, times := t.times, secs := t.secs, logs := t.logs }))) ∧
  (∀ (s : State) (d : DieId), let x := getSec s d
    let o := getOtp s d
    let fails (c : Instr) (y : Sec) (cause : Nat) : Prop := Answers c s fun t => getSec t d = { y with stage := 15, failCause := cause } ∧
      t = setLog (setSec s d (getSec t d)) d (getLog t d)
    let known := { x with otpDone := true, idPub := edPublic (idSeed o) }
    (¬ (s.board.powerOk = true ∧ x.romOk = true ∧ x.stage = 0 ∧ x.otpDone = false) → Absorbed (.kindlingOtp d) s) ∧
    (s.board.powerOk = true → x.romOk = true → x.stage = 0 → x.otpDone = false →
      ((∀ k, k < 4 → slotCode o k ≠ 1) → fails (.kindlingOtp d) known 2) ∧
      (∀ k, k < 4 → slotCode o k = 1 → (∀ j, k < j → j < 4 → slotCode o j ≠ 1) → Answers (.kindlingOtp d) s fun t =>
        t = setSec s d { known with active := some k, hash := settingsHash (otpSlot o k), coreMap := (getSec t d).coreMap } ∧
        ∀ m, m < 32 → (getSec t d).coreMap[m]? =
          some (if leAt (otpSlot o k) 0x10 1 = m then 32 else if leAt (otpSlot o k) 0x11 1 = m then 33 else m))) ∧
    (∀ c, ¬ (s.board.powerOk = true ∧ x.otpDone = true ∧ x.active ≠ none ∧ x.stage = 0) → Absorbed (.startupDramTrain d c) s) ∧
    (s.board.powerOk = true → x.otpDone = true → x.active ≠ none → x.stage = 0 → fails (.startupDramTrain d .fail) x 3 ∧
      Answers (.startupDramTrain d .pass) s fun t => getSec t d = { x with stage := 1 } ∧ (∀ n, n ≠ d → getSec t n = getSec s n) ∧ JoinedSound t ∧
        ∀ a, memByte t a = memByte s a) ∧
    (∀ l, ¬ (s.board.powerOk = true ∧ x.stage = 2 ∧ x.kilnDone = none) → Absorbed (.startupKiln d l) s) ∧
    (s.board.powerOk = true → x.stage = 2 → x.kilnDone = none →
      let goes (k : Nat) : Bool := decide (k < 11) && !((x.token.getD 0).testBit k)
      let marks (t : State) (bad : Nat → Bool) : Prop := getSec t d = { x with kilnDone := some s.now } ∧ (getKiln t d).current = 15 ∧
        (∀ k, (getKiln t d).tested.testBit k = goes k ∧ (getKiln t d).failed.testBit k = bad k ∧
          (getKiln t d).passed.testBit k = (goes k && !bad k)) ∧ ∀ a, memByte t a = memByte s a
      (Answers (.startupKiln d []) s fun t => marks t (fun _ => false) ∧ t.lamps = s.lamps ∧ t.logs = s.logs) ∧
      (∀ k seg mar, (goes k = false ∨ 16 < seg ∨ 6 < mar ∨ (seg = 0 ∧ mar = 0)) → Absorbed (.startupKiln d [(k, seg, mar)]) s) ∧
      (∀ k seg mar, goes k = true → seg ≤ 16 → mar ≤ 6 → 0 < seg + mar → Answers (.startupKiln d [(k, seg, mar)]) s fun t =>
        marks t (fun j => j == k) ∧ (getLamp t d).failed = (getLamp s d).failed ||| 2 ^ k)) ∧
    (let fw := ∃ i, x.pendingImage = some i ∧ s.board.powerOk = true ∧ x.stage = 2 ∧ x.kilnDone ≠ none ∧
        (d ≠ 0 ∨ othersSettled s = true ∨ x.waitOver = true)
     (¬ fw → Absorbed (.firmwareStart d) s) ∧
     (∀ i, x.pendingImage = some i → fw → Answers (.firmwareStart d) s fun t => let y := getSec t d
       y.stage = 3 ∧ y.started = true ∧ y.image = some i ∧ y.pendingImage = none ∧ bit y.result 24 = false ∧ y.active = x.active ∧
       (getStk t d).stokers = (getStk s d).stokers.map (fun k => { k with handout := true, image := leNat i.manifest }) ∧
       (getStk t d).frames = (getStk s d).frames ∧ JoinedSound t ∧ ∀ a, memByte t a = memByte s a))) ∧
  (∀ s : State, let x := getSec s 0
    ((s.board.powerOk = false ∨ x.stage ≠ 2 ∨ x.kilnDone = none ∨ ∃ k, x.kilnDone = some k ∧ s.now < k + 1000000000) →
      Absorbed .startupWaitTimeout s) ∧
    (∀ k, s.board.powerOk = true → x.stage = 2 → x.kilnDone = some k → k + 1000000000 ≤ s.now → Answers .startupWaitTimeout s fun t =>
      t = setSec s 0 { x with waitOver := true }))

/-- R115, R116, R397 to R408: images, tokens, attestation, rotation and OTP. An image is taken only when every check of Table 16.4
passes; a token marks domains as passed only when it names the die, its settings and its signature; a report lies signed in staging; a
rotation loads its stokers one by one and stops at the first that fails; a slot is burnt only with a block valid for it, and a floor
only rises. -/
def Obligations.FirmwareAndOtp : Prop :=
  (∀ (s : State) (d home : DieId) (pa len abi : Nat) (ex : Option Nat) (sm : Option (List Byte)) (i : Image),
    checkImage s d home pa len abi ex sm = .ok i → imageRange home pa len = true ∧ poisonIn s pa len = false ∧ imageHeader (memRead s pa 256) = true ∧
      len = 384 + memNat s (pa + 0x10) 4 ∧ dieFloor s d ≤ i.svn ∧ i.abiMin ≤ abi ∧ abi ≤ i.abiMax ∧ (∀ e, ex = some e → e = abi) ∧
      (memNat s (pa + 0xF) 1 = 0 → revoked s d = false) ∧ sha512 (memRead s pa (len - 128)) = i.manifest ∧
      edVerify (vendorKeyBytes (memNat s (pa + 0xF) 1)) i.manifest (memRead s (pa + len - 64) 64) = true ∧ ∀ m, sm = some m → m = i.manifest) ∧
  (∀ (s : State) (d : DieId), Served s d 12 →
    let x := getSec s d
    let pa := fld x.arg0 39 0
    let len := fld x.arg1 31 0
    let abi := fld x.arg1 39 32
    let up := decide (d ≠ 0) && (getSec s 0).stage == 3
    let seen := seeImage s d pa len
    let checked := checkImage seen d d pa len abi (if up then some s.agree.abi else none) (if up then (getSec s 0).image.map (fun i => i.manifest) else none)
    let ends (t : State) (op status cause : Nat) : Prop := let r := (getSec t d).result
      fld r 23 16 = status ∧ fld r 31 28 = op ∧ fld r 39 32 = cause ∧ fld r 15 0 = (fld x.result 15 0 + 1) % 65536
    let only (t : State) : Prop := t = setSec s d { x with result := (getSec t d).result }
    let refuse (c : Instr) (op status : Nat) : Prop := Answers c s fun t => ends t op status 0 ∧ only t
    let fails (c : Instr) (op cause : Nat) (u : State) (y : Sec) : Prop := Answers c s fun t => ends t op 3 cause ∧
      t = setLog (setSec u d { y with result := (getSec t d).result }) d (getLog t d)
    let place (n a : Nat) := tag0Place s d pa n a
    ((x.stage ≠ 1 ∨ bit x.result 24 = true ∨ (d ≠ 0 ∧ (getSec s 0).stage = 15)) → refuse (.secLoad d) 1 1) ∧
    (x.stage = 1 → bit x.result 24 = false → (d = 0 ∨ (getSec s 0).stage ≠ 15) →
      (∀ c, checked = .error c → fails (.secLoad d) 1 c seen { x with loadFailed := true }) ∧
      (∀ i, checked = .ok i → Answers (.secLoad d) s fun t => ends t 1 0 0 ∧ bit (getSec t d).result 24 = true ∧
        getSec t d = { x with stage := 2, pendingImage := some i, loadFailed := false, copyFrom := none, result := (getSec t d).result } ∧
        (d ≠ 0 → t = setSec seen d (getSec t d)) ∧
        (d = 0 → t.agree.abi = abi ∧ (∀ n, n ≠ 0 → getSec t n = if (getSec s n).stage = 1 ∧ physUp s (cordIdx 0 n) = true then
          { getSec s n with copyFrom := some (pa, len, abi), loadFailed := false } else getSec s n) ∧
          t = { seen with agree := { s.agree with abi := abi }, secs := t.secs }))) ∧
    ((x.stage ≠ 1 ∨ bit x.result 24 = true) → refuse (.secToken d) 2 1) ∧
    (x.stage = 1 → bit x.result 24 = false →
      ((∀ o, place 128 128 ≠ some (d, o)) → fails (.secToken d) 2 0x0A s x) ∧
      (∀ o, place 128 128 = some (d, o) → let b := stageRead s d o 128
        let good := leNat (b.drop 8 |>.take 8) = (getOtp s d).serial.toNat ∧ x.active = some (leAt b 6 1) ∧ leAt b 0x10 8 = x.hash.toNat ∧
          edVerify x.idPub (sha512 (b.take 64)) ((b.drop 64).take 64) = true
        (¬ good → fails (.secToken d) 2 0x0A s { x with token := none }) ∧
        (good → Answers (.secToken d) s fun t => ends t 2 0 0 ∧ t = setSec s d { x with token := some (leAt b 0x22 2), result := (getSec t d).result }))) ∧
    (let may := x.stage = 1 ∨ x.stage = 2 ∨ x.stage = 3 ∨ (x.stage = 15 ∧ 2 ≤ x.failCause ∧ x.otpDone = true)
     ((¬ may ∨ bit x.result 24 = true) → refuse (.secAttest d) 3 1) ∧
     (may → bit x.result 24 = false → place 256 256 = none → refuse (.secAttest d) 3 3) ∧
     (∀ m o, may → bit x.result 24 = false → place 256 256 = some (m, o) → mwf 0 (getStaging s m) = true → Answers (.secAttest d) s fun t =>
       let r := reportBytes s d ++ edSign (idSeed (getOtp s d)) (sha512 (reportBytes s d))
       ends t 3 0 0 ∧ stageRead t m o r.length = r ∧ (∀ k, (k < o ∨ o + r.length ≤ k) → mget 0 (getStaging t m) k = mget 0 (getStaging s m) k) ∧
       (∀ a, memByte t a = memByte s a) ∧ ∀ n, n ≠ m → getStaging t n = getStaging s n)) ∧
    (let may := d = 0 ∧ x.stage = 3 ∧ bit x.result 24 = false ∧ rotating s = false
     let fresh := checkImage seen 0 0 pa len s.agree.abi none none
     (¬ may → refuse (.secRotate d) 4 1) ∧
     (may → ∀ c, fresh = .error c → fails (.secRotate d) 4 c seen x) ∧
     (may → ∀ i, fresh = .ok i → Answers (.secRotate d) s fun t => ends t 4 0 0 ∧ bit (getSec t d).result 24 = true ∧
       (getSec t d).pendingImage = some i ∧ (getSec t d).oldImage = x.oldImage.or x.image ∧ (getSec t d).image = x.image ∧ (getSec t d).rotated = [] ∧
       (getStk t d).rotateTo = some (leNat i.manifest) ∧ (getStk t d).stokers = (getStk s d).stokers ∧
       ∀ n, n ≠ 0 → s.agree.joined.testBit n.val = false → getSec t n = getSec s n ∧ getStk t n = getStk s n))) ∧
  (∀ (s : State) (d : DieId), let x := getSec s d
    ((x.copyFrom = none ∨ s.board.powerOk = false ∨ x.stage ≠ 1 ∨ physUp s (cordIdx 0 d) = false) → Absorbed (.imageCopy d) s) ∧
    (∀ pa len abi, x.copyFrom = some (pa, len, abi) → s.board.powerOk = true → x.stage = 1 → physUp s (cordIdx 0 d) = true →
      let pm := pa % 2 ^ 33 + 2 ^ 33 * d.val
      let s0 := noteRead s pa len
      let s1 := memWrite s0 pm (memRead s pa len)
      let stays (t : State) (c : Nat) : Prop := (getSec t d).stage = 1 ∧ (getSec t d).loadFailed = true ∧ (getSec t d).copyFrom = none ∧
        fld (getSec t d).result 39 32 = c ∧ fld (getSec t d).result 23 16 = 3
      (poisonIn s0 pa len = true → Answers (.imageCopy d) s fun t => stays t 8 ∧ ∀ a, memByte t a = memByte s a) ∧
      (poisonIn s0 pa len = false → ∀ c, c < 256 → checkImage s1 d d pm len abi none none = .error c → Answers (.imageCopy d) s fun t => stays t c ∧
        ∀ a, (a < pm ∨ pm + len ≤ a) → memByte t a = memByte s a) ∧
      (poisonIn s0 pa len = false → ∀ i, checkImage s1 d d pm len abi none none = .ok i → Memory.wf s.mem → Answers (.imageCopy d) s fun t =>
        t = setSec s1 d { x with stage := 2, pendingImage := some i, copyFrom := none } ∧ memRead t pm len = memRead s pa len ∧
        ∀ a, (a < pm ∨ pm + len ≤ a) → memByte t a = memByte s a))) ∧
  (∀ (s : State) (d : DieId) (k : Fin 8) (c : SelfCheck), let x := getSec s d
    let next := (countUp 0 8).find? (fun j => !(x.rotated.contains j) && !(stokerOf s d j).dark)
    (((getStk s d).rotateTo = none ∨ x.pendingImage = none ∨ s.board.powerOk = false ∨ next ≠ some k.val) → Absorbed (.stokerRotate d k c) s) ∧
    (∀ image i, (getStk s d).rotateTo = some image → x.pendingImage = some i → s.board.powerOk = true → next = some k.val →
      (∀ f, 4 * k.val ≤ f → f < 4 * k.val + 4 → (frameOf' s d f).busy = false) → (getStk s d).stokers.length = 8 →
      let last := ∀ j, j < 8 → j ≠ k.val → x.rotated.contains j = true ∨ (stokerOf s d j).dark = true
      (c = .pass → ¬ last → Answers (.stokerRotate d k c) s fun t => (getStk t d).rotateTo = some image ∧
        getSec t d = { x with rotated := x.rotated ++ [k.val] } ∧
        stokerOf t d k.val = { stokerOf s d k.val with image := image, handout := !(stokerOf s d k.val).fenced, rotating := false } ∧
        ∀ j, j ≠ k.val → stokerOf t d j = stokerOf s d j) ∧
      (c = .pass → last → Answers (.stokerRotate d k c) s fun t => (getStk t d).rotateTo = none ∧ (getSec t d).image = some i ∧
        (getSec t d).pendingImage = none ∧ (stokerOf t d k.val).image = image ∧ (stokerOf t d k.val).fenced = false) ∧
      (c = .fail → Answers (.stokerRotate d k c) s fun t => (getStk t d).rotateTo = none ∧ (getSec t d).image = x.image ∧
        (getSec t d).pendingImage = none ∧ (stokerOf t d k.val).dark = true ∧ (∀ j, j ≠ k.val → (stokerOf t d j).dark = (stokerOf s d j).dark) ∧
        ∀ a, memByte t a = memByte s a))) ∧
  (∀ (s : State) (d : DieId), let x := getSec s d
    let o := getOtp s d
    let ends (t : State) (n : DieId) (status cause : Nat) : Prop := let r := (getSec t n).otpResult
      fld r 23 16 = status ∧ fld r 39 32 = cause ∧ fld r 15 0 = (fld (getSec s n).otpResult 15 0 + 1) % 65536
    let refuse (c : Instr) : Prop := Answers c s fun t => ends t d 1 0 ∧ t = setSec s d { x with otpResult := (getSec t d).otpResult }
    let fails (c : Instr) (cause : Nat) : Prop := Answers c s fun t => ends t d 3 cause ∧
      t = setLog (setSec s d { x with otpResult := (getSec t d).otpResult }) d (getLog t d)
    let place := tag0Place s d (fld x.otpArg 39 0) 1024 1
    (Served s d 11 →
      ((bit x.otpResult 24 = true ∨ x.stage ≠ 3) → refuse (.otpBurn d)) ∧
      (bit x.otpResult 24 = false → x.stage = 3 → (place = none → fails (.otpBurn d) 0x0B) ∧
        ∀ m q, place = some (m, q) → let b := stageRead s m q 1024
          let k := leAt b 4 1
          let good := k < 4 ∧ x.active.getD 0 < k ∧ slotCode o k = 0 ∧ blockValid o.serial k b = true ∧ (leAt b 5 1 = 0 → revoked s d = false)
          (¬ good → fails (.otpBurn d) 0x0B) ∧
          (good → Answers (.otpBurn d) s fun t => ends t d 0 0 ∧ bit (getSec t d).otpResult 24 = true ∧
            t = setSec s d { x with burning := some (k, b), otpResult := (getSec t d).otpResult })) ∧
      (∀ f : BitVec 7, ((f = 0 ∨ 64 < f.toNat) → Absorbed (.otpRaiseFloor d f) s) ∧
        (f ≠ 0 → f.toNat ≤ 64 → (d ≠ 0 ∨ bit x.otpResult 24 = true ∨ x.stage ≠ 3) → refuse (.otpRaiseFloor d f)) ∧
        (f ≠ 0 → f.toNat ≤ 64 → d = 0 → bit x.otpResult 24 = false → x.stage = 3 → let svn := (x.image.map (fun i => i.svn)).getD 0
          ((f.toNat ≤ dieFloor s 0 ∨ svn < f.toNat) → fails (.otpRaiseFloor d f) 4) ∧
          (dieFloor s 0 < f.toNat → f.toNat ≤ svn → Answers (.otpRaiseFloor d f) s fun t => ends t 0 0 0 ∧ t = { s with secs := t.secs } ∧
            ∀ n : DieId, (getSec t n).raising = if s.agree.joined.testBit n.val = true ∧ dieFloor s n < f.toNat then some f.toNat else (getSec s n).raising)))) ∧
    (∀ c, ((s.board.powerOk = false ∨ (x.burning = none ∧ x.raising = none)) → Absorbed (.burnDone d c) s)) ∧
    (∀ k b, s.board.powerOk = true → x.burning = some (k, b) →
      (Answers (.burnDone d .pass) s fun t => getOtp t d = { o with slots := lset o.slots k b } ∧ (getSec t d).burning = none ∧
        (∀ n, n ≠ d → getOtp t n = getOtp s n) ∧ t = setOtp (setSec s d (getSec t d)) d (getOtp t d)) ∧
      (Answers (.burnDone d .fail) s fun t => getOtp t d = { o with spent := lset o.spent k true } ∧ (getSec t d).burning = none ∧
        fld (getSec t d).otpResult 39 32 = 0x0C ∧ fld (getSec t d).otpResult 23 16 = 3 ∧ ∀ n, n ≠ d → getOtp t n = getOtp s n)) ∧
    (∀ f c, s.board.powerOk = true → x.burning = none → x.raising = some f → f ≤ 64 → Answers (.burnDone d c) s fun t =>
      dieFloor t d = f ∧ getOtp t d = { o with floorRow := (getOtp t d).floorRow } ∧ (getSec t d).raising = none ∧
      t = { s with otps := t.otps, secs := t.secs } ∧ ∀ n, n ≠ d → getOtp t n = getOtp s n))

/-- R410 to R414, R419 to R421, Table 17.7: DIE errors, stoker firmware errors and the logbook's own entries. A DIE error stops the die,
whose contexts in slots become FAULTED, and D0 holds it dark; a stoker whose firmware fails hands out nothing, its frames end, and it is
fenced unless another holds the image, from which it is reloaded, and where none holds it any more the stoker is fenced then; a mark is written with its 32 bytes, or suppressed and counted. -/
def Obligations.FaultsAndLogbook : Prop :=
  (∀ (s : State) (d : DieId) (e : DieErrSource),
    ((s.board.powerOk = false ∨ (getLog s d).dieError = true) → Absorbed (.dieError d e) s) ∧
    (s.board.powerOk = true → (getLog s d).dieError = false → s.cords.length = 6 → Answers (.dieError d e) s fun t =>
      (getLog t d).dieError = true ∧ dieRuns t d = false ∧ (d = 0 → ∀ n, dieRuns t n = false) ∧
      (d ≠ 0 → mfind t.agree.held d.val = some 9 ∧ t.agree.joined.testBit d.val = false ∧ JoinedSound t ∧
        ∀ m, m ≠ d → (cordOf t (cordIdx d m)).lit = false) ∧
      ∀ x ∈ (getCores s d).slots, x.state ≠ .free → (ctxOf s 0 x.ctx).state = .live → resettingTenant s (ctxOf s 0 x.ctx).tenant = false →
        (ctxOf t 0 x.ctx).state = .faulted)) ∧
  (∀ (s : State) (d : DieId) (k : Fin 8), (getStk s d).stokers.length = 8 → (getStk s d).frames.length = 32 →
    let x := stokerOf s d k.val
    let others := ∃ j, j < 8 ∧ j ≠ k.val ∧ (stokerOf s d j).image = x.image ∧ (stokerOf s d j).handout = true ∧ (stokerOf s d j).dark = false ∧
      (stokerOf s d j).fenced = false
    ((dieRuns s d = false ∨ x.dark = true ∨ x.fenced = true) → Absorbed (.stokerFirmwareParity d k) s ∧ Absorbed (.stokerFirmwareReload d k) s) ∧
    (dieRuns s d = true → x.dark = false → x.fenced = false →
      (Answers (.stokerFirmwareParity d k) s fun t => (stokerOf t d k.val).handout = false ∧ (stokerOf t d k.val).image = x.image ∧
        (others → (stokerOf t d k.val).fenced = false ∧ (getLog t d).fencedUnits = (getLog s d).fencedUnits) ∧
        (¬ others → (stokerOf t d k.val).fenced = true ∧ (getLog t d).fencedUnits = satAdd 8 (getLog s d).fencedUnits 1) ∧
        (∀ j, j ≠ k.val → stokerOf t d j = stokerOf s d j) ∧
        (∀ f, 4 * k.val ≤ f → f < 4 * k.val + 4 → (frameOf' s d f).busy = true → (frameOf' t d f).park = .ended) ∧
        (∀ f, (f < 4 * k.val ∨ 4 * k.val + 4 ≤ f) → frameOf' t d f = frameOf' s d f) ∧ ∀ a, memByte t a = memByte s a) ∧
      ((x.handout = true ∨ x.rotating = true) → Absorbed (.stokerFirmwareReload d k) s) ∧
      (x.handout = false → x.rotating = false → ¬ others → Answers (.stokerFirmwareReload d k) s fun t =>
        stokerOf t d k.val = { x with fenced := true } ∧ (∀ j, j ≠ k.val → stokerOf t d j = stokerOf s d j) ∧
        (getLog t d).fencedUnits = satAdd 8 (getLog s d).fencedUnits 1 ∧ t = setLog (setStk s d (getStk t d)) d (getLog t d)) ∧
      (x.handout = false → x.rotating = false → others → Answers (.stokerFirmwareReload d k) s fun t =>
        t = setStoker s d k.val { x with handout := true }))) ∧
  (∀ (s : State) (d : DieId), let l := getLog s d
    let ms := dtime s d / 1000000
    let word (b : List Byte) (o n : Nat) : Nat := leAt b o n
    (∀ v : W64, Served s d 9 → v ≠ BitVec.allOnes 64 → l.msIndex = ms →
      (l.msCount < 1024 → Answers (.logMark d v) s fun t => let m := getLog t d
        let b := mget [] m.ring (l.head % 4096)
        t = setLog s d m ∧ m.head = l.head + 1 ∧ m.msCount = l.msCount + 1 ∧ b.length = 32 ∧ word b 0 8 = dtime s d % 2 ^ 64 ∧ word b 8 2 = 0x0100 ∧
        word b 11 1 = 0 ∧ word b 12 2 = 0x0C06 ∧ word b 14 2 = 0 ∧ word b 16 8 = v.toNat ∧ word b 24 8 = 0 ∧
        (∀ k, k ≠ l.head % 4096 → mget [] m.ring k = mget [] l.ring k) ∧ m.faultHead = l.faultHead) ∧
      (1024 ≤ l.msCount → Answers (.logMark d v) s fun t => let m := getLog t d
        t = setLog s d m ∧ m.head = l.head ∧ m.ring = l.ring ∧ m.supCount = l.supCount + 1 ∧ m.suppressed = satAdd 16 l.suppressed 1 ∧
        m.supFirst = (if l.supCount = 0 then 0x0C06 else l.supFirst))) ∧
    ((l.supCount = 0 ∨ ms ≤ l.msIndex) → Absorbed (.logSuppressed d) s) ∧
    (0 < l.supCount → l.msIndex < ms → Answers (.logSuppressed d) s fun t => let m := getLog t d
      let b := mget [] m.ring (l.head % 4096)
      t = setLog s d m ∧ m.head = l.head + 1 ∧ m.supCount = 0 ∧ m.supFirst = 0 ∧ m.msIndex = ms ∧ m.msCount = 0 ∧
      word b 12 2 = 0x0C05 ∧ word b 16 8 = l.supCount % 2 ^ 64 ∧ word b 24 8 = l.supFirst % 2 ^ 64))

/-- R422 to R429, R431, R432: kiln, link patterns and the DRAM pattern test. A run begins only at stage 0x3 over domains that may be
tested, tests them in ascending order as the envelope allows, records each result, takes a failed domain out of the target, and ends,
with its signed token where one is asked for; pattern mode stops a cord's traffic and leaving it retrains the cord; a lane's checker
locks and loses lock; a DRAM test counts its passes down. -/
def Obligations.KilnAndPatterns : Prop :=
  (∀ (s : State) (d : DieId), Served s d 10 → let k := getKiln s d
    (∀ (xs : BitVec 11) (token : Bool), let l := (countUp 0 11).filter (fun x => xs.toNat.testBit x)
      let may := (getSec s d).stage = 3 ∧ k.run = none ∧ ∀ x ∈ l, testable s d x = true
      let place := tag0Place s d (fld k.arg 39 0) 128 128
      let mine := ∃ o, place = some (d, o)
      let refused (t : State) (status : Nat) : Prop := fld (getKiln t d).result 23 16 = status ∧
        fld (getKiln t d).result 15 0 = (fld k.result 15 0 + 1) % 65536 ∧ t = setKiln s d { k with result := (getKiln t d).result }
      (xs = 0 → Absorbed (.kilnRun d xs token) s) ∧
      (xs ≠ 0 → ¬ may → Answers (.kilnRun d xs token) s fun t => refused t 1) ∧
      (xs ≠ 0 → may → token = true → ¬ mine → Answers (.kilnRun d xs token) s fun t => refused t 3) ∧
      (xs ≠ 0 → may → (token = false ∨ mine) → k.current = 15 → (getLamp s d).dom.length = 11 → Answers (.kilnRun d xs token) s fun t =>
        let y := getKiln t d
        fld y.result 23 16 = 0 ∧ bit y.result 24 = true ∧ y.tested = 0 ∧ y.passed = 0 ∧ y.failed = 0 ∧ y.arg = k.arg ∧
        ∃ r, y.run = some r ∧ (token = false → r.token = none) ∧ (∀ o, token = true → place = some (d, o) → r.token = some o) ∧
          ∀ x rest, l = x :: rest →
            (fits s d x = true → y.current = x ∧ r.left = rest ∧ r.awake = true ∧ domOf t d x = .dark) ∧
            (fits s d x = false → y.current = 15 ∧ r.left = l ∧ t.lamps = s.lamps))) ∧
    (∀ (e : Fin 3) (v : W64), k.links.length = 3 → (getEnds s d).length = 3 → s.cords.length = 6 → let i := endCord d e.val
      let c := cordOf s i
      let m := fld v 2 0
      let peer := linkMode s (endPeer d e.val) (endTo (endPeer d e.val) d)
      ((4 < m ∨ 67 < fld v 14 8) → Absorbed (.kilnLinkWrite d e v) s) ∧
      (m ≤ 4 → fld v 14 8 ≤ 67 → m = linkMode s d e.val → Answers (.kilnLinkWrite d e v) s fun t =>
        t = setKiln s d { k with links := lset k.links e.val (keepBits v 0x7F07) }) ∧
      (m ≤ 4 → fld v 14 8 ≤ 67 → m ≠ linkMode s d e.val → Answers (.kilnLinkWrite d e v) s fun t => JoinedSound t ∧
        getKiln t d = { k with links := lset k.links e.val (keepBits v 0x7F07) } ∧ (∀ a, memByte t a = memByte s a) ∧
        ((m ≠ 0 ∨ peer ≠ 0) → (c.lit = true → ((cordOf t i).state = .down ∨ (cordOf t i).state = .dark) ∧ (cordOf t i).training = false) ∧
          (endOf t d e.val).waiting = [] ∧ (endOf t d e.val).inbox = [] ∧ (endOf t d e.val).replay = []) ∧
        (m = 0 → peer = 0 → c.lit = true → (cordLitNow s i false = true ∨ c.checked = true) → (cordOf t i).training = true))) ∧
    (∀ v : W64, let p := fld v 4 0
      let r := fld v 7 5
      let ok := easOn (getEas s d) = false ∧ p ≤ 15 ∧ dpPatternFits p r = true ∧ r ≠ 7 ∧ fld v 9 8 ≠ 3
      (¬ ok → Absorbed (.kilnDpWrite d v) s) ∧
      (ok → Answers (.kilnDpWrite d v) s fun t =>
        t = setKiln s d { k with dp := keepBits v 0x7FF, dpActive := if p = 0 then 0 else keepBits v 0x3FF })) ∧
    (∀ (p : BitVec 3) (n : Byte), let busy := (getMemu s d).spares = 0 ∨ k.dram ≠ none
      ((p = 0 ∨ 4 < p.toNat ∨ n = 0) → Absorbed (.kilnDramRun d p n) s) ∧
      (p ≠ 0 → p.toNat ≤ 4 → n ≠ 0 → busy → Answers (.kilnDramRun d p n) s fun t => fld (getKiln t d).dramResult 23 16 = 1 ∧
        t = setKiln s d { k with dramResult := (getKiln t d).dramResult } ∧ fld (getKiln t d).dramResult 63 32 = fld k.dramResult 63 32) ∧
      (p ≠ 0 → p.toNat ≤ 4 → n ≠ 0 → ¬ busy → Answers (.kilnDramRun d p n) s fun t => let z := (getKiln t d).dramResult
        fld z 23 16 = 0 ∧ bit z 24 = true ∧ fld z 39 32 = 0xFF ∧ fld z 63 40 = 0 ∧
        t = setKiln s d { k with dramResult := z, dram := some { pattern := p.toNat, left := n.toNat, inPass := true } }))) ∧
  (∀ (s : State) (d : DieId), let k := getKiln s d
    (∀ seg mar, (k.run = none ∨ s.board.powerOk = false ∨ 11 ≤ k.current ∨ 16 < seg ∨ 6 < mar) → Absorbed (.kilnDomainTest d seg mar) s) ∧
    (∀ r seg mar, k.run = some r → s.board.powerOk = true → k.current < 11 → seg ≤ 16 → mar ≤ 6 → Answers (.kilnDomainTest d seg mar) s fun t =>
      let y := getKiln t d
      let pass := seg = 0 ∧ mar = 0
      y.tested = k.tested ||| 2 ^ k.current ∧ (pass → y.passed = k.passed ||| 2 ^ k.current ∧ y.failed = k.failed) ∧
      (¬ pass → y.failed = k.failed ||| 2 ^ k.current ∧ y.passed = k.passed ∧ (getLamp t d).failed = (getLamp s d).failed ||| 2 ^ k.current) ∧
      (r.left = [] → r.token = none → y.run = none ∧ bit y.result 24 = false) ∧
      (r.left = [] → r.token ≠ none → y.current = 15 ∧ y.run = some { r with endAt := dtime s d }) ∧
      (∀ x rest, r.left = x :: rest → y.run ≠ none ∧ (y.current = x ∨ y.current = 15)) ∧ ∀ a, memByte t a = memByte s a) ∧
    ((∀ r o, k.run = some r → r.token = some o → r.left ≠ [] ∨ k.current ≠ 15 ∨ s.board.powerOk = false) → Absorbed (.kilnTokenWrite d) s) ∧
    (∀ r o, k.run = some r → r.token = some o → r.left = [] → k.current = 15 → s.board.powerOk = true → mwf 0 (getStaging s d) = true →
      Answers (.kilnTokenWrite d) s fun t =>
        let b := tokenBytes s d r.endAt ++ edSign (idSeed (getOtp s d)) (sha512 (tokenBytes s d r.endAt))
        (getKiln t d).run = none ∧ bit (getKiln t d).result 24 = false ∧ (∀ a, memByte t a = memByte s a) ∧
        (stageOk s d o 128 0 = true → stageRead t d o b.length = b ∧
          ∀ a, (a < o ∨ o + b.length ≤ a) → mget 0 (getStaging t d) a = mget 0 (getStaging s d) a) ∧
        (stageOk s d o 128 0 = false → t.staging = s.staging)) ∧
    (∀ errors : List (Nat × Nat), let good := s.board.powerOk = true ∧ ∀ p ∈ errors, p.1 < 144 ∧ 0 < p.2
      ((¬ good ∨ ∀ r, k.dram = some r → r.inPass = false) → Absorbed (.kilnDramPass d errors) s) ∧
      (∀ r, good → k.dram = some r → r.inPass = true → Answers (.kilnDramPass d errors) s fun t => let z := (getKiln t d).dramResult
        t = setKiln s d { k with dramResult := z, dram := (getKiln t d).dram } ∧
        fld z 63 40 = errors.foldl (fun a p => satAdd 24 a p.2) (fld k.dramResult 63 40) ∧
        (∀ q rest, errors = q :: rest → fld k.dramResult 39 32 = 0xFF → fld z 39 32 = q.1) ∧
        ((errors = [] ∨ fld k.dramResult 39 32 ≠ 0xFF) → fld z 39 32 = fld k.dramResult 39 32) ∧
        (r.left ≤ 1 → (getKiln t d).dram = none ∧ bit z 24 = false) ∧
        (1 < r.left → (getKiln t d).dram = some { r with left := r.left - 1, inPass := false } ∧ bit z 24 = bit k.dramResult 24)))) ∧
  (∀ (s : State) (d : DieId) (e : Fin 3) (lane : BitVec 7) (bits : List Bool), (getEnds s d).length = 3 →
    let x := endOf s d e.val
    let c := laneChecker s d e.val lane.toNat
    let fed := checkBits (linkSends s (endPeer d e.val) (endTo (endPeer d e.val) d)) c bits
    let runs := patterned s d e.val lane.toNat = true
    let took (t : State) : Prop := laneChecker t d e.val lane.toNat = fed ∧ (∀ l, l ≠ lane.toNat → laneChecker t d e.val l = laneChecker s d e.val l) ∧
      t = setEnd s d e.val { x with checkers := (endOf t d e.val).checkers }
    ((¬ runs ∨ c.locked = true ∨ fed.locked = false) → Absorbed (.checkerLock d e lane bits) s) ∧
    (runs → c.locked = false → fed.locked = true → Answers (.checkerLock d e lane bits) s took) ∧
    ((¬ runs ∨ c.locked = false) → Absorbed (.checkerLosesLock d e lane bits) s) ∧
    (runs → c.locked = true → mwf checkerFree x.checkers = true → Answers (.checkerLosesLock d e lane bits) s took))

/-- R433, R438 to R446, Tables 19.4, 19.5: the test access port and the management target. Each TAP instruction loads its code, drives the
balls from the boundary cells or not at all, and loads the cells only by SAMPLE; the management target answers while VIN stands, takes a
dynamic address once, and its snapshots show the package or zeros while the rails are down. -/
def Obligations.TapAndManagement : Prop :=
  (∀ (s : State) (d : DieId) (cells : List Bool) (code : Byte), let x := getTap s d
    (s.board.powerOk = false → ∀ c ∈ [Instr.tapReset, .extest d, .samplePreload d cells, .clamp d, .highz d, .bypass d code, .productionScan d code],
      Absorbed c s) ∧
    (s.board.powerOk = true →
      (Answers .tapReset s fun t => t = { s with taps := t.taps } ∧ ∀ n, getTap t n = { getTap s n with ir := 0xFF, driven := [] }) ∧
      (Answers (.extest d) s fun t => t = setTap s d { x with ir := 0x00, driven := x.cells }) ∧
      (Answers (.samplePreload d cells) s fun t => t = setTap s d { ir := 0x01, cells := cells, driven := [] }) ∧
      (Answers (.clamp d) s fun t => t = setTap s d { x with ir := 0x02, driven := x.cells }) ∧
      (Answers (.highz d) s fun t => t = setTap s d { x with ir := 0x03, driven := [] }) ∧
      ((4 ≤ code.toNat ∧ (code.toNat < 0x80 ∨ code = 0xFF)) → Answers (.bypass d code) s fun t => t = setTap s d { x with ir := code, driven := [] }) ∧
      ((code.toNat < 4 ∨ 0x80 ≤ code.toNat ∧ code ≠ 0xFF) → Absorbed (.bypass d code) s) ∧
      ((0x80 ≤ code.toNat ∧ code ≠ 0xFF) → Answers (.productionScan d code) s fun t => t = setTap s d { x with ir := code, driven := [] }) ∧
      ((code.toNat < 0x80 ∨ code = 0xFF) → Absorbed (.productionScan d code) s))) ∧
  (∀ (s : State) (addr : BitVec 7) (mv ca pw : W16) (o : Byte) (w : List Byte) (n : Nat), let b := s.board
    let up := 1700 ≤ b.vinMv
    (¬ up → ∀ c ∈ [Instr.setdasa addr, .entdaa addr, .rstdaa, .getpid, .getbcr, .getdcr, .getstatus, .mgSnapshotRefresh mv ca pw, .mgTransfer o w n],
      Absorbed c s) ∧
    (up →
      (∀ c ∈ [Instr.setdasa addr, .entdaa addr], (b.dynAddr ≠ none → Absorbed c s) ∧
        (b.dynAddr = none → Answers c s fun t => t = { s with board := { b with dynAddr := some addr.toNat } })) ∧
      (Answers .rstdaa s fun t => t = { s with board := { b with dynAddr := none } }) ∧
      (∀ c ∈ [(Instr.getpid, 6), (.getbcr, 1), (.getdcr, 1), (.getstatus, 2)], Answers c.1 s fun t => t.board.lastRead.length = c.2 ∧
        t = { s with board := { b with lastRead := t.board.lastRead } }) ∧
      (Answers (.mgTransfer o w n) s fun t => t = { s with board := { b with lastRead := t.board.lastRead } } ∧ t.board.lastRead.length = n ∧
        ∀ k, k < n → let p := (o.toNat + k) % 256
          (128 ≤ p → lget 0 t.board.lastRead k = 0xFF) ∧
          (p < 128 → (lget 0 t.board.lastRead k).toNat = (mget 0 b.mgRegs (8 * (p / 8))).toNat / 2 ^ (8 * (p % 8)) % 256)) ∧
      (Answers (.mgSnapshotRefresh mv ca pw) s fun t => let g (r : Nat) : W64 := mget 0 t.board.mgRegs r
        t = { s with board := { b with mgRegs := t.board.mgRegs } } ∧
        fld (g 0) 15 0 = 4 ∧ fld (g 0) 23 16 = 0xB1 ∧ fld (g 0x10) 15 0 = mv.toNat ∧ fld (g 0x10) 31 16 = ca.toNat ∧ fld (g 0x10) 47 32 = pw.toNat ∧
        g 0x78 = b.trip ∧ bit (g 8) 0 = (decide (1746 ≤ b.vinMv) && decide (b.vinMv ≤ 1854)) ∧ bit (g 8) 1 = b.powerOk ∧
        bit (g 8) 2 = b.tripLatch ∧ bit (g 8) 3 = !b.resetN ∧
        (b.powerOk = false → fld (g 8) 19 4 = 0 ∧ ∀ d : DieId, g (0x18 + 8 * d.val) = 0 ∧ g (0x38 + 8 * d.val) = 0 ∧ g (0x58 + 8 * d.val) = 0) ∧
        (b.powerOk = true → ∀ d : DieId, g (0x18 + 8 * d.val) = keepBits (lampTempReg s d) 0x3FFFFF ∧
          g (0x38 + 8 * d.val) = keepBits (lampStateReg s d) 0x7FFFFF ∧ fld (g (0x58 + 8 * d.val)) 31 0 = (getLog s d).head % 2 ^ 32))))

/-- R105: `k.window` sets the data window base to VA[47:30] x 2^30, whatever bits [29:0] of its operand hold, and with a VA above 48 bits is
an illegal instruction, which ends the program. -/
def Obligations.WindowCommandSetsTheDataWindow : Prop :=
  ∀ (s u : State) (d : DieId) (f : Fin 32) (rs1 : Nat), rs1 < 32 → rs1 % 2 = 0 → Issuing s d f.val (customWord 1 3 0 0 rs1 0) u →
    let x := frameOf' u d f.val
    let va := rvPair x rs1
    (fld va 63 48 = 0 → Answers (.kWindow d f) s fun t => let y := frameOf' t d f.val
      y.dataWin * 2 ^ 30 = fld va 47 30 * 2 ^ 30 ∧ y = { x with dataWin := y.dataWin, pc := x.pc + 4 } ∧
        ∀ a n, 0x80000000 ≤ a → 0 < n → a + n ≤ 0xC0000000 → rvPlace y a n = .data (fld va 47 30 * 2 ^ 30 + (a - 0x80000000))) ∧
    (fld va 63 48 ≠ 0 → Answers (.kWindow d f) s fun t => let y := frameOf' t d f.val
      y.dataWin = x.dataWin ∧ y.park = .ended ∧ y.pc = x.pc ∧ ∀ a, memByte t a = memByte s a)

/-- R44: an all-ones word is no write, at a register slot or a doorbell: a burst of all-ones words changes nothing, and no more does a
register command whose value is all-ones. -/
def Obligations.AllOnesIsNoWrite : Prop :=
  (∀ (s : State) (ch : DieId) (b : HostWrite) (a : Nat), PortWrite s ch b a → b.mask = [] → b.data = rep b.data.length 0xFF →
    (regionOf ch a = .slots → Absorbed (.registerSlotWrite ch b) s) ∧ (regionOf ch a = .bells → Absorbed (.doorbellWrite ch b) s)) ∧
  (∀ (s : State) (d n : DieId) (r e : Fin 3), let v := BitVec.allOnes 64
    ∀ c ∈ [Instr.ctlHpErrWrite d v, .tenTableWrite d v, .ctxTableWrite d v, .objTableWrite d v, .genSeqTableWrite d v, .genModelTableWrite d v,
      .easCtlWrite d v, .easTimingWrite d r v, .lampEnvelopeWrite d v, .lampOrderWrite d v, .lampMaskWrite d n v, .timePeriodWrite d v, .logMark d v,
      .kilnLinkWrite d e v, .kilnDpWrite d v], Absorbed c s)

/-- The lists of `Shape`, which stand for a fixed number of things, keep their lengths in every step, and the sparse tables of `Forms`
keep their canonical form. -/
def Obligations.EveryStepKeepsShapeAndForms : Prop :=
  (∀ s t : State, Shape s → step s = .next t → Shape t) ∧ (∀ s t : State, Forms s → step s = .next t → Forms t)
end

