-- ==== Sys2Proof/Laws/Bits.lean ====
section
/-! SUPPORT. The laws of bit fields, of byte order and of the counted flags. -/

namespace Sys2Proof.Machine

/-- A bit of a field is a bit of the word. -/
theorem testBit_fldN (x hi lo j : Nat) : (fldN x hi lo).testBit j = (decide (j < hi + 1 - lo) && x.testBit (lo + j)) := by
  simp [fldN, Nat.testBit_mod_two_pow, Nat.testBit_shiftRight]

/-- A field lies below the power of two of its width. -/
theorem fldN_lt (x hi lo : Nat) : fldN x hi lo < 2 ^ (hi + 1 - lo) := Nat.mod_lt _ (Nat.two_pow_pos _)

/-- A field of a 64-bit word lies below the power of two of its width. -/
theorem fld_lt (x : W64) (hi lo : Nat) : fld x hi lo < 2 ^ (hi + 1 - lo) := fldN_lt _ hi lo

/-- A number with a field taken out and another put in, bit by bit. -/
theorem testBit_replace (x lo w v i : Nat) (hv : v < 2 ^ w) :
    (x - (x >>> lo) % 2 ^ w * 2 ^ lo + v * 2 ^ lo).testBit i
      = if i < lo then x.testBit i else if i < lo + w then v.testBit (i - lo) else x.testBit i := by
  have h1 : x = x % 2 ^ lo + 2 ^ lo * ((x >>> lo) % 2 ^ w + 2 ^ w * (x >>> (lo + w))) := by
    rw [Nat.shiftRight_add, Nat.shiftRight_eq_div_pow (x >>> lo) w, Nat.mod_add_div, Nat.shiftRight_eq_div_pow, Nat.mod_add_div]
  have h2 : x - (x >>> lo) % 2 ^ w * 2 ^ lo + v * 2 ^ lo = 2 ^ lo * (2 ^ w * (x >>> (lo + w)) + v) + x % 2 ^ lo := by
    conv_lhs => lhs; lhs; rw [h1]
    have : 2 ^ lo * ((x >>> lo) % 2 ^ w + 2 ^ w * (x >>> (lo + w)))
        = (x >>> lo) % 2 ^ w * 2 ^ lo + 2 ^ lo * (2 ^ w * (x >>> (lo + w))) := by ring
    rw [this, Nat.mul_add, Nat.mul_comm (2 ^ lo) v]; omega
  rw [h2, Nat.testBit_two_pow_mul_add _ (Nat.mod_lt _ (Nat.two_pow_pos lo))]
  split
  · rename_i h3; rw [Nat.testBit_mod_two_pow, decide_eq_true h3, Bool.true_and]
  · rw [Nat.testBit_two_pow_mul_add _ hv, Nat.testBit_shiftRight]
    split <;> rename_i h3 h4
    · rw [if_pos (by omega)]
    · rw [if_neg (by omega)]; congr 1; omega

/-- Every bit of a word whose field [hi:lo] was replaced. -/
theorem bit_setFld (x : W64) (hi lo v i : Nat) (hlo : lo ≤ hi) (hhi : hi < 64) :
    bit (setFld x hi lo v) i = if lo ≤ i ∧ i ≤ hi then v.testBit (i - lo) else bit x i := by
  unfold bit setFld fld fldN
  rw [BitVec.toNat_ofNat, Nat.testBit_mod_two_pow, testBit_replace _ _ _ _ _ (Nat.mod_lt _ (Nat.two_pow_pos _))]
  by_cases h1 : i < lo
  · rw [if_pos h1, if_neg (by omega)]; simp [show i < 64 by omega]
  · rw [if_neg h1]
    by_cases h2 : i ≤ hi
    · rw [if_pos (by omega), if_pos ⟨by omega, h2⟩, Nat.testBit_mod_two_pow]
      simp [show i < 64 by omega, show i - lo < hi + 1 - lo by omega]
    · rw [if_neg (by omega), if_neg (by omega)]
      by_cases h3 : i < 64
      · simp [h3]
      · simp only [h3, decide_false, Bool.false_and]
        exact (Nat.testBit_lt_two_pow (lt_of_lt_of_le x.isLt (Nat.pow_le_pow_right (by omega) (by omega)))).symm

/-- Bits of a field of a 64-bit word. -/
theorem testBit_fld (x : W64) (hi lo j : Nat) : (fld x hi lo).testBit j = (decide (j < hi + 1 - lo) && bit x (lo + j)) :=
  testBit_fldN _ hi lo j

/-- A field that was set reads the value, in its width. -/
@[simp] theorem fld_setFld_same (x : W64) (hi lo v : Nat) (hlo : lo ≤ hi) (hhi : hi < 64) :
    fld (setFld x hi lo v) hi lo = v % 2 ^ (hi + 1 - lo) := by
  apply Nat.eq_of_testBit_eq; intro j
  rw [testBit_fld, Nat.testBit_mod_two_pow, bit_setFld x hi lo v _ hlo hhi]
  by_cases h : j < hi + 1 - lo
  · rw [if_pos ⟨by omega, by omega⟩]; simp [h]
  · simp [h]

/-- A field apart from one that was set is unchanged. -/
theorem fld_setFld_other (x : W64) (hi lo v hi' lo' : Nat) (hlo : lo ≤ hi) (hhi : hi < 64) (h : hi' < lo ∨ hi < lo') :
    fld (setFld x hi lo v) hi' lo' = fld x hi' lo' := by
  apply Nat.eq_of_testBit_eq; intro j
  rw [testBit_fld, testBit_fld, bit_setFld x hi lo v _ hlo hhi]
  by_cases h1 : j < hi' + 1 - lo'
  · rw [if_neg (by omega)]
  · simp [h1]

/-- A flag that is raised is set, and the others stand. -/
theorem bit_raiseFlag (r : W64) (i j : Nat) (h : i < 64) : bit (raiseFlag r i) j = (decide (i = j) || bit r j) := by
  rw [raiseFlag, bit_setFld r i i 1 j (le_refl i) h]
  by_cases hij : i = j
  · subst hij; simp
  · rw [if_neg (by omega)]; simp [hij]

/-- A count that is bumped saturates at the largest value of its field. -/
theorem fld_bumpFld (r : W64) (hi lo n : Nat) (hlo : lo ≤ hi) (hhi : hi < 64) :
    fld (bumpFld r hi lo n) hi lo = min (fld r hi lo + n) (2 ^ (hi + 1 - lo) - 1) := by
  rw [bumpFld, fld_setFld_same r hi lo _ hlo hhi, satAdd]
  exact Nat.mod_eq_of_lt (lt_of_le_of_lt (min_le_right _ _) (by have := Nat.two_pow_pos (hi + 1 - lo); omega))

/-- A bump leaves the bits outside its count. -/
theorem bit_bumpFld_other (r : W64) (hi lo n i : Nat) (hlo : lo ≤ hi) (hhi : hi < 64) (h : i < lo ∨ hi < i) :
    bit (bumpFld r hi lo n) i = bit r i := by
  rw [bumpFld, bit_setFld r hi lo _ i hlo hhi, if_neg (by omega)]

/-- A flag that is raised leaves the fields it does not stand in. -/
theorem fld_raiseFlag_other (r : W64) (i hi lo : Nat) (h : i < 64) (hd : hi < i ∨ i < lo) :
    fld (raiseFlag r i) hi lo = fld r hi lo := fld_setFld_other r i i 1 hi lo (le_refl i) h hd

/-- The bytes of a number, as many as asked. -/
@[simp] theorem natLe_length (n x : Nat) : (natLe n x).length = n := by
  induction n generalizing x with
  | zero => rfl
  | succ n ih => simp [natLe, ih]

/-- The number of the bytes of a number. -/
theorem leNat_natLe (n x : Nat) : leNat (natLe n x) = x % 256 ^ n := by
  induction n generalizing x with
  | zero => simp [natLe, leNat, Nat.mod_one]
  | succ n ih =>
    rw [natLe, leNat, ih, BitVec.toNat_ofNat, show (2 : Nat) ^ 8 = 256 from rfl, Nat.mod_mod, pow_succ, Nat.mul_comm (256 ^ n) 256,
      Nat.mod_mul]

/-- A word's bytes give the word back. -/
@[simp] theorem le64_natLe (v : W64) : le64 (natLe 8 v.toNat) = v := by
  unfold le64
  rw [List.take_of_length_le (by simp), leNat_natLe, Nat.mod_eq_of_lt (by have := v.isLt; omega)]
  simp

end Sys2Proof.Machine
end

