-- ==== Sys2Proof/Laws/Maps.lean ====
section
/-! SUPPORT. The laws of the sparse tables: what is read after a write, and that a write keeps the canonical form. -/

namespace Sys2Proof.Machine

variable {α : Type}

/-- A key that is put in is found. -/
@[simp] theorem mfind_mins_same (m : Map α) (n : Nat) (x : α) : mfind (mins m n x) n = some x := by
  induction m with
  | nil => simp [mins, mfind]
  | cons e r ih =>
    obtain ⟨k, v⟩ := e
    by_cases h1 : n < k
    · simp [mins, mfind, h1]
    · by_cases h2 : k = n
      · simp [mins, mfind, h2]
      · simp [mins, mfind, h1, h2, ih]

/-- Putting a key in leaves the others. -/
theorem mfind_mins_other (m : Map α) {n k : Nat} (x : α) (h : k ≠ n) : mfind (mins m n x) k = mfind m k := by
  induction m with
  | nil => simp [mins, mfind, Ne.symm h]
  | cons e r ih =>
    obtain ⟨j, v⟩ := e
    by_cases h1 : n < j
    · simp [mins, mfind, h1, Ne.symm h]
    · by_cases h2 : j = n
      · simp [mins, mfind, h2, Ne.symm h]
      · simp [mins, mfind, h1, h2, ih]

/-- Taking a key out leaves the others. -/
theorem mfind_mdel_other (m : Map α) {n k : Nat} (h : k ≠ n) : mfind (mdel m n) k = mfind m k := by
  induction m with
  | nil => rfl
  | cons e r ih =>
    obtain ⟨j, v⟩ := e
    by_cases h2 : j = n
    · simp [mdel, mfind, h2, Ne.symm h]
    · simp [mdel, mfind, h2, ih]

variable [DecidableEq α]

/-- The canonical form of a tail. -/
theorem mwf_tail {d : α} {e : Nat × α} {r : Map α} (h : mwf d (e :: r) = true) : mwf d r = true := by
  cases r with
  | nil => rfl
  | cons f r => simp only [mwf, Bool.and_eq_true] at h; exact h.2

/-- The canonical form of a table with a head: the head is no default, its key lies below the tail's first, the tail is canonical. -/
theorem mwf_cons {d : α} {k : Nat} {v : α} {r : Map α} :
    mwf d ((k, v) :: r) = true ↔ v ≠ d ∧ (∀ e ∈ r.head?, k < e.1) ∧ mwf d r = true := by
  cases r with
  | nil => simp [mwf]
  | cons f r => simp [mwf, and_assoc]

/-- In canonical form every key of the tail lies above the head's. -/
theorem mwf_lt {d : α} {k : Nat} {v : α} {r : Map α} (h : mwf d ((k, v) :: r) = true) : ∀ e ∈ r, k < e.1 := by
  induction r generalizing k v with
  | nil => simp
  | cons f r ih =>
    obtain ⟨j, w⟩ := f
    have hk : k < j := by simpa using (mwf_cons.mp h).2.1
    intro e he
    rcases List.mem_cons.mp he with rfl | he
    · exact hk
    · exact lt_trans hk (ih (mwf_tail h) e he)

omit [DecidableEq α] in
/-- Where every key lies above `n`, `n` is not listed. -/
theorem mfind_none_of_lt {n : Nat} (m : Map α) (h : ∀ e ∈ m, n < e.1) : mfind m n = none := by
  induction m with
  | nil => rfl
  | cons e r ih =>
    obtain ⟨k, v⟩ := e
    have hk : n < k := h (k, v) (by simp)
    have : k ≠ n := by omega
    simp [mfind, this, ih fun e he => h e (List.mem_cons_of_mem _ he)]

/-- A key taken out of a canonical table is not listed. -/
theorem mfind_mdel_same {d : α} (m : Map α) (n : Nat) (h : mwf d m = true) : mfind (mdel m n) n = none := by
  induction m with
  | nil => rfl
  | cons e r ih =>
    obtain ⟨k, v⟩ := e
    by_cases h2 : k = n
    · subst h2; simpa [mdel] using mfind_none_of_lt r (mwf_lt h)
    · simp [mdel, mfind, h2, ih (mwf_tail h)]

/-- Taking a key out keeps the canonical form and lists nothing new. -/
theorem mdel_mwf {d : α} (m : Map α) (n : Nat) (h : mwf d m = true) :
    mwf d (mdel m n) = true ∧ ∀ e ∈ mdel m n, e ∈ m := by
  induction m with
  | nil => exact ⟨rfl, by simp [mdel]⟩
  | cons e r ih =>
    obtain ⟨k, v⟩ := e
    have ⟨hw, hs⟩ := ih (mwf_tail h)
    by_cases h2 : k = n
    · simp only [mdel, h2, if_true]; exact ⟨mwf_tail h, fun e he => List.mem_cons_of_mem _ he⟩
    · simp only [mdel, h2, if_false]
      refine ⟨mwf_cons.mpr ⟨(mwf_cons.mp h).1, fun e he => ?_, hw⟩, ?_⟩
      · exact mwf_lt h e (hs e (List.mem_of_mem_head? he))
      · intro e he
        rcases List.mem_cons.mp he with rfl | he
        · simp
        · exact List.mem_cons_of_mem _ (hs e he)

omit [DecidableEq α] in
/-- The first entry after a put is the put one or an old one. -/
theorem mins_mem (m : Map α) (n : Nat) (x : α) : ∀ e ∈ mins m n x, e = (n, x) ∨ e ∈ m := by
  induction m with
  | nil => simp [mins]
  | cons e r ih =>
    obtain ⟨k, v⟩ := e
    intro f hf
    by_cases h1 : n < k
    · simpa [mins, h1] using hf
    · by_cases h2 : k = n
      · rcases (by simpa [mins, h2] using hf : f = (n, x) ∨ f ∈ r) with h | h
        · exact .inl h
        · exact .inr (List.mem_cons_of_mem _ h)
      · rcases (by simpa [mins, h1, h2] using hf : f = (k, v) ∨ f ∈ mins r n x) with h | h
        · exact .inr (by simp [h])
        · rcases ih f h with h | h
          · exact .inl h
          · exact .inr (List.mem_cons_of_mem _ h)

/-- Listing a value that is no default keeps the canonical form. -/
theorem mins_mwf {d : α} (m : Map α) (n : Nat) (x : α) (hx : x ≠ d) (h : mwf d m = true) : mwf d (mins m n x) = true := by
  induction m with
  | nil => simp [mins, mwf, hx]
  | cons e r ih =>
    obtain ⟨k, v⟩ := e
    by_cases h1 : n < k
    · simp only [mins, h1, if_true]; exact mwf_cons.mpr ⟨hx, by simpa using h1, h⟩
    · by_cases h2 : k = n
      · subst h2; simp only [mins, h1, if_true, if_false]
        exact mwf_cons.mpr ⟨hx, (mwf_cons.mp h).2.1, mwf_tail h⟩
      · simp only [mins, h1, h2, if_false]
        refine mwf_cons.mpr ⟨(mwf_cons.mp h).1, fun e he => ?_, ih (mwf_tail h)⟩
        rcases mins_mem r n x e (List.mem_of_mem_head? he) with rfl | he
        · show k < n; omega
        · exact mwf_lt h e he

/-- A write keeps the canonical form. -/
theorem mput_mwf {d : α} (m : Map α) (n : Nat) (x : α) (h : mwf d m = true) : mwf d (mput d m n x) = true := by
  unfold mput
  split
  · exact (mdel_mwf m n h).1
  · exact mins_mwf m n x ‹_› h

/-- A write leaves every other key. -/
theorem mget_mput_other (d : α) (m : Map α) {n k : Nat} (x : α) (h : k ≠ n) : mget d (mput d m n x) k = mget d m k := by
  unfold mput mget
  split
  · rw [mfind_mdel_other m h]
  · rw [mfind_mins_other m x h]

/-- A key of a canonical table reads what was written to it. -/
theorem mget_mput_same {d : α} (m : Map α) (n : Nat) (x : α) (h : mwf d m = true) : mget d (mput d m n x) n = x := by
  unfold mput mget
  split
  · rw [mfind_mdel_same m n h]; exact ‹x = d›.symm
  · simp

/-- Keeping only some entries keeps the canonical form. -/
theorem filter_mwf {d : α} (p : Nat × α → Bool) (m : Map α) (h : mwf d m = true) : mwf d (m.filter p) = true := by
  induction m with
  | nil => rfl
  | cons e r ih =>
    obtain ⟨k, v⟩ := e
    by_cases hp : p (k, v) = true
    · rw [List.filter_cons_of_pos hp]
      refine mwf_cons.mpr ⟨(mwf_cons.mp h).1, fun e he => ?_, ih (mwf_tail h)⟩
      exact mwf_lt h e (List.mem_filter.mp (List.mem_of_mem_head? he)).1
    · rw [List.filter_cons_of_neg hp]; exact ih (mwf_tail h)

end Sys2Proof.Machine
end

