-- ==== Sys2Proof/Laws/State.lean ====
section
/-! SUPPORT. What each setter of one die's part leaves as it was, and what the reader of that part gives after it. -/

namespace Sys2Proof.Machine

/-- A die reads what was set on it. -/
@[simp] theorem qget_qset_same {α : Type} (q : Quad α) (d : DieId) (x : α) : qget (qset q d x) d = x := by
  fin_cases d <;> rfl

/-- A die keeps its item when another die's is set. -/
@[simp] theorem qget_qset_other {α : Type} (q : Quad α) {d e : DieId} (x : α) (h : e ≠ d) : qget (qset q d x) e = qget q e := by
  fin_cases d <;> fin_cases e <;> first | rfl | exact absurd rfl h

/-- Setting a die to what it holds changes nothing. -/
@[simp] theorem qset_qget {α : Type} (q : Quad α) (d : DieId) : qset q d (qget q d) = q := by
  fin_cases d <;> rfl

/-- Only the last item set on a die counts. -/
@[simp] theorem qset_qset {α : Type} (q : Quad α) (d : DieId) (x y : α) : qset (qset q d x) d y = qset q d y := by
  fin_cases d <;> rfl

/-- `setStaging` changes no other field. -/
@[simp] theorem setStaging_fields (s : State) (d : DieId) (x : Map Byte) :
    (setStaging s d x).pending = s.pending ∧ (setStaging s d x).now = s.now ∧ (setStaging s d x).freeCtr = s.freeCtr ∧
    (setStaging s d x).nextId = s.nextId ∧ (setStaging s d x).board = s.board ∧ (setStaging s d x).mem = s.mem ∧
    (setStaging s d x).poison = s.poison ∧ (setStaging s d x).stagingBad = s.stagingBad ∧ (setStaging s d x).pieces = s.pieces ∧
    (setStaging s d x).sheets = s.sheets ∧ (setStaging s d x).ports = s.ports ∧ (setStaging s d x).hregs = s.hregs ∧
    (setStaging s d x).qregs = s.qregs ∧ (setStaging s d x).doorbells = s.doorbells ∧ (setStaging s d x).forwards = s.forwards ∧
    (setStaging s d x).relays = s.relays ∧ (setStaging s d x).frozen = s.frozen ∧ (setStaging s d x).tables = s.tables ∧
    (setStaging s d x).pins = s.pins ∧ (setStaging s d x).resets = s.resets ∧ (setStaging s d x).tenRecords = s.tenRecords ∧
    (setStaging s d x).queues = s.queues ∧ (setStaging s d x).stokers = s.stokers ∧ (setStaging s d x).signals = s.signals ∧
    (setStaging s d x).watches = s.watches ∧
    (setStaging s d x).commits = s.commits ∧ (setStaging s d x).cores = s.cores ∧ (setStaging s d x).memu = s.memu ∧
    (setStaging s d x).dma = s.dma ∧ (setStaging s d x).ret = s.ret ∧ (setStaging s d x).gen = s.gen ∧
    (setStaging s d x).eas = s.eas ∧ (setStaging s d x).geo = s.geo ∧ (setStaging s d x).lamps = s.lamps ∧
    (setStaging s d x).lampPkg = s.lampPkg ∧ (setStaging s d x).times = s.times ∧ (setStaging s d x).pps = s.pps ∧
    (setStaging s d x).logs = s.logs ∧ (setStaging s d x).cords = s.cords ∧ (setStaging s d x).ends = s.ends ∧
    (setStaging s d x).agree = s.agree ∧ (setStaging s d x).cordRegs = s.cordRegs ∧ (setStaging s d x).otps = s.otps ∧
    (setStaging s d x).secs = s.secs ∧ (setStaging s d x).kilns = s.kilns ∧ (setStaging s d x).taps = s.taps :=
  ⟨rfl, rfl, rfl, rfl, rfl, rfl, rfl, rfl, rfl, rfl, rfl, rfl, rfl, rfl, rfl, rfl, rfl, rfl, rfl, rfl, rfl, rfl, rfl, rfl, rfl, rfl,
   rfl, rfl, rfl, rfl, rfl, rfl, rfl, rfl, rfl, rfl, rfl, rfl, rfl, rfl, rfl, rfl, rfl, rfl, rfl, rfl⟩

/-- `setStaging` changes no other part of a die. -/
@[simp] theorem setStaging_gets (s : State) (d : DieId) (x : Map Byte) (e : DieId) :
    getStagingBad (setStaging s d x) e = getStagingBad s e ∧ getPieces (setStaging s d x) e = getPieces s e ∧
    getSheet (setStaging s d x) e = getSheet s e ∧ getPort (setStaging s d x) e = getPort s e ∧
    getHregs (setStaging s d x) e = getHregs s e ∧ getQregs (setStaging s d x) e = getQregs s e ∧
    getBells (setStaging s d x) e = getBells s e ∧ getForwards (setStaging s d x) e = getForwards s e ∧
    getRelay (setStaging s d x) e = getRelay s e ∧ getTables (setStaging s d x) e = getTables s e ∧
    getPins (setStaging s d x) e = getPins s e ∧ getTenRecs (setStaging s d x) e = getTenRecs s e ∧
    getQueues (setStaging s d x) e = getQueues s e ∧ getStk (setStaging s d x) e = getStk s e ∧
    getCores (setStaging s d x) e = getCores s e ∧ getMemu (setStaging s d x) e = getMemu s e ∧
    getDma (setStaging s d x) e = getDma s e ∧ getRet (setStaging s d x) e = getRet s e ∧
    getGen (setStaging s d x) e = getGen s e ∧ getEas (setStaging s d x) e = getEas s e ∧
    getGeo (setStaging s d x) e = getGeo s e ∧ getLamp (setStaging s d x) e = getLamp s e ∧
    getTime (setStaging s d x) e = getTime s e ∧ getLog (setStaging s d x) e = getLog s e ∧
    getEnds (setStaging s d x) e = getEnds s e ∧ getCordRegs (setStaging s d x) e = getCordRegs s e ∧
    getOtp (setStaging s d x) e = getOtp s e ∧ getSec (setStaging s d x) e = getSec s e ∧
    getKiln (setStaging s d x) e = getKiln s e ∧ getTap (setStaging s d x) e = getTap s e :=
  ⟨rfl, rfl, rfl, rfl, rfl, rfl, rfl, rfl, rfl, rfl, rfl, rfl, rfl, rfl, rfl, rfl, rfl, rfl, rfl, rfl, rfl, rfl, rfl, rfl, rfl,
   rfl, rfl, rfl, rfl, rfl⟩

/-- `getStaging` reads what `setStaging` set. -/
@[simp] theorem getStaging_setStaging (s : State) (d : DieId) (x : Map Byte) : getStaging (setStaging s d x) d = x :=
  qget_qset_same s.staging d x

/-- `setStaging` leaves the other dies' parts. -/
@[simp] theorem getStaging_setStaging_other (s : State) (d : DieId) (x : Map Byte) {e : DieId} (h : e ≠ d) :
    getStaging (setStaging s d x) e = getStaging s e := qget_qset_other s.staging x h

/-- `setStagingBad` changes no other field. -/
@[simp] theorem setStagingBad_fields (s : State) (d : DieId) (x : Map Bool) :
    (setStagingBad s d x).pending = s.pending ∧ (setStagingBad s d x).now = s.now ∧ (setStagingBad s d x).freeCtr = s.freeCtr ∧
    (setStagingBad s d x).nextId = s.nextId ∧ (setStagingBad s d x).board = s.board ∧ (setStagingBad s d x).mem = s.mem ∧
    (setStagingBad s d x).poison = s.poison ∧ (setStagingBad s d x).staging = s.staging ∧
    (setStagingBad s d x).pieces = s.pieces ∧ (setStagingBad s d x).sheets = s.sheets ∧ (setStagingBad s d x).ports = s.ports ∧
    (setStagingBad s d x).hregs = s.hregs ∧ (setStagingBad s d x).qregs = s.qregs ∧
    (setStagingBad s d x).doorbells = s.doorbells ∧ (setStagingBad s d x).forwards = s.forwards ∧
    (setStagingBad s d x).relays = s.relays ∧ (setStagingBad s d x).frozen = s.frozen ∧ (setStagingBad s d x).tables = s.tables ∧
    (setStagingBad s d x).pins = s.pins ∧ (setStagingBad s d x).resets = s.resets ∧
    (setStagingBad s d x).tenRecords = s.tenRecords ∧ (setStagingBad s d x).queues = s.queues ∧
    (setStagingBad s d x).stokers = s.stokers ∧ (setStagingBad s d x).signals = s.signals ∧
    (setStagingBad s d x).watches = s.watches ∧
    (setStagingBad s d x).commits = s.commits ∧ (setStagingBad s d x).cores = s.cores ∧ (setStagingBad s d x).memu = s.memu ∧
    (setStagingBad s d x).dma = s.dma ∧ (setStagingBad s d x).ret = s.ret ∧ (setStagingBad s d x).gen = s.gen ∧
    (setStagingBad s d x).eas = s.eas ∧ (setStagingBad s d x).geo = s.geo ∧ (setStagingBad s d x).lamps = s.lamps ∧
    (setStagingBad s d x).lampPkg = s.lampPkg ∧ (setStagingBad s d x).times = s.times ∧ (setStagingBad s d x).pps = s.pps ∧
    (setStagingBad s d x).logs = s.logs ∧ (setStagingBad s d x).cords = s.cords ∧ (setStagingBad s d x).ends = s.ends ∧
    (setStagingBad s d x).agree = s.agree ∧ (setStagingBad s d x).cordRegs = s.cordRegs ∧ (setStagingBad s d x).otps = s.otps ∧
    (setStagingBad s d x).secs = s.secs ∧ (setStagingBad s d x).kilns = s.kilns ∧ (setStagingBad s d x).taps = s.taps :=
  ⟨rfl, rfl, rfl, rfl, rfl, rfl, rfl, rfl, rfl, rfl, rfl, rfl, rfl, rfl, rfl, rfl, rfl, rfl, rfl, rfl, rfl, rfl, rfl, rfl, rfl, rfl,
   rfl, rfl, rfl, rfl, rfl, rfl, rfl, rfl, rfl, rfl, rfl, rfl, rfl, rfl, rfl, rfl, rfl, rfl, rfl, rfl⟩

/-- `setStagingBad` changes no other part of a die. -/
@[simp] theorem setStagingBad_gets (s : State) (d : DieId) (x : Map Bool) (e : DieId) :
    getStaging (setStagingBad s d x) e = getStaging s e ∧ getPieces (setStagingBad s d x) e = getPieces s e ∧
    getSheet (setStagingBad s d x) e = getSheet s e ∧ getPort (setStagingBad s d x) e = getPort s e ∧
    getHregs (setStagingBad s d x) e = getHregs s e ∧ getQregs (setStagingBad s d x) e = getQregs s e ∧
    getBells (setStagingBad s d x) e = getBells s e ∧ getForwards (setStagingBad s d x) e = getForwards s e ∧
    getRelay (setStagingBad s d x) e = getRelay s e ∧ getTables (setStagingBad s d x) e = getTables s e ∧
    getPins (setStagingBad s d x) e = getPins s e ∧ getTenRecs (setStagingBad s d x) e = getTenRecs s e ∧
    getQueues (setStagingBad s d x) e = getQueues s e ∧ getStk (setStagingBad s d x) e = getStk s e ∧
    getCores (setStagingBad s d x) e = getCores s e ∧ getMemu (setStagingBad s d x) e = getMemu s e ∧
    getDma (setStagingBad s d x) e = getDma s e ∧ getRet (setStagingBad s d x) e = getRet s e ∧
    getGen (setStagingBad s d x) e = getGen s e ∧ getEas (setStagingBad s d x) e = getEas s e ∧
    getGeo (setStagingBad s d x) e = getGeo s e ∧ getLamp (setStagingBad s d x) e = getLamp s e ∧
    getTime (setStagingBad s d x) e = getTime s e ∧ getLog (setStagingBad s d x) e = getLog s e ∧
    getEnds (setStagingBad s d x) e = getEnds s e ∧ getCordRegs (setStagingBad s d x) e = getCordRegs s e ∧
    getOtp (setStagingBad s d x) e = getOtp s e ∧ getSec (setStagingBad s d x) e = getSec s e ∧
    getKiln (setStagingBad s d x) e = getKiln s e ∧ getTap (setStagingBad s d x) e = getTap s e :=
  ⟨rfl, rfl, rfl, rfl, rfl, rfl, rfl, rfl, rfl, rfl, rfl, rfl, rfl, rfl, rfl, rfl, rfl, rfl, rfl, rfl, rfl, rfl, rfl, rfl, rfl,
   rfl, rfl, rfl, rfl, rfl⟩

/-- `getStagingBad` reads what `setStagingBad` set. -/
@[simp] theorem getStagingBad_setStagingBad (s : State) (d : DieId) (x : Map Bool) : getStagingBad (setStagingBad s d x) d = x :=
  qget_qset_same s.stagingBad d x

/-- `setStagingBad` leaves the other dies' parts. -/
@[simp] theorem getStagingBad_setStagingBad_other (s : State) (d : DieId) (x : Map Bool) {e : DieId} (h : e ≠ d) :
    getStagingBad (setStagingBad s d x) e = getStagingBad s e := qget_qset_other s.stagingBad x h

/-- `setPieces` changes no other field. -/
@[simp] theorem setPieces_fields (s : State) (d : DieId) (x : Map Piece) :
    (setPieces s d x).pending = s.pending ∧ (setPieces s d x).now = s.now ∧ (setPieces s d x).freeCtr = s.freeCtr ∧
    (setPieces s d x).nextId = s.nextId ∧ (setPieces s d x).board = s.board ∧ (setPieces s d x).mem = s.mem ∧
    (setPieces s d x).poison = s.poison ∧ (setPieces s d x).staging = s.staging ∧ (setPieces s d x).stagingBad = s.stagingBad ∧
    (setPieces s d x).sheets = s.sheets ∧ (setPieces s d x).ports = s.ports ∧ (setPieces s d x).hregs = s.hregs ∧
    (setPieces s d x).qregs = s.qregs ∧ (setPieces s d x).doorbells = s.doorbells ∧ (setPieces s d x).forwards = s.forwards ∧
    (setPieces s d x).relays = s.relays ∧ (setPieces s d x).frozen = s.frozen ∧ (setPieces s d x).tables = s.tables ∧
    (setPieces s d x).pins = s.pins ∧ (setPieces s d x).resets = s.resets ∧ (setPieces s d x).tenRecords = s.tenRecords ∧
    (setPieces s d x).queues = s.queues ∧ (setPieces s d x).stokers = s.stokers ∧ (setPieces s d x).signals = s.signals ∧
    (setPieces s d x).watches = s.watches ∧
    (setPieces s d x).commits = s.commits ∧ (setPieces s d x).cores = s.cores ∧ (setPieces s d x).memu = s.memu ∧
    (setPieces s d x).dma = s.dma ∧ (setPieces s d x).ret = s.ret ∧ (setPieces s d x).gen = s.gen ∧
    (setPieces s d x).eas = s.eas ∧ (setPieces s d x).geo = s.geo ∧ (setPieces s d x).lamps = s.lamps ∧
    (setPieces s d x).lampPkg = s.lampPkg ∧ (setPieces s d x).times = s.times ∧ (setPieces s d x).pps = s.pps ∧
    (setPieces s d x).logs = s.logs ∧ (setPieces s d x).cords = s.cords ∧ (setPieces s d x).ends = s.ends ∧
    (setPieces s d x).agree = s.agree ∧ (setPieces s d x).cordRegs = s.cordRegs ∧ (setPieces s d x).otps = s.otps ∧
    (setPieces s d x).secs = s.secs ∧ (setPieces s d x).kilns = s.kilns ∧ (setPieces s d x).taps = s.taps :=
  ⟨rfl, rfl, rfl, rfl, rfl, rfl, rfl, rfl, rfl, rfl, rfl, rfl, rfl, rfl, rfl, rfl, rfl, rfl, rfl, rfl, rfl, rfl, rfl, rfl, rfl, rfl,
   rfl, rfl, rfl, rfl, rfl, rfl, rfl, rfl, rfl, rfl, rfl, rfl, rfl, rfl, rfl, rfl, rfl, rfl, rfl, rfl⟩

/-- `setPieces` changes no other part of a die. -/
@[simp] theorem setPieces_gets (s : State) (d : DieId) (x : Map Piece) (e : DieId) :
    getStaging (setPieces s d x) e = getStaging s e ∧ getStagingBad (setPieces s d x) e = getStagingBad s e ∧
    getSheet (setPieces s d x) e = getSheet s e ∧ getPort (setPieces s d x) e = getPort s e ∧
    getHregs (setPieces s d x) e = getHregs s e ∧ getQregs (setPieces s d x) e = getQregs s e ∧
    getBells (setPieces s d x) e = getBells s e ∧ getForwards (setPieces s d x) e = getForwards s e ∧
    getRelay (setPieces s d x) e = getRelay s e ∧ getTables (setPieces s d x) e = getTables s e ∧
    getPins (setPieces s d x) e = getPins s e ∧ getTenRecs (setPieces s d x) e = getTenRecs s e ∧
    getQueues (setPieces s d x) e = getQueues s e ∧ getStk (setPieces s d x) e = getStk s e ∧
    getCores (setPieces s d x) e = getCores s e ∧ getMemu (setPieces s d x) e = getMemu s e ∧
    getDma (setPieces s d x) e = getDma s e ∧ getRet (setPieces s d x) e = getRet s e ∧ getGen (setPieces s d x) e = getGen s e ∧
    getEas (setPieces s d x) e = getEas s e ∧ getGeo (setPieces s d x) e = getGeo s e ∧
    getLamp (setPieces s d x) e = getLamp s e ∧ getTime (setPieces s d x) e = getTime s e ∧
    getLog (setPieces s d x) e = getLog s e ∧ getEnds (setPieces s d x) e = getEnds s e ∧
    getCordRegs (setPieces s d x) e = getCordRegs s e ∧ getOtp (setPieces s d x) e = getOtp s e ∧
    getSec (setPieces s d x) e = getSec s e ∧ getKiln (setPieces s d x) e = getKiln s e ∧ getTap (setPieces s d x) e = getTap s e :=
  ⟨rfl, rfl, rfl, rfl, rfl, rfl, rfl, rfl, rfl, rfl, rfl, rfl, rfl, rfl, rfl, rfl, rfl, rfl, rfl, rfl, rfl, rfl, rfl, rfl, rfl,
   rfl, rfl, rfl, rfl, rfl⟩

/-- `getPieces` reads what `setPieces` set. -/
@[simp] theorem getPieces_setPieces (s : State) (d : DieId) (x : Map Piece) : getPieces (setPieces s d x) d = x :=
  qget_qset_same s.pieces d x

/-- `setPieces` leaves the other dies' parts. -/
@[simp] theorem getPieces_setPieces_other (s : State) (d : DieId) (x : Map Piece) {e : DieId} (h : e ≠ d) :
    getPieces (setPieces s d x) e = getPieces s e := qget_qset_other s.pieces x h

/-- `setSheet` changes no other field. -/
@[simp] theorem setSheet_fields (s : State) (d : DieId) (x : Sheet) :
    (setSheet s d x).pending = s.pending ∧ (setSheet s d x).now = s.now ∧ (setSheet s d x).freeCtr = s.freeCtr ∧
    (setSheet s d x).nextId = s.nextId ∧ (setSheet s d x).board = s.board ∧ (setSheet s d x).mem = s.mem ∧
    (setSheet s d x).poison = s.poison ∧ (setSheet s d x).staging = s.staging ∧ (setSheet s d x).stagingBad = s.stagingBad ∧
    (setSheet s d x).pieces = s.pieces ∧ (setSheet s d x).ports = s.ports ∧ (setSheet s d x).hregs = s.hregs ∧
    (setSheet s d x).qregs = s.qregs ∧ (setSheet s d x).doorbells = s.doorbells ∧ (setSheet s d x).forwards = s.forwards ∧
    (setSheet s d x).relays = s.relays ∧ (setSheet s d x).frozen = s.frozen ∧ (setSheet s d x).tables = s.tables ∧
    (setSheet s d x).pins = s.pins ∧ (setSheet s d x).resets = s.resets ∧ (setSheet s d x).tenRecords = s.tenRecords ∧
    (setSheet s d x).queues = s.queues ∧ (setSheet s d x).stokers = s.stokers ∧ (setSheet s d x).signals = s.signals ∧
    (setSheet s d x).watches = s.watches ∧
    (setSheet s d x).commits = s.commits ∧ (setSheet s d x).cores = s.cores ∧ (setSheet s d x).memu = s.memu ∧
    (setSheet s d x).dma = s.dma ∧ (setSheet s d x).ret = s.ret ∧ (setSheet s d x).gen = s.gen ∧ (setSheet s d x).eas = s.eas ∧
    (setSheet s d x).geo = s.geo ∧ (setSheet s d x).lamps = s.lamps ∧ (setSheet s d x).lampPkg = s.lampPkg ∧
    (setSheet s d x).times = s.times ∧ (setSheet s d x).pps = s.pps ∧ (setSheet s d x).logs = s.logs ∧
    (setSheet s d x).cords = s.cords ∧ (setSheet s d x).ends = s.ends ∧ (setSheet s d x).agree = s.agree ∧
    (setSheet s d x).cordRegs = s.cordRegs ∧ (setSheet s d x).otps = s.otps ∧ (setSheet s d x).secs = s.secs ∧
    (setSheet s d x).kilns = s.kilns ∧ (setSheet s d x).taps = s.taps :=
  ⟨rfl, rfl, rfl, rfl, rfl, rfl, rfl, rfl, rfl, rfl, rfl, rfl, rfl, rfl, rfl, rfl, rfl, rfl, rfl, rfl, rfl, rfl, rfl, rfl, rfl, rfl,
   rfl, rfl, rfl, rfl, rfl, rfl, rfl, rfl, rfl, rfl, rfl, rfl, rfl, rfl, rfl, rfl, rfl, rfl, rfl, rfl⟩

/-- `setSheet` changes no other part of a die. -/
@[simp] theorem setSheet_gets (s : State) (d : DieId) (x : Sheet) (e : DieId) :
    getStaging (setSheet s d x) e = getStaging s e ∧ getStagingBad (setSheet s d x) e = getStagingBad s e ∧
    getPieces (setSheet s d x) e = getPieces s e ∧ getPort (setSheet s d x) e = getPort s e ∧
    getHregs (setSheet s d x) e = getHregs s e ∧ getQregs (setSheet s d x) e = getQregs s e ∧
    getBells (setSheet s d x) e = getBells s e ∧ getForwards (setSheet s d x) e = getForwards s e ∧
    getRelay (setSheet s d x) e = getRelay s e ∧ getTables (setSheet s d x) e = getTables s e ∧
    getPins (setSheet s d x) e = getPins s e ∧ getTenRecs (setSheet s d x) e = getTenRecs s e ∧
    getQueues (setSheet s d x) e = getQueues s e ∧ getStk (setSheet s d x) e = getStk s e ∧
    getCores (setSheet s d x) e = getCores s e ∧ getMemu (setSheet s d x) e = getMemu s e ∧
    getDma (setSheet s d x) e = getDma s e ∧ getRet (setSheet s d x) e = getRet s e ∧ getGen (setSheet s d x) e = getGen s e ∧
    getEas (setSheet s d x) e = getEas s e ∧ getGeo (setSheet s d x) e = getGeo s e ∧ getLamp (setSheet s d x) e = getLamp s e ∧
    getTime (setSheet s d x) e = getTime s e ∧ getLog (setSheet s d x) e = getLog s e ∧
    getEnds (setSheet s d x) e = getEnds s e ∧ getCordRegs (setSheet s d x) e = getCordRegs s e ∧
    getOtp (setSheet s d x) e = getOtp s e ∧ getSec (setSheet s d x) e = getSec s e ∧ getKiln (setSheet s d x) e = getKiln s e ∧
    getTap (setSheet s d x) e = getTap s e :=
  ⟨rfl, rfl, rfl, rfl, rfl, rfl, rfl, rfl, rfl, rfl, rfl, rfl, rfl, rfl, rfl, rfl, rfl, rfl, rfl, rfl, rfl, rfl, rfl, rfl, rfl,
   rfl, rfl, rfl, rfl, rfl⟩

/-- `getSheet` reads what `setSheet` set. -/
@[simp] theorem getSheet_setSheet (s : State) (d : DieId) (x : Sheet) : getSheet (setSheet s d x) d = x :=
  qget_qset_same s.sheets d x

/-- `setSheet` leaves the other dies' parts. -/
@[simp] theorem getSheet_setSheet_other (s : State) (d : DieId) (x : Sheet) {e : DieId} (h : e ≠ d) :
    getSheet (setSheet s d x) e = getSheet s e := qget_qset_other s.sheets x h

/-- `setPort` changes no other field. -/
@[simp] theorem setPort_fields (s : State) (d : DieId) (x : HostPort) :
    (setPort s d x).pending = s.pending ∧ (setPort s d x).now = s.now ∧ (setPort s d x).freeCtr = s.freeCtr ∧
    (setPort s d x).nextId = s.nextId ∧ (setPort s d x).board = s.board ∧ (setPort s d x).mem = s.mem ∧
    (setPort s d x).poison = s.poison ∧ (setPort s d x).staging = s.staging ∧ (setPort s d x).stagingBad = s.stagingBad ∧
    (setPort s d x).pieces = s.pieces ∧ (setPort s d x).sheets = s.sheets ∧ (setPort s d x).hregs = s.hregs ∧
    (setPort s d x).qregs = s.qregs ∧ (setPort s d x).doorbells = s.doorbells ∧ (setPort s d x).forwards = s.forwards ∧
    (setPort s d x).relays = s.relays ∧ (setPort s d x).frozen = s.frozen ∧ (setPort s d x).tables = s.tables ∧
    (setPort s d x).pins = s.pins ∧ (setPort s d x).resets = s.resets ∧ (setPort s d x).tenRecords = s.tenRecords ∧
    (setPort s d x).queues = s.queues ∧ (setPort s d x).stokers = s.stokers ∧ (setPort s d x).signals = s.signals ∧
    (setPort s d x).watches = s.watches ∧
    (setPort s d x).commits = s.commits ∧ (setPort s d x).cores = s.cores ∧ (setPort s d x).memu = s.memu ∧
    (setPort s d x).dma = s.dma ∧ (setPort s d x).ret = s.ret ∧ (setPort s d x).gen = s.gen ∧ (setPort s d x).eas = s.eas ∧
    (setPort s d x).geo = s.geo ∧ (setPort s d x).lamps = s.lamps ∧ (setPort s d x).lampPkg = s.lampPkg ∧
    (setPort s d x).times = s.times ∧ (setPort s d x).pps = s.pps ∧ (setPort s d x).logs = s.logs ∧
    (setPort s d x).cords = s.cords ∧ (setPort s d x).ends = s.ends ∧ (setPort s d x).agree = s.agree ∧
    (setPort s d x).cordRegs = s.cordRegs ∧ (setPort s d x).otps = s.otps ∧ (setPort s d x).secs = s.secs ∧
    (setPort s d x).kilns = s.kilns ∧ (setPort s d x).taps = s.taps :=
  ⟨rfl, rfl, rfl, rfl, rfl, rfl, rfl, rfl, rfl, rfl, rfl, rfl, rfl, rfl, rfl, rfl, rfl, rfl, rfl, rfl, rfl, rfl, rfl, rfl, rfl, rfl,
   rfl, rfl, rfl, rfl, rfl, rfl, rfl, rfl, rfl, rfl, rfl, rfl, rfl, rfl, rfl, rfl, rfl, rfl, rfl, rfl⟩

/-- `setPort` changes no other part of a die. -/
@[simp] theorem setPort_gets (s : State) (d : DieId) (x : HostPort) (e : DieId) :
    getStaging (setPort s d x) e = getStaging s e ∧ getStagingBad (setPort s d x) e = getStagingBad s e ∧
    getPieces (setPort s d x) e = getPieces s e ∧ getSheet (setPort s d x) e = getSheet s e ∧
    getHregs (setPort s d x) e = getHregs s e ∧ getQregs (setPort s d x) e = getQregs s e ∧
    getBells (setPort s d x) e = getBells s e ∧ getForwards (setPort s d x) e = getForwards s e ∧
    getRelay (setPort s d x) e = getRelay s e ∧ getTables (setPort s d x) e = getTables s e ∧
    getPins (setPort s d x) e = getPins s e ∧ getTenRecs (setPort s d x) e = getTenRecs s e ∧
    getQueues (setPort s d x) e = getQueues s e ∧ getStk (setPort s d x) e = getStk s e ∧
    getCores (setPort s d x) e = getCores s e ∧ getMemu (setPort s d x) e = getMemu s e ∧ getDma (setPort s d x) e = getDma s e ∧
    getRet (setPort s d x) e = getRet s e ∧ getGen (setPort s d x) e = getGen s e ∧ getEas (setPort s d x) e = getEas s e ∧
    getGeo (setPort s d x) e = getGeo s e ∧ getLamp (setPort s d x) e = getLamp s e ∧ getTime (setPort s d x) e = getTime s e ∧
    getLog (setPort s d x) e = getLog s e ∧ getEnds (setPort s d x) e = getEnds s e ∧
    getCordRegs (setPort s d x) e = getCordRegs s e ∧ getOtp (setPort s d x) e = getOtp s e ∧
    getSec (setPort s d x) e = getSec s e ∧ getKiln (setPort s d x) e = getKiln s e ∧ getTap (setPort s d x) e = getTap s e :=
  ⟨rfl, rfl, rfl, rfl, rfl, rfl, rfl, rfl, rfl, rfl, rfl, rfl, rfl, rfl, rfl, rfl, rfl, rfl, rfl, rfl, rfl, rfl, rfl, rfl, rfl,
   rfl, rfl, rfl, rfl, rfl⟩

/-- `getPort` reads what `setPort` set. -/
@[simp] theorem getPort_setPort (s : State) (d : DieId) (x : HostPort) : getPort (setPort s d x) d = x :=
  qget_qset_same s.ports d x

/-- `setPort` leaves the other dies' parts. -/
@[simp] theorem getPort_setPort_other (s : State) (d : DieId) (x : HostPort) {e : DieId} (h : e ≠ d) :
    getPort (setPort s d x) e = getPort s e := qget_qset_other s.ports x h

/-- `setHregs` changes no other field. -/
@[simp] theorem setHregs_fields (s : State) (d : DieId) (x : HostRegs) :
    (setHregs s d x).pending = s.pending ∧ (setHregs s d x).now = s.now ∧ (setHregs s d x).freeCtr = s.freeCtr ∧
    (setHregs s d x).nextId = s.nextId ∧ (setHregs s d x).board = s.board ∧ (setHregs s d x).mem = s.mem ∧
    (setHregs s d x).poison = s.poison ∧ (setHregs s d x).staging = s.staging ∧ (setHregs s d x).stagingBad = s.stagingBad ∧
    (setHregs s d x).pieces = s.pieces ∧ (setHregs s d x).sheets = s.sheets ∧ (setHregs s d x).ports = s.ports ∧
    (setHregs s d x).qregs = s.qregs ∧ (setHregs s d x).doorbells = s.doorbells ∧ (setHregs s d x).forwards = s.forwards ∧
    (setHregs s d x).relays = s.relays ∧ (setHregs s d x).frozen = s.frozen ∧ (setHregs s d x).tables = s.tables ∧
    (setHregs s d x).pins = s.pins ∧ (setHregs s d x).resets = s.resets ∧ (setHregs s d x).tenRecords = s.tenRecords ∧
    (setHregs s d x).queues = s.queues ∧ (setHregs s d x).stokers = s.stokers ∧ (setHregs s d x).signals = s.signals ∧
    (setHregs s d x).watches = s.watches ∧
    (setHregs s d x).commits = s.commits ∧ (setHregs s d x).cores = s.cores ∧ (setHregs s d x).memu = s.memu ∧
    (setHregs s d x).dma = s.dma ∧ (setHregs s d x).ret = s.ret ∧ (setHregs s d x).gen = s.gen ∧ (setHregs s d x).eas = s.eas ∧
    (setHregs s d x).geo = s.geo ∧ (setHregs s d x).lamps = s.lamps ∧ (setHregs s d x).lampPkg = s.lampPkg ∧
    (setHregs s d x).times = s.times ∧ (setHregs s d x).pps = s.pps ∧ (setHregs s d x).logs = s.logs ∧
    (setHregs s d x).cords = s.cords ∧ (setHregs s d x).ends = s.ends ∧ (setHregs s d x).agree = s.agree ∧
    (setHregs s d x).cordRegs = s.cordRegs ∧ (setHregs s d x).otps = s.otps ∧ (setHregs s d x).secs = s.secs ∧
    (setHregs s d x).kilns = s.kilns ∧ (setHregs s d x).taps = s.taps :=
  ⟨rfl, rfl, rfl, rfl, rfl, rfl, rfl, rfl, rfl, rfl, rfl, rfl, rfl, rfl, rfl, rfl, rfl, rfl, rfl, rfl, rfl, rfl, rfl, rfl, rfl, rfl,
   rfl, rfl, rfl, rfl, rfl, rfl, rfl, rfl, rfl, rfl, rfl, rfl, rfl, rfl, rfl, rfl, rfl, rfl, rfl, rfl⟩

/-- `setHregs` changes no other part of a die. -/
@[simp] theorem setHregs_gets (s : State) (d : DieId) (x : HostRegs) (e : DieId) :
    getStaging (setHregs s d x) e = getStaging s e ∧ getStagingBad (setHregs s d x) e = getStagingBad s e ∧
    getPieces (setHregs s d x) e = getPieces s e ∧ getSheet (setHregs s d x) e = getSheet s e ∧
    getPort (setHregs s d x) e = getPort s e ∧ getQregs (setHregs s d x) e = getQregs s e ∧
    getBells (setHregs s d x) e = getBells s e ∧ getForwards (setHregs s d x) e = getForwards s e ∧
    getRelay (setHregs s d x) e = getRelay s e ∧ getTables (setHregs s d x) e = getTables s e ∧
    getPins (setHregs s d x) e = getPins s e ∧ getTenRecs (setHregs s d x) e = getTenRecs s e ∧
    getQueues (setHregs s d x) e = getQueues s e ∧ getStk (setHregs s d x) e = getStk s e ∧
    getCores (setHregs s d x) e = getCores s e ∧ getMemu (setHregs s d x) e = getMemu s e ∧
    getDma (setHregs s d x) e = getDma s e ∧ getRet (setHregs s d x) e = getRet s e ∧ getGen (setHregs s d x) e = getGen s e ∧
    getEas (setHregs s d x) e = getEas s e ∧ getGeo (setHregs s d x) e = getGeo s e ∧ getLamp (setHregs s d x) e = getLamp s e ∧
    getTime (setHregs s d x) e = getTime s e ∧ getLog (setHregs s d x) e = getLog s e ∧
    getEnds (setHregs s d x) e = getEnds s e ∧ getCordRegs (setHregs s d x) e = getCordRegs s e ∧
    getOtp (setHregs s d x) e = getOtp s e ∧ getSec (setHregs s d x) e = getSec s e ∧ getKiln (setHregs s d x) e = getKiln s e ∧
    getTap (setHregs s d x) e = getTap s e :=
  ⟨rfl, rfl, rfl, rfl, rfl, rfl, rfl, rfl, rfl, rfl, rfl, rfl, rfl, rfl, rfl, rfl, rfl, rfl, rfl, rfl, rfl, rfl, rfl, rfl, rfl,
   rfl, rfl, rfl, rfl, rfl⟩

/-- `getHregs` reads what `setHregs` set. -/
@[simp] theorem getHregs_setHregs (s : State) (d : DieId) (x : HostRegs) : getHregs (setHregs s d x) d = x :=
  qget_qset_same s.hregs d x

/-- `setHregs` leaves the other dies' parts. -/
@[simp] theorem getHregs_setHregs_other (s : State) (d : DieId) (x : HostRegs) {e : DieId} (h : e ≠ d) :
    getHregs (setHregs s d x) e = getHregs s e := qget_qset_other s.hregs x h

/-- `setQregs` changes no other field. -/
@[simp] theorem setQregs_fields (s : State) (d : DieId) (x : QcpRegs) :
    (setQregs s d x).pending = s.pending ∧ (setQregs s d x).now = s.now ∧ (setQregs s d x).freeCtr = s.freeCtr ∧
    (setQregs s d x).nextId = s.nextId ∧ (setQregs s d x).board = s.board ∧ (setQregs s d x).mem = s.mem ∧
    (setQregs s d x).poison = s.poison ∧ (setQregs s d x).staging = s.staging ∧ (setQregs s d x).stagingBad = s.stagingBad ∧
    (setQregs s d x).pieces = s.pieces ∧ (setQregs s d x).sheets = s.sheets ∧ (setQregs s d x).ports = s.ports ∧
    (setQregs s d x).hregs = s.hregs ∧ (setQregs s d x).doorbells = s.doorbells ∧ (setQregs s d x).forwards = s.forwards ∧
    (setQregs s d x).relays = s.relays ∧ (setQregs s d x).frozen = s.frozen ∧ (setQregs s d x).tables = s.tables ∧
    (setQregs s d x).pins = s.pins ∧ (setQregs s d x).resets = s.resets ∧ (setQregs s d x).tenRecords = s.tenRecords ∧
    (setQregs s d x).queues = s.queues ∧ (setQregs s d x).stokers = s.stokers ∧ (setQregs s d x).signals = s.signals ∧
    (setQregs s d x).watches = s.watches ∧
    (setQregs s d x).commits = s.commits ∧ (setQregs s d x).cores = s.cores ∧ (setQregs s d x).memu = s.memu ∧
    (setQregs s d x).dma = s.dma ∧ (setQregs s d x).ret = s.ret ∧ (setQregs s d x).gen = s.gen ∧ (setQregs s d x).eas = s.eas ∧
    (setQregs s d x).geo = s.geo ∧ (setQregs s d x).lamps = s.lamps ∧ (setQregs s d x).lampPkg = s.lampPkg ∧
    (setQregs s d x).times = s.times ∧ (setQregs s d x).pps = s.pps ∧ (setQregs s d x).logs = s.logs ∧
    (setQregs s d x).cords = s.cords ∧ (setQregs s d x).ends = s.ends ∧ (setQregs s d x).agree = s.agree ∧
    (setQregs s d x).cordRegs = s.cordRegs ∧ (setQregs s d x).otps = s.otps ∧ (setQregs s d x).secs = s.secs ∧
    (setQregs s d x).kilns = s.kilns ∧ (setQregs s d x).taps = s.taps :=
  ⟨rfl, rfl, rfl, rfl, rfl, rfl, rfl, rfl, rfl, rfl, rfl, rfl, rfl, rfl, rfl, rfl, rfl, rfl, rfl, rfl, rfl, rfl, rfl, rfl, rfl, rfl,
   rfl, rfl, rfl, rfl, rfl, rfl, rfl, rfl, rfl, rfl, rfl, rfl, rfl, rfl, rfl, rfl, rfl, rfl, rfl, rfl⟩

/-- `setQregs` changes no other part of a die. -/
@[simp] theorem setQregs_gets (s : State) (d : DieId) (x : QcpRegs) (e : DieId) :
    getStaging (setQregs s d x) e = getStaging s e ∧ getStagingBad (setQregs s d x) e = getStagingBad s e ∧
    getPieces (setQregs s d x) e = getPieces s e ∧ getSheet (setQregs s d x) e = getSheet s e ∧
    getPort (setQregs s d x) e = getPort s e ∧ getHregs (setQregs s d x) e = getHregs s e ∧
    getBells (setQregs s d x) e = getBells s e ∧ getForwards (setQregs s d x) e = getForwards s e ∧
    getRelay (setQregs s d x) e = getRelay s e ∧ getTables (setQregs s d x) e = getTables s e ∧
    getPins (setQregs s d x) e = getPins s e ∧ getTenRecs (setQregs s d x) e = getTenRecs s e ∧
    getQueues (setQregs s d x) e = getQueues s e ∧ getStk (setQregs s d x) e = getStk s e ∧
    getCores (setQregs s d x) e = getCores s e ∧ getMemu (setQregs s d x) e = getMemu s e ∧
    getDma (setQregs s d x) e = getDma s e ∧ getRet (setQregs s d x) e = getRet s e ∧ getGen (setQregs s d x) e = getGen s e ∧
    getEas (setQregs s d x) e = getEas s e ∧ getGeo (setQregs s d x) e = getGeo s e ∧ getLamp (setQregs s d x) e = getLamp s e ∧
    getTime (setQregs s d x) e = getTime s e ∧ getLog (setQregs s d x) e = getLog s e ∧
    getEnds (setQregs s d x) e = getEnds s e ∧ getCordRegs (setQregs s d x) e = getCordRegs s e ∧
    getOtp (setQregs s d x) e = getOtp s e ∧ getSec (setQregs s d x) e = getSec s e ∧ getKiln (setQregs s d x) e = getKiln s e ∧
    getTap (setQregs s d x) e = getTap s e :=
  ⟨rfl, rfl, rfl, rfl, rfl, rfl, rfl, rfl, rfl, rfl, rfl, rfl, rfl, rfl, rfl, rfl, rfl, rfl, rfl, rfl, rfl, rfl, rfl, rfl, rfl,
   rfl, rfl, rfl, rfl, rfl⟩

/-- `getQregs` reads what `setQregs` set. -/
@[simp] theorem getQregs_setQregs (s : State) (d : DieId) (x : QcpRegs) : getQregs (setQregs s d x) d = x :=
  qget_qset_same s.qregs d x

/-- `setQregs` leaves the other dies' parts. -/
@[simp] theorem getQregs_setQregs_other (s : State) (d : DieId) (x : QcpRegs) {e : DieId} (h : e ≠ d) :
    getQregs (setQregs s d x) e = getQregs s e := qget_qset_other s.qregs x h

/-- `setBells` changes no other field. -/
@[simp] theorem setBells_fields (s : State) (d : DieId) (x : Map W64) :
    (setBells s d x).pending = s.pending ∧ (setBells s d x).now = s.now ∧ (setBells s d x).freeCtr = s.freeCtr ∧
    (setBells s d x).nextId = s.nextId ∧ (setBells s d x).board = s.board ∧ (setBells s d x).mem = s.mem ∧
    (setBells s d x).poison = s.poison ∧ (setBells s d x).staging = s.staging ∧ (setBells s d x).stagingBad = s.stagingBad ∧
    (setBells s d x).pieces = s.pieces ∧ (setBells s d x).sheets = s.sheets ∧ (setBells s d x).ports = s.ports ∧
    (setBells s d x).hregs = s.hregs ∧ (setBells s d x).qregs = s.qregs ∧ (setBells s d x).forwards = s.forwards ∧
    (setBells s d x).relays = s.relays ∧ (setBells s d x).frozen = s.frozen ∧ (setBells s d x).tables = s.tables ∧
    (setBells s d x).pins = s.pins ∧ (setBells s d x).resets = s.resets ∧ (setBells s d x).tenRecords = s.tenRecords ∧
    (setBells s d x).queues = s.queues ∧ (setBells s d x).stokers = s.stokers ∧ (setBells s d x).signals = s.signals ∧
    (setBells s d x).watches = s.watches ∧
    (setBells s d x).commits = s.commits ∧ (setBells s d x).cores = s.cores ∧ (setBells s d x).memu = s.memu ∧
    (setBells s d x).dma = s.dma ∧ (setBells s d x).ret = s.ret ∧ (setBells s d x).gen = s.gen ∧ (setBells s d x).eas = s.eas ∧
    (setBells s d x).geo = s.geo ∧ (setBells s d x).lamps = s.lamps ∧ (setBells s d x).lampPkg = s.lampPkg ∧
    (setBells s d x).times = s.times ∧ (setBells s d x).pps = s.pps ∧ (setBells s d x).logs = s.logs ∧
    (setBells s d x).cords = s.cords ∧ (setBells s d x).ends = s.ends ∧ (setBells s d x).agree = s.agree ∧
    (setBells s d x).cordRegs = s.cordRegs ∧ (setBells s d x).otps = s.otps ∧ (setBells s d x).secs = s.secs ∧
    (setBells s d x).kilns = s.kilns ∧ (setBells s d x).taps = s.taps :=
  ⟨rfl, rfl, rfl, rfl, rfl, rfl, rfl, rfl, rfl, rfl, rfl, rfl, rfl, rfl, rfl, rfl, rfl, rfl, rfl, rfl, rfl, rfl, rfl, rfl, rfl, rfl,
   rfl, rfl, rfl, rfl, rfl, rfl, rfl, rfl, rfl, rfl, rfl, rfl, rfl, rfl, rfl, rfl, rfl, rfl, rfl, rfl⟩

/-- `setBells` changes no other part of a die. -/
@[simp] theorem setBells_gets (s : State) (d : DieId) (x : Map W64) (e : DieId) :
    getStaging (setBells s d x) e = getStaging s e ∧ getStagingBad (setBells s d x) e = getStagingBad s e ∧
    getPieces (setBells s d x) e = getPieces s e ∧ getSheet (setBells s d x) e = getSheet s e ∧
    getPort (setBells s d x) e = getPort s e ∧ getHregs (setBells s d x) e = getHregs s e ∧
    getQregs (setBells s d x) e = getQregs s e ∧ getForwards (setBells s d x) e = getForwards s e ∧
    getRelay (setBells s d x) e = getRelay s e ∧ getTables (setBells s d x) e = getTables s e ∧
    getPins (setBells s d x) e = getPins s e ∧ getTenRecs (setBells s d x) e = getTenRecs s e ∧
    getQueues (setBells s d x) e = getQueues s e ∧ getStk (setBells s d x) e = getStk s e ∧
    getCores (setBells s d x) e = getCores s e ∧ getMemu (setBells s d x) e = getMemu s e ∧
    getDma (setBells s d x) e = getDma s e ∧ getRet (setBells s d x) e = getRet s e ∧ getGen (setBells s d x) e = getGen s e ∧
    getEas (setBells s d x) e = getEas s e ∧ getGeo (setBells s d x) e = getGeo s e ∧ getLamp (setBells s d x) e = getLamp s e ∧
    getTime (setBells s d x) e = getTime s e ∧ getLog (setBells s d x) e = getLog s e ∧
    getEnds (setBells s d x) e = getEnds s e ∧ getCordRegs (setBells s d x) e = getCordRegs s e ∧
    getOtp (setBells s d x) e = getOtp s e ∧ getSec (setBells s d x) e = getSec s e ∧ getKiln (setBells s d x) e = getKiln s e ∧
    getTap (setBells s d x) e = getTap s e :=
  ⟨rfl, rfl, rfl, rfl, rfl, rfl, rfl, rfl, rfl, rfl, rfl, rfl, rfl, rfl, rfl, rfl, rfl, rfl, rfl, rfl, rfl, rfl, rfl, rfl, rfl,
   rfl, rfl, rfl, rfl, rfl⟩

/-- `getBells` reads what `setBells` set. -/
@[simp] theorem getBells_setBells (s : State) (d : DieId) (x : Map W64) : getBells (setBells s d x) d = x :=
  qget_qset_same s.doorbells d x

/-- `setBells` leaves the other dies' parts. -/
@[simp] theorem getBells_setBells_other (s : State) (d : DieId) (x : Map W64) {e : DieId} (h : e ≠ d) :
    getBells (setBells s d x) e = getBells s e := qget_qset_other s.doorbells x h

/-- `setForwards` changes no other field. -/
@[simp] theorem setForwards_fields (s : State) (d : DieId) (x : List Forward) :
    (setForwards s d x).pending = s.pending ∧ (setForwards s d x).now = s.now ∧ (setForwards s d x).freeCtr = s.freeCtr ∧
    (setForwards s d x).nextId = s.nextId ∧ (setForwards s d x).board = s.board ∧ (setForwards s d x).mem = s.mem ∧
    (setForwards s d x).poison = s.poison ∧ (setForwards s d x).staging = s.staging ∧
    (setForwards s d x).stagingBad = s.stagingBad ∧ (setForwards s d x).pieces = s.pieces ∧
    (setForwards s d x).sheets = s.sheets ∧ (setForwards s d x).ports = s.ports ∧ (setForwards s d x).hregs = s.hregs ∧
    (setForwards s d x).qregs = s.qregs ∧ (setForwards s d x).doorbells = s.doorbells ∧ (setForwards s d x).relays = s.relays ∧
    (setForwards s d x).frozen = s.frozen ∧ (setForwards s d x).tables = s.tables ∧ (setForwards s d x).pins = s.pins ∧
    (setForwards s d x).resets = s.resets ∧ (setForwards s d x).tenRecords = s.tenRecords ∧
    (setForwards s d x).queues = s.queues ∧ (setForwards s d x).stokers = s.stokers ∧ (setForwards s d x).signals = s.signals ∧
    (setForwards s d x).watches = s.watches ∧
    (setForwards s d x).commits = s.commits ∧ (setForwards s d x).cores = s.cores ∧ (setForwards s d x).memu = s.memu ∧
    (setForwards s d x).dma = s.dma ∧ (setForwards s d x).ret = s.ret ∧ (setForwards s d x).gen = s.gen ∧
    (setForwards s d x).eas = s.eas ∧ (setForwards s d x).geo = s.geo ∧ (setForwards s d x).lamps = s.lamps ∧
    (setForwards s d x).lampPkg = s.lampPkg ∧ (setForwards s d x).times = s.times ∧ (setForwards s d x).pps = s.pps ∧
    (setForwards s d x).logs = s.logs ∧ (setForwards s d x).cords = s.cords ∧ (setForwards s d x).ends = s.ends ∧
    (setForwards s d x).agree = s.agree ∧ (setForwards s d x).cordRegs = s.cordRegs ∧ (setForwards s d x).otps = s.otps ∧
    (setForwards s d x).secs = s.secs ∧ (setForwards s d x).kilns = s.kilns ∧ (setForwards s d x).taps = s.taps :=
  ⟨rfl, rfl, rfl, rfl, rfl, rfl, rfl, rfl, rfl, rfl, rfl, rfl, rfl, rfl, rfl, rfl, rfl, rfl, rfl, rfl, rfl, rfl, rfl, rfl, rfl, rfl,
   rfl, rfl, rfl, rfl, rfl, rfl, rfl, rfl, rfl, rfl, rfl, rfl, rfl, rfl, rfl, rfl, rfl, rfl, rfl, rfl⟩

/-- `setForwards` changes no other part of a die. -/
@[simp] theorem setForwards_gets (s : State) (d : DieId) (x : List Forward) (e : DieId) :
    getStaging (setForwards s d x) e = getStaging s e ∧ getStagingBad (setForwards s d x) e = getStagingBad s e ∧
    getPieces (setForwards s d x) e = getPieces s e ∧ getSheet (setForwards s d x) e = getSheet s e ∧
    getPort (setForwards s d x) e = getPort s e ∧ getHregs (setForwards s d x) e = getHregs s e ∧
    getQregs (setForwards s d x) e = getQregs s e ∧ getBells (setForwards s d x) e = getBells s e ∧
    getRelay (setForwards s d x) e = getRelay s e ∧ getTables (setForwards s d x) e = getTables s e ∧
    getPins (setForwards s d x) e = getPins s e ∧ getTenRecs (setForwards s d x) e = getTenRecs s e ∧
    getQueues (setForwards s d x) e = getQueues s e ∧ getStk (setForwards s d x) e = getStk s e ∧
    getCores (setForwards s d x) e = getCores s e ∧ getMemu (setForwards s d x) e = getMemu s e ∧
    getDma (setForwards s d x) e = getDma s e ∧ getRet (setForwards s d x) e = getRet s e ∧
    getGen (setForwards s d x) e = getGen s e ∧ getEas (setForwards s d x) e = getEas s e ∧
    getGeo (setForwards s d x) e = getGeo s e ∧ getLamp (setForwards s d x) e = getLamp s e ∧
    getTime (setForwards s d x) e = getTime s e ∧ getLog (setForwards s d x) e = getLog s e ∧
    getEnds (setForwards s d x) e = getEnds s e ∧ getCordRegs (setForwards s d x) e = getCordRegs s e ∧
    getOtp (setForwards s d x) e = getOtp s e ∧ getSec (setForwards s d x) e = getSec s e ∧
    getKiln (setForwards s d x) e = getKiln s e ∧ getTap (setForwards s d x) e = getTap s e :=
  ⟨rfl, rfl, rfl, rfl, rfl, rfl, rfl, rfl, rfl, rfl, rfl, rfl, rfl, rfl, rfl, rfl, rfl, rfl, rfl, rfl, rfl, rfl, rfl, rfl, rfl,
   rfl, rfl, rfl, rfl, rfl⟩

/-- `getForwards` reads what `setForwards` set. -/
@[simp] theorem getForwards_setForwards (s : State) (d : DieId) (x : List Forward) : getForwards (setForwards s d x) d = x :=
  qget_qset_same s.forwards d x

/-- `setForwards` leaves the other dies' parts. -/
@[simp] theorem getForwards_setForwards_other (s : State) (d : DieId) (x : List Forward) {e : DieId} (h : e ≠ d) :
    getForwards (setForwards s d x) e = getForwards s e := qget_qset_other s.forwards x h

/-- `setRelay` changes no other field. -/
@[simp] theorem setRelay_fields (s : State) (d : DieId) (x : RelayCopy) :
    (setRelay s d x).pending = s.pending ∧ (setRelay s d x).now = s.now ∧ (setRelay s d x).freeCtr = s.freeCtr ∧
    (setRelay s d x).nextId = s.nextId ∧ (setRelay s d x).board = s.board ∧ (setRelay s d x).mem = s.mem ∧
    (setRelay s d x).poison = s.poison ∧ (setRelay s d x).staging = s.staging ∧ (setRelay s d x).stagingBad = s.stagingBad ∧
    (setRelay s d x).pieces = s.pieces ∧ (setRelay s d x).sheets = s.sheets ∧ (setRelay s d x).ports = s.ports ∧
    (setRelay s d x).hregs = s.hregs ∧ (setRelay s d x).qregs = s.qregs ∧ (setRelay s d x).doorbells = s.doorbells ∧
    (setRelay s d x).forwards = s.forwards ∧ (setRelay s d x).frozen = s.frozen ∧ (setRelay s d x).tables = s.tables ∧
    (setRelay s d x).pins = s.pins ∧ (setRelay s d x).resets = s.resets ∧ (setRelay s d x).tenRecords = s.tenRecords ∧
    (setRelay s d x).queues = s.queues ∧ (setRelay s d x).stokers = s.stokers ∧ (setRelay s d x).signals = s.signals ∧
    (setRelay s d x).watches = s.watches ∧
    (setRelay s d x).commits = s.commits ∧ (setRelay s d x).cores = s.cores ∧ (setRelay s d x).memu = s.memu ∧
    (setRelay s d x).dma = s.dma ∧ (setRelay s d x).ret = s.ret ∧ (setRelay s d x).gen = s.gen ∧ (setRelay s d x).eas = s.eas ∧
    (setRelay s d x).geo = s.geo ∧ (setRelay s d x).lamps = s.lamps ∧ (setRelay s d x).lampPkg = s.lampPkg ∧
    (setRelay s d x).times = s.times ∧ (setRelay s d x).pps = s.pps ∧ (setRelay s d x).logs = s.logs ∧
    (setRelay s d x).cords = s.cords ∧ (setRelay s d x).ends = s.ends ∧ (setRelay s d x).agree = s.agree ∧
    (setRelay s d x).cordRegs = s.cordRegs ∧ (setRelay s d x).otps = s.otps ∧ (setRelay s d x).secs = s.secs ∧
    (setRelay s d x).kilns = s.kilns ∧ (setRelay s d x).taps = s.taps :=
  ⟨rfl, rfl, rfl, rfl, rfl, rfl, rfl, rfl, rfl, rfl, rfl, rfl, rfl, rfl, rfl, rfl, rfl, rfl, rfl, rfl, rfl, rfl, rfl, rfl, rfl, rfl,
   rfl, rfl, rfl, rfl, rfl, rfl, rfl, rfl, rfl, rfl, rfl, rfl, rfl, rfl, rfl, rfl, rfl, rfl, rfl, rfl⟩

/-- `setRelay` changes no other part of a die. -/
@[simp] theorem setRelay_gets (s : State) (d : DieId) (x : RelayCopy) (e : DieId) :
    getStaging (setRelay s d x) e = getStaging s e ∧ getStagingBad (setRelay s d x) e = getStagingBad s e ∧
    getPieces (setRelay s d x) e = getPieces s e ∧ getSheet (setRelay s d x) e = getSheet s e ∧
    getPort (setRelay s d x) e = getPort s e ∧ getHregs (setRelay s d x) e = getHregs s e ∧
    getQregs (setRelay s d x) e = getQregs s e ∧ getBells (setRelay s d x) e = getBells s e ∧
    getForwards (setRelay s d x) e = getForwards s e ∧ getTables (setRelay s d x) e = getTables s e ∧
    getPins (setRelay s d x) e = getPins s e ∧ getTenRecs (setRelay s d x) e = getTenRecs s e ∧
    getQueues (setRelay s d x) e = getQueues s e ∧ getStk (setRelay s d x) e = getStk s e ∧
    getCores (setRelay s d x) e = getCores s e ∧ getMemu (setRelay s d x) e = getMemu s e ∧
    getDma (setRelay s d x) e = getDma s e ∧ getRet (setRelay s d x) e = getRet s e ∧ getGen (setRelay s d x) e = getGen s e ∧
    getEas (setRelay s d x) e = getEas s e ∧ getGeo (setRelay s d x) e = getGeo s e ∧ getLamp (setRelay s d x) e = getLamp s e ∧
    getTime (setRelay s d x) e = getTime s e ∧ getLog (setRelay s d x) e = getLog s e ∧
    getEnds (setRelay s d x) e = getEnds s e ∧ getCordRegs (setRelay s d x) e = getCordRegs s e ∧
    getOtp (setRelay s d x) e = getOtp s e ∧ getSec (setRelay s d x) e = getSec s e ∧ getKiln (setRelay s d x) e = getKiln s e ∧
    getTap (setRelay s d x) e = getTap s e :=
  ⟨rfl, rfl, rfl, rfl, rfl, rfl, rfl, rfl, rfl, rfl, rfl, rfl, rfl, rfl, rfl, rfl, rfl, rfl, rfl, rfl, rfl, rfl, rfl, rfl, rfl,
   rfl, rfl, rfl, rfl, rfl⟩

/-- `getRelay` reads what `setRelay` set. -/
@[simp] theorem getRelay_setRelay (s : State) (d : DieId) (x : RelayCopy) : getRelay (setRelay s d x) d = x :=
  qget_qset_same s.relays d x

/-- `setRelay` leaves the other dies' parts. -/
@[simp] theorem getRelay_setRelay_other (s : State) (d : DieId) (x : RelayCopy) {e : DieId} (h : e ≠ d) :
    getRelay (setRelay s d x) e = getRelay s e := qget_qset_other s.relays x h

/-- `setTables` changes no other field. -/
@[simp] theorem setTables_fields (s : State) (d : DieId) (x : Tables) :
    (setTables s d x).pending = s.pending ∧ (setTables s d x).now = s.now ∧ (setTables s d x).freeCtr = s.freeCtr ∧
    (setTables s d x).nextId = s.nextId ∧ (setTables s d x).board = s.board ∧ (setTables s d x).mem = s.mem ∧
    (setTables s d x).poison = s.poison ∧ (setTables s d x).staging = s.staging ∧ (setTables s d x).stagingBad = s.stagingBad ∧
    (setTables s d x).pieces = s.pieces ∧ (setTables s d x).sheets = s.sheets ∧ (setTables s d x).ports = s.ports ∧
    (setTables s d x).hregs = s.hregs ∧ (setTables s d x).qregs = s.qregs ∧ (setTables s d x).doorbells = s.doorbells ∧
    (setTables s d x).forwards = s.forwards ∧ (setTables s d x).relays = s.relays ∧ (setTables s d x).frozen = s.frozen ∧
    (setTables s d x).pins = s.pins ∧ (setTables s d x).resets = s.resets ∧ (setTables s d x).tenRecords = s.tenRecords ∧
    (setTables s d x).queues = s.queues ∧ (setTables s d x).stokers = s.stokers ∧ (setTables s d x).signals = s.signals ∧
    (setTables s d x).watches = s.watches ∧
    (setTables s d x).commits = s.commits ∧ (setTables s d x).cores = s.cores ∧ (setTables s d x).memu = s.memu ∧
    (setTables s d x).dma = s.dma ∧ (setTables s d x).ret = s.ret ∧ (setTables s d x).gen = s.gen ∧
    (setTables s d x).eas = s.eas ∧ (setTables s d x).geo = s.geo ∧ (setTables s d x).lamps = s.lamps ∧
    (setTables s d x).lampPkg = s.lampPkg ∧ (setTables s d x).times = s.times ∧ (setTables s d x).pps = s.pps ∧
    (setTables s d x).logs = s.logs ∧ (setTables s d x).cords = s.cords ∧ (setTables s d x).ends = s.ends ∧
    (setTables s d x).agree = s.agree ∧ (setTables s d x).cordRegs = s.cordRegs ∧ (setTables s d x).otps = s.otps ∧
    (setTables s d x).secs = s.secs ∧ (setTables s d x).kilns = s.kilns ∧ (setTables s d x).taps = s.taps :=
  ⟨rfl, rfl, rfl, rfl, rfl, rfl, rfl, rfl, rfl, rfl, rfl, rfl, rfl, rfl, rfl, rfl, rfl, rfl, rfl, rfl, rfl, rfl, rfl, rfl, rfl, rfl,
   rfl, rfl, rfl, rfl, rfl, rfl, rfl, rfl, rfl, rfl, rfl, rfl, rfl, rfl, rfl, rfl, rfl, rfl, rfl, rfl⟩

/-- `setTables` changes no other part of a die. -/
@[simp] theorem setTables_gets (s : State) (d : DieId) (x : Tables) (e : DieId) :
    getStaging (setTables s d x) e = getStaging s e ∧ getStagingBad (setTables s d x) e = getStagingBad s e ∧
    getPieces (setTables s d x) e = getPieces s e ∧ getSheet (setTables s d x) e = getSheet s e ∧
    getPort (setTables s d x) e = getPort s e ∧ getHregs (setTables s d x) e = getHregs s e ∧
    getQregs (setTables s d x) e = getQregs s e ∧ getBells (setTables s d x) e = getBells s e ∧
    getForwards (setTables s d x) e = getForwards s e ∧ getRelay (setTables s d x) e = getRelay s e ∧
    getPins (setTables s d x) e = getPins s e ∧ getTenRecs (setTables s d x) e = getTenRecs s e ∧
    getQueues (setTables s d x) e = getQueues s e ∧ getStk (setTables s d x) e = getStk s e ∧
    getCores (setTables s d x) e = getCores s e ∧ getMemu (setTables s d x) e = getMemu s e ∧
    getDma (setTables s d x) e = getDma s e ∧ getRet (setTables s d x) e = getRet s e ∧ getGen (setTables s d x) e = getGen s e ∧
    getEas (setTables s d x) e = getEas s e ∧ getGeo (setTables s d x) e = getGeo s e ∧
    getLamp (setTables s d x) e = getLamp s e ∧ getTime (setTables s d x) e = getTime s e ∧
    getLog (setTables s d x) e = getLog s e ∧ getEnds (setTables s d x) e = getEnds s e ∧
    getCordRegs (setTables s d x) e = getCordRegs s e ∧ getOtp (setTables s d x) e = getOtp s e ∧
    getSec (setTables s d x) e = getSec s e ∧ getKiln (setTables s d x) e = getKiln s e ∧ getTap (setTables s d x) e = getTap s e :=
  ⟨rfl, rfl, rfl, rfl, rfl, rfl, rfl, rfl, rfl, rfl, rfl, rfl, rfl, rfl, rfl, rfl, rfl, rfl, rfl, rfl, rfl, rfl, rfl, rfl, rfl,
   rfl, rfl, rfl, rfl, rfl⟩

/-- `getTables` reads what `setTables` set. -/
@[simp] theorem getTables_setTables (s : State) (d : DieId) (x : Tables) : getTables (setTables s d x) d = x :=
  qget_qset_same s.tables d x

/-- `setTables` leaves the other dies' parts. -/
@[simp] theorem getTables_setTables_other (s : State) (d : DieId) (x : Tables) {e : DieId} (h : e ≠ d) :
    getTables (setTables s d x) e = getTables s e := qget_qset_other s.tables x h

/-- `setPins` changes no other field. -/
@[simp] theorem setPins_fields (s : State) (d : DieId) (x : Map Nat) :
    (setPins s d x).pending = s.pending ∧ (setPins s d x).now = s.now ∧ (setPins s d x).freeCtr = s.freeCtr ∧
    (setPins s d x).nextId = s.nextId ∧ (setPins s d x).board = s.board ∧ (setPins s d x).mem = s.mem ∧
    (setPins s d x).poison = s.poison ∧ (setPins s d x).staging = s.staging ∧ (setPins s d x).stagingBad = s.stagingBad ∧
    (setPins s d x).pieces = s.pieces ∧ (setPins s d x).sheets = s.sheets ∧ (setPins s d x).ports = s.ports ∧
    (setPins s d x).hregs = s.hregs ∧ (setPins s d x).qregs = s.qregs ∧ (setPins s d x).doorbells = s.doorbells ∧
    (setPins s d x).forwards = s.forwards ∧ (setPins s d x).relays = s.relays ∧ (setPins s d x).frozen = s.frozen ∧
    (setPins s d x).tables = s.tables ∧ (setPins s d x).resets = s.resets ∧ (setPins s d x).tenRecords = s.tenRecords ∧
    (setPins s d x).queues = s.queues ∧ (setPins s d x).stokers = s.stokers ∧ (setPins s d x).signals = s.signals ∧
    (setPins s d x).watches = s.watches ∧
    (setPins s d x).commits = s.commits ∧ (setPins s d x).cores = s.cores ∧ (setPins s d x).memu = s.memu ∧
    (setPins s d x).dma = s.dma ∧ (setPins s d x).ret = s.ret ∧ (setPins s d x).gen = s.gen ∧ (setPins s d x).eas = s.eas ∧
    (setPins s d x).geo = s.geo ∧ (setPins s d x).lamps = s.lamps ∧ (setPins s d x).lampPkg = s.lampPkg ∧
    (setPins s d x).times = s.times ∧ (setPins s d x).pps = s.pps ∧ (setPins s d x).logs = s.logs ∧
    (setPins s d x).cords = s.cords ∧ (setPins s d x).ends = s.ends ∧ (setPins s d x).agree = s.agree ∧
    (setPins s d x).cordRegs = s.cordRegs ∧ (setPins s d x).otps = s.otps ∧ (setPins s d x).secs = s.secs ∧
    (setPins s d x).kilns = s.kilns ∧ (setPins s d x).taps = s.taps :=
  ⟨rfl, rfl, rfl, rfl, rfl, rfl, rfl, rfl, rfl, rfl, rfl, rfl, rfl, rfl, rfl, rfl, rfl, rfl, rfl, rfl, rfl, rfl, rfl, rfl, rfl, rfl,
   rfl, rfl, rfl, rfl, rfl, rfl, rfl, rfl, rfl, rfl, rfl, rfl, rfl, rfl, rfl, rfl, rfl, rfl, rfl, rfl⟩

/-- `setPins` changes no other part of a die. -/
@[simp] theorem setPins_gets (s : State) (d : DieId) (x : Map Nat) (e : DieId) :
    getStaging (setPins s d x) e = getStaging s e ∧ getStagingBad (setPins s d x) e = getStagingBad s e ∧
    getPieces (setPins s d x) e = getPieces s e ∧ getSheet (setPins s d x) e = getSheet s e ∧
    getPort (setPins s d x) e = getPort s e ∧ getHregs (setPins s d x) e = getHregs s e ∧
    getQregs (setPins s d x) e = getQregs s e ∧ getBells (setPins s d x) e = getBells s e ∧
    getForwards (setPins s d x) e = getForwards s e ∧ getRelay (setPins s d x) e = getRelay s e ∧
    getTables (setPins s d x) e = getTables s e ∧ getTenRecs (setPins s d x) e = getTenRecs s e ∧
    getQueues (setPins s d x) e = getQueues s e ∧ getStk (setPins s d x) e = getStk s e ∧
    getCores (setPins s d x) e = getCores s e ∧ getMemu (setPins s d x) e = getMemu s e ∧ getDma (setPins s d x) e = getDma s e ∧
    getRet (setPins s d x) e = getRet s e ∧ getGen (setPins s d x) e = getGen s e ∧ getEas (setPins s d x) e = getEas s e ∧
    getGeo (setPins s d x) e = getGeo s e ∧ getLamp (setPins s d x) e = getLamp s e ∧ getTime (setPins s d x) e = getTime s e ∧
    getLog (setPins s d x) e = getLog s e ∧ getEnds (setPins s d x) e = getEnds s e ∧
    getCordRegs (setPins s d x) e = getCordRegs s e ∧ getOtp (setPins s d x) e = getOtp s e ∧
    getSec (setPins s d x) e = getSec s e ∧ getKiln (setPins s d x) e = getKiln s e ∧ getTap (setPins s d x) e = getTap s e :=
  ⟨rfl, rfl, rfl, rfl, rfl, rfl, rfl, rfl, rfl, rfl, rfl, rfl, rfl, rfl, rfl, rfl, rfl, rfl, rfl, rfl, rfl, rfl, rfl, rfl, rfl,
   rfl, rfl, rfl, rfl, rfl⟩

/-- `getPins` reads what `setPins` set. -/
@[simp] theorem getPins_setPins (s : State) (d : DieId) (x : Map Nat) : getPins (setPins s d x) d = x :=
  qget_qset_same s.pins d x

/-- `setPins` leaves the other dies' parts. -/
@[simp] theorem getPins_setPins_other (s : State) (d : DieId) (x : Map Nat) {e : DieId} (h : e ≠ d) :
    getPins (setPins s d x) e = getPins s e := qget_qset_other s.pins x h

/-- `setTenRecs` changes no other field. -/
@[simp] theorem setTenRecs_fields (s : State) (d : DieId) (x : Map TenRecord) :
    (setTenRecs s d x).pending = s.pending ∧ (setTenRecs s d x).now = s.now ∧ (setTenRecs s d x).freeCtr = s.freeCtr ∧
    (setTenRecs s d x).nextId = s.nextId ∧ (setTenRecs s d x).board = s.board ∧ (setTenRecs s d x).mem = s.mem ∧
    (setTenRecs s d x).poison = s.poison ∧ (setTenRecs s d x).staging = s.staging ∧
    (setTenRecs s d x).stagingBad = s.stagingBad ∧ (setTenRecs s d x).pieces = s.pieces ∧ (setTenRecs s d x).sheets = s.sheets ∧
    (setTenRecs s d x).ports = s.ports ∧ (setTenRecs s d x).hregs = s.hregs ∧ (setTenRecs s d x).qregs = s.qregs ∧
    (setTenRecs s d x).doorbells = s.doorbells ∧ (setTenRecs s d x).forwards = s.forwards ∧
    (setTenRecs s d x).relays = s.relays ∧ (setTenRecs s d x).frozen = s.frozen ∧ (setTenRecs s d x).tables = s.tables ∧
    (setTenRecs s d x).pins = s.pins ∧ (setTenRecs s d x).resets = s.resets ∧ (setTenRecs s d x).queues = s.queues ∧
    (setTenRecs s d x).stokers = s.stokers ∧ (setTenRecs s d x).signals = s.signals ∧ (setTenRecs s d x).watches = s.watches ∧ (setTenRecs s d x).commits = s.commits ∧
    (setTenRecs s d x).cores = s.cores ∧ (setTenRecs s d x).memu = s.memu ∧ (setTenRecs s d x).dma = s.dma ∧
    (setTenRecs s d x).ret = s.ret ∧ (setTenRecs s d x).gen = s.gen ∧ (setTenRecs s d x).eas = s.eas ∧
    (setTenRecs s d x).geo = s.geo ∧ (setTenRecs s d x).lamps = s.lamps ∧ (setTenRecs s d x).lampPkg = s.lampPkg ∧
    (setTenRecs s d x).times = s.times ∧ (setTenRecs s d x).pps = s.pps ∧ (setTenRecs s d x).logs = s.logs ∧
    (setTenRecs s d x).cords = s.cords ∧ (setTenRecs s d x).ends = s.ends ∧ (setTenRecs s d x).agree = s.agree ∧
    (setTenRecs s d x).cordRegs = s.cordRegs ∧ (setTenRecs s d x).otps = s.otps ∧ (setTenRecs s d x).secs = s.secs ∧
    (setTenRecs s d x).kilns = s.kilns ∧ (setTenRecs s d x).taps = s.taps :=
  ⟨rfl, rfl, rfl, rfl, rfl, rfl, rfl, rfl, rfl, rfl, rfl, rfl, rfl, rfl, rfl, rfl, rfl, rfl, rfl, rfl, rfl, rfl, rfl, rfl, rfl, rfl,
   rfl, rfl, rfl, rfl, rfl, rfl, rfl, rfl, rfl, rfl, rfl, rfl, rfl, rfl, rfl, rfl, rfl, rfl, rfl, rfl⟩

/-- `setTenRecs` changes no other part of a die. -/
@[simp] theorem setTenRecs_gets (s : State) (d : DieId) (x : Map TenRecord) (e : DieId) :
    getStaging (setTenRecs s d x) e = getStaging s e ∧ getStagingBad (setTenRecs s d x) e = getStagingBad s e ∧
    getPieces (setTenRecs s d x) e = getPieces s e ∧ getSheet (setTenRecs s d x) e = getSheet s e ∧
    getPort (setTenRecs s d x) e = getPort s e ∧ getHregs (setTenRecs s d x) e = getHregs s e ∧
    getQregs (setTenRecs s d x) e = getQregs s e ∧ getBells (setTenRecs s d x) e = getBells s e ∧
    getForwards (setTenRecs s d x) e = getForwards s e ∧ getRelay (setTenRecs s d x) e = getRelay s e ∧
    getTables (setTenRecs s d x) e = getTables s e ∧ getPins (setTenRecs s d x) e = getPins s e ∧
    getQueues (setTenRecs s d x) e = getQueues s e ∧ getStk (setTenRecs s d x) e = getStk s e ∧
    getCores (setTenRecs s d x) e = getCores s e ∧ getMemu (setTenRecs s d x) e = getMemu s e ∧
    getDma (setTenRecs s d x) e = getDma s e ∧ getRet (setTenRecs s d x) e = getRet s e ∧
    getGen (setTenRecs s d x) e = getGen s e ∧ getEas (setTenRecs s d x) e = getEas s e ∧
    getGeo (setTenRecs s d x) e = getGeo s e ∧ getLamp (setTenRecs s d x) e = getLamp s e ∧
    getTime (setTenRecs s d x) e = getTime s e ∧ getLog (setTenRecs s d x) e = getLog s e ∧
    getEnds (setTenRecs s d x) e = getEnds s e ∧ getCordRegs (setTenRecs s d x) e = getCordRegs s e ∧
    getOtp (setTenRecs s d x) e = getOtp s e ∧ getSec (setTenRecs s d x) e = getSec s e ∧
    getKiln (setTenRecs s d x) e = getKiln s e ∧ getTap (setTenRecs s d x) e = getTap s e :=
  ⟨rfl, rfl, rfl, rfl, rfl, rfl, rfl, rfl, rfl, rfl, rfl, rfl, rfl, rfl, rfl, rfl, rfl, rfl, rfl, rfl, rfl, rfl, rfl, rfl, rfl,
   rfl, rfl, rfl, rfl, rfl⟩

/-- `getTenRecs` reads what `setTenRecs` set. -/
@[simp] theorem getTenRecs_setTenRecs (s : State) (d : DieId) (x : Map TenRecord) : getTenRecs (setTenRecs s d x) d = x :=
  qget_qset_same s.tenRecords d x

/-- `setTenRecs` leaves the other dies' parts. -/
@[simp] theorem getTenRecs_setTenRecs_other (s : State) (d : DieId) (x : Map TenRecord) {e : DieId} (h : e ≠ d) :
    getTenRecs (setTenRecs s d x) e = getTenRecs s e := qget_qset_other s.tenRecords x h

/-- `setQueues` changes no other field. -/
@[simp] theorem setQueues_fields (s : State) (d : DieId) (x : Map Queue) :
    (setQueues s d x).pending = s.pending ∧ (setQueues s d x).now = s.now ∧ (setQueues s d x).freeCtr = s.freeCtr ∧
    (setQueues s d x).nextId = s.nextId ∧ (setQueues s d x).board = s.board ∧ (setQueues s d x).mem = s.mem ∧
    (setQueues s d x).poison = s.poison ∧ (setQueues s d x).staging = s.staging ∧ (setQueues s d x).stagingBad = s.stagingBad ∧
    (setQueues s d x).pieces = s.pieces ∧ (setQueues s d x).sheets = s.sheets ∧ (setQueues s d x).ports = s.ports ∧
    (setQueues s d x).hregs = s.hregs ∧ (setQueues s d x).qregs = s.qregs ∧ (setQueues s d x).doorbells = s.doorbells ∧
    (setQueues s d x).forwards = s.forwards ∧ (setQueues s d x).relays = s.relays ∧ (setQueues s d x).frozen = s.frozen ∧
    (setQueues s d x).tables = s.tables ∧ (setQueues s d x).pins = s.pins ∧ (setQueues s d x).resets = s.resets ∧
    (setQueues s d x).tenRecords = s.tenRecords ∧ (setQueues s d x).stokers = s.stokers ∧ (setQueues s d x).signals = s.signals ∧
    (setQueues s d x).watches = s.watches ∧
    (setQueues s d x).commits = s.commits ∧ (setQueues s d x).cores = s.cores ∧ (setQueues s d x).memu = s.memu ∧
    (setQueues s d x).dma = s.dma ∧ (setQueues s d x).ret = s.ret ∧ (setQueues s d x).gen = s.gen ∧
    (setQueues s d x).eas = s.eas ∧ (setQueues s d x).geo = s.geo ∧ (setQueues s d x).lamps = s.lamps ∧
    (setQueues s d x).lampPkg = s.lampPkg ∧ (setQueues s d x).times = s.times ∧ (setQueues s d x).pps = s.pps ∧
    (setQueues s d x).logs = s.logs ∧ (setQueues s d x).cords = s.cords ∧ (setQueues s d x).ends = s.ends ∧
    (setQueues s d x).agree = s.agree ∧ (setQueues s d x).cordRegs = s.cordRegs ∧ (setQueues s d x).otps = s.otps ∧
    (setQueues s d x).secs = s.secs ∧ (setQueues s d x).kilns = s.kilns ∧ (setQueues s d x).taps = s.taps :=
  ⟨rfl, rfl, rfl, rfl, rfl, rfl, rfl, rfl, rfl, rfl, rfl, rfl, rfl, rfl, rfl, rfl, rfl, rfl, rfl, rfl, rfl, rfl, rfl, rfl, rfl, rfl,
   rfl, rfl, rfl, rfl, rfl, rfl, rfl, rfl, rfl, rfl, rfl, rfl, rfl, rfl, rfl, rfl, rfl, rfl, rfl, rfl⟩

/-- `setQueues` changes no other part of a die. -/
@[simp] theorem setQueues_gets (s : State) (d : DieId) (x : Map Queue) (e : DieId) :
    getStaging (setQueues s d x) e = getStaging s e ∧ getStagingBad (setQueues s d x) e = getStagingBad s e ∧
    getPieces (setQueues s d x) e = getPieces s e ∧ getSheet (setQueues s d x) e = getSheet s e ∧
    getPort (setQueues s d x) e = getPort s e ∧ getHregs (setQueues s d x) e = getHregs s e ∧
    getQregs (setQueues s d x) e = getQregs s e ∧ getBells (setQueues s d x) e = getBells s e ∧
    getForwards (setQueues s d x) e = getForwards s e ∧ getRelay (setQueues s d x) e = getRelay s e ∧
    getTables (setQueues s d x) e = getTables s e ∧ getPins (setQueues s d x) e = getPins s e ∧
    getTenRecs (setQueues s d x) e = getTenRecs s e ∧ getStk (setQueues s d x) e = getStk s e ∧
    getCores (setQueues s d x) e = getCores s e ∧ getMemu (setQueues s d x) e = getMemu s e ∧
    getDma (setQueues s d x) e = getDma s e ∧ getRet (setQueues s d x) e = getRet s e ∧ getGen (setQueues s d x) e = getGen s e ∧
    getEas (setQueues s d x) e = getEas s e ∧ getGeo (setQueues s d x) e = getGeo s e ∧
    getLamp (setQueues s d x) e = getLamp s e ∧ getTime (setQueues s d x) e = getTime s e ∧
    getLog (setQueues s d x) e = getLog s e ∧ getEnds (setQueues s d x) e = getEnds s e ∧
    getCordRegs (setQueues s d x) e = getCordRegs s e ∧ getOtp (setQueues s d x) e = getOtp s e ∧
    getSec (setQueues s d x) e = getSec s e ∧ getKiln (setQueues s d x) e = getKiln s e ∧ getTap (setQueues s d x) e = getTap s e :=
  ⟨rfl, rfl, rfl, rfl, rfl, rfl, rfl, rfl, rfl, rfl, rfl, rfl, rfl, rfl, rfl, rfl, rfl, rfl, rfl, rfl, rfl, rfl, rfl, rfl, rfl,
   rfl, rfl, rfl, rfl, rfl⟩

/-- `getQueues` reads what `setQueues` set. -/
@[simp] theorem getQueues_setQueues (s : State) (d : DieId) (x : Map Queue) : getQueues (setQueues s d x) d = x :=
  qget_qset_same s.queues d x

/-- `setQueues` leaves the other dies' parts. -/
@[simp] theorem getQueues_setQueues_other (s : State) (d : DieId) (x : Map Queue) {e : DieId} (h : e ≠ d) :
    getQueues (setQueues s d x) e = getQueues s e := qget_qset_other s.queues x h

/-- `setStk` changes no other field. -/
@[simp] theorem setStk_fields (s : State) (d : DieId) (x : StokerUnit) :
    (setStk s d x).pending = s.pending ∧ (setStk s d x).now = s.now ∧ (setStk s d x).freeCtr = s.freeCtr ∧
    (setStk s d x).nextId = s.nextId ∧ (setStk s d x).board = s.board ∧ (setStk s d x).mem = s.mem ∧
    (setStk s d x).poison = s.poison ∧ (setStk s d x).staging = s.staging ∧ (setStk s d x).stagingBad = s.stagingBad ∧
    (setStk s d x).pieces = s.pieces ∧ (setStk s d x).sheets = s.sheets ∧ (setStk s d x).ports = s.ports ∧
    (setStk s d x).hregs = s.hregs ∧ (setStk s d x).qregs = s.qregs ∧ (setStk s d x).doorbells = s.doorbells ∧
    (setStk s d x).forwards = s.forwards ∧ (setStk s d x).relays = s.relays ∧ (setStk s d x).frozen = s.frozen ∧
    (setStk s d x).tables = s.tables ∧ (setStk s d x).pins = s.pins ∧ (setStk s d x).resets = s.resets ∧
    (setStk s d x).tenRecords = s.tenRecords ∧ (setStk s d x).queues = s.queues ∧ (setStk s d x).signals = s.signals ∧
    (setStk s d x).watches = s.watches ∧
    (setStk s d x).commits = s.commits ∧ (setStk s d x).cores = s.cores ∧ (setStk s d x).memu = s.memu ∧
    (setStk s d x).dma = s.dma ∧ (setStk s d x).ret = s.ret ∧ (setStk s d x).gen = s.gen ∧ (setStk s d x).eas = s.eas ∧
    (setStk s d x).geo = s.geo ∧ (setStk s d x).lamps = s.lamps ∧ (setStk s d x).lampPkg = s.lampPkg ∧
    (setStk s d x).times = s.times ∧ (setStk s d x).pps = s.pps ∧ (setStk s d x).logs = s.logs ∧ (setStk s d x).cords = s.cords ∧
    (setStk s d x).ends = s.ends ∧ (setStk s d x).agree = s.agree ∧ (setStk s d x).cordRegs = s.cordRegs ∧
    (setStk s d x).otps = s.otps ∧ (setStk s d x).secs = s.secs ∧ (setStk s d x).kilns = s.kilns ∧ (setStk s d x).taps = s.taps :=
  ⟨rfl, rfl, rfl, rfl, rfl, rfl, rfl, rfl, rfl, rfl, rfl, rfl, rfl, rfl, rfl, rfl, rfl, rfl, rfl, rfl, rfl, rfl, rfl, rfl, rfl, rfl,
   rfl, rfl, rfl, rfl, rfl, rfl, rfl, rfl, rfl, rfl, rfl, rfl, rfl, rfl, rfl, rfl, rfl, rfl, rfl, rfl⟩

/-- `setStk` changes no other part of a die. -/
@[simp] theorem setStk_gets (s : State) (d : DieId) (x : StokerUnit) (e : DieId) :
    getStaging (setStk s d x) e = getStaging s e ∧ getStagingBad (setStk s d x) e = getStagingBad s e ∧
    getPieces (setStk s d x) e = getPieces s e ∧ getSheet (setStk s d x) e = getSheet s e ∧
    getPort (setStk s d x) e = getPort s e ∧ getHregs (setStk s d x) e = getHregs s e ∧
    getQregs (setStk s d x) e = getQregs s e ∧ getBells (setStk s d x) e = getBells s e ∧
    getForwards (setStk s d x) e = getForwards s e ∧ getRelay (setStk s d x) e = getRelay s e ∧
    getTables (setStk s d x) e = getTables s e ∧ getPins (setStk s d x) e = getPins s e ∧
    getTenRecs (setStk s d x) e = getTenRecs s e ∧ getQueues (setStk s d x) e = getQueues s e ∧
    getCores (setStk s d x) e = getCores s e ∧ getMemu (setStk s d x) e = getMemu s e ∧ getDma (setStk s d x) e = getDma s e ∧
    getRet (setStk s d x) e = getRet s e ∧ getGen (setStk s d x) e = getGen s e ∧ getEas (setStk s d x) e = getEas s e ∧
    getGeo (setStk s d x) e = getGeo s e ∧ getLamp (setStk s d x) e = getLamp s e ∧ getTime (setStk s d x) e = getTime s e ∧
    getLog (setStk s d x) e = getLog s e ∧ getEnds (setStk s d x) e = getEnds s e ∧
    getCordRegs (setStk s d x) e = getCordRegs s e ∧ getOtp (setStk s d x) e = getOtp s e ∧
    getSec (setStk s d x) e = getSec s e ∧ getKiln (setStk s d x) e = getKiln s e ∧ getTap (setStk s d x) e = getTap s e :=
  ⟨rfl, rfl, rfl, rfl, rfl, rfl, rfl, rfl, rfl, rfl, rfl, rfl, rfl, rfl, rfl, rfl, rfl, rfl, rfl, rfl, rfl, rfl, rfl, rfl, rfl,
   rfl, rfl, rfl, rfl, rfl⟩

/-- `getStk` reads what `setStk` set. -/
@[simp] theorem getStk_setStk (s : State) (d : DieId) (x : StokerUnit) : getStk (setStk s d x) d = x :=
  qget_qset_same s.stokers d x

/-- `setStk` leaves the other dies' parts. -/
@[simp] theorem getStk_setStk_other (s : State) (d : DieId) (x : StokerUnit) {e : DieId} (h : e ≠ d) :
    getStk (setStk s d x) e = getStk s e := qget_qset_other s.stokers x h

/-- `setCores` changes no other field. -/
@[simp] theorem setCores_fields (s : State) (d : DieId) (x : Cores) :
    (setCores s d x).pending = s.pending ∧ (setCores s d x).now = s.now ∧ (setCores s d x).freeCtr = s.freeCtr ∧
    (setCores s d x).nextId = s.nextId ∧ (setCores s d x).board = s.board ∧ (setCores s d x).mem = s.mem ∧
    (setCores s d x).poison = s.poison ∧ (setCores s d x).staging = s.staging ∧ (setCores s d x).stagingBad = s.stagingBad ∧
    (setCores s d x).pieces = s.pieces ∧ (setCores s d x).sheets = s.sheets ∧ (setCores s d x).ports = s.ports ∧
    (setCores s d x).hregs = s.hregs ∧ (setCores s d x).qregs = s.qregs ∧ (setCores s d x).doorbells = s.doorbells ∧
    (setCores s d x).forwards = s.forwards ∧ (setCores s d x).relays = s.relays ∧ (setCores s d x).frozen = s.frozen ∧
    (setCores s d x).tables = s.tables ∧ (setCores s d x).pins = s.pins ∧ (setCores s d x).resets = s.resets ∧
    (setCores s d x).tenRecords = s.tenRecords ∧ (setCores s d x).queues = s.queues ∧ (setCores s d x).stokers = s.stokers ∧
    (setCores s d x).signals = s.signals ∧ (setCores s d x).watches = s.watches ∧ (setCores s d x).commits = s.commits ∧ (setCores s d x).memu = s.memu ∧
    (setCores s d x).dma = s.dma ∧ (setCores s d x).ret = s.ret ∧ (setCores s d x).gen = s.gen ∧ (setCores s d x).eas = s.eas ∧
    (setCores s d x).geo = s.geo ∧ (setCores s d x).lamps = s.lamps ∧ (setCores s d x).lampPkg = s.lampPkg ∧
    (setCores s d x).times = s.times ∧ (setCores s d x).pps = s.pps ∧ (setCores s d x).logs = s.logs ∧
    (setCores s d x).cords = s.cords ∧ (setCores s d x).ends = s.ends ∧ (setCores s d x).agree = s.agree ∧
    (setCores s d x).cordRegs = s.cordRegs ∧ (setCores s d x).otps = s.otps ∧ (setCores s d x).secs = s.secs ∧
    (setCores s d x).kilns = s.kilns ∧ (setCores s d x).taps = s.taps :=
  ⟨rfl, rfl, rfl, rfl, rfl, rfl, rfl, rfl, rfl, rfl, rfl, rfl, rfl, rfl, rfl, rfl, rfl, rfl, rfl, rfl, rfl, rfl, rfl, rfl, rfl, rfl,
   rfl, rfl, rfl, rfl, rfl, rfl, rfl, rfl, rfl, rfl, rfl, rfl, rfl, rfl, rfl, rfl, rfl, rfl, rfl, rfl⟩

/-- `setCores` changes no other part of a die. -/
@[simp] theorem setCores_gets (s : State) (d : DieId) (x : Cores) (e : DieId) :
    getStaging (setCores s d x) e = getStaging s e ∧ getStagingBad (setCores s d x) e = getStagingBad s e ∧
    getPieces (setCores s d x) e = getPieces s e ∧ getSheet (setCores s d x) e = getSheet s e ∧
    getPort (setCores s d x) e = getPort s e ∧ getHregs (setCores s d x) e = getHregs s e ∧
    getQregs (setCores s d x) e = getQregs s e ∧ getBells (setCores s d x) e = getBells s e ∧
    getForwards (setCores s d x) e = getForwards s e ∧ getRelay (setCores s d x) e = getRelay s e ∧
    getTables (setCores s d x) e = getTables s e ∧ getPins (setCores s d x) e = getPins s e ∧
    getTenRecs (setCores s d x) e = getTenRecs s e ∧ getQueues (setCores s d x) e = getQueues s e ∧
    getStk (setCores s d x) e = getStk s e ∧ getMemu (setCores s d x) e = getMemu s e ∧ getDma (setCores s d x) e = getDma s e ∧
    getRet (setCores s d x) e = getRet s e ∧ getGen (setCores s d x) e = getGen s e ∧ getEas (setCores s d x) e = getEas s e ∧
    getGeo (setCores s d x) e = getGeo s e ∧ getLamp (setCores s d x) e = getLamp s e ∧
    getTime (setCores s d x) e = getTime s e ∧ getLog (setCores s d x) e = getLog s e ∧
    getEnds (setCores s d x) e = getEnds s e ∧ getCordRegs (setCores s d x) e = getCordRegs s e ∧
    getOtp (setCores s d x) e = getOtp s e ∧ getSec (setCores s d x) e = getSec s e ∧ getKiln (setCores s d x) e = getKiln s e ∧
    getTap (setCores s d x) e = getTap s e :=
  ⟨rfl, rfl, rfl, rfl, rfl, rfl, rfl, rfl, rfl, rfl, rfl, rfl, rfl, rfl, rfl, rfl, rfl, rfl, rfl, rfl, rfl, rfl, rfl, rfl, rfl,
   rfl, rfl, rfl, rfl, rfl⟩

/-- `getCores` reads what `setCores` set. -/
@[simp] theorem getCores_setCores (s : State) (d : DieId) (x : Cores) : getCores (setCores s d x) d = x :=
  qget_qset_same s.cores d x

/-- `setCores` leaves the other dies' parts. -/
@[simp] theorem getCores_setCores_other (s : State) (d : DieId) (x : Cores) {e : DieId} (h : e ≠ d) :
    getCores (setCores s d x) e = getCores s e := qget_qset_other s.cores x h

/-- `setMemu` changes no other field. -/
@[simp] theorem setMemu_fields (s : State) (d : DieId) (x : MemUnit) :
    (setMemu s d x).pending = s.pending ∧ (setMemu s d x).now = s.now ∧ (setMemu s d x).freeCtr = s.freeCtr ∧
    (setMemu s d x).nextId = s.nextId ∧ (setMemu s d x).board = s.board ∧ (setMemu s d x).mem = s.mem ∧
    (setMemu s d x).poison = s.poison ∧ (setMemu s d x).staging = s.staging ∧ (setMemu s d x).stagingBad = s.stagingBad ∧
    (setMemu s d x).pieces = s.pieces ∧ (setMemu s d x).sheets = s.sheets ∧ (setMemu s d x).ports = s.ports ∧
    (setMemu s d x).hregs = s.hregs ∧ (setMemu s d x).qregs = s.qregs ∧ (setMemu s d x).doorbells = s.doorbells ∧
    (setMemu s d x).forwards = s.forwards ∧ (setMemu s d x).relays = s.relays ∧ (setMemu s d x).frozen = s.frozen ∧
    (setMemu s d x).tables = s.tables ∧ (setMemu s d x).pins = s.pins ∧ (setMemu s d x).resets = s.resets ∧
    (setMemu s d x).tenRecords = s.tenRecords ∧ (setMemu s d x).queues = s.queues ∧ (setMemu s d x).stokers = s.stokers ∧
    (setMemu s d x).signals = s.signals ∧ (setMemu s d x).watches = s.watches ∧ (setMemu s d x).commits = s.commits ∧ (setMemu s d x).cores = s.cores ∧
    (setMemu s d x).dma = s.dma ∧ (setMemu s d x).ret = s.ret ∧ (setMemu s d x).gen = s.gen ∧ (setMemu s d x).eas = s.eas ∧
    (setMemu s d x).geo = s.geo ∧ (setMemu s d x).lamps = s.lamps ∧ (setMemu s d x).lampPkg = s.lampPkg ∧
    (setMemu s d x).times = s.times ∧ (setMemu s d x).pps = s.pps ∧ (setMemu s d x).logs = s.logs ∧
    (setMemu s d x).cords = s.cords ∧ (setMemu s d x).ends = s.ends ∧ (setMemu s d x).agree = s.agree ∧
    (setMemu s d x).cordRegs = s.cordRegs ∧ (setMemu s d x).otps = s.otps ∧ (setMemu s d x).secs = s.secs ∧
    (setMemu s d x).kilns = s.kilns ∧ (setMemu s d x).taps = s.taps :=
  ⟨rfl, rfl, rfl, rfl, rfl, rfl, rfl, rfl, rfl, rfl, rfl, rfl, rfl, rfl, rfl, rfl, rfl, rfl, rfl, rfl, rfl, rfl, rfl, rfl, rfl, rfl,
   rfl, rfl, rfl, rfl, rfl, rfl, rfl, rfl, rfl, rfl, rfl, rfl, rfl, rfl, rfl, rfl, rfl, rfl, rfl, rfl⟩

/-- `setMemu` changes no other part of a die. -/
@[simp] theorem setMemu_gets (s : State) (d : DieId) (x : MemUnit) (e : DieId) :
    getStaging (setMemu s d x) e = getStaging s e ∧ getStagingBad (setMemu s d x) e = getStagingBad s e ∧
    getPieces (setMemu s d x) e = getPieces s e ∧ getSheet (setMemu s d x) e = getSheet s e ∧
    getPort (setMemu s d x) e = getPort s e ∧ getHregs (setMemu s d x) e = getHregs s e ∧
    getQregs (setMemu s d x) e = getQregs s e ∧ getBells (setMemu s d x) e = getBells s e ∧
    getForwards (setMemu s d x) e = getForwards s e ∧ getRelay (setMemu s d x) e = getRelay s e ∧
    getTables (setMemu s d x) e = getTables s e ∧ getPins (setMemu s d x) e = getPins s e ∧
    getTenRecs (setMemu s d x) e = getTenRecs s e ∧ getQueues (setMemu s d x) e = getQueues s e ∧
    getStk (setMemu s d x) e = getStk s e ∧ getCores (setMemu s d x) e = getCores s e ∧ getDma (setMemu s d x) e = getDma s e ∧
    getRet (setMemu s d x) e = getRet s e ∧ getGen (setMemu s d x) e = getGen s e ∧ getEas (setMemu s d x) e = getEas s e ∧
    getGeo (setMemu s d x) e = getGeo s e ∧ getLamp (setMemu s d x) e = getLamp s e ∧ getTime (setMemu s d x) e = getTime s e ∧
    getLog (setMemu s d x) e = getLog s e ∧ getEnds (setMemu s d x) e = getEnds s e ∧
    getCordRegs (setMemu s d x) e = getCordRegs s e ∧ getOtp (setMemu s d x) e = getOtp s e ∧
    getSec (setMemu s d x) e = getSec s e ∧ getKiln (setMemu s d x) e = getKiln s e ∧ getTap (setMemu s d x) e = getTap s e :=
  ⟨rfl, rfl, rfl, rfl, rfl, rfl, rfl, rfl, rfl, rfl, rfl, rfl, rfl, rfl, rfl, rfl, rfl, rfl, rfl, rfl, rfl, rfl, rfl, rfl, rfl,
   rfl, rfl, rfl, rfl, rfl⟩

/-- `getMemu` reads what `setMemu` set. -/
@[simp] theorem getMemu_setMemu (s : State) (d : DieId) (x : MemUnit) : getMemu (setMemu s d x) d = x :=
  qget_qset_same s.memu d x

/-- `setMemu` leaves the other dies' parts. -/
@[simp] theorem getMemu_setMemu_other (s : State) (d : DieId) (x : MemUnit) {e : DieId} (h : e ≠ d) :
    getMemu (setMemu s d x) e = getMemu s e := qget_qset_other s.memu x h

/-- `setDma` changes no other field. -/
@[simp] theorem setDma_fields (s : State) (d : DieId) (x : DmaUnit) :
    (setDma s d x).pending = s.pending ∧ (setDma s d x).now = s.now ∧ (setDma s d x).freeCtr = s.freeCtr ∧
    (setDma s d x).nextId = s.nextId ∧ (setDma s d x).board = s.board ∧ (setDma s d x).mem = s.mem ∧
    (setDma s d x).poison = s.poison ∧ (setDma s d x).staging = s.staging ∧ (setDma s d x).stagingBad = s.stagingBad ∧
    (setDma s d x).pieces = s.pieces ∧ (setDma s d x).sheets = s.sheets ∧ (setDma s d x).ports = s.ports ∧
    (setDma s d x).hregs = s.hregs ∧ (setDma s d x).qregs = s.qregs ∧ (setDma s d x).doorbells = s.doorbells ∧
    (setDma s d x).forwards = s.forwards ∧ (setDma s d x).relays = s.relays ∧ (setDma s d x).frozen = s.frozen ∧
    (setDma s d x).tables = s.tables ∧ (setDma s d x).pins = s.pins ∧ (setDma s d x).resets = s.resets ∧
    (setDma s d x).tenRecords = s.tenRecords ∧ (setDma s d x).queues = s.queues ∧ (setDma s d x).stokers = s.stokers ∧
    (setDma s d x).signals = s.signals ∧ (setDma s d x).watches = s.watches ∧ (setDma s d x).commits = s.commits ∧ (setDma s d x).cores = s.cores ∧
    (setDma s d x).memu = s.memu ∧ (setDma s d x).ret = s.ret ∧ (setDma s d x).gen = s.gen ∧ (setDma s d x).eas = s.eas ∧
    (setDma s d x).geo = s.geo ∧ (setDma s d x).lamps = s.lamps ∧ (setDma s d x).lampPkg = s.lampPkg ∧
    (setDma s d x).times = s.times ∧ (setDma s d x).pps = s.pps ∧ (setDma s d x).logs = s.logs ∧ (setDma s d x).cords = s.cords ∧
    (setDma s d x).ends = s.ends ∧ (setDma s d x).agree = s.agree ∧ (setDma s d x).cordRegs = s.cordRegs ∧
    (setDma s d x).otps = s.otps ∧ (setDma s d x).secs = s.secs ∧ (setDma s d x).kilns = s.kilns ∧ (setDma s d x).taps = s.taps :=
  ⟨rfl, rfl, rfl, rfl, rfl, rfl, rfl, rfl, rfl, rfl, rfl, rfl, rfl, rfl, rfl, rfl, rfl, rfl, rfl, rfl, rfl, rfl, rfl, rfl, rfl, rfl,
   rfl, rfl, rfl, rfl, rfl, rfl, rfl, rfl, rfl, rfl, rfl, rfl, rfl, rfl, rfl, rfl, rfl, rfl, rfl, rfl⟩

/-- `setDma` changes no other part of a die. -/
@[simp] theorem setDma_gets (s : State) (d : DieId) (x : DmaUnit) (e : DieId) :
    getStaging (setDma s d x) e = getStaging s e ∧ getStagingBad (setDma s d x) e = getStagingBad s e ∧
    getPieces (setDma s d x) e = getPieces s e ∧ getSheet (setDma s d x) e = getSheet s e ∧
    getPort (setDma s d x) e = getPort s e ∧ getHregs (setDma s d x) e = getHregs s e ∧
    getQregs (setDma s d x) e = getQregs s e ∧ getBells (setDma s d x) e = getBells s e ∧
    getForwards (setDma s d x) e = getForwards s e ∧ getRelay (setDma s d x) e = getRelay s e ∧
    getTables (setDma s d x) e = getTables s e ∧ getPins (setDma s d x) e = getPins s e ∧
    getTenRecs (setDma s d x) e = getTenRecs s e ∧ getQueues (setDma s d x) e = getQueues s e ∧
    getStk (setDma s d x) e = getStk s e ∧ getCores (setDma s d x) e = getCores s e ∧ getMemu (setDma s d x) e = getMemu s e ∧
    getRet (setDma s d x) e = getRet s e ∧ getGen (setDma s d x) e = getGen s e ∧ getEas (setDma s d x) e = getEas s e ∧
    getGeo (setDma s d x) e = getGeo s e ∧ getLamp (setDma s d x) e = getLamp s e ∧ getTime (setDma s d x) e = getTime s e ∧
    getLog (setDma s d x) e = getLog s e ∧ getEnds (setDma s d x) e = getEnds s e ∧
    getCordRegs (setDma s d x) e = getCordRegs s e ∧ getOtp (setDma s d x) e = getOtp s e ∧
    getSec (setDma s d x) e = getSec s e ∧ getKiln (setDma s d x) e = getKiln s e ∧ getTap (setDma s d x) e = getTap s e :=
  ⟨rfl, rfl, rfl, rfl, rfl, rfl, rfl, rfl, rfl, rfl, rfl, rfl, rfl, rfl, rfl, rfl, rfl, rfl, rfl, rfl, rfl, rfl, rfl, rfl, rfl,
   rfl, rfl, rfl, rfl, rfl⟩

/-- `getDma` reads what `setDma` set. -/
@[simp] theorem getDma_setDma (s : State) (d : DieId) (x : DmaUnit) : getDma (setDma s d x) d = x :=
  qget_qset_same s.dma d x

/-- `setDma` leaves the other dies' parts. -/
@[simp] theorem getDma_setDma_other (s : State) (d : DieId) (x : DmaUnit) {e : DieId} (h : e ≠ d) :
    getDma (setDma s d x) e = getDma s e := qget_qset_other s.dma x h

/-- `setRet` changes no other field. -/
@[simp] theorem setRet_fields (s : State) (d : DieId) (x : RetUnit) :
    (setRet s d x).pending = s.pending ∧ (setRet s d x).now = s.now ∧ (setRet s d x).freeCtr = s.freeCtr ∧
    (setRet s d x).nextId = s.nextId ∧ (setRet s d x).board = s.board ∧ (setRet s d x).mem = s.mem ∧
    (setRet s d x).poison = s.poison ∧ (setRet s d x).staging = s.staging ∧ (setRet s d x).stagingBad = s.stagingBad ∧
    (setRet s d x).pieces = s.pieces ∧ (setRet s d x).sheets = s.sheets ∧ (setRet s d x).ports = s.ports ∧
    (setRet s d x).hregs = s.hregs ∧ (setRet s d x).qregs = s.qregs ∧ (setRet s d x).doorbells = s.doorbells ∧
    (setRet s d x).forwards = s.forwards ∧ (setRet s d x).relays = s.relays ∧ (setRet s d x).frozen = s.frozen ∧
    (setRet s d x).tables = s.tables ∧ (setRet s d x).pins = s.pins ∧ (setRet s d x).resets = s.resets ∧
    (setRet s d x).tenRecords = s.tenRecords ∧ (setRet s d x).queues = s.queues ∧ (setRet s d x).stokers = s.stokers ∧
    (setRet s d x).signals = s.signals ∧ (setRet s d x).watches = s.watches ∧ (setRet s d x).commits = s.commits ∧ (setRet s d x).cores = s.cores ∧
    (setRet s d x).memu = s.memu ∧ (setRet s d x).dma = s.dma ∧ (setRet s d x).gen = s.gen ∧ (setRet s d x).eas = s.eas ∧
    (setRet s d x).geo = s.geo ∧ (setRet s d x).lamps = s.lamps ∧ (setRet s d x).lampPkg = s.lampPkg ∧
    (setRet s d x).times = s.times ∧ (setRet s d x).pps = s.pps ∧ (setRet s d x).logs = s.logs ∧ (setRet s d x).cords = s.cords ∧
    (setRet s d x).ends = s.ends ∧ (setRet s d x).agree = s.agree ∧ (setRet s d x).cordRegs = s.cordRegs ∧
    (setRet s d x).otps = s.otps ∧ (setRet s d x).secs = s.secs ∧ (setRet s d x).kilns = s.kilns ∧ (setRet s d x).taps = s.taps :=
  ⟨rfl, rfl, rfl, rfl, rfl, rfl, rfl, rfl, rfl, rfl, rfl, rfl, rfl, rfl, rfl, rfl, rfl, rfl, rfl, rfl, rfl, rfl, rfl, rfl, rfl, rfl,
   rfl, rfl, rfl, rfl, rfl, rfl, rfl, rfl, rfl, rfl, rfl, rfl, rfl, rfl, rfl, rfl, rfl, rfl, rfl, rfl⟩

/-- `setRet` changes no other part of a die. -/
@[simp] theorem setRet_gets (s : State) (d : DieId) (x : RetUnit) (e : DieId) :
    getStaging (setRet s d x) e = getStaging s e ∧ getStagingBad (setRet s d x) e = getStagingBad s e ∧
    getPieces (setRet s d x) e = getPieces s e ∧ getSheet (setRet s d x) e = getSheet s e ∧
    getPort (setRet s d x) e = getPort s e ∧ getHregs (setRet s d x) e = getHregs s e ∧
    getQregs (setRet s d x) e = getQregs s e ∧ getBells (setRet s d x) e = getBells s e ∧
    getForwards (setRet s d x) e = getForwards s e ∧ getRelay (setRet s d x) e = getRelay s e ∧
    getTables (setRet s d x) e = getTables s e ∧ getPins (setRet s d x) e = getPins s e ∧
    getTenRecs (setRet s d x) e = getTenRecs s e ∧ getQueues (setRet s d x) e = getQueues s e ∧
    getStk (setRet s d x) e = getStk s e ∧ getCores (setRet s d x) e = getCores s e ∧ getMemu (setRet s d x) e = getMemu s e ∧
    getDma (setRet s d x) e = getDma s e ∧ getGen (setRet s d x) e = getGen s e ∧ getEas (setRet s d x) e = getEas s e ∧
    getGeo (setRet s d x) e = getGeo s e ∧ getLamp (setRet s d x) e = getLamp s e ∧ getTime (setRet s d x) e = getTime s e ∧
    getLog (setRet s d x) e = getLog s e ∧ getEnds (setRet s d x) e = getEnds s e ∧
    getCordRegs (setRet s d x) e = getCordRegs s e ∧ getOtp (setRet s d x) e = getOtp s e ∧
    getSec (setRet s d x) e = getSec s e ∧ getKiln (setRet s d x) e = getKiln s e ∧ getTap (setRet s d x) e = getTap s e :=
  ⟨rfl, rfl, rfl, rfl, rfl, rfl, rfl, rfl, rfl, rfl, rfl, rfl, rfl, rfl, rfl, rfl, rfl, rfl, rfl, rfl, rfl, rfl, rfl, rfl, rfl,
   rfl, rfl, rfl, rfl, rfl⟩

/-- `getRet` reads what `setRet` set. -/
@[simp] theorem getRet_setRet (s : State) (d : DieId) (x : RetUnit) : getRet (setRet s d x) d = x :=
  qget_qset_same s.ret d x

/-- `setRet` leaves the other dies' parts. -/
@[simp] theorem getRet_setRet_other (s : State) (d : DieId) (x : RetUnit) {e : DieId} (h : e ≠ d) :
    getRet (setRet s d x) e = getRet s e := qget_qset_other s.ret x h

/-- `setGen` changes no other field. -/
@[simp] theorem setGen_fields (s : State) (d : DieId) (x : GenUnit) :
    (setGen s d x).pending = s.pending ∧ (setGen s d x).now = s.now ∧ (setGen s d x).freeCtr = s.freeCtr ∧
    (setGen s d x).nextId = s.nextId ∧ (setGen s d x).board = s.board ∧ (setGen s d x).mem = s.mem ∧
    (setGen s d x).poison = s.poison ∧ (setGen s d x).staging = s.staging ∧ (setGen s d x).stagingBad = s.stagingBad ∧
    (setGen s d x).pieces = s.pieces ∧ (setGen s d x).sheets = s.sheets ∧ (setGen s d x).ports = s.ports ∧
    (setGen s d x).hregs = s.hregs ∧ (setGen s d x).qregs = s.qregs ∧ (setGen s d x).doorbells = s.doorbells ∧
    (setGen s d x).forwards = s.forwards ∧ (setGen s d x).relays = s.relays ∧ (setGen s d x).frozen = s.frozen ∧
    (setGen s d x).tables = s.tables ∧ (setGen s d x).pins = s.pins ∧ (setGen s d x).resets = s.resets ∧
    (setGen s d x).tenRecords = s.tenRecords ∧ (setGen s d x).queues = s.queues ∧ (setGen s d x).stokers = s.stokers ∧
    (setGen s d x).signals = s.signals ∧ (setGen s d x).watches = s.watches ∧ (setGen s d x).commits = s.commits ∧ (setGen s d x).cores = s.cores ∧
    (setGen s d x).memu = s.memu ∧ (setGen s d x).dma = s.dma ∧ (setGen s d x).ret = s.ret ∧ (setGen s d x).eas = s.eas ∧
    (setGen s d x).geo = s.geo ∧ (setGen s d x).lamps = s.lamps ∧ (setGen s d x).lampPkg = s.lampPkg ∧
    (setGen s d x).times = s.times ∧ (setGen s d x).pps = s.pps ∧ (setGen s d x).logs = s.logs ∧ (setGen s d x).cords = s.cords ∧
    (setGen s d x).ends = s.ends ∧ (setGen s d x).agree = s.agree ∧ (setGen s d x).cordRegs = s.cordRegs ∧
    (setGen s d x).otps = s.otps ∧ (setGen s d x).secs = s.secs ∧ (setGen s d x).kilns = s.kilns ∧ (setGen s d x).taps = s.taps :=
  ⟨rfl, rfl, rfl, rfl, rfl, rfl, rfl, rfl, rfl, rfl, rfl, rfl, rfl, rfl, rfl, rfl, rfl, rfl, rfl, rfl, rfl, rfl, rfl, rfl, rfl, rfl,
   rfl, rfl, rfl, rfl, rfl, rfl, rfl, rfl, rfl, rfl, rfl, rfl, rfl, rfl, rfl, rfl, rfl, rfl, rfl, rfl⟩

/-- `setGen` changes no other part of a die. -/
@[simp] theorem setGen_gets (s : State) (d : DieId) (x : GenUnit) (e : DieId) :
    getStaging (setGen s d x) e = getStaging s e ∧ getStagingBad (setGen s d x) e = getStagingBad s e ∧
    getPieces (setGen s d x) e = getPieces s e ∧ getSheet (setGen s d x) e = getSheet s e ∧
    getPort (setGen s d x) e = getPort s e ∧ getHregs (setGen s d x) e = getHregs s e ∧
    getQregs (setGen s d x) e = getQregs s e ∧ getBells (setGen s d x) e = getBells s e ∧
    getForwards (setGen s d x) e = getForwards s e ∧ getRelay (setGen s d x) e = getRelay s e ∧
    getTables (setGen s d x) e = getTables s e ∧ getPins (setGen s d x) e = getPins s e ∧
    getTenRecs (setGen s d x) e = getTenRecs s e ∧ getQueues (setGen s d x) e = getQueues s e ∧
    getStk (setGen s d x) e = getStk s e ∧ getCores (setGen s d x) e = getCores s e ∧ getMemu (setGen s d x) e = getMemu s e ∧
    getDma (setGen s d x) e = getDma s e ∧ getRet (setGen s d x) e = getRet s e ∧ getEas (setGen s d x) e = getEas s e ∧
    getGeo (setGen s d x) e = getGeo s e ∧ getLamp (setGen s d x) e = getLamp s e ∧ getTime (setGen s d x) e = getTime s e ∧
    getLog (setGen s d x) e = getLog s e ∧ getEnds (setGen s d x) e = getEnds s e ∧
    getCordRegs (setGen s d x) e = getCordRegs s e ∧ getOtp (setGen s d x) e = getOtp s e ∧
    getSec (setGen s d x) e = getSec s e ∧ getKiln (setGen s d x) e = getKiln s e ∧ getTap (setGen s d x) e = getTap s e :=
  ⟨rfl, rfl, rfl, rfl, rfl, rfl, rfl, rfl, rfl, rfl, rfl, rfl, rfl, rfl, rfl, rfl, rfl, rfl, rfl, rfl, rfl, rfl, rfl, rfl, rfl,
   rfl, rfl, rfl, rfl, rfl⟩

/-- `getGen` reads what `setGen` set. -/
@[simp] theorem getGen_setGen (s : State) (d : DieId) (x : GenUnit) : getGen (setGen s d x) d = x :=
  qget_qset_same s.gen d x

/-- `setGen` leaves the other dies' parts. -/
@[simp] theorem getGen_setGen_other (s : State) (d : DieId) (x : GenUnit) {e : DieId} (h : e ≠ d) :
    getGen (setGen s d x) e = getGen s e := qget_qset_other s.gen x h

/-- `setEas` changes no other field. -/
@[simp] theorem setEas_fields (s : State) (d : DieId) (x : EasUnit) :
    (setEas s d x).pending = s.pending ∧ (setEas s d x).now = s.now ∧ (setEas s d x).freeCtr = s.freeCtr ∧
    (setEas s d x).nextId = s.nextId ∧ (setEas s d x).board = s.board ∧ (setEas s d x).mem = s.mem ∧
    (setEas s d x).poison = s.poison ∧ (setEas s d x).staging = s.staging ∧ (setEas s d x).stagingBad = s.stagingBad ∧
    (setEas s d x).pieces = s.pieces ∧ (setEas s d x).sheets = s.sheets ∧ (setEas s d x).ports = s.ports ∧
    (setEas s d x).hregs = s.hregs ∧ (setEas s d x).qregs = s.qregs ∧ (setEas s d x).doorbells = s.doorbells ∧
    (setEas s d x).forwards = s.forwards ∧ (setEas s d x).relays = s.relays ∧ (setEas s d x).frozen = s.frozen ∧
    (setEas s d x).tables = s.tables ∧ (setEas s d x).pins = s.pins ∧ (setEas s d x).resets = s.resets ∧
    (setEas s d x).tenRecords = s.tenRecords ∧ (setEas s d x).queues = s.queues ∧ (setEas s d x).stokers = s.stokers ∧
    (setEas s d x).signals = s.signals ∧ (setEas s d x).watches = s.watches ∧ (setEas s d x).commits = s.commits ∧ (setEas s d x).cores = s.cores ∧
    (setEas s d x).memu = s.memu ∧ (setEas s d x).dma = s.dma ∧ (setEas s d x).ret = s.ret ∧ (setEas s d x).gen = s.gen ∧
    (setEas s d x).geo = s.geo ∧ (setEas s d x).lamps = s.lamps ∧ (setEas s d x).lampPkg = s.lampPkg ∧
    (setEas s d x).times = s.times ∧ (setEas s d x).pps = s.pps ∧ (setEas s d x).logs = s.logs ∧ (setEas s d x).cords = s.cords ∧
    (setEas s d x).ends = s.ends ∧ (setEas s d x).agree = s.agree ∧ (setEas s d x).cordRegs = s.cordRegs ∧
    (setEas s d x).otps = s.otps ∧ (setEas s d x).secs = s.secs ∧ (setEas s d x).kilns = s.kilns ∧ (setEas s d x).taps = s.taps :=
  ⟨rfl, rfl, rfl, rfl, rfl, rfl, rfl, rfl, rfl, rfl, rfl, rfl, rfl, rfl, rfl, rfl, rfl, rfl, rfl, rfl, rfl, rfl, rfl, rfl, rfl, rfl,
   rfl, rfl, rfl, rfl, rfl, rfl, rfl, rfl, rfl, rfl, rfl, rfl, rfl, rfl, rfl, rfl, rfl, rfl, rfl, rfl⟩

/-- `setEas` changes no other part of a die. -/
@[simp] theorem setEas_gets (s : State) (d : DieId) (x : EasUnit) (e : DieId) :
    getStaging (setEas s d x) e = getStaging s e ∧ getStagingBad (setEas s d x) e = getStagingBad s e ∧
    getPieces (setEas s d x) e = getPieces s e ∧ getSheet (setEas s d x) e = getSheet s e ∧
    getPort (setEas s d x) e = getPort s e ∧ getHregs (setEas s d x) e = getHregs s e ∧
    getQregs (setEas s d x) e = getQregs s e ∧ getBells (setEas s d x) e = getBells s e ∧
    getForwards (setEas s d x) e = getForwards s e ∧ getRelay (setEas s d x) e = getRelay s e ∧
    getTables (setEas s d x) e = getTables s e ∧ getPins (setEas s d x) e = getPins s e ∧
    getTenRecs (setEas s d x) e = getTenRecs s e ∧ getQueues (setEas s d x) e = getQueues s e ∧
    getStk (setEas s d x) e = getStk s e ∧ getCores (setEas s d x) e = getCores s e ∧ getMemu (setEas s d x) e = getMemu s e ∧
    getDma (setEas s d x) e = getDma s e ∧ getRet (setEas s d x) e = getRet s e ∧ getGen (setEas s d x) e = getGen s e ∧
    getGeo (setEas s d x) e = getGeo s e ∧ getLamp (setEas s d x) e = getLamp s e ∧ getTime (setEas s d x) e = getTime s e ∧
    getLog (setEas s d x) e = getLog s e ∧ getEnds (setEas s d x) e = getEnds s e ∧
    getCordRegs (setEas s d x) e = getCordRegs s e ∧ getOtp (setEas s d x) e = getOtp s e ∧
    getSec (setEas s d x) e = getSec s e ∧ getKiln (setEas s d x) e = getKiln s e ∧ getTap (setEas s d x) e = getTap s e :=
  ⟨rfl, rfl, rfl, rfl, rfl, rfl, rfl, rfl, rfl, rfl, rfl, rfl, rfl, rfl, rfl, rfl, rfl, rfl, rfl, rfl, rfl, rfl, rfl, rfl, rfl,
   rfl, rfl, rfl, rfl, rfl⟩

/-- `getEas` reads what `setEas` set. -/
@[simp] theorem getEas_setEas (s : State) (d : DieId) (x : EasUnit) : getEas (setEas s d x) d = x :=
  qget_qset_same s.eas d x

/-- `setEas` leaves the other dies' parts. -/
@[simp] theorem getEas_setEas_other (s : State) (d : DieId) (x : EasUnit) {e : DieId} (h : e ≠ d) :
    getEas (setEas s d x) e = getEas s e := qget_qset_other s.eas x h

/-- `setGeo` changes no other field. -/
@[simp] theorem setGeo_fields (s : State) (d : DieId) (x : GeoUnit) :
    (setGeo s d x).pending = s.pending ∧ (setGeo s d x).now = s.now ∧ (setGeo s d x).freeCtr = s.freeCtr ∧
    (setGeo s d x).nextId = s.nextId ∧ (setGeo s d x).board = s.board ∧ (setGeo s d x).mem = s.mem ∧
    (setGeo s d x).poison = s.poison ∧ (setGeo s d x).staging = s.staging ∧ (setGeo s d x).stagingBad = s.stagingBad ∧
    (setGeo s d x).pieces = s.pieces ∧ (setGeo s d x).sheets = s.sheets ∧ (setGeo s d x).ports = s.ports ∧
    (setGeo s d x).hregs = s.hregs ∧ (setGeo s d x).qregs = s.qregs ∧ (setGeo s d x).doorbells = s.doorbells ∧
    (setGeo s d x).forwards = s.forwards ∧ (setGeo s d x).relays = s.relays ∧ (setGeo s d x).frozen = s.frozen ∧
    (setGeo s d x).tables = s.tables ∧ (setGeo s d x).pins = s.pins ∧ (setGeo s d x).resets = s.resets ∧
    (setGeo s d x).tenRecords = s.tenRecords ∧ (setGeo s d x).queues = s.queues ∧ (setGeo s d x).stokers = s.stokers ∧
    (setGeo s d x).signals = s.signals ∧ (setGeo s d x).watches = s.watches ∧ (setGeo s d x).commits = s.commits ∧ (setGeo s d x).cores = s.cores ∧
    (setGeo s d x).memu = s.memu ∧ (setGeo s d x).dma = s.dma ∧ (setGeo s d x).ret = s.ret ∧ (setGeo s d x).gen = s.gen ∧
    (setGeo s d x).eas = s.eas ∧ (setGeo s d x).lamps = s.lamps ∧ (setGeo s d x).lampPkg = s.lampPkg ∧
    (setGeo s d x).times = s.times ∧ (setGeo s d x).pps = s.pps ∧ (setGeo s d x).logs = s.logs ∧ (setGeo s d x).cords = s.cords ∧
    (setGeo s d x).ends = s.ends ∧ (setGeo s d x).agree = s.agree ∧ (setGeo s d x).cordRegs = s.cordRegs ∧
    (setGeo s d x).otps = s.otps ∧ (setGeo s d x).secs = s.secs ∧ (setGeo s d x).kilns = s.kilns ∧ (setGeo s d x).taps = s.taps :=
  ⟨rfl, rfl, rfl, rfl, rfl, rfl, rfl, rfl, rfl, rfl, rfl, rfl, rfl, rfl, rfl, rfl, rfl, rfl, rfl, rfl, rfl, rfl, rfl, rfl, rfl, rfl,
   rfl, rfl, rfl, rfl, rfl, rfl, rfl, rfl, rfl, rfl, rfl, rfl, rfl, rfl, rfl, rfl, rfl, rfl, rfl, rfl⟩

/-- `setGeo` changes no other part of a die. -/
@[simp] theorem setGeo_gets (s : State) (d : DieId) (x : GeoUnit) (e : DieId) :
    getStaging (setGeo s d x) e = getStaging s e ∧ getStagingBad (setGeo s d x) e = getStagingBad s e ∧
    getPieces (setGeo s d x) e = getPieces s e ∧ getSheet (setGeo s d x) e = getSheet s e ∧
    getPort (setGeo s d x) e = getPort s e ∧ getHregs (setGeo s d x) e = getHregs s e ∧
    getQregs (setGeo s d x) e = getQregs s e ∧ getBells (setGeo s d x) e = getBells s e ∧
    getForwards (setGeo s d x) e = getForwards s e ∧ getRelay (setGeo s d x) e = getRelay s e ∧
    getTables (setGeo s d x) e = getTables s e ∧ getPins (setGeo s d x) e = getPins s e ∧
    getTenRecs (setGeo s d x) e = getTenRecs s e ∧ getQueues (setGeo s d x) e = getQueues s e ∧
    getStk (setGeo s d x) e = getStk s e ∧ getCores (setGeo s d x) e = getCores s e ∧ getMemu (setGeo s d x) e = getMemu s e ∧
    getDma (setGeo s d x) e = getDma s e ∧ getRet (setGeo s d x) e = getRet s e ∧ getGen (setGeo s d x) e = getGen s e ∧
    getEas (setGeo s d x) e = getEas s e ∧ getLamp (setGeo s d x) e = getLamp s e ∧ getTime (setGeo s d x) e = getTime s e ∧
    getLog (setGeo s d x) e = getLog s e ∧ getEnds (setGeo s d x) e = getEnds s e ∧
    getCordRegs (setGeo s d x) e = getCordRegs s e ∧ getOtp (setGeo s d x) e = getOtp s e ∧
    getSec (setGeo s d x) e = getSec s e ∧ getKiln (setGeo s d x) e = getKiln s e ∧ getTap (setGeo s d x) e = getTap s e :=
  ⟨rfl, rfl, rfl, rfl, rfl, rfl, rfl, rfl, rfl, rfl, rfl, rfl, rfl, rfl, rfl, rfl, rfl, rfl, rfl, rfl, rfl, rfl, rfl, rfl, rfl,
   rfl, rfl, rfl, rfl, rfl⟩

/-- `getGeo` reads what `setGeo` set. -/
@[simp] theorem getGeo_setGeo (s : State) (d : DieId) (x : GeoUnit) : getGeo (setGeo s d x) d = x :=
  qget_qset_same s.geo d x

/-- `setGeo` leaves the other dies' parts. -/
@[simp] theorem getGeo_setGeo_other (s : State) (d : DieId) (x : GeoUnit) {e : DieId} (h : e ≠ d) :
    getGeo (setGeo s d x) e = getGeo s e := qget_qset_other s.geo x h

/-- `setLamp` changes no other field. -/
@[simp] theorem setLamp_fields (s : State) (d : DieId) (x : Lamp) :
    (setLamp s d x).pending = s.pending ∧ (setLamp s d x).now = s.now ∧ (setLamp s d x).freeCtr = s.freeCtr ∧
    (setLamp s d x).nextId = s.nextId ∧ (setLamp s d x).board = s.board ∧ (setLamp s d x).mem = s.mem ∧
    (setLamp s d x).poison = s.poison ∧ (setLamp s d x).staging = s.staging ∧ (setLamp s d x).stagingBad = s.stagingBad ∧
    (setLamp s d x).pieces = s.pieces ∧ (setLamp s d x).sheets = s.sheets ∧ (setLamp s d x).ports = s.ports ∧
    (setLamp s d x).hregs = s.hregs ∧ (setLamp s d x).qregs = s.qregs ∧ (setLamp s d x).doorbells = s.doorbells ∧
    (setLamp s d x).forwards = s.forwards ∧ (setLamp s d x).relays = s.relays ∧ (setLamp s d x).frozen = s.frozen ∧
    (setLamp s d x).tables = s.tables ∧ (setLamp s d x).pins = s.pins ∧ (setLamp s d x).resets = s.resets ∧
    (setLamp s d x).tenRecords = s.tenRecords ∧ (setLamp s d x).queues = s.queues ∧ (setLamp s d x).stokers = s.stokers ∧
    (setLamp s d x).signals = s.signals ∧ (setLamp s d x).watches = s.watches ∧ (setLamp s d x).commits = s.commits ∧ (setLamp s d x).cores = s.cores ∧
    (setLamp s d x).memu = s.memu ∧ (setLamp s d x).dma = s.dma ∧ (setLamp s d x).ret = s.ret ∧ (setLamp s d x).gen = s.gen ∧
    (setLamp s d x).eas = s.eas ∧ (setLamp s d x).geo = s.geo ∧ (setLamp s d x).lampPkg = s.lampPkg ∧
    (setLamp s d x).times = s.times ∧ (setLamp s d x).pps = s.pps ∧ (setLamp s d x).logs = s.logs ∧
    (setLamp s d x).cords = s.cords ∧ (setLamp s d x).ends = s.ends ∧ (setLamp s d x).agree = s.agree ∧
    (setLamp s d x).cordRegs = s.cordRegs ∧ (setLamp s d x).otps = s.otps ∧ (setLamp s d x).secs = s.secs ∧
    (setLamp s d x).kilns = s.kilns ∧ (setLamp s d x).taps = s.taps :=
  ⟨rfl, rfl, rfl, rfl, rfl, rfl, rfl, rfl, rfl, rfl, rfl, rfl, rfl, rfl, rfl, rfl, rfl, rfl, rfl, rfl, rfl, rfl, rfl, rfl, rfl, rfl,
   rfl, rfl, rfl, rfl, rfl, rfl, rfl, rfl, rfl, rfl, rfl, rfl, rfl, rfl, rfl, rfl, rfl, rfl, rfl, rfl⟩

/-- `setLamp` changes no other part of a die. -/
@[simp] theorem setLamp_gets (s : State) (d : DieId) (x : Lamp) (e : DieId) :
    getStaging (setLamp s d x) e = getStaging s e ∧ getStagingBad (setLamp s d x) e = getStagingBad s e ∧
    getPieces (setLamp s d x) e = getPieces s e ∧ getSheet (setLamp s d x) e = getSheet s e ∧
    getPort (setLamp s d x) e = getPort s e ∧ getHregs (setLamp s d x) e = getHregs s e ∧
    getQregs (setLamp s d x) e = getQregs s e ∧ getBells (setLamp s d x) e = getBells s e ∧
    getForwards (setLamp s d x) e = getForwards s e ∧ getRelay (setLamp s d x) e = getRelay s e ∧
    getTables (setLamp s d x) e = getTables s e ∧ getPins (setLamp s d x) e = getPins s e ∧
    getTenRecs (setLamp s d x) e = getTenRecs s e ∧ getQueues (setLamp s d x) e = getQueues s e ∧
    getStk (setLamp s d x) e = getStk s e ∧ getCores (setLamp s d x) e = getCores s e ∧ getMemu (setLamp s d x) e = getMemu s e ∧
    getDma (setLamp s d x) e = getDma s e ∧ getRet (setLamp s d x) e = getRet s e ∧ getGen (setLamp s d x) e = getGen s e ∧
    getEas (setLamp s d x) e = getEas s e ∧ getGeo (setLamp s d x) e = getGeo s e ∧ getTime (setLamp s d x) e = getTime s e ∧
    getLog (setLamp s d x) e = getLog s e ∧ getEnds (setLamp s d x) e = getEnds s e ∧
    getCordRegs (setLamp s d x) e = getCordRegs s e ∧ getOtp (setLamp s d x) e = getOtp s e ∧
    getSec (setLamp s d x) e = getSec s e ∧ getKiln (setLamp s d x) e = getKiln s e ∧ getTap (setLamp s d x) e = getTap s e :=
  ⟨rfl, rfl, rfl, rfl, rfl, rfl, rfl, rfl, rfl, rfl, rfl, rfl, rfl, rfl, rfl, rfl, rfl, rfl, rfl, rfl, rfl, rfl, rfl, rfl, rfl,
   rfl, rfl, rfl, rfl, rfl⟩

/-- `getLamp` reads what `setLamp` set. -/
@[simp] theorem getLamp_setLamp (s : State) (d : DieId) (x : Lamp) : getLamp (setLamp s d x) d = x :=
  qget_qset_same s.lamps d x

/-- `setLamp` leaves the other dies' parts. -/
@[simp] theorem getLamp_setLamp_other (s : State) (d : DieId) (x : Lamp) {e : DieId} (h : e ≠ d) :
    getLamp (setLamp s d x) e = getLamp s e := qget_qset_other s.lamps x h

/-- `setTime` changes no other field. -/
@[simp] theorem setTime_fields (s : State) (d : DieId) (x : TimeD) :
    (setTime s d x).pending = s.pending ∧ (setTime s d x).now = s.now ∧ (setTime s d x).freeCtr = s.freeCtr ∧
    (setTime s d x).nextId = s.nextId ∧ (setTime s d x).board = s.board ∧ (setTime s d x).mem = s.mem ∧
    (setTime s d x).poison = s.poison ∧ (setTime s d x).staging = s.staging ∧ (setTime s d x).stagingBad = s.stagingBad ∧
    (setTime s d x).pieces = s.pieces ∧ (setTime s d x).sheets = s.sheets ∧ (setTime s d x).ports = s.ports ∧
    (setTime s d x).hregs = s.hregs ∧ (setTime s d x).qregs = s.qregs ∧ (setTime s d x).doorbells = s.doorbells ∧
    (setTime s d x).forwards = s.forwards ∧ (setTime s d x).relays = s.relays ∧ (setTime s d x).frozen = s.frozen ∧
    (setTime s d x).tables = s.tables ∧ (setTime s d x).pins = s.pins ∧ (setTime s d x).resets = s.resets ∧
    (setTime s d x).tenRecords = s.tenRecords ∧ (setTime s d x).queues = s.queues ∧ (setTime s d x).stokers = s.stokers ∧
    (setTime s d x).signals = s.signals ∧ (setTime s d x).watches = s.watches ∧ (setTime s d x).commits = s.commits ∧ (setTime s d x).cores = s.cores ∧
    (setTime s d x).memu = s.memu ∧ (setTime s d x).dma = s.dma ∧ (setTime s d x).ret = s.ret ∧ (setTime s d x).gen = s.gen ∧
    (setTime s d x).eas = s.eas ∧ (setTime s d x).geo = s.geo ∧ (setTime s d x).lamps = s.lamps ∧
    (setTime s d x).lampPkg = s.lampPkg ∧ (setTime s d x).pps = s.pps ∧ (setTime s d x).logs = s.logs ∧
    (setTime s d x).cords = s.cords ∧ (setTime s d x).ends = s.ends ∧ (setTime s d x).agree = s.agree ∧
    (setTime s d x).cordRegs = s.cordRegs ∧ (setTime s d x).otps = s.otps ∧ (setTime s d x).secs = s.secs ∧
    (setTime s d x).kilns = s.kilns ∧ (setTime s d x).taps = s.taps :=
  ⟨rfl, rfl, rfl, rfl, rfl, rfl, rfl, rfl, rfl, rfl, rfl, rfl, rfl, rfl, rfl, rfl, rfl, rfl, rfl, rfl, rfl, rfl, rfl, rfl, rfl, rfl,
   rfl, rfl, rfl, rfl, rfl, rfl, rfl, rfl, rfl, rfl, rfl, rfl, rfl, rfl, rfl, rfl, rfl, rfl, rfl, rfl⟩

/-- `setTime` changes no other part of a die. -/
@[simp] theorem setTime_gets (s : State) (d : DieId) (x : TimeD) (e : DieId) :
    getStaging (setTime s d x) e = getStaging s e ∧ getStagingBad (setTime s d x) e = getStagingBad s e ∧
    getPieces (setTime s d x) e = getPieces s e ∧ getSheet (setTime s d x) e = getSheet s e ∧
    getPort (setTime s d x) e = getPort s e ∧ getHregs (setTime s d x) e = getHregs s e ∧
    getQregs (setTime s d x) e = getQregs s e ∧ getBells (setTime s d x) e = getBells s e ∧
    getForwards (setTime s d x) e = getForwards s e ∧ getRelay (setTime s d x) e = getRelay s e ∧
    getTables (setTime s d x) e = getTables s e ∧ getPins (setTime s d x) e = getPins s e ∧
    getTenRecs (setTime s d x) e = getTenRecs s e ∧ getQueues (setTime s d x) e = getQueues s e ∧
    getStk (setTime s d x) e = getStk s e ∧ getCores (setTime s d x) e = getCores s e ∧ getMemu (setTime s d x) e = getMemu s e ∧
    getDma (setTime s d x) e = getDma s e ∧ getRet (setTime s d x) e = getRet s e ∧ getGen (setTime s d x) e = getGen s e ∧
    getEas (setTime s d x) e = getEas s e ∧ getGeo (setTime s d x) e = getGeo s e ∧ getLamp (setTime s d x) e = getLamp s e ∧
    getLog (setTime s d x) e = getLog s e ∧ getEnds (setTime s d x) e = getEnds s e ∧
    getCordRegs (setTime s d x) e = getCordRegs s e ∧ getOtp (setTime s d x) e = getOtp s e ∧
    getSec (setTime s d x) e = getSec s e ∧ getKiln (setTime s d x) e = getKiln s e ∧ getTap (setTime s d x) e = getTap s e :=
  ⟨rfl, rfl, rfl, rfl, rfl, rfl, rfl, rfl, rfl, rfl, rfl, rfl, rfl, rfl, rfl, rfl, rfl, rfl, rfl, rfl, rfl, rfl, rfl, rfl, rfl,
   rfl, rfl, rfl, rfl, rfl⟩

/-- `getTime` reads what `setTime` set. -/
@[simp] theorem getTime_setTime (s : State) (d : DieId) (x : TimeD) : getTime (setTime s d x) d = x :=
  qget_qset_same s.times d x

/-- `setTime` leaves the other dies' parts. -/
@[simp] theorem getTime_setTime_other (s : State) (d : DieId) (x : TimeD) {e : DieId} (h : e ≠ d) :
    getTime (setTime s d x) e = getTime s e := qget_qset_other s.times x h

/-- `setLog` changes no other field. -/
@[simp] theorem setLog_fields (s : State) (d : DieId) (x : LogBook) :
    (setLog s d x).pending = s.pending ∧ (setLog s d x).now = s.now ∧ (setLog s d x).freeCtr = s.freeCtr ∧
    (setLog s d x).nextId = s.nextId ∧ (setLog s d x).board = s.board ∧ (setLog s d x).mem = s.mem ∧
    (setLog s d x).poison = s.poison ∧ (setLog s d x).staging = s.staging ∧ (setLog s d x).stagingBad = s.stagingBad ∧
    (setLog s d x).pieces = s.pieces ∧ (setLog s d x).sheets = s.sheets ∧ (setLog s d x).ports = s.ports ∧
    (setLog s d x).hregs = s.hregs ∧ (setLog s d x).qregs = s.qregs ∧ (setLog s d x).doorbells = s.doorbells ∧
    (setLog s d x).forwards = s.forwards ∧ (setLog s d x).relays = s.relays ∧ (setLog s d x).frozen = s.frozen ∧
    (setLog s d x).tables = s.tables ∧ (setLog s d x).pins = s.pins ∧ (setLog s d x).resets = s.resets ∧
    (setLog s d x).tenRecords = s.tenRecords ∧ (setLog s d x).queues = s.queues ∧ (setLog s d x).stokers = s.stokers ∧
    (setLog s d x).signals = s.signals ∧ (setLog s d x).watches = s.watches ∧ (setLog s d x).commits = s.commits ∧ (setLog s d x).cores = s.cores ∧
    (setLog s d x).memu = s.memu ∧ (setLog s d x).dma = s.dma ∧ (setLog s d x).ret = s.ret ∧ (setLog s d x).gen = s.gen ∧
    (setLog s d x).eas = s.eas ∧ (setLog s d x).geo = s.geo ∧ (setLog s d x).lamps = s.lamps ∧
    (setLog s d x).lampPkg = s.lampPkg ∧ (setLog s d x).times = s.times ∧ (setLog s d x).pps = s.pps ∧
    (setLog s d x).cords = s.cords ∧ (setLog s d x).ends = s.ends ∧ (setLog s d x).agree = s.agree ∧
    (setLog s d x).cordRegs = s.cordRegs ∧ (setLog s d x).otps = s.otps ∧ (setLog s d x).secs = s.secs ∧
    (setLog s d x).kilns = s.kilns ∧ (setLog s d x).taps = s.taps :=
  ⟨rfl, rfl, rfl, rfl, rfl, rfl, rfl, rfl, rfl, rfl, rfl, rfl, rfl, rfl, rfl, rfl, rfl, rfl, rfl, rfl, rfl, rfl, rfl, rfl, rfl, rfl,
   rfl, rfl, rfl, rfl, rfl, rfl, rfl, rfl, rfl, rfl, rfl, rfl, rfl, rfl, rfl, rfl, rfl, rfl, rfl, rfl⟩

/-- `setLog` changes no other part of a die. -/
@[simp] theorem setLog_gets (s : State) (d : DieId) (x : LogBook) (e : DieId) :
    getStaging (setLog s d x) e = getStaging s e ∧ getStagingBad (setLog s d x) e = getStagingBad s e ∧
    getPieces (setLog s d x) e = getPieces s e ∧ getSheet (setLog s d x) e = getSheet s e ∧
    getPort (setLog s d x) e = getPort s e ∧ getHregs (setLog s d x) e = getHregs s e ∧
    getQregs (setLog s d x) e = getQregs s e ∧ getBells (setLog s d x) e = getBells s e ∧
    getForwards (setLog s d x) e = getForwards s e ∧ getRelay (setLog s d x) e = getRelay s e ∧
    getTables (setLog s d x) e = getTables s e ∧ getPins (setLog s d x) e = getPins s e ∧
    getTenRecs (setLog s d x) e = getTenRecs s e ∧ getQueues (setLog s d x) e = getQueues s e ∧
    getStk (setLog s d x) e = getStk s e ∧ getCores (setLog s d x) e = getCores s e ∧ getMemu (setLog s d x) e = getMemu s e ∧
    getDma (setLog s d x) e = getDma s e ∧ getRet (setLog s d x) e = getRet s e ∧ getGen (setLog s d x) e = getGen s e ∧
    getEas (setLog s d x) e = getEas s e ∧ getGeo (setLog s d x) e = getGeo s e ∧ getLamp (setLog s d x) e = getLamp s e ∧
    getTime (setLog s d x) e = getTime s e ∧ getEnds (setLog s d x) e = getEnds s e ∧
    getCordRegs (setLog s d x) e = getCordRegs s e ∧ getOtp (setLog s d x) e = getOtp s e ∧
    getSec (setLog s d x) e = getSec s e ∧ getKiln (setLog s d x) e = getKiln s e ∧ getTap (setLog s d x) e = getTap s e :=
  ⟨rfl, rfl, rfl, rfl, rfl, rfl, rfl, rfl, rfl, rfl, rfl, rfl, rfl, rfl, rfl, rfl, rfl, rfl, rfl, rfl, rfl, rfl, rfl, rfl, rfl,
   rfl, rfl, rfl, rfl, rfl⟩

/-- `getLog` reads what `setLog` set. -/
@[simp] theorem getLog_setLog (s : State) (d : DieId) (x : LogBook) : getLog (setLog s d x) d = x :=
  qget_qset_same s.logs d x

/-- `setLog` leaves the other dies' parts. -/
@[simp] theorem getLog_setLog_other (s : State) (d : DieId) (x : LogBook) {e : DieId} (h : e ≠ d) :
    getLog (setLog s d x) e = getLog s e := qget_qset_other s.logs x h

/-- `setEnds` changes no other field. -/
@[simp] theorem setEnds_fields (s : State) (d : DieId) (x : List CordEnd) :
    (setEnds s d x).pending = s.pending ∧ (setEnds s d x).now = s.now ∧ (setEnds s d x).freeCtr = s.freeCtr ∧
    (setEnds s d x).nextId = s.nextId ∧ (setEnds s d x).board = s.board ∧ (setEnds s d x).mem = s.mem ∧
    (setEnds s d x).poison = s.poison ∧ (setEnds s d x).staging = s.staging ∧ (setEnds s d x).stagingBad = s.stagingBad ∧
    (setEnds s d x).pieces = s.pieces ∧ (setEnds s d x).sheets = s.sheets ∧ (setEnds s d x).ports = s.ports ∧
    (setEnds s d x).hregs = s.hregs ∧ (setEnds s d x).qregs = s.qregs ∧ (setEnds s d x).doorbells = s.doorbells ∧
    (setEnds s d x).forwards = s.forwards ∧ (setEnds s d x).relays = s.relays ∧ (setEnds s d x).frozen = s.frozen ∧
    (setEnds s d x).tables = s.tables ∧ (setEnds s d x).pins = s.pins ∧ (setEnds s d x).resets = s.resets ∧
    (setEnds s d x).tenRecords = s.tenRecords ∧ (setEnds s d x).queues = s.queues ∧ (setEnds s d x).stokers = s.stokers ∧
    (setEnds s d x).signals = s.signals ∧ (setEnds s d x).watches = s.watches ∧ (setEnds s d x).commits = s.commits ∧ (setEnds s d x).cores = s.cores ∧
    (setEnds s d x).memu = s.memu ∧ (setEnds s d x).dma = s.dma ∧ (setEnds s d x).ret = s.ret ∧ (setEnds s d x).gen = s.gen ∧
    (setEnds s d x).eas = s.eas ∧ (setEnds s d x).geo = s.geo ∧ (setEnds s d x).lamps = s.lamps ∧
    (setEnds s d x).lampPkg = s.lampPkg ∧ (setEnds s d x).times = s.times ∧ (setEnds s d x).pps = s.pps ∧
    (setEnds s d x).logs = s.logs ∧ (setEnds s d x).cords = s.cords ∧ (setEnds s d x).agree = s.agree ∧
    (setEnds s d x).cordRegs = s.cordRegs ∧ (setEnds s d x).otps = s.otps ∧ (setEnds s d x).secs = s.secs ∧
    (setEnds s d x).kilns = s.kilns ∧ (setEnds s d x).taps = s.taps :=
  ⟨rfl, rfl, rfl, rfl, rfl, rfl, rfl, rfl, rfl, rfl, rfl, rfl, rfl, rfl, rfl, rfl, rfl, rfl, rfl, rfl, rfl, rfl, rfl, rfl, rfl, rfl,
   rfl, rfl, rfl, rfl, rfl, rfl, rfl, rfl, rfl, rfl, rfl, rfl, rfl, rfl, rfl, rfl, rfl, rfl, rfl, rfl⟩

/-- `setEnds` changes no other part of a die. -/
@[simp] theorem setEnds_gets (s : State) (d : DieId) (x : List CordEnd) (e : DieId) :
    getStaging (setEnds s d x) e = getStaging s e ∧ getStagingBad (setEnds s d x) e = getStagingBad s e ∧
    getPieces (setEnds s d x) e = getPieces s e ∧ getSheet (setEnds s d x) e = getSheet s e ∧
    getPort (setEnds s d x) e = getPort s e ∧ getHregs (setEnds s d x) e = getHregs s e ∧
    getQregs (setEnds s d x) e = getQregs s e ∧ getBells (setEnds s d x) e = getBells s e ∧
    getForwards (setEnds s d x) e = getForwards s e ∧ getRelay (setEnds s d x) e = getRelay s e ∧
    getTables (setEnds s d x) e = getTables s e ∧ getPins (setEnds s d x) e = getPins s e ∧
    getTenRecs (setEnds s d x) e = getTenRecs s e ∧ getQueues (setEnds s d x) e = getQueues s e ∧
    getStk (setEnds s d x) e = getStk s e ∧ getCores (setEnds s d x) e = getCores s e ∧ getMemu (setEnds s d x) e = getMemu s e ∧
    getDma (setEnds s d x) e = getDma s e ∧ getRet (setEnds s d x) e = getRet s e ∧ getGen (setEnds s d x) e = getGen s e ∧
    getEas (setEnds s d x) e = getEas s e ∧ getGeo (setEnds s d x) e = getGeo s e ∧ getLamp (setEnds s d x) e = getLamp s e ∧
    getTime (setEnds s d x) e = getTime s e ∧ getLog (setEnds s d x) e = getLog s e ∧
    getCordRegs (setEnds s d x) e = getCordRegs s e ∧ getOtp (setEnds s d x) e = getOtp s e ∧
    getSec (setEnds s d x) e = getSec s e ∧ getKiln (setEnds s d x) e = getKiln s e ∧ getTap (setEnds s d x) e = getTap s e :=
  ⟨rfl, rfl, rfl, rfl, rfl, rfl, rfl, rfl, rfl, rfl, rfl, rfl, rfl, rfl, rfl, rfl, rfl, rfl, rfl, rfl, rfl, rfl, rfl, rfl, rfl,
   rfl, rfl, rfl, rfl, rfl⟩

/-- `getEnds` reads what `setEnds` set. -/
@[simp] theorem getEnds_setEnds (s : State) (d : DieId) (x : List CordEnd) : getEnds (setEnds s d x) d = x :=
  qget_qset_same s.ends d x

/-- `setEnds` leaves the other dies' parts. -/
@[simp] theorem getEnds_setEnds_other (s : State) (d : DieId) (x : List CordEnd) {e : DieId} (h : e ≠ d) :
    getEnds (setEnds s d x) e = getEnds s e := qget_qset_other s.ends x h

/-- `setCordRegs` changes no other field. -/
@[simp] theorem setCordRegs_fields (s : State) (d : DieId) (x : CordRegs) :
    (setCordRegs s d x).pending = s.pending ∧ (setCordRegs s d x).now = s.now ∧ (setCordRegs s d x).freeCtr = s.freeCtr ∧
    (setCordRegs s d x).nextId = s.nextId ∧ (setCordRegs s d x).board = s.board ∧ (setCordRegs s d x).mem = s.mem ∧
    (setCordRegs s d x).poison = s.poison ∧ (setCordRegs s d x).staging = s.staging ∧
    (setCordRegs s d x).stagingBad = s.stagingBad ∧ (setCordRegs s d x).pieces = s.pieces ∧
    (setCordRegs s d x).sheets = s.sheets ∧ (setCordRegs s d x).ports = s.ports ∧ (setCordRegs s d x).hregs = s.hregs ∧
    (setCordRegs s d x).qregs = s.qregs ∧ (setCordRegs s d x).doorbells = s.doorbells ∧
    (setCordRegs s d x).forwards = s.forwards ∧ (setCordRegs s d x).relays = s.relays ∧ (setCordRegs s d x).frozen = s.frozen ∧
    (setCordRegs s d x).tables = s.tables ∧ (setCordRegs s d x).pins = s.pins ∧ (setCordRegs s d x).resets = s.resets ∧
    (setCordRegs s d x).tenRecords = s.tenRecords ∧ (setCordRegs s d x).queues = s.queues ∧
    (setCordRegs s d x).stokers = s.stokers ∧ (setCordRegs s d x).signals = s.signals ∧ (setCordRegs s d x).watches = s.watches ∧ (setCordRegs s d x).commits = s.commits ∧
    (setCordRegs s d x).cores = s.cores ∧ (setCordRegs s d x).memu = s.memu ∧ (setCordRegs s d x).dma = s.dma ∧
    (setCordRegs s d x).ret = s.ret ∧ (setCordRegs s d x).gen = s.gen ∧ (setCordRegs s d x).eas = s.eas ∧
    (setCordRegs s d x).geo = s.geo ∧ (setCordRegs s d x).lamps = s.lamps ∧ (setCordRegs s d x).lampPkg = s.lampPkg ∧
    (setCordRegs s d x).times = s.times ∧ (setCordRegs s d x).pps = s.pps ∧ (setCordRegs s d x).logs = s.logs ∧
    (setCordRegs s d x).cords = s.cords ∧ (setCordRegs s d x).ends = s.ends ∧ (setCordRegs s d x).agree = s.agree ∧
    (setCordRegs s d x).otps = s.otps ∧ (setCordRegs s d x).secs = s.secs ∧ (setCordRegs s d x).kilns = s.kilns ∧
    (setCordRegs s d x).taps = s.taps :=
  ⟨rfl, rfl, rfl, rfl, rfl, rfl, rfl, rfl, rfl, rfl, rfl, rfl, rfl, rfl, rfl, rfl, rfl, rfl, rfl, rfl, rfl, rfl, rfl, rfl, rfl, rfl,
   rfl, rfl, rfl, rfl, rfl, rfl, rfl, rfl, rfl, rfl, rfl, rfl, rfl, rfl, rfl, rfl, rfl, rfl, rfl, rfl⟩

/-- `setCordRegs` changes no other part of a die. -/
@[simp] theorem setCordRegs_gets (s : State) (d : DieId) (x : CordRegs) (e : DieId) :
    getStaging (setCordRegs s d x) e = getStaging s e ∧ getStagingBad (setCordRegs s d x) e = getStagingBad s e ∧
    getPieces (setCordRegs s d x) e = getPieces s e ∧ getSheet (setCordRegs s d x) e = getSheet s e ∧
    getPort (setCordRegs s d x) e = getPort s e ∧ getHregs (setCordRegs s d x) e = getHregs s e ∧
    getQregs (setCordRegs s d x) e = getQregs s e ∧ getBells (setCordRegs s d x) e = getBells s e ∧
    getForwards (setCordRegs s d x) e = getForwards s e ∧ getRelay (setCordRegs s d x) e = getRelay s e ∧
    getTables (setCordRegs s d x) e = getTables s e ∧ getPins (setCordRegs s d x) e = getPins s e ∧
    getTenRecs (setCordRegs s d x) e = getTenRecs s e ∧ getQueues (setCordRegs s d x) e = getQueues s e ∧
    getStk (setCordRegs s d x) e = getStk s e ∧ getCores (setCordRegs s d x) e = getCores s e ∧
    getMemu (setCordRegs s d x) e = getMemu s e ∧ getDma (setCordRegs s d x) e = getDma s e ∧
    getRet (setCordRegs s d x) e = getRet s e ∧ getGen (setCordRegs s d x) e = getGen s e ∧
    getEas (setCordRegs s d x) e = getEas s e ∧ getGeo (setCordRegs s d x) e = getGeo s e ∧
    getLamp (setCordRegs s d x) e = getLamp s e ∧ getTime (setCordRegs s d x) e = getTime s e ∧
    getLog (setCordRegs s d x) e = getLog s e ∧ getEnds (setCordRegs s d x) e = getEnds s e ∧
    getOtp (setCordRegs s d x) e = getOtp s e ∧ getSec (setCordRegs s d x) e = getSec s e ∧
    getKiln (setCordRegs s d x) e = getKiln s e ∧ getTap (setCordRegs s d x) e = getTap s e :=
  ⟨rfl, rfl, rfl, rfl, rfl, rfl, rfl, rfl, rfl, rfl, rfl, rfl, rfl, rfl, rfl, rfl, rfl, rfl, rfl, rfl, rfl, rfl, rfl, rfl, rfl,
   rfl, rfl, rfl, rfl, rfl⟩

/-- `getCordRegs` reads what `setCordRegs` set. -/
@[simp] theorem getCordRegs_setCordRegs (s : State) (d : DieId) (x : CordRegs) : getCordRegs (setCordRegs s d x) d = x :=
  qget_qset_same s.cordRegs d x

/-- `setCordRegs` leaves the other dies' parts. -/
@[simp] theorem getCordRegs_setCordRegs_other (s : State) (d : DieId) (x : CordRegs) {e : DieId} (h : e ≠ d) :
    getCordRegs (setCordRegs s d x) e = getCordRegs s e := qget_qset_other s.cordRegs x h

/-- `setOtp` changes no other field. -/
@[simp] theorem setOtp_fields (s : State) (d : DieId) (x : Otp) :
    (setOtp s d x).pending = s.pending ∧ (setOtp s d x).now = s.now ∧ (setOtp s d x).freeCtr = s.freeCtr ∧
    (setOtp s d x).nextId = s.nextId ∧ (setOtp s d x).board = s.board ∧ (setOtp s d x).mem = s.mem ∧
    (setOtp s d x).poison = s.poison ∧ (setOtp s d x).staging = s.staging ∧ (setOtp s d x).stagingBad = s.stagingBad ∧
    (setOtp s d x).pieces = s.pieces ∧ (setOtp s d x).sheets = s.sheets ∧ (setOtp s d x).ports = s.ports ∧
    (setOtp s d x).hregs = s.hregs ∧ (setOtp s d x).qregs = s.qregs ∧ (setOtp s d x).doorbells = s.doorbells ∧
    (setOtp s d x).forwards = s.forwards ∧ (setOtp s d x).relays = s.relays ∧ (setOtp s d x).frozen = s.frozen ∧
    (setOtp s d x).tables = s.tables ∧ (setOtp s d x).pins = s.pins ∧ (setOtp s d x).resets = s.resets ∧
    (setOtp s d x).tenRecords = s.tenRecords ∧ (setOtp s d x).queues = s.queues ∧ (setOtp s d x).stokers = s.stokers ∧
    (setOtp s d x).signals = s.signals ∧ (setOtp s d x).watches = s.watches ∧ (setOtp s d x).commits = s.commits ∧ (setOtp s d x).cores = s.cores ∧
    (setOtp s d x).memu = s.memu ∧ (setOtp s d x).dma = s.dma ∧ (setOtp s d x).ret = s.ret ∧ (setOtp s d x).gen = s.gen ∧
    (setOtp s d x).eas = s.eas ∧ (setOtp s d x).geo = s.geo ∧ (setOtp s d x).lamps = s.lamps ∧
    (setOtp s d x).lampPkg = s.lampPkg ∧ (setOtp s d x).times = s.times ∧ (setOtp s d x).pps = s.pps ∧
    (setOtp s d x).logs = s.logs ∧ (setOtp s d x).cords = s.cords ∧ (setOtp s d x).ends = s.ends ∧
    (setOtp s d x).agree = s.agree ∧ (setOtp s d x).cordRegs = s.cordRegs ∧ (setOtp s d x).secs = s.secs ∧
    (setOtp s d x).kilns = s.kilns ∧ (setOtp s d x).taps = s.taps :=
  ⟨rfl, rfl, rfl, rfl, rfl, rfl, rfl, rfl, rfl, rfl, rfl, rfl, rfl, rfl, rfl, rfl, rfl, rfl, rfl, rfl, rfl, rfl, rfl, rfl, rfl, rfl,
   rfl, rfl, rfl, rfl, rfl, rfl, rfl, rfl, rfl, rfl, rfl, rfl, rfl, rfl, rfl, rfl, rfl, rfl, rfl, rfl⟩

/-- `setOtp` changes no other part of a die. -/
@[simp] theorem setOtp_gets (s : State) (d : DieId) (x : Otp) (e : DieId) :
    getStaging (setOtp s d x) e = getStaging s e ∧ getStagingBad (setOtp s d x) e = getStagingBad s e ∧
    getPieces (setOtp s d x) e = getPieces s e ∧ getSheet (setOtp s d x) e = getSheet s e ∧
    getPort (setOtp s d x) e = getPort s e ∧ getHregs (setOtp s d x) e = getHregs s e ∧
    getQregs (setOtp s d x) e = getQregs s e ∧ getBells (setOtp s d x) e = getBells s e ∧
    getForwards (setOtp s d x) e = getForwards s e ∧ getRelay (setOtp s d x) e = getRelay s e ∧
    getTables (setOtp s d x) e = getTables s e ∧ getPins (setOtp s d x) e = getPins s e ∧
    getTenRecs (setOtp s d x) e = getTenRecs s e ∧ getQueues (setOtp s d x) e = getQueues s e ∧
    getStk (setOtp s d x) e = getStk s e ∧ getCores (setOtp s d x) e = getCores s e ∧ getMemu (setOtp s d x) e = getMemu s e ∧
    getDma (setOtp s d x) e = getDma s e ∧ getRet (setOtp s d x) e = getRet s e ∧ getGen (setOtp s d x) e = getGen s e ∧
    getEas (setOtp s d x) e = getEas s e ∧ getGeo (setOtp s d x) e = getGeo s e ∧ getLamp (setOtp s d x) e = getLamp s e ∧
    getTime (setOtp s d x) e = getTime s e ∧ getLog (setOtp s d x) e = getLog s e ∧ getEnds (setOtp s d x) e = getEnds s e ∧
    getCordRegs (setOtp s d x) e = getCordRegs s e ∧ getSec (setOtp s d x) e = getSec s e ∧
    getKiln (setOtp s d x) e = getKiln s e ∧ getTap (setOtp s d x) e = getTap s e :=
  ⟨rfl, rfl, rfl, rfl, rfl, rfl, rfl, rfl, rfl, rfl, rfl, rfl, rfl, rfl, rfl, rfl, rfl, rfl, rfl, rfl, rfl, rfl, rfl, rfl, rfl,
   rfl, rfl, rfl, rfl, rfl⟩

/-- `getOtp` reads what `setOtp` set. -/
@[simp] theorem getOtp_setOtp (s : State) (d : DieId) (x : Otp) : getOtp (setOtp s d x) d = x :=
  qget_qset_same s.otps d x

/-- `setOtp` leaves the other dies' parts. -/
@[simp] theorem getOtp_setOtp_other (s : State) (d : DieId) (x : Otp) {e : DieId} (h : e ≠ d) :
    getOtp (setOtp s d x) e = getOtp s e := qget_qset_other s.otps x h

/-- `setSec` changes no other field. -/
@[simp] theorem setSec_fields (s : State) (d : DieId) (x : Sec) :
    (setSec s d x).pending = s.pending ∧ (setSec s d x).now = s.now ∧ (setSec s d x).freeCtr = s.freeCtr ∧
    (setSec s d x).nextId = s.nextId ∧ (setSec s d x).board = s.board ∧ (setSec s d x).mem = s.mem ∧
    (setSec s d x).poison = s.poison ∧ (setSec s d x).staging = s.staging ∧ (setSec s d x).stagingBad = s.stagingBad ∧
    (setSec s d x).pieces = s.pieces ∧ (setSec s d x).sheets = s.sheets ∧ (setSec s d x).ports = s.ports ∧
    (setSec s d x).hregs = s.hregs ∧ (setSec s d x).qregs = s.qregs ∧ (setSec s d x).doorbells = s.doorbells ∧
    (setSec s d x).forwards = s.forwards ∧ (setSec s d x).relays = s.relays ∧ (setSec s d x).frozen = s.frozen ∧
    (setSec s d x).tables = s.tables ∧ (setSec s d x).pins = s.pins ∧ (setSec s d x).resets = s.resets ∧
    (setSec s d x).tenRecords = s.tenRecords ∧ (setSec s d x).queues = s.queues ∧ (setSec s d x).stokers = s.stokers ∧
    (setSec s d x).signals = s.signals ∧ (setSec s d x).watches = s.watches ∧ (setSec s d x).commits = s.commits ∧ (setSec s d x).cores = s.cores ∧
    (setSec s d x).memu = s.memu ∧ (setSec s d x).dma = s.dma ∧ (setSec s d x).ret = s.ret ∧ (setSec s d x).gen = s.gen ∧
    (setSec s d x).eas = s.eas ∧ (setSec s d x).geo = s.geo ∧ (setSec s d x).lamps = s.lamps ∧
    (setSec s d x).lampPkg = s.lampPkg ∧ (setSec s d x).times = s.times ∧ (setSec s d x).pps = s.pps ∧
    (setSec s d x).logs = s.logs ∧ (setSec s d x).cords = s.cords ∧ (setSec s d x).ends = s.ends ∧
    (setSec s d x).agree = s.agree ∧ (setSec s d x).cordRegs = s.cordRegs ∧ (setSec s d x).otps = s.otps ∧
    (setSec s d x).kilns = s.kilns ∧ (setSec s d x).taps = s.taps :=
  ⟨rfl, rfl, rfl, rfl, rfl, rfl, rfl, rfl, rfl, rfl, rfl, rfl, rfl, rfl, rfl, rfl, rfl, rfl, rfl, rfl, rfl, rfl, rfl, rfl, rfl, rfl,
   rfl, rfl, rfl, rfl, rfl, rfl, rfl, rfl, rfl, rfl, rfl, rfl, rfl, rfl, rfl, rfl, rfl, rfl, rfl, rfl⟩

/-- `setSec` changes no other part of a die. -/
@[simp] theorem setSec_gets (s : State) (d : DieId) (x : Sec) (e : DieId) :
    getStaging (setSec s d x) e = getStaging s e ∧ getStagingBad (setSec s d x) e = getStagingBad s e ∧
    getPieces (setSec s d x) e = getPieces s e ∧ getSheet (setSec s d x) e = getSheet s e ∧
    getPort (setSec s d x) e = getPort s e ∧ getHregs (setSec s d x) e = getHregs s e ∧
    getQregs (setSec s d x) e = getQregs s e ∧ getBells (setSec s d x) e = getBells s e ∧
    getForwards (setSec s d x) e = getForwards s e ∧ getRelay (setSec s d x) e = getRelay s e ∧
    getTables (setSec s d x) e = getTables s e ∧ getPins (setSec s d x) e = getPins s e ∧
    getTenRecs (setSec s d x) e = getTenRecs s e ∧ getQueues (setSec s d x) e = getQueues s e ∧
    getStk (setSec s d x) e = getStk s e ∧ getCores (setSec s d x) e = getCores s e ∧ getMemu (setSec s d x) e = getMemu s e ∧
    getDma (setSec s d x) e = getDma s e ∧ getRet (setSec s d x) e = getRet s e ∧ getGen (setSec s d x) e = getGen s e ∧
    getEas (setSec s d x) e = getEas s e ∧ getGeo (setSec s d x) e = getGeo s e ∧ getLamp (setSec s d x) e = getLamp s e ∧
    getTime (setSec s d x) e = getTime s e ∧ getLog (setSec s d x) e = getLog s e ∧ getEnds (setSec s d x) e = getEnds s e ∧
    getCordRegs (setSec s d x) e = getCordRegs s e ∧ getOtp (setSec s d x) e = getOtp s e ∧
    getKiln (setSec s d x) e = getKiln s e ∧ getTap (setSec s d x) e = getTap s e :=
  ⟨rfl, rfl, rfl, rfl, rfl, rfl, rfl, rfl, rfl, rfl, rfl, rfl, rfl, rfl, rfl, rfl, rfl, rfl, rfl, rfl, rfl, rfl, rfl, rfl, rfl,
   rfl, rfl, rfl, rfl, rfl⟩

/-- `getSec` reads what `setSec` set. -/
@[simp] theorem getSec_setSec (s : State) (d : DieId) (x : Sec) : getSec (setSec s d x) d = x :=
  qget_qset_same s.secs d x

/-- `setSec` leaves the other dies' parts. -/
@[simp] theorem getSec_setSec_other (s : State) (d : DieId) (x : Sec) {e : DieId} (h : e ≠ d) :
    getSec (setSec s d x) e = getSec s e := qget_qset_other s.secs x h

/-- `setKiln` changes no other field. -/
@[simp] theorem setKiln_fields (s : State) (d : DieId) (x : Kiln) :
    (setKiln s d x).pending = s.pending ∧ (setKiln s d x).now = s.now ∧ (setKiln s d x).freeCtr = s.freeCtr ∧
    (setKiln s d x).nextId = s.nextId ∧ (setKiln s d x).board = s.board ∧ (setKiln s d x).mem = s.mem ∧
    (setKiln s d x).poison = s.poison ∧ (setKiln s d x).staging = s.staging ∧ (setKiln s d x).stagingBad = s.stagingBad ∧
    (setKiln s d x).pieces = s.pieces ∧ (setKiln s d x).sheets = s.sheets ∧ (setKiln s d x).ports = s.ports ∧
    (setKiln s d x).hregs = s.hregs ∧ (setKiln s d x).qregs = s.qregs ∧ (setKiln s d x).doorbells = s.doorbells ∧
    (setKiln s d x).forwards = s.forwards ∧ (setKiln s d x).relays = s.relays ∧ (setKiln s d x).frozen = s.frozen ∧
    (setKiln s d x).tables = s.tables ∧ (setKiln s d x).pins = s.pins ∧ (setKiln s d x).resets = s.resets ∧
    (setKiln s d x).tenRecords = s.tenRecords ∧ (setKiln s d x).queues = s.queues ∧ (setKiln s d x).stokers = s.stokers ∧
    (setKiln s d x).signals = s.signals ∧ (setKiln s d x).watches = s.watches ∧ (setKiln s d x).commits = s.commits ∧ (setKiln s d x).cores = s.cores ∧
    (setKiln s d x).memu = s.memu ∧ (setKiln s d x).dma = s.dma ∧ (setKiln s d x).ret = s.ret ∧ (setKiln s d x).gen = s.gen ∧
    (setKiln s d x).eas = s.eas ∧ (setKiln s d x).geo = s.geo ∧ (setKiln s d x).lamps = s.lamps ∧
    (setKiln s d x).lampPkg = s.lampPkg ∧ (setKiln s d x).times = s.times ∧ (setKiln s d x).pps = s.pps ∧
    (setKiln s d x).logs = s.logs ∧ (setKiln s d x).cords = s.cords ∧ (setKiln s d x).ends = s.ends ∧
    (setKiln s d x).agree = s.agree ∧ (setKiln s d x).cordRegs = s.cordRegs ∧ (setKiln s d x).otps = s.otps ∧
    (setKiln s d x).secs = s.secs ∧ (setKiln s d x).taps = s.taps :=
  ⟨rfl, rfl, rfl, rfl, rfl, rfl, rfl, rfl, rfl, rfl, rfl, rfl, rfl, rfl, rfl, rfl, rfl, rfl, rfl, rfl, rfl, rfl, rfl, rfl, rfl, rfl,
   rfl, rfl, rfl, rfl, rfl, rfl, rfl, rfl, rfl, rfl, rfl, rfl, rfl, rfl, rfl, rfl, rfl, rfl, rfl, rfl⟩

/-- `setKiln` changes no other part of a die. -/
@[simp] theorem setKiln_gets (s : State) (d : DieId) (x : Kiln) (e : DieId) :
    getStaging (setKiln s d x) e = getStaging s e ∧ getStagingBad (setKiln s d x) e = getStagingBad s e ∧
    getPieces (setKiln s d x) e = getPieces s e ∧ getSheet (setKiln s d x) e = getSheet s e ∧
    getPort (setKiln s d x) e = getPort s e ∧ getHregs (setKiln s d x) e = getHregs s e ∧
    getQregs (setKiln s d x) e = getQregs s e ∧ getBells (setKiln s d x) e = getBells s e ∧
    getForwards (setKiln s d x) e = getForwards s e ∧ getRelay (setKiln s d x) e = getRelay s e ∧
    getTables (setKiln s d x) e = getTables s e ∧ getPins (setKiln s d x) e = getPins s e ∧
    getTenRecs (setKiln s d x) e = getTenRecs s e ∧ getQueues (setKiln s d x) e = getQueues s e ∧
    getStk (setKiln s d x) e = getStk s e ∧ getCores (setKiln s d x) e = getCores s e ∧ getMemu (setKiln s d x) e = getMemu s e ∧
    getDma (setKiln s d x) e = getDma s e ∧ getRet (setKiln s d x) e = getRet s e ∧ getGen (setKiln s d x) e = getGen s e ∧
    getEas (setKiln s d x) e = getEas s e ∧ getGeo (setKiln s d x) e = getGeo s e ∧ getLamp (setKiln s d x) e = getLamp s e ∧
    getTime (setKiln s d x) e = getTime s e ∧ getLog (setKiln s d x) e = getLog s e ∧ getEnds (setKiln s d x) e = getEnds s e ∧
    getCordRegs (setKiln s d x) e = getCordRegs s e ∧ getOtp (setKiln s d x) e = getOtp s e ∧
    getSec (setKiln s d x) e = getSec s e ∧ getTap (setKiln s d x) e = getTap s e :=
  ⟨rfl, rfl, rfl, rfl, rfl, rfl, rfl, rfl, rfl, rfl, rfl, rfl, rfl, rfl, rfl, rfl, rfl, rfl, rfl, rfl, rfl, rfl, rfl, rfl, rfl,
   rfl, rfl, rfl, rfl, rfl⟩

/-- `getKiln` reads what `setKiln` set. -/
@[simp] theorem getKiln_setKiln (s : State) (d : DieId) (x : Kiln) : getKiln (setKiln s d x) d = x :=
  qget_qset_same s.kilns d x

/-- `setKiln` leaves the other dies' parts. -/
@[simp] theorem getKiln_setKiln_other (s : State) (d : DieId) (x : Kiln) {e : DieId} (h : e ≠ d) :
    getKiln (setKiln s d x) e = getKiln s e := qget_qset_other s.kilns x h

/-- `setTap` changes no other field. -/
@[simp] theorem setTap_fields (s : State) (d : DieId) (x : Tap) :
    (setTap s d x).pending = s.pending ∧ (setTap s d x).now = s.now ∧ (setTap s d x).freeCtr = s.freeCtr ∧
    (setTap s d x).nextId = s.nextId ∧ (setTap s d x).board = s.board ∧ (setTap s d x).mem = s.mem ∧
    (setTap s d x).poison = s.poison ∧ (setTap s d x).staging = s.staging ∧ (setTap s d x).stagingBad = s.stagingBad ∧
    (setTap s d x).pieces = s.pieces ∧ (setTap s d x).sheets = s.sheets ∧ (setTap s d x).ports = s.ports ∧
    (setTap s d x).hregs = s.hregs ∧ (setTap s d x).qregs = s.qregs ∧ (setTap s d x).doorbells = s.doorbells ∧
    (setTap s d x).forwards = s.forwards ∧ (setTap s d x).relays = s.relays ∧ (setTap s d x).frozen = s.frozen ∧
    (setTap s d x).tables = s.tables ∧ (setTap s d x).pins = s.pins ∧ (setTap s d x).resets = s.resets ∧
    (setTap s d x).tenRecords = s.tenRecords ∧ (setTap s d x).queues = s.queues ∧ (setTap s d x).stokers = s.stokers ∧
    (setTap s d x).signals = s.signals ∧ (setTap s d x).watches = s.watches ∧ (setTap s d x).commits = s.commits ∧ (setTap s d x).cores = s.cores ∧
    (setTap s d x).memu = s.memu ∧ (setTap s d x).dma = s.dma ∧ (setTap s d x).ret = s.ret ∧ (setTap s d x).gen = s.gen ∧
    (setTap s d x).eas = s.eas ∧ (setTap s d x).geo = s.geo ∧ (setTap s d x).lamps = s.lamps ∧
    (setTap s d x).lampPkg = s.lampPkg ∧ (setTap s d x).times = s.times ∧ (setTap s d x).pps = s.pps ∧
    (setTap s d x).logs = s.logs ∧ (setTap s d x).cords = s.cords ∧ (setTap s d x).ends = s.ends ∧
    (setTap s d x).agree = s.agree ∧ (setTap s d x).cordRegs = s.cordRegs ∧ (setTap s d x).otps = s.otps ∧
    (setTap s d x).secs = s.secs ∧ (setTap s d x).kilns = s.kilns :=
  ⟨rfl, rfl, rfl, rfl, rfl, rfl, rfl, rfl, rfl, rfl, rfl, rfl, rfl, rfl, rfl, rfl, rfl, rfl, rfl, rfl, rfl, rfl, rfl, rfl, rfl, rfl,
   rfl, rfl, rfl, rfl, rfl, rfl, rfl, rfl, rfl, rfl, rfl, rfl, rfl, rfl, rfl, rfl, rfl, rfl, rfl, rfl⟩

/-- `setTap` changes no other part of a die. -/
@[simp] theorem setTap_gets (s : State) (d : DieId) (x : Tap) (e : DieId) :
    getStaging (setTap s d x) e = getStaging s e ∧ getStagingBad (setTap s d x) e = getStagingBad s e ∧
    getPieces (setTap s d x) e = getPieces s e ∧ getSheet (setTap s d x) e = getSheet s e ∧
    getPort (setTap s d x) e = getPort s e ∧ getHregs (setTap s d x) e = getHregs s e ∧
    getQregs (setTap s d x) e = getQregs s e ∧ getBells (setTap s d x) e = getBells s e ∧
    getForwards (setTap s d x) e = getForwards s e ∧ getRelay (setTap s d x) e = getRelay s e ∧
    getTables (setTap s d x) e = getTables s e ∧ getPins (setTap s d x) e = getPins s e ∧
    getTenRecs (setTap s d x) e = getTenRecs s e ∧ getQueues (setTap s d x) e = getQueues s e ∧
    getStk (setTap s d x) e = getStk s e ∧ getCores (setTap s d x) e = getCores s e ∧ getMemu (setTap s d x) e = getMemu s e ∧
    getDma (setTap s d x) e = getDma s e ∧ getRet (setTap s d x) e = getRet s e ∧ getGen (setTap s d x) e = getGen s e ∧
    getEas (setTap s d x) e = getEas s e ∧ getGeo (setTap s d x) e = getGeo s e ∧ getLamp (setTap s d x) e = getLamp s e ∧
    getTime (setTap s d x) e = getTime s e ∧ getLog (setTap s d x) e = getLog s e ∧ getEnds (setTap s d x) e = getEnds s e ∧
    getCordRegs (setTap s d x) e = getCordRegs s e ∧ getOtp (setTap s d x) e = getOtp s e ∧
    getSec (setTap s d x) e = getSec s e ∧ getKiln (setTap s d x) e = getKiln s e :=
  ⟨rfl, rfl, rfl, rfl, rfl, rfl, rfl, rfl, rfl, rfl, rfl, rfl, rfl, rfl, rfl, rfl, rfl, rfl, rfl, rfl, rfl, rfl, rfl, rfl, rfl,
   rfl, rfl, rfl, rfl, rfl⟩

/-- `getTap` reads what `setTap` set. -/
@[simp] theorem getTap_setTap (s : State) (d : DieId) (x : Tap) : getTap (setTap s d x) d = x :=
  qget_qset_same s.taps d x

/-- `setTap` leaves the other dies' parts. -/
@[simp] theorem getTap_setTap_other (s : State) (d : DieId) (x : Tap) {e : DieId} (h : e ≠ d) :
    getTap (setTap s d x) e = getTap s e := qget_qset_other s.taps x h

end Sys2Proof.Machine
end

