-- ==== Sys2Proof/Laws/Ops.lean ====
section
/-! SUPPORT. What the shared operations can do, once each: outcomes, device memory, slot writes, the logbook. -/

namespace Sys2Proof.Machine

/-- An unconditional effect answers its state. -/
@[simp] theorem ok_next (s : State) : ok s = .next s := rfl

/-- An event answers its effect where its condition holds and the state itself where it does not. -/
theorem event_cases (c : Bool) (s t u : State) (h : event c s t = .next u) : (c = true ∧ u = t) ∨ (c = false ∧ u = s) := by
  cases c <;> simp only [event] at h <;> cases h <;> simp

/-- An event whose condition holds. -/
theorem event_true {c : Bool} (s t : State) (h : c = true) : event c s t = .next t := by subst h; rfl

/-- An event whose condition does not hold. -/
theorem event_false {c : Bool} (s t : State) (h : c = false) : event c s t = .next s := by subst h; rfl

/-- Putting cells keeps the canonical form. -/
theorem putCells_wf (w m : List Host.Cell) (h : Memory.wf m) : Memory.wf (putCells m w) := by
  induction w generalizing m with
  | nil => exact h
  | cons e r ih => exact ih _ (mput_mwf m e.1 e.2 h)

/-- Putting cells leaves the bytes they do not name. -/
theorem putCells_other (w m : List Host.Cell) (a : Nat) (h : ∀ e ∈ w, e.1 ≠ a) : mget 0 (putCells m w) a = mget 0 m a := by
  induction w generalizing m with
  | nil => rfl
  | cons e r ih =>
    have h0 : e.1 ≠ a := h e (by simp)
    rw [putCells, ih _ fun f hf => h f (List.mem_cons_of_mem _ hf), mget_mput_other 0 m e.2 (Ne.symm h0)]

/-- One write keeps memory's canonical form and that of the poison. -/
theorem writeCells_wf (s : State) (w : List Host.Cell) (h : Memory.wf s.mem) : Memory.wf (writeCells s w).mem :=
  putCells_wf w s.mem h

/-- One write keeps the poison's canonical form. -/
theorem writeCells_poison_wf (s : State) (w : List Host.Cell) (h : mwf false s.poison = true) :
    mwf false (writeCells s w).poison = true := filter_mwf _ _ h

/-- One write changes memory, poison, the die caches and the waits on its words only. -/
theorem writeCells_frame (s : State) (w : List Host.Cell) :
    writeCells s w = { s with mem := (writeCells s w).mem, poison := (writeCells s w).poison, memu := (writeCells s w).memu,
                              watches := (writeCells s w).watches } := rfl

/-- One write leaves every byte that it does not name. -/
theorem writeCells_other (s : State) (w : List Host.Cell) (a : Nat) (h : ∀ e ∈ w, e.1 ≠ a) :
    memByte (writeCells s w) a = memByte s a := putCells_other w s.mem a h

/-- The addresses of consecutive cells. -/
theorem cellsAt_range (pa : Nat) (bytes : List Byte) : ∀ e ∈ cellsAt pa bytes, pa ≤ e.1 ∧ e.1 < pa + bytes.length := by
  induction bytes generalizing pa with
  | nil => simp [cellsAt]
  | cons b r ih =>
    intro e he
    rcases List.mem_cons.mp he with rfl | he
    · simp
    · have := ih (pa + 1) e he
      simp only [List.length_cons]; omega

/-- A write of consecutive bytes leaves every byte outside them. -/
theorem memWrite_other (s : State) (pa : Nat) (bytes : List Byte) (a : Nat) (h : a < pa ∨ pa + bytes.length ≤ a) :
    memByte (memWrite s pa bytes) a = memByte s a :=
  writeCells_other s _ a fun e he => by have := cellsAt_range pa bytes e he; omega

/-- A byte of consecutive cells, once they are put. -/
theorem putCells_cellsAt (pa : Nat) (bytes : List Byte) (m : List Host.Cell) (i : Nat) (hi : i < bytes.length) (h : Memory.wf m) :
    mget 0 (putCells m (cellsAt pa bytes)) (pa + i) = bytes[i] := by
  induction bytes generalizing pa m i with
  | nil => simp at hi
  | cons b r ih =>
    cases i with
    | zero =>
      rw [cellsAt, putCells, putCells_other _ _ _ fun e he => by have := cellsAt_range (pa + 1) r e he; omega]
      simpa using mget_mput_same m pa b h
    | succ i =>
      have := ih (pa + 1) (mput 0 m pa b) i (by simpa using hi) (mput_mwf m pa b h)
      rw [cellsAt, putCells, show pa + (i + 1) = pa + 1 + i by omega, this]; rfl

/-- A read after a write of the same bytes gives the bytes written, in a memory in canonical form. -/
theorem memByte_memWrite (s : State) (pa : Nat) (bytes : List Byte) (i : Nat) (hi : i < bytes.length) (h : Memory.wf s.mem) :
    memByte (memWrite s pa bytes) (pa + i) = bytes[i] := putCells_cellsAt pa bytes s.mem i hi h

/-- A slot write does one of three things: nothing (all-ones, or the package down), the block's effect, or a count of an ignored write. -/
theorem viaSlot_cases (s : State) (d : DieId) (blk : Nat) (v : W64) (f : State → State) :
    viaSlot s d blk v f = s ∨ viaSlot s d blk v f = f s ∨ viaSlot s d blk v f = countDiscard s d := by
  unfold viaSlot; split
  · exact .inl rfl
  · split
    · exact .inr (.inl rfl)
    · exact .inr (.inr rfl)

/-- A slot write that is served acts. -/
theorem viaSlot_served {s : State} {d : DieId} {blk : Nat} {v : W64} (f : State → State) (h1 : v ≠ BitVec.allOnes 64)
    (h2 : s.board.powerOk = true) (h3 : slotServed s d blk = true) : viaSlot s d blk v f = f s := by
  unfold viaSlot; rw [if_neg (not_or.mpr ⟨h1, not_not.mpr h2⟩), if_pos h3]

/-- A register of D0 acts on D0. -/
@[simp] theorem onD0_zero (s : State) (f : State → State) : onD0 s 0 f = f s := rfl

/-- On D1 to D3 it only counts the write. -/
theorem onD0_other (s : State) (d : DieId) (f : State → State) (h : d ≠ 0) : onD0 s d f = countDiscard s d := if_neg h

/-- An entry changes the logbooks only. -/
@[simp] theorem logEntry_frame (s : State) (d : DieId) (i : LogInfo) : { s with logs := (logEntry s d i).logs } = logEntry s d i := rfl

/-- An entry leaves the other dies' logbooks. -/
theorem logEntry_other (s : State) {d e : DieId} (i : LogInfo) (h : e ≠ d) : getLog (logEntry s d i) e = getLog s e :=
  getLog_setLog_other s d _ h

/-- Counting an ignored write changes the ports only. -/
@[simp] theorem countDiscard_frame (s : State) (d : DieId) : { s with ports := (countDiscard s d).ports } = countDiscard s d := rfl

/-- A queue reads what was set. -/
theorem queueOf_setQueue (s : State) (d : DieId) (q : Nat) (x : Queue) (h : mwf queueFree (getQueues s d) = true) :
    queueOf (setQueue s d q x) d q = x := by
  unfold queueOf setQueue; rw [getQueues_setQueues]; exact mget_mput_same _ q x h

/-- Setting a queue leaves the others. -/
theorem queueOf_setQueue_other (s : State) (d : DieId) {q r : Nat} (x : Queue) (h : r ≠ q) :
    queueOf (setQueue s d q x) d r = queueOf s d r := by
  unfold queueOf setQueue; rw [getQueues_setQueues]; exact mget_mput_other _ _ x h

/-- A read of a chunk changes the memory side, poison and the logbooks only. -/
theorem readChunk_frame (s : State) (c : Nat) : ∃ m p l, readChunk s c = { s with memu := m, poison := p, logs := l } := by
  unfold readChunk; dsimp only
  repeat' split
  all_goals exact ⟨_, _, _, rfl⟩

/-- So does a read of a line. -/
theorem readLine_frame (s : State) (line : Nat) : ∃ m p l, readLine s line = { s with memu := m, poison := p, logs := l } := by
  unfold readLine; dsimp only; split
  · exact ⟨_, _, _, rfl⟩
  · obtain ⟨m, p, l, h⟩ := readChunk_frame s (2 * line)
    obtain ⟨m1, p1, l1, h1⟩ := readChunk_frame (readChunk s (2 * line)) (2 * line + 1)
    rw [h1, h]; exact ⟨_, _, _, rfl⟩

/-- What a read does to the memory side (R289, R292) changes the memory side, poison and the logbooks only. -/
theorem noteRead_frame (s : State) (pa n : Nat) : ∃ m p l, noteRead s pa n = { s with memu := m, poison := p, logs := l } := by
  unfold noteRead; split
  · exact ⟨_, _, _, rfl⟩
  · generalize countUp _ _ = r
    induction r generalizing s with
    | nil => exact ⟨_, _, _, rfl⟩
    | cons x r ih =>
      obtain ⟨m, p, l, h⟩ := readLine_frame s x
      obtain ⟨m1, p1, l1, h1⟩ := ih (readLine s x)
      rw [List.foldl_cons, h1, h]; exact ⟨_, _, _, rfl⟩

/-- What a read does to the memory side changes no byte of memory. -/
@[simp] theorem memByte_noteRead (s : State) (pa n a : Nat) : memByte (noteRead s pa n) a = memByte s a := by
  obtain ⟨m, p, l, h⟩ := noteRead_frame s pa n
  rw [h]; rfl

end Sys2Proof.Machine
end

