-- ==== Sys2Proof/Tests/Slice0.lean ====
section
/-! SUPPORT. The model's own tests: ill-formed operands refused, values of the spec's worked examples and tables, and states that meet
the hypotheses of each statement. -/

set_option Elab.async false

namespace Sys2Proof.Tests

open Sys2Proof.Machine

/-- A channel that is trained, with row `row` open in bank 0. -/
def portAt (row : Nat) : HostPort := { portReset with resetN := true, steps := 15, trained := true, rows := [(0, row + 1)] }

/-- A package that has started, with the row of every channel's bank 0 open. -/
def upAt (row : Nat) : State :=
  { State.reset with
    board := { boardReset with resetN := true, released := true, powerOk := true }
    now := 1000000
    ports := qall (portAt row)
    secs := qall { secReset with stage := 3, started := true, checkedAt3 := true, romOk := true, otpDone := true, active := some 0 } }

/-! ### Host port -/

/-- A burst of 32 bytes. -/
def burst32 (col : Nat) (mask : List Bool) : HostWrite := { bank := 0, col := col, data := rep 32 7, mask := mask, dmi := [] }

/-- A burst with one word of its own. -/
def burstWord (col k : Nat) (v : W64) : HostWrite :=
  { bank := 0, col := col, data := rep (8 * k) 0xFF ++ natLe 8 v.toNat ++ rep (8 * (3 - k)) 0xFF, mask := [], dmi := [] }

/-- Burst lengths other than 32 and 64, a column across the row segment's end, a mask of another length (Table 2.1, R29). -/
theorem test_wf_refuses_bursts :
    (Instr.stagingWrite 0 { burst32 0 [] with data := rep 16 7 }).wf = false ∧ (Instr.stagingWrite 0 (burst32 2048 [])).wf = false ∧
    (Instr.stagingWrite 0 (burst32 8 [])).wf = false ∧ (Instr.apertureWrite 0 (burst32 0 [true])).wf = false ∧
    (Instr.ignoredWrite 0 (burst32 5 [])).wf = false ∧ (Instr.doorbellWrite 0 (burst32 5 [])).wf = false ∧
    (Instr.registerSlotWrite 0 (burst32 5 [])).wf = false ∧ (Instr.relayWrite (burst32 5 [])).wf = false ∧
    (Instr.hostReadBurst 0 { bank := 0, col := 32, bl32 := true }).wf = false ∧ (Instr.stagingWrite 0 (burst32 2016 [])).wf = true := by
  decide +kernel

/-- Mode registers beyond 127, and training data of another length. -/
theorem test_wf_refuses_modeRegisters :
    (Instr.modeRegisterWrite 0 128 0).wf = false ∧ (Instr.modeRegisterRead 0 128).wf = false ∧
    (Instr.writeTraining 0 [1]).wf = false ∧ (Instr.modeRegisterRead 0 127).wf = true := by decide +kernel

/-- States that meet the hypotheses about channel resets, training and banks: row 65,535, bank 0 open and bank 15 closed. -/
theorem witness_channel :
    (getPort (upAt 0) 0).resetN = true ∧ (getPort State.reset 0).resetN = false ∧ cmdOk (upAt 0) 3 = true ∧
    mwf 0 (getPort (upAt 0) 0).rows = true ∧ mget 0 (getPort (upAt 0) 0).rows 0 ≠ 0 ∧ mget 0 (getPort (upAt 0) 0).rows 15 = 0 ∧
    (0 < 64 ∧ 1984 % 64 = 0 ∧ 1984 + 64 ≤ 2048) := by decide +kernel

/-- R29: row 0xFFFF, bank group 3 bank 3, column 0x7C0 is 0x7FFF_FFC0. -/
theorem test_activate_address :
    (match exec (.bankCommand 0 15 (.activate 0xFFFF)) (upAt 0) with
     | .next t => burstAddr t 0 15 0x7C0 64
     | _ => none) = some 0x7FFFFFC0 := by decide +kernel

/-- Table 2.3: VND_ID0 of a channel. -/
theorem test_vndId0 :
    (match exec (.modeRegisterRead 2 96) (upAt 0) with | .next t => (getPort t 2).mrr | _ => 0) = 0x4B := by decide +kernel

/-- The boundaries of the mode-register clauses: 4 and 9 beside the identity registers, 95 and 127, VND_PRBS codes 4 and 5. -/
theorem witness_modeRegisters :
    (4 < 96 ∧ ¬ (5 ≤ 4 ∧ 4 ≤ 8)) ∧ (95 < 96 ∧ ¬ (5 ≤ 95 ∧ 95 ≤ 8)) ∧ (96 ≤ 127 ∧ 127 ≠ 104 ∧ 127 ≠ 106) ∧ (5 ≤ 8 ∧ 8 ≤ 8) ∧
    ((4 : Byte).toNat % 8 ≤ 4 ∧ mwf 0 (getPort (upAt 0) 0).mr = true) ∧ 4 < (5 : Byte).toNat % 8 ∧ cmdOk (upAt 0) 0 = true := by decide +kernel

/-- A standard register that takes what is written, and MR16 of whose FSP bits only a pattern's are kept, so that 0x0A is an attempt. -/
theorem witness_mrKept : mrKept 3 0 = 0 ∧ mrKept 16 0x0A ≠ 0x0A := by
  refine ⟨by simp [mrKept], fun h => ?_⟩
  have hb := congrArg (fun x : Byte => x.getLsbD 3) h
  simp [mrKept, b2n] at hb
  exact absurd hb.2 (by decide)

/-- Reads: the unassigned gap of the control page, the last burst before the aperture, the aperture's first, the last completion slots. -/
theorem witness_reads :
    (cmdOk (upAt 0) 0 = true ∧ prbsMode (upAt 0) 0 = 0 ∧ (getPort (upAt 0) 0).trained = true) ∧
    (burstAddr (upAt 0x7FFF) 0 0 0 32 = some 0x3FFF8000 ∧ unassigned 0 0x3FFF8000 = true) ∧
    burstAddr (upAt 0x8000) 0 0 0 64 = some 0x40000000 ∧
    (burstAddr (upAt 2) 0 0 32 32 = some 0x10020 ∧ 0x10020 ≤ 0x10000 + 8 * 7 ∧ 0x10000 + 8 * 7 + 8 ≤ 0x10020 + 32) ∧
    burstAddr (upAt 1) 0 0 0 32 = some 0x8000 ∧ stepsDone (upAt 0) 0 = true := by decide +kernel

/-- R34: an unassigned address reads all-ones. -/
theorem test_unassigned_reads_ones :
    (match exec (.hostReadBurst 0 { bank := 0, col := 0, bl32 := true }) (upAt 0x7FFF) with
     | .next t => (getPort t 0).dq | _ => []) = rep 64 0xFF := by decide +kernel

/-- `upAt` with parity on: it was enabled at 0, and tMRD has passed. -/
def parityAt (row : Nat) : State :=
  { setPort (upAt row) 0 { portAt row with parityWrites := [(0, true)] } with now := Config.tMRD + 2000 }

theorem parityAt_on (row : Nat) : parityOn (parityAt row) 0 = true := by
  show (if 0 + Config.tMRD ≤ Config.tMRD + 2000 then true else false) = true
  rw [if_pos (by omega)]

theorem parityAt_cmdOk (row : Nat) : cmdOk (parityAt row) 0 = true := by
  show (true && decide (0 + 2000 ≤ Config.tMRD + 2000)) = true
  simp

/-- Ignored writes (the contact sheet), a burst whose parity fails, a clear of every flag of CTL_HP_ERR. -/
theorem witness_ignoredWrites :
    PortWrite (upAt 8) 0 (burst32 0 []) 0x40000 ∧ regionOf 0 0x40000 = .ignored ∧
    (∀ x ∈ [((32 : Nat), Region.staging, (0x100400 : Nat)), (1, .bells, 0x8400), (0, .slots, 0x400), (0x8000, .aperture, 0x40000400), (8, .ignored, 0x40400)],
      ∀ b ∈ [burst32 0x400 (rep 32 true), burst32 0x400 [], { burst32 0x400 [] with dmi := rep 32 true }],
        PortBurst (parityAt x.1) 0 b x.2.2 ∧ parityOn (parityAt x.1) 0 = true ∧ regionOf 0 x.2.2 = x.2.1) ∧
    (burst32 0x400 (rep 32 true)).mask ≠ [] ∧ parityFails (burst32 0x400 []) = true ∧
    parityFails { burst32 0x400 [] with dmi := rep 32 true } = false ∧
    ((upAt 0).board.powerOk = true ∧ (0x7 : W64) ≠ BitVec.allOnes 64) := by
  refine ⟨by unfold PortWrite PortBurst; decide +kernel, by decide +kernel, fun x hx b hb => ⟨⟨parityAt_cmdOk _, ?_⟩, parityAt_on _, ?_⟩,
    by decide +kernel, by decide +kernel, by decide +kernel, by decide +kernel⟩
  · revert b; revert x; decide +kernel
  · clear hb; revert x; decide +kernel

/-- R33, R36: a burst of sevens with its DMI bits low fails its even parity and is counted. -/
theorem test_parity_fails :
    parityFails (burst32 0 []) = true ∧ (let t := parityFail (upAt 32) 0 0x100000
     (bit (getPort t 0).hpErr.val 0, (getPort t 0).parErr, getStaging t 0, (getLog t 0).head)) = (true, 1, [], 1) := by decide +kernel

/-- R38: CTL_HP_ERR clears a flag and keeps what was raised in the same instant. -/
theorem test_hpErr_sameInstant :
    (match exec (.ctlHpErrWrite 0 7) (protoError (upAt 0) 0) with | .next t => (getPort t 0).hpErr.val | _ => 0) = 0x100000002 ∧
    (match exec (.ctlHpErrWrite 0 7) { protoError (upAt 0) 0 with now := 1000001 } with | .next t => (getPort t 0).hpErr.val | _ => 9) = 0 := by
  decide +kernel

/-- A write of the drain to die `n`'s first unit. -/
def drainTo (n serial : Nat) (sent : Bool) : DrainItem :=
  { window := 0, base := 1, pa := n * 2 ^ 33, cells := [(n * 2 ^ 33, 7)], serial := serial, sent := sent }

/-- Drains whose oldest entry not yet sent is for this die, for a die behind an UP and behind a dark cord, and behind one that has failed. -/
theorem witness_drain :
    let up6 : List Cord := rep 6 { cordReset with lit := true, state := .up, width := 3 }
    let p := { portAt 0 with drain := [drainTo 1 0 true, drainTo 0 1 false] }
    let s := setPort { upAt 0 with cords := up6 } 0 p
    let f := setEnd s 0 0 { endReset with answers := [{ who := .drain 0 (2 ^ 27), status := 1, data := [] }] }
    let o := setPort { upAt 0 with cords := up6 } 0 { p with drain := [drainTo 1 0 false] }
    s.board.powerOk = true ∧ (getPort s 0).drain.find? (fun x => !x.sent) = some (drainTo 0 1 false) ∧ failedDrain s 0 = none ∧
    failedDrain f 0 = some (drainTo 1 0 true) ∧ dieOf (drainTo 0 1 false).pa = 0 ∧ rowWaits s (drainTo 0 1 false).pa 64 = false ∧
    Memory.wf s.mem ∧ (drainTo 0 1 false).cells = cellsAt 0 [7] ∧ failedDrain o 0 = none ∧ dieOf (drainTo 1 0 false).pa = 1 ∧
    slotsTaken (endOf o 0 (endTo 0 1)) + (drainAsks (drainTo 1 0 false)).length ≤ 1024 ∧ hop o 0 1 ≠ .dark ∧
    hop { o with cords := rep 6 cordReset } 0 1 = .dark := by decide +kernel

/-- R46, R363: a drain write for die 1 goes onto the drain class of the cord as DRWP, and stays in the buffer. -/
theorem test_drain_sends :
    (match exec (.apertureDrain 0) (setPort { upAt 0 with cords := rep 6 { cordReset with lit := true, state := .up, width := 3 } } 0
        { portAt 0 with drain := [drainTo 1 0 false] }) with
     | .next t => ((endOf t 0 0).waiting.map (fun w => (w.hdr.typ, w.hdr.cls)), (getPort t 0).drain.map (fun i => i.sent)) | _ => ([], []))
      = ([(7, 0)], [true]) := by decide +kernel

/-- A window of the aperture that is mapped to die 0, one that is not, one that is mapped to a die behind a dark cord; an entry of the
drain whose memory is within reach. -/
theorem witness_aperture :
    let s := setHregs (upAt 0x8000) 0 { hostRegsReset with aptBase := [(0, 1)] }
    let far := setHregs (upAt 0x8000) 0 { hostRegsReset with aptBase := [(0, 0x200000001)] }
    PortWrite s 0 (burst32 0 []) 0x40000000 ∧ bit (mget 0 (getHregs s 0).aptBase 0) 0 = true ∧ reach s 0 (dieOf 0) = true ∧
    bit (mget 0 (getHregs (upAt 0x8000) 0).aptBase 0) 0 = false ∧ PortWrite (upAt 0x8000) 0 (burst32 0 []) 0x40000000 ∧
    PortWrite far 0 (burst32 0 []) 0x40000000 ∧ reach far 0 (dieOf (0x200000000 : Nat)) = false ∧
    cordWaits s 0 (dieOf 0) = false ∧ Memory.wf s.mem := by
  refine ⟨(by unfold PortWrite PortBurst; decide +kernel), by decide +kernel, by decide +kernel, by decide +kernel,
    (by unfold PortWrite PortBurst; decide +kernel), (by unfold PortWrite PortBurst; decide +kernel),
    by decide +kernel, by decide +kernel, by decide +kernel⟩

/-- R45, R46: what is written to a mapped window reaches memory when the drain runs. -/
theorem test_aperture_reaches_memory :
    let s := setHregs (upAt 0x8000) 0 { hostRegsReset with aptBase := [(0, 1)] }
    (match exec (.apertureWrite 0 (burst32 32 [])) s with
     | .next t => (match exec (.apertureDrain 0) t with | .next u => (memRead u 31 3, (getPort u 0).drain) | _ => ([], []))
     | _ => ([], [])) = ([0, 7, 7], []) := by decide +kernel

/-- Staging: the last piece, idle and clearing. -/
theorem witness_staging :
    (PortWrite (upAt 255) 0 (burst32 2016 []) 0x7F87E0 ∧ regionOf 0 0x7F87E0 = .staging ∧
      (pieceOf (upAt 255) 0 ((0x7F87E0 - 0x100000) / 65536)).clearing = none ∧ mwf 0 (getStaging (upAt 255) 0) = true) ∧
    (pieceOf (setPieces (upAt 32) 0 [(0, { tag := 0, clearing := some 1, sets := 0 })]) 0 0).clearing ≠ none := by
  refine ⟨⟨(by unfold PortWrite PortBurst; decide +kernel), by decide +kernel, by decide +kernel, by decide +kernel⟩, by decide +kernel⟩

/-- Queue 3 RUNNING with a ring of 16 records, its doorbell's burst and a doorbell held. -/
def runningQueue : Queue := { queueFree with state := .running, log2 := 4, ctx := 1 }

/-- Doorbells: a tail at the ring's size, held and free to take effect, and held behind an aperture write. -/
theorem witness_doorbell :
    let s := setQueues (upAt 1) 0 [(3, runningQueue)]
    let held := setPort s 0 { portAt 1 with held := [{ queue := 3, tail := 16, after := 1 }] }
    let waits := setPort s 0 { getPort held 0 with drain := [{ window := 0, base := 1, pa := 0, cells := [], serial := 0, sent := false }] }
    PortWrite s 0 (burstWord 0 3 16) (0x8000 + 8 * (3 - 3)) ∧ OneWord (burstWord 0 3 16) 3 16 ∧ fld (16 : W64) 63 32 = 0 ∧
    (queueOf s 0 3).state = .running ∧ (fld (16 : W64) 31 0 + 2 ^ 32 - (queueOf s 0 3).done) % 2 ^ 32 ≤ 2 ^ (queueOf s 0 3).log2 ∧
    mwf 0 (getBells s 0) = true ∧ (∀ i ∈ (getPort held 0).drain, 1 ≤ i.serial) ∧ (queueOf held 0 3).state = .running ∧
    (16 + 2 ^ 32 - (queueOf held 0 3).done) % 2 ^ 32 ≤ 2 ^ (queueOf held 0 3).log2 ∧
    (∃ i ∈ (getPort waits 0).drain, i.serial < 1) := by
  refine ⟨(by unfold PortWrite PortBurst; decide +kernel), ⟨rfl, rfl⟩, by decide +kernel, by decide +kernel, by decide +kernel, by decide +kernel,
    by decide +kernel, by decide +kernel, by decide +kernel, by decide +kernel⟩

/-- R42: the doorbell that is held becomes the tail. -/
theorem test_doorbell_rings :
    let s := setQueues (upAt 1) 0 [(3, runningQueue)]
    (match exec (.doorbellWrite 0 (burstWord 0 3 16)) s with
     | .next t => (match exec (.doorbellTakesEffect 0) t with | .next u => ((queueOf t 0 3).tail, (queueOf u 0 3).tail) | _ => (0, 0))
     | _ => (0, 0)) = (0, 16) := by decide +kernel

/-- Slots: CTL_VERSION, the last APT_BASE, CTL_STATUS (read-only) and the first block beyond. -/
theorem witness_slots :
    (PortWrite (upAt 0) 0 (burstWord 0x400 0 2) (0x400 + 0x400 * 0 + 0) ∧ OneWord (burstWord 0x400 0 2) 0 2 ∧
      1 ≤ fld (2 : W64) 7 0 ∧ fld (2 : W64) 7 0 ≤ 2) ∧
    (OneWord (burstWord 0x4E0 3 1) 3 1 ∧ 0xF8 % 32 = 8 * 3 ∧ fld (1 : W64) 39 35 = 0 ∧ mwf 0 (getHregs (upAt 0) 0).aptBase = true) := by
  refine ⟨⟨(by unfold PortWrite PortBurst; decide +kernel), ⟨rfl, rfl⟩, by decide +kernel, by decide +kernel⟩, ⟨rfl, rfl⟩, by decide +kernel,
    by decide +kernel, by decide +kernel⟩

/-- Table 2.17: APT_BASE3 = 0x0000_0002_4600_0001 sends a burst at 0x4600_1A40 to 0x2_4600_1A40. -/
theorem test_worked_example_window :
    fld (0x0000000246000001 : W64) 39 25 * 2 ^ 25 + 0x46001A40 % 2 ^ 25 = 0x246001A40 ∧ (0x46001A40 - 0x40000000) / 2 ^ 25 = 3 := by
  decide +kernel

/-- Relay: die 3's block, live and frozen; a slot word on its way; the cord up. -/
theorem witness_relay :
    let up6 : List Cord := rep 6 { cordReset with lit := true, state := .up, width := 3 }
    let s : State := { upAt 24 with cords := up6 }
    let x : Forward := { off := 0x400, value := 2, enable := rep 8 true, after := 0 }
    let f := setForwards s 3 [x]
    PortWrite s 0 (burst32 0 []) 0xC0000 ∧ regionOf 0 0xC0000 = .relay 3 0 ∧ s.frozen.testBit 3 = false ∧
    (14 : Nat).testBit 3 = true ∧ (burst32 0 []).mask = [] ∧ getForwards f 3 = [x] ∧ cordWaits f 0 3 = false ∧ reach f 0 3 = true ∧
    x.off = 0x400 + 0x400 * 0 + 0 ∧ isFenced s 3 = false ∧ mwf queueFree (getQueues s 3) = true := by
  refine ⟨(by unfold PortWrite PortBurst; decide +kernel), by decide +kernel, by decide +kernel, by decide +kernel, rfl, rfl, by decide +kernel,
    by decide +kernel, rfl, by decide +kernel, by decide +kernel⟩

/-! ### Tenants, contexts, objects, queues, fences -/

/-- A tenant's record of Table 3.3 with every quota 2. -/
def tenantRec : List Byte := [3, 0, 2, 0, 2, 0, 0, 0, 2, 0, 0, 0, 2, 0, 0, 0, 2, 0, 0, 0] ++ rep 44 0

/-- A started package with a tenant table at 0x1000 (tenant 0's and tenant 15's records set), tenant 1 ENABLED, context 5 LIVE and 6
FAULTED, object 9 VALID of generation 4095, queue 3 RUNNING. -/
def pkg : State :=
  let s := upAt 0
  let t1 : Tenant := { tenantMax with maxSlots := 1 }
  let c5 : Ctx := { ctxFree with state := .live, prio := 2, dieMask := 15 }
  let tb : Tables :=
    { tenants := tenantMax :: t1 :: List.replicate 14 tenantOff
      contexts := [(5, c5), (6, { c5 with state := .faulted }), (7, { c5 with state := .destroying })]
      objects := [(9, { objFree with state := .valid, gen := 4095, pages := 1, dirty := true })]
      stateGen := 3 }
  { s with
    mem := putCells [] (cellsAt 0x1000 tenantRec ++ cellsAt 0x13C0 tenantRec)
    tables := qall tb
    hregs := qall { hostRegsReset with tenTable := 0x1001, objTable := 0x2000001, ctxTable := 0x4001 }
    queues := qall [(3, { runningQueue with ctx := 5, tail := 1, slot := 9 })]
    secs := qall { secReset with stage := 3, started := true, checkedAt3 := true, romOk := true, otpDone := true, active := some 0 } }

/-- TEN_TABLE: the last tenant base, VALID and not, with tenants 1 to 15 DISABLED and with one ENABLED. -/
theorem witness_tableBases :
    (∀ d, Served (upAt 0) d 3 ∧ Served (upAt 0) d 4 ∧ Served (upAt 0) d 5) ∧ baseBad 0x1001 = false ∧ bit (0x1001 : W64) 0 = true ∧
    baseBad 0x7FFFFF000 = false ∧ bit (0x7FFFFF000 : W64) 0 = false ∧ fld (0x2000001 : W64) 24 12 = 0 ∧
    (getTables (upAt 0) 0).tenants.length = 16 ∧ (∀ t ∈ (getTables (upAt 0) 0).tenants.tail, t.state = .disabled) ∧
    (readTenant { upAt 0 with mem := pkg.mem } 0x1001 0 .enabled).1.isSome = true ∧ (readTenant (upAt 0) 0x1FFFFF001 0 .enabled).1 ≠ none ∧
    (readTenant { upAt 0 with poison := [(0x40, true)] } 0x1001 0 .enabled).1 = none ∧
    (∃ t ∈ (getTables pkg 0).tenants.tail, t.state ≠ .disabled) := by
  unfold Served; decide +kernel

/-- Tenants 15 (DISABLED) and 1 (ENABLED, without contexts), and tenant 0. -/
theorem witness_tenants :
    Served pkg 0 3 ∧ (getTables pkg 0).tenants.length = 16 ∧ (tenantOf pkg 0 15).state = .disabled ∧
    bit (getHregs pkg 0).tenTable 0 = true ∧ (readTenant pkg (getHregs pkg 0).tenTable 15 .enabled).1.isSome = true ∧
    (tenantOf pkg 0 1).state = .enabled ∧ (∀ e ∈ (getTables pkg 0).contexts, e.2.tenant = 1 → e.2.state = .free) ∧
    (readTenant pkg (getHregs pkg 0).tenTable 0 .enabled).1.isSome = true ∧ (tenantOf pkg 0 0).state = .enabled ∧
    (∃ e ∈ (getTables pkg 0).contexts, e.2.tenant = 0 ∧ e.2.state ≠ .free) := by
  unfold Served; decide +kernel

/-- Table 3.3: ENABLE of tenant 15 takes its quotas. -/
theorem test_tenant_enable :
    (match exec (.tenantEnable 0 15) pkg with | .next t => ((tenantOf t 0 15).maxSlots, (tenantOf t 3 15).maxPages) | _ => (0, 0)) = (2, 2) := by
  decide +kernel

/-- A reset that waits for D0 and D3, and one that waits for D3 only. -/
theorem witness_tenantReset :
    let r : TenReset := { dies := [0, 3], toReport := [0, 3] }
    let s : State := { pkg with resets := [(1, r)] }
    mfind s.resets 1 = some r ∧ (3 : DieId) ∈ r.toReport ∧ tenantQuietOn s 3 1 = true ∧ (∃ e ∈ r.toReport, e ≠ 3) ∧
    (∀ e ∈ ([3] : List DieId), e = 3) := by
  decide +kernel

/-- R61: tenant 1 is RESETTING after RESET. -/
theorem test_tenant_reset :
    (match exec (.tenantReset 0 1) pkg with | .next t => decide ((tenantOf t 0 1).state = .resetting) | _ => false) = true := by decide +kernel

/-- Pieces 111 (to tenant 15), and one whose clear is done; a TEN_STAGE naming the present tag. -/
theorem witness_stagingPieces :
    (Served pkg 3 3 ∧ (111 : BitVec 7).toNat < 112 ∧
      (15 : Nat) ≠ (pieceOf pkg 3 111).clearing.getD (pieceOf pkg 3 111).tag) ∧
    (0 : Nat) = (pieceOf pkg 3 111).clearing.getD (pieceOf pkg 3 111).tag ∧
    (let s := setPieces pkg 3 [(111, { tag := 0, clearing := some 15, sets := 0 })]
     (pieceOf s 3 111).clearing = some 15 ∧ mwf pieceFree (getPieces s 3) = true) := by
  unfold Served; decide +kernel

/-- A context descriptor of Table 3.10 for context 8, at 0x5000, its entry at 0x4040. -/
def ctxPkg : State :=
  let desc : List Byte := [8, 0, 0, 1] ++ rep 44 0 ++ [1, 0, 0, 0, 1] ++ rep 11 0
  { pkg with mem := putCells pkg.mem (cellsAt 0x4040 [0x01, 0x50] ++ cellsAt 0x5000 desc) }

/-- Contexts: 8 FREE with its descriptor, 5 LIVE without queues of its own once its queue is FREE, 6 FAULTED, 7 DESTROYING. -/
theorem witness_contexts :
    Served ctxPkg 0 4 ∧ (ctxOf ctxPkg 0 8).state = .free ∧ (readCtx ctxPkg 8).1.isSome = true ∧
    ((readCtx ctxPkg 8).1.map fun x => decide (x.tenant = 0 ∧ x.prio ≤ (tenantOf ctxPkg 0 0).prioCeil)) = some true ∧
    (tenantOf ctxPkg 0 0).state = .enabled ∧ tenantContexts ctxPkg 0 < (tenantOf ctxPkg 0 0).maxContexts ∧
    (ctxOf pkg 0 5).state = .live ∧ queuesFree { pkg with queues := qall [] } 5 = true ∧ queuesFree pkg 5 = false ∧
    (ctxOf pkg 0 6).state = .faulted ∧ (ctxOf pkg 0 7).state = .destroying ∧ (∀ d, holdsSlot pkg d 7 = false) ∧
    mwf ctxFree (getTables pkg 0).contexts = true := by
  unfold Served; decide +kernel

/-- Table 3.10: CREATE of context 8 takes the descriptor's shares and dies. -/
theorem test_context_create :
    (match exec (.contextCreate 0 8) ctxPkg with
     | .next t => ((ctxOf t 2 8).prio, (ctxOf t 2 8).regShare, (ctxOf t 2 8).dieMask, decide ((ctxOf t 2 8).state = .live))
     | _ => (0, 0, 0, false)) = (1, 1, 1, true) := by decide +kernel

/-- An object entry of Table 3.14 for object 10, home on die 2. -/
def objPkg : State := { pkg with mem := putCells pkg.mem (cellsAt 0x2000140 [0, 0x80, 0, 0, 2, 0, 0, 0, 0, 0x80]) }

/-- Objects: 10 FREE with its entry, 9 VALID with and without a pin and with a stale handle, its entry to be written back. -/
theorem witness_objects :
    Served objPkg 0 5 ∧ (objOf objPkg 0 10).state = .free ∧ (10 : W32).toNat / 2 ^ 20 = (objOf objPkg 0 10).gen ∧
    bit (getHregs objPkg 0).objTable 0 = true ∧
    ((readFor objPkg 0 (fld (getHregs objPkg 0).objTable 39 12 * 4096 + 32 * 10) 32).1.bind (fun b => objRecord b 0)).isSome = true ∧
    (tenantOf objPkg 0 0).state = .enabled ∧ (tenantObjs objPkg 0).length < (tenantOf objPkg 0 0).maxObjects ∧
    ((0xFFF00009 : W32).toNat / 2 ^ 20 = (objOf pkg 0 9).gen ∧ (objOf pkg 0 9).state = .valid ∧ packagePins pkg 9 = 0 ∧
      packagePins (setPins pkg 3 [(9, 1)]) 9 ≠ 0) ∧ (9 : W32).toNat / 2 ^ 20 ≠ (objOf pkg 0 9).gen ∧
    ((objOf pkg 0 9).dirty = true ∧ reach pkg 0 (dieOf (0x2000000 + 32 * 9)) = true ∧ Memory.wf pkg.mem) := by
  unfold Served; decide +kernel

/-- R69: the generation wraps modulo 2^12 on a move to FREE. -/
theorem test_object_free_wraps :
    (match exec (.objectFree 0 0xFFF00009) pkg with
     | .next t => ((objOf t 0 9).gen, decide ((objOf t 0 9).state = .free)) | _ => (1, false)) = (0, true) := by decide +kernel

/-- A ring header of Table 3.19 at 0x3000: context 5, 2^16 records. -/
def ringPkg : State := { pkg with mem := putCells pkg.mem (cellsAt 0x3000 [5, 0, 16, 0, 0, 0, 0, 0, 0, 0x10]) }

/-- Queues: 4,095 FREE with a header, 3 RUNNING without and with a record running, STOPPED. -/
theorem witness_queues :
    Served ringPkg 3 2 ∧ (queueOf ringPkg 3 4095).state = .free ∧ (engineOf ringPkg 3 12).fenced = false ∧
    ((readFor { ringPkg with cords := rep 6 { cordReset with state := .up } } 3 (3 * 4096) 64).1.bind ringHeader)
      = some (5, 16, some 100000, 0x1000) ∧
    (ctxOf ringPkg 3 5).state = .live ∧ (ctxOf ringPkg 3 5).dieMask.testBit 3 = true ∧ (tenantOf ringPkg 3 0).state = .enabled ∧
    tenantQueues ringPkg 3 0 < (tenantOf ringPkg 3 0).maxQueues ∧ (queueOf pkg 0 3).state = .running ∧
    queueResetting pkg 0 3 = false ∧ mwf queueFree (getQueues pkg 0) = true ∧
    (queueOf (setQueue pkg 0 3 { queueOf pkg 0 3 with state := .stopped }) 0 3).state = .stopped := by
  unfold Served; decide +kernel

/-- A record of Table 3.20 in queue 3's ring at address 0, and its program's page mapped by a cached translation. -/
def fetchPkg : State :=
  let e : XlEntry := { ctx := 5, big := false, base := 0, w := true, handle := 9 + 4095 * 2 ^ 20, page := 0, frames := [0x2000000] }
  let s := setMemu { pkg with mem := putCells pkg.mem (cellsAt 0 ([1, 0, 0x34, 0x12, 0, 0, 0, 0, 4] ++ rep 7 0 ++ [0xAA])) } 0
    { memReset with xlate := [e] }
  setStk s 0 { stokerUnitReset with stokers := rep 8 { stokerReset with handout := true } }

/-- Records: one to be fetched, the record it becomes offered to frame 0, and a run that is over. -/
theorem witness_records :
    let x := queueOf fetchPkg 0 3
    let z := noteRead fetchPkg 0 32
    let r := recordOf (memRead fetchPkg 0 32) x.head (poisonIn z 0 32)
    let f := setQueue fetchPkg 0 3 { x with fetched := [r], head := 1 }
    let run : RunRec := { record := r, frame := 31, status := none, ctxFault := false, aborted := false, opsOut := 0 }
    let e := setFrame (setQueue fetchPkg 0 3 { x with head := 1, runs := [run] }) 0 31 { frameFree 31 with busy := true, park := .ended }
    (dieRuns fetchPkg 0 = true ∧ x.state = .running ∧ ageOf x x.head < ageOf x x.tail ∧ (ctxOf fetchPkg 0 x.ctx).state = .live ∧
      (engineOf fetchPkg 0 x.engine).fenced = false ∧ tenantQuiet fetchPkg 0 = false ∧ r.ended = none ∧
      rowWaits fetchPkg 0 32 = false ∧ (match (translate z 0 5 r.program.toNat {}).1 with | .ok p => decide (p = (0x2000004, 9)) | .error _ => false) = true) ∧
    (((countUp ((getStk f 0).lastEngine + 1) 13).map (fun e => e % 13)).flatMap (fun e =>
      (offers f 0 e).filter (frameQuota f 0))).head? = some 3 ∧ pickFrame f 0 (stokerOpen f 0) = some 0 ∧ (getStk f 0).frames.length = 32 ∧
    (runOf (queueOf e 0 3) 0 = some run ∧ (frameOf' e 0 31).park = .ended ∧ 31 < (getStk e 0).frames.length ∧
      (getGen e 0).steps.length = 0 ∧ (queueOf e 0 3).ended = [] ∧ (queueOf e 0 3).done = 0 ∧ runStatus run = 0) := by
  decide +kernel

/-- Table 4.1: x2 and x10 of the frame that the record is handed to. -/
theorem test_handout_registers :
    (match exec (.recordFetch 0 3) fetchPkg with
     | .next t => (match exec (.recordHandout 0) t with
       | .next u => (mget 0 (frameOf' u 0 0).regs 2, mget 0 (frameOf' u 0 0).regs 10, (frameOf' u 0 0).pc) | _ => (0, 0, 0))
     | _ => (0, 0, 0)) = (0x3000, 0xAA, 0x40000004) := by decide +kernel

/-- A frame that waits, and a signal on its way. -/
def fencePkg (c v : W64) (logged : Bool) : State :=
  let s := setFrame (memWriteWord pkg 0x100 c) 0 7
    { frameFree 7 with busy := true, queue := 3, park := .waitge 0x100 0x4100 5 10 0 logged }
  let q := { queueOf s 0 3 with wdogUs := some 0 }
  { setQueue s 0 3 q with
    signals := [(8, { src := 0, frame := none, queue := 3, count := 0, va := 0, pa := 0x100, value := v, sentAt := 0 })] }

/-- Signals above, equal to and below the fence's value (across the sign), a wait that is met exactly and one that is not, a wait at its
watchdog. -/
theorem witness_fences :
    (mfind (fencePkg 4 5 false).signals 8).isSome = true ∧ reach (fencePkg 4 5 false) 0 (dieOf 0x100) = true ∧
    poisonAt (fencePkg 4 5 false) 0x100 = false ∧ Memory.wf (fencePkg 4 5 false).mem ∧
    0 < ((5 : W64) - memWord (fencePkg 4 5 false) 0x100).toInt ∧ ((4 : W64) - memWord (fencePkg 4 5 false) 0x100).toInt ≤ 0 ∧
    ((3 : W64) - memWord (fencePkg 4 5 false) 0x100).toInt < 0 ∧ (0 : Int) ≤ (memWord (fencePkg 5 5 false) 0x100 - 5).toInt ∧
    (memWord (fencePkg 4 5 false) 0x100 - 5).toInt < 0 ∧ (frameOf' (fencePkg 4 5 false) 0 7).park = .waitge 0x100 0x4100 5 10 0 false ∧
    (getStk (fencePkg 4 5 false) 0).frames.length = 32 ∧ (queueOf (fencePkg 4 5 false) 0 3).wdogUs = some 0 ∧
    0 + 0 * 1000 ≤ dtime (fencePkg 4 5 false) 0 ∧ (frameOf' (fencePkg 4 5 true) 0 7).park = .waitge 0x100 0x4100 5 10 0 true ∧
    dieOf 0x100 = 0 ∧ rowWaits (fencePkg 4 5 false) 0x100 8 = false ∧
    poisonAt (noteRead { fencePkg 4 5 false with signals := mdel (fencePkg 4 5 false).signals 8 } 0x100 8) 0x100 = false := by
  decide +kernel

/-- A signal to die 1 that has not been sent, one answered, one whose cord is dark; a wait that a change has met, one that none has, on
a wait kept for another die. -/
theorem witness_remoteFences :
    let x : Signal := { src := 0, frame := none, queue := 3, count := 0, va := 0, pa := 0x200000100, value := 5, sentAt := 0 }
    let s : State := { fencePkg 4 5 false with signals := [(8, x)], cords := rep 6 { cordReset with lit := true, state := .up } }
    let a := setEnd s 0 0 { endOf s 0 0 with answers := [{ who := .signal 8, status := 1, data := [] }] }
    let w (m : Option W64) : State := { s with watches := [(watchKey 0 3 0, { die := 0, pa := 0x100, thr := 5, met := m })] }
    mfind s.signals 8 = some x ∧ dieOf x.pa ≠ x.src ∧ hop s 0 (dieOf x.pa) ≠ .dark ∧ answerOf s 0 (dieOf x.pa) (.signal 8) = none ∧
    mfind a.signals 8 = some x ∧ hop a 0 (dieOf x.pa) ≠ .dark ∧ answerOf a 0 (dieOf x.pa) (.signal 8) ≠ none ∧
    hop { s with cords := rep 6 cordReset } 0 (dieOf x.pa) = .dark ∧
    (mfind (w (some 9)).watches (watchKey 0 3 0)).map (fun y => y.met) = some (some 9) ∧
    (mfind (w none).watches (watchKey 0 3 0)).map (fun y => (y.pa, y.met)) = some (0x100, none) ∧ reach (w none) 0 (dieOf 0x100) = true ∧
    (frameOf' (w none) 0 7).queue = 3 ∧ (frameOf' (w none) 0 7).count = 0 := by decide +kernel

/-- R80: a signal that meets a wait is kept for it, whatever is stored after. -/
theorem test_wait_met :
    (match exec (.fenceSignal 8) { fencePkg 4 6 false with watches := [(watchKey 0 3 0, { die := 0, pa := 0x100, thr := 5, met := none })] } with
     | .next t => (match exec (.waitSatisfied 0 7) (memWriteWord t 0x100 0) with
       | .next u => (rvGet (frameOf' u 0 7) 10, u.watches.length) | _ => (0, 9))
     | _ => (0, 9)) = (6, 0) := by decide +kernel

/-- R81: the greater value stands, across the wrap of the signed difference. -/
theorem test_signal_wraps :
    (match exec (.fenceSignal 8) (fencePkg 0x7FFFFFFFFFFFFFFF 0x8000000000000001 false) with
     | .next t => memWord t 0x100 | _ => 0) = 0x8000000000000001 := by decide +kernel

/-- A sheet to be rewritten, a slice at its end, frames that are all parked while a record waits. -/
theorem witness_sheetAndSlices :
    (pkg.board.powerOk = true ∧ (getSec pkg 0).started = true ∧ (getSheet pkg 0).bytes.length ≠ (sheetBytes pkg 0).length) ∧
    (let s := setTime pkg 0 { timeReset with dt := 7448 }
     (stokerOf s 0 7).sliceAt + 7448 ≤ dtime s 0 ∧ (stokerOf s 0 7).cur < 4 ∧ (getStk s 0).stokers.length = 8) ∧
    (let s := setQueue (setStk pkg 0 { stokerUnitReset with frames := rep 32 { frameFree 0 with busy := true } }) 0 3
       { queueOf pkg 0 3 with fetched := [recordOf [] 0 false] }
     (∀ f ∈ (getStk s 0).frames, f.busy = true ∧ f.park ≠ .ready) ∧ (∃ e ∈ getQueues s 0, e.2.fetched ≠ []) ∧
     (getStk s 0).fullSince = none ∧
     (let a := setTime (setStk s 0 { getStk s 0 with fullSince := some 0, fullLogged := 1 }) 0 { timeReset with dt := 1000000 }
      let b := setTime a 0 { timeReset with dt := 999999 }
      (getStk a 0).fullSince = some 0 ∧ 0 + (getStk a 0).fullLogged * 1000000 ≤ dtime a 0 ∧
      dtime b 0 < 0 + (getStk b 0).fullLogged * 1000000 ∧ 0 ≤ dtime b 0)) ∧
    framesFull pkg 0 = false := by
  decide +kernel


/-! ### Programs -/

/-- Frame 0 of die 0 about to execute the word `w` of its program at VA 0 of context 5, with `regs` in its registers. -/
def progPkg (w : Nat) (regs : Map W32) : State :=
  let s := memWrite fetchPkg 0x2000000 (natLe 4 w)
  let s1 := setFrame s 0 0 { frameFree 0 with busy := true, park := .ready, queue := 3, ctx := 5, pc := 0x40000000, regs := regs }
  setQueue s1 0 3 { queueOf s1 0 3 with
    runs := [{ record := recordOf [] 0 false, frame := 0, status := none, ctxFault := false, aborted := false, opsOut := 0 }] }

/-- The state in which that word has been fetched. -/
def progAt (w : Nat) (regs : Map W32) : State := (rvFetch (progPkg w regs) 0 0).2

/-- Whether frame 0 issues the word `w`. -/
def issuesWord (w : Nat) (regs : Map W32) : Bool :=
  issues (progPkg w regs) 0 0 && (frameOf' (progPkg w regs) 0 0).walk.isNone && decide ((getStk (progAt w regs) 0).frames.length = 32)
    && (match rvFetch (progPkg w regs) 0 0 with | (.ok p, _) => decide (p = (w, 4)) | _ => false)

/-- Registers of the witness: addresses aligned and not, a VA pair, values across the sign. -/
def progRegs : Map W32 := [(5, 7), (6, 0xFFFFFFFE), (10, 0x100), (11, 0x101), (12, 0x4100), (14, 1)]

/-- Words of RV32IMC and of Table 4.4 that issue, at register 31 and register 0 among them. -/
theorem witness_programs :
    (∀ w ∈ [0x33 + 31 * 2 ^ 7 + 5 * 2 ^ 15 + 6 * 2 ^ 20 + 32 * 2 ^ 25, 0x13 + 4095 * 2 ^ 20, 0x67 + 5 * 2 ^ 15, 0x63 + 8 * 2 ^ 7 + 5 * 2 ^ 15,
        0x23 + 2 * 2 ^ 12 + 10 * 2 ^ 15 + 6 * 2 ^ 20, 0x03 + 31 * 2 ^ 7 + 2 * 2 ^ 12 + 10 * 2 ^ 15, 0x03 + 2 * 2 ^ 12 + 11 * 2 ^ 15, 0x73,
        customWord 1 1 0 30 0 0, customWord 1 3 0 0 12 0, customWord 1 0 0 0 0 0, customWord 0 6 0 0 12 10, customWord 0 7 2 0 12 10,
        customWord 1 5 0 0 5 0, customWord 1 1 127 0 0 0, customWord 0 0 0 31 12 14, customWord 0 1 0 31 12 14, customWord 0 2 11 31 10 0,
        customWord 0 3 3 31 10 0, customWord 0 4 0 31 10 0, customWord 0 5 0 31 10 0, customWord 1 2 0 31 10 0, customWord 1 4 0 31 12 0],
      issuesWord w progRegs = true) ∧ mwf 0 progRegs = true ∧
    (let u := progAt (customWord 0 0 0 31 12 14) progRegs
     let v := (fenceAddr u 0 5 (rvPair (frameOf' u 0 0) 12).toNat false).2
     (match (fenceAddr u 0 5 (rvPair (frameOf' u 0 0) 12).toNat false).1 with | .ok pa => decide (pa = 0x2004100) | .error _ => false) = true ∧
     waitHolds (noteRead v 0x2004100 8) 0 0x2004100 0 = true ∧
     waitHolds (noteRead v 0x2004100 8) 0 0x2004100 (rvPair (frameOf' u 0 0) 14) = false ∧
     (hintFor u 0 5 (rvPair (frameOf' u 0 0) 12).toNat 0x40).1 = [(0x2004100, 0x40)] ∧ (0x2004100 + 0x40 - 1) / 128 = 0x2004100 / 128 ∧
     (engineOf u 0 11).subs.length + heldSubs u 0 11 < 32 ∧
     (frameOf' u 0 0).walk = none ∧ (frameOf' u 0 0).regionBad = false ∧ (frameOf' u 0 0).tenant = 0 ∧
     (hintFor u 0 5 (rvPair (frameOf' u 0 0) 12).toNat 0x100).1 ≠ [] ∧ (engineOf u 0 11).subs.length < 32 ∧ (engineOf u 0 11).full = [] ∧
     (ctxOf u 0 5).state ≠ .faulted ∧ (queueOf u 0 3).runs.find? (fun r => r.record.count == 0) ≠ none ∧
     (match (vaBytes 0 5 2 0x4100 16 u).1 with | .ok b => zeroAt b 2 6 | .error _ => false) = true) ∧
    (let u := progAt (customWord 1 2 0 31 10 0) progRegs
     let s := setFrame u 0 0 { frameOf' u 0 0 with tenant := 15 }
     (frameOf' s 0 0).tenant ≠ 0 ∧ (engineOf (setEngine u 0 1 { engineReset with subs := rep 32 ⟨0, 0, 0, []⟩ }) 0 1).subs.length = 32 ∧
     (ctxOf u 0 6).state = .faulted ∧ (engineOf (setEngine u 0 1 { engineReset with fenced := true }) 0 1).fenced = true) := by
  decide +kernel

/-- Table 4.2: x0 discards a result (add to x0), and `sra` shifts in the sign. -/
theorem test_rv32_sra :
    (match exec (.rv32Instruction 0 0) (progPkg (0x33 + 3 * 2 ^ 7 + 5 * 2 ^ 12 + 6 * 2 ^ 15 + 14 * 2 ^ 20 + 32 * 2 ^ 25) progRegs) with
     | .next t => rvGet (frameOf' t 0 0) 3 | _ => 0) = 0xFFFFFFFF := by decide +kernel

/-- R94: the submission goes to engine 9's queue. -/
theorem test_kLaunch_engine :
    (match exec (.kLaunch 0 0) (progPkg (customWord 0 2 9 31 10 0) progRegs) with
     | .next t => ((engineOf t 0 9).subs.length, decide ((frameOf' t 0 0).park = .submitted 9 31)) | _ => (0, false)) = (1, true) := by decide +kernel

/-- A walk at a node of kind `k`, version `v`, with PREV_VERSION 0x8000, whose descriptor is at 0x8000. -/
def walkPkg (k v : Nat) (node : W64) (reads : Nat) : State :=
  let s := progPkg 3 progRegs
  let b : List Byte := natLe 2 v ++ natLe 1 k ++ natLe 1 (if k = 1 then 11 else 0) ++ rep 4 0 ++ natLe 8 0x8000 ++
    natLe 8 (if k = 0 then 0 else 0x4040) ++ natLe 8 0x8000 ++ rep 32 0
  setFrame (memWrite s 0x2004000 b) 0 0 { frameOf' s 0 0 with walk := some { rd := 31, g := 0xFFFF, node := node, reads := reads } }

/-- Nodes newer than G across the wrap, an END, a SUBMIT, a misaligned node and the 65,536th read. -/
theorem witness_graphs :
    (∀ e ∈ [(0, 0), (0, 0xFFFF), (1, 0xFFFE)], issues (walkPkg e.1 e.2 0x4000 65535) 0 0 = true ∧
      (match (vaBytes 0 5 1 0x4000 64 (walkPkg e.1 e.2 0x4000 65535)).1 with
       | .ok b => nodeOk b && decide (leAt b 0 2 = e.2 ∧ leAt b 2 1 = e.1) | .error _ => false) = true) ∧
    0 < sx 16 (0 + 65536 - 0xFFFF) ∧ sx 16 (0xFFFF + 65536 - 0xFFFF) ≤ 0 ∧ sx 16 (0xFFFE + 65536 - 0xFFFF) ≤ 0 ∧
    (match (vaBytes 0 5 2 0x8000 64 (walkPkg 1 0xFFFE 0x4000 0)).1 with | .ok _ => true | .error _ => false) = true ∧
    (4001 : W64).toNat % 64 ≠ 0 ∧ (getStk (walkPkg 0 0 0x4001 65536) 0).frames.length = 32 ∧
    (getStk (walkPkg 0 0 0x4001 65536) 0).engines.length = 13 ∧
    (engineOf (walkPkg 1 0xFFFE 0x4000 0) 0 11).subs.length + heldSubs (walkPkg 1 0xFFFE 0x4000 0) 0 11 < 32 := by
  decide +kernel

/-- A package whose clocks run, with its grids at epoch 3 and the next epoch 1 ms away; D2 joined. -/
def timePkg : State :=
  let t : TimeD := { timeReset with running := true, dt := 1000000, epoch := 3, epochStart := 1000000, period := 1000000 }
  { progPkg 3 progRegs with lamps := qall { lampReset with dom := rep 12 .lit }, times := qall t, agree := { agreeReset with joined := 4 } , cords := rep 6 { cordReset with state := .up } }

/-- A commit block of one entry (CTL_VERSION := 2 on D2) for epoch `e`. -/
def commitBlock (e : Nat) : List Byte :=
  natLe 8 e ++ [1] ++ rep 7 0 ++ [0, 4, 0, 0, 0, 0, 0, 0] ++ natLe 8 2

/-- A frame parked in k.commit for epoch `e`. -/
def commitPkg (e : Nat) : State :=
  let s := timePkg
  setFrame s 0 0 { frameOf' s 0 0 with park := .commit 31, commitDesc := commitBlock e }

/-- The commit of that block as D0 holds it. -/
def commitHeld (acked told applied : List DieId) (dec : Option Bool) (e : Nat) : Commit :=
  { src := 0, frame := 0, queue := 3, count := 0, epoch := e, entries := commitEntries (commitBlock e), staged := [0, 2], acked := acked,
    decision := dec, told := told, kept := [], applied := applied }

/-- `commitPkg` with D0's commit 1 and every die's clock at `ns` before the next epoch. -/
def commitState (c : Commit) (ns : Nat) : State :=
  let s := commitPkg c.epoch
  { s with commits := [(1, c)], times := qmap (fun _ t => { t with dt := 2000000 - ns }) s.times }

/-- Commit blocks in time (exactly 200 us) and late, and commits at each of their deadlines. -/
theorem witness_commits :
    (closeTo (commitState (commitHeld [] [] [] none 4) 200000) 0 4 200000 = false ∧
      closeTo (commitState (commitHeld [] [] [] none 4) 199999) 0 4 200000 = true ∧
      commitsPending (commitPkg 4) < 4 ∧ commitLegal (commitBlock 4) = true ∧ reach (commitPkg 4) 0 0 = true ∧
      cordWaits (commitPkg 4) 0 0 = false ∧ (frameOf' (commitPkg 4) 0 0).park = .commit 31 ∧ (frameOf' (commitPkg 4) 0 0).walk = none ∧
      mwf 0 (frameOf' (commitPkg 4) 0 0).regs = true ∧ leAt (commitBlock 4) 0 8 = 4 ∧ (frameOf' (commitPkg 4) 0 0).busy = true ∧
      (frameOf' (commitPkg 4) 0 0).commitDesc ≠ [] ∧ (commitPkg 4).board.powerOk = true) ∧
    (let c := commitHeld [0] [] [] none 4
     let s := commitState c 50000
     (2 : DieId) ∈ stagedJoined s c ∧ (2 : DieId) ∉ c.acked ∧ reach s 0 2 = true ∧ cordWaits s 0 2 = false ∧ closeTo s 0 4 50000 = false ∧
     closeTo (commitState c 49999) 0 4 50000 = true ∧ closeTo s 0 4 50001 = true ∧ closeTo s 0 4 20000 = false ∧
     (∃ n ∈ stagedJoined s c, n ∉ c.acked) ∧ (∃ n ∈ stagedJoined s c, n ≠ 0) ∧ (frameOf' s 0 0).park = .commit 31 ∧
     (frameOf' s 0 0).queue = c.queue ∧ (frameOf' s 0 0).count = c.count) ∧
    (let c := commitHeld [0, 2] [] [] none 4
     let s := commitState c 50000
     (∀ n ∈ stagedJoined s c, n ∈ c.acked) ∧ closeTo s 0 4 50001 = true ∧ closeTo s 0 4 20000 = false ∧ 0 ∉ c.applied) ∧
    (let c := commitHeld [0, 2] [0] [] (some true) 4
     closeTo (commitState c 20000) 2 4 20000 = false ∧ (2 : DieId) ∈ c.staged ∧ (2 : DieId) ∉ c.told ∧
     closeTo (commitState c 20000) 2 4 20001 = true ∧ awake (commitState c 20000) 2 = true) ∧
    (let c := commitHeld [0, 2] [0, 2] [] (some true) 4
     let s := commitState c 0
     nextStart s 2 ≤ dtime s 2 ∧ (getTime s 2).running = true ∧ c.entries = [(4, 0, 0, 2)] ∧ (4 : Nat).testBit 2 = true ∧
     1 ≤ fld (2 : W64) 7 0 ∧ fld (2 : W64) 7 0 ≤ 2 ∧ slotServed s 2 0 = true ∧ (pacedBy s 2 0x30).isSome = false ∧
     (∃ n ∈ c.told, n ≠ 2 ∧ n ∉ c.applied) ∧ c.epoch ≤ (getTime s 2).epoch + 1 ∧ dtime timePkg 2 < nextStart timePkg 2) ∧
    (let s := { commitState (commitHeld [] [] [] none 4) 0 with commits := [] }
     let on := setEas s 2 { getEas s 2 with ctl := 1, linkUp := true }
     s.commits = [] ∧ nextStart s 2 ≤ dtime s 2 ∧ (pacedBy s 2 0x30).isSome = false ∧ (easOn (getEas s 2) && (getEas s 2).linkUp) = false ∧
     nextStart on 2 ≤ dtime on 2 ∧ (easOn (getEas on 2) && (getEas on 2).linkUp) = true) := by
  refine ⟨by decide +kernel, by decide +kernel, by decide +kernel, by decide +kernel, by decide +kernel, by decide +kernel⟩

/-- R113: D2 applies CTL_VERSION := 2 at the epoch's start. -/
theorem test_commit_applies :
    (match exec (.epochStart 2) (commitState (commitHeld [0, 2] [0, 2] [] (some true) 4) 0) with
     | .next t => mirrorReg t 2 0 0 | _ => none) = some 2 := by decide +kernel

/-- R112, Table 4.11: with D2's acknowledgement missing the program reads 2. -/
theorem test_commit_kept :
    (match exec (.commitDecide 1) (commitState (commitHeld [0] [] [] none 4) 50000) with
     | .next t => rvGet (frameOf' t 0 0) 31 | _ => 0) = 2 := by decide +kernel

/-- R112: the acknowledgement is taken 50 us before the epoch; R113: D2 without the decision is fenced 20 us before it. -/
theorem test_commit_deadline :
    (match exec (.commitDeadline 1 2) (commitState (commitHeld [0, 2] [0] [] (some true) 4) 20000) with
     | .next t => isFenced t 2 | _ => false) = true := by decide +kernel

/-! ### Dispatches and residency -/

/-- A kernel header of Table 8.4: width 32, 32 registers, 5 groups, 1 KiB of tile memory, entry 0x1040. -/
def kernelHeader : List Byte := [0x4B, 0x57, 1, 1, 32, 0, 5, 0, 1, 0] ++ rep 6 0 ++ [0x40, 0x10] ++ rep 46 0

/-- A CMP descriptor for the kernel at VA 0x1000, a grid of 3 x 1 x 2 on cluster 7. -/
def launchDesc : List Byte := rep 16 0 ++ [0, 0x10] ++ rep 14 0 ++ [3, 0, 0, 0, 1, 0, 2, 0, 0x80] ++ rep 23 0

/-- Context `c` in residency state `r` on die 0 (its descriptor's DEVICE area is not written: the device's own bytes stand there). -/
def withResid (s : State) (c : Nat) (r : RState) : State :=
  setCores s 0 { getCores s 0 with resid := mput .none (getCores s 0).resid c r }

/-- `progPkg` with every domain lit and context 5 with shares, in slot 47 of die 0, ACTIVE. -/
def corePkg : State :=
  let s := progPkg 3 progRegs
  let s1 := memWrite { s with lamps := qall { lampReset with dom := rep 12 .lit } } 0x2001000 kernelHeader
  let s2 := putCtx s1 5 { ctxOf s1 0 5 with regShare := 96, tileShare := 64 }
  let s3 := setSlot s2 0 47 { slotFree with state := .active, ctx := 5 }
  withResid s3 5 .resident

/-- `corePkg` with that descriptor at the head of CMP engine 4's queue. -/
def launchPkg (desc : List Byte) : State :=
  let s := setEngine corePkg 0 4 { engineReset with subs := [⟨0, 3, 0, desc⟩], count := 2 ^ 32 - 1 }
  setFrame s 0 0 { frameOf' s 0 0 with park := .submitted 4 31 }

/-- A dispatch that is legal to its last check, and one with a zero grid. -/
theorem witness_dispatches :
    let s := launchPkg launchDesc
    let x : Submission := ⟨0, 3, 0, launchDesc⟩
    dieRuns s 0 = true ∧ (engineOf s 0 4).subs = [x] ∧ (engineOf s 0 4).full = [] ∧ (engineOf s 0 4).fenced = false ∧ (ctxOf s 0 (subCtx s 0 x)).state ≠ .faulted ∧ (getStk s 0).engines.length = 13 ∧
    (getStk s 0).frames.length = 32 ∧ zeroAt launchDesc 0x29 23 = true ∧ leAt launchDesc 0x10 8 = 0x1000 ∧
    (match translateRange s 0 5 0x1000 64 {} with
     | (.ok (km, ko), s1) =>
       (match (readPages s1 0 km 0x1000 64).bind (fun h => kernelOf h 0) with
        | some k => kernelFits (ctxOf s1 0 5) k && (match translateRange s1 0 5 0 (8 * k.argWords) {} with
          | (.ok (am, ao), s2) => (match fenceSide s2 0 5 launchDesc with
            | (.ok (hasF, fpa, fo), s3) => pinRoom s3 0 (joinObjs (joinObjs ko ao) fo) && (readPages s3 0 am 0 0).isSome && !hasF && fpa == 0
            | _ => false)
          | _ => false)
        | none => false)
     | _ => false) = true ∧ subCtx s 0 x = 5 ∧ (frameOf' s 0 0).walk = none ∧ leAt (rep 64 (0 : Byte)) 0x20 4 = 0 := by
  decide +kernel

/-- R102: the same descriptor while its context is FAULTED. -/
theorem test_dispatch_faulted :
    let s := putCtx (launchPkg launchDesc) 5 { ctxOf corePkg 0 5 with state := .faulted }
    (ctxOf s 0 (subCtx s 0 ⟨0, 3, 0, launchDesc⟩)).state = .faulted ∧ (engineOf s 0 4).subs = [⟨0, 3, 0, launchDesc⟩] ∧
    (match exec (.submissionAccept 0 4) s with
     | .next t => ((engineOf t 0 4).count, decide ((frameOf' t 0 0).park = .ended), (getCores t 0).dispatches.length)
     | _ => (1, false, 1)) = (2 ^ 32 - 1, true, 0) := by decide +kernel

/-- R100: the count wraps modulo 2^32 and reaches rd. -/
theorem test_dispatch_accepted :
    (match exec (.submissionAccept 0 4) (launchPkg launchDesc) with
     | .next t => ((engineOf t 0 4).count, rvGet (frameOf' t 0 0) 31, decide ((frameOf' t 0 0).park = .ready), (getCores t 0).dispatches.length)
     | _ => (1, 1, false, 0)) = (0, 0, true, 1) := by decide +kernel

/-- That dispatch accepted. -/
def placePkg : State := match exec (.submissionAccept 0 4) (launchPkg launchDesc) with | .next t => t | _ => State.reset

/-- A block to be placed: the slot is ACTIVE, a core has room, and no group number lies ahead. -/
theorem witness_blocks :
    (nextDisp placePkg 0 4).isSome = true ∧ slotHolding placePkg 0 5 = some 47 ∧ (slotOf placePkg 0 47).state = .active ∧
    dieRuns placePkg 0 = true ∧ ((nextDisp placePkg 0 4).bind (fun x => pickCore placePkg 0 x.2)).map (fun p => p.1) = some 28 ∧
    (getCores placePkg 0).groups = [] ∧ (nextDisp placePkg 0 4).map (fun p => (p.2.geo.isNone, outplaced placePkg 0 4 p.2)) = some (true, false) ∧
    (let y : State := setCores placePkg 0 { getCores placePkg 0 with
       dispatches := (getCores placePkg 0).dispatches ++ (getCores placePkg 0).dispatches.map (fun e => (1000, { e.2 with engine := 2 })) }
     (nextDisp y 0 4).map (fun p => outplaced y 0 4 p.2) = some true) ∧
    ((nextDisp placePkg 0 4).bind (fun x => pickCore { placePkg with lamps := qall lampReset } 0 x.2)) = none := by
  decide +kernel

/-- R121, R141: the block stands on core 28 (cluster 7), its fifth group on quarter 0 again. -/
theorem test_block_place :
    (match exec (.blockPlace 0 3) placePkg with
     | .next t => ((getCores t 0).blocks.map (fun b => (b.2.core, b.2.x, b.2.z)), (getCores t 0).groups.map (fun g => g.2.quarter))
     | _ => ([], [])) = ([(28, 0, 0)], [0, 1, 2, 3, 0]) := by decide +kernel

/-- Die 0 with a group of context 5 on core 28. -/
def groupPkg : State := match exec (.blockPlace 0 3) placePkg with | .next t => t | _ => State.reset

/-- `groupPkg` with slot 47 in state `st`. -/
def slotPkg (st : SlotState) (discard : Bool) : State :=
  setSlot groupPkg 0 47 { slotOf groupPkg 0 47 with state := st, discard := discard }

/-- The groups of slot 47 stopped. -/
def stoppedPkg (discard : Bool) : State :=
  match exec (.stopBath 0 47) (slotPkg .stopping discard) with | .next t => t | _ => State.reset

/-- A context that waits for a slot (7 saved, nothing else resident), slots in each state of a context's way, and a save area that stands
and one that has changed. -/
theorem witness_slotWays :
    (let s := putCtx (withResid corePkg 6 .saved) 6 { ctxOf corePkg 0 5 with regShare := 0, tileShare := 0 }
     releasesFor s 0 6 = some [] ∧ dieRuns s 0 = true ∧ awake s 0 = true ∧ workWaits s 0 6 = true ∧ savedLit s 0 6 = true ∧
     tenantSlots s 0 [] 0 < (tenantOf s 0 0).maxSlots ∧ saveLegal s 0 6 = true ∧ mayReside s 0 6 = true ∧ autoFirst s 0 6 = false) ∧
    (getCores groupPkg 0).slots.length = 48 ∧ (slotOf (slotPkg .loading false) 0 47).state = .loading ∧
    mfind (getCores (slotPkg .loading false) 0).saved 5 = none ∧ (slotOf (slotPkg .stopping true) 0 47).state = .stopping ∧
    (∀ e ∈ ctxGroups (stoppedPkg true) 0 5, e.2.stopped = true ∧ drained e.2 = true) ∧ (ctxGroups (stoppedPkg true) 0 5).length = 5 ∧
    (slotOf (stoppedPkg true) 0 47).discard = true ∧ (slotOf (stoppedPkg false) 0 47).discard = false ∧
    (ctxOf (slotPkg .saving false) 0 5).regShare ≤ 96 ∧ (ctxOf (slotPkg .saving false) 0 5).tileShare ≤ 64 ∧
    coreLit (slotPkg .saving false) 0 31 = true ∧ Memory.wf (slotPkg .saving false).mem ∧
    (let v (b : Byte) : Saved :=
       { blocks := [], groups := (getCores groupPkg 0).groups.take 1, cores := [], area := [(0x2001000, b)], base := 0,
         vrf := [(vrfKey 5 28 0 300, 7)], tile := [(tileKey 5 28 100, 9)] }
     (v 0).groups.length = 1 ∧
     (∀ e ∈ (v 0x4B).area, memByte groupPkg e.1 = e.2 ∧ poisonAt groupPkg e.1 = false) ∧ (∃ e ∈ (v 0).area, memByte groupPkg e.1 ≠ e.2) ∧
     (ctxOf groupPkg 0 5).state = .live ∧ resettingTenant groupPkg 0 = false) := by
  decide +kernel

/-- A load with a saved state whose cores are lit and are not, and one to which a stop is owed. -/
theorem witness_loads :
    let v : Saved :=
      { blocks := [], groups := (getCores groupPkg 0).groups.take 1, cores := [28], area := [(0x2001000, 0x4B)], base := 0,
        vrf := [(vrfKey 5 28 0 300, 7)], tile := [(tileKey 5 28 100, 9)] }
    let s := setCores (slotPkg .loading false) 0 { getCores (slotPkg .loading false) 0 with saved := [(5, v)] }
    (slotOf s 0 47).state = .loading ∧ mfind (getCores s 0).saved 5 = some v ∧ savedLit s 0 5 = true ∧ v.groups.length = 1 ∧
    v.vrf.length = 1 ∧ v.tile.length = 1 ∧ (∀ e ∈ v.area, memByte s e.1 = e.2 ∧ poisonAt (noteRead s e.1 1) e.1 = false) ∧
    savedLit { s with lamps := qall lampReset } 0 5 = false ∧
    (slotOf (setSlot s 0 47 { slotOf s 0 47 with owed := true }) 0 47).owed = true := by decide +kernel

/-- R130: the load's end puts the saved registers, tile bytes and groups back. -/
theorem test_load_done :
    let v : Saved :=
      { blocks := (getCores groupPkg 0).blocks, groups := (getCores groupPkg 0).groups.take 1, cores := [28], area := [(0x2001000, 0x4B)], base := 0,
        vrf := [(vrfKey 5 28 0 300, 7)], tile := [(tileKey 5 28 100, 9)] }
    let s := setCores (slotPkg .loading false) 0 { getCores (slotPkg .loading false) 0 with saved := [(5, v)], groups := [] }
    (match exec (.contextLoadDone 0 47) s with
     | .next t => (mget 0 (getCores t 0).vrf (vrfKey 5 28 0 300), mget 0 (getCores t 0).tile (tileKey 5 28 100), (getCores t 0).groups.length,
         decide ((slotOf t 0 47).state = .active))
     | _ => (0, 0, 0, false)) = (7, 9, 1, true) := by decide +kernel

/-- R125: the stop bath stops every group of the slot. -/
theorem test_stop_bath :
    (ctxGroups (stoppedPkg false) 0 5).all (fun e => e.2.stopped && !e.2.active) = true := by decide +kernel

/-- R119, R127: a save ends with the slot FREE and the context SAVED. -/
theorem test_stop_bath_done :
    (match exec (.stopBathDone 0 47) (stoppedPkg false) with | .next t => decide ((slotOf t 0 47).state = .saving) | _ => false) = true := by
  decide +kernel

/-- Die 0 starved: its one held slot BLOCKED, context 7 SAVED and without room. -/
def starvedPkg (flag : Bool) : State :=
  let s := putCtx (withResid (slotPkg .blocked false) 7 .saved) 7 { ctxOf corePkg 0 5 with prio := 3 }
  let s1 := { s with tables := qmap (fun _ t => { t with tenants := { tenantMax with autoEvict := true, runList := 0x3000 } :: t.tenants.tail }) s.tables }
  let s2 := memWrite s1 0x3000 ([1, 0, 0, 0, 0, 0, 0, 0] ++ [7, 0, 1, 0, 0, 0, 0, 0])
  let v : Saved := { blocks := [], groups := [], cores := [], area := [], base := 0, vrf := [], tile := [] }
  setCores s2 0 { getCores s2 0 with starvedSince := some 900000, starved := flag, saved := [(7, v)] }

/-- Starvation exactly 100 us old, its candidate and victim, and residency commands of each result. -/
theorem witness_starvation :
    (getCores (starvedPkg false) 0).starvedSince = some 900000 ∧ starvedCond (starvedPkg false) 0 = true ∧
    900000 + 100000 ≤ (starvedPkg false).now ∧ ({ starvedPkg false with now := 999999 } : State).now < 900000 + 100000 ∧
    (∀ x ∈ (getCores (starvedPkg true) 0).slots, x.byAuto = false) ∧ (autoCandidate (starvedPkg true) 0).1 = some 7 ∧
    autoVictim (autoCandidate (starvedPkg true) 0).2 0 7 = some 47 ∧ (getCores (starvedPkg true) 0).slots.length = 48 ∧
    (getCores (starvedPkg true) 0).starved = true ∧ (getCores (starvedPkg false) 0).starved = false := by
  decide +kernel

/-- Residency commands: a load that fits, one over the quota, of a context that holds a slot and of a tenant that is being reset. -/
theorem witness_residencyCommands :
    (let s := putCtx (withResid corePkg 6 .saved) 6 { ctxOf corePkg 0 5 with regShare := 0, tileShare := 0 }
     Served s 0 4 ∧ releasesFor s 0 6 = some [] ∧ mayReside s 0 6 = true ∧ savedLit s 0 6 = true ∧ awake s 0 = true ∧
     tenantSlots s 0 [] 0 < (tenantOf s 0 0).maxSlots ∧ saveLegal s 0 6 = true ∧ resettingTenant s 0 = false ∧
     (let q := { s with tables := qmap (fun _ t => { t with tenants := { tenantMax with maxSlots := 1 } :: t.tenants.tail }) s.tables }
      (tenantOf q 0 0).maxSlots ≤ tenantSlots q 0 [] 0 ∧ releasesFor q 0 6 = some []) ∧
     (let q := { s with tables := qmap (fun _ t => { t with tenants := { tenantMax with state := .resetting } :: t.tenants.tail }) s.tables }
      (ctxOf q 0 6).state ≠ .free ∧ resettingTenant q 0 = true)) ∧
    holdsSlot corePkg 0 5 = true ∧ slotHolding corePkg 0 5 = some 47 ∧ (slotOf corePkg 0 47).state ≠ .loading ∧
    slotHolding corePkg 0 6 = none ∧ (slotOf (slotPkg .saving false) 0 47).state = .saving ∧ (slotOf corePkg 0 47).discard = false ∧
    slotHolding (slotPkg .loading false) 0 5 = some 47 ∧ (slotOf (slotPkg .loading false) 0 47).state = .loading ∧
    slotHolding (slotPkg .stopping true) 0 5 = some 47 ∧ (slotOf (slotPkg .stopping true) 0 47).discard = true ∧
    (let s := setLamp groupPkg 0 { getLamp groupPkg 0 with draining := some (7, 0, false) }
     0 + 1000000 ≤ s.now ∧ (slotOf s 0 47).state = .active ∧
     (∃ b ∈ (getCores s 0).blocks, b.2.core / 4 = 7 ∧ (blockDisp s 0 b.2).map (fun y => y.ctx) = some 5) ∧
     ({ s with now := 999999 } : State).now < 0 + 1000000) := by
  unfold Served; decide +kernel

/-- R133: slot 47 is evicted for context 7. -/
theorem test_auto_evict :
    (match exec (.autoEvictDecision 0) (starvedPkg true) with
     | .next t => (decide ((slotOf t 0 47).state = .stopping), (getCores t 0).auto) | _ => (false, none)) = (true, some 7) := by decide +kernel

/-- R136: the context left on cluster 7 is evicted. -/
theorem test_cluster_drain :
    (match exec (.clusterDrainTimeout 0 7) (setLamp groupPkg 0 { getLamp groupPkg 0 with draining := some (7, 0, false) }) with
     | .next t => decide ((slotOf t 0 47).state = .stopping) | _ => false) = true := by decide +kernel

/-! ### Shader instructions -/

/-- A shader instruction word (Table 8.1). -/
def wordOf (op fmt dst s0 s1 s2 pred md : Nat) : W64 :=
  BitVec.ofNat 64 (op * 2 ^ 54 + fmt * 2 ^ 51 + dst * 2 ^ 43 + s0 * 2 ^ 35 + s1 * 2 ^ 27 + s2 * 2 ^ 19 + pred * 2 ^ 16 + md)

/-- The first group of `groupPkg`. -/
def firstGroup : GRef := { die := 0, gid := ((getCores groupPkg 0).groups.map (fun e => e.1)).headD 0 }

/-- `groupPkg` with the words `w` and `e` at that group's pc, predicate 1 set in lanes 0 to 7, registers 1 and 2 of lane 3 set. -/
def isaPkg (w e : W64) : State :=
  let s := memWriteWord (memWriteWord { groupPkg with now := 1000010 } 0x2001040 w) 0x2001048 e
  match groupOf s 0 firstGroup.gid with
  | some g =>
    let s1 := setGroup s 0 firstGroup.gid { g with preds := [0, 255, 0, 0, 0, 0, 0, 0], sregs := [(0, 5), (2, 0xFFFFFFFF), (3, 1)] }
    setCores s1 0 { getCores s1 0 with vrf := [(vrfKey 5 28 0 (256 + 32 + 3), 0x3F800000), (vrfKey 5 28 0 (256 + 64 + 3), 0xBF800000)] }
  | none => s

/-- Whether the first group issues `w` (with `e`) there, legal for `use`. -/
def issuesIsa (w e : W64) (use : Issue → Wd → Use) : Bool :=
  let s := isaPkg w e
  match issueOf s firstGroup with
  | some i =>
    (match codeWord s i.d i.x.ctx i.pc with
     | (.ok v, u) => v == w && (!bit w 13 || (match codeWord u i.d i.x.ctx (i.pc + 8) with | (.ok x, _) => x == e | _ => false))
        && mwf 0 (getCores u i.d).vrf
     | _ => false) && mwf 0 i.g.sregs && wordLegal (wdOf w e) (use i (wdOf w e)) && decide (wordTop (wdOf w e) (use i (wdOf w e)) ≤ i.x.vregs)
      && !(actingLanes i (wdOf w e)).isEmpty
  | none => false

/-- Words of each shape that issue: FP32, special, integer, `sel`, `shfl`. -/
theorem witness_vectorWords :
    (∀ x ∈ [(0 : Nat), 1, 2, 4, 5], issuesIsa (wordOf x 0 15 1 2 0 1 0x4001) 0 (fun _ w => aluUse (aluSrcs w.op) (.v 1) true) = true) ∧
    (∀ x ∈ [(6 : Nat), 7, 8], issuesIsa (wordOf x 0 15 1 0 0 0 0) 0 (fun _ w => aluUse (aluSrcs w.op) (.v 1) true) = true) ∧
    issuesIsa (wordOf 3 0 0 1 2 3 0 0) 0 (fun _ w => aluUse (aluSrcs w.op) (.v 1) true) = true ∧
    (∀ x ∈ [(0x140 : Nat), 0x141, 0x142, 0x143, 0x144, 0x145, 0x146],
      issuesIsa (wordOf x 0 3 1 0 0 0 0) 0 (fun _ w => aluUse (if w.op = 0x147 then 2 else 1) (.v 1) true) = true) ∧
    issuesIsa (wordOf 0x147 0 3 1 2 0 0 0) 0 (fun _ w => aluUse (if w.op = 0x147 then 2 else 1) (.v 1) true) = true ∧
    (∀ x ∈ [(0x40 : Nat), 0x41, 0x42, 0x44, 0x45, 0x46, 0x47, 0x48, 0x49, 0x4A, 0x4B, 0x4C, 0x4E, 0x4F, 0x50, 0x51],
      issuesIsa (wordOf x 0 3 1 2 0 0 0) 0 (fun _ w => aluUse (aluSrcs w.op) (.v 1) false) = true) ∧
    (∀ x ∈ [(0x4D : Nat), 0x52, 0x53, 0x56], issuesIsa (wordOf x 1 3 0x86 0 0 0 0x2000) 7 (fun _ w => aluUse (aluSrcs w.op) (.v 1) false) = true) ∧
    (∀ x ∈ [(0x43 : Nat), 0x54], issuesIsa (wordOf x 0 3 1 2 4 0 0) 0 (fun _ w => aluUse (aluSrcs w.op) (.v 1) false) = true) ∧
    issuesIsa (wordOf 0x55 0 3 1 2 7 0 0) 0 (fun _ _ => { a := .reg 1, b := .reg 1, c := .pred, d := .v 1 }) = true ∧
    issuesIsa (wordOf 0x57 0 3 1 2 0 0 0) 0 (fun _ _ => aluUse 2 (.v 1) false) = true := by decide +kernel

/-- Words that write predicates, masks and scalars. -/
theorem witness_scalarWords :
    issuesIsa (wordOf 0x15 0 7 1 2 0 0 0) 0 (fun _ _ => aluUse 2 .p true) = true ∧
    issuesIsa (wordOf 0x62 0 0 1 2 0 0 0) 0 (fun _ _ => aluUse 2 .p false) = true ∧
    issuesIsa (wordOf 0xF2 0 7 1 0 0 0 0) 0 (fun _ _ => { a := .pred, b := .pred, d := .p, predZero := true }) = true ∧
    issuesIsa (wordOf 0xF5 0 7 1 0 0 0 0) 0 (fun _ _ => { a := .pred, d := .p, predZero := true }) = true ∧
    issuesIsa (wordOf 0xF7 1 7 2 0 0 0 0) 0 (fun _ _ => { a := .sca 2, d := .p, predZero := true }) = true ∧
    issuesIsa (wordOf 0xF6 0 126 1 0 0 0 0) 0 (fun _ _ => { a := .pred, d := .s 2, predZero := true }) = true ∧
    issuesIsa (wordOf 0xF8 0 126 0 0 0 0 0) 0 (fun _ _ => { d := .s 2, predZero := true }) = true ∧
    issuesIsa (wordOf 0xF9 1 0 2 0 0 0 0) 0 (fun _ _ => { a := .sca 2, predZero := true }) = true ∧
    issuesIsa (wordOf 0x58 2 127 1 0x86 0 0 0x2000) 3 (fun _ _ => { a := .vec 1, b := .sca 1, d := .s 1 }) = true ∧
    issuesIsa (wordOf 0x83 7 127 2 0xE1 0 0 0x8000) 0 (fun _ _ => scalarUse 3 (.s 1) true) = true ∧
    issuesIsa (wordOf 0xC0 3 127 2 0xC5 0 0 0) 0 (fun _ _ => scalarUse 2 (.s 1) false) = true ∧
    issuesIsa (wordOf 0xD5 3 127 2 0xC5 1 0 0) 0 (fun _ _ => { a := .sca 1, b := .sca 1, c := .pred, d := .s 1, predZero := true }) = true ∧
    issuesIsa (wordOf 0x95 3 7 2 0xC5 0 0 0) 0 (fun _ _ => scalarUse 2 .p true) = true ∧
    issuesIsa (wordOf 0xE2 3 7 2 0xC5 0 0 0) 0 (fun _ _ => scalarUse 2 .p false) = true ∧
    issuesIsa (wordOf 0xF1 3 126 0 2 0 0 0) 0 (fun _ _ => { a := .sca 2, b := .sca 2, d := .s 2, predZero := true }) = true ∧
    issuesIsa (wordOf 0x303 0 1 0 0 0 0 0) 0 (fun _ _ => { d := .s 1, predZero := true }) = true ∧
    issuesIsa (wordOf 0x304 1 0 2 0 0 0 0) 0 (fun _ _ => { a := .sca 1, predZero := true }) = true ∧
    issuesIsa (wordOf 0x305 0 126 0 0 0 0 0) 0 (fun _ _ => { d := .s 2, predZero := true }) = true ∧
    issuesIsa (wordOf 0x306 0 0 0 0 0 0 0) 0 (fun _ _ => { predZero := true }) = true := by decide +kernel

/-- A vector register of the first group in a lane after a command. -/
def vectorAfter (c : Instr) (s : State) (r lane : Nat) : W32 :=
  match exec c s with
  | .next t => mget 0 (getCores t 0).vrf (vrfKey 5 28 0 (256 + r * 32 + lane))
  | _ => 0

/-- R180: 1.0 + (-1.0) is +0, and lane 3's `sub` gives 2.0. -/
theorem test_fp32_sub :
    (vectorAfter (.addF32 firstGroup (wordOf 0 0 15 1 2 0 0 0) 0) (isaPkg (wordOf 0 0 15 1 2 0 0 0) 0) 15 3,
     vectorAfter (.subF32 firstGroup (wordOf 1 0 15 1 2 0 0 0) 0) (isaPkg (wordOf 1 0 15 1 2 0 0 0) 0) 15 3) = (0, 0x40000000) := by decide +kernel

/-- R183: `mulhi.s32` of 1.0's bits and -1.0's bits as integers, against the unsigned form. -/
theorem test_mulhi :
    (vectorAfter (.mulhi firstGroup (wordOf 0x44 0 15 1 2 0 0 0) 0) (isaPkg (wordOf 0x44 0 15 1 2 0 0 0) 0) 15 3,
     vectorAfter (.mulhi firstGroup (wordOf 0x45 0 15 1 2 0 0 0) 0) (isaPkg (wordOf 0x45 0 15 1 2 0 0 0) 0) 15 3)
      = (0xF0004000, 0x2F804000) := by decide +kernel

/-- Table 8.8: `ssub64` borrows into the upper word. -/
theorem test_ssub64 :
    (match exec (.ssub64 firstGroup (wordOf 0xF1 3 126 0 2 0 0 0) 0) (isaPkg (wordOf 0xF1 3 126 0 2 0 0 0) 0) with
     | .next t => (groupOf t 0 firstGroup.gid).map (fun g => (mget 0 g.sregs 126, mget 0 g.sregs 127)) | _ => none)
      = some (6, 0xFFFFFFFE) := by decide +kernel

/-- Nine groups of quarter 0 of core 28, the first eight active: the ninth's class is above theirs, and it waits. -/
def turnsPkg (issues : Nat) (asleep : Option Nat) : State :=
  let k := getCores groupPkg 0
  let gs := (k.groups.take 1).flatMap (fun e =>
    let ps := e.2.paths ++ [.path 0x1040 1 none none]
    (countUp 0 8).map (fun n => (n, { e.2 with quarter := 0, active := true, since := n, issues := issues, paths := ps }))
      ++ [(8, { e.2 with quarter := 0, block := 1000, active := false, since := 9, sleepUntil := asleep })])
  let s := setCores groupPkg 0 { k with
    groups := gs
    blocks := k.blocks ++ k.blocks.map (fun e => (1000, { e.2 with disp := 1000 }))
    dispatches := k.dispatches ++ k.dispatches.map (fun e => (1000, { e.2 with ctx := 9 })) }
  putCtx s 9 { ctxOf s 0 5 with prio := 3 }

/-- A class displaced, the place of one that cannot issue, a path at its 64th issue, a sleeper at its end and before it. -/
theorem witness_turns :
    (getCores (turnsPkg 64 none) 0).groups.Pairwise (fun a b => a.1 < b.1) ∧
    ((getCores (turnsPkg 64 none) 0).groups.filter (fun e => e.2.quarter == 0 && groupCore (turnsPkg 64 none) 0 e.2 == 28 && e.2.active)).length = 8 ∧
    (∀ w ∈ pendingAble (turnsPkg 64 none) 0 28 0, w.since < (turnsPkg 64 none).now) ∧
    (∀ e ∈ (getCores (turnsPkg 64 none) 0).groups, e.2.quarter = 0 → groupCore (turnsPkg 64 none) 0 e.2 = 28 → e.2.active = true →
      e.2.paths.any pathIssues = true ∧ e.2.stopped = false ∧ e.2.sleepUntil = none) ∧
    (let s := turnsPkg 64 none
     (oldestActive s 0 28 0 (fun x =>
        ((match x.unable with | some t => decide (t + 30 ≤ s.now) && !ableGroup x | none => false) && !(pendingAble s 0 28 0).isEmpty) ||
        (decide (x.since + 3724 ≤ s.now) && (pendingAble s 0 28 0).any (fun w => decide (groupPrio s 0 x ≤ groupPrio s 0 w))))).map (fun e => e.1)
       = some 0) ∧
    (oldestActive (turnsPkg 64 none) 0 28 0 (fun x => groupPrio (turnsPkg 64 none) 0 x == 2)).map (fun e => e.1) = some 0 ∧
    (∀ r ∈ [0, 1], (oldestActive (turnsPkg 64 none) 0 28 0 (fun x => groupPrio (turnsPkg 64 none) 0 x == r)).isNone = true) ∧
    (∃ w ∈ pendingAble (turnsPkg 64 none) 0 28 0, 2 < groupPrio (turnsPkg 64 none) 0 w) ∧
    pendingAble groupPkg 0 28 0 = [] ∧
    (groupOf (turnsPkg 64 none) 0 0).map (fun x => (decide (64 ≤ x.issues), nextPath x.paths (x.cur + 1), x.cur)) = some (true, some 1, 0) ∧
    ((groupOf (turnsPkg 63 (some 1000000)) 0 8).bind (fun x => x.sleepUntil)) = some 1000000 ∧ (turnsPkg 63 (some 0)).now = 1000000 := by
  decide +kernel

/-- R122: the group of class 3 takes the oldest class-2 group's place. -/
theorem test_preempt :
    (match exec (.quarterPreempt 0 28 0) (turnsPkg 64 none) with
     | .next t => ((groupOf t 0 0).map (fun g => g.active), (groupOf t 0 8).map (fun g => g.active)) | _ => (none, none))
      = (some false, some true) := by decide +kernel

/-- R147: so it does when the oldest has held its place 3,724 ns. -/
theorem test_rotate :
    (match exec (.activeSetRotate 0 28 0) (turnsPkg 64 none) with
     | .next t => ((groupOf t 0 0).map (fun g => g.active), (groupOf t 0 8).map (fun g => g.active)) | _ => (none, none))
      = (some false, some true) := by decide +kernel

/-- A block at barrier 15 whose watchdog is at its limit, or short of it. -/
def orphanPkg (watch : Nat) : State :=
  let k := getCores groupPkg 0
  setCores groupPkg 0 { k with blocks := k.blocks.map (fun e => (e.1, { e.2 with arrivals := [15], watch := watch })) }

/-- An orphaned barrier at 2^24 cycles. -/
theorem witness_orphan :
    ((getCores (orphanPkg 15252015) 0).blocks.map (fun b => (b.2.arrivals, (blockDisp (orphanPkg 15252015) 0 b.2).map (fun x =>
      (decide (orphanNs x ≤ b.2.watch), decide (orphanNs x ≤ b.2.watch - 1), x.dead))))) = [([15], some (true, false, false))] ∧
    ((getCores (orphanPkg 0) 0).groups.find? (fun e => e.2.block == ((getCores (orphanPkg 0) 0).blocks.map (fun b => b.1)).headD 0)).isSome = true ∧
    (ctxOf (orphanPkg 0) 0 5).state = .live ∧ resettingTenant (orphanPkg 0) 0 = false := by decide +kernel

/-- The first group with one operation under a counter, and a fill of line 0x40020 on its core. -/
def countedPkg (o : CountedOp) (which : Nat) : State :=
  let s := groupPkg
  let s1 := setNear s 0 28 { lines := [], fills := [{ line := 0x40020, prefetch := false, offered := false, noInstall := which == 9 }] }
  match groupOf s1 0 firstGroup.gid with
  | some g => setGroup s1 0 firstGroup.gid (match which with
      | 0 => { g with vq := [o] } | 1 => { g with sq := [o] } | 2 => { g with tq := [o] } | _ => { g with mq := [o] })
  | none => s1

/-- A load, a scalar load, an atomic, a store and a texture result of one lane. -/
def opLoad (scalar : Bool) (got : Option (List Byte)) : CountedOp :=
  { serial := 0, issuedAt := 0, kind := .load 4 false scalar false, dst := 15, access := [⟨15, 0x2001000, 4, got⟩], result := [], flags := 0,
    dests := [(15, if scalar then 0 else 15)], stale := [], posted := false, pc := 0x1040 }
/-- An atomic `max.s32` of -1 on the kernel's first word. -/
def opAtomic (ret : Bool) : CountedOp :=
  { serial := 0, issuedAt := 0, kind := .atomic 3 32 ret [(15, 0xFFFFFFFF, 0)], dst := 15, access := [⟨15, 0x2001000, 4, none⟩], result := [],
    flags := 0, dests := if ret then [(15, 15)] else [], stale := [], posted := false, pc := 0x1040 }
/-- A store of two bytes to one address: the later lane's stands. -/
def opStore : CountedOp :=
  { serial := 0, issuedAt := 0, kind := .store [(0x2001000, 1), (0x2001000, 2)], dst := 0, access := [], result := [], flags := 0, dests := [],
    stale := [], posted := false, pc := 0x1040 }
/-- A fixed result. -/
def opFixed : CountedOp :=
  { serial := 0, issuedAt := 0, kind := .fixed, dst := 15, access := [], result := [(15, 15, 7)], flags := 1, dests := [(15, 15)], stale := [],
    posted := false, pc := 0x1040 }

/-- Whether an operation of the first group is at the front and can complete. -/
def completes (s : State) (q : Group → List CountedOp) (o : CountedOp) : Bool :=
  match issueAt s firstGroup with
  | some i => q i.g == [o] && !i.g.paths.isEmpty && mwf 0 (getCores s i.d).vrf && mwf 0 i.g.sregs && !opWaits s i.d o
      && (accessFault (noteOp s i.d o) i.d o).isNone && !o.posted && o.stale.isEmpty
  | none => false

/-- Operations of each kind at the front of their counters, and the fill. -/
theorem witness_completions :
    completes (countedPkg (opLoad false (some [1, 2, 3, 4])) 0) (·.vq) (opLoad false (some [1, 2, 3, 4])) = true ∧
    completes (countedPkg (opLoad true (some [1, 2, 3, 4])) 0) (·.vq) (opLoad true (some [1, 2, 3, 4])) = true ∧
    completes (countedPkg (opAtomic true) 0) (·.vq) (opAtomic true) = true ∧ completes (countedPkg (opAtomic false) 1) (·.sq) (opAtomic false) = true ∧
    completes (countedPkg opStore 1) (·.sq) opStore = true ∧ completes (countedPkg opFixed 2) (·.tq) opFixed = true ∧
    completes (countedPkg opFixed 3) (·.mq) opFixed = true ∧ Memory.wf (countedPkg opStore 1).mem ∧
    (let s := countedPkg (opLoad false none) 0
     mwf ({ lines := [], fills := [] } : NearCache) (getCores s 0).near = true ∧
     ((nearOf s 0 28).fills.find? (fun x => x.line == 0x40020)).isSome = true ∧ reach s 0 (dieOf (0x40020 * 128)) = true ∧
     dieOf (0x40020 * 128) = 0 ∧ rowWaits s (0x40020 * 128) 128 = false ∧
     (∀ k ∈ [0, 1], poisonAt (noteRead s (0x40020 * 128) 128) (0x40020 * 128 + 64 * k) = false) ∧ pendingStores s 0 (fun _ g => groupCore s 0 g == 28) = [] ∧
     (groupOf s 0 firstGroup.gid).map (fun g => groupCore s 0 g) = some 28 ∧ 0x2001000 / 128 = 0x40020) ∧
    ((nearOf (countedPkg opFixed 9) 0 28).fills.map (fun f => f.noInstall)) = [true] := by decide +kernel

/-- An operation of the first group whose memory is die 1's, a COHERENT load, and a fill of a line of die 1. -/
theorem witness_remoteOperations :
    let o : CountedOp := { opLoad false none with kind := .load 4 false false true, access := [⟨15, 0x200000000, 4, none⟩] }
    let st : CountedOp := { opStore with kind := .store [(0x200000000, 1)] }
    let up (s : State) : State := { s with cords := rep 6 { cordReset with lit := true, state := .up, width := 3 } }
    (match bringOn (up (countedPkg o 0)) 0 firstGroup.gid o with | .waits _ p => p.serial == o.serial | _ => false) = true ∧
    (match bringOn (up (countedPkg st 1)) 0 firstGroup.gid st with | .waits _ p => p.serial == st.serial | _ => false) = true ∧
    completes (up (countedPkg o 0)) (·.vq) o = true ∧ completes (up (countedPkg st 1)) (·.sq) st = true ∧
    (∀ sc ∈ [true, false], let h : CountedOp := { opLoad sc none with kind := .load 4 false sc true }
      completes (countedPkg h 0) (·.vq) h = true ∧ ∀ a ∈ h.access, a.got = none ∧ dieOf a.pa = 0) ∧
    (let s := up (setNear groupPkg 0 28 { lines := [], fills := [{ line := 0x4000000, prefetch := false, offered := false, noInstall := false }] })
     ((nearOf s 0 28).fills.find? (fun x => x.line == 0x4000000)).isSome = true ∧ dieOf (0x4000000 * 128) ≠ 0 ∧
     answersOf ((fillAsks 28 0x4000000).foldl (askDie 0) s) 0 (fillAsks 28 0x4000000) = none) := by decide +kernel

/-- R160: the fill delivers the word to the waiting load, and VCNT's decrement puts it into the register. -/
theorem test_load_completes :
    (match exec (.nearCacheFill 0 28 0x40020) (countedPkg (opLoad false none) 0) with
     | .next t => vectorAfter (.vcntDecrement firstGroup) t 15 15 | _ => 0) = 0x0101574B := by decide +kernel

/-- R222: the later of two stores to one byte stands. -/
theorem test_store_order :
    (match exec (.scntDecrement firstGroup) (countedPkg opStore 1) with | .next t => memByte t 0x2001000 | _ => 0) = 2 := by decide +kernel

/-- Words of the convert class and of the matrix instruction that issue: FP32 to E4M3 at position 3, blocks of INT8, an MX operand. -/
theorem witness_convertWords :
    issuesIsa (wordOf 0x100 0 31 1 0 0 0 (3 + 3 * 2 ^ 8)) 0 (fun _ _ => { a := .reg 1, d := .v 1, mods := 0xFFF }) = true ∧
    cvtListed 0 3 = true ∧ 3 < fmtPositions 3 ∧ 0 < fmtPositions 0 ∧
    issuesIsa (wordOf 0x101 0 31 1 0 0 0 9) 0 (fun _ _ => { a := .reg 1, d := .v 1, mods := 0xF, predZero := true }) = true ∧
    mxCode 9 = true ∧ (issueOf (isaPkg 0 0) firstGroup).map (fun i => i.x.width) = some 32 ∧
    issuesIsa (wordOf 0x102 0 31 1 2 0 0 (9 * 2 ^ 4 + 3 * 2 ^ 10)) 0 (fun _ _ => { a := .reg 1, b := .reg 1, d := .v 1, mods := 0xCF0 }) = true ∧
    issuesIsa (wordOf 0x240 0 8 0 4 8 0 0xAA) 0 mmaUse = true ∧
    issuesIsa (wordOf 0x240 0 8 0 4 0 0 (0x2000 + 0x209)) 0x11 mmaUse = true ∧
    (issueOf (isaPkg 0 0) firstGroup).map (fun i => mmaLegal i (wdOf (wordOf 0x240 0 8 0 4 8 0 0xAA) 0) &&
      mmaLegal i (wdOf (wordOf 0x240 0 8 0 4 0 0 (0x2000 + 0x209)) 0x11) &&
      !mmaLegal i (wdOf (wordOf 0x240 0 8 0 4 0 0 (0x209 + 0x90)) 0)) = some true := by decide +kernel

/-- Lanes of the first group whose addresses the instruction `w` names, translated. -/
def lanesResolve (w e : W64) (one wr : Bool) : Bool :=
  let s := isaPkg w e
  match issueOf s firstGroup with
  | some i =>
    let wd := wdOf w e
    let ls := if one then [(0, laneAddr s i wd 2 (scalarLane i))] else (actingLanes i wd).map (fun l => (l, laneAddr s i wd (fldN wd.mod 7 6) l))
    match (resolveLanes i.d i.x.ctx wr (sizeBytes (fldN wd.mod 4 2)) ls s []).1 with
    | .ok ps => ps.length == ls.length
    | .error _ => false
  | none => false

/-- How a load of lanes at two lines begins on a near cache: whether its line is poisoned, and whether every access is served or waits. -/
def loadBegins (near : NearCache) : Bool × Bool :=
  let todo : List LaneAccess := [⟨0, 0x1000, 4, none⟩, ⟨1, 0x1080, 4, none⟩]
  ((todo.find? (fun a => a.got.isNone && nearPoison near a.pa)).isSome, (beginAccesses true false todo near []).2.2)

/-- Near caches with room for both fills, with one fill too few, and with a poisoned line; a kernel's group has nothing begun. -/
theorem witness_loadBegins :
    let f (k : Nat) : NearFill := { line := 1000 + k, prefetch := false, offered := false, noInstall := false }
    loadBegins { lines := [], fills := [] } = (false, true) ∧ loadBegins { lines := [], fills := (countUp 0 15).map f } = (false, false) ∧
    loadBegins { lines := [{ line := 0x20, data := rep 128 7, poison := [0], offered := false }], fills := [] } = (true, true) ∧
    (issueOf (isaPkg 0 0) firstGroup).map (fun i => (i.g.part, i.x.geo.isNone, decide (i.g.vq.length < 63), decide (i.g.sq.length < 63)))
      = some (none, true, true, true) ∧
    mwf ({ lines := [], fills := [] } : NearCache) (getCores (isaPkg 0 0) 0).near = true := by decide +kernel

/-- Loads, stores and atomics with every lane at VA 5 + 2^32 x 0, or at the extension word's offset: bytes, words, quads of words. -/
theorem witness_memoryWords :
    issuesIsa (wordOf 0x180 1 31 4 0 0 1 (0x2000 + 0x80)) 0x100 (fun _ w => let a := addrSrc (fldN w.mod 7 6)
      { a := a.1, b := a.2, d := .v 1, mods := 0xFF }) = true ∧
    lanesResolve (wordOf 0x180 1 31 4 0 0 1 (0x2000 + 0x80)) 0x100 false false = true ∧
    issuesIsa (wordOf 0x181 1 0 4 0 1 1 (0x2000 + 0x80 + 8)) 0x100 (fun _ w => let a := addrSrc (fldN w.mod 7 6)
      { a := a.1, b := a.2, c := .reg 1, mods := 0xFF }) = true ∧
    lanesResolve (wordOf 0x181 1 0 4 0 1 1 (0x2000 + 0x80 + 8)) 0x100 false true = true ∧
    issuesIsa (wordOf 0x182 1 120 4 0 0 0 (0x2000 + 0x80 + 0x14)) 0x100 (fun _ _ => { a := .sca 2, d := .s 8, mods := 0xFF, predZero := true }) = true ∧
    lanesResolve (wordOf 0x182 1 120 4 0 0 0 (0x2000 + 0x80 + 0x14)) 0x100 true false = true ∧
    issuesIsa (wordOf 0x183 5 0 4 0 2 0 (0x2000 + 0x80 + 8)) 0x100 (fun _ _ => { a := .sca 2, c := .sca 1, mods := 0xFF, predZero := true }) = true ∧
    lanesResolve (wordOf 0x183 5 0 4 0 2 0 (0x2000 + 0x80 + 8)) 0x100 true true = true ∧
    (∀ x ∈ [(0x280 : Nat), 0x281, 0x285, 0x288, 0x289],
      issuesIsa (wordOf x 1 31 4 1 0 1 (0x2000 + 0x80 + 8 + 0x20)) 0x100 (fun _ _ => atomicUse false 2 1 true) = true) ∧
    lanesResolve (wordOf 0x280 1 31 4 1 0 1 (0x2000 + 0x80 + 8 + 0x20)) 0x100 false true = true ∧
    issuesIsa (wordOf 0x28A 1 0 4 2 4 1 (0x2000 + 0x80 + 0xC)) 0x100 (fun _ _ => atomicUse true 2 2 false) = true ∧
    issuesIsa (wordOf 0x28A 1 0 4 1 2 1 (0x2000 + 0x40 + 8)) 0x1F00000000 (fun _ _ => atomicUse true 1 1 false) = true ∧
    casExtReg (wdOf (wordOf 0x28A 1 0 4 1 2 1 (0x2000 + 0x40 + 8)) 0x1F00000000) = 31 ∧
    lanesResolve (wordOf 0x180 1 31 2 0 0 1 (0x2000 + 0x80)) 0x100 false false = false := by decide +kernel

/-- The first lane's access of a load and its destination. -/
theorem test_ld_issue :
    (match exec (.ld firstGroup (wordOf 0x180 1 31 4 0 0 1 (0x2000 + 0x80)) 0x100) (isaPkg (wordOf 0x180 1 31 4 0 0 1 (0x2000 + 0x80)) 0x100) with
     | .next t => (groupOf t 0 firstGroup.gid).map (fun g => g.vq.map (fun o => (o.dests.length, (o.access.map (fun a => a.pa)).headD 0)))
     | _ => none) = some [(8, 0x2000100)] := by decide +kernel

/-- Tile words: every lane at offset 3 of the group's first scalar, words in and at the end of the allocation. -/
def tileOk (w e : W64) : Bool :=
  match issueOf (isaPkg w e) firstGroup with
  | some i => let wd := wdOf w e
    (tileFault i (sizeBytes (fldN wd.mod 4 2)) ((actingLanes i wd).map (fun l => (l, tileAddr (isaPkg w e) i wd l)))).isNone
  | none => false

/-- Tile loads, stores and atomics that stay inside the allocation (its last word), and one that does not. -/
theorem witness_tileWords :
    issuesIsa (wordOf 0x1C0 1 31 0x86 0 0 1 (0x2000 + 8)) 0x3FC00000000 (fun _ w => { a := .reg 1, d := .v (sizeRegs (fldN w.mod 4 2)), mods := 0x3C }) = true ∧
    tileOk (wordOf 0x1C0 1 31 0x87 0 0 1 (0x2000 + 8)) 0x3FC00000000 = true ∧ tileOk (wordOf 0x1C0 1 31 0x87 0 0 1 (0x2000 + 8)) 0x40000000000 = false ∧
    issuesIsa (wordOf 0x1C1 1 0 0x87 0 1 1 (0x2000 + 8)) 0x3FC00000000 (fun _ _ => { a := .reg 1, c := .reg 1, mods := 0x5C }) = true ∧
    issuesIsa (wordOf 0x1C1 1 0 0x87 0 1 1 (0x2000 + 0x48)) 0x3FC00000000 (fun _ _ => { a := .reg 1, c := .reg 1, mods := 0x5C }) = true ∧
    (∀ x ∈ [(0x1C2 : Nat), 0x1C3, 0x1C4, 0x1C5, 0x1C6, 0x1C7, 0x1CB, 0x1CC, 0x1C8, 0x1CA],
      issuesIsa (wordOf x 1 31 0x87 1 0 1 (0x2000 + 8)) 0x3FC00000000 (fun _ _ => { a := .reg 1, b := .reg 1, d := .v 1, mods := 0x1C }) = true) ∧
    issuesIsa (wordOf 0x1C9 1 31 0x87 1 2 1 (0x2000 + 8)) 0x3FC00000000 (fun _ _ => { a := .reg 1, b := .reg 1, c := .reg 1, d := .v 1, mods := 0x1C }) = true ∧
    mwf 0 (getCores (isaPkg 0 0) 0).tile = true := by decide +kernel

/-- R223: eight lanes add 1 to one tile word; the last reads 7. -/
theorem test_tatom_order :
    vectorAfter (.tatomInt firstGroup (wordOf 0x1C2 3 31 0x87 0xC1 0 1 (0x2000 + 8)) 0x3FC00000000)
      (isaPkg (wordOf 0x1C2 3 31 0x87 0xC1 0 1 (0x2000 + 8)) 0x3FC00000000) 31 7 = 7 := by decide +kernel

/-- `isaPkg` with a 2D texture descriptor of format `fmt`, 4 x 4, at VA 0, its data at VA 0x5000, and a nearest sampler after it. -/
def texPkg (w : W64) (fmt : Byte) : State :=
  memWrite (isaPkg w 0) 0x2000000 ([0, 0x50] ++ rep 14 0 ++ [4, 0, 4, 0, 1, 0, 1, fmt, 1, 0, 0x88, 0x06] ++ rep 36 0
    ++ [0, 0, 0, 0, 2, 2, 2] ++ rep 25 0)

/-- What a texture word meets: the word issued and legal with an acting lane, its descriptor and sampler good, its lanes read. -/
def texOk (w : W64) (fmt : Byte) (n : Nat) (use : Use) : Option (Bool × Bool × Bool) :=
  let s := texPkg w fmt
  let wd := wdOf w 0
  (issueOf s firstGroup).bind (fun i =>
    match codeWord s i.d i.x.ctx i.pc with
    | (.ok v, u) =>
      if v = w ∧ wordLegal wd use = true ∧ wordTop wd use ≤ i.x.vregs ∧ actingLanes i wd ≠ [] then
        match texBytes u i wd n with
        | (.ok b, z) =>
          some (((texDescOf b).map (fun d => texAgrees (texMod wd) d)).getD false, n == 64 || (samplerOf (b.drop 64)).isSome,
            match texDescOf b with
            | some d =>
              (match (texLanes (fun l t => texldLane t i wd d l) (actingLanes i wd) z []).1, (texstLanes i wd d (actingLanes i wd) z []).1 with
               | .ok a, .ok _ => a.length == (actingLanes i wd).length | _, _ => false)
            | none => false)
        | _ => none
      else none
    | _ => none)

/-- Texture words that issue, with a descriptor that is good and one that is not. -/
theorem witness_textureWords :
    texOk (wordOf 0x200 2 28 2 4 0 1 0x3D9) 1 96 { a := .reg 2, b := .sca 2, d := .v 4, mods := 0x3FF } = some (true, true, true) ∧
    texOk (wordOf 0x201 2 28 2 4 0 1 0x3D9) 1 64 { a := .reg 2, b := .sca 2, d := .v 4, mods := 0x3FF } = some (true, true, true) ∧
    texOk (wordOf 0x201 2 28 2 4 0 1 0x3D9) 0xFF 64 { a := .reg 2, b := .sca 2, d := .v 4, mods := 0x3FF } = some (false, true, false) ∧
    texOk (wordOf 0x203 2 28 0 4 0 1 0x3D9) 1 64 { b := .sca 2, d := .v 4, mods := 0x3FF } = some (true, true, true) ∧
    texOk (wordOf 0x202 2 0 2 4 4 1 0x3D9) 1 64 { a := .reg 2, b := .sca 2, c := .reg 4, mods := 0x3FF } = some (true, true, true) ∧
    isTarget 1 = true ∧ (issueOf (isaPkg 0 0) firstGroup).map (fun i => decide (i.g.tq.length < 63)) = some true := by decide +kernel

/-- R224: `texq` gives width, height, depth and levels. -/
theorem test_texq :
    (match exec (.texq firstGroup (wordOf 0x203 2 28 0 4 0 1 0x3D9) 0) (texPkg (wordOf 0x203 2 28 0 4 0 1 0x3D9) 1) with
     | .next t => (groupOf t 0 firstGroup.gid).map (fun g => g.tq.map (fun o => (o.result.take 4).map (fun r => r.2.2))) | _ => none)
      = some [[4, 4, 1, 1]] := by decide +kernel

/-- Control words of the first group, which has one path, at the boundary of each clause: no lane, every lane, eight lanes taken. -/
theorem witness_controlWords :
    issuesIsa (wordOf 0x2C0 0 0 0 0 0 1 0x2000) 0x0000010000000100 (fun _ _ => {}) = true ∧
    fld (0x0000010000000100 : W64) 2 0 = 0 ∧ fld (0x0000010000000100 : W64) 34 32 = 0 ∧
    (issueOf (isaPkg (wordOf 0x2C0 0 0 0 0 0 1 0x2000) 0x0000020000000100) firstGroup).map (fun i =>
      (i.g.paths == [.path i.pc i.mask none none] && i.g.cur == 0 && i.b.arrivals == [] && decide (i.mask < 2 ^ i.x.width),
       (pathExec i).length)) = some (true, 32) ∧
    (issueOf (isaPkg (wordOf 0x2C0 0 0 0 0 0 1 0x2000) 0x0000020000000100) firstGroup).map (fun i =>
      [1, 0, 2].map (fun q => ((pathExec i).filter (fun l => predBit i.g q l)).length)) = some [8, 32, 0] ∧
    (issueOf (isaPkg (wordOf 0x2C0 0 0 0 0 0 1 0x2000) 0x0000020000000100) firstGroup).map (fun i =>
      [pcPlus i.pc 0x200, pcPlus i.pc 0x100, i.pc + 16])
      = some [0x1240, 0x1140, 0x1050] := by decide +kernel

/-- The other control words: calls, returns, exits, barriers, waits and the near-cache invalidation. -/
theorem witness_controlWords2 :
    issuesIsa (wordOf 0x2C1 0 126 0 0 0 0 0x2000) 0xFFFFFFF8 (fun _ _ => { d := .s 2, predZero := true }) = true ∧
    issuesIsa (wordOf 0x2C2 1 0 4 0 0 0 0) 0 (fun _ _ => { a := .sca 2, predZero := true }) = true ∧
    issuesIsa (wordOf 0x2C3 0 0 0 0 0 1 0) 0 (fun _ _ => {}) = true ∧ issuesIsa (wordOf 0x2C3 0 0 0 0 0 0 0) 0 (fun _ _ => {}) = true ∧
    (getCores (isaPkg 0 0) 0).groups.Pairwise (fun a b => a.1 < b.1) ∧
    issuesIsa (wordOf 0x2C4 0 0 0 0 0 0 15) 0 (fun _ _ => { mods := 0xF, predZero := true }) = true ∧
    (issueOf (isaPkg 0 0) firstGroup).map (fun i => (arrivedAt (isaPkg 0 0) 0 i.g.block 15 + popcount 64 i.mask
      + exitedLanes (isaPkg 0 0) 0 i.g.block i.x, i.x.groups * i.x.width)) = some (32, 160) ∧
    issuesIsa (wordOf 0x300 0 63 63 0 63 0 0) 0 (fun _ _ => { a := .raw 64, b := .raw 64, c := .raw 64, d := .raw 64, predZero := true }) = true ∧
    issuesIsa (wordOf 0x301 1 0 0xC1 0 0 0 0) 0 (fun _ _ => { a := .sca 1, predZero := true }) = true ∧
    issuesIsa (wordOf 0x302 0 0 0 0 0 0 0) 0 (fun _ _ => { predZero := true }) = true := by decide +kernel

/-- R149: eight lanes branch: a join, the rest at the next instruction, the taken ones at the target. -/
theorem test_br_diverges :
    (match exec (.br firstGroup (wordOf 0x2C0 0 0 0 0 0 1 0x2000) 0x0000020000000100) (isaPkg (wordOf 0x2C0 0 0 0 0 0 1 0x2000) 0x0000020000000100) with
     | .next t => (groupOf t 0 firstGroup.gid).map (fun g => g.paths) | _ => none)
      = some [.join 0x1240 0xFFFFFFFF 0 none, .path 0x1050 0xFFFFFF00 (some 0x1240) none, .path 0x1140 0xFF (some 0x1240) none] := by decide +kernel

/-- R232: eight lanes exit, and the rest go on. -/
theorem test_exit_lanes :
    (match exec (.exit firstGroup (wordOf 0x2C3 0 0 0 0 0 1 0) 0) (isaPkg (wordOf 0x2C3 0 0 0 0 0 1 0) 0) with
     | .next t => (groupOf t 0 firstGroup.gid).map (fun g => (g.paths, g.exited, g.exec)) | _ => none)
      = some ([.path 0x1048 0xFFFFFF00 none none], 0xFF, 0xFFFFFF00) := by decide +kernel

/-- Words that are illegal: a reserved opcode, a reserved modifier, a register beyond the kernel's 32; a fetch that is misaligned. -/
theorem witness_illegalWords :
    (issueOf (isaPkg (wordOf 0x3FF 0 0 0 0 0 0 0) 0) firstGroup).map (fun i => (i.x.dead, i.x.ctx)) = some (false, 5) ∧
    opListed (wdOf (wordOf 0x3FF 0 0 0 0 0 0 0) 0).op = false ∧ (ctxOf (isaPkg 0 0) 0 5).state = .live ∧ resettingTenant (isaPkg 0 0) 0 = false ∧
    (match codeWord (isaPkg 0 0) 0 5 0x1044 with | (.error e, _) => decide (e = (0x0316, 0)) | _ => false) = true ∧
    wordLegal (wdOf (wordOf 0x40 0 3 1 2 0 0 1) 0) (aluUse 2 (.v 1) false) = false ∧
    wordLegal (wdOf (wordOf 0x40 0 255 1 2 0 0 0) 0) (aluUse 2 (.v 1) false) = true ∧
    32 < wordTop (wdOf (wordOf 0x40 0 255 1 2 0 0 0) 0) (aluUse 2 (.v 1) false) := by decide +kernel

/-- R205: a reserved opcode faults the context in whatever row it is offered. -/
theorem test_reserved_opcode :
    (match exec (.nop firstGroup (wordOf 0x3FF 0 0 0 0 0 0 0) 0) (isaPkg (wordOf 0x3FF 0 0 0 0 0 0 0) 0) with
     | .next t => decide ((ctxOf t 0 5).state = .faulted) | _ => false) = true := by decide +kernel

/-! ### Render passes -/

/-- A pass state block (Table 9.2): 64 x 64, no attachment, its scissor the area. -/
def passBlock : List Byte := [64, 0, 64] ++ rep 13 0 ++ [0, 0, 0x80, 0x42, 0, 0, 0x80, 0x42] ++ rep 8 0 ++ [0, 0, 0, 0, 64, 0, 64] ++ rep 985 0

/-- A kernel header of one group of 32 lanes and 32 registers. -/
def drawKernel : List Byte := [0x4B, 0x57, 1, 1, 32, 0, 1, 0, 0, 0] ++ rep 6 0 ++ [0x40, 0x90] ++ rep 46 0

/-- A draw record (Table 9.4): one triangle without indices, both kernels at VA 0x9000. -/
def drawBytes (prims : Byte) : List Byte := [prims] ++ rep 8 0 ++ [0x90] ++ rep 7 0 ++ [0x90] ++ rep 46 0

/-- A `k.bin` descriptor (Table 9.1): pass 7 on the dies of a mask, block at 0x6000, one draw at 0x7000, a pool of 2 MiB at 0x20000. -/
def binDesc (dies : Byte) : List Byte :=
  rep 16 0 ++ [7, 0, 0, 0, dies, 0, 0, 0, 0, 0x60] ++ rep 6 0 ++ [0, 0x70] ++ rep 6 0 ++ [1] ++ rep 7 0 ++ [0, 0, 2] ++ rep 5 0 ++ [0, 8] ++ rep 70 0

/-- `corePkg` with a pass's memory, and that descriptor at the head of GEO's queue on die 0. -/
def geoPkg (dies : Byte) (ok : Bool) : State :=
  let s := memWrite (memWrite (memWrite corePkg 0x2006000 (passBlock.take 40)) 0x2007000 ((drawBytes 1).take 18)) 0x2009000 (drawKernel.take 18)
  let desc := if ok then binDesc dies else (binDesc dies).take 0x2C ++ [1] ++ (binDesc dies).drop 0x2D
  let s1 := setEngine s 0 0 { engineReset with subs := [⟨0, 3, 0, desc⟩], count := 2 ^ 32 - 1 }
  setFrame { s1 with cords := rep 6 { cordReset with state := .up }, agree := { s1.agree with joined := 3 } } 0 0 { frameOf' s 0 0 with park := .submitted 0 31 }

/-- Descriptors: acceptable, of a leader without a lit die, breaking Table 9.1. -/
theorem witness_passDescriptors :
    (∀ k ∈ [true, false], dieRuns (geoPkg 1 k) 0 = true ∧ (engineOf (geoPkg 1 k) 0 0).subs.length = 1 ∧ (engineOf (geoPkg 1 k) 0 0).full = [] ∧ (engineOf (geoPkg 1 k) 0 0).fenced = false ∧ (ctxOf (geoPkg 1 k) 0 5).state ≠ .faulted ∧
      (getStk (geoPkg 1 k) 0).engines.length = 13 ∧ (getStk (geoPkg 1 k) 0).frames.length = 32) ∧
    binLegal 0 (binDesc 1) = true ∧ binLegal 0 ((binDesc 1).take 0x2C ++ [1] ++ (binDesc 1).drop 0x2D) = false ∧
    ((diesOf 1).filter (litForRender (geoPkg 1 true))) = [0] ∧
    ((diesOf 1).filter (litForRender { geoPkg 1 true with lamps := qall lampReset })) = [] ∧
    (match binSides (geoPkg 1 true) 0 5 (binDesc 1) with
     | (.ok (_, os, _), s1) =>
       (match fenceSide s1 0 5 (binDesc 1) with
        | (.ok (h, p, fo), s2) => !h && p == 0 && pinRoom s2 0 (joinObjs os fo)
        | _ => false)
     | _ => false) = true ∧
    (frameOf' (geoPkg 1 true) 0 0).park = .submitted 0 31 ∧ (frameOf' (geoPkg 1 true) 0 0).walk = none ∧
    mwf 0 (frameOf' (geoPkg 1 true) 0 0).regs = true ∧
    subCtx (geoPkg 1 true) 0 ⟨0, 3, 0, binDesc 1⟩ = 5 ∧
    (let p := passOfDesc 0 5 0 ⟨0, 3, 0, binDesc 1⟩ 0
     p.leader = 0 ∧ endedEntry (geoPkg 1 true) 0 p = none ∧ endedEntry { geoPkg 1 true with lamps := qall lampReset } 0 p = none) := by decide +kernel

/-- Table 9.1: the pass accepted, its number, its lit set and the wrapped count. -/
theorem test_pass_accepted :
    (match exec (.binAccept 0) (geoPkg 1 true) with
     | .next t => (getGeo t 0).passes.map (fun p => (p.pass, p.lit, p.sub, p.poolKib)) | _ => []) = [(7, some [0], 0, 2048)] := by decide +kernel

/-- The pass accepted, on dies 0 and 1, in some state of its own. -/
def passesPkg (f : DieId → GeoPass → GeoPass) : State :=
  let p := passOfDesc 0 5 0 ⟨0, 3, 0, binDesc 3⟩ 0
  { geoPkg 1 true with
    geo := qmap (fun d u => if d.val < 2 then { u with passes := [f d { p with block := passBlock, pages := [(0, 0x2000000)], lit := some [0, 1] }] } else u)
      (qall geoReset) }

/-- A join of both dies, one that waits for die 1, one with a differing descriptor, one that does not fit, an aborted pass. -/
theorem witness_joins :
    (joining (passesPkg (fun _ p => p)) 0).map (fun p => (p.pass, p.leader, notJoined (passesPkg (fun _ p => p)) p, blockOk p.block))
      = some (7, 0, [], true) ∧
    (joining (passesPkg (fun _ p => p)) 0).map (fun p => (decide (tileFootprint p.block ≤ (ctxOf (passesPkg (fun _ p => p)) 0 p.ctx).tileShare * 4096)))
      = some true ∧
    (∀ n, ((getGeo (passesPkg (fun _ p => p)) n).passes.map (fun q => q.sub)).Nodup) ∧ dieRuns (passesPkg (fun _ p => p)) 0 = true ∧
    (joining (passesPkg (fun d p => { p with phase := d.val })) 0).map (fun p => (notJoined (passesPkg (fun d p => { p with phase := d.val })) p, p.joinLogged))
      = some ([1], false) ∧
    (joining (passesPkg (fun d p => { p with drawCount := p.drawCount + d.val })) 0).map (fun p =>
      ((joining (passesPkg (fun d p => { p with drawCount := p.drawCount + d.val })) 1).map (fun q => differs p q)))
      = some (some true) ∧
    (joining (passesPkg (fun _ p => { p with block := p.block.set 7 1 })) 0).map (fun p => blockOk p.block) = some false ∧
    ((getGeo (passesPkg (fun _ p => { p with aborted := true })) 0).passes.find? (fun q => q.pass == 7 && q.aborted)).isSome = true := by
  decide +kernel

/-- The pass on both dies in some phase of its work. -/
def binPkg (f : DieId → GeoPass → GeoPass) : State := passesPkg (fun d p => f d { p with phase := 1, nextChunk := d.val })

/-- Vertices of the one triangle, in front. -/
def triVerts : List VertexOut :=
  [0, 1, 2].map (fun i => { draw := 0, index := i, x := if i = 1 then 0x3F000000 else 0, y := if i = 2 then 0x3F000000 else 0, z := 0, w := 0x3F800000,
                            attrs := [] })

/-- A record on its way, a chunk's marker. -/
def oneRecord : BinRec := { prim := 0, tiles := 1, sx := 0, sy := 0, src := 0, data := 0, draw := 0, ordered := false }

/-- The pass with its first chunk's vertex groups ended, its next chunk 2 on die 0 with a pool of `kib`: draw 0 has 512 primitives, draw 1 one. -/
def shortPkg (kib : Nat) : State :=
  let vs := triVerts.map (fun v => { v with draw := 1 })
  let s := passesPkg (fun d p => { p with phase := 1, nextChunk := 2 + d.val, drawCount := 2, poolKib := kib, begun := 1, verts := vs })
  memWrite (memWrite s 0x2007000 [0, 2]) 0x2007040 ((drawBytes 1).take 18)

/-- The first chunk before its vertex groups run and after they have ended. -/
def chunkPkg (begun : Nat) : State := binPkg (fun _ p => { p with begun := begun, verts := triVerts })

/-- Chunks: not begun, begun with groups there and without, with a bad draw in each of the two, with a pool that is too small. -/
theorem witness_binning :
    (∀ b ∈ [0, 1], (passOf (chunkPkg b) 0 7).map (fun p =>
      (p.phase, p.flushTo, p.nextChunk, chunksIn (drawTable (chunkPkg b) 0 p), p.begun)) = some (1, none, 0, 1, b)) ∧ dieRuns (chunkPkg 0) 0 = true ∧
    (passOf (chunkPkg 0) 0 7).map (fun p => (binFree (chunkPkg 0) 0 p, (countUp 0 (0 - 8)).all (knownDone p 0), flushDue (chunkPkg 0) p 1,
      (beginChunk 0 p 0 (drawsOf (drawTable (chunkPkg 0) 0 p) 0) (chunkPkg 0)).1)) = some (true, true, false, none) ∧
    (let s := memWrite (chunkPkg 0) 0x2007004 [4]
     (passOf s 0 7).map (fun p => ((beginChunk 0 p 0 (drawsOf (drawTable s 0 p) 0) s).1,
       match prepChunk 0 p 0 triVerts (drawsOf (drawTable s 0 p) 0) s with | (.bad i, _) => i == 0 | _ => false)) = some (some 0, true)) ∧
    (passOf (chunkPkg 1) 0 7).map (fun p => (geoBusy (chunkPkg 1) 0 p.sub none,
      match prepChunk 0 p 0 p.verts (drawsOf (drawTable (chunkPkg 1) 0 p) 0) (chunkPkg 1) with
        | (.ready ps, _) => decide (ps.length = 1) && decide (poolUsed (binChunk p 0 0 2 ps) ≤ 1024 * p.poolKib) | _ => false)) = some (false, true) ∧
    (passOf (shortPkg 0) 0 7).map (fun p =>
      match prepChunk 0 p 2 p.verts (drawsOf (drawTable (shortPkg 0) 0 p) 2) (shortPkg 0) with
        | (.ready ps, s1) => decide (1024 * p.poolKib < poolUsed (binChunk p 0 2 2 ps)) &&
            decide (p.flushed < lowestOpen (setPass s1 0 { p with begun := 2 }) p (chunksIn (drawTable (shortPkg 0) 0 p))) | _ => false) = some true ∧
    (let s := binPkg (fun _ p => { p with begun := 1, verts := triVerts, poolKib := 0 })
     (passOf s 0 7).map (fun p =>
      match prepChunk 0 p 0 p.verts (drawsOf (drawTable s 0 p) 0) s with
        | (.ready ps, s1) => decide (1024 * p.poolKib < poolUsed (binChunk p 0 0 2 ps)) &&
            decide (lowestOpen (setPass s1 0 { p with begun := 2 }) p (chunksIn (drawTable s 0 p)) ≤ p.flushed) | _ => false) = some true) ∧
    (ctxOf (chunkPkg 0) 0 5).state = .live ∧ resettingTenant (chunkPkg 0) (ctxOf (chunkPkg 0) 0 5).tenant = false := by
  decide +kernel

/-- R248: a chunk that begins has its vertex group launched, whose groups are then there. -/
theorem test_vertices_launched :
    (match exec (.chunkBin 0 7 0 .launch) (chunkPkg 0) with
     | .next t => ((passOf t 0 7).map (fun p => (p.begun, geoBusy t 0 p.sub none)),
         (getCores t 0).dispatches.map (fun e => e.2.geo.map (fun w => w.lanes.map (fun l => l.index))))
     | _ => (none, [])) = (some (1, true), [some [0, 1, 2]]) := by decide +kernel

/-- Die 0's stream to die 1 on its way, its first transaction received, and die 1's pass as `f` makes it. -/
def streamPkg (l : List BinItem) (f : GeoPass → GeoPass) : State :=
  let s := binPkg (fun d p => if d = 0 then { p with away := qset p.away 1 l } else f p)
  let s1 : State := { s with cords := rep 6 { cordReset with lit := true, state := .up, width := 3 } }
  setEnd s1 1 (endTo 1 0) { endOf s1 1 (endTo 1 0) with inbox := (binTx l).toList.map (fun p => p.1) }

/-- Streams with a record and with a marker first, with room in the pool and without. -/
theorem witness_streams :
    (∀ l ∈ [[BinItem.record oneRecord, .mark 0], [.mark 0]], let s := streamPkg l id
      ((0 : DieId) ≠ 1 ∧ (binHead s 0 1).isSome = true ∧ binHead s 0 1 = (binTx l).map (fun p => p.1) ∧ cordRuns s (cordIdx 0 1) = true ∧
        (cordOf s (cordIdx 0 1)).state = .up ∧ (getEnds s 1).length = 3) ∧
      (passOf s 0 7).bind (fun p => (mateOf s 1 p).map (fun q =>
        (decide (qget p.away 1 = l), decide ((1 : DieId) ∈ litOf q), mwf [] q.bins, decide (16 ≤ poolFree q)))) = some (true, true, true, true)) ∧
    ((binTx [BinItem.record oneRecord, .mark 0]).map (fun p => (p.1.hdr.typ.toNat, p.2)), (binTx [BinItem.mark 0]).map (fun p => (p.1.hdr.typ.toNat, p.2)))
      = (some (0x20, 1), some (0x21, 1)) ∧
    (let s := streamPkg [.mark 0] id
     (mateOf s 1 ((passOf s 0 7).getD (passOfDesc 0 0 0 ⟨0, 0, 0, []⟩ 0))).map (fun q =>
      ((litOf q).getD 0 q.leader, (qget q.inbox 0).length, q.flushTo.getD (chunksIn (drawTable s 1 q)), q.mergeNext)) = some (0, 0, 1, 0)) ∧
    (let s0 := streamPkg [.record oneRecord, .mark 0] (fun p => { p with poolKib := 0, nextChunk := 3, drawCount := 5 })
     let s := memWrite { s0 with geo := qset s0.geo 0 { getGeo s0 0 with passes := (getGeo s0 0).passes.map (fun p => { p with nextChunk := 2 }) } }
       0x2007000 ((drawBytes 0).set 1 4)
     (passOf s 0 7).bind (fun p => (mateOf s 1 p).map (fun q =>
       (decide (poolFree q < 16), decide (q.flushed < lowestOpen s q (chunksIn (drawTable s 1 q)))))) = some (true, true)) := by decide +kernel

/-- R251, R252: a record that has arrived goes to the merge and its transaction is taken, then the marker ends the chunk. -/
theorem test_bin_streams :
    (match exec (.bin 0 1 7) (streamPkg [.record oneRecord, .mark 0] id) with
     | .next t => ((getGeo t 1).passes.map (fun p => (p.records, p.mergeNext)), (endOf t 1 (endTo 1 0)).inbox.length) | _ => ([], 9)) = ([(1, 0)], 0) ∧
    (match exec (.binMark 0 1 7) (streamPkg [.mark 0] id) with
     | .next t => (getGeo t 1).passes.map (fun p => (p.records, p.mergeNext)) | _ => []) = [(0, 1)] := by decide +kernel

/-- A pass of five empty draws but one, its pool at its least, three chunks binned on each die. -/
def lowPkg : State :=
  memWrite (binPkg (fun _ p => { p with nextChunk := 3, drawCount := 5, poolKib := 64 })) 0x2007000 ((drawBytes 0).set 1 4)

/-- A pool that is low, every die binning. -/
theorem witness_flush :
    (passOf lowPkg 0 7).map (fun p => (p.leader, decide (litOf p).Nodup, lowestOpen lowPkg p (chunksIn (drawTable lowPkg 0 p)),
      chunksIn (drawTable lowPkg 0 p), p.flushed)) = some (0, true, 3, 4, 0) ∧
    (passOf lowPkg 0 7).map (fun p => decide (poolFree p < flushLevel p 0)) = some true ∧
    (∀ n ∈ [(0 : DieId), 1], (passOf lowPkg n 7).map (fun p => (p.phase, p.flushTo, p.begun)) = some (1, none, 0)) ∧
    (passOf (binPkg (fun _ p => p)) 0 7).map (fun p => decide (lowestOpen (binPkg (fun _ p => p)) p 1 ≤ p.flushed)) = some true := by decide +kernel

/-- R251: the triangle's record goes to the owner of super-tile 0, die 0, and a marker to die 1. -/
theorem test_chunk_bin :
    (match exec (.chunkBin 0 7 0 .finish) (chunkPkg 1) with
     | .next t => (getGeo t 0).passes.map (fun p => (qget p.out 1, recordsIn (qget p.inbox 0) + p.records, p.nextChunk)) | _ => [])
      = [([.mark 0], 1, 2)] := by decide +kernel

/-- A record of the last tile of a super-tile. -/
def lastTile : BinRec := { oneRecord with tiles := 0x8000 }

/-- A pass with every chunk merged. -/
def tilePkg (f : DieId → GeoPass → GeoPass) : State :=
  let su : Setup := { prim := 0, chunk := 0, topo := 0, draw := 0, raster := 0, sets := 0, sref := 0, verts := triVerts, size := 64 }
  passesPkg (fun d p =>
    let bins := if d = 0 then [(0, [lastTile])] else []
    f d { p with phase := 3, mergeNext := 1, nextChunk := 2, bins := bins, setups := [(0, su)] })

/-- Die 0 with that tile in progress on core 0 and `l` of its list to draw. -/
def jobPkg (l : List BinRec) : State :=
  tilePkg (fun d p => if d = 0 then
    { p with cursor := 16, jobs := [{ tile := 15, core := 0, off := 0, kib := 4, again := false, left := l, changed := [] }] } else p)

/-- A tile to be rendered (the last of a super-tile), and dies that may not. -/
theorem witness_tiles :
    (passOf (tilePkg (fun _ p => p)) 0 7).map (fun p => (mayRender (tilePkg (fun _ p => p)) 0 p, tilesLeft p 0,
      p.jobs.find? (fun j => j.tile == 15), tileSpot (tilePkg (fun _ p => p)) 0 p))
      = some (true, [15], none, some (0, 0)) ∧
    dieRuns (tilePkg (fun _ p => p)) 0 = true ∧ slotOpen (tilePkg (fun _ p => p)) 0 5 = true ∧
    (passOf (binPkg (fun _ p => p)) 0 7).map (fun p => mayRender (binPkg (fun _ p => p)) 0 p) = some false ∧
    Memory.wf (tilePkg (fun _ p => p)).mem := by decide +kernel

/-- A tile in progress with its list drawn, and with a record to draw. -/
theorem witness_tileJobs :
    ∀ l ∈ [[], [lastTile]], (passOf (jobPkg l) 0 7).map (fun p => (mayRender (jobPkg l) 0 p,
      (p.jobs.find? (fun j => j.tile == 15)).map (fun j => j.left), geoBusy (jobPkg l) 0 p.sub (some 15), (tilePrims (jobPkg l) 0 p l).isSome))
      = some (true, some l, false, true) := by decide +kernel

/-- R256: the next tile goes to core 0, with its records, and stores nothing yet; with nothing left it is done. -/
theorem test_tile_render :
    (match exec (.tileRender 0 7 15) (tilePkg (fun _ p => p)) with
     | .next t => (passOf t 0 7).map (fun p => (p.cursor, p.jobs.map (fun j => (j.tile, j.core, j.left.length)))) | _ => none)
      = some (16, [(15, 0, 1)]) ∧
    (match exec (.tileRender 0 7 15) (jobPkg []) with | .next t => (passOf t 0 7).map (fun p => p.jobs.length) | _ => none) = some 0 := by
  decide +kernel

/-- A die without a tile left, in a phase, with reports made. -/
def endPkg (phase : Nat) (f : Option Nat) (r : List DieId) : State :=
  tilePkg (fun _ p => { p with cursor := 16, reported := r, phase := phase, flushTo := f })

/-- The first and the last report, of a pass and of a flush's segment; an ended pass. -/
theorem witness_reports :
    (∀ x ∈ [((3 : Nat), (none : Option Nat)), (2, some 1)], (passOf (endPkg x.1 x.2 [0]) 1 7).map (fun p => (tilesLeft p 1,
      mayRender (endPkg x.1 x.2 [0]) 1 p, litOf p, reach (endPkg x.1 x.2 [0]) 1 p.leader)) = some ([], true, [0, 1], true)) ∧
    (passOf (endPkg 3 none []) 0 7).map (fun p => (tilesLeft p 0, mayRender (endPkg 3 none []) 0 p,
      (mateOf (endPkg 3 none []) p.leader p).map (fun k => (k.reported, k.dies)))) = some ([], true, some ([], 3)) ∧
    ((getGeo (passesPkg (fun _ p => { p with done := true })) 0).passes.find? (fun q => q.pass == 7 && q.done)).isSome = true ∧
    ((queueOf (passesPkg (fun _ p => { p with done := true })) 0 3).runs.map (fun r => r.record.count)) = [0] := by decide +kernel

/-- R242: the last report ends the pass on both dies, and the end takes it out of die 1's list. -/
theorem test_pass_ends :
    (match exec (.passReport 1 7) (tilePkg (fun _ p => { p with cursor := 16, reported := [0] })) with
     | .next t => (match exec (.passEnd 1 7) t with
       | .next u => ((getGeo t 0).passes.map (fun p => p.done), (getGeo u 1).passes.length) | _ => ([], 9))
     | _ => ([], 9)) = ([true], 0) := by decide +kernel

/-! ### The generation engine -/

/-- `corePkg` with GEN's tables at 0x10000 and 0x20000, the last entry of each for context 5. -/
def genPkg (seqs : Map GenSeq) (models : Map GenModel) : State :=
  let s := memWrite (memWrite corePkg (0x10000 + 128 * 1023) [0, 63, 3, 1, 5]) (0x10000 + 128 * 1023 + 0x20) [1]
  let s1 := memWrite (memWrite (memWrite s (0x20000 + 128 * 63 + 2) [64, 0, 5]) (0x20000 + 128 * 63 + 0x10) [1])
    (0x20000 + 128 * 63 + 0x18) [1, 0, 0, 0, 1]
  setGen s1 0 { genReset with seqTable := 0x10001, modelTable := 0x20001, seqs := seqs, models := models }

/-- Model 63 of context 5, loaded, and sequence 1023 of it in a state. -/
def aModel : GenModel := { modelFree with loaded := true, maxBatch := 256, ctx := 5, worstFixed := 10, worstSeq := 20, dirty := true }
/-- That sequence. -/
def aSeq (st : Nat) : GenSeq := { seqFree with state := st, model := 63, prio := 3, ctx := 5, dirty := true }

/-- Commands of GEN on the last sequence in each state and on models 0, 63 and 64. -/
theorem witness_genCommands :
    Served (genPkg [] []) 0 17 ∧ fld (0x7FFFFF001 : W64) 39 12 * 4096 < 2 ^ 35 ∧ fld (0x7FFFFF001 : W64) 34 33 = 3 ∧
    fld (0x1FFFFF001 : W64) 34 33 = 0 ∧ domLit (genPkg [] []) 0 9 = true ∧ domLit State.reset 0 9 = false ∧
    (∀ st ∈ [0, 1, 2, 3], (seqOf (genPkg [(1023, aSeq st)] [(63, aModel)]) 0 1023).state = st) ∧
    (modelOf (genPkg [] [(63, aModel)]) 0 63).loaded = true ∧ modelBusy (getGen (genPkg [] [(63, aModel)]) 0) 63 = false ∧
    (let z := noteEntry (genPkg [] [(63, aModel)]) 0x10001 1023
     (genEntry z 0x10001 1023).map (fun b =>
      (loadOff (genPkg [] [(63, aModel)]) 0 (leAt b 4 2), loadCtx (genPkg [] [(63, aModel)]) 0 (leAt b 4 2),
       (match rangeObjs z 0 5 (leAt b 0x18 8) (leAt b 0x20 4) (homeOn 0) with
        | (some os, s1) => (match rangeObjs s1 0 5 0 0 (fun _ => true) with
          | (some io, s2) => pinRoom s2 0 (joinObjs os io) | _ => false) | _ => false)))) = some (false, true, true) ∧
    (let z := noteEntry (genPkg [] []) 0x20001 63
     (genEntry z 0x20001 63).map (fun b => (loadOff (genPkg [] []) 0 (leAt b 4 2), loadCtx (genPkg [] []) 0 (leAt b 4 2),
       (match rangeObjs z 0 5 (leAt b 8 8) (leAt b 0x10 8) (fun o => o.place == 1 || homeOn 0 o) with
        | (some os, s1) => pinRoom s1 0 os | _ => false)))) = some (false, true, true) ∧
    (let s := genPkg [] []
     let z := noteEntry (setGen s 0 genReset) 0 0
     genEntry z 0 0 = none ∧ domLit (setGen s 0 genReset) 0 9 = true) ∧
    (let s := genPkg [] []
     let q := { s with tables := qmap (fun _ t => { t with tenants := { tenantMax with state := .resetting } :: t.tenants.tail }) s.tables }
     loadOff q 0 5 = true ∧ (match genEntry (noteEntry q 0x10001 1023) 0x10001 1023 with | some b => leAt b 4 2 == 5 | _ => false) = true) := by
  unfold Served; decide +kernel

/-- Table 10.1: model 63 loaded with MAX_BATCH 0 as 256, then sequence 1023 of it, READY at once. -/
theorem test_gen_loads :
    (match exec (.modelLoad 0 63) (genPkg [] []) with
     | .next t => (match exec (.seqLoad 0 1023) t with
       | .next u => ((modelOf u 0 63).maxBatch, (seqOf u 0 1023).state, (seqOf u 0 1023).prio, fld (getGen u 0).result 15 0)
       | _ => (0, 0, 0, 0))
     | _ => (0, 0, 0, 0)) = (256, 2, 3, 2) := by decide +kernel

/-- A `k.step` descriptor: model 63, sequence, work list at VA 0x8000, a deadline. -/
def stepDesc (op model : Byte) (n : Byte) : List Byte :=
  rep 16 0 ++ [op, model, 0, 0, n, 0, 0, 0, 0, if op = 0 ∨ op = 1 then 0x80 else 0] ++ rep 6 0 ++ [0, 0, if op = 0 then 0x40 else 0] ++ rep 29 0

/-- `genPkg` with the model and a READY sequence, and that descriptor at the head of GEN's queue. -/
def stepPkg (desc : List Byte) (steps : List GenStep) : State :=
  let s := genPkg [(1023, aSeq 2)] [(63, aModel)]
  let s1 := setEngine (setGen s 0 { getGen s 0 with steps := steps }) 0 12 { engineReset with subs := [⟨0, 3, 0, desc⟩], count := 2 ^ 32 - 1 }
  setFrame s1 0 0 { frameOf' s1 0 0 with park := .submitted 12 31 }

/-- An open step of model 63. -/
def aStep : GenStep :=
  { model := 63, serial := 1, ctx := 5, tenant := 0, queue := 3, count := 0, list := 0x8000, pages := [(0, 0x2000000)], pins := [], release := 0, dl := 1,
    cores := 32, fixed := 10, total := 30, admitted := [(1023, 20)] }

/-- An OPEN, a descriptor with a reserved OP, one for which there is no room. -/
theorem witness_stepDescriptors :
    AtHead (stepPkg (stepDesc 0 63 1) []) 0 12 ⟨0, 3, 0, stepDesc 0 63 1⟩ [] 31 ∧ stepLegal (stepDesc 0 63 1) = true ∧
    stepLegal (stepDesc 4 0 0) = false ∧ stepLegal (stepDesc 0 64 1) = false ∧ stepLegal (stepDesc 1 0 0) = true ∧
    stepNames (stepPkg (stepDesc 0 63 1) []) 0 ⟨0, 3, 0, stepDesc 0 63 1⟩ = true ∧
    stepNames (stepPkg (stepDesc 0 62 1) []) 0 ⟨0, 3, 0, stepDesc 0 62 1⟩ = false ∧
    (opensAhead (getGen (stepPkg (stepDesc 0 63 1) []) 0)).length = 0 ∧ leAt (stepDesc 0 63 1) 0x10 1 = 0 ∧
    (opensAhead (getGen (stepPkg (stepDesc 0 63 1) [aStep]) 0)).any (fun e => e.1 == 63) = true ∧
    (opensAhead (getGen (stepPkg (stepDesc 0 63 1) ((countUp 0 8).map (fun m => { aStep with model := m }))) 0)).length = 8 ∧
    (match translateRange (stepPkg (stepDesc 0 63 1) []) 0 5 0x8000 128 { write := true } with
     | (.ok (_, os), s1) => (match fenceSide s1 0 5 (stepDesc 0 63 1) with
       | (.ok (_, _, fo), s2) => pinRoom s2 0 (joinObjs os fo) | _ => false)
     | _ => false) = true := by
  unfold AtHead; decide +kernel

/-- An operation at the head of GEN. -/
def aGenOp (op : Nat) : GenOp :=
  { ctx := 5, tenant := 0, queue := 3, count := 0, fence := false, fencePa := 0, value := 0, op := op, model := 63, seq := 1023, maxSeqs := 1,
    list := 0x8000, deadline := 0x400000, budget := 0, acceptedAt := 5, serial := 9, pages := [(0, 0x2000000)], pins := [], keep := [] }

/-- That operation at the head, with a step open or not. -/
def opPkg (op st : Nat) (steps : List GenStep) : State :=
  let s := genPkg [(1023, aSeq st)] [(63, aModel)]
  setGen s 0 { getGen s 0 with ops := [aGenOp op], steps := steps }

/-- Heads of each kind that apply, and a closing step that is open. -/
theorem witness_steps :
    (∀ op ∈ [0, 1, 2, 3], (getGen (opPkg op 2 [aStep]) 0).ops = [aGenOp op] ∧ dieRuns (opPkg op 2 [aStep]) 0 = true ∧
      domLit (opPkg op 2 [aStep]) 0 9 = true) ∧
    (∀ e ∈ (aGenOp 0).pages, reach (opPkg 0 2 []) 0 (dieOf e.2) = true) ∧ (candidatesOf (opPkg 0 2 []) 0 63).map (fun e => e.1) = [1023] ∧
    (aStep.admitted.map (fun e => e.1)).Nodup ∧ (aStep.queue == (aGenOp 1).queue && aStep.count == (aGenOp 1).count && aStep.list == (aGenOp 1).list) ∧
    (∀ st ∈ [1, 2, 3], (seqOf (opPkg 2 st []) 0 1023).state ≠ 0) ∧
    Memory.wf (opPkg 0 2 []).mem ∧ mwf modelFree (getGen (opPkg 0 2 []) 0).models = true ∧ mwf seqFree (getGen (opPkg 0 2 []) 0).seqs = true ∧
    (∀ b ∈ [((getGen (opPkg 0 2 []) 0).modelTable, 63), ((getGen (opPkg 0 2 []) 0).seqTable, 1023)], bit b.1 0 = true ∧
      rowWaits (opPkg 0 2 []) (fld b.1 39 12 * 4096 + 128 * b.2) 128 = false) ∧
    (modelOf (opPkg 0 2 []) 0 63).dirty = true ∧ (seqOf (opPkg 0 2 []) 0 1023).dirty = true ∧ (seqOf (opPkg 0 2 []) 0 0).dirty = false := by
  decide +kernel

/-- R278: OPEN admits the one READY sequence, and the work list's header counts it. -/
theorem test_step_open :
    (match exec (.stepOpen 0) (opPkg 0 2 []) with
     | .next t => ((seqOf t 0 1023).state, (getGen t 0).steps.map (fun x => x.admitted.length), memNat t (0x2008000 + 10) 2, memByte t 0x2008008)
     | _ => (0, [], 0, 0)) = (3, [1], 1, 63) := by decide +kernel

/-- R280: CLOSE advances the sequence, which is READY again. -/
theorem test_step_close :
    (match exec (.stepClose 0) (opPkg 1 3 [aStep]) with
     | .next t => ((seqOf t 0 1023).state, (seqOf t 0 1023).step, (getGen t 0).steps.length) | _ => (0, 0, 9)) = (2, 1, 0) := by decide +kernel

/-! ### Translation, rows and DMA -/

/-- A level-one entry and a level-two leaf for VA page 1 of context 5 (Tables 11.4, 11.5) and the object's page list of one frame. -/
def walkedPkg : State :=
  let s := putCtx corePkg 5 { ctxOf corePkg 0 5 with ptRoot := 0x30000 }
  let t := { s with tables := qmap (fun _ u => { u with objects := [(9, { objFree with state := .valid, gen := 4095, pages := 2, pageList := 0x32000 })] }) s.tables }
  memWrite (memWrite (memWrite t 0x30000 [1, 0x10, 3]) 0x31008 [6, 0, 1, 0, 9, 0, 0xF0, 0xFF]) 0x32008 [0, 0, 0, 4]

/-- A request of a core for a page. -/
def ask (va : W64) (write : Bool) : XlReq := { unit := .core 4, ctx := 5, va := va, write := write }

/-- `walkedPkg` with its translation in the cache. -/
def walkedTwice : State := match exec (.translationWalk 0 [] [] [ask 0x2000000 true]) walkedPkg with | .next t => t | _ => walkedPkg

/-- A walk that misses, one that hits, one that fails; a window that is open, one that is not, one that has counted and ended; two units. -/
theorem witness_translations :
    walkedPkg.board.powerOk = true ∧ State.reset.board.powerOk = false ∧
    (match (translate walkedPkg 0 5 0x2000000 { write := true }).1 with | .ok p => decide (p = (0x4000000, 9)) | _ => false) = true ∧
    (xlHit (getMemu walkedPkg 0).xlate 5 0x2000000).isNone = true ∧ (xlHit (getMemu walkedPkg 0).xlate 5 0).isSome = true ∧
    (match walkTables walkedPkg 0 0x30000 0x2000000 with
     | (.ok l, s2) => (match leafFrames s2 0 (ctxOf walkedPkg 0 5) l 0x2000000 0 false with | (.ok fs, _) => fs == [0x4000000] | _ => false)
     | _ => false) = true ∧ (ctxOf walkedPkg 0 5).state = .live ∧
    (xlHit (getMemu walkedTwice 0).xlate 5 0x2000000).isSome = true ∧
    (match (translate walkedTwice 0 5 0x2000000 { write := true }).1 with | .ok p => decide (p = (0x4000000, 9)) | _ => false) = true ∧
    unitRank (ask 0x2000000 true).unit < unitRank (XUnit.core 5) ∧ unitRank (XUnit.dma 3) < unitRank (ask 0x2000000 true).unit ∧
    (match (translate walkedPkg 0 5 0x1000000000000 {}).1 with | .error x => x == 1 | _ => false) = true ∧
    (mfind (getMemu walkedPkg 0).faultWins (winKey 5 0x1000000000000)).isNone = true ∧
    (match exec (.translationWalk 0 [] [] [ask 0x4000000 false]) walkedPkg with
     | .next t => (match exec (.translationWalk 0 [] [] [ask 0x4000000 false]) t with
       | .next u => (mfind (getMemu u 0).faultWins (winKey 5 (2 * 2 ^ 25))).map (fun w => (w.count, decide (dtime u 0 < w.at_ + 1000000),
           decide (w.at_ + 1000000 ≤ dtime (setTime u 0 { getTime u 0 with dt := dtime u 0 + 1000000 }) 0)))
       | _ => none)
     | _ => none) = some (1, true, true) := by decide +kernel

/-- R299: the walk's leaf is used again at the end of its page. -/
theorem test_walk_cached :
    (match exec (.translationWalk 0 [] [] [ask 0x2000000 true]) walkedPkg with
     | .next t => (xlHit (getMemu t 0).xlate 5 0x3FFFFFF).map (fun e => (e.frames, e.w)) | _ => none) = some ([0x4000000], true) := by decide +kernel

/-- Invalidation on D0 and through another die; a row to be retired with a spare and without, and one under retirement. -/
theorem witness_rows :
    Served walkedPkg 0 5 ∧ Served walkedPkg 3 5 ∧ (getMemu walkedPkg 0).retiring = none ∧ 0 < (getMemu walkedPkg 0).spares ∧
    (getKiln walkedPkg 0).dram = none ∧ rowDue (rowOf walkedPkg 0 524287) = false ∧
    (∀ r ∈ [{ rowFresh with failed := true }, { rowFresh with corrected := 4 }, { rowFresh with failed := true, exhausted := true }],
      ∀ n ∈ [0, 64],
      let s := setMemu walkedPkg 0 { getMemu walkedPkg 0 with spares := n, rows := [(524287, r)] }
      (getMemu s 0).spares = n ∧ rowOf s 0 524287 = r ∧ r.retired = false ∧ rowDue r = true ∧ (getKiln s 0).dram = none) ∧
    (getMemu (setMemu walkedPkg 0 { getMemu walkedPkg 0 with retiring := some 524287 }) 0).retiring = some 524287 := by
  unfold Served; decide +kernel

/-- R300: INV_CONTEXT drops context 5's entries on die 0. -/
theorem test_inv_context :
    (match exec (.invContext 0 5) walkedPkg with | .next t => ((getMemu walkedPkg 0).xlate.length, (getMemu t 0).xlate.length) | _ => (9, 9)) = (1, 0) := by
  decide +kernel

/-- A DMA descriptor (Table 11.10) on channel 3: three rows of five bytes from VA 0x6000 to VA 0x7000 with a stride of 16, on this die's copy only. -/
def dmaDesc (op : Byte) : List Byte :=
  rep 16 0 ++ [op, 3, 0x10, 0, 5, 0, 0, 0, 3, 0, 0, 0, 1, 0, 1, 0] ++ (if op = 1 then rep 8 0 else [0, 0x60] ++ rep 6 0) ++ [0, 0x70] ++ rep 6 0
    ++ (if op = 1 then rep 8 0 else [5] ++ rep 7 0) ++ rep 16 0 ++ [16] ++ rep 7 0 ++ rep 16 0 ++ (if op = 1 then [1, 2, 3, 4, 5, 6, 7, 8] else rep 8 0)
    ++ rep 8 0 ++ [0, 1] ++ rep 14 0

/-- `corePkg` with source bytes, that descriptor at the head of engine 8's queue, and the job it becomes in a channel's set. -/
def dmaPkg (op : Byte) : State :=
  let s := memWrite corePkg 0x2006000 ((countUp 1 15).map (fun n => BitVec.ofNat 8 n))
  let s1 := setEngine s 0 8 { engineReset with subs := [⟨0, 3, 0, dmaDesc op⟩], count := 2 ^ 32 - 1 }
  setFrame s1 0 0 { frameOf' s1 0 0 with park := .submitted 8 31 }

/-- A descriptor accepted to its last check, and one with a reserved OP. -/
theorem witness_transfers :
    (∀ op ∈ [(0 : Byte), 3], AtHead (dmaPkg op) 0 8 ⟨0, 3, 0, dmaDesc op⟩ [] 31) ∧
    dmaLegal (dmaJobOf 8 5 0 ⟨0, 3, 0, dmaDesc 3⟩ 0) (dmaDesc 3) = false ∧
    (let j := dmaJobOf 8 5 0 ⟨0, 3, 0, dmaDesc 0⟩ 0
     dmaLegal j (dmaDesc 0) = true ∧ (match vaSide (dmaPkg 0) 0 5 (sideRange j j.src j.sstr) {} with
       | (.ok (_, so), s1) => (match dstSide s1 0 j with
         | (.ok (_, dob), s2) => (match resSide s2 0 j with
           | (.ok (_, ro), s3) => (match fenceSide s3 0 5 (dmaDesc 0) with
             | (.ok (_, _, fo), s4) => (stageSidesCause s4 0 j).isNone && pinRoom s4 0 (joinObjs (joinObjs (joinObjs so dob) ro) fo) | _ => false)
           | _ => false)
         | _ => false)
       | _ => false) = true) := by
  unfold AtHead; decide +kernel

/-- The job of that descriptor, resolved. -/
def dmaJob (op : Byte) : DmaJob :=
  let j := dmaJobOf 8 5 0 ⟨0, 3, 0, dmaDesc op⟩ 0
  { j with srcPages := if op = 1 then [] else [(0, 0x2000000)], dstCopies := [[(0, 0x2000000)]], resAt := some 0x2000100, seen := rep 4 0 }

/-- Channel 15 with that job in some state. -/
def chanPkg (op : Byte) (f : DmaJob → DmaJob) : State :=
  setChan (dmaPkg op) 0 15 { active := some (f (dmaJob op)), shadow := none, last := 0 }

/-- Channels: one with a job that waits, a shadow set, an active job of each operation, jobs that have ended and that stop. -/
theorem witness_channels :
    (getDma (dmaPkg 0) 0).chans.length = 16 ∧ dieRuns (dmaPkg 0) 0 = true ∧ mwf 0 (getDma (dmaPkg 0) 0).lines = true ∧
    (let s := setDma (dmaPkg 0) 0 { getDma (dmaPkg 0) 0 with queue := [dmaJob 0] }
     (chanOf s 0 15).shadow = none ∧ (getDma s 0).queue.find? (fun j => j.chan == 15) = some (dmaJob 0)) ∧
    (let s := setChan (dmaPkg 0) 0 15 { active := none, shadow := some { dmaJob 0 with line := 1 }, last := 0 }
     lineBusy s 0 15 { dmaJob 0 with line := 1 } = false ∧
     lineBusy (setChan s 0 0 { active := some { dmaJob 0 with line := 1 }, shadow := none, last := 0 }) 0 15 { dmaJob 0 with line := 1 } = true) ∧
    Served (dmaPkg 0) 0 16 ∧
    (∀ op ∈ [(0 : Byte), 1, 2], dmaCause (chanPkg op id) 0 (dmaJob op) = none ∧ streamEnded (dmaJob op) = false ∧
      portsReady (chanPkg op id) 0 (dmaJob op) 15 = true ∧ burstHeld (chanPkg op id) 0 (dmaJob op) 15 = false ∧ dstSpace (dmaJob op) = 0 ∧
      srcSpace (dmaJob op) = 0 ∧ burstLen (dmaJob op) = 15 ∧ (dmaJob op).line = 0 ∧ (dmaJob op).step = .idle ∧
      (∀ m ∈ (dmaJob op).dstCopies, ∀ k, k < 15 → (pageLook m (streamAddr (dmaJob op) (dmaJob op).dst (dmaJob op).dstr k)).map dieOf = some 0) ∧
      (∀ k, k < 15 → (pageLook (dmaJob op).srcPages (streamAddr (dmaJob op) (dmaJob op).src (dmaJob op).sstr k)).map dieOf ∈ [some 0, none])) ∧
    Memory.wf (chanPkg 0 id).mem ∧
    (let z := noteSpots (chanPkg 2 id) (burstSpots (dmaJob 2) 15)
     ∀ k, k < 15 → (pageLook (dmaJob 2).srcPages (streamAddr (dmaJob 2) (dmaJob 2).src (dmaJob 2).sstr k)).map (poisonAt z) = some false) ∧
    (let j := { dmaJob 0 with spaces := 8 }
     portsReady (chanPkg 0 (fun _ => j)) 0 j 15 = false) ∧
    (let s := chanPkg 0 id
     burstHeld (setMemu s 0 { getMemu s 0 with retiring := some (0x2006000 / 16384) }) 0 (dmaJob 0) 15 = true) ∧
    streamEnded { dmaJob 0 with moved := 15 } = true ∧ resultBlocked (chanPkg 0 id) 0 (dmaJob 0) = none ∧
    resultWaits (chanPkg 0 id) 0 (dmaJob 0) = false ∧
    (let s := chanPkg 0 id
     resultWaits (setMemu s 0 { getMemu s 0 with retiring := some (0x2000100 / 16384) }) 0 (dmaJob 0) = true) ∧
    (let j := { dmaJob 0 with resStage := true, resAt := some 0, tenant := 1 }
     resultBlocked (chanPkg 0 (fun _ => j)) 0 j = some 3) ∧
    dmaCause (chanPkg 0 (fun j => { j with stop := some 4 })) 0 { dmaJob 0 with stop := some 4 } = some 4 ∧
    ((queueOf (chanPkg 0 id) 0 3).runs.map (fun r => r.record.count)) = [0] := by
  unfold Served; decide +kernel

/-- R305: COPY lays its rows at the destination's stride, and nothing between them. -/
theorem test_dma_copy :
    (match exec (.dmaBurst 0 15) (chanPkg 0 id) with
     | .next t => ((countUp 0x2007004 2).map (memByte t), (countUp 0x2007020 6).map (memByte t)) | _ => ([], []))
      = ([5, 0], [11, 12, 13, 14, 15, 0]) := by decide +kernel

/-- R305: FILL repeats its pattern from the stream's start; COMPARE finds the first byte that differs. -/
theorem test_dma_fill_compare :
    ((match exec (.dmaBurst 0 15) (chanPkg 1 id) with | .next t => (countUp 0x2007010 5).map (memByte t) | _ => []),
     (match exec (.dmaBurst 0 15) (chanPkg 2 id) with | .next t => (chanOf t 0 15).active.bind (fun j => j.mismatch) | _ => none))
      = ([6, 7, 8, 1, 2], some 0) := by decide +kernel

/-- Table 11.15: the result block of a transfer that has ended. -/
theorem test_dma_result :
    (match exec (.dmaFinish 0 15) (chanPkg 0 (fun j => { j with moved := 15 })) with
     | .next t => (memByte t 0x2000100, memNat t 0x2000108 8, memNat t 0x2000110 8, decide ((chanOf t 0 15).active = none)) | _ => (9, 9, 9, false))
      = (0, 3, 2 ^ 64 - 1, true) := by decide +kernel

/-- A transfer whose source and result block lie on die 1, over a cord that is up: a burst asks and waits, and so does its end. -/
theorem witness_remoteTransfer :
    (let j := { dmaJob 0 with srcPages := [(0, 0x200000000)], resAt := some 0x200000100 }
     let s := { chanPkg 0 (fun _ => j) with cords := rep 6 { cordReset with lit := true, state := .up, width := 3 } }
     let e := { j with moved := 15 }
     dmaCause s 0 j = none ∧ portsReady s 0 j 15 = true ∧ burstHeld s 0 j 15 = false ∧ j.line = 0 ∧
     (let asks := burstReads 0 15 j (burstSpots j 15)
      asks.length = 1 ∧ answersOf (asks.foldl (askDie 0) s) 0 asks = none) ∧
     streamEnded e = true ∧ resultWaits s 0 e = false ∧ resultBlocked s 0 e = none ∧
     (match resultAsk 0 15 e (dmaResult s 0 e 0 0 3 (2 ^ 64 - 1)) with
      | some q => (answerOf (askDie 0 s q) 0 q.die q.who).isNone | none => false) = true) := by decide +kernel

/-- Indications on their way to a channel's line and to the second retort engine. -/
theorem witness_indications :
    (let s := setDma (chanPkg 0 (fun j => { j with line := 0x2F })) 0
        { getDma (chanPkg 0 (fun j => { j with line := 0x2F })) 0 with aborted := [(0x2F, 0)] }
     (getDma s 0).aborted.find? (fun a => a.1 == 0x2F) = some (0x2F, 0) ∧ (pacedBy s 0 0x2F).map (fun p => (p.1, p.2.sub, p.2.stop)) = some (15, 0, none)) ∧
    (let r : RetJob := { ctx := 5, tenant := 0, queue := 3, count := 0, sub := 7, fence := false, fencePa := 0, value := 0, op := 0, mode := 0, param := 0,
                         near := 0, staticOnly := false, inBytes := 8, outBytes := 8, resAt := none, pins := [] }
     let s := setRetE (setDma (dmaPkg 0) 0 { getDma (dmaPkg 0) 0 with aborted := [(0x12, 7)] }) 0 1 { retEngineReset with job := some r }
     (retOf s 0 ((0x12 - 0x10) / 2)).job = some r ∧ (retOf s 0 1).stop = none ∧
     (getDma s 0).aborted.find? (fun a => a.1 == 0x12) = some (0x12, 7)) := by decide +kernel

/-! ### The retort -/

/-- A job's descriptor: OP, MODE and PARAM, 8 bytes in, `out` bytes out, a result block at VA 0x8100. -/
def retDesc (op mode param out : Byte) : List Byte :=
  rep 16 0 ++ [op, mode, param] ++ rep 5 0 ++ [8] ++ rep 7 0 ++ [out] ++ rep 7 0 ++ [0, 0x81] ++ rep 22 0

/-- That descriptor at the head of engine 10. -/
def retPkg (op mode param : Byte) : State :=
  let s := setEngine corePkg 0 10 { engineReset with subs := [⟨0, 3, 0, retDesc op mode param 64⟩], count := 6 }
  setFrame s 0 0 { frameOf' s 0 0 with park := .submitted 10 31 }

/-- Its job, accepted. -/
def retJob (op mode param : Byte) : RetJob :=
  { retJobOf 5 0 ⟨0, 3, 0, retDesc op mode param 64⟩ 7 with resAt := some 0x2008100 }

/-- A DECODE in bytes mode is no job, an ENCODE of bytes and a DECODE are. -/
theorem witness_retortDescriptors :
    AtHead (retPkg 1 2 0) 0 10 ⟨0, 3, 0, retDesc 1 2 0 64⟩ [] 31 ∧ subTenant (retPkg 1 2 0) 0 ⟨0, 3, 0, retDesc 1 2 0 64⟩ = 0 ∧
    retLegal (retJobOf 5 0 ⟨0, 3, 0, retDesc 1 2 0 64⟩ 7) (retDesc 1 2 0 64) = true ∧
    retLegal (retJobOf 5 0 ⟨0, 3, 0, retDesc 0 0 0 64⟩ 7) (retDesc 0 0 0 64) = true ∧
    retLegal (retJobOf 5 0 ⟨0, 3, 0, retDesc 0 2 0 64⟩ 7) (retDesc 0 2 0 64) = false ∧
    (match translateRange (retPkg 1 2 0) 0 5 0x8100 32 { write := true } with
     | (.ok (m, ro), s1) => (match fenceSide s1 0 5 (retDesc 1 2 0 64) with
       | (.ok (_, _, fo), s2) => pinRoom s2 0 (joinObjs ro fo) && (pageLook m 0x8100 == some 0x2008100) | _ => false)
     | _ => false) = true := by
  unfold AtHead; decide +kernel

/-- Engine 1 with a job in some state, and a channel paced by its lines. -/
def retRun (j : RetJob) (f : RetEngine → RetEngine) (line : Nat) : State :=
  let s := setRetE (retPkg 1 2 0) 0 1 (f { retEngineReset with job := some j })
  setChan s 0 15 { active := some { dmaJob 0 with line := line, log2 := 3 }, shadow := none, last := 0 }

/-- The input of a small ENCODE, taken. -/
def retTaken (x : RetEngine) : RetEngine := { x with inBuf := [1, 2, 3, 4, 5, 6, 7, 8], inTaken := 8, reqIn := 8 }

/-- The block it codes, and one of a DECODE. -/
def retBlock : List Byte := (encodeBlock 2 0 0 none [1, 2, 3, 4, 5, 6, 7, 8]).bytes

/-- A DECODE job with `retBlock` taken. -/
def retCoded (pad : Bool) (raw : Nat) : State :=
  retRun { retJob 0 0 0 with inBytes := if pad then 16 else retBlock.length, outBytes := raw }
    (fun x => if pad then { x with inBuf := rep 16 0, inTaken := 16 } else { x with inBuf := retBlock, inTaken := retBlock.length }) 0x12

/-- Engine states that start, request, code, decode, finish and stop. -/
theorem witness_retort :
    (let s := setRetE (retPkg 1 2 0) 0 1 { retEngineReset with waiting := [retJob 1 2 0] }
     (retOf s 0 1).job = none ∧ (retOf s 0 1).waiting = [retJob 1 2 0] ∧ domLit s 0 9 = true ∧ dieRuns s 0 = true ∧
       mwf 0 (getDma s 0).lines = true) ∧
    (let s := retRun (retJob 1 2 0) id 0x12
     (pacedBy s 0 0x12).map (fun p => (p.1, p.2.log2, p.2.tenant)) = some (15, 3, 0) ∧ lineCount s 0 0x12 = 0 ∧ (retOf s 0 1).stop = none ∧ (retJob 1 2 0).tenant = 0 ∧
       0 < (retJob 1 2 0).inBytes ∧ pacedBy s 0 0x13 = none) ∧
    outEnd { retEngineReset with outReleased := 8 } (retJob 1 2 0) = 8 ∧
    outEnd { retEngineReset with outReleased := 61, padding := true } (retJob 1 2 0) - 60 = 4 ∧
    (let s := retRun (retJob 1 2 0) retTaken 0x12
     blockSize (retJob 1 2 0) = 4096 ∧ consumed (retOf s 0 1) = 0 ∧ retBlock.length ≤ (retJob 1 2 0).outBytes ∧ 16 < retBlock.length) ∧
    (let s := retCoded false 8
     headerLegal (retOf s 0 1).inBuf = true ∧ zeroAt (retOf s 0 1).inBuf 0 16 = false ∧ consumed (retOf s 0 1) = 0) ∧
    (let s := retRun (retJob 1 2 0) (fun x => { x with inTaken := 8, padding := true, outTaken := 64, outReleased := 24 }) 0x12
     retDone (retOf s 0 1) (retJob 1 2 0) = true ∧ retResultOk s 0 (retJob 1 2 0) = true ∧ Memory.wf s.mem) ∧
    resettingTenant (retPkg 1 2 0) 0 = false ∧ dtime (retPkg 1 2 0) 0 < retEngineReset.progressAt + 100000000 ∧ keepsTaking 6 = true ∧ keepsTaking 9 = false := by
  decide +kernel

/-- R318, R328 to R330: eight bytes coded as one block come back from the decoder, and its end is a pad marker. -/
theorem test_retort_round_trip :
    (match exec (.retBlockEncode 0 1) (retRun (retJob 1 2 0) retTaken 0x12) with
     | .next t => ((retOf t 0 1).outBuf == retBlock && (retOf t 0 1).padding && (retOf t 0 1).inBuf.isEmpty) | _ => false) = true ∧
    (match exec (.retBlockDecode 0 1) (retCoded false 8) with
     | .next t => (retOf t 0 1).outBuf | _ => []) = [1, 2, 3, 4, 5, 6, 7, 8] ∧
    (match exec (.retBlockDecode 0 1) (retCoded false 7) with
     | .next t => (retOf t 0 1).stop | _ => none) = some 5 ∧
    (match exec (.retBlockDecode 0 1) (retCoded true 0) with
     | .next t => (retOf t 0 1).padding | _ => false) = true := by
  refine ⟨?_, ?_, ?_, ?_⟩ <;> decide +kernel

/-- Table 12.6: the result blocks of a job that ends and of one that stops as FULL. -/
theorem test_retort_results :
    (match exec (.retJobDone 0 1) (retRun (retJob 1 2 0) (fun x => { x with inTaken := 8, padding := true, outTaken := 64, outReleased := 24 }) 0x12) with
     | .next t => (memByte t 0x2008100, memNat t 0x2008104 4, memNat t 0x2008118 8) | _ => (9, 9, 9)) = (0, 7, 24) ∧
    (match exec (.retJobStop 0 1) (retRun (retJob 1 2 0) (fun x => { x with stop := some 6 }) 0x12) with
     | .next t => (memByte t 0x2008100, memByte t 0x2008101, (retOf t 0 1).draining) | _ => (9, 9, false)) = (1, 6, true) := by
  refine ⟨?_, ?_⟩ <;> decide +kernel

/-! ### The easel -/

/-- The easel with a small mode: `h` by 2 active pixels, all ten link bits as in `ctl`. -/
def easPkg (ctl h : Nat) (f : EasUnit → EasUnit) : State :=
  let s := memWrite corePkg 0x2006000 ([0, 0x70] ++ rep 14 0 ++ [3, 1, 255, 0, 8, 0, 8, 0, 0, 0, 0, 0, 1, 0, 1, 0, 0, 0, 0, 0, 1, 0, 1, 0])
  let th := BitVec.ofNat 64 (h + 20 * 2 ^ 16 + 10 * 2 ^ 32 + 2 * 2 ^ 48)
  let tv := BitVec.ofNat 64 (2 + 9 * 2 ^ 16 + 4 * 2 ^ 32 + 2 * 2 ^ 48)
  setEas s 0 (f { getEas s 0 with ctl := BitVec.ofNat 64 ctl, timH := th, timV := tv, pclk := 25000 })

/-- A flip of layer 0 with the scene block at VA 0x6000. -/
def flipDesc (flags group : Byte) : List Byte := rep 32 0 ++ [0, 0x60] ++ rep 6 0 ++ [1, flags, group, 0, 9] ++ rep 19 0

/-- That flip at the head of EAS. -/
def flipPkg (flags group : Byte) : State :=
  let s := setEngine (easPkg 0x162 4 id) 0 11 { engineReset with subs := [⟨0, 3, 0, flipDesc flags group⟩], count := 0 }
  setFrame s 0 0 { frameOf' s 0 0 with park := .submitted 11 31 }

/-- A flip accepted to its last check, and one whose group leaves its own output out. -/
theorem witness_flips :
    AtHead (flipPkg 0 0) 0 11 ⟨0, 3, 0, flipDesc 0 0⟩ [] 31 ∧ domLit (flipPkg 0 0) 0 10 = true ∧
    flipLegal (getEas (flipPkg 0 0) 0) 0 0 (flipDesc 3 0) = true ∧ flipLegal (getEas (flipPkg 0 0) 0) 0 0 (flipDesc 0 2) = false ∧
    flipLegal (getEas (flipPkg 0 0) 0) 0 0 (flipDesc 0 3) = true := by
  unfold AtHead; decide +kernel

/-- That flip with a CUSTOM coefficient table of zeros at VA 0x9000. -/
def customPkg : State := memWrite (memWrite (flipPkg 0 0) 0x2006011 [17]) 0x2006028 [0, 0x90]

/-- The rest of its acceptance; a layer with a table that breaks R340. -/
theorem witness_flipScene :
    (∀ p ∈ [(flipPkg 0 0, true), (customPkg, false)],
      AtHead p.1 0 11 ⟨0, 3, 0, flipDesc 0 0⟩ [] 31 ∧ domLit p.1 0 10 = true ∧ flipLegal (getEas p.1 0) 0 0 (flipDesc 0 0) = true ∧
      (match translateRange p.1 0 5 0x6000 1024 {} with
       | (.ok (sm, so), s0) =>
         let s1 := notePages sm s0 ((countUp 0 16).map (fun k => (0x6000 + 64 * k, 64)))
         (match readPages s1 0 sm 0x6000 1024 with
         | some blk =>
           let recs := (countUp 0 8).map (fun i => if (leAt (flipDesc 0 0) 0x28 1).testBit i then (blk.drop (64 * i)).take 64 else [])
           layOn (blk.take 64) && recs.all (fun r => !layOn r || layerLegal (hActive (getEas p.1 0)) (vActive (getEas p.1 0)) r) &&
           (match coeffsOk 0 5 recs s1 with
            | (ok, u1) => ok == p.2 && (match resolveLayers 0 5 0 recs u1 [] with
              | (.ok ls, s2) => (match waitSide s2 0 5 (flipDesc 0 0) with
                | (.ok (_, wo), s3) => (match fenceSide s3 0 5 (flipDesc 0 0) with
                  | (.ok (_, _, fo), s4) => (joinObjs (joinObjs so wo) fo ++ ls.flatMap (fun l => l.pins)).all
                      (fun o => decide (pinCount s4 0 o + 2 < 2 ^ 20)) | _ => false)
                | _ => false)
              | _ => false))
         | none => false)
       | _ => false) = true) := by
  unfold AtHead; decide +kernel

/-- A pending flip of layer 0. -/
def aFlip (group : Nat) (mailbox : Bool) (value : W64) : Flip :=
  { ctx := 5, tenant := 0, queue := 3, count := 0, sub := 1, fence := false, fencePa := 0, value := value, waitPa := none, waitValue := 0, layers := 1,
    mailbox := mailbox, safe := false, group := group, groupId := 9, records := rep 8 layerOff, table := [], at_ := 0, waitLogged := false, pins := [] }

/-- The easel of `easPkg` with cords up and die 1's easel as it stands with a report of group 3. -/
def groupPair (f : EasUnit → EasUnit) : State :=
  let s := { easPkg 0 4 f with cords := rep 6 { cordReset with lit := true, state := .up, width := 3 } }
  setEas s 1 { getEas s 0 with pending := [aFlip 3 false 1], held := [aFlip 3 false 1], report := some (3, 9, true), groupDecision := none }

/-- Easels before a decision, with group flips and reports of one and of two members, at a latch point in each of its forms, and with flips
just applied. -/
theorem witness_frames :
    easRuns (easPkg 0 4 id) 0 = true ∧ easRuns State.reset 0 = false ∧
    (getEas (easPkg 0 4 id) 0).instant = false ∧ (getEas (easPkg 0 4 id) 0).pending = [] ∧ (getEas (easPkg 0 4 id) 0).report = none ∧
    (let s := easPkg 0 4 (fun u => { u with pending := [aFlip 0 false 1, aFlip 0 true 2, aFlip 0 false 3] })
     (getEas s 0).pending.all (fun f => flipWaitOver s 0 f) = true ∧ easRuns s 0 = true) ∧
    (let s := easPkg 0 4 (fun u => { u with pending := [aFlip 1 false 1, aFlip 0 true 2] })
     (aFlip 1 false 1).group ≠ 0 ∧ (getEas s 0).instant = false ∧
       (aFlip 1 false 1).at_ + 100000000 ≤ dtime (setTime s 0 { getTime s 0 with dt := 2 ^ 40 }) 0) ∧
    (∀ x ∈ [none, some (9, true), some (9, false)],
     let s := groupPair (fun u => { u with instant := true, report := some (3, 9, true), groupDecision := x })
     (getEas s 0).instant = true ∧ easRuns s 0 = true ∧ reach s 1 0 = true ∧ reach s 0 0 = true ∧ (3 : Nat).testBit 0 = true ∧ (3 : Nat).testBit 1 = true ∧
       (getEas s 1).report = some (3, 9, true) ∧ (getEas s 1).groupDecision = none ∧ (getEas s 0).groupDecision = x ∧ groupApplies s 0 3 9 = true) ∧
    (let s := easPkg 5 4 (fun u => { u with linkUp := true, decided := [aFlip 0 false 1], pending := [aFlip 0 false 1], line := 2, table := rep 16 (rep 8 0 ++ [2] ++ rep 23 0) })
     (getEas s 0).line = vActive (getEas s 0) ∧ easOn (getEas s 0) = true ∧ mwf 0 (getEas s 0).crcs = true ∧ (getEas s 0).layers.length = 8 ∧
       safeAction (lget [] (getEas s 0).table 15) = 2) ∧
    (∀ k ∈ [true, false], easOn (getEas (easPkg 0 4 (fun u => { u with latchDue := k })) 0) = false ∧ (getEas (easPkg 0 4 (fun u => { u with latchDue := k })) 0).latchDue = k) ∧
    (∀ r ∈ [none, some (1, 1)], let s := easPkg 5 4 (fun u => { u with fresh := [aFlip 0 false 1], trained := r })
     (getEas s 0).line = 0 ∧ (getEas s 0).trained = r ∧ (queueOf s 0 3).runs.map (fun r => r.record.count) = [0]) ∧
    (let s := easPkg 5 4 (fun u => { u with blackout := 1, table := rep 16 ([0, 0, 0, 0, 2, 0, 1, 0, 3] ++ rep 23 0) })
     easOn (getEas s 0) = true ∧ (getEas s 0).fresh = [] ∧ (getEas s 0).release = [] ∧ hActive (getEas s 0) = 4 ∧ inRegion (lget [] (getEas s 0).table 0) 1 0 = true ∧
       inRegion (lget [] (getEas s 0).table 0) 2 0 = false ∧ ∀ l ∈ (getEas s 0).layers, layOn l.bytes = false) := by decide +kernel

/-- R338: with every report there the leader's decision applies both members' flips; a member that none has reached keeps its scene. -/
theorem test_flip_group :
    (match exec (.flipGroupDecision 0) (groupPair (fun u => { u with instant := true, report := some (3, 9, true), held := [aFlip 3 false 7] })) with
     | .next t => ((getEas t 0).decided.map (fun f => f.value), (getEas t 1).decided.map (fun f => f.value)) | _ => ([], [])) = ([7], [1]) ∧
    (match exec (.flipGroupSplit 1) (groupPair id) with
     | .next t => ((getEas t 1).decided, (getEas t 1).report, (getEas t 1).err.val) | _ => ([], none, 0)) = ([], none, 16) := by
  refine ⟨?_, ?_⟩ <;> decide +kernel

/-- R336: of a flip without MAILBOX, one with it and one without, the first two apply. -/
theorem test_flip_decision :
    (match exec (.flipDecision 0) (easPkg 0 4 (fun u => { u with pending := [aFlip 0 false 1, aFlip 0 true 2, aFlip 0 false 3] })) with
     | .next t => (getEas t 0).decided.map (fun f => f.value) | _ => []) = [1, 2] := by decide +kernel

/-- Table 13.2: a line of background carried at 10 bits, black inside a region in blackout. -/
theorem test_line :
    (match exec (.lineCompose 0 0 []) (easPkg 5 4 (fun u => { u with bg := 0x3FF00001, blackout := 1, table := rep 16 ([0, 0, 0, 0, 2, 0, 1, 0, 3] ++ rep 23 0) })) with
     | .next t => ((getEas t 0).lineOut, (getEas t 0).line) | _ => ([], 0))
      = ([(0, 0, 0), (0, 0, 0), (1, 0, 1023), (1, 0, 1023)], 1) := by decide +kernel

/-- Link states: training with one and two combinations to try, AUX in flight, and registers that may and may not be written. -/
theorem witness_link :
    (let u := getEas (easPkg 0x117 4 (fun u => { u with hpd := true, training := true })) 0
     linkTries u 1 3 = [(1, 1), (1, 0)] ∧ (linkTries u 1 3).drop 2 = [] ∧ linkTries u 0 3 = [] ∧ easOn u = true) ∧
    (let s := easPkg 0x117 4 (fun u => { u with hpd := true, trained := some (1, 1) })
     (getEas s 0).trained ≠ none ∧ (getEas s 0).linkUp = false ∧ (getEas s 0).hpd = true ∧ (getEas (easPkg 0x117 4 id) 0).hpd = false) ∧
    Served (easPkg 0x117 4 id) 0 14 ∧ easOn (getEas (easPkg 0x117 4 id) 0) = true ∧ easOn (getEas (easPkg 0x116 4 id) 0) = false ∧
    fld (0x117 : W64) 7 4 = 1 ∧ fld (0x117 : W64) 9 8 = 1 ∧ fld (0x177 : W64) 7 4 = 7 ∧
    timingLegal 7680 0x0002000A00140004 = true ∧ timingLegal 7680 0x0002000A00140000 = false ∧ timingLegal 4320 0x0002000400090002 = true ∧
    dpPatternFits 8 4 = true ∧ dpPatternFits 8 3 = false ∧
    bit (getKiln (setKiln (easPkg 0 4 id) 0 { getKiln (easPkg 0 4 id) 0 with dp := 1024 }) 0).dp 10 = true ∧
    (easPkg 0 4 (fun u => { u with aux := some { op := 1, addr := 0x100, len := 16, mot := false, data := [], defers := 7 } })).board.powerOk = true := by
  unfold Served; decide +kernel

/-- Table 13.11: a read of two bytes is answered, and its bytes stand at the bottom of EAS_AUX_RD0. -/
theorem test_aux_read :
    (match exec (.auxComplete 0 (.ack [0x14, 0x1E])) (easPkg 0 4 (fun u =>
        { u with aux := some { op := 1, addr := 0, len := 2, mot := false, data := [], defers := 0 } })) with
     | .next t => ((getEas t 0).rd0, (getEas t 0).auxResult) | _ => (0, 0)) = (0x1E14, 0x02000001) := by decide +kernel

/-! ### Cords -/

/-- A lit package whose cords are up but for what `f` changes, with die 0's end 0 (its peer is die 1) as `g` makes it. -/
def cordPkg (f : Cord → Cord) (g : CordEnd → CordEnd) : State :=
  let s := { corePkg with cords := rep 6 (f { cordReset with lit := true, state := .up, width := 3 }) }
  setEnd s 0 0 (g (endOf s 0 0))

/-- A cord with 5 failed lanes of 64 in its lower half, in its upper half, in both halves but not in lanes 0 to 15, and everywhere. -/
theorem witness_training :
    (let s := cordPkg (fun c => { c with state := .dark, width := 0 }) id
     s.board.powerOk = true ∧ (cordOf s 0).lit = true ∧ (cordOf s 0).training = false ∧ (cordOf s 0).state = .dark ∧ patternMode s 0 = false) ∧
    (∀ st ∈ [CordSt.up, .fenced, .dark, .down], ∀ k ∈ [true, false], let s := cordPkg (fun c => { c with training := true, state := st, checked := k }) id
      (cordOf s 0).training = true ∧ (cordOf s 0).lit = true ∧ s.cords.length = 6 ∧ (∀ n, (getEnds s n).length = 3) ∧ cordLitNow s 0 false = true) ∧
    cordLitNow { cordPkg (fun c => { c with training := true, checked := true }) id with lamps := qall lampReset } 0 false = false ∧
    popcount 64 0x1F = 5 ∧ popcount 32 (0x1F % 2 ^ 32) = 5 ∧ popcount 32 (0x1F / 2 ^ 32) = 0 ∧ popcount 32 (0x1F00000000 % 2 ^ 32) = 0 ∧
    popcount 16 (0x1F001F0000 % 2 ^ 16) = 0 ∧ popcount 32 (0x1F001F0000 % 2 ^ 32) = 5 ∧ popcount 32 (0x1F001F0000 / 2 ^ 32) = 5 ∧
    (∀ k, k < 4 → popcount 16 ((2 ^ 64 - 1) / 2 ^ (16 * k)) = 16) := by decide +kernel

/-- States of a cord that CORD_CMD retrains, lights for a check, and does not. -/
theorem witness_retrain :
    (∀ st ∈ [CordSt.up, .down, .dark], ∀ k ∈ [true, false], let s := cordPkg (fun c => { c with training := k, state := st }) id
      Served s 0 13 ∧ endCord 0 0 = 0 ∧ (cordOf s 0).state = st ∧ (cordOf s 0).training = k ∧ patternMode s 0 = false ∧ cordDies 0 = (0, 1)) ∧
    (let s := setKiln (cordPkg id id) 0 { kilnReset with links := [1, 0, 0] }
     patternMode s 0 = true ∧ Served s 0 13) ∧
    (let s := cordPkg (fun c => { c with state := .dark }) id
     isHeld { s with agree := { s.agree with held := [(1, 6)] } } 1 = true ∧ isHeld s 1 = false) := by
  unfold Served; decide +kernel

/-- R354: the width codes and repairs that the lane test leaves. -/
theorem test_cord_widths :
    ([0x1, 0x1F, 0x1F00000000, 0x1F001F0000, 2 ^ 64 - 1] : List (BitVec 64)).map (fun f =>
      match exec (.cordTrainDone 0 1 f) (cordPkg (fun c => { c with training := true, state := .dark }) id) with
      | .next t => ((cordOf t 0).width, (cordOf t 0).repaired, decide ((cordOf t 0).state = .down)) | _ => (9, 9, true))
      = [(3, 1, false), (2, 0, false), (2, 0, false), (1, 0, false), (0, 0, true)] := by decide +kernel

/-- A flit, its CRC zero. -/
def aFlit (seq ack : BitVec 12) (nak idle : Bool) (payload : List (BitVec 128)) : Flit :=
  { seq := seq, ack := ack, nak := nak, idle := idle, credit := [1, 0, 0, 0, 15], payload := padTo 15 0 payload, crc := 0 }

/-- A transaction of a type, its class, its length in slots and its bytes. -/
def aTx (typ cls len : Nat) (addr : BitVec 40) (arg : BitVec 56) (data : List Byte) : CordTx :=
  { hdr := { typ := BitVec.ofNat 8 typ, cls := BitVec.ofNat 3 cls, len := BitVec.ofNat 4 len, tag := 7, status := 0, addr := addr, arg := arg },
    data := data }

/-- Ends with a flit to replay, with nothing, with two classes waiting, with 64 flits unacknowledged, with flits at each time-out. -/
theorem witness_flits :
    (∀ n, (getEnds (cordPkg id id) n).length = 3) ∧ (cordPkg id id).cords.length = 6 ∧ cordRuns (cordPkg id id) 0 = true ∧
    cordRuns (cordPkg (fun c => { c with training := true }) id) 0 = false ∧ cordRuns (cordPkg (fun c => { c with state := .fenced }) id) 0 = true ∧
    (endOf (cordPkg id (fun x => { x with resend := [aFlit 5 0 false false []] })) 0 0).resend = [aFlit 5 0 false false []] ∧
    (let x := endOf (cordPkg id (fun x => { x with waiting := [aTx 1 1 0 0 0 [], aTx 6 0 4 64 0 (rep 64 1)] })) 0 0
     x.resend = [] ∧ x.credits.length = 5 ∧ x.replay.length < 64 ∧
       x.waiting.find? (fun w => w.hdr.cls.toNat == 0) = some (aTx 6 0 4 64 0 (rep 64 1)) ∧ txSize (aTx 6 0 4 64 0 (rep 64 1)) ≤ lget 0 x.credits 0) ∧
    (let x := endOf (cordPkg id (fun x => { x with replay := rep 64 (aFlit 0 0 false false [], 0, 0) })) 0 0
     x.resend = [] ∧ 64 ≤ x.replay.length) ∧
    (let s := cordPkg id (fun x => { x with replay := [(aFlit 0 0 false false [], 998000, 0)] })
     (∃ r ∈ (endOf s 0 0).replay, r.2.1 + 2000 ≤ s.now)) ∧
    (let s := cordPkg id (fun x => { x with replay := [(aFlit 0 0 false false [], 998001, 0)] })
     ∀ r ∈ (endOf s 0 0).replay, s.now < r.2.1 + 2000) ∧
    (let x := endOf (cordPkg id (fun x => { x with replays := rep 16 1, replay := [(aFlit 0 0 false false [], 0, 3)] })) 0 0
     (x.replays.filter (fun z => decide ((1000000 : Nat) < z + 1000000))).length = 16 ∧ ∃ r ∈ x.replay, 3 ≤ r.2.2) := by decide +kernel

/-- A pass whose bin records and markers for the peer stand before its end, on which nothing of their class waits. -/
theorem witness_binsLeave :
    ∀ l ∈ [[BinItem.record oneRecord, .mark 0], [.mark 0]],
      let s0 := binPkg (fun d p => if d = 0 then { p with out := qset p.out (endPeer 0 0) l } else p)
      let s : State := { s0 with cords := rep 6 { cordReset with lit := true, state := .up, width := 3 } }
      cordRuns s (endCord 0 0) = true ∧ (cordOf s (endCord 0 0)).state = .up ∧ (endOf s 0 0).waiting = [] ∧
      ((getGeo s 0).passes.find? (fun p => !(qget p.out (endPeer 0 0)).isEmpty)).map (fun p => qget p.out (endPeer 0 0)) = some l ∧
      (binTx l).isSome = true := by decide +kernel

/-- Any flit has a CRC that is right, and others that are not. -/
theorem witness_flitCrc (f : Flit) :
    ({ f with crc := flitCrc f } : Flit).crc = flitCrc { f with crc := flitCrc f } ∧
    ({ f with crc := flitCrc f + 1 } : Flit).crc ≠ flitCrc { f with crc := flitCrc f + 1 } :=
  ⟨rfl, fun h => by simpa using (show flitCrc f + 1 = flitCrc f from h)⟩

/-- Flits that arrive: in sequence and out of it, with an acknowledgement, a NAK and a broken header. -/
theorem witness_flitsReceived :
    (aFlit 0 4095 false false []).seq.toNat = (endOf (cordPkg id id) 0 0).rxNext ∧ (aFlit 1 4095 false false []).seq.toNat ≠ (endOf (cordPkg id id) 0 0).rxNext ∧
    (parseSlots 64 (aFlit 0 0 true false [0xFF]).payload []).2.2 ≠ none ∧ (parseSlots 64 (aFlit 0 0 true false (txSlots (aTx 1 1 0 64 0 []))).payload []).2.2 = none ∧
    (let x := endOf (cordPkg id (fun x => { x with replay := [(aFlit 0 0 false false [], 0, 0), (aFlit 1 0 false false [], 0, 0)] })) 0 0
     (x.replay.map (fun r => r.1.seq)) = [0, 1] ∧ ∀ r ∈ x.replay, r.1.seq ≠ (aFlit 0 4095 false false []).ack) := by decide +kernel

/-- A package in whose die 0 transaction `t` has been delivered at end 0. -/
def txPkg (t : CordTx) : State := cordPkg id (fun x => { x with inbox := [t] })

/-- Whether a transaction has its turn there. -/
def hasTurn (s : State) (t : CordTx) : Bool :=
  deliverable (endOf s 0 0) t && cordRuns s (endCord 0 0) && (cordOf s (endCord 0 0)).state == .up

/-- Every type in its turn, poison, and staging pieces under the tag and under another. -/
theorem witness_transactions :
    (∀ t ∈ [aTx 1 1 0 0x2001000 1 [], aTx 2 1 4 0x2001000 0 (rep 64 9), aTx 6 0 4 0x2001000 0 (rep 64 9), aTx 3 1 5 0x2001000 0 (rep 80 255),
        aTx 7 0 5 0x2001000 0 (rep 80 255), aTx 4 1 1 0x2001000 0x280 (rep 16 1), aTx 4 1 1 0x2001000 0x3280 (rep 16 1), aTx 5 1 1 0x2001000 8 (rep 16 1),
        aTx 8 1 0 0x100000 0 [], aTx 9 1 5 0x100000 0 (rep 80 255), aTx 0x10 2 4 0 0 (rep 64 0), aTx 0x11 2 0 0 0 [], aTx 0x12 2 1 0 0 (rep 16 0),
        aTx 0x13 2 0 0 0 []],
      hasTurn (txPkg t) t = true ∧ hasTurn (cordPkg id id) t = false) ∧
    Memory.wf (txPkg (aTx 2 1 4 0x2001000 0 (rep 64 9))).mem ∧ poisonAt (txPkg (aTx 4 1 1 0x2001000 0x280 (rep 16 1))) 0x2001000 = false ∧
    (let s := { txPkg (aTx 4 1 1 0x2001000 0x280 (rep 16 1)) with poison := [(0x2001000 / 64, true)] }
     poisonAt (noteRead s 0x2001000 4) 0x2001000 = true) ∧
    (let s := txPkg (aTx 4 1 1 0x2001000 0x280 (rep 16 1))
     poisonAt (noteRead s 0x2001000 4) 0x2001000 = false ∧ rowWaits s 0x2001000 64 = false ∧
     rowWaits (setMemu s 0 { getMemu s 0 with retiring := some (0x2001000 / 16384) }) 0x2001000 64 = true) ∧
    stageOk corePkg 0 0 64 0 = true ∧ stageOk corePkg 0 0 64 1 = false ∧ mwf 0 (getStaging corePkg 0) = true ∧
    fldN (0x280 : BitVec 56).toNat 11 0 = 0x280 ∧ fldN (0x3280 : BitVec 56).toNat 14 12 = 3 := by decide +kernel

/-- `txPkg` with request 7 of end 0 open for `who`, a signal of a parked frame, and a drain write. -/
def askPkg (typ len at_ : Nat) (who : Asker) : State :=
  let t := aTx typ 2 len 0 1 (rep (16 * len) 0)
  let s := setFrame (cordPkg id (fun x => { x with inbox := [t], asks := [(7, { who := who, typ := 5, at_ := at_, room := 1 })] })) 0 7
    { frameFree 7 with busy := true, queue := 3, park := .sigmax 5 }
  let p := getPort s 0
  setPort { s with signals := [(7, { src := 0, frame := some 7, queue := 3, count := 0, va := 0, pa := 0x200000000, value := 5, sentAt := 0 }),
      (8, { src := 0, frame := none, queue := 3, count := 0, va := 0, pa := 0x200000000, value := 5, sentAt := 0 })] } 0
    { p with drain := [{ window := 0, base := 0, pa := 0x200000000, cells := [(0x200000000, 1)], serial := 4, sent := true }] }

/-- Whom a request may be open for here: a signal of a frame and of an engine, a drain write, a frame that waits, and one that does not. -/
def askers : List Asker := [.signal 7, .signal 8, .drain 4 0, .stoker 7 3 0 0x200000000, .stoker 6 3 0 0x200000000]

/-- A response finds its request, whoever has made it, or none; and a request is open for 20 us, or for less. -/
theorem witness_responses :
    (∀ r ∈ [(0x10, 4), (0x11, 0), (0x12, 1), (0x13, 0)],
      (∀ w ∈ askers, let s := askPkg r.1 r.2 980000 w
        hasTurn s (aTx r.1 2 r.2 0 1 (rep (16 * r.2) 0)) = true ∧ (mfind (endOf s 0 0).asks 7).map (fun q => q.who) = some w ∧
        (mdel (endOf s 0 0).asks 7).length = 0) ∧
      mfind (endOf (txPkg (aTx r.1 2 r.2 0 1 (rep (16 * r.2) 0))) 0 0).asks 7 = none) ∧
    askers.map (stillAsks (askPkg 0x13 0 0 (.signal 7)) 0) = [true, true, true, true, false] ∧
    (∀ w ∈ askers, ∀ a ∈ [980000, 980001], let s := askPkg 0x13 0 a w
      s.board.powerOk = true ∧ (mfind (endOf s 0 0).asks 7).map (fun q => (q.typ, decide (q.at_ + 20000 ≤ s.now))) = some (5, a == 980000) ∧
      (getEnds s 0).length = 3) ∧
    (let s := askPkg 0x13 0 0 (.signal 7)
     (getStk s 0).frames.length = 32 ∧ (frameOf' s 0 7).park = .sigmax 5 ∧ (frameOf' s 0 7).queue = 3 ∧ (frameOf' s 0 7).count = 0 ∧
     (frameOf' s 0 7).walk = none ∧ mwf 0 (frameOf' s 0 7).regs = true ∧ (mfind s.signals 7).isSome = true ∧ (mfind s.signals 8).isSome = true) := by
  decide +kernel

/-- R97: the outcome of a frame's signal reaches its register; R364: one that times out ends the engine's record. -/
theorem test_signal_answers :
    (match exec (.sigAck 0 0 (aTx 0x13 2 0 0 1 []).hdr []) (askPkg 0x13 0 980000 (.signal 7)) with
     | .next t => ((t.signals.map (fun p => p.1)), decide ((frameOf' t 0 7).park = .ready), rvGet (frameOf' t 0 7) 5) | _ => ([], false, 0)) = ([8], true, 1) ∧
    (match exec (.transactionTimeout 0 0 7 5) (askPkg 0x13 0 980000 (.signal 8)) with
     | .next t => ((t.signals.map (fun p => p.1)), (endOf t 0 0).late, bit (endOf t 0 0).err.val 4) | _ => ([], [], false)) = ([7], [7], true) := by
  refine ⟨?_, ?_⟩ <;> decide +kernel

/-- Messages: a cord that is up, a die in step, a pass that its leader has aborted, flushed and joined. -/
theorem witness_messages :
    ((cordOf (cordPkg id id) (cordIdx 0 1)).state = .up ∧ cordRuns (cordPkg id id) (cordIdx 0 1) = true ∧ inStep (cordPkg id id) 1 = true ∧
     (let s := cordPkg id id
      inStep { s with agree := { s.agree with fenced := [(1, 1)] } } 1 = false)) ∧
    (let s := txPkg (aTx 0x30 4 0 0 0 [])
     (endOf s 0 (endTo 0 1)).inbox.find? (fun t => t.hdr.typ.toNat == 0x30) = some (aTx 0x30 4 0 0 0 []) ∧ (∀ t ∈ (endOf s 1 (endTo 1 0)).inbox, t.hdr.typ ≠ 0x30)) ∧
    (let s := { passesPkg (fun d p => { p with aborted := d == 0, flushTo := some 3, lit := if d = 0 then some [0, 1] else none }) with cords := (cordPkg id id).cords }
     cordRuns s 0 = true ∧ (passByCtx s 0 7 5).map (fun p => (p.aborted, p.flushTo, p.leader)) = some (true, some 3, 0) ∧
       (passByCtx s 1 7 5).map (fun p => p.lit) = some none) ∧
    (passByCtx (passesPkg (fun _ p => p)) 0 7 5).map (fun p => p.aborted) = some false := by decide +kernel

/-- Table 14.5: RD answers with its 64 bytes; ATOM `add` on a word; SIG keeps the greater; SRD of another tag is refused with status 4. -/
theorem test_transactions :
    (match exec (.rd 0 0 (aTx 1 1 0 0x2001000 0 []).hdr []) (txPkg (aTx 1 1 0 0x2001000 0 [])) with
     | .next t => ((endOf t 0 0).inbox, (endOf t 0 0).waiting.map (fun r => (r.hdr.typ, r.hdr.len, r.data.take 4)), lget 0 (endOf t 0 0).freed 1)
     | _ => ([], [], 0)) = ([], [(0x10, 4, [0x4B, 0x57, 1, 1])], 1) ∧
    (match exec (.sig 0 0 (aTx 5 1 1 0x2002000 8 (rep 16 1)).hdr (rep 16 1)) (txPkg (aTx 5 1 1 0x2002000 8 (rep 16 1))) with
     | .next t => (memWord t 0x2002008, (endOf t 0 0).waiting.map (fun r => r.hdr.arg)) | _ => (0, [])) = (0x0101010101010101, [1]) ∧
    (match exec (.srd 0 0 (aTx 8 1 0 0x100000 3 []).hdr []) (txPkg (aTx 8 1 0 0x100000 3 [])) with
     | .next t => (endOf t 0 0).waiting.map (fun r => (r.hdr.status, r.data)) | _ => []) = [(4, rep 64 0)] := by decide +kernel

/-- Tables 14.2 and 14.4, R353: a header whose bytes are fewer than its slots, a flit of two slots, a cord named from its higher die. -/
theorem test_illformed_cords :
    Instr.wf (.rd 0 0 { (aTx 1 1 0 64 0 []).hdr with len := 1 } []) = false ∧ Instr.wf (.rd 0 0 (aTx 1 1 0 64 0 []).hdr []) = true ∧
    Instr.wf (.flitReceive 0 0 { aFlit 0 0 false false [] with payload := [0, 0] }) = false ∧ Instr.wf (.cordTrain 1 0) = false ∧
    Instr.wf (.cordTrainDone 2 2 0) = false ∧ Instr.wf (.cordTrain 0 1) = true := by decide +kernel

/-! ### Agreement, time, lamps -/

/-- The package of the clocks with every cord up, whose dies 1 and 2 have passed their checks. -/
def agrPkg (f : DieId → Sec → Sec) (held fenced : Map Nat) : State :=
  { timePkg with
    cords := rep 6 { cordReset with lit := true, state := .up, width := 3 }
    secs := qmap f timePkg.secs
    agree := { agreeReset with joined := 6, passed := 6, held := held, fenced := fenced, epochDone := 4, asked := [(1, (980000, true)), (2, (980000, false))] } }

/-- An image of die versions `lo` to `hi`, for ABI 2 to 3. -/
def anImage (lo hi : Nat) : Image :=
  { version := 1, svn := 2, abiMin := 2, abiMax := 3, cpvMin := lo, cpvMax := hi, body := [], manifest := [] }

/-- Dies that may be asked and may not, that pass, that differ in each way that holds a die, held ones, and one of another STATE_GEN. -/
theorem witness_checks :
    canAsk (agrPkg (fun _ x => x) [] []) 1 = true ∧ canAsk (agrPkg (fun _ x => x) [] []) 0 = false ∧
    (agrPkg (fun _ x => x) [] []).cords.length = 6 ∧ holdCause (agrPkg (fun _ x => { x with started := false }) [] []) 1 = none ∧
    mfind (agrPkg (fun _ x => x) [(1, 9)] []).agree.held 1 = some 9 ∧ canAsk (agrPkg (fun _ x => x) [(1, 9)] []) 1 = true ∧
    holdCause (agrPkg (fun d x => if d = 1 then { x with hash := 1 } else x) [] []) 1 = some 6 ∧
    (let s := agrPkg (fun d x => { x with image := some (if d = 1 then anImage 3 4 else anImage 1 2) }) [] []
     (cpvOffer s 0).2 < (cpvOffer s 1).1 ∧ (getSec s 1).hash = (getSec s 0).hash ∧ holdCause s 1 = some 7) ∧
    (let s := agrPkg (fun _ x => { x with image := some (anImage 1 2) }) [] []
     (cpvOffer s 0).1 ≤ (cpvOffer s 1).2 ∧ s.agree.abi < (abiOffer s 1).1 ∧ (getSec s 1).started = true ∧ holdCause s 1 = some 8) ∧
    (let s := setTables (agrPkg (fun _ x => { x with started := false }) [] []) 2 { tabs timePkg with stateGen := 9 }
     (getTables s 2).stateGen ≠ (tabs s).stateGen ∧ awake s 2 = true ∧ isFenced s 2 = false ∧ canAsk s 2 = true ∧ isHeld s 0 = false ∧
       (getTables s 1).stateGen = (tabs s).stateGen ∧ awake s 0 = true ∧ (mfind s.agree.asked 2).isSome = true ∧ mfind s.agree.asked 3 = none ∧
       mfind s.agree.held 2 = none) ∧
    (let s := setTables (agrPkg (fun _ x => { x with started := false }) [(2, 7)] []) 2 { tabs timePkg with stateGen := 9 }
     (getTables s 2).stateGen ≠ (tabs s).stateGen ∧ holdCause s 2 = none ∧ mfind s.agree.held 2 = some 7) := by decide +kernel

/-- An epoch's check that is due, dies that do not answer, and dies that reload. -/
theorem witness_agreement :
    (let s := { agrPkg (fun _ x => { x with image := some { anImage 1 1 with abiMin := 0 } }) [] [] with agree := { agreeReset with joined := 6, epochDone := 3 } }
     s.agree.epochDone ≤ (getTime s 0).epoch ∧ (getSec s 0).started = true ∧ s.board.powerOk = true ∧
       s.agree.joined.testBit 1 = true ∧ awake s 1 = true ∧ physUp s (cordIdx 0 1) = true ∧ isHeld s 1 = false ∧ s.agree.joined.testBit 3 = false) ∧
    (let s := agrPkg (fun _ x => x) [] []
     s.board.powerOk = true ∧ mfind s.agree.asked 2 = some (980000, false) ∧ 980000 + 20000 ≤ s.now ∧ awake s 2 = true ∧ isHeld s 2 = false ∧
       isFenced s 2 = false ∧ ¬ (980000 + 20000 ≤ { s with now := 999999 }.now)) ∧
    ¬ ((agrPkg (fun _ x => x) [] []).agree.epochDone ≤ (getTime (agrPkg (fun _ x => x) [] []) 0).epoch) ∧
    (cordOf (agrPkg (fun _ x => x) [] []) (cordIdx 0 2)).lit = true ∧ (cordOf timePkg (cordIdx 0 2)).lit = false ∧
    (let s := agrPkg (fun _ x => x) [] [(2, 2)]
     canAsk s 2 = true ∧ isFenced s 2 = true ∧ (getCordRegs s 2).reloading = false ∧ mfind s.agree.fenced 2 = some 2 ∧ isFenced s 1 = false ∧
       (getCordRegs s 2).mustReload = false ∧ (getTables s 2).stateGen = (tabs s).stateGen ∧
       (getCordRegs (setCordRegs s 2 { getCordRegs s 2 with mustReload := true }) 2).mustReload = true) ∧
    (let s := setCordRegs (agrPkg (fun _ x => x) [] [(2, 2)]) 2 { getCordRegs timePkg 2 with reloading := true }
     (getCordRegs s 2).reloading = true ∧ (∀ e ∈ (getCordRegs s 0).commitValues, e.1 / 2 ^ 20 ≠ 2) ∧ missedResets s 2 = []) := by decide +kernel

/-- R366: a die with other settings is held with cause 6, its cord dark; one with another STATE_GEN is fenced for state. -/
theorem test_checks :
    (match exec (.neg 1) (agrPkg (fun d x => if d = 1 then { x with hash := 1 } else x) [] []) with
     | .next t => (mfind t.agree.held 1, (cordOf t 0).lit, t.agree.joined.testBit 1) | _ => (none, true, true)) = (some 6, false, false) ∧
    (match exec (.neg 2) (setTables (agrPkg (fun _ x => { x with started := false }) [] []) 2 { tabs timePkg with stateGen := 9 }) with
     | .next t => (mfind t.agree.fenced 2, t.agree.joined.testBit 2) | _ => (none, true)) = (some 2, false) := by decide +kernel

/-- The same package with an exchange of die 2 in progress. -/
def syncPkg (y : Option (Nat × Nat × Nat × Bool)) (dt0 dt2 : Nat) : State :=
  let s := agrPkg (fun _ x => x) [] []
  let s1 := { s with agree := { s.agree with timeOk := [(2, 5)] } }
  setTime (setTime s1 0 { getTime s1 0 with dt := dt0 }) 2 { getTime s1 2 with dt := dt2, sync := y }

/-- Exchanges at each of their four stamps, of every size of offset, and one too long; epochs that differ by one and by none. -/
theorem witness_exchanges :
    ((syncPkg none 1000000 1000000).board.powerOk = true ∧ (getTime (syncPkg none 1000000 1000000) 0).lastSync + 1000000 ≤ 1000000) ∧
    ¬ ((getTime (syncPkg none 1000000 1000000) 0).lastSync + 1000000 ≤ (getTime (syncPkg none 999999 1000000) 0).dt) ∧
    canAsk (syncPkg none 1000000 1000000) 2 = true ∧ (getTime (syncPkg (some (5, 0, 0, false)) 100 100) 2).sync = some (5, 0, 0, false) ∧
    (getTime (syncPkg none 0 0) 2).epoch = (getTime (syncPkg none 0 0) 0).epoch ∧
    (let s := syncPkg (some (5, 0, 0, false)) 100 100
     let s1 := setTime s 0 { getTime s 0 with epoch := 4 }
     (getTime s1 0).epoch = (getTime s1 2).epoch + 1) ∧
    exchange 1000 1100 1200 1300 = (0, 100) ∧ exchange 1000 1110 1210 1300 = (10, 100) ∧ exchange 1000 5100 5200 1300 = (4000, 100) ∧
    exchange 5000 1100 1200 5300 = (-4000, 100) ∧ exchange 1000 1100 1200 1602 = (-151, 251) ∧ exchange 1000 1200 1300 1500 = (0, 200) ∧
    (let s := syncPkg (some (5000, 1100, 1200, false)) 5300 100
     let s1 := setTime s 2 { getTime s 2 with standFor := 3000 }
     0 < (getTime s1 2).standFor ∧ (getTime s1 2).sync = (getTime s 2).sync ∧ exchange 1000 1600 1700 1400 = (450, 150)) ∧
    mfind (syncPkg none 0 0).agree.timeOk 2 = some 5 ∧ awake (syncPkg none 0 0) 2 = true ∧ isHeld (syncPkg none 0 0) 2 = false := by decide +kernel

/-- R371: an offset of 10 ns slews over 100 us; one of -4,000 ns steps forward, fences the die and counts from none again. -/
theorem test_exchange :
    (match exec (.tsync 2 .result 1300 false) (syncPkg (some (1000, 1110, 1210, false)) 1300 9) with
     | .next t => ((getTime t 2).slew, (getTime t 2).dt, mfind t.agree.timeOk 2, isFenced t 2) | _ => (none, 0, none, true))
      = (some { amount := 10, forward := false, left := 100000, span := 100000, acc := 0 }, 9, some 6, false) ∧
    (match exec (.tsync 2 .result 5300 false) (syncPkg (some (5000, 1100, 1200, false)) 5300 9) with
     | .next t => ((getTime t 2).slew, (getTime t 2).dt, mfind t.agree.timeOk 2, isFenced t 2) | _ => (none, 0, none, false))
      = (none, 4009, some 0, true) := by decide +kernel

/-- R371: a follower that stands still for a backward step of 3,000 ns stands for the 450 ns that the newest exchange leaves, and slews by none. -/
theorem test_exchange_stands :
    (let s := syncPkg (some (1000, 1600, 1700, false)) 1400 100
     match exec (.tsync 2 .result 1400 false) (setTime s 2 { getTime s 2 with standFor := 3000 }) with
     | .next t => ((getTime t 2).standFor, (getTime t 2).slew, isFenced t 2) | _ => (9, none, true)) = (450, none, false) := by decide +kernel

/-- A package whose D0 counts `dt`, with PPS state as `f` makes it. -/
def ppsPkg (dt : Nat) (f : PpsState → PpsState) : State :=
  let s := agrPkg (fun _ x => x) [] []
  { setTime s 0 { getTime s 0 with dt := dt } with pps := f ppsReset }

/-- A die without an exchange for 10 ms; edges that are accepted, near another, first and second candidates; slews at and before their
end; 2.5 s without an edge. -/
theorem witness_time :
    (let s := { agrPkg (fun _ x => x) [] [] with now := 10000000 }
     s.board.powerOk = true ∧ awake s 2 = true ∧ isHeld s 2 = false ∧ mfind s.agree.timeOk 2 = none ∧ awaitsCheck s 2 = false ∧
       (getTime s 2).lastSync + 10000000 ≤ s.now ∧ isFenced s 2 = false) ∧
    (bit (ppsPkg 0 id).pps.ctl 0 = true ∧ bit (ppsPkg 0 id).pps.ctl 1 = false) ∧
    ppsError 3000000000 = 0 ∧ ppsError 3000200000 = 200000 ∧ ppsError 2999000000 = -1000000 ∧ ppsError 2998999999 = -1000001 ∧
    ppsError 3500000000 = 500000000 ∧ ppsError 3500000001 = -499999999 ∧
    (ppsPkg 3000000000 (fun p => { p with lastMarked := some 2600000000 })).pps.lastMarked = some 2600000000 ∧
    (∃ c ∈ (ppsPkg 3300000000 (fun p => { p with candidates := [2300000000] })).pps.candidates, c + 999900000 ≤ 3300000000 ∧ 3300000000 ≤ c + 1000100000) ∧
    (let s := setTime timePkg 0 { getTime timePkg 0 with slew := some { amount := 3, forward := true, left := 0, span := 30000, acc := 0 } }
     (getTime s 0).slew.map (fun w => w.left) = some 0) ∧
    (getTime timePkg 0).slew = none ∧
    ((ppsPkg 2500000000 id).pps.freeRun = false ∧ (ppsPkg 2500000000 id).pps.lastAccepted.getD 0 + 2500000000 ≤ (getTime (ppsPkg 2500000000 id) 0).dt) ∧
    Served timePkg 0 8 ∧ Served timePkg 3 8 ∧ fld (4000000 : W64) 31 0 = 4000000 ∧ fld (16700001 : W64) 31 0 = 16700001 := by
  unfold Served; decide +kernel

/-- R385: a late edge steps time forward to the next second; an error of 200 us is corrected by 100 us. -/
theorem test_pps :
    (match exec (.ppsEdge false) (ppsPkg 3300000000 (fun p => { p with candidates := [2300000000] })) with
     | .next t => ((getTime t 0).dt, (getTime t 2).owed, t.pps.steps) | _ => (0, 0, 0)) = (4000000000, 700000000, 1) ∧
    (match exec (.ppsEdge false) (ppsPkg 3000200000 id) with
     | .next t => (getTime t 0).slew.map (fun w => (w.amount, w.forward)) | _ => none) = some (100000, false) := by decide +kernel

/-- A package with `f` applied to die 1's lamps and an envelope cap of 120 W in generation 0. -/
def lampPkgOf (f : Lamp → Lamp) : State :=
  let s := setOtp timePkg 0 { getOtp timePkg 0 with slots := rep 4 (rep 0x49 0 ++ [120] ++ rep 950 0) }
  let s1 := { s with lamps := qall { lampReset with dom := rep 11 .dark }, lampPkg := { lampPkgReset with inForce := 120 }, now := 200000000 }
  setLamp s1 1 (f (getLamp s1 1))

/-- Writes of the lamp registers within their limits and beyond them. -/
theorem witness_lampWrites :
    Served (lampPkgOf id) 0 7 ∧ Served (lampPkgOf id) 2 7 ∧ envelopeLegal (lampPkgOf id) 25 = true ∧ envelopeLegal (lampPkgOf id) 120 = true ∧
    envelopeLegal (lampPkgOf id) 26 = false ∧ envelopeLegal (lampPkgOf id) 125 = false ∧ orderLegal 0x4E4 = true ∧ orderLegal 0x4E0 = false ∧
    (lampPkgOf id).lampPkg.masks.length = 4 := by
  unfold Served; decide +kernel

/-- A die that lights a domain, one that lets a lit one go, one whose lit cluster is busy, one that waits, one that changes. -/
theorem witness_transitions :
    (let s := lampPkgOf (fun l => { l with target := 0x100 })
     nextChange s 1 = some (8, .lit) ∧ (getLamp s 1).changing = none ∧ domOf s 1 8 = .dark ∧ fits s 1 8 = true) ∧
    (let s := lampPkgOf (fun l => { l with dom := rep 7 .dark ++ [.lit] ++ rep 3 .dark })
     nextChange s 1 = some (7, .dark) ∧ holdOf s 1 7 = false) ∧
    (let s := setLamp groupPkg 0 { lampReset with dom := rep 8 .lit ++ rep 3 .dark, target := 0x7F }
     nextChange s 0 = none ∧ nextDrain s 0 = some 7 ∧ (getLamp s 0).draining = none) ∧
    (nextChange (lampPkgOf id) 1 = none ∧ nextDrain (lampPkgOf id) 1 = none) ∧
    (let s := lampPkgOf (fun l => { l with changing := some (3, .ember) })
     bathRunning (lampPkgOf id) 1 = false ∧ (let k := setCores (lampPkgOf id) 1 { getCores (lampPkgOf id) 1 with slots := [{ slotFree with state := .stopping }] }
       bathRunning k 1 = true) ∧
     (getLamp s 1).changing = some (3, .ember) ∧ s.board.powerOk = true ∧ (getLamp s 1).dom.length = 11 ∧ domOf s 1 3 = .dark) := by decide +kernel

/-- Readings below WARN, at it, at the trip; a cap and a restoration due, and not. -/
theorem witness_sensors :
    (∀ h ∈ [(0 : BitVec 12), 351, 352, 360, 440], (hottest { getLamp (lampPkgOf id) 1 with temps := rep 10 0 ++ [h] }).2 = h.toInt) ∧
    gradeE (lampPkgOf id) 1 = false ∧ (lampPkgOf id).board.powerOk = true ∧ State.reset.board.powerOk = false ∧
    (let s := lampPkgOf (fun l => { l with target := 0x3, temps := rep 11 380 })
     tjQ s 1 ≤ (hottest (getLamp s 1)).2 ∧ 0 < popcount 8 (dropHigh 8 (getLamp s 1).target 0) ∧ (getLamp s 1).removed = 0) ∧
    (let s := lampPkgOf (fun l => { l with target := 0x7, temps := rep 11 359, removed := 1, cappedAt := 100000000 })
     (hottest (getLamp s 1)).2 < tjQ s 1 - 20 ∧ 0 < (getLamp s 1).removed ∧ max (getLamp s 1).cappedAt (getLamp s 1).restoredAt + 100000000 ≤ s.now) := by decide +kernel

/-- R377: an envelope of 60 W waits, the register shows it; R381: 95 degrees and 15 more trips the package. -/
theorem test_lamps :
    (match exec (.lampEnvelopeWrite 0 60) (lampPkgOf id) with
     | .next t => (t.lampPkg.envelope, t.lampPkg.inForce) | _ => (0, 0)) = (60, 120) ∧
    (match exec (.sensorRead 1 (rep 10 0 ++ [440])) (lampPkgOf id) with
     | .next t => (t.board.powerOk, t.board.tripLatch, fld t.board.trip 11 0, fld t.board.trip 17 16) | _ => (true, false, 0, 0))
      = (false, true, 440, 1) := by decide +kernel

/-! ### Power, start-up, firmware, OTP -/

/-- Ranges of operands (R440, Tables 11.5, 15.5, 16.1): each is refused outside. -/
theorem test_wf_refuses_ranges :
    (Instr.xlateFaultMerged 0 0 (2 ^ 39)).wf = false ∧ (Instr.xlateFaultMerged 0 0 (2 ^ 39 - 1)).wf = true ∧ (Instr.sensorRead 0 (rep 10 0)).wf = false ∧
    (Instr.sensorRead 0 (rep 11 0)).wf = true ∧ (Instr.powerOkAssert (rep 3 .pass)).wf = false ∧ (Instr.powerOkAssert (rep 4 .pass)).wf = true ∧
    (Instr.resetAssert 0 false).wf = false ∧ (Instr.resetAssert 1 false).wf = true ∧ (Instr.vinEntersRange 1745).wf = false ∧
    (Instr.vinEntersRange 1855).wf = false ∧ (Instr.vinEntersRange 1746).wf = true ∧ (Instr.vinEntersRange 1854).wf = true := by decide +kernel

/-- A package at start-up, die `d` as `f` makes it. -/
def bootPkg (d : DieId) (f : Sec → Sec) : State :=
  let b : Board := { boardReset with resetN := true, released := true, powerOk := true }
  let s := { State.reset with board := b, now := 2000000000, cords := rep 6 { cordReset with lit := true, state := .up, width := 3 } }
  setSec s d (f { secReset with romOk := true })

/-- RESET_N low and high, with VIN at 1,746, 1,699 and 1,800 mV; rails about to rise; every later point of start-up. -/
theorem witness_startUp :
    State.reset.board.resetN = false ∧ 1746 ≤ State.reset.board.vinMv ∧ State.reset.board.vinMv ≤ 1854 ∧ (bootPkg 0 id).board.resetN = true ∧
    1746 ≤ (bootPkg 0 id).board.vinMv ∧ 1699 ≤ (bootPkg 0 id).board.vinMv ∧ ¬ (1854 < 1746) ∧
    (let s := { State.reset with board := { boardReset with resetN := true, released := true } }
     s.board.released = true ∧ s.board.resetN = true ∧ s.board.powerOk = false ∧ ([.pass, .fail, .pass, .pass] : List SelfCheck).length = 4 ∧ s.board.tripHold = false) ∧
    (let x := getSec (bootPkg 1 id) 1
     x.romOk = true ∧ x.stage = 0 ∧ x.otpDone = false ∧ ∀ k, k < 4 → slotCode (getOtp (bootPkg 1 id) 1) k ≠ 1) ∧
    (let x := getSec (bootPkg 1 (fun x => { x with otpDone := true, active := some 2 })) 1
     x.otpDone = true ∧ x.active ≠ none ∧ x.stage = 0) ∧
    (let x := getSec (bootPkg 1 (fun x => { x with stage := 2, token := some 1 })) 1
     x.stage = 2 ∧ x.kilnDone = none ∧ (decide (1 < 11) && !((x.token.getD 0).testBit 1)) = true ∧ (decide (0 < 11) && !((x.token.getD 0).testBit 0)) = false) ∧
    (let s := bootPkg 0 (fun x => { x with stage := 2, kilnDone := some 1000000000, pendingImage := some (anImage 1 1) })
     (getSec s 0).stage = 2 ∧ (getSec s 0).kilnDone = some 1000000000 ∧ 1000000000 + 1000000000 ≤ s.now ∧ othersSettled s = false ∧ (getSec s 0).waitOver = false) ∧
    (let s := bootPkg 1 (fun x => { x with stage := 2, kilnDone := some 5, pendingImage := some (anImage 1 1) })
     (getSec s 1).pendingImage = some (anImage 1 1) ∧ (getSec s 1).kilnDone ≠ none ∧ (1 : DieId) ≠ 0) := by
  decide +kernel

/-- A die with a valid slot 2, where the vendor has signed a block for it. -/
theorem witness_otpSelection (b : List Byte) (hb : blockValid 0 2 b = true) :
    ∃ s : State, s.board.powerOk = true ∧ (getSec s 1).romOk = true ∧ (getSec s 1).stage = 0 ∧ (getSec s 1).otpDone = false ∧
      slotCode (getOtp s 1) 2 = 1 ∧ slotCode (getOtp s 1) 3 ≠ 1 := by
  refine ⟨setOtp (bootPkg 1 id) 1 { otpBlank with slots := [rep 1024 0, rep 1024 0, b, rep 1024 0] }, rfl, rfl, rfl, rfl, ?_, ?_⟩
  swap
  · show slotCode { otpBlank with slots := [rep 1024 0, rep 1024 0, b, rep 1024 0] } 3 ≠ 1
    have hz : (rep 1024 (0 : Byte)).all (fun x => x == 0) = true := by decide +kernel
    have h0 : otpSlot { otpBlank with slots := [rep 1024 0, rep 1024 0, b, rep 1024 0] } 3 = rep 1024 0 := rfl
    have hs : lget false ({ otpBlank with slots := [rep 1024 0, rep 1024 0, b, rep 1024 0] } : Otp).spent 3 = false := rfl
    simp only [slotCode, h0, hz, hs]; decide +kernel
  show slotCode { otpBlank with slots := [rep 1024 0, rep 1024 0, b, rep 1024 0] } 2 = 1
  have h0 : otpSlot { otpBlank with slots := [rep 1024 0, rep 1024 0, b, rep 1024 0] } 2 = b := rfl
  have hz : b.all (fun x => x == 0) = false := by
    by_contra h
    have hall : ∀ x ∈ b, x = 0 := by simpa [List.all_eq_true] using h
    have hm : leAt b 0 4 = 0x4750544F := by
      have := hb
      simp only [blockValid, blockFields, Bool.and_eq_true, beq_iff_eq] at this
      exact this.1.1.1.1.1.1.1.1.1.1.1.1.1.1.1.1
    have hle : ∀ l : List Byte, (∀ x ∈ l, x = 0) → leNat l = 0 := by
      intro l; induction l with
      | nil => intro _; rfl
      | cons a r ih => intro h2; simp [leNat, h2 a (by simp), ih (fun x hx => h2 x (by simp [hx]))]
    have : leAt b 0 4 = 0 := by
      unfold leAt
      exact hle _ (fun x hx => hall x (List.mem_of_mem_drop (List.mem_of_mem_take hx)))
    omega
  have hs : lget false ({ otpBlank with slots := [rep 1024 0, rep 1024 0, b, rep 1024 0] } : Otp).spent 2 = false := rfl
  have hv : blockValid ({ otpBlank with slots := [rep 1024 0, rep 1024 0, b, rep 1024 0] } : Otp).serial 2 b = true := hb
  simp only [slotCode, h0, hz, hs, hv]; rfl

/-- R440: a low of 1 to 10 us is taken or not; VIN at 1,699 mV takes the package down, at 1,700 mV not. -/
theorem test_reset_and_vin :
    (match exec (.resetAssert 9999 true) (bootPkg 0 id) with | .next t => t.board.powerOk | _ => true) = false ∧
    (match exec (.resetAssert 9999 false) (bootPkg 0 id) with | .next t => t.board.powerOk | _ => false) = true ∧
    (match exec (.vinDrop 1699) (bootPkg 0 id) with | .next t => t.board.powerOk | _ => true) = false ∧
    (match exec (.vinDrop 1700) (bootPkg 0 id) with | .next t => t.board.powerOk | _ => false) = true := by decide +kernel

/-- A package tripped, with RESET_N released, a sensor of D0 at `t` quarter degrees and no OTP generation. -/
def trippedPkg (t : BitVec 12) : State :=
  { State.reset with board := { boardReset with resetN := true, released := true, tripHold := true }
                     otps := qall { otpBlank with slots := [] }
                     lamps := qset State.reset.lamps 0 { getLamp State.reset 0 with temps := [t] } }

/-- R441: after a trip POWER_OK waits until every sensor reads below Tj, 95 degrees here. -/
theorem test_trip_hold :
    (match exec (.powerOkAssert (rep 4 .pass)) (trippedPkg 380) with | .next t => t.board.powerOk | _ => true) = false ∧
    (match exec (.powerOkAssert (rep 4 .pass)) (trippedPkg 379) with | .next t => t.board.powerOk | _ => false) = true ∧
    (let s := trippedPkg 379
     s.board.tripHold = true ∧ ∀ d : DieId, ∀ x ∈ (getLamp s d).temps, x.toInt < tjDown s d) := by decide +kernel

/-- SEC_CMD's stages, its place in staging and its failures; a copy to a die that waits. -/
theorem witness_firmware :
    (let s := bootPkg 0 (fun x => { x with stage := 1, active := some 0 })
     Served s 0 12 ∧ (getSec s 0).stage = 1 ∧ bit (getSec s 0).result 24 = false ∧ tag0Place s 0 0 128 128 = some (0, 0) ∧
       tag0Place s 0 64 128 128 = none ∧ tag0Place s 0 0 256 256 = some (0, 0) ∧ mwf 0 (getStaging s 0) = true ∧
       (match checkImage (seeImage s 0 0 388) 0 0 0 388 0 none none with | .error c => c | _ => 0) = 1 ∧
       leNat (((stageRead s 0 0 128).drop 8).take 8) = (getOtp s 0).serial.toNat ∧ (getSec s 0).active = some (leAt (stageRead s 0 0 128) 6 1)) ∧
    (let s := bootPkg 0 (fun x => { x with stage := 2 })
     Served s 0 12 ∧ (getSec s 0).stage ≠ 1) ∧
    (∀ st ∈ [3, 15], let s := setSec (bootPkg 1 (fun x => { x with stage := 1 })) 0 { secReset with stage := st }
     Served s 1 12 ∧ (getSec s 1).stage = 1 ∧ (getSec s 0).stage = st ∧ bit (getSec s 1).result 24 = false) ∧
    (let s := bootPkg 0 (fun x => { x with stage := 3, started := true })
     Served s 0 12 ∧ rotating s = false ∧ (match checkImage (seeImage s 0 0 0) 0 0 0 0 s.agree.abi none none with | .error c => c | _ => 0) = 1) ∧
    (let s := bootPkg 2 (fun x => { x with stage := 1, copyFrom := some (0, 388, 0) })
     (getSec s 2).copyFrom = some (0, 388, 0) ∧ (getSec s 2).stage = 1 ∧ physUp s (cordIdx 0 2) = true ∧ poisonIn (noteRead s 0 388) 0 388 = false ∧
       (let q := { s with poison := [(2, true)] }
        poisonIn (noteRead q 0 388) 0 388 = true) ∧
       (match checkImage (memWrite (noteRead s 0 388) (2 ^ 34) (memRead s 0 388)) 2 2 (2 ^ 34) 388 0 none none with | .error c => c | _ => 0) = 1) := by
  unfold Served; decide +kernel

/-- An image that passes, where the vendor has signed one for ABI 0, and a token that its die has signed. -/
theorem witness_images (m : Map Byte) (i : Image) (b : List Byte)
    (hi : checkImage (seeImage { bootPkg 0 (fun x => { x with stage := 1, arg1 := 388 }) with mem := m } 0 0 388) 0 0 0 388 0 none none = .ok i)
    (hb : tokenGood (bootPkg 0 (fun x => { x with stage := 1, active := some 0 })) 0 b = true) :
    (∃ s : State, Served s 0 12 ∧ (getSec s 0).stage = 1 ∧ bit (getSec s 0).result 24 = false ∧
      fld (getSec s 0).arg0 39 0 = 0 ∧ fld (getSec s 0).arg1 31 0 = 388 ∧ fld (getSec s 0).arg1 39 32 = 0 ∧
      checkImage (seeImage s 0 0 388) 0 0 0 388 0 none none = .ok i) ∧
    (∃ s : State, (getSec s 0).stage = 1 ∧ tokenGood s 0 b = true) :=
  ⟨⟨{ bootPkg 0 (fun x => { x with stage := 1, arg1 := 388 }) with mem := m }, ⟨rfl, rfl⟩, rfl,
    (by decide : bit (0 : W64) 24 = false), (by decide : fld (0 : W64) 39 0 = 0), (by decide : fld (388 : W64) 31 0 = 388),
    (by decide : fld (388 : W64) 39 32 = 0), hi⟩,
   ⟨bootPkg 0 (fun x => { x with stage := 1, active := some 0 }), rfl, hb⟩⟩

/-- A rotation at its first and its last stoker. -/
theorem witness_rotation :
    (∀ r ∈ [[], (countUp 1 7)],
     let s0 := bootPkg 0 (fun x => { x with stage := 3, rotated := r, pendingImage := some (anImage 1 1) })
     let s := setStk s0 0 { stokerUnitReset with rotateTo := some 5 }
     (getStk s 0).rotateTo = some 5 ∧ (getSec s 0).pendingImage = some (anImage 1 1) ∧ s.board.powerOk = true ∧
     (countUp 0 8).find? (fun j => !((getSec s 0).rotated.contains j) && !(stokerOf s 0 j).dark) = some 0 ∧
     (∀ f, f < 4 → (frameOf' s 0 f).busy = false) ∧ (getStk s 0).stokers.length = 8) := by decide +kernel

/-- OTP commands: none and one in place, burns and raises under way. -/
theorem witness_otp :
    (let s := bootPkg 0 (fun x => { x with stage := 3, started := true, active := some 0, image := some { anImage 1 1 with svn := 5 } })
     Served s 0 11 ∧ bit (getSec s 0).otpResult 24 = false ∧ (getSec s 0).stage = 3 ∧ tag0Place s 0 0 1024 1 = some (0, 0) ∧
       slotCode (getOtp s 0) 2 = 0 ∧ slotCode (getOtp s 0) 0 = 0 ∧ leAt (stageRead s 0 0 1024) 4 1 = 0 ∧ dieFloor s 0 = 0 ∧
       ((getSec s 0).image.map (fun i => i.svn)).getD 0 = 5 ∧ (5 : BitVec 7).toNat = 5 ∧ (6 : BitVec 7).toNat = 6 ∧ (65 : BitVec 7).toNat = 65) ∧
    tag0Place (setSec (bootPkg 0 id) 0 { secReset with otpArg := 0x700000 }) 0 0x700000 1024 1 = none ∧
    (getSec (bootPkg 0 (fun x => { x with burning := some (2, rep 1024 1) })) 0).burning = some (2, rep 1024 1) ∧
    (let x := getSec (bootPkg 0 (fun x => { x with raising := some 64 })) 0
     x.burning = none ∧ x.raising = some 64) := by
  unfold Served; decide +kernel

/-- A block that may be burnt to slot 2, where the vendor has signed one with key 1 and the driver has staged it. -/
theorem witness_burn (m : Map Byte) :
    let s := setStaging (bootPkg 0 (fun x => { x with stage := 3, started := true, active := some 0 })) 0 m
    blockValid 0 2 (stageRead s 0 0 1024) = true → leAt (stageRead s 0 0 1024) 5 1 = 1 →
      s.board.powerOk = true ∧ slotServed s 0 11 = true ∧ (getSec s 0).stage = 3 ∧ blockValid (getOtp s 0).serial 2 (stageRead s 0 0 1024) = true ∧
      (getSec s 0).active.getD 0 < 2 ∧ slotCode (getOtp s 0) 2 = 0 ∧ leAt (stageRead s 0 0 1024) 5 1 ≠ 0 := by
  intro s hb hk
  have e : slotCode otpBlank 2 = 0 := by decide +kernel
  exact ⟨rfl, rfl, rfl, hb, (show 0 < 2 by omega), e, by omega⟩

/-- The worked example of 16: OTP_STATE of a die with G0 and G2 valid, G1 spent, key 0 revoked and five rows burnt. -/
theorem test_otpState (s : State) (h0 : slotCode (getOtp s 2) 0 = 1) (h1 : slotCode (getOtp s 2) 1 = 2) (h2 : slotCode (getOtp s 2) 2 = 1)
    (h3 : slotCode (getOtp s 2) 3 = 0) (ha : (getSec s 2).active = some 2) (hr : revoked s 2 = true) (hf : (getOtp s 2).floorRow = 0x1F) :
    otpStateReg s 2 = 0x50619 := by
  have hd : dieFloor s 2 = 5 := by unfold dieFloor; rw [hf]; decide +kernel
  have hc : countUp 0 4 = [0, 1, 2, 3] := by decide +kernel
  simp only [otpStateReg, hc, List.map, h0, h1, h2, h3, ha, hr, hd, Option.getD]
  decide +kernel

/-! ### Faults, kiln, test access -/

/-- A DIE error on a die with a context in a slot; stokers with and without another of their image, one that has stopped. -/
theorem witness_dieErrors :
    (corePkg.board.powerOk = true ∧ (getLog corePkg 0).dieError = false ∧ corePkg.cords.length = 6 ∧ dieRuns corePkg 0 = true ∧
     (∃ x ∈ (getCores corePkg 0).slots, x.state ≠ .free ∧ (ctxOf corePkg 0 x.ctx).state = .live ∧ resettingTenant corePkg (ctxOf corePkg 0 x.ctx).tenant = false)) ∧
    dieRuns (upAt 0) 2 = true ∧ dieRuns State.reset 2 = false ∧
    (let s := setStk corePkg 0 { getStk corePkg 0 with stokers := rep 8 { stokerReset with image := 4, handout := true } }
     (getStk s 0).stokers.length = 8 ∧ (getStk s 0).frames.length = 32 ∧ (stokerOf s 0 7).dark = false ∧ (stokerOf s 0 7).fenced = false ∧
     (stokerOf s 0 0).image = (stokerOf s 0 7).image ∧ (stokerOf s 0 0).handout = true ∧ (frameOf' s 0 0).busy = true ∧
     (stokerOf (setStoker s 0 7 { stokerReset with image := 4 }) 0 7).handout = false ∧
     (∀ h ∈ [true, false], (stokerOf (setStoker s 0 7 { stokerReset with image := 5, handout := h }) 0 7).handout = h ∧
       ∀ j, j < 8 → j ≠ 7 → (stokerOf (setStoker s 0 7 { stokerReset with image := 5, handout := h }) 0 j).image ≠ 5)) := by decide +kernel

/-- Marks within a millisecond's limit and beyond it, and a suppressed count to be reported. -/
theorem witness_logbook :
    Served (upAt 0) 0 9 ∧ (getLog (upAt 0) 0).msIndex = dtime (upAt 0) 0 / 1000000 ∧ (getLog (upAt 0) 0).msCount < 1024 ∧
    (let s := setLog (upAt 0) 0 { logReset with msCount := 1024, supCount := 7 }
     1024 ≤ (getLog s 0).msCount ∧ (getLog s 0).msIndex = dtime s 0 / 1000000 ∧ 0 < (getLog s 0).supCount) ∧
    (let s := setTime (setLog (upAt 0) 0 { logReset with supCount := 7 }) 0 { timeReset with dt := 1000000 }
     0 < (getLog s 0).supCount ∧ (getLog s 0).msIndex < dtime s 0 / 1000000) := by
  unfold Served; decide +kernel

/-- Tables 17.6 and 17.7: the entry of a mark. -/
theorem test_log_mark :
    (match exec (.logMark 0 0x1122) (setLog (upAt 0) 0 { logReset with head := 4096 }) with
     | .next t => (((mget [] (getLog t 0).ring 0).drop 8).take 10, (getLog t 0).head) | _ => ([], 0)) = ([0, 1, 0, 0, 6, 0x0C, 0, 0, 0x22, 0x11], 4097) := by decide +kernel

/-- A started die 0 whose masks leave CL7 and EAS out, as `f` makes its kiln. -/
def kilnPkg (f : Kiln → Kiln) : State :=
  let s : State :=
    { timePkg with
      lamps := qall lampReset
      lampPkg := { lampPkgReset with inForce := 120, masks := rep 4 0xB7F }
      cords := rep 6 { cordReset with lit := true, state := .up, width := 3 } }
  setKiln s 0 (f (getKiln s 0))

/-- Runs: of nothing, of a masked and of a testable domain, with and without a place for the token, within the envelope and beyond it,
in progress, at their last domain and at their token. -/
theorem witness_kilnRuns :
    Served (kilnPkg id) 0 10 ∧ (getSec (kilnPkg id) 0).stage = 3 ∧ (getKiln (kilnPkg id) 0).run = none ∧ testable (kilnPkg id) 0 7 = true ∧
    testable (kilnPkg id) 0 6 = false ∧ (getKiln (kilnPkg id) 0).current = 15 ∧ (getLamp (kilnPkg id) 0).dom.length = 11 ∧
    tag0Place (kilnPkg id) 0 0 128 128 = some (0, 0) ∧ tag0Place (kilnPkg id) 0 64 128 128 = none ∧ fits (kilnPkg id) 0 7 = true ∧
    fits { kilnPkg id with lampPkg := { lampPkgReset with inForce := 1 } } 0 7 = false ∧
    (∀ l ∈ [[], [10]], ∀ tok ∈ [none, some 128],
      let s := kilnPkg (fun k => { k with current := 7, run := some { left := l, token := tok, awake := true, endAt := 0 } })
      (getKiln s 0).run = some { left := l, token := tok, awake := true, endAt := 0 } ∧ s.board.powerOk = true ∧ (getKiln s 0).current < 11) ∧
    (let s := kilnPkg (fun k => { k with run := some { left := [], token := some 128, awake := true, endAt := 0 } })
     (getKiln s 0).current = 15 ∧ mwf 0 (getStaging s 0) = true ∧ stageOk s 0 128 128 0 = true ∧
       stageOk (setPieces s 0 [(0, { (pieceOf s 0 0) with tag := 3 })]) 0 128 128 0 = false) := by
  unfold Served; decide +kernel

/-- Link, DisplayPort and DRAM patterns: values that are taken and that are not, and a DRAM test in its last pass and before it. -/
theorem witness_patterns :
    (getKiln (kilnPkg id) 0).links.length = 3 ∧ (getEnds (kilnPkg id) 0).length = 3 ∧ (kilnPkg id).cords.length = 6 ∧
    fld (0x4304 : W64) 2 0 = 4 ∧ fld (0x4304 : W64) 14 8 = 67 ∧ fld (5 : W64) 2 0 = 5 ∧ fld (0x4400 : W64) 14 8 = 68 ∧
    linkMode (kilnPkg id) 0 0 = 0 ∧ linkMode (kilnPkg (fun k => { k with links := [1, 0, 0] })) 0 0 = 1 ∧ linkMode (kilnPkg id) (endPeer 0 0) (endTo (endPeer 0 0) 0) = 0 ∧
    (cordOf (kilnPkg id) (endCord 0 0)).lit = true ∧
    cordLitNow { kilnPkg (fun k => { k with links := [1, 0, 0] }) with lamps := qall { lampReset with dom := rep 11 .lit } } 0 false = true ∧
    easOn (getEas (kilnPkg id) 0) = false ∧ dpPatternFits 1 1 = true ∧ dpPatternFits 8 4 = true ∧ dpPatternFits 8 3 = false ∧ fld (0x001 : W64) 9 8 = 0 ∧ fld (0x300 : W64) 9 8 = 3 ∧
    (getMemu (kilnPkg id) 0).spares ≠ 0 ∧ (getKiln (kilnPkg id) 0).dram = none ∧
    (∀ n ∈ [1, 2], (getKiln (kilnPkg (fun k => { k with dram := some { pattern := 1, left := n, inPass := true } })) 0).dram
      = some { pattern := 1, left := n, inPass := true }) ∧
    (∀ p ∈ [((143 : Nat), (1 : Nat))], p.1 < 144 ∧ 0 < p.2) ∧ fld (setFld 0 39 32 0xFF) 39 32 = 0xFF := by decide +kernel

/-- R428: the 7 bits of a PRBS7 register and 64 good bits lock a lane's checker (in this state the peer sends pattern 1). -/
def prbsPkg (c : Checker) : State :=
  let s := kilnPkg (fun k => { k with links := [1, 0, 0] })
  setEnd s 0 0 { endOf s 0 0 with checkers := [(67, c)] }

/-- Lanes whose checker is locked, and is about to lock; lane 67 carries a pattern and lane 68 does not exist. -/
theorem witness_checkers :
    (getEnds (prbsPkg checkerFree) 0).length = 3 ∧ patterned (prbsPkg checkerFree) 0 0 67 = true ∧ patterned (prbsPkg checkerFree) 0 0 68 = false ∧
    patterned (kilnPkg id) 0 0 67 = false ∧ linkSends (prbsPkg checkerFree) (endPeer 0 0) (endTo (endPeer 0 0) 0) = 1 ∧
    (laneChecker (prbsPkg { checkerFree with locked := true }) 0 0 67).locked = true ∧
    mwf checkerFree (endOf (prbsPkg { checkerFree with locked := true }) 0 0).checkers = true ∧ (laneChecker (prbsPkg checkerFree) 0 0 67).locked = false := by
  decide +kernel

/-- R425: a domain that fails goes out of every target; the run goes on to the next. -/
theorem test_kiln_fails :
    (match exec (.kilnDomainTest 0 3 0) (kilnPkg (fun k => { k with current := 7, run := some { left := [10], token := none, awake := true, endAt := 0 } })) with
     | .next t => ((getKiln t 0).tested, (getKiln t 0).passed, (getKiln t 0).failed, (getLamp t 0).failed, (getKiln t 0).current) | _ => (0, 0, 0, 0, 0))
      = (128, 0, 128, 128, 10) := by decide +kernel

/-- Table 19.5: what a snapshot shows of a package whose rails are down; R433: EXTEST drives the cells that SAMPLE loaded. -/
theorem test_tap_and_management :
    (match exec (.mgSnapshotRefresh 1801 5 9) State.reset with
     | .next t => ((countUp 0 4).map (fun k => mget 0 t.board.mgRegs (8 * k))) | _ => []) = [0xB10004, 9, 0x19000900050709, 0] ∧
    (match exec (.samplePreload 2 [true, false]) (upAt 0) with
     | .next u => (match exec (.extest 2) u with | .next t => ((getTap t 2).driven, (getTap t 2).ir) | _ => ([], 9)) | _ => ([], 9)) = ([true, false], 0) ∧
    State.reset.board.powerOk = false ∧ (upAt 0).board.powerOk = true ∧ 1700 ≤ State.reset.board.vinMv ∧
    (4 ≤ (0x7F : Byte).toNat ∧ (0x7F : Byte).toNat < 0x80) ∧ State.reset.board.dynAddr = none := by decide +kernel

/-! ### Rules stated word for word, and the shape of the state -/

/-- `k.window` with the pair x10, x11 = 0x101:0x100 (a VA below 2^48) and with x12, x13 whose upper word is beyond it. -/
theorem witness_window :
    issuesWord (customWord 1 3 0 0 10 0) [(10, 0x100), (11, 0x101)] = true ∧
    fld (rvPair (frameOf' (progAt (customWord 1 3 0 0 10 0) [(10, 0x100), (11, 0x101)]) 0 0) 10) 63 48 = 0 ∧
    issuesWord (customWord 1 3 0 0 10 0) [(10, 0x100), (11, 0x10000)] = true ∧
    fld (rvPair (frameOf' (progAt (customWord 1 3 0 0 10 0) [(10, 0x100), (11, 0x10000)]) 0 0) 10) 63 48 = 1 := by decide +kernel

/-- Bursts of all-ones words to the register slots and to the doorbells. -/
theorem witness_allOnes :
    (let b : HostWrite := { burst32 0x400 [] with data := rep 32 0xFF }
     PortWrite (upAt 0) 0 b 0x400 ∧ regionOf 0 0x400 = .slots ∧ b.mask = [] ∧ b.data = rep b.data.length 0xFF) ∧
    (let b : HostWrite := { burst32 0 [] with data := rep 32 0xFF }
     PortWrite (upAt 1) 0 b 0x8000 ∧ regionOf 0 0x8000 = .bells ∧ b.mask = [] ∧ b.data = rep b.data.length 0xFF) := by
  unfold PortWrite PortBurst; decide +kernel

/-- A started package has the shape and the forms, and its step on an empty queue answers a next state. -/
theorem witness_shape : Shape (upAt 0) ∧ Forms (upAt 0) ∧ Memory.wf (upAt 0).mem ∧ mwf false (upAt 0).poison = true := by
  unfold Shape Forms; decide +kernel
end Sys2Proof.Tests
end

section
/-! PROOFS. Translation and row retirement (R26, R291, R297 to R301, R303): what a look-up leaves, what a walk puts into the cache,
the windows of faults, invalidations and rows. -/

namespace Sys2Proof.Machine

/-! ### What reading the tables leaves (R298, R364) -/

/-- What a walk may change before it answers: what a look-up may, and of the memory sides neither the translation caches nor the
windows of faults. -/
structure ReadsTables (s u : State) : Prop where
  looked : Looked s u
  xlate : ∀ n, (getMemu u n).xlate = (getMemu s n).xlate
  wins : ∀ n, (getMemu u n).faultWins = (getMemu s n).faultWins

theorem Looked.refl (s : State) : Looked s s := rfl

theorem Looked.trans {s u v : State} (h1 : Looked s u) (h2 : Looked u v) : Looked s v := by
  unfold Looked at *; rw [h2, h1]

/-- Replacing a memory side is something that a look-up may do. -/
theorem looked_setMemu {s u : State} (h : Looked s u) (d : DieId) (m : MemUnit) : Looked s (setMemu u d m) :=
  h.trans rfl

theorem Looked.memByte {s u : State} (h : Looked s u) (a : Nat) : memByte u a = memByte s a := by
  unfold Looked at h; rw [h]; rfl

theorem Looked.dtime {s u : State} (h : Looked s u) (d : DieId) : dtime u d = dtime s d := by
  unfold Looked at h; rw [h]; rfl

theorem Looked.board {s u : State} (h : Looked s u) : u.board = s.board := by
  unfold Looked at h; rw [h]

theorem ReadsTables.refl (s : State) : ReadsTables s s := ⟨Looked.refl s, fun _ => rfl, fun _ => rfl⟩

theorem ReadsTables.trans {s u v : State} (h1 : ReadsTables s u) (h2 : ReadsTables u v) : ReadsTables s v :=
  ⟨h1.looked.trans h2.looked, fun n => (h2.xlate n).trans (h1.xlate n), fun n => (h2.wins n).trans (h1.wins n)⟩

/-- A memory side replaced by one with the same translations and windows. -/
theorem readsTables_setMemu (s : State) (d : DieId) {m : MemUnit} (hx : m.xlate = (getMemu s d).xlate)
    (hw : m.faultWins = (getMemu s d).faultWins) : ReadsTables s (setMemu s d m) := by
  refine ⟨rfl, fun n => ?_, fun n => ?_⟩ <;> by_cases hn : n = d
  · subst hn; simpa using hx
  · simp [hn]
  · subst hn; simpa using hw
  · simp [hn]

/-- An entry of the logbook, made or not. -/
theorem readsTables_logEntry (s : State) (d : DieId) (i : LogInfo) (c : Bool) : ReadsTables s (if c then logEntry s d i else s) := by
  cases c <;> exact ⟨rfl, fun _ => rfl, fun _ => rfl⟩

/-- An access to the die cache leaves the translations and the windows. -/
theorem cacheTouch_keeps (m : MemUnit) (line : Nat) (dirty : Bool) :
    (cacheTouch m line dirty).xlate = m.xlate ∧ (cacheTouch m line dirty).faultWins = m.faultWins := by
  unfold cacheTouch; dsimp only; split <;> exact ⟨rfl, rfl⟩

theorem readChunk_readsTables (s : State) (k : Nat) : ReadsTables s (readChunk s k) := by
  unfold readChunk; dsimp only; split
  · exact (readsTables_setMemu s _ (by rfl) (by rfl)).trans (readsTables_logEntry _ _ _ _)
  · have poisoned : ReadsTables s { s with poison := mput false s.poison k true } := ⟨rfl, fun _ => rfl, fun _ => rfl⟩
    exact poisoned.trans ((readsTables_setMemu _ _ (by rfl) (by rfl)).trans (readsTables_logEntry _ _ _ true))
  · exact ReadsTables.refl s

theorem readLine_readsTables (s : State) (line : Nat) : ReadsTables s (readLine s line) := by
  have touched (u : State) (d : DieId) : ReadsTables u (setMemu u d (cacheTouch (getMemu u d) line false)) :=
    readsTables_setMemu u d (cacheTouch_keeps _ line false).1 (cacheTouch_keeps _ line false).2
  unfold readLine; dsimp only; split
  · exact touched s _
  · exact ((readChunk_readsTables s _).trans (readChunk_readsTables _ _)).trans (touched _ _)

theorem noteRead_readsTables (s : State) (pa n : Nat) : ReadsTables s (noteRead s pa n) := by
  unfold noteRead; split
  · exact ReadsTables.refl s
  · generalize countUp _ _ = lines
    induction lines generalizing s with
    | nil => exact ReadsTables.refl s
    | cons line rest ih => exact (readLine_readsTables s line).trans (ih _)

theorem noteLate_readsTables (s : State) (d n : DieId) : ReadsTables s (noteLate s d n) := by
  unfold noteLate noteTimeout; dsimp only
  repeat' split
  all_goals exact ⟨rfl, fun _ => rfl, fun _ => rfl⟩

theorem tableWord_readsTables (s : State) (d : DieId) (pa : Nat) : ReadsTables s (tableWord s d pa).2 := by
  unfold tableWord; dsimp only; split
  · exact ReadsTables.refl s
  · split
    · exact noteLate_readsTables s d _
    · exact noteRead_readsTables s pa 8

theorem walkTables_readsTables (s : State) (d : DieId) (root va : Nat) : ReadsTables s (walkTables s d root va).2 := by
  have first := tableWord_readsTables s d (root + 8 * fldN va 47 30)
  unfold walkTables
  generalize tableWord s d (root + 8 * fldN va 47 30) = r1 at first
  obtain ⟨_ | e1, s1⟩ := r1
  · exact first
  · dsimp only
    cases l1Of e1 va with
    | leaf l => exact first
    | bad => exact first
    | table pa =>
      have second := tableWord_readsTables s1 d pa
      dsimp only
      generalize tableWord s1 d pa = r2 at second
      obtain ⟨_ | e2, s2⟩ := r2 <;> exact first.trans second

theorem listWords_readsTables (d : DieId) (o : Obj) (copy k n : Nat) (s : State) : ReadsTables s (listWords d o copy k n s).2 := by
  induction n generalizing k s with
  | zero => exact ReadsTables.refl s
  | succ n ih => exact (tableWord_readsTables s d _).trans (ih _ _)

theorem framesOf_readsTables (s : State) (d : DieId) (o : Obj) (copy k n : Nat) : ReadsTables s (framesOf s d o copy k n).2 := by
  have listed := listWords_readsTables d o copy k n s
  unfold framesOf; dsimp only; split <;> exact listed

theorem leafFrames_readsTables (s : State) (d : DieId) (cx : Ctx) (l : Leaf) (va copy : Nat) (fence : Bool) :
    ReadsTables s (leafFrames s d cx l va copy fence).2 := by
  unfold leafFrames; dsimp only
  cases leafCause s d cx l va fence with
  | some y => exact ReadsTables.refl s
  | none =>
    have framed := framesOf_readsTables s d (objOf s d (l.handle % 2 ^ 20)) copy l.page
      (if l.big then min 32 ((objOf s d (l.handle % 2 ^ 20)).pages - l.page) else 1)
    dsimp only
    generalize framesOf s d _ copy l.page _ = r at framed
    obtain ⟨_ | fs, s1⟩ := r
    · exact framed
    · dsimp only; split <;> exact framed

/-! ### What a translation leaves (R298, R299) -/

/-- The entry that the walk of `va` for context `c` makes of its leaf and its frames. -/
def walkEntry (c va : Nat) (l : Leaf) (fs : List Nat) : XlEntry :=
  { ctx := c, big := l.big, base := if l.big then va / 2 ^ 30 else va / 2 ^ 25, w := l.w, handle := l.handle, page := l.page, frames := fs }

/-- The state with an entry moved first in the cache of die `d`. -/
def movedFirst (s : State) (d : DieId) (e : XlEntry) : State :=
  setMemu s d { getMemu s d with xlate := e :: (getMemu s d).xlate.erase e }

/-- The state with a new entry put into the cache of die `d`. -/
def cachePut (s : State) (d : DieId) (e : XlEntry) : State :=
  setMemu s d { getMemu s d with xlate := xlInsert s d (getMemu s d).xlate e }

/-- A new entry stands first in the cache, whichever entry leaves. -/
theorem xlInsert_head (s : State) (d : DieId) (es : List XlEntry) (e : XlEntry) : (xlInsert s d es e).head? = some e := by
  unfold xlInsert; split
  · rfl
  · split <;> rfl

/-- A unit's request that finds its entry in the cache fails and changes nothing, or moves the entry first and answers what the entry
gives. -/
theorem translate_hit_cases {s : State} {d : DieId} {c va : Nat} {e : XlEntry} (w : Bool)
    (h : xlHit (getMemu s d).xlate c va = some e) :
    (∃ y, translate s d c va { write := w } = (.error y, s)) ∨
    translate s d c va { write := w } = (useEntry (movedFirst s d e) d { write := w } e va, movedFirst s d e) := by
  unfold translate; dsimp only
  split
  · exact .inl ⟨_, rfl⟩
  · rw [if_neg (by simp)]; split
    · exact .inl ⟨_, rfl⟩
    · rw [h]; dsimp only; split
      · exact .inl ⟨_, rfl⟩
      · exact .inr rfl

/-- A unit's request that misses reads the tables and fails, or finds its leaf and frames, answers, and puts their entry into the
cache. -/
theorem translate_miss_cases {s : State} {d : DieId} {c va : Nat} (w : Bool) (h : xlHit (getMemu s d).xlate c va = none) :
    (∃ y u, translate s d c va { write := w } = (.error y, u) ∧ ReadsTables s u) ∨
    ∃ l fs p u v, walkTables s d (ctxOf s d c).ptRoot va = (.ok l, u) ∧
      leafFrames u d (ctxOf s d c) l va d.val false = (.ok fs, v) ∧ ReadsTables s v ∧
      translate s d c va { write := w } = (.ok p, cachePut v d (walkEntry c va l fs)) := by
  have walked := walkTables_readsTables s d (ctxOf s d c).ptRoot va
  unfold translate; dsimp only
  split
  · exact .inl ⟨_, _, rfl, ReadsTables.refl s⟩
  rw [if_neg (by simp)]; split
  · exact .inl ⟨_, _, rfl, ReadsTables.refl s⟩
  rw [h]; dsimp only
  generalize walkTables s d (ctxOf s d c).ptRoot va = r1 at walked
  obtain ⟨_ | l, u⟩ := r1
  · exact .inl ⟨_, _, rfl, walked⟩
  have framed := walked.trans (leafFrames_readsTables u d (ctxOf s d c) l va d.val false)
  dsimp only
  cases hf : leafFrames u d (ctxOf s d c) l va d.val false with
  | mk r2 v =>
    rw [hf] at framed
    cases r2 with
    | error y => exact .inl ⟨_, _, rfl, framed⟩
    | ok fs =>
      cases hu : useEntry v d { write := w } (walkEntry c va l fs) va with
      | error y =>
        refine .inl ⟨y, v, ?_, framed⟩
        unfold walkEntry at hu; dsimp only; rw [hu]
      | ok p =>
        refine .inr ⟨l, fs, p, u, v, rfl, hf, framed, ?_⟩
        have answered := congrArg (·, cachePut v d (walkEntry c va l fs)) hu
        unfold walkEntry at hu; dsimp only; rw [hu]
        exact answered

/-- Whatever a unit's request finds, it changes no more than a look-up may, and no window of faults. -/
theorem translate_looked (s : State) (d : DieId) (c va : Nat) (w : Bool) : Looked s (translate s d c va { write := w }).2 ∧
    (getMemu (translate s d c va { write := w }).2 d).faultWins = (getMemu s d).faultWins := by
  cases h : xlHit (getMemu s d).xlate c va with
  | some e =>
    rcases translate_hit_cases w h with ⟨y, ht⟩ | ht <;> rw [ht]
    · exact ⟨Looked.refl s, rfl⟩
    · exact ⟨looked_setMemu (Looked.refl s) d _, by simp [movedFirst]⟩
  | none =>
    rcases translate_miss_cases w h with ⟨y, u, ht, hr⟩ | ⟨l, fs, p, u, v, -, -, hr, ht⟩ <;> rw [ht]
    · exact ⟨hr.looked, hr.wins d⟩
    · exact ⟨looked_setMemu hr.looked d _, by simpa [cachePut] using hr.wins d⟩

/-- A request that misses and fails puts nothing into the cache. -/
theorem translate_error_keeps_cache {s u : State} {d : DieId} {c va y : Nat} {w : Bool}
    (ht : translate s d c va { write := w } = (.error y, u)) (h : xlHit (getMemu s d).xlate c va = none) :
    (getMemu u d).xlate = (getMemu s d).xlate := by
  rcases translate_miss_cases w h with ⟨y', u', ht', hr⟩ | ⟨l, fs, p, u', v, -, -, -, ht'⟩ <;> rw [ht] at ht'
  · cases ht'; exact hr.xlate d
  · cases ht'

/-! ### Windows of faults (R303) -/

/-- A memory side replaced and an entry made on one die: what was set is read, and nothing else but the die's logbook differs. -/
theorem logEntry_setMemu (s : State) (d : DieId) (m : MemUnit) (i : LogInfo) :
    getMemu (logEntry (setMemu s d m) d i) d = m ∧ logEntry (setMemu s d m) d i
      = setLog (setMemu s d (getMemu (logEntry (setMemu s d m) d i) d)) d (getLog (logEntry (setMemu s d m) d i) d) := by
  simp [logEntry]

/-- The end of a window that has counted takes it away and makes one entry. -/
theorem closeWin_counted {s : State} {d : DieId} {key : Nat} {w : FaultWin} (h : mfind (getMemu s d).faultWins key = some w)
    (hw : 0 < w.count) : ∃ i, closeWin s d key
      = logEntry (setMemu s d { getMemu s d with faultWins := mdel (getMemu s d).faultWins key }) d i := by
  unfold closeWin; rw [h]; exact ⟨_, if_neg (by omega)⟩

/-- The end of a window leaves the translations. -/
theorem closeWin_looked (s : State) (d : DieId) (key : Nat) :
    Looked s (closeWin s d key) ∧ (getMemu (closeWin s d key) d).xlate = (getMemu s d).xlate := by
  unfold closeWin
  cases mfind (getMemu s d).faultWins key with
  | none => exact ⟨Looked.refl s, rfl⟩
  | some w => dsimp only; split <;> exact ⟨rfl, by simp [logEntry]⟩

/-- The first fault's entry opens its window, and leaves the translations. -/
theorem fresh_opens (d : DieId) (c va y k i q : Nat) (s : State) (key : Nat) :
    Looked s (xlateFault.fresh d c va y k i q s key) ∧ getMemu (xlateFault.fresh d c va y k i q s key) d = { getMemu s d with
      faultWins := mins (getMemu s d).faultWins key { at_ := dtime s d, count := 0, va := BitVec.ofNat 64 va } } :=
  ⟨rfl, (logEntry_setMemu s d _ _).1⟩

/-- A fault in an open window counts in it and does nothing else. -/
theorem xlateFault_counts {s : State} {d : DieId} {c va : Nat} {w : FaultWin} (y k i q : Nat)
    (h : mfind (getMemu s d).faultWins (winKey c va) = some w) (ht : dtime s d < w.at_ + 1000000) :
    xlateFault s d c va y k i q = setMemu s d { getMemu s d with
      faultWins := mins (getMemu s d).faultWins (winKey c va) { w with count := w.count + 1 } } := by
  unfold xlateFault; dsimp only; rw [h]; exact if_pos ht

/-- A fault without a window opens one. -/
theorem xlateFault_opens {s : State} {d : DieId} {c va : Nat} (y k i q : Nat)
    (h : mfind (getMemu s d).faultWins (winKey c va) = none) :
    xlateFault s d c va y k i q = xlateFault.fresh d c va y k i q s (winKey c va) := by
  unfold xlateFault; dsimp only; rw [h]

/-- Recording a fault leaves the translations. -/
theorem xlateFault_looked (s : State) (d : DieId) (c va y k i q : Nat) :
    Looked s (xlateFault s d c va y k i q) ∧ (getMemu (xlateFault s d c va y k i q) d).xlate = (getMemu s d).xlate := by
  have opens (u : State) (key : Nat) : Looked u (xlateFault.fresh d c va y k i q u key) ∧
      (getMemu (xlateFault.fresh d c va y k i q u key) d).xlate = (getMemu u d).xlate := by
    obtain ⟨hl, hm⟩ := fresh_opens d c va y k i q u key
    exact ⟨hl, by rw [hm]⟩
  cases h : mfind (getMemu s d).faultWins (winKey c va) with
  | none => rw [xlateFault_opens y k i q h]; exact opens s _
  | some w =>
    by_cases ht : dtime s d < w.at_ + 1000000
    · rw [xlateFault_counts y k i q h ht]; exact ⟨rfl, by simp⟩
    · have reopened : xlateFault s d c va y k i q
          = xlateFault.fresh d c va y k i q (closeWin s d (winKey c va)) (winKey c va) := by
        unfold xlateFault; dsimp only; rw [h]; exact if_neg ht
      obtain ⟨hl, hx⟩ := closeWin_looked s d (winKey c va)
      rw [reopened]
      exact ⟨hl.trans (opens _ _).1, (opens _ _).2.trans hx⟩

/-! ### Requests served (R26, R299) -/

/-- A request that finds its entry and may use it moves the entry first. -/
theorem serveXlate_hit {s u : State} {d : DieId} {x : XlReq} {e : XlEntry} {p : Nat × Nat}
    (ht : translate s d x.ctx.toNat x.va.toNat { write := x.write } = (.ok p, u))
    (h : xlHit (getMemu s d).xlate x.ctx.toNat x.va.toNat = some e) : serveXlate d s x = movedFirst s d e := by
  unfold serveXlate; rw [ht]
  rcases translate_hit_cases x.write h with ⟨y, ht'⟩ | ht' <;> rw [ht] at ht'
  · cases ht'
  · exact congrArg Prod.snd ht'

/-- A request that misses and succeeds puts the entry of its leaf and frames into the cache. -/
theorem serveXlate_miss {s u s2 s3 : State} {d : DieId} {x : XlReq} {p : Nat × Nat} {l : Leaf} {fs : List Nat}
    (ht : translate s d x.ctx.toNat x.va.toNat { write := x.write } = (.ok p, u))
    (h : xlHit (getMemu s d).xlate x.ctx.toNat x.va.toNat = none)
    (hw : walkTables s d (ctxOf s d x.ctx.toNat).ptRoot x.va.toNat = (.ok l, s2))
    (hf : leafFrames s2 d (ctxOf s d x.ctx.toNat) l x.va.toNat d.val false = (.ok fs, s3)) :
    Looked s s3 ∧ serveXlate d s x = cachePut s3 d (walkEntry x.ctx.toNat x.va.toNat l fs) := by
  unfold serveXlate; rw [ht]
  rcases translate_miss_cases x.write h with ⟨y, v, ht', -⟩ | ⟨l', fs', p', u', v, hw', hf', hr, ht'⟩ <;> rw [ht] at ht' <;> cases ht'
  rw [hw] at hw'; cases hw'
  rw [hf] at hf'; cases hf'
  exact ⟨hr.looked, rfl⟩

section
variable {s u : State} {d : DieId} {x : XlReq} {y : Nat}
  (ht : translate s d x.ctx.toNat x.va.toNat { write := x.write } = (.error y, u))
include ht

/-- A request that fails records its fault. -/
theorem serveXlate_error : serveXlate d s x
    = xlateFault u d x.ctx.toNat x.va.toNat y (unitSource x.unit).1 (unitSource x.unit).2 0 := by
  unfold serveXlate; rw [ht]

/-- One that misses and fails leaves the cache. -/
theorem serveXlate_error_keeps_cache (h : xlHit (getMemu s d).xlate x.ctx.toNat x.va.toNat = none) :
    (getMemu (serveXlate d s x) d).xlate = (getMemu s d).xlate := by
  rw [serveXlate_error ht, (xlateFault_looked u d _ _ _ _ _ _).2, translate_error_keeps_cache ht h]

/-- The windows and the time that its fault meets are those before it. -/
theorem translate_error_wins : (getMemu u d).faultWins = (getMemu s d).faultWins ∧ dtime u d = dtime s d := by
  obtain ⟨hl, hw⟩ := translate_looked s d x.ctx.toNat x.va.toNat x.write
  rw [ht] at hl hw
  exact ⟨hw, hl.dtime d⟩

/-- In an open window its fault counts and makes no entry. -/
theorem serveXlate_error_counts {w : FaultWin} (h : mfind (getMemu s d).faultWins (winKey x.ctx.toNat x.va.toNat) = some w)
    (hopen : dtime s d < w.at_ + 1000000) : getLog (serveXlate d s x) d = getLog u d ∧
      mfind (getMemu (serveXlate d s x) d).faultWins (winKey x.ctx.toNat x.va.toNat) = some { w with count := w.count + 1 } := by
  obtain ⟨hw, hd⟩ := translate_error_wins ht
  rw [serveXlate_error ht, xlateFault_counts y _ _ _ (hw ▸ h) (hd ▸ hopen)]
  simp

/-- Without a window its fault opens one. -/
theorem serveXlate_error_opens (h : mfind (getMemu s d).faultWins (winKey x.ctx.toNat x.va.toNat) = none) :
    mfind (getMemu (serveXlate d s x) d).faultWins (winKey x.ctx.toNat x.va.toNat)
      = some { at_ := dtime s d, count := 0, va := BitVec.ofNat 64 x.va.toNat } := by
  obtain ⟨hw, hd⟩ := translate_error_wins ht
  rw [serveXlate_error ht, xlateFault_opens y _ _ _ (hw ▸ h), (fresh_opens d _ _ y _ _ _ u _).2, hd]
  exact mfind_mins_same _ _ _

end

/-- Serving a request changes no more than a look-up may. -/
theorem serveXlate_looked (d : DieId) (s : State) (x : XlReq) : Looked s (serveXlate d s x) := by
  have translated := (translate_looked s d x.ctx.toNat x.va.toNat x.write).1
  unfold serveXlate
  generalize translate s d x.ctx.toNat x.va.toNat { write := x.write } = r at translated
  obtain ⟨y | p, u⟩ := r
  · exact translated.trans (xlateFault_looked u d _ _ y _ _ _).1
  · exact translated

/-- The requests of one cycle in the order of their units (R26). -/
def inUnitOrder (l : List XlReq) : List XlReq := sortBy (fun a b => decide (unitRank a.unit ≤ unitRank b.unit)) l

/-- Of two requests the one of the earlier unit goes first, whichever is given first. -/
theorem inUnitOrder_pair {x y : XlReq} (h : unitRank x.unit < unitRank y.unit) :
    inUnitOrder [y, x] = [x, y] ∧ inUnitOrder [x, y] = [x, y] := by
  have h1 : unitRank x.unit ≤ unitRank y.unit := by omega
  simp [inUnitOrder, sortBy, insertBy, h, h1]

/-- A walk of a die that has power serves its requests in the order of their units. -/
theorem exec_translationWalk {s : State} (d : DieId) (es ss cs : List XlReq) (h : s.board.powerOk = true) :
    exec (.translationWalk d es ss cs) s = .next ((inUnitOrder (es ++ ss ++ cs)).foldl (serveXlate d) s) :=
  if_neg (by simp [h])

/-- The three kinds of unit that a request may come from, each as the walk of its requests. -/
def walksOf (d : DieId) : List (List XlReq → Instr) :=
  [fun l => .translationWalk d l [] [], fun l => .translationWalk d [] l [], fun l => .translationWalk d [] [] l]

/-- Whichever kind of unit asks, the walk is the same. -/
theorem exec_walk {s : State} {d : DieId} {walk : List XlReq → Instr} (hw : walk ∈ walksOf d) (h : s.board.powerOk = true)
    (l : List XlReq) : exec (walk l) s = .next ((inUnitOrder l).foldl (serveXlate d) s) := by
  simp only [walksOf, List.mem_cons, List.not_mem_nil, or_false] at hw
  rcases hw with rfl | rfl | rfl <;> simp only [exec_translationWalk _ _ _ _ h, List.append_nil, List.nil_append]

/-- One request alone is served. -/
theorem exec_walk_one {s : State} {d : DieId} {walk : List XlReq → Instr} (hw : walk ∈ walksOf d) (h : s.board.powerOk = true)
    (x : XlReq) : exec (walk [x]) s = .next (serveXlate d s x) := exec_walk hw h [x]

/-- R26: two requests of one cycle are served in the order of their units, and as in two cycles one after the other. -/
theorem walk_in_unit_order {s : State} {d : DieId} {walk : List XlReq → Instr} (hw : walk ∈ walksOf d) (h : s.board.powerOk = true)
    {x y : XlReq} (hr : unitRank x.unit < unitRank y.unit) : exec (walk [y, x]) s = exec (walk [x, y]) s ∧
      exec (.translationWalk d [x] [y] []) s = exec (walk [x, y]) s ∧ exec (.translationWalk d [] [x] [y]) s = exec (walk [x, y]) s ∧
      Answers (walk [x]) s fun t => exec (walk [y, x]) s = exec (walk [y]) t := by
  obtain ⟨hyx, hxy⟩ := inUnitOrder_pair hr
  refine ⟨by rw [exec_walk hw h, exec_walk hw h, hyx, hxy], ?_, ?_, serveXlate d s x, exec_walk_one hw h x, ?_⟩
  · rw [exec_translationWalk _ _ _ _ h, exec_walk hw h]; rfl
  · rw [exec_translationWalk _ _ _ _ h, exec_walk hw h]; rfl
  · have powered : (serveXlate d s x).board.powerOk = true := by rw [(serveXlate_looked d s x).board, h]
    show exec (walk [y, x]) s = exec (walk [y]) (serveXlate d s x)
    rw [exec_walk hw h, hyx, exec_walk_one hw powered y]; rfl

/-! ### Invalidation (R300, R301) -/

/-- A die's item after a function of every die's. -/
theorem qget_qmap {α β : Type} (f : DieId → α → β) (q : Quad α) (d : DieId) : qget (qmap f q) d = f d (qget q d) := by
  fin_cases d <;> rfl

/-- A command of a served block acts on D0. -/
theorem d0Command_zero {s : State} {blk : Nat} (f : State → State) (h : Served s 0 blk) : d0Command s 0 blk f = .next (f s) := by
  unfold d0Command; rw [viaSlot_served _ (by decide) h.1 h.2]; rfl

/-- Through another die it is discarded and counted. -/
theorem d0Command_other {s : State} {d : DieId} {blk : Nat} (f : State → State) (h : Served s d blk) (hd : d ≠ 0) :
    d0Command s d blk f = .next (countDiscard s d) := by
  unfold d0Command; rw [viaSlot_served _ (by decide) h.1 h.2, onD0_other s d f hd]; rfl

/-- A word of three fields. -/
theorem packFields_three (a i b j c k : Nat) :
    (packFields [(a, i), (b, j), (c, k)]).toNat = (a * 2 ^ i + b * 2 ^ j + c * 2 ^ k) % 2 ^ 64 := by
  simp [packFields]

/-- The result of a command that succeeds with one count from bit 24 on (R57): STATUS 0, SEQ advanced. -/
theorem cmdResult_success (old : W64) {n : Nat} (hn : n < 65536) : fld (cmdResult old 0 [(n, 24)]) 23 16 = 0 ∧
    fld (cmdResult old 0 [(n, 24)]) 15 0 = (fld old 15 0 + 1) % 65536 := by
  have packed : (cmdResult old 0 [(n, 24)]).toNat = (fld old 15 0 + 1) % 65536 + n * 2 ^ 24 := by
    rw [cmdResult, packFields_three]; omega
  rw [fld, fld, packed, fldN, fldN, Nat.shiftRight_eq_div_pow, Nat.shiftRight_eq_div_pow]
  omega

/-- An invalidation drops the entries it names on every die, and no other. -/
theorem getMemu_invalidate (s : State) (p : XlEntry → Bool) (n : DieId) :
    getMemu (invalidate s p) n = { getMemu s n with xlate := (getMemu s n).xlate.filter (fun e => !p e) } :=
  qget_qmap _ s.memu n

/-- Its result stands in D0's register. -/
theorem invalidate_result (s : State) (p : XlEntry → Bool) : ∃ n, n < 65536 ∧
    (getHregs (invalidate s p) 0).xlatResult = cmdResult (getHregs s 0).xlatResult 0 [(n, 24)] :=
  ⟨min (dropXlate s p).1 65535, by omega, rfl⟩

/-- It changes nothing else. -/
theorem invalidate_frame (s : State) (p : XlEntry → Bool) : invalidate s p =
    { setHregs s 0 { getHregs s 0 with xlatResult := (getHregs (invalidate s p) 0).xlatResult } with memu := (invalidate s p).memu } := rfl

/-- The three invalidations, each with the entries that it names. -/
def invalidations (d : DieId) (c : W16) (gib : BitVec 18) : List (Instr × (XlEntry → Bool)) :=
  [(.invContext d c, fun e => decide (e.ctx = c.toNat)),
   (.invGib d c gib, fun e => decide (e.ctx = c.toNat ∧ (if e.big then e.base else e.base / 32) = gib.toNat)), (.invAll d, fun _ => true)]

/-- Each is a command of OBJ that drops what it names. -/
theorem exec_invalidation {s : State} {d : DieId} {c : W16} {gib : BitVec 18} {x : Instr × (XlEntry → Bool)}
    (hx : x ∈ invalidations d c gib) : exec x.1 s = d0Command s d 5 (fun t => invalidate t x.2) := by
  simp only [invalidations, List.mem_cons, List.not_mem_nil, or_false] at hx
  rcases hx with rfl | rfl | rfl
  · rfl
  · have named : (fun e : XlEntry => e.ctx == c.toNat && (if e.big then e.base == gib.toNat else e.base / 32 == gib.toNat))
        = fun e => decide (e.ctx = c.toNat ∧ (if e.big then e.base else e.base / 32) = gib.toNat) := by
      funext e; cases e.big <;> simp <;> rfl
    show d0Command s d 5 (fun t => invalidate t _) = _
    rw [named]
  · rfl

/-! ### Retired rows (R291) -/

/-- A row reads what was written to it, where that is no fresh record. -/
theorem rowOf_mput {s : State} {d : DieId} {m : MemUnit} {i : LogInfo} {r : Nat} {x : RowState}
    (hm : m.rows = mput rowFresh (getMemu s d).rows r x) (hx : x ≠ rowFresh) : rowOf (logEntry (setMemu s d m) d i) d r = x := by
  unfold rowOf; rw [(logEntry_setMemu s d m i).1, hm, mput, if_neg hx, mget, mfind_mins_same]; rfl

/-- The other rows stand. -/
theorem rowOf_mput_other {s : State} {d : DieId} {m : MemUnit} {i : LogInfo} {r k : Nat} {x : RowState}
    (hm : m.rows = mput rowFresh (getMemu s d).rows r x) (hk : k ≠ r) : rowOf (logEntry (setMemu s d m) d i) d k = rowOf s d k := by
  unfold rowOf; rw [(logEntry_setMemu s d m i).1, hm, mget_mput_other _ _ _ hk]

/-- A row that is not due, or a retirement that runs, or no power: nothing happens. -/
theorem rowRetire_absorbed {s : State} {d : DieId} {row : BitVec 19} (h : s.board.powerOk = false ∨
    (rowOf s d row.toNat).retired = true ∨ rowDue (rowOf s d row.toNat) = false ∨ (getMemu s d).retiring ≠ none) :
    Absorbed (.rowRetire d row) s :=
  if_pos (by simpa [Option.isSome_iff_ne_none] using h)

section
variable {s : State} {d : DieId} {row : BitVec 19} (hp : s.board.powerOk = true) (hr : (rowOf s d row.toNat).retired = false)
  (hd : rowDue (rowOf s d row.toNat) = true) (hn : (getMemu s d).retiring = none)
include hp hr hd hn

/-- A due row of a die with a spare, no pattern test running, begins to be retired. -/
theorem rowRetire_begins (hs : 0 < (getMemu s d).spares) (hk : (getKiln s d).dram = none) :
    exec (.rowRetire d row) s = .next (setMemu s d { getMemu s d with retiring := some row.toNat }) := by
  show execRowRetire d row s = _
  have spare : (getMemu s d).spares ≠ 0 := by omega
  simp [execRowRetire, hp, hr, hd, hn, hk, spare]

/-- A row marked as one that found no spare is left. -/
theorem rowRetire_marked (hs : (getMemu s d).spares = 0) (he : (rowOf s d row.toNat).exhausted = true) :
    Absorbed (.rowRetire d row) s := by
  show execRowRetire d row s = _
  simp [execRowRetire, hp, hr, hd, hn, hs, he]

/-- A due row without a spare is marked, with one entry. -/
theorem rowRetire_marks (hs : (getMemu s d).spares = 0) (he : (rowOf s d row.toNat).exhausted = false) :
    ∃ i, exec (.rowRetire d row) s = .next (logEntry (setMemu s d { getMemu s d with
      rows := mput rowFresh (getMemu s d).rows row.toNat { rowOf s d row.toNat with exhausted := true } }) d i) := by
  have due : ¬(¬s.board.powerOk ∨ (rowOf s d row.toNat).retired ∨ ¬rowDue (rowOf s d row.toNat) ∨ (getMemu s d).retiring.isSome) := by
    simp [hp, hr, hd, hn]
  exact ⟨_, (if_neg due).trans ((if_pos hs).trans (if_neg (by simp [he])))⟩

end

/-- The end of a retirement marks the row and takes a spare, with one entry. -/
theorem rowRetireDone_takes_spare {s : State} {d : DieId} {r : Nat} (h : (getMemu s d).retiring = some r) :
    ∃ i, exec (.rowRetireDone d) s = .next (logEntry (setMemu s d { getMemu s d with
      retiring := none, spares := (getMemu s d).spares - 1,
      rows := mput rowFresh (getMemu s d).rows r { rowOf s d r with retired := true } }) d i) := by
  show ∃ i, execRowRetireDone d s = _
  unfold execRowRetireDone; dsimp only; rw [h]; exact ⟨_, rfl⟩

/-- Without a retirement there is no end of one. -/
theorem rowRetireDone_absorbed {s : State} {d : DieId} (h : (getMemu s d).retiring = none) : Absorbed (.rowRetireDone d) s := by
  show execRowRetireDone d s = _
  simp only [execRowRetireDone, h]; rfl

end Sys2Proof.Machine
end

section
/-! PROOFS. O41. -/

namespace Sys2Proof

open Machine

/-- Settles O41: reading the tables leaves caches and windows, so a walk's whole effect is its entry put first or its fault's window;
invalidations and rows by their operations' own equations. -/
theorem translationsAndRows : Obligations.TranslationsAndRows := by
  unfold Obligations.TranslationsAndRows
  refine ⟨fun s d => ⟨fun hp es ss cs => if_pos (by simp [hp]), ?_⟩, ?_, ?_, ?_, ?_⟩
  · intro hp x c va ask hit walk hw
    refine ⟨?_, ?_, ?_, fun y hr => walk_in_unit_order hw hp hr⟩
    · intro e pa o u _ ht _ hh
      exact ⟨_, exec_walk_one hw hp x, serveXlate_hit ht hh⟩
    · intro l fs pa o u s2 s3 _ ht hh hwk hlf
      obtain ⟨hl, hs⟩ := serveXlate_miss ht hh hwk hlf
      refine ⟨_, exec_walk_one hw hp x, hl, ?_, walkEntry c va l fs, ?_, rfl, rfl, rfl, rfl, rfl, rfl⟩ <;>
        rw [hs, cachePut, getMemu_setMemu]
      exact xlInsert_head _ _ _ _
    · intro y u ht key old
      exact ⟨_, exec_walk_one hw hp x, (serveXlate_looked d s x).memByte, serveXlate_error_keeps_cache ht,
        fun w => serveXlate_error_counts ht, fun h => ⟨_, serveXlate_error_opens ht h, rfl, rfl⟩⟩
  · intro s d c page w h
    have found : exec (.xlateFaultMerged d c page) s = event (decide (0 < w.count) && decide (w.at_ + 1000000 ≤ dtime s d)) s
        (closeWin s d (winKey c.toNat (page * 2 ^ 25))) := by
      show execXlateFaultMerged d c page s = _
      unfold execXlateFaultMerged; dsimp only; rw [h]
    refine ⟨fun hc ht => ?_, fun hn => ?_⟩
    · obtain ⟨i, hi⟩ := closeWin_counted h hc
      refine ⟨_, found.trans (event_true _ _ (by simp [hc, ht])), ?_⟩
      rw [hi]; exact logEntry_setMemu s d _ i
    · exact found.trans (event_false _ _ (by simp; omega))
  · intro s d c gib hs x hx
    refine ⟨fun hd => ⟨_, (exec_invalidation hx).trans (d0Command_other _ hs hd), rfl⟩, ?_⟩
    rintro rfl
    obtain ⟨n, hn, hres⟩ := invalidate_result s x.2
    refine ⟨_, (exec_invalidation hx).trans (d0Command_zero _ hs), getMemu_invalidate s x.2, ?_, ?_, invalidate_frame s x.2⟩ <;> rw [hres]
    · exact (cmdResult_success _ hn).1
    · exact (cmdResult_success _ hn).2
  · intro s d row m
    refine ⟨rowRetire_absorbed, fun hp hr hd hn => ⟨fun hs hk => ⟨_, rowRetire_begins hp hr hd hn hs hk, rfl⟩,
      rowRetire_marked hp hr hd hn, fun hs he => ?_⟩⟩
    obtain ⟨i, hi⟩ := rowRetire_marks hp hr hd hn hs he
    obtain ⟨hm, hframe⟩ := logEntry_setMemu s d { m with
      rows := mput rowFresh m.rows row.toNat { rowOf s d row.toNat with exhausted := true } } i
    refine ⟨_, hi, rowOf_mput rfl (by simp [rowFresh]), ?_, ?_, hframe⟩ <;> rw [hm]
    · exact hs
    · exact hn
  · intro s d m
    refine ⟨rowRetireDone_absorbed, fun r hr => ?_⟩
    obtain ⟨i, hi⟩ := rowRetireDone_takes_spare hr
    obtain ⟨hm, hframe⟩ := logEntry_setMemu s d { m with
      retiring := none, spares := m.spares - 1, rows := mput rowFresh m.rows r { rowOf s d r with retired := true } } i
    refine ⟨_, hi, rowOf_mput rfl (by simp [rowFresh]), fun k hk => rowOf_mput_other rfl hk, ?_, ?_, hframe⟩ <;> rw [hm]

end Sys2Proof
end

section
/-! PROOFS. The host port's laws (R28 to R38, R43, R44): a part of a die set again or set to what it holds, the counted flags of CTL_HP_ERR,
the words and bytes of a burst, and what a write burst in normal operation comes to. -/

namespace Sys2Proof.Machine

/-! ### Setting a part again -/

@[simp] theorem setPort_setPort (s : State) (d : DieId) (x y : HostPort) : setPort (setPort s d x) d y = setPort s d y := by
  simp [setPort]

@[simp] theorem setPort_getPort (s : State) (d : DieId) : setPort s d (getPort s d) = s := by simp [setPort, getPort]

@[simp] theorem setLog_setLog (s : State) (d : DieId) (x y : LogBook) : setLog (setLog s d x) d y = setLog s d y := by
  simp [setLog]

@[simp] theorem setLog_getLog (s : State) (d : DieId) : setLog s d (getLog s d) = s := by simp [setLog, getLog]

@[simp] theorem setForwards_setForwards (s : State) (d : DieId) (x y : List Forward) :
    setForwards (setForwards s d x) d y = setForwards s d y := by simp [setForwards]

@[simp] theorem setForwards_getForwards (s : State) (d : DieId) : setForwards s d (getForwards s d) = s := by
  simp [setForwards, getForwards]

@[simp] theorem setEnds_setEnds (s : State) (d : DieId) (x y : List CordEnd) : setEnds (setEnds s d x) d y = setEnds s d y := by
  simp [setEnds]

@[simp] theorem setEnds_getEnds (s : State) (d : DieId) : setEnds s d (getEnds s d) = s := by simp [setEnds, getEnds]

/-- An entry is put into its die's logbook, and the state is otherwise as it was. -/
theorem logEntry_eq_setLog (s : State) (d : DieId) (i : LogInfo) : logEntry s d i = setLog s d (getLog (logEntry s d i) d) := by
  simp [logEntry]

/-- Without a tenant an entry depends on its own die's logbook and time alone. -/
theorem getLog_logEntry {s t : State} {d : DieId} {i : LogInfo} (hi : i.tenant = none) (hl : getLog t d = getLog s d)
    (ht : getTime t d = getTime s d) : getLog (logEntry t d i) d = getLog (logEntry s d i) d := by
  simp [logEntry, hi, hl, dtime, ht]

/-! ### The counted flags (R36, R38) -/

/-- Flag `i` raised and counted in bits [hi:lo], which it does not stand in. -/
theorem errCount_errRaise (r : ErrReg) (now : Nat) {i hi lo : Nat} (hlo : lo ≤ hi) (hhi : hi < 64) (hi64 : i < 64) (h : hi < i ∨ i < lo) :
    bit (errCount (errRaise r now i) now hi lo 1).val i = true ∧
      fld (errCount (errRaise r now i) now hi lo 1).val hi lo = min (fld r.val hi lo + 1) (2 ^ (hi + 1 - lo) - 1) := by
  constructor
  · simp [errCount, errRaise, bit_bumpFld_other _ hi lo 1 i hlo hhi (by omega), bit_raiseFlag _ i i hi64]
  · simp [errCount, errRaise, fld_bumpFld _ hi lo 1 hlo hhi, fld_raiseFlag_other _ i hi lo hi64 h]

/-- A state whose CTL_HP_ERR alone has flag `i` raised and counted. -/
theorem hpCounted_setPort (s : State) (d : DieId) {i hi lo : Nat} (hlo : lo ≤ hi) (hhi : hi < 64) (hi64 : i < 64) (h : hi < i ∨ i < lo) :
    HpCounted s (setPort s d { getPort s d with hpErr := errCount (errRaise (getPort s d).hpErr s.now i) s.now hi lo 1 }) d i hi lo := by
  unfold HpCounted
  rw [getPort_setPort]
  exact ⟨rfl, errCount_errRaise _ _ hlo hhi hi64 h⟩

theorem protoError_counted (s : State) (d : DieId) : HpCounted s (protoError s d) d 1 47 32 :=
  hpCounted_setPort s d (by omega) (by omega) (by omega) (by omega)

theorem countDiscard_discarded (s : State) (d : DieId) : Discarded s (countDiscard s d) d :=
  hpCounted_setPort s d (by omega) (by omega) (by omega) (by omega)

/-! ### Lists -/

theorem countUp_eq_range' (a n : Nat) : countUp a n = List.range' a n := by
  induction n generalizing a with
  | zero => rfl
  | succ n ih => rw [countUp, ih, List.range'_succ]

theorem lget_eq_getD {α : Type} (x : α) (l : List α) (i : Nat) : lget x l i = l.getD i x := by
  induction l generalizing i with
  | nil => rfl
  | cons y r ih => cases i with
    | zero => rfl
    | succ i => simpa [lget] using ih i

/-! ### Words and bytes of a burst (R29, R33, R43, R44) -/

/-- An 8-byte word of all-ones is the all-ones word. -/
theorem le64_ones : le64 (rep 8 0xFF) = BitVec.allOnes 64 := by decide

/-- A word whose bytes are all enabled replaces the old one. -/
theorem mergeWord_whole (old : W64) {l : List Byte} (h : l.length = 8) : mergeWord old l (rep 8 true) = le64 l := by
  match l, h with
  | [_, _, _, _, _, _, _, _], _ => rfl

/-- The words of an unmasked burst of all-ones are no-writes. -/
theorem burstWords_ones {b : HostWrite} (hm : b.mask = []) (hd : b.data = rep b.data.length 0xFF) (a : Nat) :
    ∀ w ∈ burstWords a b, w.2 = (rep 8 0xFF, rep 8 true) := by
  intro w hw
  obtain ⟨k, hk, rfl⟩ := List.mem_map.mp hw
  have hk8 : 8 * k + 8 ≤ b.data.length := by
    rw [countUp_eq_range', List.mem_range'_1] at hk; omega
  have bytes : (b.data.drop (8 * k)).take 8 = rep 8 0xFF := by
    rw [hd, rep, List.drop_replicate, List.take_replicate, rep]
    congr 1; omega
  simp [hm, bytes]

/-- The words of a burst that carries one word. -/
theorem burstWords_oneWord {b : HostWrite} {k : Nat} {v : W64} (hk : k < 4) (h : OneWord b k v) (a : Nat) :
    burstWords a b = (countUp 0 4).map fun j => (a + 8 * j, if j = k then natLe 8 v.toNat else rep 8 0xFF, rep 8 true) := by
  obtain ⟨hm, hd⟩ := h
  have len : b.data.length = 32 := by rw [hd]; simp [rep]; omega
  rw [burstWords, len, hm, hd]
  match k, hk with
  | 0, _ | 1, _ | 2, _ | 3, _ => rfl

/-- Words that each change nothing. -/
theorem foldl_fixed {α β : Type} {f : α → β → α} {l : List β} (h : ∀ w ∈ l, ∀ t, f t w = t) (s : α) : l.foldl f s = s := by
  induction l with
  | nil => rfl
  | cons w r ih => rw [List.foldl_cons, h w (by simp), ih fun x hx => h x (List.mem_cons_of_mem _ hx)]

section
variable {f : State → Nat × List Byte × List Bool → State} (noWrite : ∀ t c, f t (c, rep 8 0xFF, rep 8 true) = t)
include noWrite

/-- Where all-ones is no write, an unmasked burst of all-ones changes nothing. -/
theorem foldl_burstWords_ones {b : HostWrite} (hm : b.mask = []) (hd : b.data = rep b.data.length 0xFF) (a : Nat) (s : State) :
    (burstWords a b).foldl f s = s := by
  refine foldl_fixed (fun w hw t => ?_) s
  obtain ⟨c, l⟩ := w
  obtain rfl : l = _ := burstWords_ones hm hd a _ hw
  exact noWrite t c

/-- Where all-ones is no write, a burst that carries one word does what that word does. -/
theorem foldl_burstWords_oneWord {b : HostWrite} {k : Nat} {v : W64} (hk : k < 4) (h : OneWord b k v) (a : Nat) (s : State) :
    (burstWords a b).foldl f s = f s (a + 8 * k, natLe 8 v.toNat, rep 8 true) := by
  rw [burstWords_oneWord hk h]
  match k, hk with
  | 0, _ | 1, _ | 2, _ | 3, _ =>
    simp only [countUp, List.map_cons, List.map_nil, List.foldl_cons, List.foldl_nil, noWrite, reduceIte, Nat.reduceAdd, Nat.reduceEqDiff]

end

/-- An all-ones word is no write of a register slot (R44). -/
theorem applySlot_ones (s : State) (d : DieId) (blk off : Nat) : applySlot s d blk off (BitVec.allOnes 64) = s := by
  simp [applySlot, viaSlot]

/-- A slot word with every byte enabled is the slot's write. -/
theorem writeSlotWord_whole (s : State) (d : DieId) (a : Nat) (l : List Byte) :
    writeSlotWord s d (a, l, rep 8 true) = applySlot s d ((a - 0x400) / 0x400) (a % 0x400) (le64 l) := rfl

theorem writeSlotWord_ones (s : State) (d : DieId) (a : Nat) : writeSlotWord s d (a, rep 8 0xFF, rep 8 true) = s := by
  rw [writeSlotWord_whole, le64_ones, applySlot_ones]

/-- An all-ones word is no write of a doorbell (R44). -/
theorem writeBell_ones (s : State) (d : DieId) (a : Nat) : writeBell s d (a, rep 8 0xFF, rep 8 true) = s := by
  have ones (old : W64) : mergeWord old (rep 8 0xFF) (rep 8 true) = BitVec.allOnes 64 := (mergeWord_whole old rfl).trans le64_ones
  simp only [writeBell, ones, doorbellCheck, if_true]
  exact ite_self s

/-! ### A write burst in normal operation (R28, R33, R39) -/

/-- A write burst that reaches its region is discarded for its parity or does what its region does. -/
theorem hostWrite_burst {s : State} {d : DieId} {b : HostWrite} {a : Nat} (h : PortBurst s d b a) {p : Region → Bool}
    (hp : p (regionOf d a) = true) : hostWrite s d b p =
      .next (if parityOn s d ∧ (parityFails b ∨ ¬ b.mask.isEmpty) then parityFail s d a else writeRegion s d a b) := by
  obtain ⟨hcmd, hlegal, haddr, hprbs, htrained, hready⟩ := h
  simp only [hostWrite, hcmd, hlegal, haddr, hp, hprbs, htrained, hready]
  by_cases hpar : parityOn s d ∧ (parityFails b ∨ ¬ b.mask.isEmpty)
  · rw [if_pos hpar, if_pos hpar]; rfl
  · rw [if_neg hpar, if_neg hpar]; rfl

/-- With parity on, one that fails parity or is masked is discarded whole. -/
theorem hostWrite_parityFail {s : State} {d : DieId} {b : HostWrite} {a : Nat} (h : PortBurst s d b a) (hpar : parityOn s d = true)
    (hbad : parityFails b = true ∨ b.mask ≠ []) {p : Region → Bool} (hp : p (regionOf d a) = true) :
    hostWrite s d b p = .next (parityFail s d a) := by
  rw [hostWrite_burst h hp, if_pos ⟨hpar, by simpa using hbad⟩]

/-- With parity off it does what its region does. -/
theorem hostWrite_region {s : State} {d : DieId} {b : HostWrite} {a : Nat} (h : PortWrite s d b a) {p : Region → Bool}
    (hp : p (regionOf d a) = true) : hostWrite s d b p = .next (writeRegion s d a b) := by
  rw [hostWrite_burst h.1 hp, if_neg (by simp [h.2])]

section
variable {s : State} {d : DieId} {b : HostWrite} {a : Nat} (h : PortWrite s d b a)
include h

theorem exec_registerSlotWrite (hr : regionOf d a = .slots) :
    exec (.registerSlotWrite d b) s = .next ((burstWords a b).foldl (fun t w => writeSlotWord t d w) s) := by
  show hostWrite s d b (fun r => r = .slots) = _
  rw [hostWrite_region h (by simp [hr]), writeRegion, hr]

theorem exec_doorbellWrite (hr : regionOf d a = .bells) :
    exec (.doorbellWrite d b) s = .next ((burstWords a b).foldl (fun t w => writeBell t d w) s) := by
  show hostWrite s d b (fun r => r = .bells) = _
  rw [hostWrite_region h (by simp [hr]), writeRegion, hr]

theorem exec_stagingWrite (hr : regionOf d a = .staging) : exec (.stagingWrite d b) s = .next (writeStaging s d a b) := by
  show hostWrite s d b (fun r => r = .staging) = _
  rw [hostWrite_region h (by simp [hr]), writeRegion, hr]

theorem exec_ignoredWrite (hr : regionOf d a = .ignored) : exec (.ignoredWrite d b) s = .next (countDiscard s d) := by
  show hostWrite s d b (fun r => r = .ignored) = _
  rw [hostWrite_region h (by simp [hr]), writeRegion, hr]

theorem exec_apertureWrite (hr : regionOf d a = .aperture) : exec (.apertureWrite d b) s = .next (writeAperture s d a b) := by
  show hostWrite s d b (fun r => r = .aperture) = _
  rw [hostWrite_region h (by simp [hr]), writeRegion, hr]

end

/-- A channel that takes commands has power. -/
theorem cmdOk_powerOk {s : State} {d : DieId} (h : cmdOk s d = true) : s.board.powerOk = true := by
  simp only [cmdOk, Bool.and_eq_true] at h; tauto

theorem PortWrite.powerOk {s : State} {d : DieId} {b : HostWrite} {a : Nat} (h : PortWrite s d b a) : s.board.powerOk = true :=
  cmdOk_powerOk h.1.1

end Sys2Proof.Machine
end

section
/-! PROOFS. O59. -/

namespace Sys2Proof

open Machine

/-- Settles O59: each word of such a burst is a no-write of its slot or doorbell, and each register command is a slot write. -/
theorem allOnesIsNoWrite : Obligations.AllOnesIsNoWrite := by
  unfold Obligations.AllOnesIsNoWrite
  constructor
  · intro s ch b a hw hm hd
    constructor
    · intro hr
      exact (exec_registerSlotWrite hw hr).trans
        (congrArg _ (foldl_burstWords_ones (fun t c => writeSlotWord_ones t ch c) hm hd a s))
    · intro hr
      exact (exec_doorbellWrite hw hr).trans (congrArg _ (foldl_burstWords_ones (fun t c => writeBell_ones t ch c) hm hd a s))
  · intro s d n r e v c hc
    have slot (blk : Nat) (f : State → State) : ok (viaSlot s d blk v f) = .next s := by simp [viaSlot, v]
    simp only [List.mem_cons, List.not_mem_nil, or_false] at hc
    rcases hc with rfl | rfl | rfl | rfl | rfl | rfl | rfl | rfl | rfl | rfl | rfl | rfl | rfl | rfl | rfl <;> exact slot _ _

end Sys2Proof
end

section
/-! PROOFS. Rows of the channel (R28, R29): which column commands have an address, and what the bank commands leave of it. -/

namespace Sys2Proof.Machine

section
variable {s t : State} {d : DieId} {bank : Fin 16} {col n : Nat}

/-- A column command to a closed bank has no address. -/
theorem burstAddr_closed (h : mget 0 (getPort s d).rows bank.val = 0) : burstAddr s d bank col n = none := by
  simp [burstAddr, h]

/-- An aligned burst within an open row has that row's address. -/
theorem burstAddr_open {row : Nat} (h : mget 0 (getPort s d).rows bank.val = row + 1) (ha : col % n = 0) (hc : col + n ≤ 2048) :
    burstAddr s d bank col n = some (row * 32768 + bank.val * 2048 + col) := by
  simp [burstAddr, h, ha, hc]

/-- The address depends on the bank's row alone. -/
theorem burstAddr_congr (h : mget 0 (getPort t d).rows bank.val = mget 0 (getPort s d).rows bank.val) :
    burstAddr t d bank col n = burstAddr s d bank col n := by
  simp only [burstAddr, h]

/-- A column command's address is a multiple of the burst's length. -/
theorem burstAddr_aligned {a : Nat} (h : burstAddr s d bank col n = some a) (hn : n ∣ 2048) : a % n = 0 := by
  simp only [burstAddr] at h
  split at h
  · cases h
  · rename_i hc
    simp only [not_or, not_not] at hc
    obtain ⟨_, _, hcol⟩ := hc
    cases h
    obtain ⟨k, hk⟩ := hn
    have rows (row : Nat) : row * 32768 + bank.val * 2048 = n * (k * (row * 16 + bank.val)) := by
      rw [← Nat.mul_assoc, ← hk]; ring
    rw [rows, Nat.mul_add_mod, hcol]

/-- A write of one bank's row leaves the addresses of the others. -/
theorem burstAddr_setRow_other {other : Fin 16} (row : Nat) (h : other ≠ bank) :
    burstAddr (setPort s d { getPort s d with rows := mput 0 (getPort s d).rows bank.val row }) d other col n
      = burstAddr s d other col n := by
  refine burstAddr_congr ?_
  rw [getPort_setPort]
  exact mget_mput_other 0 _ row (Fin.val_ne_of_ne h)

end

section
variable {s : State} {d : DieId} (h : cmdOk s d = true) (bank : Fin 16)
include h

theorem exec_activate (row : BitVec 16) : exec (.bankCommand d bank (.activate row)) s = .next
    (if mget 0 (getPort s d).rows bank.val = 0 then
      setPort s d { getPort s d with rows := mput 0 (getPort s d).rows bank.val (row.toNat + 1) }
    else protoError s d) := event_true _ _ h

theorem exec_precharge : exec (.bankCommand d bank .precharge) s =
    .next (setPort s d { getPort s d with rows := mput 0 (getPort s d).rows bank.val 0 }) := event_true _ _ h

theorem exec_prechargeAll : exec (.bankCommand d bank .prechargeAll) s = .next (setPort s d { getPort s d with rows := [] }) :=
  event_true _ _ h

end

end Sys2Proof.Machine
end

section
/-! PROOFS. O6. -/

namespace Sys2Proof

open Machine

/-- Settles O6: the bank's entry among the open rows is what a column command's address reads. -/
theorem bankCommandsOpenAndClose : Obligations.BankCommandsOpenAndClose := by
  unfold Obligations.BankCommandsOpenAndClose
  intro s ch bank row col n hcmd _ hcol hlen hrows
  refine ⟨fun hclosed => ⟨burstAddr_closed hclosed, _, (exec_activate hcmd bank row).trans (congrArg _ (if_pos hclosed)), ?_, ?_, ?_⟩,
    fun hopen => ⟨_, (exec_activate hcmd bank row).trans (congrArg _ (if_neg hopen)), protoError_counted s ch⟩,
    ⟨_, exec_precharge hcmd bank, ?_, ?_, ?_⟩, ⟨_, exec_prechargeAll hcmd bank, ?_, ?_⟩⟩
  · rw [getPort_setPort]
  · exact burstAddr_open (by simp only [getPort_setPort]; exact mget_mput_same _ _ _ hrows) hcol hlen
  · exact fun other h => burstAddr_setRow_other _ h
  · simp only [getPort_setPort]
  · exact burstAddr_closed (by simp only [getPort_setPort]; exact mget_mput_same _ _ _ hrows)
  · exact fun other h => burstAddr_setRow_other _ h
  · simp only [getPort_setPort]
  · exact fun other => burstAddr_closed (by simp only [getPort_setPort]; rfl)

end Sys2Proof
end

section
/-! PROOFS. The channel's commands (R27, R30 to R33, R49, R430, Tables 2.1 to 2.3): reset, training, power-down, and the mode registers'
reads and writes. -/

namespace Sys2Proof.Machine

/-! ### Training and power-down (Tables 2.1, 2.2) -/

/-- A training step is remembered for the set point in use. -/
theorem trainStep_step (s : State) (d : DieId) (step : Nat) (dq : List Byte) :
    (getPort (trainStep s d step dq) d).steps.testBit (4 * setPoint s d + step) = true := by
  simp [trainStep, Nat.testBit_two_pow_self]

theorem trainStep_dq (s : State) (d : DieId) (step : Nat) (dq : List Byte) : (getPort (trainStep s d step dq) d).dq = dq := by
  simp [trainStep]

/-- A training step changes its channel's port only. -/
theorem trainStep_frame (s : State) (d : DieId) (step : Nat) (dq : List Byte) :
    trainStep s d step dq = setPort s d (getPort (trainStep s d step dq) d) := by
  simp [trainStep]

/-- A channel in power-down takes no command. -/
theorem cmdOk_down (s : State) (d : DieId) (p : HostPort) : cmdOk (setPort s d { p with down := true }) d = false := by
  simp [cmdOk]

/-- The exit from power-down gives back the state that took commands before the entry. -/
theorem exec_powerDownExit {s : State} {d : DieId} (h : cmdOk s d = true) :
    exec (.powerDownExit d) (setPort s d { getPort s d with down := true }) = .next s := by
  simp only [cmdOk, Bool.and_eq_true, Bool.not_eq_true'] at h
  obtain ⟨⟨⟨⟨power, reset⟩, up⟩, _⟩, _⟩ := h
  have port : { getPort s d with down := false } = getPort s d := by rw [← up]
  refine (event_true _ _ (by simp [power, reset])).trans ?_
  simp [port]

/-! ### Reads of mode registers (R31, Table 2.3) -/

/-- The bit of a die in the mask of trained channels, as a mode register reads it. -/
theorem trainedMask_testBit (s : State) (d : DieId) : (BitVec.ofNat 8 (trainedMask s)).toNat.testBit d.val = (getPort s d).trained := by
  have bits : ∀ b0 b1 b2 b3 : Bool, ∀ e : DieId,
      (BitVec.ofNat 8 ([b2n b0 * 2 ^ 0, b2n b1 * 2 ^ 1, b2n b2 * 2 ^ 2, b2n b3 * 2 ^ 3].sum)).toNat.testBit e.val
        = qget ⟨b0, b1, b2, b3⟩ e := by decide
  refine (bits _ _ _ _ d).trans ?_
  fin_cases d <;> rfl

/-- The die's number with the grade above it. -/
theorem dieRegister_fields (d : DieId) (g : Bool) :
    (BitVec.ofNat 8 (d.val + 4 * b2n g)).toNat % 4 = d.val ∧ (BitVec.ofNat 8 (d.val + 4 * b2n g)).toNat / 8 = 0 := by
  revert d g; decide

/-- The start-up stage with a flag above it. -/
theorem stageRegister_field (n : Nat) (g : Bool) : (BitVec.ofNat 8 (n % 16 + 16 * b2n g)).toNat % 16 = n % 16 := by
  rw [BitVec.toNat_ofNat]; omega

/-- Mode registers from 108 on read zero. -/
theorem mrRead_high {s : State} {d : DieId} {n : Nat} (h : 108 ≤ n) : mrRead s d n = 0 := by
  unfold mrRead
  split <;> try omega
  exact if_neg (by omega)

/-! ### Writes of mode registers (R30, R32, R33, R430) -/

/-- A mode register reads the last write of it once that is tMRD old. -/
theorem mrNow_last {s : State} {d : DieId} {l : List (Nat × Nat × Byte)} {w k : Nat} {v : Byte}
    (h : (getPort s d).mrWrites = l ++ [(w, k, v)]) : mrNow { s with now := w + Config.tMRD } d k = v := by
  show (getPort s d).mrWrites.foldl _ _ = v
  simp [h]

/-- PAR_EN is the last write of it once that is tMRD old. -/
theorem parityOn_last {s : State} {d : DieId} {l : List (Nat × Bool)} {w : Nat} {v : Bool}
    (h : (getPort s d).parityWrites = l ++ [(w, v)]) : parityOn { s with now := w + Config.tMRD } d = v := by
  show (getPort s d).parityWrites.foldl _ _ = v
  simp [h]

/-- Writes of PAR_EN that are not yet tMRD old do not count. -/
theorem parityFold_pending {now : Nat} {l : List (Nat × Bool)} (h : ∀ w ∈ l, now < w.1 + Config.tMRD) (a : Bool) :
    l.foldl (fun a w => if w.1 + Config.tMRD ≤ now then w.2 else a) a = a :=
  foldl_fixed (fun w hw _ => if_neg (by have := h w hw; omega)) a

/-- Parity is on only where a write of PAR_EN is tMRD old. -/
theorem tMRD_le_of_parityOn {s : State} {d : DieId} (h : parityOn s d = true) : Config.tMRD ≤ s.now := by
  by_contra hlt
  have off : parityOn s d = false := parityFold_pending (fun w _ => by omega) false
  simp [off] at h

/-- A write of PAR_EN has no effect before tMRD. -/
theorem parityOn_wrParity (s : State) (d : DieId) (v : Byte) (h : 0 < Config.tMRD) : parityOn (wrParity s d v) d = parityOn s d := by
  let late := (getPort s d).parityWrites.filter (fun w => decide (s.now < w.1 + Config.tMRD)) ++ [(s.now, v.toNat.testBit 0)]
  have writes : (getPort (wrParity s d v) d).parityWrites = (if parityOn s d then [(0, true)] else []) ++ late := by
    simp [wrParity, late]
  have pending : ∀ w ∈ late, s.now < w.1 + Config.tMRD := by
    intro w hw
    rcases List.mem_append.mp hw with hw | hw
    · exact of_decide_eq_true (List.mem_filter.mp hw).2
    · obtain rfl := List.mem_singleton.mp hw
      show s.now < s.now + _; omega
  show (getPort (wrParity s d v) d).parityWrites.foldl (fun a w => if w.1 + Config.tMRD ≤ s.now then w.2 else a) false = _
  rw [writes, List.foldl_append, parityFold_pending pending]
  by_cases on : parityOn s d = true
  · simp [on, tMRD_le_of_parityOn on]
  · simp [on]

/-- After a write of one of its codes VND_PRBS reads it, with generators and checkers at their start (R430). -/
theorem wrPrbs_code {s : State} {d : DieId} {v : Byte} (hv : v.toNat % 8 ≤ 4) (h : mwf 0 (getPort s d).mr = true) :
    wrPrbs s d v = setPort s d (getPort (wrPrbs s d v) d) ∧ prbsMode (wrPrbs s d v) d = v.toNat % 8 ∧
      (getPort (wrPrbs s d v) d).prbsTx = 0 ∧ (getPort (wrPrbs s d v) d).checkers = [] := by
  rw [wrPrbs, if_neg (by omega)]
  simp only [prbsMode, getPort_setPort, mget_mput_same _ _ _ h, BitVec.toNat_ofNat, and_self, and_true, true_and]
  omega

theorem exec_modeRegisterWrite {s : State} {d : DieId} (h : cmdOk s d = true) (mr : Nat) (v : Byte) :
    exec (.modeRegisterWrite d mr v) s = .next (wrMr s d mr v) := event_true _ _ h

/-- The vendor's registers but two, and the identity ones, ignore writes (R32). -/
theorem wrMr_ignored {mr : Nat} (h : 96 ≤ mr ∨ (5 ≤ mr ∧ mr ≤ 8)) (h4 : mr ≠ 104) (h6 : mr ≠ 106) (s : State) (d : DieId)
    (v : Byte) : wrMr s d mr v = s := by
  simp only [wrMr]; rw [if_neg h4, if_neg h6, if_pos h]

/-- The port after a write of a standard register: what is tMRD old stands, the write waits behind the others. -/
def mrWritten (s : State) (d : DieId) (mr : Nat) (v : Byte) : HostPort :=
  let p := getPort s d
  let settled := (p.mrWrites.filter (fun w => decide (w.1 + Config.tMRD ≤ s.now))).foldl (fun m w => mput 0 m w.2.1 w.2.2) p.mr
  { p with mr := settled
           mrWrites := p.mrWrites.filter (fun w => !decide (w.1 + Config.tMRD ≤ s.now)) ++ [(s.now, mrKey s d mr, mrKept mr v)] }

/-- A write of a standard register, which breaks the supported subset where it names bits that are not kept (R27, R30). -/
theorem wrMr_standard {mr : Nat} (h : mr < 96) (hid : ¬(5 ≤ mr ∧ mr ≤ 8)) (s : State) (d : DieId) (v : Byte) :
    wrMr s d mr v =
      if mrKept mr v = v then setPort s d (mrWritten s d mr v) else protoError (setPort s d (mrWritten s d mr v)) d := by
  simp only [wrMr]
  rw [if_neg (by omega), if_neg (by omega), if_neg (by omega)]
  rfl

end Sys2Proof.Machine
end

section
/-! PROOFS. O5. -/

namespace Sys2Proof

open Machine

/-- Settles O5: every command of a channel replaces that channel's port, and each read or write of a mode register has its own equation. -/
theorem channelResetTrainingAndModeRegisters : Obligations.ChannelResetTrainingAndModeRegisters := by
  unfold Obligations.ChannelResetTrainingAndModeRegisters
  refine ⟨fun s ch => ⟨fun hr => ?_, fun hr => ?_, fun hcmd => ⟨?_, ?_, ?_, ?_, ?_⟩, fun _ => ⟨s, rfl, rfl⟩⟩, ?_, ?_⟩
  · refine ⟨_, event_true _ _ hr, ?_⟩
    split <;> rename_i power
    · simp [logEntry, parityOn, prbsMode, cmdOk, mrReset, mget, mfind, power, dtime]
    · refine ⟨by rw [getPort_setPort, setLog_getLog], ?_⟩
      simp [parityOn, prbsMode, cmdOk, mrReset, mget, mfind, power]
  · refine ⟨_, event_true _ _ (by simp [hr]), ?_⟩
    simp
  · intro pattern
    exact ⟨_, event_true _ _ hcmd, trainStep_frame s ch _ _, trainStep_dq s ch _ _, trainStep_step s ch _ _⟩
  · intro phase
    exact ⟨_, event_true _ _ hcmd, trainStep_frame s ch _ _, trainStep_dq s ch _ _, trainStep_step s ch _ _⟩
  · exact ⟨_, event_true _ _ hcmd, trainStep_frame s ch _ _, by rw [trainStep_dq, List.length_map, countUp_eq_range', List.length_range'],
      trainStep_step s ch _ _⟩
  · intro data hdata
    refine ⟨_, event_true _ _ (by simp [hcmd, hdata]), ?_, ?_, ?_, ?_⟩
    · rw [trainStep_frame]; simp
    · simp [trainStep_dq]
    · simp
    · simpa using trainStep_step s ch 3 data
  · intro deep
    refine ⟨_, event_true _ _ hcmd, ?_, cmdOk_down _ _ _, ?_, s, exec_powerDownExit hcmd, hcmd, ?_, rfl⟩ <;> simp
  · intro s ch mr hcmd
    refine ⟨_, event_true _ _ hcmd, ?_⟩
    simp only [getPort_setPort]
    refine ⟨trivial, ?_, ?_, ?_, ?_, ?_, ?_, ?_, ?_, ?_, ?_, mrRead_high⟩ <;> rintro rfl
    iterate 7 · rfl
    · exact dieRegister_fields ch _
    · exact stageRegister_field _ _
    · exact trainedMask_testBit s
  · intro s ch v hcmd
    refine ⟨fun mr hmr hid => ?_, fun mr hmr h4 h6 => ?_, fun mr h5 h8 => ?_, ?_, fun hv hwf => ?_, fun hv => ?_, rfl, rfl⟩
    · refine ⟨_, (exec_modeRegisterWrite hcmd mr v).trans (congrArg _ (wrMr_standard hmr hid s ch v)), ?_⟩
      split <;> rename_i kept
      · simp only [getPort_setPort]
        exact ⟨trivial, mrNow_last (by rw [getPort_setPort]; rfl), fun _ => rfl, fun h => absurd kept h⟩
      · obtain ⟨_, flag, count⟩ := protoError_counted (setPort s ch (mrWritten s ch mr v)) ch
        rw [getPort_setPort] at count
        exact ⟨by simp [protoError], mrNow_last (by simp only [protoError, getPort_setPort]; rfl), fun h => absurd h kept,
          fun _ => ⟨flag, count⟩⟩
    · exact (exec_modeRegisterWrite hcmd mr v).trans (congrArg _ (wrMr_ignored (.inl hmr) h4 h6 s ch v))
    · exact (exec_modeRegisterWrite hcmd mr v).trans (congrArg _ (wrMr_ignored (.inr ⟨h5, h8⟩) (by omega) (by omega) s ch v))
    · exact ⟨_, event_true _ _ hcmd, by simp [wrParity], parityOn_last (by simp only [wrParity, getPort_setPort]; rfl),
        parityOn_wrParity s ch v⟩
    · exact ⟨_, event_true _ _ hcmd, wrPrbs_code hv hwf⟩
    · exact (event_true _ _ hcmd).trans (congrArg _ (if_pos hv))

end Sys2Proof
end

section
/-! PROOFS. Reads of the port store and the aperture (R34, R35, R411, Tables 2.5, 2.15), discarded bursts (R33, R36) and the write of
CTL_HP_ERR (R38, Table 2.11). -/

namespace Sys2Proof.Machine

/-! ### Lists of words -/

section
variable {f : Nat → List Byte} (hf : ∀ k, (f k).length = 8)
include hf

theorem length_flatMap_words (a m : Nat) : ((countUp a m).flatMap f).length = 8 * m := by
  induction m generalizing a with
  | zero => rfl
  | succ m ih => rw [countUp, List.flatMap_cons, List.length_append, hf, ih]; omega

/-- Word `j` of words laid one after the other. -/
theorem take_drop_flatMap_words (a m j : Nat) (hj : j < m) : (((countUp a m).flatMap f).drop (8 * j)).take 8 = f (a + j) := by
  induction m generalizing a j with
  | zero => omega
  | succ m ih =>
    rw [countUp, List.flatMap_cons]
    cases j with
    | zero => rw [Nat.mul_zero, List.drop_zero, List.take_append_of_le_length (by rw [hf]), List.take_of_length_le (by rw [hf])]; rfl
    | succ j =>
      rw [show 8 * (j + 1) = (f a).length + 8 * j by rw [hf]; omega, List.drop_length_add_append, ih (a + 1) j (by omega)]
      congr 1; omega

end

/-- Words of all-ones laid one after the other. -/
theorem flatMap_onesWord {f : Nat → List Byte} {m : Nat} (hf : ∀ k < m, f k = onesWord) : (countUp 0 m).flatMap f = rep (8 * m) 0xFF := by
  have words : (countUp 0 m).flatMap f = (countUp 0 m).flatMap (fun _ => onesWord) := by
    refine List.flatMap_congr fun k hk => hf k ?_
    rw [countUp_eq_range', List.mem_range'_1] at hk; omega
  rw [words, rep, List.eq_replicate_iff]
  refine ⟨length_flatMap_words (fun _ => rfl) 0 m, fun x hx => ?_⟩
  obtain ⟨_, _, hx⟩ := List.mem_flatMap.mp hx
  exact List.eq_of_mem_replicate hx

/-! ### Words of the port store (Table 2.5) -/

@[simp] theorem openWord_length (s : State) (o : Nat) : (openWord s o).length = 8 := rfl

@[simp] theorem onesWord_length : onesWord.length = 8 := rfl

@[simp] theorem blockWord_length (s : State) (o : Nat) (m : Nat → Nat → Option W64) : (blockWord s o m).length = 8 := by
  simp only [blockWord]
  split
  · rfl
  · split <;> simp

@[simp] theorem faultWord_length (f t : Map (List Byte)) (o : Nat) : (faultWord f t o).length = 8 := by
  simp only [faultWord]; split <;> simp

@[simp] theorem relayWord_length (s : State) (n : DieId) (o : Nat) : (relayWord s n o).length = 8 := by
  simp only [relayWord]
  repeat' split
  all_goals simp

@[simp] theorem stageRead_length (s : State) (d : DieId) (o n : Nat) : (stageRead s d o n).length = n := by
  simp [stageRead, countUp_eq_range']

theorem length_ite {c : Prop} [Decidable c] {x y : List Byte} {n : Nat} (hx : c → x.length = n) (hy : y.length = n) :
    (if c then x else y).length = n := by
  split
  · exact hx ‹_›
  · exact hy

theorem storeWord_length (s : State) (d : DieId) (o : Nat) : (storeWord s d o).length = 8 := by
  have word (v : W64) : (natLe 8 v.toNat).length = 8 := natLe_length 8 _
  have fault (f t : Map (List Byte)) (o : Nat) : (faultWord f t o).length = 8 := faultWord_length f t o
  refine length_ite (fun _ => word _) <| length_ite (fun _ => blockWord_length s o _) <| length_ite (fun _ => onesWord_length) <|
    length_ite (fun _ => word _) <| length_ite (fun _ => word _) <| length_ite (fun _ => word _) <| length_ite (fun _ => word _) <|
    length_ite (fun _ => fault _ _ _) <| length_ite (fun _ => ?_) <| length_ite (fun _ => ?_) <| length_ite (fun _ => ?_) onesWord_length
  · refine length_ite (fun h => ?_) (openWord_length s o)
    rw [List.length_take, List.length_drop]; omega
  · exact length_ite (fun _ => onesWord_length) <| length_ite (fun _ => relayWord_length s _ _) <|
      length_ite (fun _ => fault _ _ _) onesWord_length
  · exact length_ite (fun _ => rfl) (stageRead_length s d _ 8)

/-- The word of a doorbell is the word that it holds. -/
theorem storeWord_bell (s : State) (d : DieId) {q : Nat} (h : q < 4096) :
    storeWord s d (0x8000 + 8 * q) = natLe 8 (mget 0 (getBells s d) q).toNat := by
  unfold storeWord; dsimp only
  rw [if_neg (by omega), if_neg (by omega), if_neg (by omega), if_pos (by omega)]
  congr 3; omega

/-- The word of a completion slot is its queue's. -/
theorem storeWord_slot (s : State) (d : DieId) {q : Nat} (h : q < 4096) :
    storeWord s d (0x10000 + 8 * q) = natLe 8 (queueOf s d q).slot.toNat := by
  unfold storeWord; dsimp only
  rw [if_neg (by omega), if_neg (by omega), if_neg (by omega), if_neg (by omega), if_pos (by omega)]
  congr 4; omega

/-- A staging word is the piece's bytes, or zeros while it clears. -/
theorem storeWord_staging (s : State) (d : DieId) {o : Nat} (hlo : 0x100000 ≤ o) (hhi : o < 0x800000) : storeWord s d o =
    if (pieceOf s d ((o - 0x100000) / 65536)).clearing = none then stageRead s d (o - 0x100000) 8 else rep 8 0 := by
  unfold storeWord; dsimp only
  rw [if_neg (by omega), if_neg (by omega), if_neg (by omega), if_neg (by omega), if_neg (by omega), if_neg (by omega),
    if_neg (by omega), if_neg (by omega), if_neg (by omega), if_neg (by omega), if_pos hhi]
  cases (pieceOf s d ((o - 0x100000) / 65536)).clearing <;> simp

/-- The parts of the window map that nothing is assigned to. -/
theorem unassigned_iff (d : DieId) (a : Nat) : unassigned d a = true ↔
    (0x5000 ≤ a ∧ a < 0x8000) ∨ (d ≠ 0 ∧ 0x80000 ≤ a ∧ a < 0x100000) ∨ (0xF8000 ≤ a ∧ a < 0x100000) ∨
      (0x800000 ≤ a ∧ a < 0x40000000) := by
  simp [unassigned, and_assoc, or_assoc]

theorem storeWord_unassigned {s : State} {d : DieId} {o : Nat} (h : unassigned d o = true) : storeWord s d o = onesWord := by
  unfold storeWord; dsimp only
  rcases (unassigned_iff d o).mp h with ⟨h1, h2⟩ | ⟨hd, h1, h2⟩ | ⟨h1, h2⟩ | ⟨h1, h2⟩
  · rw [if_neg (by omega), if_neg (by omega), if_pos h2]
  · rw [if_neg (by omega), if_neg (by omega), if_neg (by omega), if_neg (by omega), if_neg (by omega), if_neg (by omega),
      if_neg (by omega), if_neg (by omega), if_neg (by omega), if_pos h2, if_pos hd]
  · rw [if_neg (by omega), if_neg (by omega), if_neg (by omega), if_neg (by omega), if_neg (by omega), if_neg (by omega),
      if_neg (by omega), if_neg (by omega), if_neg (by omega), if_pos h2, if_neg (show ¬o < 0xE0000 by omega),
      if_neg (show ¬o < 0xF8000 by omega)]
    exact ite_self _
  · rw [if_neg (by omega), if_neg (by omega), if_neg (by omega), if_neg (by omega), if_neg (by omega), if_neg (by omega),
      if_neg (by omega), if_neg (by omega), if_neg (by omega), if_neg (by omega), if_neg (by omega)]

/-- Where nothing is assigned to a burst's first address, nothing is assigned to its words. -/
theorem unassigned_word {d : DieId} {a o : Nat} (h : unassigned d a = true) (ha : a % 32 = 0) (hlo : a ≤ o) (hhi : o < a + 64)
    (h64 : o < a + 32 ∨ a % 64 = 0) : unassigned d o = true := by
  rw [unassigned_iff] at h ⊢
  rcases h with h | ⟨hd, h⟩ | h | h
  · exact .inl (by omega)
  · exact .inr (.inl ⟨hd, by omega⟩)
  · exact .inr (.inr (.inl (by omega)))
  · exact .inr (.inr (.inr (by omega)))

/-! ### Read bursts (R28, R34, R411) -/

/-- Entries of failing staging words change their die's logbook only. -/
theorem foldl_portParity (d : DieId) (l : List Nat) (s : State) :
    l.foldl (fun t w => portParity t d (8 * w - 0x100000)) s
      = setLog s d (getLog (l.foldl (fun t w => portParity t d (8 * w - 0x100000)) s) d) := by
  induction l generalizing s with
  | nil => simp
  | cons w r ih => rw [List.foldl_cons, ih, portParity, logEntry]; simp

/-- The bytes that a read burst of the port store drives. -/
def storeBytes (s : State) (d : DieId) (a n : Nat) : List Byte :=
  (countUp 0 (n / 8)).flatMap (fun k => if a < 0x800000 then storeWord s d (a + 8 * k) else onesWord)

/-- What a read burst of the port store leaves: what the channel drives, the next occasion of free values, and entries for the failing
staging words it met. -/
theorem readStore_leaves (s : State) (d : DieId) (a n : Nat) :
    readStore s d a n = useFree (setLog (setPort s d (getPort (readStore s d a n) d)) d (getLog (readStore s d a n) d)) ∧
      (getPort (readStore s d a n) d).dq = storeBytes s d a n ∧ (getPort (readStore s d a n) d).trained = true ∧
      (badWords s d a n = [] → getLog (readStore s d a n) d = getLog s d) := by
  let dmi := if parityOn s d then readDmi s d a (storeBytes s d a n) else []
  let q : HostPort := { getPort s d with trained := true, dq := storeBytes s d a n, dmi := dmi, dqLanes := [] }
  have read : readStore s d a n = (badWords s d a n).foldl (fun t w => portParity t d (8 * w - 0x100000)) (useFree (setPort s d q)) := rfl
  have entries : readStore s d a n = setLog (useFree (setPort s d q)) d (getLog (readStore s d a n) d) := by
    rw [read]; exact foldl_portParity d _ _
  have port : getPort (readStore s d a n) d = q := by rw [entries]; exact getPort_setPort s d q
  rw [port]
  exact ⟨entries, rfl, rfl, fun h => by rw [read, h]; rfl⟩

/-- A word of what a read burst drives is the port store's. -/
theorem storeBytes_word {s : State} {d : DieId} {a n o : Nat} (h8 : o % 8 = 0) (ha8 : a % 8 = 0) (hlo : a ≤ o) (hhi : o + 8 ≤ a + n)
    (ho : o < 0x800000) : ((storeBytes s d a n).drop (o - a)).take 8 = storeWord s d o := by
  obtain ⟨j, hj⟩ : ∃ j, o = a + 8 * j := ⟨(o - a) / 8, by omega⟩
  have words (k : Nat) : (if a < 0x800000 then storeWord s d (a + 8 * k) else onesWord).length = 8 :=
    length_ite (fun _ => storeWord_length s d _) rfl
  rw [storeBytes, hj, Nat.add_sub_cancel_left, take_drop_flatMap_words words 0 (n / 8) j (by omega), Nat.zero_add, if_pos (by omega)]

theorem storeBytes_length (s : State) (d : DieId) (a : Nat) {n : Nat} (hn : n % 8 = 0) : (storeBytes s d a n).length = n := by
  rw [storeBytes, length_flatMap_words (fun k => length_ite (fun _ => storeWord_length s d _) rfl)]
  omega

/-- A read burst of addresses that nothing is assigned to drives all-ones. -/
theorem storeBytes_unassigned {s : State} {d : DieId} {a n : Nat} (h : unassigned d a = true) (hn : n = 32 ∨ n = 64) (ha : a % n = 0) :
    storeBytes s d a n = rep n 0xFF := by
  have ones : ∀ k < n / 8, (if a < 0x800000 then storeWord s d (a + 8 * k) else onesWord) = onesWord := by
    intro k hk
    have word : unassigned d (a + 8 * k) = true := by
      rcases hn with rfl | rfl <;> exact unassigned_word h (by omega) (by omega) (by omega) (by omega)
    rw [storeWord_unassigned word]
    exact ite_self _
  rw [storeBytes, flatMap_onesWord ones]
  congr 1; omega

/-- A read burst outside staging meets no failing staging word. -/
theorem badWords_outside {s : State} {d : DieId} {a n : Nat} (hn : n = 32 ∨ n = 64) (ha : a % n = 0)
    (h : a < 0x100000 ∨ 0x800000 ≤ a) : badWords s d a n = [] := by
  rw [badWords, List.filter_eq_nil_iff]
  intro w hw
  rw [countUp_eq_range', List.mem_range'_1] at hw
  have outside : ¬(0x20000 ≤ w ∧ w < 0x100000) := by rcases hn with rfl | rfl <;> omega
  simp only [Bool.and_eq_true, decide_eq_true_eq]
  tauto

theorem readLen_cases (b : HostRead) : b.len = 32 ∨ b.len = 64 := by
  unfold HostRead.len; split <;> simp

/-- A read burst to a closed bank breaks bank state. -/
theorem exec_hostReadBurst_closed {s : State} {d : DieId} {b : HostRead} (hc : cmdOk s d = true)
    (ha : burstAddr s d b.bank b.col b.len = none) : exec (.hostReadBurst d b) s = .next (protoError s d) := by
  show execHostReadBurst d b s = _
  unfold HostRead.len at ha
  simp only [execHostReadBurst, hc, ha]
  rfl

/-- A read burst on a trained channel reads the aperture or the port store. -/
theorem exec_hostReadBurst_open {s : State} {d : DieId} {b : HostRead} {a : Nat} (hc : cmdOk s d = true)
    (ha : burstAddr s d b.bank b.col b.len = some a) (hm : prbsMode s d = 0)
    (ht : ((getPort s d).trained = true ∧ setPointReady s d = true) ∨ stepsDone s d = true) :
    exec (.hostReadBurst d b) s = .next (if 0x40000000 ≤ a then readAperture s d b.len else readStore s d a b.len) := by
  show execHostReadBurst d b s = _
  have ready : ((getPort s d).trained && setPointReady s d || stepsDone s d) = true := by simpa using ht
  unfold HostRead.len at ha ⊢
  simp only [execHostReadBurst, hc, ha, hm, ready]
  rw [if_neg (by simp), if_neg (by simp), if_neg (by simp)]
  split <;> rfl

/-! ### Bursts discarded for parity, and CTL_HP_ERR (R33, R38, Table 2.11) -/

/-- A burst that fails parity is flagged, counted in VND_PARERR and logged, and no region takes it. -/
theorem parityFail_leaves (s : State) (d : DieId) (a : Nat) :
    parityFail s d a = setLog (setPort s d { getPort s d with hpErr := (getPort (parityFail s d a) d).hpErr
                                                              parErr := (getPort (parityFail s d a) d).parErr }) d
      (getLog (parityFail s d a) d) ∧
    bit (getPort (parityFail s d a) d).hpErr.val 0 = true ∧ (getPort (parityFail s d a) d).parErr = min ((getPort s d).parErr + 1) 255 ∧
    getLog (parityFail s d a) d = getLog (logEntry s d { code := 0x0101, kind := 0x01
                                                         detail := detA a 0 0 0 (getPort (parityFail s d a) d).parErr }) d := by
  have port : getPort (parityFail s d a) d =
      { getPort s d with parErr := satAdd 8 (getPort s d).parErr 1, hpErr := errRaise (getPort s d).hpErr s.now 0 } := by
    simp [parityFail, logEntry]
  rw [port]
  refine ⟨logEntry_eq_setLog _ d _, ?_, rfl, getLog_logEntry rfl ?_ ?_⟩
  · simp [errRaise, bit_raiseFlag]
  · simp
  · simp

/-- A bit of a word under a mask of its lowest bits. -/
theorem bit_and_low (x y : W64) (n i : Nat) (h : i < 64) :
    bit (x &&& y &&& BitVec.ofNat 64 (2 ^ n - 1)) i = (bit x i && bit y i && decide (i < n)) := by
  simp only [bit, BitVec.toNat_and, BitVec.toNat_ofNat, Nat.testBit_and, Nat.testBit_mod_two_pow, Nat.testBit_two_pow_sub_one, h,
    decide_true, Bool.true_and]

/-- A field above the lowest bits of a word is not changed by them. -/
theorem fld_or_low (x y z : W64) {n hi lo : Nat} (hn : n ≤ lo) (hhi : hi < 64) :
    fld (x ||| (y &&& z &&& BitVec.ofNat 64 (2 ^ n - 1))) hi lo = fld x hi lo := by
  apply Nat.eq_of_testBit_eq; intro j
  rw [testBit_fld, testBit_fld]
  by_cases hj : j < hi + 1 - lo
  · have low := bit_and_low y z n (lo + j) (by omega)
    rw [decide_eq_false (by omega), Bool.and_false] at low
    unfold bit at low ⊢
    rw [BitVec.toNat_or, Nat.testBit_or, low, Bool.or_false]
  · simp [hj]

/-- A bit of a word with those of its lowest bits taken out that another word names. -/
theorem bit_andNot_low (x y : W64) (n i : Nat) (h : i < 64) :
    bit (x &&& ~~~(y &&& BitVec.ofNat 64 (2 ^ n - 1))) i = (bit x i && !(bit y i && decide (i < n))) := by
  show (x &&& ~~~(y &&& BitVec.ofNat 64 (2 ^ n - 1))).getLsbD i = (x.getLsbD i && !(y.getLsbD i && decide (i < n)))
  rw [BitVec.getLsbD_and, BitVec.getLsbD_not, BitVec.getLsbD_and, BitVec.getLsbD_ofNat, Nat.testBit_two_pow_sub_one, decide_eq_true h,
    Bool.true_and, Bool.true_and]

/-- A field above the lowest bits is kept by it. -/
theorem fld_andNot_low (x y : W64) {n hi lo : Nat} (hn : n ≤ lo) (hhi : hi < 64) :
    fld (x &&& ~~~(y &&& BitVec.ofNat 64 (2 ^ n - 1))) hi lo = fld x hi lo := by
  apply Nat.eq_of_testBit_eq; intro j
  rw [testBit_fld, testBit_fld]
  by_cases hj : j < hi + 1 - lo
  · rw [bit_andNot_low x y n (lo + j) (by omega), decide_eq_false (show ¬lo + j < n by omega)]; simp
  · simp [hj]

/-- A field set under a condition. -/
theorem fld_ite_setFld_same (c : Bool) (x : W64) {hi lo : Nat} (v : Nat) (hlo : lo ≤ hi) (hhi : hi < 64) :
    fld (if c then setFld x hi lo v else x) hi lo = if c then v % 2 ^ (hi + 1 - lo) else fld x hi lo := by
  cases c <;> simp [hlo, hhi]

theorem fld_ite_setFld_other (c : Bool) (x : W64) {hi lo : Nat} (v : Nat) {hi' lo' : Nat} (hlo : lo ≤ hi) (hhi : hi < 64)
    (h : hi' < lo ∨ hi < lo') : fld (if c then setFld x hi lo v else x) hi' lo' = fld x hi' lo' := by
  cases c <;> simp [fld_setFld_other x hi lo v hi' lo' hlo hhi h]

theorem bit_ite_setFld_other (c : Bool) (x : W64) {hi lo i : Nat} (v : Nat) (hlo : lo ≤ hi) (hhi : hi < 64) (h : i < lo) :
    bit (if c then setFld x hi lo v else x) i = bit x i := by
  cases c
  · rfl
  · rw [if_pos rfl, bit_setFld x hi lo v i hlo hhi, if_neg (by omega)]

/-- A write of CTL_HP_ERR: the flags written 1 stand as the raises of this instant leave them, and each count goes with its flag. -/
theorem errClear_hpErr (r : ErrReg) (now : Nat) (v : W64) :
    let w := (errClear r now v 16 [(2, 31, 16), (1, 47, 32)]).val
    (∀ i, i < 16 → bit w i = if bit v i then bit (errFresh r now) i else bit r.val i) ∧
      fld w 31 16 = (if bit v 2 then fld (errFresh r now) 31 16 else fld r.val 31 16) ∧
      fld w 47 32 = (if bit v 1 then fld (errFresh r now) 47 32 else fld r.val 47 32) := by
  refine ⟨fun i hi => ?_, ?_, ?_⟩
  · simp only [errClear, clearFlags, List.foldl]
    rw [bit, BitVec.toNat_or, Nat.testBit_or]
    show (bit _ i || bit _ i) = _
    rw [bit_and_low _ _ 16 i (by omega)]
    iterate 4 rw [bit_ite_setFld_other _ _ _ (by omega) (by omega) (by omega)]
    rw [bit_andNot_low _ _ 16 i (by omega), decide_eq_true hi]
    cases bit v i <;> simp
  · simp only [errClear, clearFlags, List.foldl]
    rw [fld_or_low _ _ _ (le_refl 16) (by omega), fld_ite_setFld_other _ _ _ (by omega) (by omega) (by omega),
      fld_ite_setFld_same _ _ _ (by omega) (by omega), Nat.mod_eq_of_lt (fld_lt _ _ _)]
    rw [fld_ite_setFld_other _ _ _ (by omega) (by omega) (by omega), fld_ite_setFld_same _ _ _ (by omega) (by omega),
      fld_andNot_low _ _ (le_refl 16) (by omega)]
    cases bit v 2 <;> rfl
  · simp only [errClear, clearFlags, List.foldl]
    rw [fld_or_low _ _ _ (show 16 ≤ 32 by omega) (by omega), fld_ite_setFld_same _ _ _ (by omega) (by omega),
      Nat.mod_eq_of_lt (fld_lt _ _ _), fld_ite_setFld_other _ _ _ (by omega) (by omega) (by omega)]
    rw [fld_ite_setFld_same _ _ _ (by omega) (by omega), fld_ite_setFld_other _ _ _ (by omega) (by omega) (by omega),
      fld_andNot_low _ _ (show 16 ≤ 32 by omega) (by omega)]
    cases bit v 1 <;> rfl

end Sys2Proof.Machine
end

section
/-! PROOFS. O7. -/

namespace Sys2Proof

open Machine

/-- Settles O7: a read burst is words of the port store, a discarded one only counts, and CTL_HP_ERR clears what is written 1. -/
theorem readBurstsAndDiscardedWrites : Obligations.ReadBurstsAndDiscardedWrites := by
  unfold Obligations.ReadBurstsAndDiscardedWrites
  refine ⟨fun s ch b hcmd => ⟨fun ha => ⟨_, exec_hostReadBurst_closed hcmd ha, protoError_counted s ch⟩,
      fun a ha hm ht => ⟨fun hap => ?_, fun hst => ?_⟩⟩,
    fun s ch => ⟨fun b a hw hr => ⟨_, exec_ignoredWrite hw hr, countDiscard_discarded s ch⟩, fun b a hw hpar hbad e he hr => ?_,
      fun b a hw hpar hok hmask hr => ⟨_, ?_, countDiscard_discarded s ch⟩, fun v hp hv => ?_⟩⟩
  · refine ⟨_, (exec_hostReadBurst_open hcmd ha hm ht).trans (congrArg _ (if_pos hap)), ?_⟩
    simp only [readAperture, getHregs_setHregs, setHregs_gets, getPort_setPort]
    exact ⟨trivial, trivial, fld_bumpFld _ _ _ _ (by omega) (by omega), trivial⟩
  · have len := readLen_cases b
    have aligned : a % b.len = 0 := burstAddr_aligned ha (by rcases len with h | h <;> rw [h] <;> decide)
    have aligned8 : a % 8 = 0 := by rcases len with h | h <;> rw [h] at aligned <;> omega
    obtain ⟨frame, hdq, htrained, hlog⟩ := readStore_leaves s ch a b.len
    refine ⟨_, (exec_hostReadBurst_open hcmd ha hm ht).trans (congrArg _ (if_neg (by omega))), ?_⟩
    beta_reduce
    rw [hdq]
    exact ⟨storeBytes_length s ch a (by omega), htrained, frame, fun h => hlog (badWords_outside len aligned h),
      fun h => storeBytes_unassigned h len aligned, fun o h8 hlo hhi ho => storeBytes_word h8 aligned8 hlo hhi ho,
      fun q hq => ⟨storeWord_slot s ch hq, storeWord_bell s ch hq⟩, fun o hlo hhi => storeWord_staging s ch hlo hhi⟩
  · have discarded (x : Region) (hx : regionOf ch a = x) : hostWrite s ch b (fun r => r = x) = .next (parityFail s ch a) :=
      hostWrite_parityFail hw hpar hbad (decide_eq_true hx)
    refine ⟨parityFail s ch a, ?_, parityFail_leaves s ch a⟩
    simp only [List.mem_cons, List.not_mem_nil, or_false] at he
    rcases he with rfl | rfl | rfl | rfl | rfl <;> exact discarded _ hr
  · refine (hostWrite_burst hw (p := fun r => r = .ignored) (decide_eq_true hr)).trans (congrArg _ ?_)
    rw [if_neg (by simp [hok, hmask]), writeRegion, hr]
  · refine ⟨_, congrArg Host.Outcome.next (viaSlot_served _ hv hp (by simp [slotServed])), ?_⟩
    simp only [wrHpErr, getPort_setPort]
    obtain ⟨flags, discards, protos⟩ := errClear_hpErr (getPort s ch).hpErr s.now v
    exact ⟨trivial, flags, discards, protos, trivial⟩

end Sys2Proof
end

section
/-! PROOFS. Staging (R35, R62): the bytes that a burst enables and where they stand, and the clear of a piece. -/

namespace Sys2Proof.Machine

/-! ### Tables and lists -/

/-- A value that is no default is listed, whatever the table's form. -/
theorem mget_mput_listed {α : Type} [DecidableEq α] {d x : α} (m : Map α) (n : Nat) (h : x ≠ d) : mget d (mput d m n x) n = x := by
  simp [mput, h, mget]

section
variable {α : Type} {p : Nat × α → Bool} {k : Nat}

/-- Keeping every entry of a key keeps what is found there. -/
theorem mfind_filter_kept (m : Map α) (h : ∀ v, p (k, v) = true) : mfind (m.filter p) k = mfind m k := by
  induction m with
  | nil => rfl
  | cons e r ih =>
    obtain ⟨j, v⟩ := e
    by_cases hj : j = k
    · subst hj; rw [List.filter_cons_of_pos (h v)]; simp [mfind]
    · by_cases hp : p (j, v) = true
      · rw [List.filter_cons_of_pos hp]; simp [mfind, hj, ih]
      · rw [List.filter_cons_of_neg hp]; simp [mfind, hj, ih]

/-- Keeping no entry of a key leaves none there. -/
theorem mfind_filter_dropped (m : Map α) (h : ∀ v, p (k, v) = false) : mfind (m.filter p) k = none := by
  induction m with
  | nil => rfl
  | cons e r ih =>
    obtain ⟨j, v⟩ := e
    by_cases hp : p (j, v) = true
    · have hj : j ≠ k := fun hj => by subst hj; simp [h v] at hp
      rw [List.filter_cons_of_pos hp]; simp [mfind, hj, ih]
    · rw [List.filter_cons_of_neg hp]; exact ih

end

/-- A byte of cells that agree on its address, once they are put. -/
theorem putCells_agreeing {w m : List Host.Cell} {a : Nat} {v : Byte} (h : Memory.wf m) (hv : ∀ e ∈ w, e.1 = a → e.2 = v)
    (ha : ∃ e ∈ w, e.1 = a) : mget 0 (putCells m w) a = v := by
  induction w generalizing m with
  | nil => simp at ha
  | cons e r ih =>
    by_cases later : ∃ f ∈ r, f.1 = a
    · exact ih (mput_mwf m e.1 e.2 h) (fun f hf => hv f (List.mem_cons_of_mem _ hf)) later
    · push Not at later
      obtain ⟨f, hf, hfa⟩ := ha
      obtain rfl : f = e := (List.mem_cons.mp hf).resolve_right fun hr => later f hr hfa
      rw [putCells, putCells_other r _ a later, ← hfa, mget_mput_same m _ _ h]
      exact hv f (by simp) hfa

/-! ### Bursts to staging (R35) -/

/-- The cells of a burst: each enabled byte at its place. -/
theorem mem_enabledBytes {a : Nat} {b : HostWrite} {x : Nat × Byte} : x ∈ enabledBytes a b ↔
    ∃ k, k < b.data.length ∧ (b.mask = [] ∨ lget false b.mask k = true) ∧ x = (a + k, lget 0 b.data k) := by
  have place {v : Byte} {k : Nat} : (v, k) ∈ b.data.zipIdx ↔ k < b.data.length ∧ v = lget 0 b.data k := by
    rw [List.mem_zipIdx_iff_getElem?, lget_eq_getD, List.getD_eq_getElem?_getD, List.getElem?_eq_some_iff]
    constructor
    · rintro ⟨hk, hv⟩
      have hk : k < b.data.length := hk
      have hv : b.data[k] = v := hv
      exact ⟨hk, by simp [hk, hv]⟩
    · rintro ⟨hk, rfl⟩; exact ⟨hk, by simp [hk]⟩
  simp only [enabledBytes, List.mem_filterMap, Prod.exists, place, Option.ite_none_right_eq_some, Bool.or_eq_true,
    List.isEmpty_iff, Option.some.injEq]
  constructor
  · rintro ⟨v, k, ⟨hk, rfl⟩, hm, rfl⟩; exact ⟨k, hk, hm, rfl⟩
  · rintro ⟨k, hk, hm, rfl⟩; exact ⟨_, k, ⟨hk, rfl⟩, hm, rfl⟩

/-- Bytes written one by one to staging change staging and its parity only, and are put there in turn. -/
theorem foldl_stageWrite (d : DieId) (cells : List (Nat × Byte)) (s : State) :
    let t := cells.foldl (fun t c => stageWrite t d c.1 [c.2]) s
    t = setStaging (setStagingBad s d (getStagingBad t d)) d (getStaging t d) ∧
      getStaging t d = putCells (getStaging s d) cells := by
  induction cells generalizing s with
  | nil => simp [putCells, setStaging, setStagingBad, getStaging, getStagingBad]
  | cons c r ih =>
    obtain ⟨frame, bytes⟩ := ih (stageWrite s d c.1 [c.2])
    refine ⟨frame.trans ?_, bytes.trans ?_⟩
    · simp [stageWrite, setStaging, setStagingBad]
    · simp [stageWrite, putCells, cellsAt]

/-- A burst to a piece that clears is discarded. -/
theorem writeStaging_clearing {s : State} {d : DieId} {a : Nat} (h : (pieceOf s d ((a - 0x100000) / 65536)).clearing ≠ none)
    (b : HostWrite) : writeStaging s d a b = countDiscard s d := if_pos (Option.isSome_iff_ne_none.mpr h)

/-- A burst to another piece puts its enabled bytes one by one. -/
theorem writeStaging_open {s : State} {d : DieId} {a : Nat} (h : (pieceOf s d ((a - 0x100000) / 65536)).clearing = none)
    (b : HostWrite) : writeStaging s d a b = (enabledBytes (a - 0x100000) b).foldl (fun t c => stageWrite t d c.1 [c.2]) s := if_neg (by simp [h])

section
variable {m : Map Byte} {a k : Nat} {b : HostWrite}

/-- An enabled byte of a burst stands at its place. -/
theorem putCells_enabled (h : mwf 0 m = true) (hk : k < b.data.length) (he : b.mask = [] ∨ lget false b.mask k = true) :
    mget 0 (putCells m (enabledBytes a b)) (a + k) = lget 0 b.data k := by
  refine putCells_agreeing h ?_ ⟨_, mem_enabledBytes.mpr ⟨k, hk, he, rfl⟩, rfl⟩
  intro e hmem hplace
  obtain ⟨j, _, _, rfl⟩ := mem_enabledBytes.mp hmem
  obtain rfl : j = k := Nat.add_left_cancel hplace
  rfl

/-- A masked byte is as before. -/
theorem putCells_masked (hm : b.mask ≠ []) (he : lget false b.mask k = false) :
    mget 0 (putCells m (enabledBytes a b)) (a + k) = mget 0 m (a + k) := by
  refine putCells_other _ m _ fun e hmem hplace => ?_
  obtain ⟨j, _, hj, rfl⟩ := mem_enabledBytes.mp hmem
  obtain rfl : j = k := Nat.add_left_cancel hplace
  exact hj.elim hm (by simp [he])

/-- So is every byte outside the burst. -/
theorem putCells_outside {x : Nat} (hx : x < a ∨ a + b.data.length ≤ x) :
    mget 0 (putCells m (enabledBytes a b)) x = mget 0 m x := by
  refine putCells_other _ m _ fun e hmem hplace => ?_
  obtain ⟨j, hj, _, rfl⟩ := mem_enabledBytes.mp hmem
  have : a + j = x := hplace
  omega

end

/-! ### Tags of pieces (R62) -/

theorem exec_tenStage {s : State} {d : DieId} (h : Served s d 3) (p : BitVec 7) (k : Fin 16) :
    exec (.tenStage d p k) s = .next (wrTenStage s d p.toNat k.val) :=
  congrArg Host.Outcome.next (viaSlot_served _ (by decide) h.1 h.2)

/-- TEN_STAGE with the tag that is being set, or the current one, changes nothing. -/
theorem wrTenStage_same {s : State} {d : DieId} {p k : Nat} (h : k = (pieceOf s d p).clearing.getD (pieceOf s d p).tag) :
    wrTenStage s d p k = s := by
  simp only [wrTenStage, h, if_true, ite_self]

/-- The bytes of staging that a clear of piece `p` leaves. -/
def clearedPiece (m : Map Byte) (p : Nat) : Map Byte := m.filter (fun e => !(decide (p * 65536 ≤ e.1) && decide (e.1 < (p + 1) * 65536)))

theorem clearedPiece_inside (m : Map Byte) {p x : Nat} (h1 : p * 65536 ≤ x) (h2 : x < (p + 1) * 65536) :
    mget 0 (clearedPiece m p) x = 0 := by
  rw [mget, clearedPiece, mfind_filter_dropped m (by simp [h1, h2])]; rfl

theorem clearedPiece_outside (m : Map Byte) {p x : Nat} (h : x < p * 65536 ∨ (p + 1) * 65536 ≤ x) :
    mget 0 (clearedPiece m p) x = mget 0 m x := by
  rw [mget, clearedPiece, mfind_filter_kept m (fun v => ?_), mget]
  simp only [Bool.not_eq_true', Bool.and_eq_false_iff, decide_eq_false_iff_not]
  omega

/-- TEN_STAGE with another tag clears the piece, keeps the old tag and remembers the new one. -/
theorem wrTenStage_other {s : State} {d : DieId} {p k : Nat} (hp : p < 112)
    (h : k ≠ (pieceOf s d p).clearing.getD (pieceOf s d p).tag) : ∃ bad, wrTenStage s d p k =
      setPieces (setStagingBad (setStaging s d (clearedPiece (getStaging s d) p)) d bad) d
        (mput pieceFree (getPieces s d) p { pieceOf s d p with clearing := some k, sets := (pieceOf s d p).sets + 1 }) := by
  simp only [wrTenStage]
  rw [if_neg (by omega), if_neg h]
  exact ⟨_, rfl⟩

/-- The end of a clear shows the new tag. -/
theorem exec_stageClearDone {s : State} {d : DieId} {p : BitVec 7} {g : Nat} (h : (pieceOf s d p.toNat).clearing = some g) :
    exec (.stageClearDone d p) s = .next (setPieces s d (mput pieceFree (getPieces s d) p.toNat
      { pieceOf s d p.toNat with tag := g, clearing := none })) := by
  show execStageClearDone d p s = _
  simp only [execStageClearDone, h]; rfl

end Sys2Proof.Machine
end

section
/-! PROOFS. O9. -/

namespace Sys2Proof

open Machine

/-- Settles O9: a burst puts its enabled bytes one by one, and a clear filters the piece's bytes out of staging. -/
theorem stagingWritesAndTags : Obligations.StagingWritesAndTags := by
  unfold Obligations.StagingWritesAndTags
  refine ⟨fun s ch b a hw hr => ⟨fun hopen hwf => ?_, fun hclear => ?_⟩,
    fun s d p k => ⟨fun hs hp => ⟨fun hk => ?_, fun hk => ?_⟩, fun g hg hwf => ?_⟩⟩
  · obtain ⟨frame, bytes⟩ := foldl_stageWrite ch (enabledBytes (a - 0x100000) b) s
    refine ⟨_, (exec_stagingWrite hw hr).trans (congrArg _ (writeStaging_open hopen b)), frame, ?_, ?_, ?_⟩ <;> rw [bytes]
    · exact fun k hk he => putCells_enabled hwf hk he
    · exact fun k _ hm he => putCells_masked hm he
    · exact fun x hx => putCells_outside hx
  · exact ⟨_, (exec_stagingWrite hw hr).trans (congrArg _ (writeStaging_clearing hclear b)), countDiscard_discarded s ch⟩
  · obtain ⟨bad, hbad⟩ := wrTenStage_other hp hk
    refine ⟨_, (exec_tenStage hs p k).trans (congrArg _ hbad), ?_, ?_, ?_, ?_, ?_⟩
    · rw [pieceOf, getPieces_setPieces]
      exact mget_mput_listed _ _ (by simp [pieceFree])
    · intro x h1 h2; simpa using clearedPiece_inside (getStaging s d) h1 h2
    · intro x hx; simpa using clearedPiece_outside (getStaging s d) hx
    · intro q hq
      rw [pieceOf, getPieces_setPieces, mget_mput_other _ _ _ hq]; rfl
    · simp
  · exact (exec_tenStage hs p k).trans (congrArg _ (wrTenStage_same hk))
  · refine ⟨_, exec_stageClearDone hg, ?_, ?_, ?_⟩
    · rw [pieceOf, getPieces_setPieces]; exact mget_mput_same _ _ _ hwf
    · intro q hq
      rw [pieceOf, getPieces_setPieces, mget_mput_other _ _ _ hq]; rfl
    · rw [getPieces_setPieces]

end Sys2Proof
end

section
/-! PROOFS. Doorbells and register slots (R42 to R44, R74): a word that passes the doorbell's checks, the doorbell as it takes effect,
and slot writes of a burst that carries one word. -/

namespace Sys2Proof.Machine

/-! ### Regions (Tables 2.4, 2.5) -/

theorem regionOf_slots {d : DieId} {a : Nat} (h1 : 0x400 ≤ a) (h2 : a < 0x5000) (h3 : a % 0x400 < 0x200) : regionOf d a = .slots := by
  rw [regionOf, if_neg (by omega), if_pos ⟨h1, h2, h3⟩]

theorem regionOf_bells {d : DieId} {a : Nat} (h1 : 0x8000 ≤ a) (h2 : a < 0x10000) : regionOf d a = .bells := by
  rw [regionOf, if_neg (by omega), if_neg (by omega), if_pos ⟨h1, h2⟩]

theorem regionOf_aperture {d : DieId} {a : Nat} (h : 0x40000000 ≤ a) : regionOf d a = .aperture := if_pos h

/-! ### Doorbells (R42, R74) -/

section
variable {s : State} {d : DieId} {q tail : Nat}

/-- A queue that takes doorbells is not FREE, so it reads what was set. -/
theorem queueOf_setQueue_running {x : Queue} (h : x.state = .running ∨ x.state = .stopped) : queueOf (setQueue s d q x) d q = x := by
  rw [queueOf, setQueue, getQueues_setQueues]
  exact mget_mput_listed _ q (by rintro rfl; simp [queueFree] at h)

/-- Within the ring of a queue that runs or stands stopped, a tail becomes the queue's. -/
theorem ringBell_sets (hstate : (queueOf s d q).state = .running ∨ (queueOf s d q).state = .stopped)
    (hring : (tail + 2 ^ 32 - (queueOf s d q).done) % 2 ^ 32 ≤ 2 ^ (queueOf s d q).log2) :
    ringBell s d q tail = setQueue s d q { queueOf s d q with tail := tail } := by
  simp only [ringBell]
  rw [if_neg (by rcases hstate with h | h <;> simp [h]), if_neg (by omega)]

/-- A doorbell word that passes its checks gives its tail. -/
theorem doorbellCheck_passes {v : W64} (hv : fld v 63 32 = 0) (hstate : (queueOf s d q).state = .running ∨ (queueOf s d q).state = .stopped)
    (hring : (fld v 31 0 + 2 ^ 32 - (queueOf s d q).done) % 2 ^ 32 ≤ 2 ^ (queueOf s d q).log2) :
    doorbellCheck s d q v = .ok (fld v 31 0) := by
  have write : v ≠ BitVec.allOnes 64 := by rintro rfl; exact absurd hv (by decide)
  simp only [doorbellCheck]
  rw [if_neg write, if_neg (not_not.mpr hv), if_neg (by rcases hstate with h | h <;> simp [h]), if_neg (by omega)]

/-- Such a word, whole, is shown at once and held for the aperture writes before it. -/
theorem writeBell_passes {v : W64} (hv : fld v 63 32 = 0) (hstate : (queueOf s d q).state = .running ∨ (queueOf s d q).state = .stopped)
    (hring : (fld v 31 0 + 2 ^ 32 - (queueOf s d q).done) % 2 ^ 32 ≤ 2 ^ (queueOf s d q).log2) :
    writeBell s d (0x8000 + 8 * q, natLe 8 v.toNat, rep 8 true) =
      setPort (setBells s d (mput 0 (getBells s d) q v)) d
        { getPort s d with held := (getPort s d).held ++ [{ queue := q, tail := fld v 31 0, after := (getPort s d).drainNext }] } := by
  have place : (0x8000 + 8 * q - 0x8000) / 8 = q := by omega
  have whole (old : W64) : mergeWord old (natLe 8 v.toNat) (rep 8 true) = v :=
    (mergeWord_whole old (natLe_length 8 _)).trans (le64_natLe v)
  simp only [writeBell, place, whole, doorbellCheck_passes hv hstate hring]
  rfl

end

theorem drainedTo_iff {s : State} {d : DieId} {after : Nat} : drainedTo s d after = true ↔ ∀ i ∈ (getPort s d).drain, after ≤ i.serial := by
  simp [drainedTo]

/-- The oldest doorbell held takes effect once the aperture writes before it have drained. -/
theorem exec_doorbellTakesEffect {s : State} {d : DieId} {h : HeldBell} {rest : List HeldBell} (hh : (getPort s d).held = h :: rest) :
    exec (.doorbellTakesEffect d) s = event (s.board.powerOk && drainedTo s d h.after) s
      (ringBell (setPort s d { getPort s d with held := rest }) d h.queue h.tail) := by
  show execDoorbellTakesEffect d s = _
  simp only [execDoorbellTakesEffect, hh]

/-! ### Register slots (R43, Tables 2.6, 2.14) -/

/-- A slot burst that carries one word does what its slot's write does. -/
theorem slotBurst_oneWord {s : State} {d : DieId} {b : HostWrite} {k blk off : Nat} {v : W64} (hk : k < 4) (hoff : off < 0x200)
    (hword : off % 32 = 8 * k) (h : OneWord b k v) :
    (burstWords (0x400 + 0x400 * blk + (off - off % 32)) b).foldl (fun t w => writeSlotWord t d w) s = applySlot s d blk off v := by
  rw [foldl_burstWords_oneWord (fun t c => writeSlotWord_ones t d c) hk h, writeSlotWord_whole, le64_natLe]
  congr 1 <;> omega

/-- A slot write that is served does what its block does. -/
theorem applySlot_served {s : State} {d : DieId} {blk : Nat} {v : W64} (off : Nat) (hv : v ≠ BitVec.allOnes 64)
    (hs : Served s d blk) : applySlot s d blk off v = slotWrite s d blk off v := viaSlot_served _ hv hs.1 hs.2

/-- CTL and APT are served whenever the package has power. -/
theorem served_kindling {s : State} {d : DieId} {blk : Nat} (h : s.board.powerOk = true) (hb : blk = 0 ∨ blk = 6) : Served s d blk := by
  refine ⟨h, ?_⟩
  rcases hb with rfl | rfl <;> simp [slotServed]

/-- A write of an APT_BASEw that names a place in the package keeps its fields in that window's register. -/
theorem wrApt_base {s : State} {d : DieId} {off : Nat} {v : W64} (ho : off < 0x100) (hv : fld v 39 35 = 0) :
    wrApt s d off v = setHregs s d { getHregs s d with
      aptBase := mput 0 (getHregs s d).aptBase (off / 8) (keepBits v (maskOf 39 25 + maskOf 7 4 + 1)) } := by
  simp only [wrApt]
  rw [if_neg (by omega), if_neg (not_not.mpr hv)]

end Sys2Proof.Machine
end

section
/-! PROOFS. O10. -/

namespace Sys2Proof

open Machine

/-- Settles O10: only the one word of such a burst is a write; a held doorbell's checks are made once more as it takes effect. -/
theorem doorbellAndRegisterSlotWrites : Obligations.DoorbellAndRegisterSlotWrites := by
  unfold Obligations.DoorbellAndRegisterSlotWrites
  refine ⟨⟨?_, ?_⟩, fun s ch => ⟨?_, applySlot_ones s ch, writeBell_ones s ch⟩⟩
  · intro s ch b k q v hk hq hqk hw hone hv hstate hring hwf
    have word : 0x8000 + 8 * (q - k) + 8 * k = 0x8000 + 8 * q := by omega
    refine ⟨_, (exec_doorbellWrite hw (regionOf_bells (by omega) (by omega))).trans (congrArg _
      ((foldl_burstWords_oneWord (fun t c => writeBell_ones t ch c) hk hone _ s).trans
        ((congrArg (fun a => writeBell s ch (a, _)) word).trans (writeBell_passes hv hstate hring)))), ?_, ?_, ?_, ?_⟩
    · simp
    · simpa using mget_mput_same (getBells s ch) q v hwf
    · intro r hr; simpa using mget_mput_other 0 (getBells s ch) v hr
    · exact ⟨{ queue := q, tail := fld v 31 0, after := (getPort s ch).drainNext }, by simp only [getPort_setPort], rfl, rfl, rfl⟩
  · intro s d h rest hp hh
    refine ⟨fun ⟨i, hi, hlt⟩ => ?_, fun hd hstate hring => ?_⟩
    · have waits : drainedTo s d h.after = false := by
        rw [Bool.eq_false_iff, ne_eq, drainedTo_iff]
        exact fun all => absurd (all i hi) (by omega)
      exact (exec_doorbellTakesEffect hh).trans (event_false _ _ (by simp [waits]))
    · refine ⟨_, (exec_doorbellTakesEffect hh).trans ((event_true _ _ (by simp [hp, drainedTo_iff.mpr hd])).trans
        (congrArg _ (ringBell_sets hstate hring))), ?_, queueOf_setQueue_running hstate, ?_, fun r hr => queueOf_setQueue_other _ _ _ hr⟩
      · simp [setQueue]
      · simp [setQueue]
  · intro b k blk off v hk hblk hoff hword hw hone
    have region : regionOf ch (0x400 + 0x400 * blk + (off - off % 32)) = .slots := regionOf_slots (by omega) (by omega) (by omega)
    refine ⟨_, (exec_registerSlotWrite hw region).trans (congrArg _ (slotBurst_oneWord hk hoff hword hone)), rfl, fun hv => ⟨?_, ?_, ?_⟩⟩
    · rintro rfl rfl hlo hhi
      rw [applySlot_served 0 hv (served_kindling hw.powerOk (.inl rfl))]
      have version : slotWrite s ch 0 0 v = setHregs s ch { getHregs s ch with version := keepBits v 0xFF } := if_pos ⟨hlo, hhi⟩
      rw [version]
      refine ⟨?_, rfl⟩
      simp [mirrorReg, lget]
    · rintro rfl hlow hfld hwf
      rw [applySlot_served off hv (served_kindling hw.powerOk (.inr rfl)), show slotWrite s ch 6 off v = wrApt s ch off v from rfl,
        wrApt_base hlow hfld]
      constructor
      · simp only [mirrorReg, getHregs_setHregs]
        rw [if_pos (by omega), mget_mput_same _ _ _ hwf]
      · rw [getHregs_setHregs]
    · rintro (⟨rfl, rfl⟩ | ⟨rfl, hhigh⟩)
      · exact applySlot_served 8 hv (served_kindling hw.powerOk (.inl rfl))
      · exact (applySlot_served off hv (served_kindling hw.powerOk (.inr rfl))).trans (if_pos hhigh)

end Sys2Proof
end

section
/-! PROOFS. The aperture and the relay (R44 to R47, R50 to R53, R360, R361): dropped writes, the drain, forwarded words and D0's copies. -/

namespace Sys2Proof.Machine

/-! ### Dropped writes (R47) -/

/-- A dropped write counts in APT_STATUS, may make an entry, and leaves the drain. -/
theorem dropWrite_leaves (s : State) (d : DieId) (w : Nat) (base : W64) (dark : Bool) :
    dropWrite s d w base dark = setLog (setPort (setHregs s d (getHregs (dropWrite s d w base dark) d)) d
      (getPort (dropWrite s d w base dark) d)) d (getLog (dropWrite s d w base dark) d) ∧
    (getPort (dropWrite s d w base dark) d).drain = (getPort s d).drain ∧
    (getHregs (dropWrite s d w base dark) d).aptStatus =
      if dark then bumpFld (getHregs s d).aptStatus 31 16 1 else bumpFld (getHregs s d).aptStatus 15 0 1 := by
  unfold dropWrite; dsimp only
  refine iteInduction (motive := fun t => t = setLog (setPort (setHregs s d (getHregs t d)) d (getPort t d)) d (getLog t d) ∧
    (getPort t d).drain = (getPort s d).drain ∧ (getHregs t d).aptStatus =
      if dark then bumpFld (getHregs s d).aptStatus 31 16 1 else bumpFld (getHregs s d).aptStatus 15 0 1) (fun _ => ?_) (fun _ => ?_)
  · refine ⟨?_, by simp, by simp⟩
    rw [getHregs_setHregs]
    exact (setLog_getLog _ d).symm.trans (congrArg (fun t => setLog t d (getLog s d)) (setPort_getPort _ d).symm)
  · simp [logEntry]

theorem dropWrite_drain (s : State) (d : DieId) (w : Nat) (base : W64) (dark : Bool) :
    (getPort (dropWrite s d w base dark) d).drain = (getPort s d).drain := (dropWrite_leaves s d w base dark).2.1

/-- A write dropped for a dark cord. -/
theorem dropWrite_dark (s : State) (d : DieId) (w : Nat) (base : W64) :
    fld (getHregs (dropWrite s d w base true) d).aptStatus 31 16 = min (fld (getHregs s d).aptStatus 31 16 + 1) 0xFFFF := by
  rw [(dropWrite_leaves s d w base true).2.2, if_pos rfl]
  exact fld_bumpFld _ _ _ _ (by omega) (by omega)

/-- A write dropped for a window that is not valid. -/
theorem dropWrite_invalid (s : State) (d : DieId) (w : Nat) (base : W64) :
    fld (getHregs (dropWrite s d w base false) d).aptStatus 15 0 = min (fld (getHregs s d).aptStatus 15 0 + 1) 0xFFFF := by
  rw [(dropWrite_leaves s d w base false).2.2, if_neg (by simp)]
  exact fld_bumpFld _ _ _ _ (by omega) (by omega)

theorem memByte_dropWrite (s : State) (d : DieId) (w : Nat) (base : W64) (dark : Bool) (a : Nat) :
    memByte (dropWrite s d w base dark) a = memByte s a := by
  rw [(dropWrite_leaves s d w base dark).1]; rfl

/-! ### Requests and answers at a die's ends (R361, R364) -/

/-- Operations that each change a die's cord ends only do so together. -/
theorem foldl_setEnds {α : Type} {f : State → α → State} {d : DieId} (hf : ∀ t x, f t x = setEnds t d (getEnds (f t x) d)) (l : List α)
    (s : State) : l.foldl f s = setEnds s d (getEnds (l.foldl f s) d) := by
  induction l generalizing s with
  | nil => simp
  | cons x r ih =>
    refine (ih (f s x)).trans ?_
    rw [List.foldl_cons]
    generalize getEnds (r.foldl f (f s x)) d = e
    rw [hf s x, setEnds_setEnds]

theorem askDie_ends (d : DieId) (s : State) (x : AskFor) : askDie d s x = setEnds s d (getEnds (askDie d s x) d) := by
  simp only [askDie]
  repeat' split
  all_goals simp [setEnd]

/-- Answers accepted by a unit leave its die's ends only. -/
theorem dropAnswers_ends (d : DieId) (s : State) (l : List AskFor) :
    dropAnswers d s l = setEnds s d (getEnds (dropAnswers d s l) d) :=
  foldl_setEnds (fun t x => by simp [dropAnswer, setEnd]) l s

/-! ### The drain (R46, R47) -/

section
variable {s : State} {d : DieId} {i : DrainItem} (hp : s.board.powerOk = true)
include hp

theorem exec_apertureDrain_failed (hx : failedDrain s d = some i) : exec (.apertureDrain d) s =
    .next (dropWrite (dropAnswers d (dropDrain s d i.serial) (drainAsks i)) d i.window i.base true) := by
  show execApertureDrain d s = _
  simp only [execApertureDrain, hx]
  exact event_true _ _ hp

variable (hx : failedDrain s d = none) (hi : (getPort s d).drain.find? (fun x => !x.sent) = some i)
include hx hi

theorem exec_apertureDrain_home (hd : dieOf i.pa = d) (hw : rowWaits s i.pa 64 = false) :
    exec (.apertureDrain d) s = .next (writeCells (dropDrain s d i.serial) i.cells) := by
  show execApertureDrain d s = _
  simp only [execApertureDrain, hx, hi]
  exact (event_true _ _ (by simp [hp, hd, hw])).trans (congrArg _ (if_pos hd))

variable (hd : dieOf i.pa ≠ d) (hroom : slotsTaken (endOf s d (endTo d (dieOf i.pa))) + (drainAsks i).length ≤ 1024)
include hd hroom

theorem exec_apertureDrain_dark (hc : hop s d (dieOf i.pa) = .dark) :
    exec (.apertureDrain d) s = .next (dropWrite (dropDrain s d i.serial) d i.window i.base true) := by
  show execApertureDrain d s = _
  simp only [execApertureDrain, hx, hi]
  exact (event_true _ _ (by simp [hp, hd, hroom])).trans (congrArg _ ((if_neg hd).trans (if_pos hc)))

theorem exec_apertureDrain_sent (hc : hop s d (dieOf i.pa) ≠ .dark) (hn : i.cells ≠ []) :
    exec (.apertureDrain d) s = .next (setPort ((drainAsks i).foldl (askDie d) s) d { getPort s d with
      drain := (getPort s d).drain.map (fun x => if x.serial = i.serial then { x with sent := true } else x) }) := by
  show execApertureDrain d s = _
  simp only [execApertureDrain, hx, hi]
  exact (event_true _ _ (by simp [hp, hd, hroom])).trans
    (congrArg _ ((if_neg hd).trans ((if_neg hc).trans (if_neg (by simpa using hn)))))

end

/-- Bytes written read back. -/
theorem memRead_writeCells {s : State} (h : Memory.wf s.mem) (pa : Nat) (bytes : List Byte) :
    memRead (writeCells s (cellsAt pa bytes)) pa bytes.length = bytes := by
  have len : (memRead (writeCells s (cellsAt pa bytes)) pa bytes.length).length = bytes.length := by
    simp [memRead, countUp_eq_range']
  refine List.ext_getElem len fun k _ hk => ?_
  simp only [memRead, countUp_eq_range', List.getElem_map, List.getElem_range', Nat.one_mul]
  exact memByte_memWrite s pa bytes k hk h

/-! ### Relayed words (R44, R51, R53) -/

theorem exec_relayWrite {s : State} {b : HostWrite} {a : Nat} {n : DieId} {off : Nat} (h : PortWrite s 0 b a)
    (hr : regionOf 0 a = .relay n off) : exec (.relayWrite b) s =
      .next (if s.frozen.testBit n.val then (if b.mask.isEmpty && b.data.all (fun x => x == 0xFF) then s else countDiscard s 0)
        else (burstWords off b).foldl (relayWriteWord n) s) := by
  show execRelayWrite b s = _
  rw [execRelayWrite, hostWrite_region h (by simp [hr]), writeRegion, hr]

/-- Words to a relay block join its die's forwards in order, those with an enabled byte. -/
theorem foldl_relayWriteWord (n : DieId) (words : List (Nat × List Byte × List Bool)) (s : State) :
    words.foldl (relayWriteWord n) s = setForwards s n (getForwards s n ++ (words.filter (fun w => w.2.2.any id)).map
      (fun w => { off := w.1, value := le64 w.2.1, enable := w.2.2, after := (getPort s 0).drainNext })) := by
  induction words generalizing s with
  | nil => simp
  | cons w r ih =>
    rw [List.foldl_cons, ih]
    by_cases hw : w.2.2.any id = true
    · rw [List.filter_cons, if_pos hw, relayWriteWord, if_neg (not_not.mpr hw)]
      simp
    · rw [List.filter_cons, if_neg hw, relayWriteWord, if_pos hw]

/-- A forwarded word that does not wait acts at its die, or finds the cord gone. -/
theorem exec_relayForwardApply {s : State} {d : DieId} {x : Forward} {rest : List Forward} (hp : s.board.powerOk = true)
    (hf : getForwards s d = x :: rest) (hw : cordWaits s 0 d = false) (hb : regionOf d x.off = .bells → drainedTo s 0 x.after = true) :
    exec (.relayForwardApply d) s = .next (if reach s 0 d then applyForward (setForwards s d rest) d x
      else if forwardNoWrite x then setForwards s d rest else countDiscard (setForwards s d rest) 0) := by
  show execRelayForwardApply d s = _
  simp only [execRelayForwardApply, hf]
  refine event_true _ _ ?_
  by_cases bell : regionOf d x.off = .bells
  · simp [hp, hw, hb bell]
  · simp [hp, hw, bell]

/-- A whole word forwarded to a register slot is that slot's write. -/
theorem applyForward_slot {s : State} {d : DieId} {x : Forward} {blk off : Nat} (hblk : blk < 19) (hoff : off < 0x200)
    (hx : x.off = 0x400 + 0x400 * blk + off) (he : x.enable = rep 8 true) : applyForward s d x = applySlot s d blk off x.value := by
  have region : regionOf d x.off = .slots := regionOf_slots (by omega) (by omega) (by omega)
  simp only [applyForward, region, he]
  rw [writeSlotWord_whole, le64_natLe]
  congr 1 <;> omega

/-- A whole word forwarded to a doorbell, within its ring, is shown and becomes the queue's tail. -/
theorem applyForward_bell {s : State} {d : DieId} {x : Forward} {q : Nat} (hq : q < 4096) (hx : x.off = 0x8000 + 8 * q)
    (he : x.enable = rep 8 true) (hv : fld x.value 63 32 = 0)
    (hstate : (queueOf s d q).state = .running ∨ (queueOf s d q).state = .stopped)
    (hring : (fld x.value 31 0 + 2 ^ 32 - (queueOf s d q).done) % 2 ^ 32 ≤ 2 ^ (queueOf s d q).log2) :
    applyForward s d x = setQueue (setBells s d (mput 0 (getBells s d) q x.value)) d q
      { queueOf s d q with tail := fld x.value 31 0 } := by
  have region : regionOf d x.off = .bells := regionOf_bells (by omega) (by omega)
  have place : (x.off - 0x8000) / 8 = q := by omega
  have whole (old : W64) : mergeWord old (natLe 8 x.value.toNat) (rep 8 true) = x.value :=
    (mergeWord_whole old (natLe_length 8 _)).trans (le64_natLe x.value)
  simp only [applyForward, region, he, place, whole, doorbellCheck_passes hv hstate hring]
  exact ringBell_sets hstate hring

/-! ### D0's copies (R50, R53) -/

/-- The completion slots gathered from a table of queues. -/
theorem mget_foldl_slots {m : Map Queue} (hm : mwf queueFree m = true) (q : Nat) {c : Map W64} (hc : mwf 0 c = true) :
    mget 0 (m.foldl (fun c e => mput 0 c e.1 e.2.slot) c) q = ((mfind m q).map Queue.slot).getD (mget 0 c q) := by
  induction m generalizing c with
  | nil => rfl
  | cons e r ih =>
    obtain ⟨k, x⟩ := e
    rw [List.foldl_cons, ih (mwf_tail hm) (mput_mwf c k x.slot hc)]
    by_cases hk : k = q
    · subst hk
      rw [mfind_none_of_lt r (mwf_lt hm), mfind, if_pos rfl]
      exact mget_mput_same c k x.slot hc
    · rw [mfind, if_neg hk, mget_mput_other 0 c x.slot (Ne.symm hk)]

theorem copyOf_slot {s : State} {d : DieId} (h : mwf queueFree (getQueues s d) = true) (q : Nat) :
    mget 0 (copyOf s d).slots q = (queueOf s d q).slot := by
  refine (mget_foldl_slots h q rfl).trans ?_
  show ((mfind (getQueues s d) q).map Queue.slot).getD 0 = ((mfind (getQueues s d) q).getD queueFree).slot
  cases mfind (getQueues s d) q <;> rfl

/-- A set bit taken out of a number. -/
theorem testBit_sub_two_pow {n k : Nat} (h : n.testBit k = true) (i : Nat) : (n - 2 ^ k).testBit i = (n.testBit i && decide (i ≠ k)) := by
  have one : (n >>> k) % 2 ^ 1 = 1 := by
    rw [Nat.testBit_eq_decide_div_mod_eq] at h
    rw [Nat.shiftRight_eq_div_pow]; simpa using h
  have clear := testBit_replace n k 1 0 i (by omega)
  rw [one, Nat.one_mul, Nat.zero_mul, Nat.add_zero, Nat.zero_testBit] at clear
  rw [clear]
  split_ifs with h1 h2
  · simp [show i ≠ k by omega]
  · simp [show i = k by omega]
  · simp [show i ≠ k by omega]

end Sys2Proof.Machine
end

section
/-! PROOFS. O8. -/

namespace Sys2Proof

open Machine

/-- Settles O8: writes to the aperture and to relay blocks join the drain and the forwards or are dropped, and what leaves these acts by its
own equation. -/
theorem apertureWritesAndRelay : Obligations.ApertureWritesAndRelay := by
  unfold Obligations.ApertureWritesAndRelay
  refine ⟨⟨?_, ?_⟩, ?_, ?_, ?_⟩
  · intro s ch b a hw ha w base pa
    have arrives := exec_apertureWrite hw (regionOf_aperture ha)
    refine ⟨fun hv hc => ?_, fun hv => ?_, fun hv hc => ?_⟩
    · have queued : writeAperture s ch a b = setPort s ch { getPort s ch with
          drain := (getPort s ch).drain ++ [{ window := w, base := base, pa := pa, cells := enabledBytes pa b
                                              serial := (getPort s ch).drainNext, sent := false }]
          drainNext := (getPort s ch).drainNext + 1 } := (if_neg (not_not.mpr hv)).trans (if_neg (not_not.mpr hc))
      refine ⟨_, arrives.trans (congrArg _ queued), ?_, _, by rw [getPort_setPort], rfl, rfl, rfl, rfl, rfl, fun x => mem_enabledBytes⟩
      rw [getPort_setPort]
    · have dropped : writeAperture s ch a b = dropWrite s ch w base false := if_pos (Bool.eq_false_iff.mp hv)
      obtain ⟨frame, drain, _⟩ := dropWrite_leaves s ch w base false
      exact ⟨_, arrives.trans (congrArg _ dropped), dropWrite_invalid s ch w base, frame, drain⟩
    · have dropped : writeAperture s ch a b = dropWrite s ch w base true :=
        (if_neg (not_not.mpr hv)).trans (if_pos (Bool.eq_false_iff.mp hc))
      obtain ⟨frame, drain, _⟩ := dropWrite_leaves s ch w base true
      exact ⟨_, arrives.trans (congrArg _ dropped), dropWrite_dark s ch w base, frame, drain⟩
  · intro s d i hp hi
    refine ⟨fun x hx => ?_, fun hx hd hw => ?_, fun hx hd hn hroom => ⟨fun hc => ?_, fun hc => ?_⟩⟩
    · have ends := dropAnswers_ends d (dropDrain s d x.serial) (drainAsks x)
      refine ⟨_, exec_apertureDrain_failed hp hx, ?_, ?_, fun a => ?_⟩
      · rw [dropWrite_drain, ends]; simp [dropDrain]
      · rw [dropWrite_dark, ends]; simp [dropDrain]
      · rw [memByte_dropWrite, ends]; rfl
    · have drain : (getPort (writeCells (dropDrain s d i.serial) i.cells) d).drain =
          (getPort s d).drain.filter (fun x => !(x.serial == i.serial)) :=
        congrArg HostPort.drain (getPort_setPort s d _)
      refine ⟨_, exec_apertureDrain_home hp hx hi hd hw, drain, fun x hcells => writeCells_other _ _ x hcells, ?_, ?_⟩
      · intro hwf pa bytes hcells
        rw [hcells]
        exact memRead_writeCells hwf pa bytes
      · rw [drain]; rfl
    · have ends := foldl_setEnds (askDie_ends d) (drainAsks i) s
      refine ⟨_, exec_apertureDrain_sent hp hx hi hd hroom hc hn, ?_, ?_, fun x => ?_⟩
      · rw [getPort_setPort]
      · rw [getPort_setPort]
      · rw [ends]; rfl
    · refine ⟨_, exec_apertureDrain_dark hp hx hi hd hroom hc, ?_, ?_, fun x => ?_⟩
      · rw [dropWrite_drain]; simp [dropDrain]
      · rw [dropWrite_dark]; simp [dropDrain]
      · rw [memByte_dropWrite]; rfl
  · intro s b a n off hw hr
    have arrives := exec_relayWrite hw hr
    refine ⟨fun hz hb => ?_, fun hz hm hd => ?_, fun hz => ?_⟩
    · refine ⟨_, arrives.trans (congrArg _ ((if_pos hz).trans (if_neg ?_))), countDiscard_discarded s 0⟩
      simpa using hb
    · refine arrives.trans (congrArg _ ((if_pos hz).trans (if_pos ?_)))
      simpa [hm] using hd
    · refine ⟨_, arrives.trans (congrArg _ ((if_neg (by simp [hz])).trans (foldl_relayWriteWord n _ s))), ?_, ?_⟩ <;>
        rw [getForwards_setForwards]
  · intro s d x rest hp hf hw
    refine ⟨fun blk off hc hblk hoff hx he => ?_, fun q hc hq hx he hd hv hstate hring hbells hqueues => ?_, fun hc hb => ?_⟩
    · have region : regionOf d x.off = .slots := regionOf_slots (by omega) (by omega) (by omega)
      exact ⟨_, (exec_relayForwardApply hp hf hw (by simp [region])).trans (congrArg _ (if_pos hc)), applyForward_slot hblk hoff hx he⟩
    · refine ⟨_, (exec_relayForwardApply hp hf hw (fun _ => drainedTo_iff.mpr hd)).trans (congrArg _ ((if_pos hc).trans
        (applyForward_bell hq hx he hv hstate hring))), ?_, queueOf_setQueue_running hstate, ?_⟩
      · simpa [setQueue] using mget_mput_same (getBells s d) q x.value hbells
      · simp [setQueue]
    · refine ⟨_, (exec_relayForwardApply hp hf hw (fun h => absurd h hb)).trans (congrArg _ (if_neg (by simp [hc]))),
        fun hno => if_pos hno, fun hno => ?_⟩
      rw [if_neg (by simp [hno])]
      exact countDiscard_discarded _ 0
  · intro s d hp hd hc
    refine ⟨fun hz => ?_, fun hz hfence => ?_⟩
    · refine ⟨_, event_true _ _ (by simp [hp, hd, hc, hz]), rfl, fun q hq => ?_⟩
      rw [getRelay_setRelay]; exact copyOf_slot hq q
    · refine ⟨_, event_true _ _ (by simp [hp, hd, hc, hz, hfence]), rfl, ?_, fun e he => ?_⟩
      · rw [testBit_sub_two_pow hz]; simp
      · rw [testBit_sub_two_pow hz]; simp [Fin.val_ne_of_ne he]

end Sys2Proof
end
section
/-! PROOFS. The package tables' laws (R54 to R71): what a read for a command leaves, a tenant, a context or an object put into the tables, and
the words that report a command's end. -/

namespace Sys2Proof.Machine

/-! ### What a read for a command leaves (R289, R292, R449) -/

theorem ReadOnly.refl (s : State) : ReadOnly s s := rfl

theorem ReadOnly.trans {s u v : State} (h1 : ReadOnly s u) (h2 : ReadOnly u v) : ReadOnly s v := by
  unfold ReadOnly at *; rw [h2, h1]

theorem ReadOnly.looked {s u : State} (h : ReadOnly s u) : Looked s u := by
  unfold ReadOnly at h; rw [h]; rfl

theorem ReadOnly.memByte {s u : State} (h : ReadOnly s u) (a : Nat) : memByte u a = memByte s a := h.looked.memByte a

/-- A look-up leaves the tables. -/
theorem Looked.tables {s u : State} (h : Looked s u) : u.tables = s.tables := by
  unfold Looked at h; rw [h]

/-- A look-up leaves the registers of the host's blocks. -/
theorem Looked.hregs {s u : State} (h : Looked s u) : u.hregs = s.hregs := by
  unfold Looked at h; rw [h]

theorem Looked.tenantOf {s u : State} (h : Looked s u) (d : DieId) (t : Nat) : tenantOf u d t = tenantOf s d t := by
  unfold Looked at h; rw [h]; rfl

theorem noteRead_readOnly (s : State) (pa n : Nat) : ReadOnly s (noteRead s pa n) := by
  obtain ⟨m, p, l, h⟩ := noteRead_frame s pa n
  rw [h]; rfl

/-- A read that gives its bytes has met the memory side and nothing else. -/
theorem readFor_some {s u : State} {d : DieId} {pa n : Nat} {b : List Byte} (h : readFor s d pa n = (some b, u)) :
    ReadOnly s u := by
  unfold readFor at h
  split at h
  · cases h
  · split at h
    · cases h
    · obtain rfl : noteRead s pa n = u := congrArg Prod.snd h
      exact noteRead_readOnly s pa n

theorem readFor_looked (s : State) (d : DieId) (pa n : Nat) : Looked s (readFor s d pa n).2 := by
  unfold readFor; split
  · exact Looked.refl s
  · split
    · exact (noteLate_readsTables s d _).looked
    · exact (noteRead_readOnly s pa n).looked

/-- A tenant's record was read and kept its checks, in the state asked for. -/
theorem readTenant_some {s u : State} {base : W64} {t : Nat} {st : TState} {x : Tenant} (h : readTenant s base t st = (some x, u)) :
    ReadOnly s u ∧ x.state = st := by
  obtain ⟨hx, hu⟩ := Prod.ext_iff.mp h
  obtain ⟨b, hb, hr⟩ := Option.bind_eq_some_iff.mp hx
  refine ⟨readFor_some (Prod.ext hb hu), ?_⟩
  unfold tenantRecord at hr; dsimp only at hr
  split at hr
  · cases hr; rfl
  · cases hr

theorem readTenant_looked {s u : State} {base : W64} {t : Nat} {st : TState} {o : Option Tenant} (h : readTenant s base t st = (o, u)) :
    Looked s u := by
  obtain rfl : (readFor s 0 (fld base 39 12 * 4096 + 64 * t) 64).2 = u := congrArg Prod.snd h
  exact readFor_looked s 0 _ 64

/-! ### Lists -/

theorem lget_lset_same {α : Type} (x : α) {l : List α} {i : Nat} (y : α) (h : i < l.length) : lget x (lset l i y) i = y := by
  induction l generalizing i with
  | nil => simp at h
  | cons z r ih => cases i with
    | zero => rfl
    | succ i => exact ih (by simpa using h)

theorem lget_lset_other {α : Type} {x : α} {l : List α} {i j : Nat} (y : α) (h : j ≠ i) : lget x (lset l i y) j = lget x l j := by
  induction l generalizing i j with
  | nil => rfl
  | cons z r ih =>
    rcases i with _ | i <;> rcases j with _ | j
    · exact absurd rfl h
    · rfl
    · rfl
    · exact ih fun hj => h (by rw [hj])

/-! ### The tables (R55, R369) -/

/-- A die in step takes a change of the tables. -/
theorem getTables_changeTables {s : State} {d : DieId} (f : Tables → Tables) (h : inStep s d = true) :
    getTables (changeTables s f) d = { f (getTables s d) with stateGen := (tabs s).stateGen + 1 } :=
  (qget_qmap _ s.tables d).trans (if_pos h)

/-- D0 reads the tenant put into the tables. -/
theorem tenantOf_putTenant_same {s : State} {t : Nat} (x : Tenant) (h : t < (getTables s 0).tenants.length) :
    tenantOf (putTenant s t x) 0 t = x := lget_lset_same _ x h

theorem tenantOf_putTenant_other {s : State} {t k : Nat} (x : Tenant) (h : k ≠ t) :
    tenantOf (putTenant s t x) 0 k = tenantOf s 0 k := lget_lset_other x h

end Sys2Proof.Machine
end
section
/-! PROOFS. O11. -/

namespace Sys2Proof.Machine

/-! ### Writes of the table base registers (R54, R58, R59) -/

/-- The writes of the three table base registers, each with its block of registers. -/
def baseWrites (d : DieId) (v : W64) : List (Instr × Nat) := [(.tenTableWrite d v, 3), (.ctxTableWrite d v, 4), (.objTableWrite d v, 5)]

/-- On D1 to D3 each is an ignored write. -/
theorem exec_baseWrite_other {s : State} {d : DieId} {v : W64} {x : Instr × Nat} (hx : x ∈ baseWrites d v) (hs : Served s d x.2)
    (hv : v ≠ BitVec.allOnes 64) (hd : d ≠ 0) : exec x.1 s = .next (countDiscard s d) := by
  obtain ⟨power, served⟩ := hs
  simp only [baseWrites, List.mem_cons, List.not_mem_nil, or_false] at hx
  rcases hx with rfl | rfl | rfl <;>
    exact congrArg Host.Outcome.next ((viaSlot_served _ hv power served).trans (onD0_other s d _ hd))

section
variable {s : State} {v : W64} (hv : v ≠ BitVec.allOnes 64)
include hv

theorem exec_tenTableWrite (h : Served s 0 3) : exec (.tenTableWrite 0 v) s = .next (wrTenTable s v) :=
  congrArg Host.Outcome.next (viaSlot_served _ hv h.1 h.2)

theorem exec_ctxTableWrite (h : Served s 0 4) : exec (.ctxTableWrite 0 v) s = .next (wrCtxTable s v) :=
  congrArg Host.Outcome.next (viaSlot_served _ hv h.1 h.2)

theorem exec_objTableWrite (h : Served s 0 5) : exec (.objTableWrite 0 v) s = .next (wrObjTable s v) :=
  congrArg Host.Outcome.next (viaSlot_served _ hv h.1 h.2)

end

section
variable {s : State} {v : W64} (hb : baseBad v = false)
include hb

/-- While a tenant of 1 to 15 is not DISABLED, TEN_TABLE is not written. -/
theorem wrTenTable_inUse (h : ∃ t ∈ (getTables s 0).tenants.tail, t.state ≠ .disabled) : wrTenTable s v = countDiscard s 0 := by
  have used : (tabs s).tenants.tail.any (fun t => !(t.state == .disabled)) = true := by
    obtain ⟨t, ht, hst⟩ := h
    exact List.any_eq_true.mpr ⟨t, ht, by simpa using hst⟩
  simp only [wrTenTable, hb, used]; rfl

section
variable (h : ∀ t ∈ (getTables s 0).tenants.tail, t.state = .disabled)
include h

/-- While they are DISABLED, tenant 0 follows the base: its record's fields, or every maximum. -/
theorem wrTenTable_unused : wrTenTable s v = if bit v 0 then
      match readTenant s v 0 .enabled with
      | (some t, u) => setHregs (putTenant u 0 t) 0 { getHregs s 0 with tenTable := baseStored v }
      | (none, u) => countDiscard u 0
    else setHregs (putTenant s 0 tenantMax) 0 { getHregs s 0 with tenTable := baseStored v } := by
  have unused : (tabs s).tenants.tail.any (fun t => !(t.state == .disabled)) = false := by
    rw [List.any_eq_false]; intro t ht
    have := h t ht
    simp [this]
  simp only [wrTenTable, hb, unused]; rfl

theorem wrTenTable_noRecords (hb0 : bit v 0 = false) :
    wrTenTable s v = setHregs (putTenant s 0 tenantMax) 0 { getHregs s 0 with tenTable := baseStored v } := by
  rw [wrTenTable_unused hb h, hb0]; rfl

theorem wrTenTable_record {x : Tenant} {u : State} (hb0 : bit v 0 = true) (hr : readTenant s v 0 .enabled = (some x, u)) :
    wrTenTable s v = setHregs (putTenant u 0 x) 0 { getHregs s 0 with tenTable := baseStored v } := by
  rw [wrTenTable_unused hb h, hb0, hr]; rfl

theorem wrTenTable_badRecord {u : State} (hb0 : bit v 0 = true) (hr : readTenant s v 0 .enabled = (none, u)) :
    wrTenTable s v = countDiscard u 0 := by
  rw [wrTenTable_unused hb h, hb0, hr]; rfl

end

theorem wrCtxTable_eq : wrCtxTable s v = if ∃ e ∈ (getTables s 0).contexts, e.2.state ≠ .free then countDiscard s 0
    else setHregs s 0 { getHregs s 0 with ctxTable := baseStored v } := by
  simp only [wrCtxTable, hb, List.any_eq_true, Bool.not_eq_true', beq_eq_false_iff_ne]; rfl

theorem wrObjTable_eq (ha : fld v 24 12 = 0) : wrObjTable s v = if ∃ e ∈ (getTables s 0).objects, e.2.state ≠ .free then countDiscard s 0
    else setHregs s 0 { getHregs s 0 with objTable := baseStored v } := by
  simp only [wrObjTable, hb, ha, List.any_eq_true, Bool.not_eq_true', beq_eq_false_iff_ne]; rfl

end

end Sys2Proof.Machine

namespace Sys2Proof

open Machine

/-- Settles O11: the write of each base register has one equation for each state of its table. -/
theorem tableBaseWrites : Obligations.TableBaseWrites := by
  unfold Obligations.TableBaseWrites
  intro s v served hv hbad hlen
  obtain ⟨ten, ctx, obj⟩ := served 0
  have tenant0 {u : State} (h : getTables u 0 = getTables s 0) : 0 < (getTables u 0).tenants.length := by rw [h, hlen]; decide
  have exec3 := exec_tenTableWrite hv ten
  refine ⟨fun off => ⟨fun hb => ?_, fun x u hb hr => ?_, fun u hb hr => ?_⟩, fun inUse => ?_, ?_, fun aligned => ?_, ?_⟩
  · refine ⟨_, exec3.trans (congrArg _ (wrTenTable_noRecords hbad off hb)), rfl, ?_, fun k hk => ?_, rfl⟩
    · exact tenantOf_putTenant_same _ (tenant0 rfl)
    · exact tenantOf_putTenant_other _ hk
  · have read := (readTenant_some hr).1
    have tables : getTables u 0 = getTables s 0 := congrArg (qget · 0) read.looked.tables
    refine ⟨read, _, exec3.trans (congrArg _ (wrTenTable_record hbad off hb hr)), rfl, ?_, fun k hk => ?_, rfl⟩
    · exact tenantOf_putTenant_same _ (tenant0 tables)
    · exact (tenantOf_putTenant_other _ hk).trans (read.looked.tenantOf 0 k)
  · exact ⟨readTenant_looked hr, _, exec3.trans (congrArg _ (wrTenTable_badRecord hbad off hb hr)), countDiscard_discarded u 0⟩
  · exact ⟨_, exec3.trans (congrArg _ (wrTenTable_inUse hbad inUse)), countDiscard_discarded s 0⟩
  · refine ⟨_, (exec_ctxTableWrite hv ctx).trans (congrArg _ (wrCtxTable_eq hbad)), ?_⟩
    split
    · exact countDiscard_discarded s 0
    · exact ⟨rfl, fun _ => rfl⟩
  · refine ⟨_, (exec_objTableWrite hv obj).trans (congrArg _ (wrObjTable_eq hbad aligned)), ?_⟩
    split
    · exact countDiscard_discarded s 0
    · exact ⟨rfl, fun _ => rfl⟩
  · intro d hd c hc
    obtain ⟨x, hx, rfl⟩ : ∃ x ∈ baseWrites d v, x.1 = c := by simpa [baseWrites, eq_comm] using hc
    have hs : Served s d x.2 := by
      obtain ⟨h3, h4, h5⟩ := served d
      simp only [baseWrites, List.mem_cons, List.not_mem_nil, or_false] at hx
      rcases hx with rfl | rfl | rfl
      · exact h3
      · exact h4
      · exact h5
    exact ⟨_, exec_baseWrite_other hx hs hv hd, countDiscard_discarded s d⟩

end Sys2Proof
end
section
/-! PROOFS. The laws of packed words: a word made of fields gives each of them back, and the result that every command reports (R57). -/

namespace Sys2Proof.Machine

/-! ### Words made of fields -/

/-- What fields add up to. -/
def fieldSum (fs : List (Nat × Nat)) : Nat := (fs.map fun f => f.1 * 2 ^ f.2).sum

theorem packFields_eq (fs : List (Nat × Nat)) : packFields fs = BitVec.ofNat 64 (fieldSum fs) := by
  have folded (acc : Nat) : fs.foldl (fun acc f => acc + f.1 * 2 ^ f.2) acc = acc + fieldSum fs := by
    induction fs generalizing acc with
    | nil => rfl
    | cons f r ih => rw [List.foldl_cons, ih]; simp [fieldSum, Nat.add_assoc]
  rw [packFields, folded, Nat.zero_add]

/-- Fields that begin at bit `n` or above add up to a multiple of `2 ^ n`. -/
theorem fieldSum_dvd {fs : List (Nat × Nat)} {n : Nat} (h : ∀ f ∈ fs, n ≤ f.2) : 2 ^ n ∣ fieldSum fs := by
  refine List.dvd_sum fun x hx => ?_
  obtain ⟨f, hf, rfl⟩ := List.mem_map.mp hx
  exact (Nat.pow_dvd_pow 2 (h f hf)).mul_left f.1

/-- A field between fields that lie below it and fields that begin above it. -/
theorem fld_packFields {below above : List (Nat × Nat)} (v : Nat) {hi lo : Nat} (hlo : lo ≤ hi) (hhi : hi < 64)
    (hb : fieldSum below < 2 ^ lo) (ha : ∀ f ∈ above, hi + 1 ≤ f.2) :
    fld (packFields (below ++ (v, lo) :: above)) hi lo = v % 2 ^ (hi + 1 - lo) := by
  obtain ⟨k, hk⟩ := fieldSum_dvd ha
  have sum : fieldSum (below ++ (v, lo) :: above) = fieldSum below + 2 ^ lo * (v + 2 ^ (hi + 1 - lo) * k) := by
    have split : 2 ^ (hi + 1) = 2 ^ lo * 2 ^ (hi + 1 - lo) := by rw [← Nat.pow_add]; congr 1; omega
    simp only [fieldSum, List.map_append, List.map_cons, List.sum_append, List.sum_cons] at hk ⊢
    rw [hk, split]; ring
  have narrow (x : Nat) : x % 2 ^ 64 / 2 ^ lo % 2 ^ (hi + 1 - lo) = x / 2 ^ lo % 2 ^ (hi + 1 - lo) := by
    apply Nat.eq_of_testBit_eq; intro j
    simp only [Nat.testBit_mod_two_pow, Nat.testBit_div_two_pow]
    by_cases hj : j < hi + 1 - lo
    · simp [hj, show j + lo < 64 by omega]
    · simp [hj]
  rw [fld, fldN, packFields_eq, BitVec.toNat_ofNat, Nat.shiftRight_eq_div_pow, narrow, sum,
    Nat.add_mul_div_left _ _ (Nat.two_pow_pos lo), Nat.div_eq_of_lt hb, Nat.zero_add, Nat.add_mul_mod_self_left]

/-! ### Command results (R57) -/

section
variable (old : W64) {status : Nat} {fs : List (Nat × Nat)}

theorem fld_cmdResult_seq (h : ∀ f ∈ fs, 24 ≤ f.2) : fld (cmdResult old status fs) 15 0 = (fld old 15 0 + 1) % 65536 := by
  have := fld_packFields (below := []) (above := (status, 16) :: fs) ((fld old 15 0 + 1) % 65536) (hi := 15) (lo := 0) (by decide) (by decide)
    (by decide) (by
      intro f hf
      rcases List.mem_cons.mp hf with rfl | hf
      · exact le_refl 16
      · exact le_trans (by decide) (h f hf))
  rw [cmdResult]; simpa using this

theorem fld_cmdResult_status (hs : status < 256) (h : ∀ f ∈ fs, 24 ≤ f.2) : fld (cmdResult old status fs) 23 16 = status := by
  have := fld_packFields (below := [((fld old 15 0 + 1) % 65536, 0)]) (above := fs) status (hi := 23) (lo := 16) (by decide) (by decide)
    (by simp only [fieldSum, List.map_cons, List.map_nil, List.sum_cons, List.sum_nil]; omega) h
  exact this.trans (Nat.mod_eq_of_lt hs)

/-- A field of the block's own, behind those that lie below it. -/
theorem fld_cmdResult_field (hs : status < 256) {below above : List (Nat × Nat)} {v hi lo : Nat} (hfs : fs = below ++ (v, lo) :: above)
    (hlo : lo ≤ hi) (hhi : hi < 64) (hb : fieldSum below + 2 ^ 24 ≤ 2 ^ lo) (ha : ∀ f ∈ above, hi + 1 ≤ f.2) :
    fld (cmdResult old status fs) hi lo = v % 2 ^ (hi + 1 - lo) := by
  have := fld_packFields (below := ((fld old 15 0 + 1) % 65536, 0) :: (status, 16) :: below) (above := above) v hlo hhi
    (by simp only [fieldSum, List.map_cons, List.sum_cons] at hb ⊢; omega) ha
  rw [cmdResult, hfs]; exact this

/-- The first field of the block's own. -/
theorem fld_cmdResult_first (hs : status < 256) {v hi : Nat} (hlo : 24 ≤ hi) (hhi : hi < 64) (h : ∀ f ∈ fs, hi + 1 ≤ f.2) :
    fld (cmdResult old status ((v, 24) :: fs)) hi 24 = v % 2 ^ (hi + 1 - 24) :=
  fld_cmdResult_field old hs (below := []) rfl hlo hhi (by decide) h

end

end Sys2Proof.Machine
end
section
/-! PROOFS. O14. -/

namespace Sys2Proof.Machine

/-! ### Queue commands (R72, R76 to R78) -/

/-- The fields of a command's result on queues lie above STATUS. -/
theorem qcpFields_high (a b c d : Nat) : ∀ f ∈ [(a, 24), (b, 36), (c, 40), (d, 48)], 24 ≤ f.2 := by simp

section
variable (s : State) (d : DieId) (q : Nat) {status : Nat} (hs : status < 256)
include hs

/-- A command on queue `q` has put `x` there and reported: SEQ and STATUS stand, and the other queues are as before. -/
theorem queueDone_setQueue (x : Queue) : QueueDone s (qcpDone (setQueue s d q x) d q status) d q status := by
  refine ⟨?_, ?_, fun k hk => ?_, ?_⟩
  · simpa [qcpDone] using fld_cmdResult_status _ hs (qcpFields_high _ _ _ _)
  · simpa [qcpDone, setQueue] using fld_cmdResult_seq _ (qcpFields_high _ _ _ _)
  · exact queueOf_setQueue_other s d x hk
  · simp [qcpDone, setQueue]

theorem queueDone_qcpDone : QueueDone s (qcpDone s d q status) d q status := by
  refine ⟨?_, ?_, fun k hk => rfl, ?_⟩
  · simpa [qcpDone] using fld_cmdResult_status _ hs (qcpFields_high _ _ _ _)
  · simpa [qcpDone] using fld_cmdResult_seq _ (qcpFields_high _ _ _ _)
  · have same : setQueues s d (getQueues (qcpDone s d q status) d) = s := by simp [setQueues, getQueues, qcpDone]
    rw [same]; simp [qcpDone]

end

theorem fld_qcpDone_queue (s : State) (d : DieId) (q : BitVec 12) : fld (getQregs (qcpDone s d q.toNat 0) d).result 35 24 = q.toNat := by
  rw [qcpDone, getQregs_setQregs]; dsimp only
  rw [fld_cmdResult_first _ (by decide) (by decide) (by decide) (by simp)]
  exact Nat.mod_eq_of_lt q.isLt

theorem fld_qcpDone_low (s : State) (d : DieId) (q status : Nat) :
    fld (getQregs (qcpDone s d q status) d).stats 31 0 = (queueOf s d q).low % 2 ^ 32 := by
  simpa [qcpDone] using fld_packFields (below := []) (above := [((queueOf s d q).timeouts, 32)]) (queueOf s d q).low
    (by decide : 0 ≤ 31) (by decide) (by decide) (by simp)

/-- Every record fetched and not handed out has returned to the ring (R76). -/
theorem returnToRing_all (q : Queue) : (returnToRing q fun _ => true).fetched = [] ∧ (returnToRing q fun _ => true).runs = q.runs ∧
    (returnToRing q fun _ => true).slot = q.slot := by
  rcases h : q.fetched with _ | ⟨r, rest⟩ <;> simp [returnToRing, h]

section
variable {s : State} {d : DieId} {q : BitVec 12} (h : Served s d 2)
include h

theorem exec_queueCreate (engine : BitVec 4) (header : BitVec 28) :
    exec (.queueCreate d q engine header) s = .next (cmdQueueCreate s d q.toNat engine.toNat header.toNat) :=
  congrArg Host.Outcome.next (viaSlot_served _ (by decide) h.1 h.2)

theorem exec_queueDestroy : exec (.queueDestroy d q) s = .next (cmdQueueDestroy s d q.toNat) :=
  congrArg Host.Outcome.next (viaSlot_served _ (by decide) h.1 h.2)

theorem exec_queueResume : exec (.queueResume d q) s = .next (cmdQueueResume s d q.toNat) :=
  congrArg Host.Outcome.next (viaSlot_served _ (by decide) h.1 h.2)

theorem exec_queueQuery : exec (.queueQuery d q) s = .next (qcpDone s d q.toNat 0) :=
  congrArg Host.Outcome.next (viaSlot_served _ (by decide) h.1 h.2)

end

section
variable {s : State} {d : DieId} {q : Nat}

theorem cmdQueueCreate_badState (engine header : Nat) (he : engine ≤ 12) (h : (queueOf s d q).state ≠ .free) :
    cmdQueueCreate s d q engine header = qcpDone s d q 1 := by
  rw [cmdQueueCreate, if_neg (by omega), if_pos (.inl h)]

/-- The queue that CREATE makes (Table 3.22). -/
def queueMade (engine c lg : Nat) (wd : Option Nat) (pa : Nat) : Queue :=
  { queueFree with state := .running, engine := engine, ctx := c, log2 := lg, wdogUs := wd, ring := pa }

theorem cmdQueueCreate_made {engine header : Nat} {b : List Byte} {c lg : Nat} {wd : Option Nat} {pa : Nat} {u : State} (he : engine ≤ 12)
    (hfree : (queueOf s d q).state = .free) (hfence : (engineOf s d engine).fenced = false)
    (hread : readFor s d (header * 4096) 64 = (some b, u)) (hhead : ringHeader b = some (c, lg, wd, pa)) (hlive : (ctxOf s d c).state = .live)
    (hdie : (ctxOf s d c).dieMask.testBit d.val = true) (hten : (tenantOf s d (ctxOf s d c).tenant).state = .enabled)
    (hquota : tenantQueues s d (ctxOf s d c).tenant < (tenantOf s d (ctxOf s d c).tenant).maxQueues) :
    cmdQueueCreate s d q engine header = qcpDone (setQueue u d q (queueMade engine c lg wd pa)) d q 0 := by
  have read : ReadOnly s u := readFor_some hread
  have ctx : ctxOf u d c = ctxOf s d c := by rw [ReadOnly] at read; rw [read]; rfl
  have tenant (t : Nat) : tenantOf u d t = tenantOf s d t := read.looked.tenantOf d t
  have queues (t : Nat) : tenantQueues u d t = tenantQueues s d t := by rw [ReadOnly] at read; rw [read]; rfl
  rw [cmdQueueCreate, if_neg (by omega), if_neg (by simp [hfree, hfence]), hread]
  dsimp only [Option.bind_some]
  rw [hhead]
  dsimp only
  rw [ctx, tenant, queues, if_neg (by simp [hlive]), if_neg (by simp [hdie]), if_neg (by simp [hten]), if_neg (by omega)]
  rfl

theorem cmdQueueDestroy_badState (h : (queueOf s d q).state = .free ∨ (queueOf s d q).state = .draining) :
    cmdQueueDestroy s d q = qcpDone s d q 1 := if_pos h

/-- What DESTROY leaves of a queue (R77). -/
def queueEnding (x : Queue) : Queue :=
  { returnToRing x (fun _ => true) with state := if x.runs = [] then .free else .draining }

theorem cmdQueueDestroy_ending (h : (queueOf s d q).state = .running ∨ (queueOf s d q).state = .stopped) (hr : queueResetting s d q = false) :
    cmdQueueDestroy s d q = qcpDone (setQueue s d q (queueEnding (queueOf s d q))) d q 0 := by
  have runs := (returnToRing_all (queueOf s d q)).2.1
  have stands : ¬ ((queueOf s d q).state = .free ∨ (queueOf s d q).state = .draining) := by rcases h with h | h <;> simp [h]
  rw [cmdQueueDestroy, if_neg stands, hr]
  by_cases hq : (queueOf s d q).runs = [] <;> simp [queueEnding, runs, hq]

theorem cmdQueueResume_badState (h : (queueOf s d q).state ≠ .stopped) : cmdQueueResume s d q = qcpDone s d q 1 := if_pos (.inl h)

theorem cmdQueueResume_running (h : (queueOf s d q).state = .stopped) (hf : (engineOf s d (queueOf s d q).engine).fenced = false)
    (hr : queueResetting s d q = false) : cmdQueueResume s d q = qcpDone (setQueue s d q { queueOf s d q with state := .running }) d q 0 := by
  rw [cmdQueueResume, if_neg (by simp [h, hf]), hr]; rfl

end

end Sys2Proof.Machine

namespace Sys2Proof

open Machine

/-- Settles O14: each command puts one queue, or none, and reports. -/
theorem queueCommands : Obligations.QueueCommands := by
  unfold Obligations.QueueCommands
  intro s d q served
  refine ⟨fun engine header b c lg wd pa u he hfree hfence hread hhead hlive hdie hten hquota => ?_, fun hstate engine header he => ?_,
    fun hstate hreset hwf => ?_, fun hstate => ?_, fun hstate hfence hreset => ?_, fun hstate => ?_, ?_⟩
  · have made : queueOf (setQueue u d q.toNat (queueMade engine.toNat c lg wd pa)) d q.toNat = queueMade engine.toNat c lg wd pa :=
      queueOf_setQueue_running (.inl rfl)
    refine ⟨readFor_some hread, _, (exec_queueCreate served engine header).trans (congrArg _
      (cmdQueueCreate_made he hfree hfence hread hhead hlive hdie hten hquota)), ?_⟩
    refine ⟨congrArg Queue.state made, congrArg Queue.engine made, congrArg Queue.ctx made, congrArg Queue.ring made, congrArg Queue.log2 made,
      congrArg Queue.head made, congrArg Queue.done made, congrArg Queue.slot made, queueDone_setQueue u d q.toNat (by decide) _⟩
  · exact ⟨_, (exec_queueCreate served engine header).trans (congrArg _ (cmdQueueCreate_badState _ _ he hstate)), rfl⟩
  · have ending : queueOf (setQueue s d q.toNat (queueEnding (queueOf s d q.toNat))) d q.toNat = queueEnding (queueOf s d q.toNat) :=
      queueOf_setQueue s d q.toNat _ hwf
    obtain ⟨fetched, runs, slot⟩ := returnToRing_all (queueOf s d q.toNat)
    refine ⟨_, (exec_queueDestroy served).trans (congrArg _ (cmdQueueDestroy_ending hstate hreset)), ?_⟩
    refine ⟨congrArg Queue.state ending, (congrArg Queue.fetched ending).trans fetched, (congrArg Queue.runs ending).trans runs,
      (congrArg Queue.slot ending).trans slot, queueDone_setQueue s d q.toNat (by decide) _⟩
  · exact ⟨_, (exec_queueDestroy served).trans (congrArg _ (cmdQueueDestroy_badState hstate)), rfl⟩
  · exact ⟨_, (exec_queueResume served).trans (congrArg _ (cmdQueueResume_running hstate hfence hreset)),
      queueOf_setQueue_running (.inl rfl), queueDone_setQueue s d q.toNat (by decide) _⟩
  · exact ⟨_, (exec_queueResume served).trans (congrArg _ (cmdQueueResume_badState hstate)), rfl⟩
  · exact ⟨_, exec_queueQuery served, queueDone_qcpDone s d q.toNat (by decide), rfl, fld_qcpDone_queue s d q, fld_qcpDone_low s d q.toNat 0⟩

end Sys2Proof
end
section
/-! PROOFS. The laws of frames, stokers and runs (R86 to R90, R101): what a frame, a stoker or a queue put into its die leaves, and what the
end of an operation leaves. -/

namespace Sys2Proof.Machine

/-! ### Frames and stokers put into their die -/

@[simp] theorem setStk_setStk (s : State) (d : DieId) (x y : StokerUnit) : setStk (setStk s d x) d y = setStk s d y := by simp [setStk]

@[simp] theorem setStk_getStk (s : State) (d : DieId) : setStk s d (getStk s d) = s := by simp [setStk, getStk]

@[simp] theorem setQueues_setQueues (s : State) (d : DieId) (x y : Map Queue) : setQueues (setQueues s d x) d y = setQueues s d y := by
  simp [setQueues]

@[simp] theorem setQueues_getQueues (s : State) (d : DieId) : setQueues s d (getQueues s d) = s := by simp [setQueues, getQueues]

@[simp] theorem length_lset {α : Type} (l : List α) (i : Nat) (x : α) : (lset l i x).length = l.length := by
  induction l generalizing i with
  | nil => rfl
  | cons y r ih => cases i with
    | zero => rfl
    | succ i => simp [lset, ih]

section
variable (s : State) (d : DieId) (f : Nat)

theorem setFrame_stk (x : Frame) : setFrame s d f x = setStk s d (getStk (setFrame s d f x) d) := by simp [setFrame]

@[simp] theorem length_setFrame (x : Frame) : (getStk (setFrame s d f x) d).frames.length = (getStk s d).frames.length := by
  simp [setFrame]

variable {s d f}

theorem frameOf'_setFrame_same (x : Frame) (h : f < (getStk s d).frames.length) : frameOf' (setFrame s d f x) d f = x := by
  rw [frameOf', setFrame, getStk_setStk]; exact lget_lset_same _ x h

theorem frameOf'_setFrame_other (x : Frame) {g : Nat} (h : g ≠ f) : frameOf' (setFrame s d f x) d g = frameOf' s d g := by
  rw [frameOf', setFrame, getStk_setStk]; exact lget_lset_other x h

variable (s d)

theorem frameOf'_setStoker (k : Nat) (x : Stoker) (g : Nat) : frameOf' (setStoker s d k x) d g = frameOf' s d g := by
  rw [frameOf', setStoker, getStk_setStk]; rfl

/-- A frame that becomes ready changes its stoker and itself (R89). -/
theorem readyFrame_cases (f : Nat) : readyFrame s d f = setFrame s d f { frameOf' s d f with park := .ready } ∨
    ∃ x, readyFrame s d f = setStoker (setFrame s d f { frameOf' s d f with park := .ready }) d (f / 4) x := by
  unfold readyFrame; dsimp only
  split
  · exact .inl rfl
  · exact .inr ⟨_, rfl⟩

theorem readyFrame_stk (f : Nat) : readyFrame s d f = setStk s d (getStk (readyFrame s d f) d) := by
  rcases readyFrame_cases s d f with h | ⟨x, h⟩ <;> rw [h] <;> simp [setFrame, setStoker]

variable {s d}

theorem frameOf'_readyFrame_same (h : f < (getStk s d).frames.length) :
    frameOf' (readyFrame s d f) d f = { frameOf' s d f with park := .ready } := by
  rcases readyFrame_cases s d f with e | ⟨x, e⟩ <;> rw [e]
  · exact frameOf'_setFrame_same _ h
  · rw [frameOf'_setStoker, frameOf'_setFrame_same _ h]

theorem frameOf'_readyFrame_other {g : Nat} (h : g ≠ f) : frameOf' (readyFrame s d f) d g = frameOf' s d g := by
  rcases readyFrame_cases s d f with e | ⟨x, e⟩ <;> rw [e]
  · exact frameOf'_setFrame_other _ h
  · rw [frameOf'_setStoker, frameOf'_setFrame_other _ h]

end

/-! ### Runs and operations (R73, R101) -/

theorem setQueue_queues (s : State) (d : DieId) (q : Nat) (x : Queue) :
    setQueue s d q x = setQueues s d (getQueues (setQueue s d q x) d) := by simp [setQueue]

section
variable (s : State) (d : DieId) (q count : Nat)

/-- A queue that stands put in the tables is read back. -/
theorem queueOf_setQueue_listed {x : Queue} (h : x ≠ queueFree) : queueOf (setQueue s d q x) d q = x := by
  rw [queueOf, setQueue, getQueues_setQueues]; exact mget_mput_listed _ q h

theorem opOver_queues (good : Bool) : opOver s d q count good = setQueues s d (getQueues (opOver s d q count good) d) := by
  cases good <;> simp [opOver, markStatus, updRun, setQueue]

variable {s d q count}

/-- A run's change reaches the run of its record. -/
theorem mem_updRun {f : RunRec → RunRec} {r : RunRec} (hr : r ∈ (queueOf s d q).runs) (hc : r.record.count = count) :
    f r ∈ (queueOf (updRun s d q count f) d q).runs := by
  have mem : f r ∈ (queueOf s d q).runs.map fun r => if r.record.count = count then f r else r :=
    List.mem_map.mpr ⟨r, hr, if_pos hc⟩
  unfold updRun; dsimp only
  rw [queueOf_setQueue_listed]
  · exact mem
  · intro h
    have gone : (queueOf s d q).runs.map (fun r => if r.record.count = count then f r else r) = [] := congrArg Queue.runs h
    simp [gone] at mem

/-- An operation stopped has left its record with one fewer out and a status (R73, R101). -/
theorem opEnded_opOver_stopped : OpEnded s (opOver s d q count false) d q count true := fun _ hr hc =>
  mem_updRun (mem_updRun hr hc) hc

/-- What a queue counts of lower signals stands through a run's change. -/
theorem low_updRun {f : RunRec → RunRec} (h : 0 < (queueOf s d q).low) : (queueOf (updRun s d q count f) d q).low = (queueOf s d q).low := by
  unfold updRun; dsimp only
  rw [queueOf_setQueue_listed]
  exact fun e => absurd (congrArg Queue.low e) (Nat.ne_of_gt h)

end

end Sys2Proof.Machine
end
section
/-! PROOFS. O16. -/

namespace Sys2Proof.Machine

/-! ### Words, poison and waits at a write (R80, R290) -/

theorem ReadOnly.memWord {s u : State} (h : ReadOnly s u) (pa : Nat) : memWord u pa = memWord s pa := by
  unfold ReadOnly at h; rw [h]; rfl

/-- A word written is read back. -/
theorem memWord_memWriteWord {s : State} (h : Memory.wf s.mem) (pa : Nat) (v : W64) : memWord (memWriteWord s pa v) pa = v := by
  have bytes := memRead_writeCells h pa (natLe 8 v.toNat)
  rw [natLe_length] at bytes
  rw [memWord, memNat, memWriteWord, memWrite, bytes, leNat_natLe, Nat.mod_eq_of_lt (lt_of_lt_of_eq v.isLt (by norm_num)),
    BitVec.ofNat_toNat, BitVec.setWidth_eq]

/-- A write poisons no chunk. -/
theorem poisonAfter_clean {p : Map Bool} {w : List Host.Cell} {k : Nat} (h : mget false p k = false) : mget false (poisonAfter p w) k = false := by
  unfold mget poisonAfter at *
  by_cases covered : ((countUp (64 * k) 64).all fun a => (mfind w a).isSome) = true
  · rw [mfind_filter_dropped _ fun _ => by simp [covered]]; rfl
  · rw [mfind_filter_kept _ fun _ => by simp [covered]]; exact h

theorem mfind_mmap {α β : Type} (f : Nat → α → β) (m : Map α) (k : Nat) : mfind (mmap f m) k = (mfind m k).map (f k) := by
  induction m with
  | nil => rfl
  | cons e r ih =>
    obtain ⟨j, v⟩ := e
    by_cases h : j = k
    · subst h; simp [mmap, mfind]
    · simpa [mmap, mfind, h] using ih

/-- A wait on the word written is satisfied by a value at or above its threshold. -/
theorem mfind_watches_met {s : State} {pa : Nat} {v : W64} {k : Nat} {w : Watch} (hwf : Memory.wf s.mem) (hp : poisonAt s pa = false)
    (hw : mfind s.watches k = some w) (hpa : w.pa = pa) (hmet : w.met = none) (hr : reach s w.die (dieOf pa) = true)
    (hv : (v - w.thr).msb = false) : mfind (memWriteWord s pa v).watches k = some { w with met := some v } := by
  have word : (BitVec.ofNat 64 (leNat ((countUp pa 8).map (mget 0 (putCells s.mem (cellsAt pa (natLe 8 v.toNat)))))) : W64) = v :=
    memWord_memWriteWord hwf pa v
  have named : ((cellsAt pa (natLe 8 v.toNat)).any fun e => decide (pa ≤ e.1) && decide (e.1 < pa + 8)) = true :=
    List.any_eq_true.mpr ⟨(pa, _), List.mem_cons_self, by simp⟩
  have clean := poisonAfter_clean (w := cellsAt pa (natLe 8 v.toNat)) hp
  change mfind (mmap (fun _ x => watchAfter s _ _ (cellsAt pa (natLe 8 v.toNat)) x) s.watches) k = _
  rw [mfind_mmap]
  simp only [hw, Option.map_some, watchAfter, hpa, word, named, clean, hmet, hr, hv]
  rfl

/-! ### Signals (R81, R97, R101) -/

section
variable {s : State} {pa : Nat} {v : W64}

theorem applySignal_above (h : 0 < (v - memWord s pa).toInt) : applySignal s pa v = (1, memWriteWord s pa v) := by
  have differ : v ≠ memWord s pa := by rintro e; simp [← e] at h
  have sign : (v - memWord s pa).msb = false := by rw [BitVec.msb_eq_toInt]; simpa using h.le
  rw [applySignal, if_neg differ, sign]; rfl

theorem applySignal_below (h : (v - memWord s pa).toInt < 0) : applySignal s pa v = (2, s) := by
  have differ : v ≠ memWord s pa := by rintro e; simp [← e] at h
  have sign : (v - memWord s pa).msb = true := by rw [BitVec.msb_eq_toInt]; simpa using h
  rw [applySignal, if_neg differ, sign]; rfl

theorem applySignal_equal (h : (v - memWord s pa).toInt = 0) : applySignal s pa v = (0, s) :=
  if_pos (sub_eq_zero.mp (BitVec.eq_of_toInt_eq (h.trans BitVec.toInt_zero.symm)))

/-- Without the value above, memory stays and the outcome is 0 or 2. -/
theorem applySignal_kept (h : (v - memWord s pa).toInt ≤ 0) : ∃ o ≤ 2, applySignal s pa v = (o, s) := by
  rcases h.lt_or_eq with h | h
  · exact ⟨2, le_refl 2, applySignal_below h⟩
  · exact ⟨0, by decide, applySignal_equal h⟩

end

/-- Two states differ in the queues and the stokers of one die only. -/
def RecordsOnly (d : DieId) (s t : State) : Prop := ∃ q k, t = setStk (setQueues s d q) d k

theorem recordsOnly_queues {d : DieId} {s t : State} (h : t = setQueues s d (getQueues t d)) : RecordsOnly d s t :=
  ⟨getQueues t d, getStk s d, h.trans (setStk_getStk _ d).symm⟩

theorem recordsOnly_stk {d : DieId} {s t : State} (h : t = setStk s d (getStk t d)) : RecordsOnly d s t :=
  ⟨getQueues s d, getStk t d, h.trans (by rw [setQueues_getQueues])⟩

theorem RecordsOnly.refl (d : DieId) (s : State) : RecordsOnly d s s := recordsOnly_stk (by simp)

theorem RecordsOnly.trans {d : DieId} {s t u : State} (h1 : RecordsOnly d s t) (h2 : RecordsOnly d t u) : RecordsOnly d s u := by
  obtain ⟨q, k, rfl⟩ := h1
  obtain ⟨q', k', rfl⟩ := h2
  exact ⟨q', k', by simp [setStk, setQueues]⟩

theorem recordsOnly_ite {c : Prop} [Decidable c] {d : DieId} {s t u : State} (ht : RecordsOnly d s t) (hu : RecordsOnly d s u) :
    RecordsOnly d s (if c then t else u) := by
  split
  · exact ht
  · exact hu

theorem RecordsOnly.memory {d : DieId} {s t : State} (h : RecordsOnly d s t) :
    t.mem = s.mem ∧ t.watches = s.watches ∧ t.signals = s.signals := by
  obtain ⟨q, k, rfl⟩ := h
  exact ⟨rfl, rfl, rfl⟩

/-- A parked instruction that completes changes the stokers only. -/
theorem wakeFrame_stk (s : State) (d : DieId) (f rd : Nat) (v : W32) : wakeFrame s d f rd v = setStk s d (getStk (wakeFrame s d f rd v) d) := by
  unfold wakeFrame; dsimp only
  split <;> rw [readyFrame_stk] <;> simp [setFrame]

/-- An applied signal's outcome reaches the record that sent it, and nothing else. -/
theorem signalDone_applied (s : State) (x : Signal) {o : Nat} (ho : o ≤ 2) : RecordsOnly x.src s (signalDone s x o) := by
  unfold signalDone; dsimp only
  have counted : RecordsOnly x.src s (if o = 2 then countLow s x.src x.queue else s) := by
    split
    · exact recordsOnly_queues (setQueue_queues s x.src _ _)
    · exact .refl _ s
  refine counted.trans ?_
  generalize (if o = 2 then countLow s x.src x.queue else s) = u
  cases x.frame with
  | none => exact recordsOnly_queues (opOver_queues _ _ _ _ _)
  | some f =>
    dsimp only
    rw [if_pos ho]
    exact recordsOnly_ite (.refl _ u) (recordsOnly_stk (wakeFrame_stk u _ _ _ _))

/-- A lower signal of an engine's record counts once in its queue. -/
theorem low_signalDone (s : State) {x : Signal} (hx : x.frame = none) :
    (queueOf (signalDone s x 2) x.src x.queue).low = min ((queueOf s x.src x.queue).low + 1) (2 ^ 32 - 1) := by
  have put : queueOf (countLow s x.src x.queue) x.src x.queue =
      { queueOf s x.src x.queue with low := satAdd 32 (queueOf s x.src x.queue).low 1 } :=
    queueOf_setQueue_listed s x.src x.queue fun e => by
      have : satAdd 32 (queueOf s x.src x.queue).low 1 = 0 := congrArg Queue.low e
      simp [satAdd] at this
  have counted : (queueOf (countLow s x.src x.queue) x.src x.queue).low = satAdd 32 (queueOf s x.src x.queue).low 1 := congrArg Queue.low put
  have done : signalDone s x 2 = opOver (countLow s x.src x.queue) x.src x.queue x.count true := by
    rw [signalDone, hx]; rfl
  rw [done, opOver, if_pos rfl, low_updRun, counted, satAdd]
  rw [counted, satAdd]; omega

/-- An operation's signal that another die did not take stops the operation. -/
theorem signalDone_failed (s : State) {x : Signal} (hx : x.frame = none) : signalDone s x 4 = opOver s x.src x.queue x.count false := by
  rw [signalDone, hx]; rfl

/-- Signal `id` gone from those under way. -/
def signalTaken (s : State) (id : Nat) : State := { s with signals := mdel s.signals id }

section
variable {s : State} {id : Nat} {x : Signal} (h : mfind s.signals id = some x)
include h

theorem exec_fenceSignal_dark (hd : hop s x.src (dieOf x.pa) = .dark) :
    exec (.fenceSignal id) s = .next (signalDone (signalTaken s id) x 4) := by
  change execFenceSignal id s = _
  rw [execFenceSignal, h]; dsimp only
  rw [if_pos hd]; rfl

theorem exec_fenceSignal_away (hn : dieOf x.pa ≠ x.src) (hd : hop s x.src (dieOf x.pa) ≠ .dark) :
    exec (.fenceSignal id) s = .next (match answerOf s x.src (dieOf x.pa) (.signal id) with
      | some _ => signalDone (dropAnswer (signalTaken s id) x.src (dieOf x.pa) (.signal id)) x 4
      | none => askDie x.src s (signalAsk id x)) := by
  change execFenceSignal id s = _
  rw [execFenceSignal, h]; dsimp only
  rw [if_neg hd, if_pos hn]
  cases answerOf s x.src (dieOf x.pa) (.signal id) <;> rfl

theorem exec_fenceSignal_home (hn : dieOf x.pa = x.src) (hr : rowWaits s x.pa 8 = false)
    (hp : poisonAt (noteRead (signalTaken s id) x.pa 8) x.pa = false) :
    exec (.fenceSignal id) s = .next (signalDone (applySignal (noteRead (signalTaken s id) x.pa 8) x.pa x.value).2 x
      (applySignal (noteRead (signalTaken s id) x.pa 8) x.pa x.value).1) := by
  have home : hop s x.src (dieOf x.pa) ≠ .dark := by simp [hop, hn]
  change execFenceSignal id s = _
  rw [execFenceSignal, h]; dsimp only
  rw [if_neg home, if_neg (not_not.mpr hn), hr]
  exact (congrArg _ (if_neg fun e => Bool.false_ne_true (hp.symm.trans e))).trans rfl

end

/-! ### Waits (R80, R83, R96) -/

/-- A frame whose parked instruction has completed with `v` for register `rd`. -/
def wokenFrame (x : Frame) (rd : Nat) (v : W32) : Frame :=
  if x.walk.isSome then { x with park := .ready }
  else { x with regs := if rd = 0 then x.regs else mput 0 x.regs rd v, pc := x.pc + 4, park := .ready }

section
variable {s : State} {d : DieId} {f : Nat} (h : f < (getStk s d).frames.length) (rd : Nat) (v : W32)

include h in
theorem frameOf'_wakeFrame_same : frameOf' (wakeFrame s d f rd v) d f = wokenFrame (frameOf' s d f) rd v := by
  unfold wakeFrame wokenFrame; dsimp only
  split
  · exact frameOf'_readyFrame_same h
  · rw [frameOf'_readyFrame_same (by rwa [length_setFrame]), frameOf'_setFrame_same _ h]

theorem frameOf'_wakeFrame_other {g : Nat} (hg : g ≠ f) : frameOf' (wakeFrame s d f rd v) d g = frameOf' s d g := by
  unfold wakeFrame; dsimp only
  rw [frameOf'_readyFrame_other hg]
  split
  · rfl
  · exact frameOf'_setFrame_other _ hg

end

theorem wokenFrame_park (x : Frame) (rd : Nat) (v : W32) : (wokenFrame x rd v).park = .ready := by
  unfold wokenFrame; split <;> rfl

theorem wokenFrame_program {x : Frame} (hx : x.walk = none) (rd : Nat) (v : W32) : (wokenFrame x rd v).pc = x.pc + 4 ∧
    (rd ≠ 0 → mwf 0 x.regs = true → mget 0 (wokenFrame x rd v).regs rd = v) ∧
    ∀ r, (r ≠ rd ∨ rd = 0) → mget 0 (wokenFrame x rd v).regs r = mget 0 x.regs r := by
  have woken : wokenFrame x rd v = { x with regs := if rd = 0 then x.regs else mput 0 x.regs rd v, pc := x.pc + 4, park := .ready } :=
    if_neg (by simp [hx])
  rw [woken]
  refine ⟨rfl, fun hrd hwf => ?_, fun r hr => ?_⟩
  · simpa [hrd] using mget_mput_same x.regs rd v hwf
  · by_cases h0 : rd = 0
    · simp [h0]
    · simpa [h0] using mget_mput_other 0 x.regs v (hr.resolve_right h0)

section
variable {s : State} {d : DieId} {f : Fin 32} {pa : Nat} {va thr : W64} {rd since : Nat} {logged : Bool}
variable (h : (frameOf' s d f.val).park = .waitge pa va thr rd since logged)
include h

theorem exec_waitSatisfied : exec (.waitSatisfied d f) s = match waitValue s d f.val pa thr with
    | some v => .next (wakeFrame (dropWatch s d f.val) d f.val rd (BitVec.ofNat 32 v.toNat))
    | none => .next s := by
  change execWaitSatisfied d f s = _
  rw [execWaitSatisfied, h]; rfl

theorem exec_waitSatisfied_some {v : W64} (hv : waitValue s d f.val pa thr = some v) :
    exec (.waitSatisfied d f) s = .next (wakeFrame (dropWatch s d f.val) d f.val rd (BitVec.ofNat 32 v.toNat)) := by
  rw [exec_waitSatisfied h, hv]

theorem exec_waitSatisfied_none (hv : waitValue s d f.val pa thr = none) : exec (.waitSatisfied d f) s = .next s := by
  rw [exec_waitSatisfied h, hv]

end

theorem waitValue_met {s : State} {d : DieId} {f pa : Nat} {thr v : W64} {w : Watch}
    (hw : mfind s.watches (watchKey d (frameOf' s d f).queue (frameOf' s d f).count) = some w) (hv : w.met = some v) :
    waitValue s d f pa thr = some v := by
  simp [waitValue, hw, hv]

/-- Without a change that met it, a wait is settled by the fence's present value. -/
theorem waitValue_unmet {s : State} {d : DieId} {f pa : Nat} {thr : W64}
    (h : ∀ w, mfind s.watches (watchKey d (frameOf' s d f).queue (frameOf' s d f).count) = some w → w.met = none) :
    waitValue s d f pa thr = if waitHolds s d pa thr then some (memWord s pa) else none := by
  have unmet : (mfind s.watches (watchKey d (frameOf' s d f).queue (frameOf' s d f).count)).bind (fun w => w.met) = none :=
    Option.bind_eq_none_iff.mpr h
  rw [waitValue, unmet]

theorem fenceGe_iff (v t : W64) : fenceGe v t = true ↔ 0 ≤ (v - t).toInt := by
  simp [fenceGe, BitVec.msb_eq_toInt]

theorem waitHolds_iff {s : State} {d : DieId} {pa : Nat} {thr : W64} :
    waitHolds s d pa thr = true ↔ reach s d (dieOf pa) = true ∧ poisonAt s pa = false ∧ 0 ≤ (memWord s pa - thr).toInt := by
  simp [waitHolds, fenceGe_iff, and_assoc]

/-- An entry after a change of a die's stokers and queues leaves the rest. -/
theorem logEntry_records (s : State) (d : DieId) (k : StokerUnit) (q : Map Queue) (i : LogInfo) :
    logEntry (setQueues (setStk s d k) d q) d i =
      setLog (setQueues (setStk s d (getStk (logEntry (setQueues (setStk s d k) d q) d i) d)) d
        (getQueues (logEntry (setQueues (setStk s d k) d q) d i) d)) d (getLog (logEntry (setQueues (setStk s d k) d q) d i) d) := by
  simp [logEntry]

/-- A queue after a wait of its record has met its watchdog (R83). -/
def queueTimedOut (q : Queue) (va thr cur : W64) : Queue :=
  { q with timeouts := satAdd 16 q.timeouts 1, waitAddr := va, waitThr := thr, waitCur := cur }

/-- The queue of a record whose wait has met its watchdog carries the snapshot and the count. -/
theorem queueOf_timedOut {x : Queue} {us : Nat} (h : x.wdogUs = some us) (va thr cur : W64) (u : State) {d : DieId} {q : Nat} :
    let y := queueOf (setQueue u d q (queueTimedOut x va thr cur)) d q
    y.waitAddr = va ∧ y.waitThr = thr ∧ y.waitCur = cur ∧ y.timeouts = min (x.timeouts + 1) 65535 := by
  have stands : queueTimedOut x va thr cur ≠ queueFree := fun e => by
    have none : x.wdogUs = none := congrArg Queue.wdogUs e
    simp [h] at none
  rw [queueOf_setQueue_listed u d q stands]
  exact ⟨rfl, rfl, rfl, rfl⟩

theorem exec_waitTimeout {s : State} {d : DieId} {f : Fin 32} {pa : Nat} {va thr : W64} {rd since us : Nat}
    (h : (frameOf' s d f.val).park = .waitge pa va thr rd since false)
    (hus : (queueOf s d (frameOf' s d f.val).queue).wdogUs = some us) (hat : since + us * 1000 ≤ dtime s d) :
    ∃ i, exec (.waitTimeout d f) s = .next (logEntry (setQueue
      (setFrame s d f.val { frameOf' s d f.val with park := .waitge pa va thr rd since true }) d (frameOf' s d f.val).queue
      (queueTimedOut (queueOf s d (frameOf' s d f.val).queue) va thr (memWord s pa))) d i) := by
  refine ⟨{ code := 0x0201, kind := 0x02, index := (queueOf s d (frameOf' s d f.val).queue).engine,
            tenant := some (frameOf' s d f.val).tenant, ctx := some (frameOf' s d f.val).ctx,
            detail := detF va.toNat (frameOf' s d f.val).queue thr.toNat, queue := (frameOf' s d f.val).queue }, ?_⟩
  change execWaitTimeout d f s = _
  rw [execWaitTimeout, h, hus]
  exact event_true _ _ (decide_eq_true hat)

theorem exec_waitTimeout_logged {s : State} {d : DieId} {f : Fin 32} {pa : Nat} {va thr : W64} {rd since : Nat}
    (h : (frameOf' s d f.val).park = .waitge pa va thr rd since true) : exec (.waitTimeout d f) s = .next s := by
  change execWaitTimeout d f s = _
  rw [execWaitTimeout]; dsimp only
  rw [h]; rfl

end Sys2Proof.Machine

namespace Sys2Proof

open Machine

/-- Settles O16: a signal's outcome follows the sign of the difference, and so does a wait's end. -/
theorem fencesSignalsAndWaits : Obligations.FencesSignalsAndWaits := by
  unfold Obligations.FencesSignalsAndWaits
  refine ⟨fun s id x hx => ⟨fun home row (clean : poisonAt (noteRead (signalTaken s id) x.pa 8) x.pa = false) hwf => ?_,
    fun away up answered engine => ?_, fun away up unanswered => ?_, fun dark engine => ?_⟩, ?_⟩
  · refine ⟨_, exec_fenceSignal_home hx home row clean, ?_⟩
    have read : ReadOnly (signalTaken s id) (noteRead (signalTaken s id) x.pa 8) := noteRead_readOnly _ _ _
    generalize noteRead (signalTaken s id) x.pa 8 = z at read clean ⊢
    have word : memWord z x.pa = memWord s x.pa := read.memWord x.pa
    have bytes (a : Nat) : memByte z a = memByte s a := read.memByte a
    obtain ⟨mem, queues, watches, signals, reached⟩ : z.mem = s.mem ∧ (∀ q, queueOf z x.src q = queueOf s x.src q) ∧
        z.watches = s.watches ∧ z.signals = mdel s.signals id ∧ ∀ d n, reach z d n = reach s d n := by
      unfold ReadOnly at read; rw [read]; exact ⟨rfl, fun _ => rfl, rfl, rfl, fun _ _ => rfl⟩
    rw [← word]
    rcases le_or_gt (x.value - memWord z x.pa).toInt 0 with kept | above
    · obtain ⟨o, ho, applied⟩ := applySignal_kept kept
      obtain ⟨dmem, dwatches, dsignals⟩ := (signalDone_applied z x ho).memory
      have same (a : Nat) : memByte (signalDone z x o) a = memByte z a := congrArg (mget 0 · a) dmem
      rw [applied]
      refine ⟨fun h => absurd h (not_lt.mpr kept), fun _ => ⟨?_, dwatches.trans watches⟩, fun below engine => ?_,
        fun a _ => (same a).trans (bytes a), dsignals.trans signals⟩
      · rw [memWord, memWord, memNat, memNat, memRead, memRead, funext same]
      · obtain rfl : 2 = o := congrArg Prod.fst ((applySignal_below below).symm.trans applied)
        rw [← queues]; exact low_signalDone z engine
    · obtain ⟨dmem, dwatches, dsignals⟩ := (signalDone_applied (memWriteWord z x.pa x.value) x (by decide : 1 ≤ 2)).memory
      have zwf : Memory.wf z.mem := by rwa [mem]
      have same (a : Nat) : memByte (signalDone (memWriteWord z x.pa x.value) x 1) a = memByte (memWriteWord z x.pa x.value) a :=
        congrArg (mget 0 · a) dmem
      rw [applySignal_above above]
      refine ⟨fun _ => ⟨?_, fun k w hw hpa hmet hreach hv => ?_⟩, fun h => absurd h (not_le.mpr above),
        fun h => absurd h (not_lt.mpr above.le), fun a ha => ?_, dsignals.trans signals⟩
      · rw [memWord, memNat, memRead, funext same]
        exact memWord_memWriteWord zwf x.pa x.value
      · rw [dwatches]
        refine mfind_watches_met zwf clean (by rwa [watches]) hpa hmet (by rwa [reached]) ?_
        rw [BitVec.msb_eq_toInt]; simpa using hv
      · exact (same a).trans ((memWrite_other _ _ _ a (by rwa [natLe_length])).trans (bytes a))
  · obtain ⟨a, ha⟩ := Option.ne_none_iff_exists'.mp answered
    have run := exec_fenceSignal_away hx away up
    rw [ha] at run
    refine ⟨_, run.trans (congrArg _ (signalDone_failed _ engine)), opEnded_opOver_stopped, ?_, ?_⟩ <;> rw [opOver_queues] <;> rfl
  · have run := exec_fenceSignal_away hx away up
    rw [unanswered] at run
    refine ⟨_, run, rfl, ?_, ?_⟩ <;> rw [askDie_ends] <;> rfl
  · refine ⟨_, (exec_fenceSignal_dark hx dark).trans (congrArg _ (signalDone_failed _ engine)), opEnded_opOver_stopped, ?_⟩
    exact (opOver_queues (signalTaken s id) _ _ _ _).trans rfl
  · intro s d f pa va thr rd since logged x key resumed hpark hlen
    have inFrames : f.val < (getStk (dropWatch s d f.val) d).frames.length := lt_of_lt_of_eq f.isLt hlen.symm
    have resumes (v : W64) : resumed (wakeFrame (dropWatch s d f.val) d f.val rd (BitVec.ofNat 32 v.toNat)) v := by
      have woken := frameOf'_wakeFrame_same inFrames rd (BitVec.ofNat 32 v.toNat)
      refine ⟨?_, wakeFrame_stk _ _ _ _ _, fun g hg => frameOf'_wakeFrame_other _ _ hg, fun hwalk => ?_⟩
      · rw [woken]; exact wokenFrame_park _ _ _
      · rw [woken]; exact wokenFrame_program hwalk _ _
    refine ⟨fun w v hw hv => ?_, fun unmet => ⟨fun hreach hclean hge => ?_, fun hfail => ?_⟩, fun us hus hat hlog => ?_, fun hlog => ?_⟩
    · exact ⟨_, exec_waitSatisfied_some hpark (waitValue_met hw hv), resumes v⟩
    · refine ⟨_, exec_waitSatisfied_some hpark ?_, resumes _⟩
      rw [waitValue_unmet unmet, if_pos (waitHolds_iff.mpr ⟨hreach, hclean, hge⟩)]
    · refine exec_waitSatisfied_none hpark ?_
      rw [waitValue_unmet unmet, if_neg]
      rintro holds
      obtain ⟨hreach, hclean, hge⟩ := waitHolds_iff.mp holds
      rcases hfail with h | h | h
      · simp [h] at hreach
      · simp [h] at hclean
      · exact absurd hge (not_le.mpr h)
    · subst hlog
      obtain ⟨i, run⟩ := exec_waitTimeout hpark hus hat
      obtain ⟨addr, threshold, current, count⟩ := queueOf_timedOut (d := d) (q := x.queue) hus va thr (memWord s pa)
        (setFrame s d f.val { x with park := .waitge pa va thr rd since true })
      have parked := frameOf'_setFrame_same { x with park := .waitge pa va thr rd since true } inFrames
      exact ⟨_, run, addr, threshold, current, count, congrArg Frame.park parked, fun k hk => queueOf_setQueue_other _ d _ hk,
        logEntry_records s d _ _ i⟩
    · subst hlog
      exact exec_waitTimeout_logged hpark

end Sys2Proof
end
section
/-! PROOFS. What the discard of a context on a die leaves (R119, R125, R131). -/

namespace Sys2Proof.Machine

/-- The discard of context `c` changes the cores, and of memory the DEVICE area of the context's descriptor. -/
structure DiscardsOnly (c : Nat) (s t : State) : Prop where
  frame : t = { s with cores := t.cores, mem := t.mem, poison := t.poison, memu := t.memu, watches := t.watches }
  bytes : ∀ x, (x < (ctxOf s 0 c).desc + 0x40 ∨ (ctxOf s 0 c).desc + 0x100 ≤ x) → memByte t x = memByte s x

theorem DiscardsOnly.refl (c : Nat) (s : State) : DiscardsOnly c s s := ⟨rfl, fun _ _ => rfl⟩

theorem DiscardsOnly.ctxOf {c : Nat} {s t : State} (h : DiscardsOnly c s t) (d : DieId) (b : Nat) : ctxOf t d b = ctxOf s d b := by
  rw [h.frame]; rfl

theorem DiscardsOnly.trans {c : Nat} {s t u : State} (h1 : DiscardsOnly c s t) (h2 : DiscardsOnly c t u) : DiscardsOnly c s u := by
  refine ⟨?_, fun x hx => (h2.bytes x ?_).trans (h1.bytes x hx)⟩
  · rw [h2.frame, h1.frame]
  · rwa [h1.ctxOf]

theorem discardsOnly_foldl {c : Nat} {α : Type} {f : State → α → State} (hf : ∀ s x, DiscardsOnly c s (f s x)) (l : List α) (s : State) :
    DiscardsOnly c s (l.foldl f s) := by
  induction l generalizing s with
  | nil => exact DiscardsOnly.refl c s
  | cons x r ih => exact (hf s x).trans (ih _)

section
variable (c : Nat) (s : State) (d : DieId)

/-- A part of the cores replaced. -/
theorem discardsOnly_setCores (k : Cores) : DiscardsOnly c s (setCores s d k) := ⟨rfl, fun _ _ => rfl⟩

/-- Bytes written within the descriptor's DEVICE area. -/
theorem discardsOnly_memWrite {pa : Nat} {b : List Byte} (hlo : (ctxOf s 0 c).desc + 0x40 ≤ pa)
    (hhi : pa + b.length ≤ (ctxOf s 0 c).desc + 0x100) :
    DiscardsOnly c s (memWrite s pa b) := ⟨writeCells_frame s _, fun _ _ => memWrite_other s pa b _ (by omega)⟩

theorem discardsOnly_writeDevice : DiscardsOnly c s (writeDevice s c) := by
  unfold writeDevice; dsimp only
  split
  · exact .refl c s
  · refine discardsOnly_memWrite c s (le_refl _) ?_
    rw [List.length_map, countUp_eq_range', List.length_range']

theorem discardsOnly_setResid (r : RState) : DiscardsOnly c s (setResid s d c r) := by
  unfold setResid
  split
  · exact .refl c s
  · exact (discardsOnly_setCores c s d _).trans (discardsOnly_writeDevice c _)

theorem discardsOnly_dropSaved : DiscardsOnly c s (dropSaved s d c) := discardsOnly_setCores c s d _

theorem discardsOnly_dropCtxWork : DiscardsOnly c s (dropCtxWork s d c) := discardsOnly_setCores c s d _

theorem discardsOnly_setSlot (i : Nat) (x : Slot) : DiscardsOnly c s (setSlot s d i x) := discardsOnly_setCores c s d _

theorem discardOn_discardsOnly : DiscardsOnly c s (discardOn s d c) := by
  unfold discardOn
  split
  · dsimp only
    split
    · refine DiscardsOnly.trans ?_ (discardsOnly_setResid c _ d .none)
      refine DiscardsOnly.trans ?_ (discardsOnly_dropSaved c _ d)
      refine DiscardsOnly.trans ?_ (discardsOnly_dropCtxWork c _ d)
      exact discardsOnly_setSlot c s d _ _
    · split <;> exact discardsOnly_setSlot c s d _ _
  · exact (discardsOnly_dropSaved c s d).trans (discardsOnly_setResid c _ d .none)

end

end Sys2Proof.Machine
end
section
/-! PROOFS. O13. -/

namespace Sys2Proof.Machine

/-! ### Contexts and objects in the tables (R55, R65 to R69) -/

theorem Looked.ctxOf {s u : State} (h : Looked s u) (d : DieId) (c : Nat) : ctxOf u d c = ctxOf s d c := by
  unfold Looked at h; rw [h]; rfl

theorem Looked.objOf {s u : State} (h : Looked s u) (d : DieId) (i : Nat) : objOf u d i = objOf s d i := by
  unfold Looked at h; rw [h]; rfl

section
variable (s : State) (c : Nat)

theorem ctxOf_putCtx_inStep {x : Ctx} (hx : x ≠ ctxFree) {d : DieId} (hd : inStep s d = true) : ctxOf (putCtx s c x) d c = x := by
  rw [ctxOf, putCtx, getTables_changeTables _ hd]; exact mget_mput_listed _ c hx

theorem ctxOf_putCtx_same {x : Ctx} (hx : x ≠ ctxFree) : ctxOf (putCtx s c x) 0 c = x := ctxOf_putCtx_inStep s c hx rfl

theorem ctxOf_putCtx_other (x : Ctx) {b : Nat} (hb : b ≠ c) : ctxOf (putCtx s c x) 0 b = ctxOf s 0 b := mget_mput_other ctxFree _ x hb

theorem ctxOf_putCtx_free (h : mwf ctxFree (getTables s 0).contexts = true) : ctxOf (putCtx s c ctxFree) 0 c = ctxFree :=
  mget_mput_same _ c ctxFree h

theorem objOf_putObj_same (i : Nat) {o : Obj} (ho : o ≠ objFree) : objOf (putObj s i o) 0 i = o := mget_mput_listed _ i ho

theorem objOf_putObj_other {i : Nat} (o : Obj) {j : Nat} (hj : j ≠ i) : objOf (putObj s i o) 0 j = objOf s 0 j := mget_mput_other objFree _ o hj

end

theorem ne_ctxFree {x : Ctx} (h : x.state ≠ .free) : x ≠ ctxFree := by rintro rfl; exact h rfl

/-- An entry still to be written back is not the free one that no table lists. -/
theorem ne_objFree_of_dirty {o : Obj} (h : o.dirty = true) : o ≠ objFree := by rintro rfl; simp [objFree] at h

/-! ### Context commands (R57, R65 to R67) -/

/-- The fields of CTX_RESULT, the context's number first. -/
theorem ctxFields_high {st t : Nat} {f : DieId → Nat} {n : Nat} (hn : n ≤ 40) :
    ∀ e ∈ [(st, 40), (t, 44)] ++ allDies.map (fun d => (f d, 48 + d.val)), n ≤ e.2 := by
  intro e he
  rcases List.mem_append.mp he with he | he
  · simp at he; rcases he with rfl | rfl <;> dsimp only <;> omega
  · obtain ⟨d, _, rfl⟩ := List.mem_map.mp he
    dsimp only; omega

section
variable (s : State) (c : Nat) {status : Nat}

/-- The report is a value of D0's registers, and nothing else. -/
theorem ctxDone_eq : ∃ x, ctxDone s c status = setHregs s 0 x := ⟨_, rfl⟩

theorem ctxOf_ctxDone (d : DieId) (b : Nat) : ctxOf (ctxDone s c status) d b = ctxOf s d b := by
  obtain ⟨x, h⟩ := ctxDone_eq s c (status := status)
  rw [h]; rfl

theorem ctxDone_leaves : (ctxDone s c status).queues = s.queues ∧ (ctxDone s c status).mem = s.mem ∧ (ctxDone s c status).memu = s.memu := by
  obtain ⟨x, h⟩ := ctxDone_eq s c (status := status)
  rw [h]; exact ⟨rfl, rfl, rfl⟩

theorem ctxDone_hregs : ctxDone s c status = setHregs s 0 { getHregs s 0 with ctxResult := (getHregs (ctxDone s c status) 0).ctxResult } := rfl

/-- A context put into the tables and reported: nothing else has changed. -/
theorem ctxDone_putCtx (x : Ctx) : let t := ctxDone (putCtx s c x) c status
    t = { setHregs s 0 { getHregs s 0 with ctxResult := (getHregs t 0).ctxResult } with tables := t.tables } := by
  intro t
  have reported : t = setHregs (putCtx s c x) 0 { getHregs (putCtx s c x) 0 with ctxResult := (getHregs t 0).ctxResult } := ctxDone_hregs _ c
  clear_value t
  generalize (getHregs t 0).ctxResult = v at reported ⊢
  subst reported
  rfl

theorem fld_ctxDone_status (hs : status < 256) : fld (getHregs (ctxDone s c status) 0).ctxResult 23 16 = status :=
  fld_cmdResult_status _ hs (List.forall_mem_cons.mpr ⟨le_refl 24, ctxFields_high (by decide)⟩)

theorem fld_ctxDone_seq : fld (getHregs (ctxDone s c status) 0).ctxResult 15 0 = (fld (getHregs s 0).ctxResult 15 0 + 1) % 65536 :=
  fld_cmdResult_seq _ (List.forall_mem_cons.mpr ⟨le_refl 24, ctxFields_high (by decide)⟩)

theorem fld_ctxDone_context (hs : status < 256) (hc : c < 65536) : fld (getHregs (ctxDone s c status) 0).ctxResult 39 24 = c :=
  (fld_cmdResult_first _ hs (by decide) (by decide) (ctxFields_high (le_refl 40))).trans (Nat.mod_eq_of_lt hc)

end

/-- A descriptor that was read and kept its checks is that of a LIVE context. -/
theorem readCtx_some {s u : State} {c : Nat} {x : Ctx} (h : readCtx s c = (some x, u)) : ReadOnly s u ∧ x.state = .live := by
  unfold readCtx at h; dsimp only at h
  split at h
  · cases h
  · split at h
    · cases h
    · rename_i e s1 he
      split at h
      · cases h
      · generalize descriptor : readFor s1 0 (fld (le64 e) 39 12 * 4096) 4096 = r at h
        obtain ⟨hx, hu⟩ := Prod.ext_iff.mp h
        obtain ⟨y, hy, rfl⟩ := Option.map_eq_some_iff.mp hx
        obtain ⟨b, hb, hr⟩ := Option.bind_eq_some_iff.mp hy
        refine ⟨(readFor_some he).trans (readFor_some (descriptor.trans (Prod.ext hb hu))), ?_⟩
        unfold ctxRecord at hr; dsimp only at hr
        split at hr
        · cases hr; rfl
        · cases hr

section
variable {s u : State} {c : Nat} {x : Ctx}

theorem cmdCtxCreate_made (hfree : (ctxOf s 0 c).state = .free) (hread : readCtx s c = (some x, u)) (hten : (tenantOf s 0 x.tenant).state = .enabled)
    (hquota : tenantContexts s x.tenant < (tenantOf s 0 x.tenant).maxContexts) (hprio : x.prio ≤ (tenantOf s 0 x.tenant).prioCeil) :
    cmdCtxCreate s c = ctxDone (putCtx u c x) c 0 := by
  have read := (readCtx_some hread).1.looked
  have counted : tenantContexts u x.tenant = tenantContexts s x.tenant := by unfold Looked at read; rw [read]; rfl
  rw [cmdCtxCreate, if_neg (not_not.mpr hfree), hread]; dsimp only
  rw [read.tenantOf, counted, if_neg (not_not.mpr hten), if_neg (by omega)]

theorem cmdCtxCreate_badState (h : (ctxOf s 0 c).state ≠ .free) : cmdCtxCreate s c = ctxDone s c 1 := if_pos h

/-- The states of a context whose DESTROY has begun: discarded on every die. -/
def ctxDiscarded (s : State) (c : Nat) : State :=
  allDies.foldl (fun t d => discardOn t d c) (putCtx s c { ctxOf s 0 c with state := .destroying })

/-- A context's translations dropped on every die, and success reported (R300). -/
def ctxInvalidated (s : State) (c : Nat) : State := ctxDone (dropXlate s (fun e => e.ctx == c)).2 c 0

theorem cmdCtxDestroy_begun (hs : (ctxOf s 0 c).state = .live ∨ (ctxOf s 0 c).state = .faulted) (hq : queuesFree s c = true)
    (ht : (tenantOf s 0 (ctxOf s 0 c).tenant).state ≠ .resetting) :
    cmdCtxDestroy s c = ctxInvalidated (ctxDiscarded s c) c := by
  rw [cmdCtxDestroy, if_neg (by simp [hs, hq]), if_neg ht]; rfl

theorem cmdCtxDestroy_badState (h : queuesFree s c = false) : cmdCtxDestroy s c = ctxDone s c 1 := if_pos (.inr (by simp [h]))

theorem cmdClearFault_live (hs : (ctxOf s 0 c).state = .faulted) (ht : (tenantOf s 0 (ctxOf s 0 c).tenant).state ≠ .resetting) :
    cmdClearFault s c = ctxDone (putCtx s c { ctxOf s 0 c with state := .live }) c 0 := by
  rw [cmdClearFault, if_neg (not_not.mpr hs), if_neg ht]

theorem cmdClearFault_badState (h : (ctxOf s 0 c).state ≠ .faulted) : cmdClearFault s c = ctxDone s c 1 := if_pos h

end

/-- The discards of a DESTROY change the cores and the context's DEVICE area. -/
theorem ctxDiscarded_discardsOnly (s : State) (c : Nat) :
    DiscardsOnly c (putCtx s c { ctxOf s 0 c with state := .destroying }) (ctxDiscarded s c) :=
  discardsOnly_foldl (fun t d => discardOn_discardsOnly c t d) allDies _

/-- No die keeps a translation that was named (R300). -/
theorem xlate_dropXlate (s : State) (p : XlEntry → Bool) (d : DieId) : ∀ e ∈ (getMemu (dropXlate s p).2 d).xlate, p e = false := by
  intro e he
  have kept : (getMemu (dropXlate s p).2 d).xlate = (getMemu s d).xlate.filter fun e => !p e :=
    congrArg MemUnit.xlate (qget_qmap _ s.memu d)
  rw [kept] at he
  simpa using (List.mem_filter.mp he).2

section
variable (s : State) (c : Nat)

theorem ctxOf_ctxInvalidated (b : Nat) : ctxOf (ctxInvalidated s c) 0 b = ctxOf s 0 b := (ctxOf_ctxDone _ c 0 b).trans rfl

theorem queues_ctxInvalidated : (ctxInvalidated s c).queues = s.queues := (ctxDone_leaves _ c).1

theorem memByte_ctxInvalidated (x : Nat) : memByte (ctxInvalidated s c) x = memByte s x := congrArg (mget 0 · x) (ctxDone_leaves _ c).2.1

theorem xlate_ctxInvalidated (d : DieId) : ∀ e ∈ (getMemu (ctxInvalidated s c) d).xlate, e.ctx ≠ c := by
  intro e he
  rw [getMemu, ctxInvalidated, (ctxDone_leaves _ c).2.2] at he
  simpa using xlate_dropXlate s (fun e => e.ctx == c) d e he

theorem ctxOf_ctxDiscarded_same : ctxOf (ctxDiscarded s c) 0 c = { ctxOf s 0 c with state := .destroying } := by
  rw [(ctxDiscarded_discardsOnly s c).ctxOf, ctxOf_putCtx_same s c (ne_ctxFree (by simp))]

theorem ctxOf_ctxDiscarded_other {b : Nat} (hb : b ≠ c) : ctxOf (ctxDiscarded s c) 0 b = ctxOf s 0 b := by
  rw [(ctxDiscarded_discardsOnly s c).ctxOf, ctxOf_putCtx_other s c _ hb]

theorem queues_ctxDiscarded : (ctxDiscarded s c).queues = s.queues := by
  rw [(ctxDiscarded_discardsOnly s c).frame]; rfl

/-- DESTROY writes no byte outside the descriptor's DEVICE area. -/
theorem memByte_ctxDiscarded {x : Nat} (hx : x < (ctxOf s 0 c).desc + 0x40 ∨ (ctxOf s 0 c).desc + 0x100 ≤ x) :
    memByte (ctxDiscarded s c) x = memByte s x := by
  refine ((ctxDiscarded_discardsOnly s c).bytes x ?_).trans rfl
  rwa [ctxOf_putCtx_same s c (ne_ctxFree (by simp))]

end

/-! ### The pins of a context (R67, R272, R337) -/

/-- The models, the sequences and the layers of context `c` on die `d` hold no pins. -/
def PinsReleased (c : Nat) (s : State) (d : DieId) : Prop :=
  (∀ e ∈ (getGen s d).models, e.2.ctx = c → e.2.pins = []) ∧ (∀ e ∈ (getGen s d).seqs, e.2.ctx = c → e.2.pins = []) ∧
    ∀ l ∈ (getEas s d).layers, l.ctx = c → l.pins = []

/-- A release of pins changes the tables' objects, the pins, and the units that held them. -/
structure ReleasesOnly (s t : State) : Prop where
  frame : t = { s with tables := t.tables, gen := t.gen, eas := t.eas, pins := t.pins }
  contexts : (getTables t 0).contexts = (getTables s 0).contexts

theorem ReleasesOnly.refl (s : State) : ReleasesOnly s s := ⟨rfl, rfl⟩

theorem ReleasesOnly.trans {s t u : State} (h1 : ReleasesOnly s t) (h2 : ReleasesOnly t u) : ReleasesOnly s u :=
  ⟨by rw [h2.frame, h1.frame], h2.contexts.trans h1.contexts⟩

theorem releasesOnly_foldl {α : Type} {f : State → α → State} (hf : ∀ s x, ReleasesOnly s (f s x)) (l : List α) (s : State) :
    ReleasesOnly s (l.foldl f s) := by
  induction l generalizing s with
  | nil => exact ReleasesOnly.refl s
  | cons x r ih => exact (hf s x).trans (ih _)

theorem settleObj_releasesOnly (s : State) (i : Nat) : ReleasesOnly s (settleObj s i) := by
  unfold settleObj; dsimp only
  split
  · exact ⟨rfl, rfl⟩
  · exact .refl s

theorem settleObj_units (s : State) (i : Nat) : (settleObj s i).gen = s.gen ∧ (settleObj s i).eas = s.eas := by
  unfold settleObj; dsimp only
  split <;> exact ⟨rfl, rfl⟩

theorem dropPins_releasesOnly (s : State) (d : DieId) (os : List Nat) : ReleasesOnly s (dropPins s d os) :=
  ReleasesOnly.trans (t := setPins s d _) ⟨rfl, rfl⟩ (releasesOnly_foldl settleObj_releasesOnly os _)

theorem dropPins_units (s : State) (d : DieId) (os : List Nat) : (dropPins s d os).gen = s.gen ∧ (dropPins s d os).eas = s.eas := by
  have settled (l : List Nat) (t : State) : (l.foldl settleObj t).gen = t.gen ∧ (l.foldl settleObj t).eas = t.eas := by
    induction l generalizing t with
    | nil => exact ⟨rfl, rfl⟩
    | cons i r ih => exact ⟨(ih _).1.trans (settleObj_units t i).1, (ih _).2.trans (settleObj_units t i).2⟩
  exact settled os _

/-- Die `d`'s units without the pins that stand for context `c`. -/
def ctxUnpinned (c : Nat) (s : State) (d : DieId) : State :=
  setEas (setGen s d { getGen s d with
    seqs := (getGen s d).seqs.map (fun x => if x.2.ctx = c then (x.1, { x.2 with pins := [] }) else x),
    models := (getGen s d).models.map (fun x => if x.2.ctx = c then (x.1, { x.2 with pins := [] }) else x) }) d
    { getEas s d with layers := (getEas s d).layers.map (fun l => if l.ctx = c then { l with pins := [] } else l) }

theorem dropCtxPins_eq (c : Nat) (s : State) (d : DieId) : ∃ os, dropCtxPins c s d = dropPins (ctxUnpinned c s d) d os := ⟨_, rfl⟩

theorem dropCtxPins_releasesOnly (c : Nat) (s : State) (d : DieId) : ReleasesOnly s (dropCtxPins c s d) := by
  obtain ⟨os, h⟩ := dropCtxPins_eq c s d
  rw [h]
  exact ReleasesOnly.trans (t := ctxUnpinned c s d) ⟨rfl, rfl⟩ (dropPins_releasesOnly _ d os)

theorem pinsReleased_congr {c : Nat} {s t : State} {d : DieId} (h : t.gen = s.gen ∧ t.eas = s.eas) (hs : PinsReleased c s d) :
    PinsReleased c t d := by
  unfold PinsReleased getGen getEas at *; rwa [h.1, h.2]

/-- Items taken out of a list's matching entries are gone from all of them. -/
theorem forall_map_ite {α : Type} {l : List α} {p q : α → Prop} [DecidablePred p] {g : α → α} (h : ∀ x, q (g x)) :
    ∀ y ∈ l.map (fun x => if p x then g x else x), p y → q y := by
  intro y hy hp
  obtain ⟨x, _, rfl⟩ := List.mem_map.mp hy
  by_cases hx : p x
  · rw [if_pos hx]; exact h x
  · rw [if_neg hx] at hp; exact absurd hp hx

theorem pinsReleased_dropCtxPins_same (c : Nat) (s : State) (d : DieId) : PinsReleased c (dropCtxPins c s d) d := by
  obtain ⟨os, h⟩ := dropCtxPins_eq c s d
  rw [h]
  refine pinsReleased_congr (dropPins_units _ d os) ?_
  simp only [PinsReleased, ctxUnpinned, getEas_setEas, setEas_gets, getGen_setGen]
  exact ⟨forall_map_ite fun _ => rfl, forall_map_ite fun _ => rfl, forall_map_ite fun _ => rfl⟩

theorem pinsReleased_dropCtxPins {c : Nat} {s : State} {d e : DieId} (h : PinsReleased c s e) : PinsReleased c (dropCtxPins c s d) e := by
  by_cases hd : e = d
  · subst hd; exact pinsReleased_dropCtxPins_same c s e
  · obtain ⟨os, ho⟩ := dropCtxPins_eq c s d
    rw [ho]
    refine pinsReleased_congr (dropPins_units _ d os) ?_
    simpa [PinsReleased, ctxUnpinned, getEas_setEas_other _ _ _ hd, getGen_setGen_other _ _ _ hd] using h

/-- Once each die has released them, no die holds pins for the context. -/
theorem pinsReleased_foldl {c : Nat} {l : List DieId} {s : State} {d : DieId} (h : d ∈ l ∨ PinsReleased c s d) :
    PinsReleased c (l.foldl (dropCtxPins c) s) d := by
  induction l generalizing s with
  | nil => exact h.resolve_left List.not_mem_nil
  | cons e r ih =>
    refine ih ?_
    rcases h with h | h
    · rcases List.mem_cons.mp h with rfl | h
      · exact .inr (pinsReleased_dropCtxPins_same c s d)
      · exact .inl h
    · exact .inr (pinsReleased_dropCtxPins h)

theorem mem_allDies (d : DieId) : d ∈ allDies := by fin_cases d <;> decide

theorem exec_contextDestroyDone {s : State} {c : W16} (hs : (ctxOf s 0 c.toNat).state = .destroying)
    (h : ∀ d, holdsSlot s d c.toNat = false) :
    exec (.contextDestroyDone c) s = .next (putCtx (allDies.foldl (dropCtxPins c.toNat) s) c.toNat ctxFree) :=
  event_true _ _ (by
    have none : (allDies.all fun d => !holdsSlot s d c.toNat) = true := List.all_eq_true.mpr fun d _ => by simp [h d]
    rw [hs, none]; rfl)

/-! ### Object commands (R57, R68, R69) -/

theorem objFields_high (a b c : Nat) : ∀ f ∈ [(a, 24), (b, 32), (c, 56)], 24 ≤ f.2 := by simp

section
variable (s : State) (i pins : Nat) {status : Nat} (hs : status < 256)

theorem objDone_eq : ∃ x, objDone s i status pins = setHregs s 0 x := ⟨_, rfl⟩

theorem objOf_objDone (d : DieId) (j : Nat) : objOf (objDone s i status pins) d j = objOf s d j := by
  obtain ⟨x, h⟩ := objDone_eq s i pins (status := status)
  rw [h]; rfl

theorem objDone_memu : (objDone s i status pins).memu = s.memu := by
  obtain ⟨x, h⟩ := objDone_eq s i pins (status := status)
  rw [h]; rfl

theorem objDone_hregs : objDone s i status pins = setHregs s 0 { getHregs s 0 with objResult := (getHregs (objDone s i status pins) 0).objResult } :=
  rfl

/-- An object put into the tables and reported: nothing else has changed. -/
theorem objDone_putObj (o : Obj) : let t := objDone (putObj s i o) i status pins
    t = { setHregs s 0 { getHregs s 0 with objResult := (getHregs t 0).objResult } with tables := t.tables } := by
  intro t
  have reported : t = setHregs (putObj s i o) 0 { getHregs (putObj s i o) 0 with objResult := (getHregs t 0).objResult } := objDone_hregs _ i pins
  clear_value t
  generalize (getHregs t 0).objResult = v at reported ⊢
  subst reported
  rfl

include hs

theorem fld_objDone_status : fld (getHregs (objDone s i status pins) 0).objResult 23 16 = status :=
  fld_cmdResult_status _ hs (objFields_high _ _ _)

theorem fld_objDone_pins : fld (getHregs (objDone s i status pins) 0).objResult 55 32 = min pins (2 ^ 24 - 1) := by
  obtain ⟨st, hst, fields⟩ : ∃ st ≤ 2, (getHregs (objDone s i status pins) 0).objResult =
      cmdResult (getHregs s 0).objResult status [(st, 24), (min pins (2 ^ 24 - 1), 32), ((objOf s 0 i).tenant, 56)] := by
    refine ⟨_, ?_, rfl⟩
    cases (objOf s 0 i).state <;> decide
  have low : fieldSum [(st, 24)] + 2 ^ 24 ≤ 2 ^ 32 := by simp only [fieldSum, List.map_cons, List.map_nil, List.sum_cons, List.sum_nil]; omega
  have field := fld_cmdResult_field (getHregs s 0).objResult hs (above := [((objOf s 0 i).tenant, 56)]) (v := min pins (2 ^ 24 - 1)) (hi := 55)
    rfl (by decide) (by decide) low (by simp)
  rw [fields]
  exact field.trans (Nat.mod_eq_of_lt (by omega))

end

section
variable {s u : State} {h : Nat}

theorem cmdObjCreate_stale (hg : h / 2 ^ 20 ≠ (objOf s 0 (h % 2 ^ 20)).gen) :
    cmdObjCreate s h = objDone s (h % 2 ^ 20) 4 (packagePins s (h % 2 ^ 20)) := if_pos hg

theorem cmdObjFree_stale (hg : h / 2 ^ 20 ≠ (objOf s 0 (h % 2 ^ 20)).gen) :
    cmdObjFree s h = objDone s (h % 2 ^ 20) 4 (packagePins s (h % 2 ^ 20)) := if_pos hg

theorem cmdObjQuery_stale (hg : h / 2 ^ 20 ≠ (objOf s 0 (h % 2 ^ 20)).gen) :
    cmdObjQuery s h = objDone s (h % 2 ^ 20) 4 (packagePins s (h % 2 ^ 20)) := by
  rw [cmdObjQuery, if_pos hg]

theorem cmdObjQuery_current (hg : h / 2 ^ 20 = (objOf s 0 (h % 2 ^ 20)).gen) :
    cmdObjQuery s h = objDone s (h % 2 ^ 20) 0 (packagePins s (h % 2 ^ 20)) := by
  rw [cmdObjQuery, if_neg (not_not.mpr hg)]

theorem cmdObjCreate_made {b : List Byte} {x : Obj} (hg : h / 2 ^ 20 = (objOf s 0 (h % 2 ^ 20)).gen)
    (hfree : (objOf s 0 (h % 2 ^ 20)).state = .free) (hi : h % 2 ^ 20 ≠ 0) (hv : bit (getHregs s 0).objTable 0 = true)
    (hread : readFor s 0 (fld (getHregs s 0).objTable 39 12 * 4096 + 32 * (h % 2 ^ 20)) 32 = (some b, u))
    (hrec : objRecord b (objOf s 0 (h % 2 ^ 20)).gen = some x) (hten : (tenantOf s 0 x.tenant).state = .enabled)
    (hobjects : (tenantObjs s x.tenant).length < (tenantOf s 0 x.tenant).maxObjects)
    (hpages : ((tenantObjs s x.tenant).map quotaPages).sum + quotaPages x ≤ (tenantOf s 0 x.tenant).maxPages) :
    cmdObjCreate s h = objDone (putObj u (h % 2 ^ 20) x) (h % 2 ^ 20) 0 (packagePins s (h % 2 ^ 20)) := by
  have read := (readFor_some hread).looked
  have owned : tenantObjs u x.tenant = tenantObjs s x.tenant := by unfold Looked at read; rw [read]; rfl
  rw [cmdObjCreate]; dsimp only
  rw [if_neg (not_not.mpr hg), if_neg (not_not.mpr hfree), if_neg (not_or.mpr ⟨hi, not_not.mpr hv⟩), hread]; dsimp only
  rw [hrec]; dsimp only
  rw [read.tenantOf, owned, if_neg (not_not.mpr hten), if_neg (by omega)]

/-- The object as FREE leaves it while its pins stand (R69). -/
def objEnding (o : Obj) : Obj := { o with state := .zombie, dirty := true }

/-- The tables, and no die's translations, after FREE of object `i` and before its pins are looked at. -/
def objFreed (s : State) (i : Nat) : State := putObj (dropXlate s (fun e => e.handle % 2 ^ 20 == i)).2 i (objEnding (objOf s 0 i))

theorem cmdObjFree_freed (hg : h / 2 ^ 20 = (objOf s 0 (h % 2 ^ 20)).gen) (hv : (objOf s 0 (h % 2 ^ 20)).state = .valid)
    (ht : (tenantOf s 0 (objOf s 0 (h % 2 ^ 20)).tenant).state ≠ .resetting) :
    cmdObjFree s h = objDone (settleObj (objFreed s (h % 2 ^ 20)) (h % 2 ^ 20)) (h % 2 ^ 20) 0 (packagePins s (h % 2 ^ 20)) := by
  rw [cmdObjFree]; dsimp only
  rw [if_neg (not_not.mpr hg), if_neg (not_not.mpr hv), if_neg ht]
  rfl

end

section
variable (s : State) (i : Nat)

theorem objOf_objFreed : objOf (objFreed s i) 0 i = objEnding (objOf s 0 i) := objOf_putObj_same _ i (ne_objFree_of_dirty rfl)

/-- Without pins the freed object is FREE with the next generation; with pins it stays ZOMBIE (R69). -/
theorem settleObj_objFreed : settleObj (objFreed s i) i = if packagePins s i = 0 then
    putObj (objFreed s i) i { objOf s 0 i with state := .free, gen := ((objOf s 0 i).gen + 1) % 4096, dirty := true } else objFreed s i := by
  have zombie : mget objFree (tabs (objFreed s i)).objects i = objEnding (objOf s 0 i) := objOf_objFreed s i
  have pins : packagePins (objFreed s i) i = packagePins s i := rfl
  rw [settleObj]; dsimp only
  rw [zombie, pins]
  by_cases h : packagePins s i = 0
  · rw [if_pos ⟨rfl, h⟩, if_pos h]; rfl
  · rw [if_neg (fun e => h e.2), if_neg h]

theorem settleObj_objFreed_frame : settleObj (objFreed s i) i =
    { s with tables := (settleObj (objFreed s i) i).tables, memu := (settleObj (objFreed s i) i).memu } := by
  rw [settleObj_objFreed]; split <;> rfl

/-- FREE of an object changes the tables, the translations and D0's registers. -/
theorem objDone_freed (pins : Nat) : let t := objDone (settleObj (objFreed s i) i) i 0 pins
    t = { setHregs s 0 (getHregs t 0) with tables := t.tables, memu := t.memu } := by
  intro t
  obtain ⟨x, reported⟩ : ∃ x, t = setHregs (settleObj (objFreed s i) i) 0 x := objDone_eq _ i pins
  have freed := settleObj_objFreed_frame s i
  clear_value t
  generalize settleObj (objFreed s i) i = z at reported freed
  subst reported
  rw [freed]; rfl

theorem settleObj_objFreed_xlate (d : DieId) : (getMemu (settleObj (objFreed s i) i) d).xlate =
    (getMemu (dropXlate s (fun e => e.handle % 2 ^ 20 == i)).2 d).xlate := by
  rw [settleObj_objFreed]; split <;> rfl

theorem settleObj_objFreed_other {j : Nat} (hj : j ≠ i) : objOf (settleObj (objFreed s i) i) 0 j = objOf s 0 j := by
  have freed : objOf (objFreed s i) 0 j = objOf s 0 j := objOf_putObj_other _ _ hj
  rw [settleObj_objFreed]
  split
  · exact (objOf_putObj_other _ _ hj).trans freed
  · exact freed

end

/-- An entry that passes its checks is that of a VALID object, still to be written back. -/
theorem objRecord_some {b : List Byte} {gen : Nat} {x : Obj} (h : objRecord b gen = some x) :
    x.state = .valid ∧ x.gen = gen ∧ x.dirty = true := by
  unfold objRecord at h; dsimp only at h
  split at h
  · cases h; exact ⟨rfl, rfl, rfl⟩
  · cases h

/-! ### The writeback of an entry (R69) -/

/-- The code of an object's state in its entry (Table 3.15). -/
def objCode (o : Obj) : Byte := BitVec.ofNat 8 (match o.state with | .free => 0 | .valid => 1 | .zombie => 2)

theorem objCode_eq (o : Obj) : objCode o = match o.state with | .free => 0 | .valid => 1 | .zombie => 2 := by
  unfold objCode; cases o.state <;> rfl

/-- The bytes that a writeback stores: STATE, and GEN two bytes on. -/
def entryCells (pa : Nat) (o : Obj) : List Host.Cell := (pa, objCode o) :: cellsAt (pa + 2) (natLe 2 o.gen)

theorem entryCells_gen {pa : Nat} {o : Obj} : ∀ e ∈ cellsAt (pa + 2) (natLe 2 o.gen), e.1 = pa + 2 ∨ e.1 = pa + 3 := by
  intro e he
  have := cellsAt_range (pa + 2) (natLe 2 o.gen) e he
  rw [natLe_length] at this
  omega

section
variable {s : State} (h : Memory.wf s.mem) (pa : Nat) (o : Obj)

include h in
theorem memByte_entryCells : memByte (writeCells s (entryCells pa o)) pa = objCode o := by
  refine putCells_agreeing h (fun e he ha => ?_) ⟨(pa, objCode o), List.mem_cons_self, rfl⟩
  rcases List.mem_cons.mp he with rfl | he
  · rfl
  · have := entryCells_gen e he; omega

include h in
theorem memRead_entryCells : memRead (writeCells s (entryCells pa o)) (pa + 2) 2 = natLe 2 o.gen := by
  have read := memRead_writeCells (s := { s with mem := mput 0 s.mem pa (objCode o) }) (mput_mwf s.mem pa _ h) (pa + 2) (natLe 2 o.gen)
  rw [natLe_length] at read
  exact read

theorem memByte_entryCells_other {x : Nat} (h0 : x ≠ pa) (h2 : x ≠ pa + 2) (h3 : x ≠ pa + 3) :
    memByte (writeCells s (entryCells pa o)) x = memByte s x := by
  refine writeCells_other s _ x fun e he => ?_
  rcases List.mem_cons.mp he with rfl | he
  · exact h0.symm
  · have := entryCells_gen e he; omega

end

theorem exec_objectEntryWriteback {s : State} {index : BitVec 20}
    (hd : (objOf s 0 index.toNat).dirty = true) (hv : bit (getHregs s 0).objTable 0 = true)
    (hr : reach s 0 (dieOf (fld (getHregs s 0).objTable 39 12 * 4096 + 32 * index.toNat)) = true) :
    ∃ q, exec (.objectEntryWriteback index) s = .next (writeCells { s with tables := q }
      (entryCells (fld (getHregs s 0).objTable 39 12 * 4096 + 32 * index.toNat) (objOf s 0 index.toNat))) := by
  obtain ⟨q, run⟩ : ∃ q, exec (.objectEntryWriteback index) s =
      event ((objOf s 0 index.toNat).dirty && bit (getHregs s 0).objTable 0 &&
        reach s 0 (dieOf (fld (getHregs s 0).objTable 39 12 * 4096 + 32 * index.toNat))) s (writeCells { s with tables := q }
        (entryCells (fld (getHregs s 0).objTable 39 12 * 4096 + 32 * index.toNat) (objOf s 0 index.toNat))) := ⟨_, rfl⟩
  exact ⟨q, run.trans (event_true _ _ (by rw [hd, hv, hr]; rfl))⟩

end Sys2Proof.Machine

namespace Sys2Proof

open Machine

/-- R65: CREATE of a context that passes its checks. -/
theorem contextCreate_live {s : State} {c : W16} (served : Served s 0 4) :
    (∀ x u, (ctxOf s 0 c.toNat).state = .free → readCtx s c.toNat = (some x, u) → (tenantOf s 0 x.tenant).state = .enabled →
      tenantContexts s x.tenant < (tenantOf s 0 x.tenant).maxContexts → x.prio ≤ (tenantOf s 0 x.tenant).prioCeil →
      ReadOnly s u ∧ Answers (.contextCreate 0 c) s fun t =>
        (∀ d : DieId, inStep s d = true → ctxOf t d c.toNat = x) ∧ x.state = .live ∧ fld (getHregs t 0).ctxResult 23 16 = 0 ∧
        (∀ b, b ≠ c.toNat → ctxOf t 0 b = ctxOf s 0 b) ∧
        t = { setHregs u 0 { getHregs s 0 with ctxResult := (getHregs t 0).ctxResult } with tables := t.tables }) := by
  intro x u hfree hread hten hquota hprio
  obtain ⟨read, live⟩ := readCtx_some hread
  have listed : x ≠ ctxFree := ne_ctxFree (by simp [live])
  have steps (d : DieId) : inStep u d = inStep s d := by unfold ReadOnly at read; rw [read]; rfl
  refine ⟨read, _, (d0Command_zero _ served).trans (congrArg _ (cmdCtxCreate_made hfree hread hten hquota hprio)),
    fun d hd => ?_, live, fld_ctxDone_status _ _ (by decide), fun b hb => ?_, ?_⟩
  · rw [ctxOf_ctxDone, ctxOf_putCtx_inStep u _ listed ((steps d).trans hd)]
  · rw [ctxOf_ctxDone, ctxOf_putCtx_other u _ x hb, read.looked.ctxOf]
  · rw [show getHregs s 0 = getHregs u 0 from congrArg (qget · 0) read.looked.hregs.symm]
    exact ctxDone_putCtx u c.toNat x

/-- Settles O13: each command's own equation, then what the tables, the result and the memory are. -/
theorem contextAndObjectCommands : Obligations.ContextAndObjectCommands := by
  unfold Obligations.ContextAndObjectCommands
  refine ⟨fun s c served => ⟨contextCreate_live served, fun hstate => ?_, fun hstate hqueues hten => ?_, fun hqueues => ?_,
    fun hstate hslots hwf => ?_, ?_, fun hstate hten => ?_, fun hstate => ?_⟩, fun s h => ?_⟩
  · exact ⟨_, (d0Command_zero _ served).trans (congrArg _ (cmdCtxCreate_badState hstate)), rfl, fld_ctxDone_status _ _ (by decide)⟩
  · refine ⟨_, (d0Command_zero _ served).trans (congrArg _ (cmdCtxDestroy_begun hstate hqueues hten)), ?_,
      xlate_ctxInvalidated _ c.toNat, fun b hb => ?_, ?_, fun x hx => ?_⟩
    · rw [ctxOf_ctxInvalidated, ctxOf_ctxDiscarded_same]
    · rw [ctxOf_ctxInvalidated, ctxOf_ctxDiscarded_other s _ hb]
    · rw [queues_ctxInvalidated, queues_ctxDiscarded]
    · rw [memByte_ctxInvalidated, memByte_ctxDiscarded s _ hx]
  · exact ⟨_, (d0Command_zero _ served).trans (congrArg _ (cmdCtxDestroy_badState hqueues)), rfl⟩
  · have releases : ReleasesOnly s (allDies.foldl (dropCtxPins c.toNat) s) :=
      releasesOnly_foldl (fun t d => dropCtxPins_releasesOnly c.toNat t d) allDies s
    have released (d : DieId) : PinsReleased c.toNat (allDies.foldl (dropCtxPins c.toNat) s) d := pinsReleased_foldl (.inl (mem_allDies d))
    have run := exec_contextDestroyDone hstate hslots
    generalize allDies.foldl (dropCtxPins c.toNat) s = z at releases released run
    have other (b : Nat) : ctxOf z 0 b = ctxOf s 0 b := congrArg (mget ctxFree · b) releases.contexts
    refine ⟨_, run, ctxOf_putCtx_free z _ (by rwa [releases.contexts]), fun b hb => (ctxOf_putCtx_other z c.toNat _ hb).trans (other b),
      released, ?_⟩
    rw [releases.frame]; rfl
  · exact ⟨_, d0Command_zero _ served, ctxDone_hregs s c.toNat, fld_ctxDone_status _ _ (by decide), fld_ctxDone_context _ _ (by decide) c.isLt,
      fld_ctxDone_seq _ _⟩
  · refine ⟨_, (d0Command_zero _ served).trans (congrArg _ (cmdClearFault_live hstate hten)), ?_, fun b hb => ?_, ?_, fun x => ?_⟩
    · rw [ctxOf_ctxDone, ctxOf_putCtx_same s _ (ne_ctxFree (by simp))]
    · rw [ctxOf_ctxDone, ctxOf_putCtx_other s _ _ hb]
    · rw [(ctxDone_leaves _ _).1]; rfl
    · rw [memByte, (ctxDone_leaves _ _).2.1]; rfl
  · exact ⟨_, (d0Command_zero _ served).trans (congrArg _ (cmdClearFault_badState hstate)), rfl⟩
  · intro i
    refine ⟨fun served => ⟨fun b x u hg hfree hi hv hread hrec hten hobjects hpages => ?_, fun hg hv hten => ?_, fun hg cmd hcmd => ?_,
      fun hg => ?_⟩, ?_⟩
    · have read := readFor_some hread
      obtain ⟨valid, gen, dirty⟩ := objRecord_some hrec
      refine ⟨read, _, (d0Command_zero _ served).trans (congrArg _ (cmdObjCreate_made hg hfree hi hv hread hrec hten hobjects hpages)),
        ?_, valid, gen, fld_objDone_status _ _ _ (by decide), fun j hj => ?_, ?_⟩
      · rw [objOf_objDone, objOf_putObj_same u i (ne_objFree_of_dirty dirty)]
      · rw [objOf_objDone, objOf_putObj_other u x hj, read.looked.objOf]
      · rw [show getHregs s 0 = getHregs u 0 from congrArg (qget · 0) read.looked.hregs.symm]
        exact objDone_putObj u i _ x
    · refine ⟨_, (d0Command_zero _ served).trans (congrArg _ (cmdObjFree_freed hg hv hten)), fun none => ?_, fun pinned => ?_, fun d e he => ?_,
        fun j hj => ?_, objDone_freed s i _⟩
      · rw [objOf_objDone, settleObj_objFreed, if_pos none, objOf_putObj_same _ i (ne_objFree_of_dirty rfl)]
        exact ⟨rfl, rfl⟩
      · rw [objOf_objDone, settleObj_objFreed, if_neg pinned, objOf_objFreed]
        exact ⟨rfl, rfl⟩
      · rw [getMemu, objDone_memu] at he
        have kept := settleObj_objFreed_xlate s i d
        rw [getMemu] at kept
        rw [kept] at he
        simpa using xlate_dropXlate s (fun e => e.handle % 2 ^ 20 == i) d e he
      · rw [objOf_objDone, settleObj_objFreed_other s i hj]
    · have run : exec cmd s = .next (objDone s i 4 (packagePins s i)) := by
        simp only [List.mem_cons, List.not_mem_nil, or_false] at hcmd
        rcases hcmd with rfl | rfl | rfl
        · exact (d0Command_zero _ served).trans (congrArg _ (cmdObjCreate_stale hg))
        · exact (d0Command_zero _ served).trans (congrArg _ (cmdObjFree_stale hg))
        · exact (d0Command_zero _ served).trans (congrArg _ (cmdObjQuery_stale hg))
      refine ⟨_, run, ?_, fld_objDone_status _ _ _ (by decide)⟩
      obtain ⟨x, reported⟩ := objDone_eq s i (packagePins s i) (status := 4)
      rw [reported]; simp
    · exact ⟨_, (d0Command_zero _ served).trans (congrArg _ (cmdObjQuery_current hg)), objDone_hregs s i _, fld_objDone_status _ _ _ (by decide),
        fld_objDone_pins _ _ _ (by decide)⟩
    · intro index pa hd hv hr hwf
      obtain ⟨q, run⟩ := exec_objectEntryWriteback hd hv hr
      exact ⟨_, run, (memByte_entryCells hwf pa _).trans (objCode_eq _), memRead_entryCells hwf pa _,
        fun x h0 h2 h3 => memByte_entryCells_other pa _ h0 h2 h3, rfl⟩

end Sys2Proof
end
section
/-! PROOFS. A translation that answers has read every table word it needed, and so has left no time-out (R298, R299, R364). -/

namespace Sys2Proof.Machine

theorem tableWord_ok {s u : State} {d : DieId} {pa : Nat} {v : W64} (h : tableWord s d pa = (.ok v, u)) : ReadOnly s u := by
  unfold tableWord at h; dsimp only at h
  split at h
  · cases h
  · split at h
    · cases h
    · obtain rfl : noteRead s pa 8 = u := congrArg Prod.snd h
      exact noteRead_readOnly s pa 8

theorem walkTables_ok {s u : State} {d : DieId} {root va : Nat} {l : Leaf} (h : walkTables s d root va = (.ok l, u)) : ReadOnly s u := by
  unfold walkTables at h
  split at h
  · cases h
  · rename_i e1 s1 first
    have read := tableWord_ok first
    split at h
    · cases h; exact read
    · cases h
    · split at h
      · cases h
      · rename_i e2 s2 second
        obtain rfl : s2 = u := congrArg Prod.snd h
        exact read.trans (tableWord_ok second)

/-- A word that could not be read is among the causes. -/
theorem listCause_none {ws : List (Except Nat W64)} (h : listCause ws = none) : ∀ c, .error c ∉ ws := by
  intro c hc
  unfold listCause at h; dsimp only at h
  split at h
  · cases h
  · split at h
    · cases h
    · have none := List.filterMap_eq_nil_iff.mp (List.head?_eq_none_iff.mp h) (.error c) hc
      cases none

theorem listWords_ok {d : DieId} {o : Obj} {copy k n : Nat} {s : State} (h : ∀ c, .error c ∉ (listWords d o copy k n s).1) :
    ReadOnly s (listWords d o copy k n s).2 := by
  induction n generalizing k s with
  | zero => exact ReadOnly.refl s
  | succ n ih =>
    have rest := ih (k := k + 1) (s := (tableWord s d (o.pageList + 8 * (if o.place = 1 then copy * o.pages + k else k))).2)
      fun c hc => h c (List.mem_cons_of_mem _ hc)
    refine ReadOnly.trans ?_ rest
    cases word : tableWord s d (o.pageList + 8 * (if o.place = 1 then copy * o.pages + k else k)) with
    | mk w u =>
      cases w with
      | error c => exact absurd (List.mem_cons.mpr (.inl (congrArg Prod.fst word).symm)) (h c)
      | ok v => exact tableWord_ok word

theorem framesOf_ok {s u : State} {d : DieId} {o : Obj} {copy k n : Nat} {fs : List Nat} (h : framesOf s d o copy k n = (.ok fs, u)) :
    ReadOnly s u := by
  unfold framesOf at h; dsimp only at h
  split at h
  · cases h
  · rename_i clear
    obtain rfl : (listWords d o copy k n s).2 = u := congrArg Prod.snd h
    exact listWords_ok (listCause_none clear)

theorem leafFrames_ok {s u : State} {d : DieId} {cx : Ctx} {l : Leaf} {va copy : Nat} {fence : Bool} {fs : List Nat}
    (h : leafFrames s d cx l va copy fence = (.ok fs, u)) : ReadOnly s u := by
  unfold leafFrames at h; dsimp only at h
  split at h
  · cases h
  · split at h
    · cases h
    · rename_i gs s1 framed
      split at h
      · cases h
      · obtain rfl : s1 = u := congrArg Prod.snd h
        exact framesOf_ok framed

/-- A unit's request that is answered has read memory and changed its die's cache of translations. -/
theorem translate_ok {s u : State} {d : DieId} {c va : Nat} {w : Bool} {p : Nat × Nat} (h : translate s d c va { write := w } = (.ok p, u)) :
    ReadOnly s u := by
  cases hit : xlHit (getMemu s d).xlate c va with
  | some e =>
    rcases translate_hit_cases w hit with ⟨y, ht⟩ | ht
    · cases ht.symm.trans h
    · obtain rfl : movedFirst s d e = u := congrArg Prod.snd (ht.symm.trans h)
      rfl
  | none =>
    rcases translate_miss_cases w hit with ⟨y, v, ht, -⟩ | ⟨l, fs, p', v, v', walked, framed, -, ht⟩
    · cases ht.symm.trans h
    · obtain rfl : cachePut v' d _ = u := congrArg Prod.snd (ht.symm.trans h)
      exact ((walkTables_ok walked).trans (leafFrames_ok framed)).trans rfl

end Sys2Proof.Machine
end
section
/-! PROOFS. O15. -/

namespace Sys2Proof.Machine

/-! ### The fetch of a record (R72, R87) -/

/-- A queue whose engine keeps the record fetched at HEAD (R72). -/
def queueFetched (x : Queue) (r : Rec) : Queue := { x with head := (x.head + 1) % 2 ^ 32, fetched := x.fetched ++ [r] }

theorem exec_recordFetch_kept {s u : State} {d : DieId} {q : BitVec 12} {x : Queue} {pa : Nat} {r : Rec} {p : Nat × Nat}
    (hx : x = queueOf s d q.toNat) (hpa : pa = x.ring + 32 * (x.head % 2 ^ x.log2))
    (hrec : r = recordOf (memRead s pa 32) x.head (poisonIn (noteRead s pa 32) pa 32))
    (hruns : dieRuns s d = true) (hstate : x.state = .running) (hage : ageOf x x.head < ageOf x x.tail) (hctx : (ctxOf s d x.ctx).state = .live)
    (hreach : reach s d (dieOf pa) = true) (hrow : rowWaits s pa 32 = false) (hfence : (engineOf s d x.engine).fenced = false)
    (hquiet : tenantQuiet s (ctxOf s d x.ctx).tenant = false) (hend : r.ended = none)
    (hxl : translate (noteRead s pa 32) d x.ctx r.program.toNat {} = (.ok p, u)) :
    exec (.recordFetch d q) s = .next (setQueue u d q.toNat (queueFetched x r)) := by
  have read : memRead (noteRead s pa 32) pa 32 = memRead s pa 32 := by rw [memRead, funext (memByte_noteRead s pa 32)]; rfl
  have runs : ¬ (¬ dieRuns s d ∨ x.state ≠ .running ∨ ageOf x x.tail ≤ ageOf x x.head ∨ (ctxOf s d x.ctx).state ≠ .live
      ∨ rowWaits s pa 32 ∨ (engineOf s d x.engine).fenced ∨ tenantQuiet s (ctxOf s d x.ctx).tenant) := by
    simp [hruns, hstate, hctx, hrow, hfence, hquiet, hage]
  change execRecordFetch d q s = _
  rw [execRecordFetch]; dsimp only
  rw [← hx, ← hpa, if_neg runs, if_neg (not_not.mpr hreach), read, ← hrec, hend]; dsimp only
  rw [hxl]; rfl

/-! ### What a change of a die's queues and stokers leaves -/

theorem recordsOnly_setStk (s : State) (d : DieId) (k : StokerUnit) : RecordsOnly d s (setStk s d k) := recordsOnly_stk (by rw [getStk_setStk])

theorem RecordsOnly.frame {d : DieId} {s t : State} (h : RecordsOnly d s t) : t = setQueues (setStk s d (getStk t d)) d (getQueues t d) := by
  obtain ⟨q, k, rfl⟩ := h
  have queues : getQueues (setStk (setQueues s d q) d k) d = q := getQueues_setQueues s d q
  rw [getStk_setStk, queues]; rfl

/-! ### The hand-out of a record (R86, R88) -/

theorem freeFrames_lt {s : State} {d : DieId} {k f : Nat} (h : f ∈ freeFrames s d k) : f < 4 * k + 4 := by
  have inStoker := (List.mem_filter.mp h).1
  rw [countUp_eq_range', List.mem_range'] at inStoker
  obtain ⟨i, hi, rfl⟩ := inStoker
  omega

/-- The stoker that a fold over stokers settles on is one of them. -/
theorem foldl_pick_mem {f : Option Nat → Nat → Option Nat} (hf : ∀ b k j, f b k = some j → j = k ∨ b = some j)
    {l : List Nat} {b : Option Nat} {j : Nat} (h : l.foldl f b = some j) : j ∈ l ∨ b = some j := by
  induction l generalizing b with
  | nil => exact .inr h
  | cons k r ih =>
    rcases ih h with hr | hb
    · exact .inl (List.mem_cons_of_mem _ hr)
    · rcases hf b k j hb with rfl | hb
      · exact .inl List.mem_cons_self
      · exact .inr hb

/-- A frame picked is one of the die's thirty-two. -/
theorem pickFrame_lt {s : State} {d : DieId} {p : Nat → Bool} {f : Nat} (h : pickFrame s d p = some f) : f < 32 := by
  obtain ⟨k, hk, hf⟩ := Option.bind_eq_some_iff.mp h
  have stoker : k < 8 := by
    refine (foldl_pick_mem (fun b k j hj => ?_) hk).elim (fun hmem => ?_) (fun e => by cases e)
    · split at hj
      · split at hj
        · split at hj
          · exact .inl (Option.some.inj hj).symm
          · exact .inr hj
        · exact .inl (Option.some.inj hj).symm
      · exact .inr hj
    · rw [countUp_eq_range', List.mem_range'] at hmem
      obtain ⟨i, hi, rfl⟩ := hmem
      omega
  have := freeFrames_lt (List.mem_of_head? hf)
  omega

/-- The run that a record begins on frame `f`. -/
def runBegun (r : Rec) (f : Nat) : RunRec := { record := r, frame := f, status := none, ctxFault := false, aborted := false, opsOut := 0 }

/-- The state in which record `r` of queue `q` has frame `f`, which becomes ready next (R86, R88). -/
def handedOut (s : State) (d : DieId) (q f : Nat) (r : Rec) (rest : List Rec) : State :=
  let x := queueOf s d q
  let s2 := setFrame (setQueue s d q { x with fetched := rest, runs := x.runs ++ [runBegun r f] }) d f
    (frameStart f q x (ctxOf s d x.ctx).tenant r)
  let s3 := setStk s2 d { getStk s2 d with lastEngine := x.engine }
  setEngine s3 d x.engine { engineOf s3 d x.engine with lastQueue := q }

theorem exec_recordHandout {s : State} {d : DieId} {q f : Nat} {r : Rec} {rest : List Rec} (hruns : dieRuns s d = true)
    (hq : (((countUp ((getStk s d).lastEngine + 1) 13).map (fun e => e % 13)).flatMap (fun e =>
        (offers s d e).filter (frameQuota s d))).head? = some q)
    (hf : pickFrame s d (stokerOpen s d) = some f) (hr : (queueOf s d q).fetched = r :: rest) :
    exec (.recordHandout d) s = .next (readyFrame (handedOut s d q f r rest) d f) := by
  change execRecordHandout d s = _
  rw [execRecordHandout]; dsimp only
  rw [hq, hf, hruns]; dsimp only
  rw [hr]; rfl

section
variable (s : State) (d : DieId) (q f : Nat) (r : Rec) (rest : List Rec)

theorem frames_handedOut : (getStk (handedOut s d q f r rest) d).frames =
    lset (getStk s d).frames f (frameStart f q (queueOf s d q) (ctxOf s d (queueOf s d q).ctx).tenant r) := by
  simp [handedOut, setEngine, setFrame, setQueue]

theorem queueOf_handedOut : queueOf (handedOut s d q f r rest) d q =
    { queueOf s d q with fetched := rest, runs := (queueOf s d q).runs ++ [runBegun r f] } := by
  have listed : { queueOf s d q with fetched := rest, runs := (queueOf s d q).runs ++ [runBegun r f] } ≠ queueFree := fun e => by
    have none : (queueOf s d q).runs ++ [runBegun r f] = [] := congrArg Queue.runs e
    simp at none
  have put := queueOf_setQueue_listed s d q listed
  rw [queueOf] at put ⊢
  simpa [handedOut, setEngine, setFrame] using put

theorem handedOut_recordsOnly : RecordsOnly d s (handedOut s d q f r rest) := by
  have queued := recordsOnly_queues (setQueue_queues s d q { queueOf s d q with fetched := rest, runs := (queueOf s d q).runs ++ [runBegun r f] })
  refine queued.trans ((recordsOnly_stk (setFrame_stk _ d f _)).trans (RecordsOnly.trans (recordsOnly_setStk _ d _) (recordsOnly_setStk _ d _)))

variable {s d q f r rest}

theorem frameOf'_handedOut_same (h : f < (getStk s d).frames.length) : frameOf' (handedOut s d q f r rest) d f =
    frameStart f q (queueOf s d q) (ctxOf s d (queueOf s d q).ctx).tenant r := by
  rw [frameOf', frames_handedOut]; exact lget_lset_same _ _ h

theorem frameOf'_handedOut_other {g : Nat} (h : g ≠ f) : frameOf' (handedOut s d q f r rest) d g = frameOf' s d g := by
  rw [frameOf', frames_handedOut]; exact lget_lset_other _ h

theorem queueOf_readyFrame (u : State) (k : Nat) : queueOf (readyFrame u d f) d k = queueOf u d k := by
  rw [readyFrame_stk]; rfl

end

/-- The registers of Table 4.1 that a frame starts with. -/
theorem frameStart_regs (f q : Nat) (x : Queue) (tenant : Nat) (r : Rec) :
    let y := frameStart f q x tenant r
    mget 0 y.regs 2 = 0x3000 ∧ mget 0 y.regs 10 = BitVec.ofNat 32 (fld r.arg0 31 0) ∧ mget 0 y.regs 11 = BitVec.ofNat 32 (fld r.arg0 63 32) ∧
      mget 0 y.regs 12 = BitVec.ofNat 32 (fld r.arg1 31 0) ∧ mget 0 y.regs 13 = BitVec.ofNat 32 (fld r.arg1 63 32) := by
  intro y
  have sp : mwf 0 (mput 0 ([] : Map W32) 2 0x3000) = true := mput_mwf _ _ _ rfl
  have first (v : W32) := mput_mwf _ 10 v sp
  have second (v w : W32) := mput_mwf _ 11 w (first v)
  have third (v w z : W32) := mput_mwf _ 12 z (second v w)
  refine ⟨?_, ?_, ?_, ?_, ?_⟩ <;> simp only [y, frameStart]
  · simp only [mget_mput_other (0 : W32) _ _ (show 2 ≠ 13 by decide), mget_mput_other (0 : W32) _ _ (show 2 ≠ 12 by decide),
      mget_mput_other (0 : W32) _ _ (show 2 ≠ 11 by decide), mget_mput_other (0 : W32) _ _ (show 2 ≠ 10 by decide)]
    exact mget_mput_same _ 2 _ rfl
  · simp only [mget_mput_other (0 : W32) _ _ (show 10 ≠ 13 by decide), mget_mput_other (0 : W32) _ _ (show 10 ≠ 12 by decide),
      mget_mput_other (0 : W32) _ _ (show 10 ≠ 11 by decide)]
    exact mget_mput_same _ 10 _ sp
  · simp only [mget_mput_other (0 : W32) _ _ (show 11 ≠ 13 by decide), mget_mput_other (0 : W32) _ _ (show 11 ≠ 12 by decide)]
    exact mget_mput_same _ 11 _ (first _)
  · simp only [mget_mput_other (0 : W32) _ _ (show 12 ≠ 13 by decide)]
    exact mget_mput_same _ 12 _ (second _ _)
  · exact mget_mput_same _ 13 _ (third _ _ _)

/-! ### The retirement of a record (R75, R106) -/

/-- The queue in which the record at DONE, and no other, has ended well (R75). -/
def queuePosted (x : Queue) (count tag : Nat) : Queue :=
  { x with runs := x.runs.filter (fun y => !(y.record.count == count)), done := (count + 1) % 2 ^ 32, ended := [],
           slot := packFields [((count + 1) % 2 ^ 32, 0), (0, 32), (tag, 48)] }

theorem endRecord_atDone {x : Queue} {count : Nat} (tag : Nat) (hx : x.state ≠ .draining) (he : x.ended = []) (hd : x.done = count) :
    endRecord { x with runs := x.runs.filter (fun y => !(y.record.count == count)) } count 0 tag = queuePosted x count tag := by
  subst hd
  simp [endRecord, postRecords, queuePosted, he, hx]

theorem abortSteps_none {s : State} {d : DieId} {p : GenStep → Bool} (h : ∀ x ∈ (getGen s d).steps, p x = false) : abortSteps s d p = s := by
  rw [abortSteps, List.filter_eq_nil_iff.mpr (by simpa using h)]; rfl

theorem exec_recordRetire {s : State} {d : DieId} {q : BitVec 12} {count : W32} {r : RunRec}
    (hr : runOf (queueOf s d q.toNat) count.toNat = some r) (hops : r.opsOut = 0) (hpark : (frameOf' s d r.frame).park = .ended)
    (hsteps : ∀ x ∈ (getGen s d).steps, ¬ (x.queue = q.toNat ∧ x.count = count.toNat)) :
    exec (.recordRetire d q count) s = .next (retireRun s d q.toNat r) := by
  have nothingOpen : abortSteps s d (fun x => x.queue == q.toNat && x.count == count.toNat) = s :=
    abortSteps_none fun x hx => by simpa using hsteps x hx
  change execRecordRetire d q count s = _
  rw [execRecordRetire, hr]; dsimp only
  rw [nothingOpen]
  exact event_true _ _ (by simp [hops, hpark])

/-! ### The contact sheet and the slices (R85, R89) -/

/-- The sheet reports nothing of itself. -/
theorem sheetBytes_setSheet (s : State) (d : DieId) (x : Sheet) : sheetBytes (setSheet s d x) d = sheetBytes s d := rfl

theorem exec_contactSheetRewrite {s : State} {d : DieId} (hp : s.board.powerOk = true) (hs : (getSec s d).started = true)
    (hb : (getSheet s d).bytes ≠ sheetBytes s d) :
    exec (.contactSheetRewrite d) s = .next (setSheet s d { bytes := sheetBytes s d, gen := (getSheet s d).gen + 2 }) :=
  event_true _ _ (by simp [hp, hs, hb])

/-- The stoker whose issuing frame's slice has ended: the frame stands last in the rotation (R89). -/
theorem exec_sliceEnd {s : State} {d : DieId} {st : Fin 8} (ht : (stokerOf s d st.val).sliceAt + 7448 ≤ dtime s d)
    (hc : (stokerOf s d st.val).cur < 4) : ∃ cur, exec (.sliceEnd d st) s = .next (setStoker s d st.val
      { stokerOf s d st.val with
        order := (stokerOf s d st.val).order.filter (fun x => !(x == (stokerOf s d st.val).cur)) ++ [(stokerOf s d st.val).cur],
        cur := cur, sliceAt := dtime s d }) := by
  have stoker : (4 * st.val + (stokerOf s d st.val).cur) / 4 = st.val := by omega
  have place : (4 * st.val + (stokerOf s d st.val).cur) % 4 = (stokerOf s d st.val).cur := by omega
  have run : exec (.sliceEnd d st) s = .next (endSlice s d (4 * st.val + (stokerOf s d st.val).cur)) := event_true _ _ (decide_eq_true ht)
  rw [run, endSlice]; dsimp only
  rw [stoker, place, if_pos rfl]
  exact ⟨_, rfl⟩

/-! ### Frames all parked while records wait (R90) -/

/-- The entry that a die makes of it. -/
def fullEntry (s : State) (d : DieId) : LogInfo := { code := 0x0202, kind := 0x0D, detail := detV (recordsWaiting s d) 0 }

theorem framesFull_of_parked {s : State} {d : DieId} (hf : ∀ f ∈ (getStk s d).frames, f.busy = true ∧ f.park ≠ .ready)
    (hq : ∃ e ∈ getQueues s d, e.2.fetched ≠ []) : framesFull s d = true := by
  obtain ⟨e, he, hne⟩ := hq
  have waiting : 0 < recordsWaiting s d :=
    lt_of_lt_of_le (List.length_pos_iff.mpr hne) (List.single_le_sum (by simp) _ (List.mem_map.mpr ⟨e, he, rfl⟩))
  have parked : ((getStk s d).frames.all fun f => f.busy && !(f.park == .ready)) = true :=
    List.all_eq_true.mpr fun f hm => by simp [hf f hm]
  rw [framesFull, parked, decide_eq_true waiting]; rfl

section
variable {s : State} {d : DieId}

theorem noteFull_notFull (h : framesFull s d = false) : noteFull s d = setStk s d { getStk s d with fullSince := none, fullLogged := 0 } := by
  rw [noteFull, h]; rfl

theorem noteFull_begins (h : framesFull s d = true) (h0 : (getStk s d).fullSince = none) :
    noteFull s d = setStk s d { getStk s d with fullSince := some (dtime s d), fullLogged := 0 } := by
  rw [noteFull, h, h0]; rfl

theorem noteFull_lasts (h : framesFull s d = true) {t0 : Nat} (h0 : (getStk s d).fullSince = some t0) : noteFull s d = s := by
  rw [noteFull, h, h0]; rfl

theorem exec_framesFull_notFull (h : framesFull s d = false) :
    exec (.framesFull d) s = .next (setStk s d { getStk s d with fullSince := none, fullLogged := 0 }) := by
  change execFramesFull d s = _
  rw [execFramesFull, noteFull_notFull h]; dsimp only
  rw [getStk_setStk]; rfl

/-- The mark of the condition after its entry `n` (R90). -/
def fullMarked (s : State) (d : DieId) (t0 n : Nat) : State := setStk s d { getStk s d with fullSince := some t0, fullLogged := n }

theorem exec_framesFull_begins (h : framesFull s d = true) (h0 : (getStk s d).fullSince = none) :
    exec (.framesFull d) s = .next (logEntry (fullMarked s d (dtime s d) 1) d (fullEntry s d)) := by
  change execFramesFull d s = _
  rw [execFramesFull, noteFull_begins h h0]; dsimp only
  rw [getStk_setStk]; dsimp only
  rw [Nat.sub_self, setStk_setStk]
  exact event_true _ _ rfl

theorem exec_framesFull_due (h : framesFull s d = true) {t0 : Nat} (h0 : (getStk s d).fullSince = some t0)
    (ht : t0 + (getStk s d).fullLogged * 1000000 ≤ dtime s d) :
    exec (.framesFull d) s = .next (logEntry (fullMarked s d t0 ((dtime s d - t0) / 1000000 + 1)) d (fullEntry s d)) := by
  have due : (getStk s d).fullLogged ≤ (dtime s d - t0) / 1000000 := by omega
  change execFramesFull d s = _
  rw [execFramesFull, noteFull_lasts h h0, h0]
  exact event_true _ _ (decide_eq_true due)

theorem exec_framesFull_waits (h : framesFull s d = true) {t0 : Nat} (h0 : (getStk s d).fullSince = some t0)
    (ht : dtime s d < t0 + (getStk s d).fullLogged * 1000000) (hle : t0 ≤ dtime s d) : exec (.framesFull d) s = .next s := by
  have early : ¬ (getStk s d).fullLogged ≤ (dtime s d - t0) / 1000000 := by omega
  change execFramesFull d s = _
  rw [execFramesFull, noteFull_lasts h h0, h0]
  exact event_false _ _ (decide_eq_false early)

end

theorem framesFull_logEntry_marked (s : State) (d : DieId) (t0 n : Nat) (i : LogInfo) :
    framesFull (logEntry (fullMarked s d t0 n) d i) d = framesFull s d := by
  have stk : getStk (logEntry (fullMarked s d t0 n) d i) d = { getStk s d with fullSince := some t0, fullLogged := n } := getStk_setStk s d _
  rw [framesFull, stk]; rfl

/-- The state after an entry of R90: the stokers' mark and the logbook of the die. -/
theorem fullLogged_frame (s : State) (d : DieId) (t0 n : Nat) : let t := logEntry (fullMarked s d t0 n) d (fullEntry s d)
    (getStk t d).fullSince = some t0 ∧ (getStk t d).fullLogged = n ∧ getLog t d = getLog (logEntry s d (fullEntry s d)) d ∧
      t = setLog (setStk s d (getStk t d)) d (getLog t d) := by
  intro t
  have stk : getStk t d = { getStk s d with fullSince := some t0, fullLogged := n } := getStk_setStk s d _
  refine ⟨by rw [stk], by rw [stk], getLog_logEntry rfl rfl rfl, ?_⟩
  rw [stk]; exact logEntry_eq_setLog _ d _

end Sys2Proof.Machine

namespace Sys2Proof

open Machine

/-- Settles O15: a record's way from the ring to its completion slot, and what the sheet, the slices and R90's entries do. -/
theorem recordsSlicesAndTheSheet : Obligations.RecordsSlicesAndTheSheet := by
  unfold Obligations.RecordsSlicesAndTheSheet
  refine ⟨⟨?_, ?_, ?_⟩, fun s d => ⟨fun hp hs hb => ?_, ?_, ?_, fun h => ⟨_, exec_framesFull_notFull h, rfl⟩⟩⟩
  · intro s d q p u x pa z r hruns hstate hage hctx hreach hrow hfence hquiet hend hxl
    have read : ReadOnly s u := (noteRead_readOnly s pa 32).trans (translate_ok hxl)
    have put : queueOf (setQueue u d q.toNat (queueFetched x r)) d q.toNat = queueFetched x r :=
      queueOf_setQueue_running (.inl hstate)
    have doneKept : (queueOf (setQueue u d q.toNat (queueFetched x r)) d q.toNat).done = (queueFetched x r).done := congrArg Queue.done put
    have queues (k : Nat) : queueOf u d k = queueOf s d k := by unfold ReadOnly at read; rw [read]; rfl
    refine ⟨read, _, exec_recordFetch_kept rfl rfl rfl hruns hstate hage hctx hreach hrow hfence hquiet hend hxl,
      congrArg Queue.fetched put, congrArg Queue.head put, rfl, doneKept,
      fun k hk => (queueOf_setQueue_other u d _ hk).trans (queues k), setQueue_queues u d _ _⟩
  · intro s d q f r rest hruns hlen hq hf hr
    have inFrames : f < (getStk s d).frames.length := by rw [hlen]; exact pickFrame_lt hf
    have inHanded : f < (getStk (handedOut s d q f r rest) d).frames.length := by rwa [frames_handedOut, length_lset]
    have frame : frameOf' (readyFrame (handedOut s d q f r rest) d f) d f =
        frameStart f q (queueOf s d q) (ctxOf s d (queueOf s d q).ctx).tenant r :=
      (frameOf'_readyFrame_same inHanded).trans (congrArg (fun y : Frame => { y with park := .ready }) (frameOf'_handedOut_same inFrames))
    have queue : queueOf (readyFrame (handedOut s d q f r rest) d f) d q = _ := (queueOf_readyFrame _ q).trans (queueOf_handedOut s d q f r rest)
    obtain ⟨x2, x10, x11, x12, x13⟩ := frameStart_regs f q (queueOf s d q) (ctxOf s d (queueOf s d q).ctx).tenant r
    refine ⟨_, exec_recordHandout hruns hq hf hr, ?_⟩
    dsimp only
    rw [frame]
    refine ⟨rfl, rfl, rfl, rfl, rfl, rfl, rfl, x2, x10, x11, x12, x13, rfl, congrArg Queue.fetched queue,
      ⟨runBegun r f, congrArg Queue.runs queue, rfl, rfl⟩, fun g hg => ?_, ?_⟩
    · exact (frameOf'_readyFrame_other hg).trans (frameOf'_handedOut_other hg)
    · exact ((handedOut_recordsOnly s d q f r rest).trans (recordsOnly_stk (readyFrame_stk _ d f))).frame
  · intro s d q count r hr hops hpark hlen hsteps hended hdone hstatus hstate
    have named : r.record.count = count.toNat := by simpa using List.find?_some hr
    have posted := endRecord_atDone r.record.tag (by rcases hstate with h | h <;> simp [h]) hended hdone
    have retired : retireRun s d q.toNat r =
        setFrame (setQueue s d q.toNat (queuePosted (queueOf s d q.toNat) count.toNat r.record.tag)) d r.frame (frameFree r.frame) := by
      rw [retireRun, hstatus, named, posted]
    have put : queueOf (setQueue s d q.toNat (queuePosted (queueOf s d q.toNat) count.toNat r.record.tag)) d q.toNat =
        queuePosted (queueOf s d q.toNat) count.toNat r.record.tag := queueOf_setQueue_running hstate
    have stateKept : (queueOf (setQueue s d q.toNat (queuePosted (queueOf s d q.toNat) count.toNat r.record.tag)) d q.toNat).state =
        (queuePosted (queueOf s d q.toNat) count.toNat r.record.tag).state := congrArg Queue.state put
    refine ⟨_, (exec_recordRetire hr hops hpark hsteps).trans (congrArg _ retired), frameOf'_setFrame_same _ hlen,
      congrArg Queue.done put, congrArg Queue.slot put, stateKept,
      fun k hk => queueOf_setQueue_other s d _ hk, fun a => rfl⟩
  · refine ⟨_, exec_contactSheetRewrite hp hs hb, ?_, ?_, ?_⟩
    · rw [sheetBytes_setSheet, getSheet_setSheet]
    · rw [getSheet_setSheet]
    · rw [getSheet_setSheet]
  · intro st k ht hc hlen
    obtain ⟨cur, run⟩ := exec_sliceEnd ht hc
    have put (y : Stoker) : stokerOf (setStoker s d st.val y) d st.val = y := by
      rw [stokerOf, setStoker, getStk_setStk]
      exact lget_lset_same _ y (by rw [hlen]; exact st.isLt)
    refine ⟨_, run, ?_, ?_, ?_, ?_⟩
    · rw [put]
    · rw [put]
    · rw [setStoker, getStk_setStk]
    · rw [setStoker, getStk_setStk]
  · intro hf hq entry
    have full := framesFull_of_parked hf hq
    refine ⟨fun h0 => ?_, fun t0 h0 => ⟨fun due => ?_, fun early hle => exec_framesFull_waits full h0 early hle⟩⟩
    · obtain ⟨since, logged, log, frame⟩ := fullLogged_frame s d (dtime s d) 1
      refine ⟨_, exec_framesFull_begins full h0, since, frame, log, ?_⟩
      have now : dtime (logEntry (fullMarked s d (dtime s d) 1) d (fullEntry s d)) d = dtime s d := rfl
      refine exec_framesFull_waits ((framesFull_logEntry_marked s d _ 1 _).trans full) since ?_ (le_of_eq now.symm)
      rw [logged, now]; omega
    · obtain ⟨since, logged, log, frame⟩ := fullLogged_frame s d t0 ((dtime s d - t0) / 1000000 + 1)
      exact ⟨_, exec_framesFull_due full h0 due, logged, since, log ▸ frame⟩

end Sys2Proof
end
section
/-! PROOFS. What leaves D0's tenants and the resets under way: the pins, the records and frames, the groups, and what the engines discard in a
tenant reset (R331, R346, R416). -/

namespace Sys2Proof.Machine

/-! ### What leaves the tenants and the resets -/

/-- D0's tenants and the resets under way are the same in two states. -/
def SameTenants (s t : State) : Prop := (getTables t 0).tenants = (getTables s 0).tenants ∧ t.resets = s.resets

theorem SameTenants.refl (s : State) : SameTenants s s := ⟨rfl, rfl⟩

theorem SameTenants.trans {s t u : State} (h1 : SameTenants s t) (h2 : SameTenants t u) : SameTenants s u :=
  ⟨h2.1.trans h1.1, h2.2.trans h1.2⟩

/-- Steps that each leave them do so in turn. -/
theorem sameTenants_foldl {α : Type} {f : State → α → State} (hf : ∀ s x, SameTenants s (f s x)) (l : List α) (s : State) :
    SameTenants s (l.foldl f s) := by
  induction l generalizing s with
  | nil => exact SameTenants.refl s
  | cons x r ih => exact (hf s x).trans (ih _)

theorem Looked.sameTenants {s u : State} (h : Looked s u) : SameTenants s u := by
  unfold Looked at h; rw [h]; exact ⟨rfl, rfl⟩

theorem sameTenants_ite {c : Prop} [Decidable c] {s t u : State} (ht : SameTenants s t) (hu : SameTenants s u) :
    SameTenants s (if c then t else u) := by
  split
  · exact ht
  · exact hu

section
variable (s : State) (d : DieId)

theorem sameTenants_setCores (x : Cores) : SameTenants s (setCores s d x) := ⟨rfl, rfl⟩

theorem sameTenants_setDma (x : DmaUnit) : SameTenants s (setDma s d x) := ⟨rfl, rfl⟩

theorem sameTenants_setRet (x : RetUnit) : SameTenants s (setRet s d x) := ⟨rfl, rfl⟩

theorem sameTenants_setGen (x : GenUnit) : SameTenants s (setGen s d x) := ⟨rfl, rfl⟩

theorem sameTenants_setEas (x : EasUnit) : SameTenants s (setEas s d x) := ⟨rfl, rfl⟩

end

/-- The pins of objects, and what they settle. -/
theorem sameTenants_dropPins (s : State) (d : DieId) (os : List Nat) : SameTenants s (dropPins s d os) := by
  have settle (t : State) (i : Nat) : SameTenants t (settleObj t i) := sameTenants_ite ⟨rfl, rfl⟩ (.refl t)
  exact SameTenants.trans (t := setPins s d _) ⟨rfl, rfl⟩ (sameTenants_foldl settle os _)

/-- Records and frames of a die (R73, R75, R107). -/
theorem sameTenants_parkFrame (s : State) (d : DieId) (f : Nat) (p : Park) : SameTenants s (parkFrame s d f p) :=
  SameTenants.trans (t := setFrame s d f { frameOf' s d f with park := p }) ⟨rfl, rfl⟩ (sameTenants_ite ⟨rfl, rfl⟩ (.refl _))

theorem sameTenants_freeFrame (s : State) (d : DieId) (f : Nat) : SameTenants s (freeFrame s d f) :=
  SameTenants.trans (t := parkFrame (dropFrameSubs s d f) d f .ended)
    (SameTenants.trans (t := dropFrameSubs s d f) ⟨rfl, rfl⟩ (sameTenants_parkFrame _ d f .ended)) ⟨rfl, rfl⟩

theorem sameTenants_abortSteps (s : State) (d : DieId) (p : GenStep → Bool) : SameTenants s (abortSteps s d p) :=
  sameTenants_foldl (fun t x => by
    unfold abortStep; dsimp only
    refine SameTenants.trans ?_ (sameTenants_dropPins _ d x.pins)
    exact ⟨rfl, rfl⟩) _ s

theorem sameTenants_endRuns (s : State) (d : DieId) (q : Nat) (st : RunRec → Nat) : SameTenants s (endRuns s d q st) := by
  unfold endRuns; dsimp only
  refine SameTenants.trans ?_ (sameTenants_abortSteps _ d _)
  exact SameTenants.trans ⟨rfl, rfl⟩ (sameTenants_foldl (fun t r => sameTenants_freeFrame t d _) _ _)

/-- Submissions let in (R99). -/
theorem sameTenants_settleSubs (s : State) (d : DieId) (e : Nat) : SameTenants s (settleSubs s d e) := by
  unfold settleSubs
  generalize (32 : Nat) = n
  induction n generalizing s with
  | zero => exact .refl s
  | succ n ih =>
    unfold refillSubs; dsimp only
    split
    · refine SameTenants.trans ?_ (ih _)
      split <;> exact ⟨rfl, rfl⟩
    · exact .refl s

/-- Operations over (R101). -/
theorem sameTenants_opOver (s : State) (d : DieId) (q count : Nat) (good : Bool) : SameTenants s (opOver s d q count good) :=
  sameTenants_ite ⟨rfl, rfl⟩ ⟨rfl, rfl⟩

theorem sameTenants_opFinish (s : State) (d : DieId) (q count : Nat) (fence : Bool) (pa : Nat) (v : W64) (pins : List Nat) :
    SameTenants s (opFinish s d q count fence pa v pins) :=
  (sameTenants_dropPins s d pins).trans (sameTenants_ite ⟨rfl, rfl⟩ (sameTenants_opOver _ d q count true))

theorem sameTenants_opStop (s : State) (d : DieId) (q count : Nat) (pins : List Nat) : SameTenants s (opStop s d q count pins) :=
  (sameTenants_dropPins s d pins).trans (sameTenants_opOver _ d q count false)

/-! ### Groups and dispatches of a die (R121, R147, R169) -/

theorem sameTenants_settleDisp (s : State) (d : DieId) (i : Nat) : SameTenants s (settleDisp s d i) := by
  have ended (good : Bool) : SameTenants s (endDispatch s d i good) := by
    unfold endDispatch
    split
    · exact .refl s
    · exact SameTenants.trans ⟨rfl, rfl⟩ (sameTenants_ite (.refl _) (sameTenants_ite (sameTenants_opFinish _ d _ _ _ _ _ _)
        (sameTenants_opStop _ d _ _ _)))
  unfold settleDisp
  split
  · exact .refl s
  · exact sameTenants_ite (.refl s) (sameTenants_ite (ended false) (sameTenants_ite (ended true) (.refl s)))

theorem sameTenants_refreshSlot (s : State) (d : DieId) (c : Nat) : SameTenants s (refreshSlot s d c) := by
  unfold refreshSlot; split
  · exact .refl s
  · exact sameTenants_ite (sameTenants_ite (.refl s) ⟨rfl, rfl⟩) (.refl s)

theorem sameTenants_fillQuarter (d : DieId) (m q : Nat) (s : State) : SameTenants s (fillQuarter d m q s) := by
  have filled (n : Nat) (t : State) : SameTenants t (fillActive d m q n t) := by
    induction n generalizing t with
    | zero => exact .refl t
    | succ n ih =>
      unfold fillActive
      refine sameTenants_ite (.refl t) ?_
      split
      · exact .refl t
      · refine SameTenants.trans ?_ (ih _)
        unfold modGroup; split <;> exact ⟨rfl, rfl⟩
  exact SameTenants.trans ⟨rfl, rfl⟩ (filled 8 _)

theorem sameTenants_afterGroup (s : State) (d : DieId) (g : Group) : SameTenants s (afterGroup s d g) := by
  have filled := sameTenants_fillQuarter d (groupCore s d g) g.quarter s
  unfold afterGroup; dsimp only
  split
  · exact filled.trans (sameTenants_refreshSlot _ d _)
  · exact filled

theorem sameTenants_sweepGroup (s : State) (d : DieId) (g : Nat) : SameTenants s (sweepGroup s d g) := by
  have settled (t : State) (k : Cores) (i m q : Nat) : SameTenants t (fillQuarter d m q (settleDisp (setCores t d k) d i)) :=
    ((sameTenants_setCores t d k).trans (sameTenants_settleDisp _ d i)).trans (sameTenants_fillQuarter d m q _)
  unfold sweepGroup
  split
  · exact .refl s
  · refine sameTenants_ite ?_ (sameTenants_afterGroup s d _)
    refine SameTenants.trans (sameTenants_setCores s d _) (sameTenants_ite (sameTenants_afterGroup _ d _) ?_)
    split
    · split
      · exact (settled _ _ _ _ _).trans (sameTenants_refreshSlot _ d _)
      · exact settled _ _ _ _ _
    · exact .refl _

theorem sameTenants_killDispatch (s : State) (d : DieId) (i : Nat) : SameTenants s (killDispatch s d i) := by
  have marked (t : State) : SameTenants t (match dispOf t d i with | some x => setDisp t d i { x with dead := true } | none => t) := by
    split
    · exact sameTenants_setCores t d _
    · exact .refl t
  unfold killDispatch; dsimp only
  refine SameTenants.trans ?_ (sameTenants_settleDisp _ d i)
  refine SameTenants.trans ?_ (sameTenants_foldl (fun t g => sameTenants_sweepGroup t d g) _ _)
  exact (sameTenants_setCores s d _).trans (marked _)

/-! ### What the engines discard (R311, R331, R346, R416) -/

theorem DiscardsOnly.sameTenants {c : Nat} {s t : State} (h : DiscardsOnly c s t) : SameTenants s t := by
  rw [h.frame]; exact ⟨rfl, rfl⟩

theorem sameTenants_putResult (s : State) (j : DmaJob) (b : List Byte) : SameTenants s (putResult s j b) := by
  unfold putResult; split
  · exact .refl s
  · exact sameTenants_ite ⟨rfl, rfl⟩ ⟨rfl, rfl⟩

/-- What every step of a recursion on a list gives, its result has. -/
theorem brecOn_list {α β : Type} {P : β → Prop} {F : (l : List α) → List.below (motive := fun _ => β) l → β}
    (step : ∀ l f, (∀ a r, ∀ h : l = a :: r, P (h ▸ f : List.below (motive := fun _ => β) (a :: r)).1) → P (F l f)) (l : List α) :
    P (List.brecOn (motive := fun _ => β) l F) := by
  induction l with
  | nil => exact step [] _ (by simp)
  | cons a r ih =>
    refine step (a :: r) _ ?_
    rintro _ _ ⟨⟩
    exact ih

/-- A list of pages translated in order. The translation and the size of a page stand for themselves here: unfolded, a page's address is
a number that the kernel would count up to. -/
theorem translatePages_looked (d : DieId) (c : Nat) (w : Bool) (ps : List Nat) : ∀ s m os,
    Looked s (translatePages d c { write := w } ps s m os).2 := by
  have page (s : State) (va : Nat) : Looked s (translate s d c va { write := w }).2 := (translate_looked s d c va w).1
  obtain ⟨T, hT⟩ : ∃ T, T = translate := ⟨_, rfl⟩
  obtain ⟨k, hk⟩ : ∃ k, k = 2 ^ 25 := ⟨_, rfl⟩
  rw [← hT] at page
  delta translatePages
  refine brecOn_list (β := State → Map Nat → List Nat → Except (Nat × Nat) (Map Nat × List Nat) × State)
    (P := fun g => ∀ s m os, Looked s (g s m os).2) (fun l f rest s m os => ?_) ps
  delta translatePages._f
  rw [← hT, ← hk]
  rcases l with _ | ⟨p, r⟩
  · exact Looked.refl s
  · have first := page s (p * k)
    dsimp only
    generalize T s d c (p * k) { write := w } = x at first
    obtain ⟨_ | ⟨pa, o⟩, s1⟩ := x
    · exact first
    · exact first.trans (rest p r rfl _ _ _)

theorem translateRange_looked (s : State) (d : DieId) (c lo n : Nat) (w : Bool) :
    Looked s (translateRange s d c lo n { write := w }).2 := by
  have pages := translatePages_looked d c w (pagesOf lo (lo + n - 1)) s [] []
  unfold translateRange; dsimp only
  split_ifs
  · exact Looked.refl s
  · exact Looked.refl s
  · exact Looked.refl s
  · exact Looked.refl s
  · split <;> rename_i h <;> rw [h] at pages
    · exact pages
    · split <;> exact pages

theorem resSide_looked (s : State) (d : DieId) (j : DmaJob) : Looked s (resSide s d j).2 := by
  unfold resSide
  split
  · exact Looked.refl s
  · rename_i a _
    have range := translateRange_looked s d j.ctx a 32 true
    split
    · exact Looked.refl s
    · split <;> rename_i h <;> rw [h] at range <;> exact range

theorem sameTenants_discardSubs (s : State) (d : DieId) (t : Nat) : SameTenants s (discardSubs s d t).2 := by
  have one (e : Nat) (u : State) (x : Submission) : SameTenants u (discardSub d e u x) := by
    unfold discardSub; dsimp only
    refine sameTenants_ite (.refl u) ?_
    have side := (resSide_looked u d (dmaJobOf e (subCtx u d x) (subTenant u d x) x 0)).sameTenants
    split <;> rename_i h <;> rw [h] at side
    · exact side.trans (sameTenants_ite (.refl _) (sameTenants_putResult _ _ _))
    · exact side
  exact sameTenants_foldl (fun u e => sameTenants_foldl (one e) _ u) _ s

theorem sameTenants_discardDma (s : State) (d : DieId) (t : Nat) : SameTenants s (discardDma s d t).2 := by
  unfold discardDma; dsimp only
  refine SameTenants.trans ?_ (sameTenants_foldl (fun u e => sameTenants_settleSubs u d e) _ _)
  refine SameTenants.trans ?_ (sameTenants_foldl (fun u j => ?_) _ _)
  · exact sameTenants_setDma s d _
  · refine SameTenants.trans ?_ (sameTenants_dropPins _ d _)
    exact sameTenants_ite (.refl u) (sameTenants_putResult u j _)

theorem sameTenants_discardRet (s : State) (d : DieId) (t : Nat) : SameTenants s (discardRet s d t).2 := by
  unfold discardRet; dsimp only
  refine SameTenants.trans ?_ (sameTenants_settleSubs _ d 10)
  refine SameTenants.trans ?_ (sameTenants_settleSubs _ d 9)
  refine SameTenants.trans ?_ (sameTenants_foldl (fun u j => sameTenants_dropPins u d (RetJob.pins j)) _ _)
  exact sameTenants_setRet s d _

theorem sameTenants_discardGen (s : State) (d : DieId) (t : Nat) : SameTenants s (discardGen s d t).2 := by
  unfold discardGen; dsimp only
  refine SameTenants.trans ?_ (sameTenants_settleSubs _ d 12)
  refine SameTenants.trans ?_ (sameTenants_foldl (fun u o => sameTenants_dropPins u d (GenOp.pins o)) _ _)
  exact sameTenants_setGen s d _

theorem sameTenants_discardEas (s : State) (d : DieId) (t : Nat) : SameTenants s (discardEas s d t).2 := by
  unfold discardEas; dsimp only
  refine SameTenants.trans ?_ (sameTenants_foldl (fun u f => sameTenants_dropPins u d _) _ _)
  exact sameTenants_setEas s d _

theorem sameTenants_markAborted (s : State) (p : GeoPass) : SameTenants s (markAborted s p) :=
  sameTenants_foldl (fun t n => by split <;> exact ⟨rfl, rfl⟩) _ s

/-! ### Tenant resets (R61, R416) -/

/-- A die's part in a reset leaves the tenants and the resets. -/
theorem sameTenants_resetOnDie (t : Nat) (s : State) (d : DieId) : SameTenants s (resetOnDie t s d) := by
  unfold resetOnDie; dsimp only
  have logged (u : State) (i : LogInfo) : SameTenants u (if d = 0 then logEntry u 0 i else u) := sameTenants_ite ⟨rfl, rfl⟩ (.refl u)
  refine SameTenants.trans ?_ (logged _ _)
  refine SameTenants.trans (SameTenants.trans ?_ (sameTenants_foldl (fun u c => (discardOn_discardsOnly c u d).sameTenants) _ _)) ⟨rfl, rfl⟩
  refine SameTenants.trans ?_ (sameTenants_foldl (fun u i => sameTenants_killDispatch u d i) _ _)
  refine SameTenants.trans ?_ (sameTenants_discardEas _ d t)
  refine SameTenants.trans ?_ (sameTenants_foldl sameTenants_markAborted _ _)
  refine SameTenants.trans ?_ (sameTenants_abortSteps _ d _)
  refine SameTenants.trans ?_ (sameTenants_discardGen _ d t)
  refine SameTenants.trans ?_ (sameTenants_discardRet _ d t)
  refine SameTenants.trans ?_ (sameTenants_discardDma _ d t)
  exact (sameTenants_discardSubs s d t).trans (sameTenants_foldl (fun u q => sameTenants_endRuns u d q _) _ _)

end Sys2Proof.Machine
end
section
/-! PROOFS. O12. -/

namespace Sys2Proof.Machine

/-! ### Tenant commands (R57, R59 to R61) -/

/-- A tenant put into the tables and a success reported: nothing else has changed. -/
theorem tenantDone_putTenant (s : State) (t : Nat) (x : Tenant) : TenantDone s (tenResult (putTenant s t x) 0) 0 :=
  ⟨rfl, rfl, rfl, rfl, rfl⟩

section
variable {s u : State} {t : Nat} {x : Tenant}

theorem cmdTenantEnable_record (ht : t ≠ 0) (hs : (tenantOf s 0 t).state = .disabled) (hb : bit (getHregs s 0).tenTable 0 = true)
    (hr : readTenant s (getHregs s 0).tenTable t .enabled = (some x, u)) : cmdTenantEnable s t = tenResult (putTenant u t x) 0 := by
  rw [cmdTenantEnable, if_neg (by simp [ht, hs]), if_neg (by simp [hb]), hr]

theorem cmdTenantEnable_badState (h : t = 0 ∨ (tenantOf s 0 t).state ≠ .disabled) : cmdTenantEnable s t = tenResult s 1 := if_pos h

theorem cmdTenantUpdate_record (hs : (tenantOf s 0 t).state = .enabled) (hb : bit (getHregs s 0).tenTable 0 = true)
    (hr : readTenant s (getHregs s 0).tenTable t .enabled = (some x, u)) : cmdTenantUpdate s t = tenResult (putTenant u t x) 0 := by
  rw [cmdTenantUpdate, if_neg (by simp [hs]), if_neg (by simp [hb]), hr]

theorem cmdTenantUpdate_badState (h : (tenantOf s 0 t).state ≠ .enabled) : cmdTenantUpdate s t = tenResult s 1 := if_pos h

theorem cmdTenantDisable_unused (ht : t ≠ 0) (hs : (tenantOf s 0 t).state = .enabled)
    (hc : ∀ e ∈ (getTables s 0).contexts, e.2.tenant = t → e.2.state = .free) :
    cmdTenantDisable s t = tenResult (putTenant s t { tenantOf s 0 t with state := .disabled }) 0 := by
  have unused : (tabs s).contexts.any (fun e => e.2.tenant == t && !(e.2.state == .free)) = false := by
    rw [List.any_eq_false]; intro e he
    have free := hc e he
    simpa using free
  exact if_neg (by simp [ht, hs, unused])

theorem cmdTenantDisable_badState (h : t = 0 ∨ ∃ e ∈ (getTables s 0).contexts, e.2.tenant = t ∧ e.2.state ≠ .free) :
    cmdTenantDisable s t = tenResult s 1 := by
  refine if_pos (h.imp_right fun ⟨e, he, ht, hs⟩ => .inr ?_)
  exact List.any_eq_true.mpr ⟨e, he, by simp [ht, hs]⟩

end

/-- A read leaves the table its sixteen tenants. -/
theorem ReadOnly.tenantInTable {s u : State} (h : ReadOnly s u) (hlen : (getTables s 0).tenants.length = 16) (k : Fin 16) :
    k.val < (getTables u 0).tenants.length := by
  rw [getTables, h.looked.tables]
  exact lt_of_lt_of_eq k.isLt hlen.symm

/-! ### Tenant resets (R61, R416) -/

/-- The dies that a reset expects a report of: D0 and the joined ones. -/
def resetDies (s : State) : List DieId := allDies.filter (fun n => n == 0 || s.agree.joined.testBit n.val)

theorem mem_resetDies {s : State} {d : DieId} : d ∈ resetDies s ↔ d = 0 ∨ s.agree.joined.testBit d.val = true := by
  simp [resetDies, mem_allDies]

/-- The tenant RESETTING, its reports outstanding, and no die's part done yet. -/
def resetBegun (s : State) (k : Nat) : State :=
  { putTenant s k { tenantOf s 0 k with state := .resetting } with
    resets := mins s.resets k { dies := resetDies s, toReport := resetDies s } }

section
variable {s : State} {k : Nat}

theorem cmdTenantReset_begun (hk : k ≠ 0) (hs : (tenantOf s 0 k).state = .enabled) :
    cmdTenantReset s k = tenResult ((resetDies s).foldl (resetOnDie k) (resetBegun s k)) 0 := if_neg (by simp [hk, hs])

theorem cmdTenantReset_badState (h : k = 0 ∨ (tenantOf s 0 k).state ≠ .enabled) : cmdTenantReset s k = tenResult s 1 := if_pos h

end

/-- The dies' parts leave the tenants and the resets as the reset has begun them. -/
theorem sameTenants_resetOnDies (s : State) (k : Nat) : SameTenants (resetBegun s k) ((resetDies s).foldl (resetOnDie k) (resetBegun s k)) :=
  sameTenants_foldl (sameTenants_resetOnDie k) _ _

theorem tenResult_leaves (s : State) (status : Nat) : (getHregs (tenResult s status) 0).tenStatus = status ∧
    (tenResult s status).tables = s.tables ∧ (tenResult s status).resets = s.resets := ⟨rfl, rfl, rfl⟩

/-! ### The reports of a reset (R416) -/

/-- A die's report noted in its tenant record; D0's is noted with the last one (R415). -/
def reportNoted (s : State) (d : DieId) (k : Nat) : State := if d = 0 then s else finishOnDie k s d

/-- The FAULTED contexts of a tenant LIVE again. -/
def ctxsCleared (s : State) (k : Nat) : State :=
  (ctxsOfTenant s k).foldl (fun x c => if (ctxOf x 0 c).state = .faulted then putCtx x c { ctxOf x 0 c with state := .live } else x) s

/-- What the last report of a reset leaves. -/
def resetDone (s : State) (k : Nat) (ds : List DieId) : State :=
  ds.foldl (endEntry k)
    (finishOnDie k (putTenant { ctxsCleared s k with resets := mdel (ctxsCleared s k).resets k } k
      { tenantOf (ctxsCleared s k) 0 k with state := .enabled }) 0)

section
variable {s : State} {d : DieId} {k : Fin 16} {r : TenReset} (hp : s.board.powerOk = true) (hr : mfind s.resets k.val = some r)
  (hd : d ∈ r.toReport) (hq : tenantQuietOn s d k.val = true)
include hp hr hd hq

theorem exec_tenantResetReport : exec (.tenantResetReport d k) s =
    .next (if (r.toReport.filter (fun e => e ≠ d)).isEmpty then resetDone (reportNoted s d k.val) k.val r.dies
      else { reportNoted s d k.val with
        resets := mins (reportNoted s d k.val).resets k.val { r with toReport := r.toReport.filter (fun e => e ≠ d) } }) := by
  have listed : r.toReport.contains d = true := by simpa using hd
  change execTenantResetReport d k s = _
  rw [execTenantResetReport, hr]
  exact event_true _ _ (by rw [hp, listed, hq]; rfl)

theorem exec_tenantResetReport_more (h : ∃ e ∈ r.toReport, e ≠ d) : exec (.tenantResetReport d k) s =
    .next { reportNoted s d k.val with
      resets := mins (reportNoted s d k.val).resets k.val { r with toReport := r.toReport.filter (fun e => e ≠ d) } } := by
  obtain ⟨e, he, hne⟩ := h
  have left : (r.toReport.filter (fun e => e ≠ d)).isEmpty = false := by
    rw [List.isEmpty_eq_false_iff_exists_mem]
    exact ⟨e, List.mem_filter.mpr ⟨he, by simpa using hne⟩⟩
  rw [exec_tenantResetReport hp hr hd hq, left]; rfl

theorem exec_tenantResetReport_last (h : ∀ e ∈ r.toReport, e = d) :
    exec (.tenantResetReport d k) s = .next (resetDone (reportNoted s d k.val) k.val r.dies) := by
  have left : (r.toReport.filter (fun e => e ≠ d)).isEmpty = true := by
    rw [List.isEmpty_iff, List.filter_eq_nil_iff]
    intro e he
    simpa using h e he
  rw [exec_tenantResetReport hp hr hd hq, left]; rfl

end

theorem reportNoted_frame (s : State) (d : DieId) (k : Nat) : reportNoted s d k = { s with tenRecords := (reportNoted s d k).tenRecords } := by
  unfold reportNoted; split <;> rfl

/-- Clearing contexts changes the tables' contexts only. -/
theorem ctxsCleared_frame (s : State) (k : Nat) : ctxsCleared s k = { s with tables := (ctxsCleared s k).tables } ∧
    (getTables (ctxsCleared s k) 0).tenants = (getTables s 0).tenants := by
  have cleared (l : List Nat) (u : State) : ∃ q, l.foldl (fun x c => if (ctxOf x 0 c).state = .faulted then
      putCtx x c { ctxOf x 0 c with state := .live } else x) u = { u with tables := q } ∧ (qget q 0).tenants = (getTables u 0).tenants := by
    induction l generalizing u with
    | nil => exact ⟨u.tables, rfl, rfl⟩
    | cons c r ih =>
      rw [List.foldl_cons]
      split
      · obtain ⟨q, h, ht⟩ := ih (putCtx u c { ctxOf u 0 c with state := .live })
        exact ⟨q, h, ht⟩
      · exact ih u
  obtain ⟨q, h, ht⟩ := cleared (ctxsOfTenant s k) s
  rw [ctxsCleared, h]
  exact ⟨rfl, ht⟩

/-- The entries that end a reset go into the logbooks. -/
theorem foldl_endEntry_frame (k : Nat) (ds : List DieId) (s : State) : ∃ l, ds.foldl (endEntry k) s = { s with logs := l } := by
  induction ds generalizing s with
  | nil => exact ⟨s.logs, rfl⟩
  | cons d r ih =>
    obtain ⟨l, h⟩ := ih (endEntry k s d)
    exact ⟨l, h⟩

/-- With the last report the tenant is ENABLED, and the reset is over. -/
theorem resetDone_leaves (s : State) (k : Nat) (ds : List DieId) (hk : k < (getTables s 0).tenants.length) :
    (tenantOf (resetDone s k ds) 0 k).state = .enabled ∧
      ∃ q r l, resetDone s k ds = { s with tables := q, resets := mdel s.resets k, tenRecords := r, logs := l } := by
  obtain ⟨frame, tenants⟩ := ctxsCleared_frame s k
  unfold resetDone
  generalize ctxsCleared s k = u at frame tenants
  obtain ⟨l, ended⟩ := foldl_endEntry_frame k ds
    (finishOnDie k (putTenant { u with resets := mdel u.resets k } k { tenantOf u 0 k with state := .enabled }) 0)
  rw [ended]
  constructor
  · have put := tenantOf_putTenant_same (s := { u with resets := mdel u.resets k }) { tenantOf u 0 k with state := .enabled }
      (t := k) (by rw [← tenants] at hk; exact hk)
    exact congrArg Tenant.state put
  · rw [frame]; exact ⟨_, _, _, rfl⟩

end Sys2Proof.Machine

namespace Sys2Proof

open Machine

/-- Settles O12: the commands by their own equations, a reset by what its dies' parts leave. -/
theorem tenantCommandsAndResets : Obligations.TenantCommandsAndResets := by
  unfold Obligations.TenantCommandsAndResets
  refine ⟨fun s k served hlen => ⟨fun hk hs hb x u hr => ?_, fun h => ?_, fun hs hb x u hr => ?_, fun h => ?_, fun hk hs hc => ?_, fun h => ?_⟩,
    fun s k served hlen => ⟨fun hk hs => ?_, fun h => ?_⟩, fun s d k r hp hr hd hq => ⟨fun more => ?_, fun last hlen => ?_⟩⟩
  · obtain ⟨read, enabled⟩ := readTenant_some hr
    refine ⟨read, _, (d0Command_zero _ served).trans (congrArg _ (cmdTenantEnable_record (fun e => hk (Fin.ext e)) hs hb hr)),
      tenantDone_putTenant u k.val x, tenantOf_putTenant_same x (read.tenantInTable hlen k), enabled, fun j hj => ?_⟩
    exact (tenantOf_putTenant_other x hj).trans (read.looked.tenantOf 0 j)
  · exact ⟨_, (d0Command_zero _ served).trans (congrArg _ (cmdTenantEnable_badState (h.imp_left (congrArg Fin.val)))), rfl⟩
  · obtain ⟨read, -⟩ := readTenant_some hr
    refine ⟨read, _, (d0Command_zero _ served).trans (congrArg _ (cmdTenantUpdate_record hs hb hr)),
      tenantDone_putTenant u k.val x, tenantOf_putTenant_same x (read.tenantInTable hlen k), fun j hj => ?_⟩
    exact (tenantOf_putTenant_other x hj).trans (read.looked.tenantOf 0 j)
  · exact ⟨_, (d0Command_zero _ served).trans (congrArg _ (cmdTenantUpdate_badState h)), rfl⟩
  · exact ⟨_, (d0Command_zero _ served).trans (congrArg _ (cmdTenantDisable_unused (fun e => hk (Fin.ext e)) hs hc)),
      tenantDone_putTenant s k.val _, tenantOf_putTenant_same _ (by rw [hlen]; exact k.isLt), fun j hj => tenantOf_putTenant_other _ hj⟩
  · exact ⟨_, (d0Command_zero _ served).trans (congrArg _ (cmdTenantDisable_badState (h.imp_left (congrArg Fin.val)))), rfl⟩
  · have run := (d0Command_zero (fun x => cmdTenantReset x k.val) served).trans
      (congrArg _ (cmdTenantReset_begun (fun e => hk (Fin.ext e)) hs))
    obtain ⟨tenants, resets⟩ := sameTenants_resetOnDies s k.val
    generalize (resetDies s).foldl (resetOnDie k.val) (resetBegun s k.val) = z at run tenants resets
    obtain ⟨status, tables, kept⟩ := tenResult_leaves z 0
    have resetting : tenantOf (resetBegun s k.val) 0 k.val = { tenantOf s 0 k.val with state := .resetting } :=
      tenantOf_putTenant_same _ (by rw [hlen]; exact k.isLt)
    refine ⟨_, run, ?_, status, ⟨resetDies s, resetDies s⟩, ?_, mem_resetDies.mpr (.inl rfl), fun d hd => mem_resetDies.mpr (.inr hd)⟩
    · have same : tenantOf (tenResult z 0) 0 k.val = tenantOf (resetBegun s k.val) 0 k.val := by
        rw [tenantOf, tenantOf, ← tenants, getTables, getTables, tables]
      rw [same, resetting]
    · rw [kept, resets]; exact mfind_mins_same _ _ _
  · exact ⟨_, (d0Command_zero _ served).trans (congrArg _ (cmdTenantReset_badState (h.imp_left (congrArg Fin.val)))), rfl⟩
  · refine ⟨_, exec_tenantResetReport_more hp hr hd hq more, ⟨_, mfind_mins_same _ _ _, rfl⟩, ?_⟩
    rw [reportNoted_frame]
  · have noted := reportNoted_frame s d k.val
    have run := exec_tenantResetReport_last hp hr hd hq last
    generalize reportNoted s d k.val = z at noted run
    obtain ⟨enabled, q, rec, l, frame⟩ := resetDone_leaves z k.val r.dies (by rw [noted]; exact lt_of_lt_of_eq k.isLt hlen.symm)
    refine ⟨_, run, enabled, ?_⟩
    rw [frame, noted]

end Sys2Proof
end
section
/-! PROOFS. The laws of programs (R89, R91 to R93, R108): what the fetch of an instruction leaves, the fields of a command's word, and what a
frame that goes on, parks or ends leaves. -/

namespace Sys2Proof.Machine

/-! ### The fetch of an instruction (R91, R92) -/

/-- What a fetch on die `d` may change: what a look-up may, the frames' instruction caches, and the counter of free values. -/
def Fetched (d : DieId) (s u : State) : Prop :=
  u = { setStk s d (getStk u d) with memu := u.memu, poison := u.poison, logs := u.logs, ends := u.ends, freeCtr := u.freeCtr } ∧
    (getStk u d).stokers = (getStk s d).stokers

theorem Looked.fetched {s u : State} (h : Looked s u) (d : DieId) : Fetched d s u := by
  unfold Looked at h; rw [h]; exact ⟨by simp [setStk, getStk], rfl⟩

theorem Fetched.refl (d : DieId) (s : State) : Fetched d s s := (Looked.refl s).fetched d

theorem Fetched.trans {d : DieId} {s u v : State} (h1 : Fetched d s u) (h2 : Fetched d u v) : Fetched d s v := by
  obtain ⟨e1, k1⟩ := h1
  obtain ⟨e2, k2⟩ := h2
  exact ⟨e2.trans (by rw [e1]; simp [setStk]), k2.trans k1⟩

theorem fetched_setFrame (s : State) (d : DieId) (f : Nat) (x : Frame) : Fetched d s (setFrame s d f x) :=
  ⟨setFrame_stk s d f x, by rw [setFrame, getStk_setStk]⟩

theorem fetched_useFree (d : DieId) (s : State) : Fetched d s (useFree s) := ⟨by simp [useFree, setStk, getStk], rfl⟩

theorem vaRead_looked (s : State) (d : DieId) (c va n : Nat) : Looked s (vaRead s d c va n).2 := by
  have translated := (translate_looked s d c va false).1
  unfold vaRead
  generalize translate s d c va {} = r at translated
  obtain ⟨_ | ⟨pa, o⟩, s1⟩ := r
  · exact translated
  · dsimp only
    split
    · exact translated.trans (noteLate_readsTables s1 d _).looked
    · split <;> exact translated.trans (noteRead_readsTables s1 pa n).looked

theorem vaFault_looked (s : State) (d : DieId) (f va cause : Nat) : Looked s (vaFault s d f va cause) := by
  unfold vaFault; split
  · exact (xlateFault_looked s d _ va cause 0x03 f _).1
  · exact Looked.refl s

theorem rvFetchHalf_fetched (s : State) (d : DieId) (f a : Nat) : Fetched d s (rvFetchHalf s d f a).2 := by
  unfold rvFetchHalf
  extract_lets x fetch
  have leaves (t : State) : Fetched d t (fetch t).2 := by
    unfold fetch
    split
    · rename_i va _
      have read := vaRead_looked t d x.ctx va 2
      generalize vaRead t d x.ctx va 2 = r at read
      obtain ⟨e | b, s1⟩ := r
      · exact (read.trans (vaFault_looked s1 d f va e)).fetched d
      · exact (read.fetched d).trans (fetched_setFrame s1 d f _)
    · exact Fetched.refl d t
  split
  · split
    · exact fetched_useFree d s
    · exact (fetched_useFree d s).trans (leaves _)
  · exact leaves s

theorem rvFetch_fetched (s : State) (d : DieId) (f : Nat) : Fetched d s (rvFetch s d f).2 := by
  have first := rvFetchHalf_fetched s d f (frameOf' s d f).pc.toNat
  unfold rvFetch; dsimp only
  generalize rvFetchHalf s d f (frameOf' s d f).pc.toNat = r1 at first
  obtain ⟨_ | h, s1⟩ := r1
  · exact first
  · have second := first.trans (rvFetchHalf_fetched s1 d f ((frameOf' s d f).pc.toNat + 2))
    dsimp only
    split
    · exact first
    · generalize rvFetchHalf s1 d f ((frameOf' s d f).pc.toNat + 2) = r2 at second
      obtain ⟨_ | g, s2⟩ := r2 <;> exact second

section
variable {d : DieId} {s u : State} (h : Fetched d s u)
include h

theorem Fetched.memByte (a : Nat) : memByte u a = memByte s a := by
  rw [h.1]; rfl

theorem Fetched.dtime (n : DieId) : dtime u n = dtime s n := by
  rw [h.1]; rfl

theorem Fetched.nextId : u.nextId = s.nextId := by rw [h.1]; rfl

end

/-! ### Commands issued (R93, Table 4.4) -/

section
variable {s u : State} {d : DieId} {f w : Nat} (h : Issuing s d f w u)
include h

theorem Issuing.fetched : Fetched d s u := by
  obtain ⟨-, -, fetch, -⟩ := h
  have fetched := rvFetch_fetched s d f
  rwa [fetch] at fetched

theorem Issuing.memByte (a : Nat) : memByte u a = memByte s a := h.fetched.memByte a

theorem Issuing.frameListed (hf : f < 32) : f < (getStk u d).frames.length := by
  obtain ⟨-, -, -, len⟩ := h
  omega

/-- The frame that issues is its stoker's current one. -/
theorem Issuing.current : (stokerOf u d (f / 4)).cur = f % 4 := by
  have stoker : stokerOf u d (f / 4) = stokerOf s d (f / 4) := by rw [stokerOf, h.fetched.2, stokerOf]
  obtain ⟨issue, -, -, -⟩ := h
  simp only [issues, Bool.and_eq_true, beq_iff_eq] at issue
  rw [stoker]; exact issue.1.2

end

/-- An instruction's word with its fields at RISC-V's places. -/
def rvWord (opcode rd f3 rs1 rs2 f7 : Nat) : Nat := opcode + rd * 2 ^ 7 + f3 * 2 ^ 12 + rs1 * 2 ^ 15 + rs2 * 2 ^ 20 + f7 * 2 ^ 25

theorem rvWord_fields {opcode rd f3 rs1 rs2 f7 : Nat} (ho : opcode < 128) (hd : rd < 32) (h3 : f3 < 8) (h1 : rs1 < 32) (h2 : rs2 < 32)
    (h7 : f7 < 128) : fldN (rvWord opcode rd f3 rs1 rs2 f7) 6 0 = opcode ∧ fldN (rvWord opcode rd f3 rs1 rs2 f7) 11 7 = rd ∧
      fldN (rvWord opcode rd f3 rs1 rs2 f7) 14 12 = f3 ∧ fldN (rvWord opcode rd f3 rs1 rs2 f7) 19 15 = rs1 ∧
      fldN (rvWord opcode rd f3 rs1 rs2 f7) 24 20 = rs2 ∧ fldN (rvWord opcode rd f3 rs1 rs2 f7) 31 25 = f7 ∧
      fldN (rvWord opcode rd f3 rs1 rs2 f7) 31 20 = rs2 + 32 * f7 := by
  simp only [fldN, rvWord, Nat.shiftRight_eq_div_pow]; omega

/-- A word of a custom opcode decodes to its fields. -/
theorem rvDecode_custom {w minor : Nat} (hm : minor < 2) (h : fldN w 6 0 = if minor = 0 then 0x0B else 0x2B) :
    rvDecode w 4 = .custom minor (fldN w 14 12) (fldN w 31 25) (fldN w 11 7) (fldN w 19 15) (fldN w 24 20) := by
  obtain rfl | rfl : minor = 0 ∨ minor = 1 := by omega
  · simp only [if_true] at h; simp only [rvDecode, rvDecode32, h]; rfl
  · simp only [one_ne_zero, if_false] at h; simp only [rvDecode, rvDecode32, h]; rfl

theorem rvDecode_customWord {minor f3 f7 rd rs1 rs2 : Nat} (hm : minor < 2) (h3 : f3 < 8) (h7 : f7 < 128) (hd : rd < 32) (h1 : rs1 < 32)
    (h2 : rs2 < 32) : rvDecode (customWord minor f3 f7 rd rs1 rs2) 4 = .custom minor f3 f7 rd rs1 rs2 := by
  obtain ⟨low, hrd, hf3, hrs1, hrs2, hf7, -⟩ :=
    rvWord_fields (opcode := if minor = 0 then 0x0B else 0x2B) (by split <;> decide) hd h3 h1 h2 h7
  have word : customWord minor f3 f7 rd rs1 rs2 = rvWord (if minor = 0 then 0x0B else 0x2B) rd f3 rs1 rs2 f7 := rfl
  rw [word]
  generalize rvWord _ rd f3 rs1 rs2 f7 = w at *
  subst hrd hf3 hrs1 hrs2 hf7
  exact rvDecode_custom hm low

theorem runCommand_decoded {s u : State} {d : DieId} {f w minor f3 f7 rd rs1 rs2 : Nat} (h : Issuing s d f w u)
    (hw : rvDecode w 4 = .custom minor f3 f7 rd rs1 rs2) (k : CmdWord → State → State) :
    runCommand d f minor f3 s k = .next (k ⟨f7, rd, rs1, rs2⟩ u) := by
  obtain ⟨issue, walk, fetch, -⟩ := h
  unfold runCommand
  rw [if_neg (by simp [issue, walk]), fetch]
  simp only [hw, and_self, if_true, ok_next]

/-- A command runs for the frame that issues its word. -/
theorem runCommand_issuing {s u : State} {d : DieId} {f minor f3 f7 rd rs1 rs2 : Nat}
    (h : Issuing s d f (customWord minor f3 f7 rd rs1 rs2) u) (k : CmdWord → State → State) (hm : minor < 2) (h3 : f3 < 8) (h7 : f7 < 128)
    (hd : rd < 32) (h1 : rs1 < 32) (h2 : rs2 < 32) : runCommand d f minor f3 s k = .next (k ⟨f7, rd, rs1, rs2⟩ u) :=
  runCommand_decoded h (rvDecode_customWord hm h3 h7 hd h1 h2) k

/-! ### Registers of a frame (R91, R93) -/

/-- Register `r` reads zero where it is x0, and its entry otherwise. -/
theorem rvGet_rvSet_same {x : Frame} (h : mwf 0 x.regs = true) (r : Nat) (v : W32) : rvGet (rvSet x r v) r = if r = 0 then 0 else v := by
  unfold rvGet rvSet
  by_cases hr : r = 0
  · simp [hr]
  · simpa [hr] using mget_mput_same x.regs r v h

theorem rvGet_rvSet_other (x : Frame) {r k : Nat} (v : W32) (h : k ≠ r) : rvGet (rvSet x r v) k = rvGet x k := by
  unfold rvGet rvSet
  by_cases hr : r = 0
  · simp [hr]
  · by_cases hk : k = 0
    · simp [hk]
    · simpa [hr, hk] using mget_mput_other 0 x.regs v h

/-- A register written changes the registers only. -/
theorem rvSet_regs (x : Frame) (r : Nat) (v : W32) : rvSet x r v = { x with regs := (rvSet x r v).regs } := by
  unfold rvSet; split <;> rfl

theorem rvSet_mwf {x : Frame} (h : mwf 0 x.regs = true) (r : Nat) (v : W32) : mwf 0 (rvSet x r v).regs = true := by
  unfold rvSet; split
  · exact h
  · exact mput_mwf _ _ _ h

/-! ### What a frame that goes on, parks or ends leaves (R89, R106, R108) -/

/-- Nothing but frame `f` of die `d`, and the rotation of its stoker, differs between two states. -/
def FrameOnly (d : DieId) (f : Nat) (u t : State) : Prop := t = setStk u d (getStk t d) ∧ ∀ g, g ≠ f → frameOf' t d g = frameOf' u d g

section
variable {d : DieId} {f : Nat} {u t : State}

theorem FrameOnly.trans {v : State} (h1 : FrameOnly d f u t) (h2 : FrameOnly d f t v) : FrameOnly d f u v :=
  ⟨h2.1.trans (by rw [h1.1, setStk_setStk]), fun g hg => (h2.2 g hg).trans (h1.2 g hg)⟩

theorem FrameOnly.memByte (h : FrameOnly d f u t) (a : Nat) : memByte t a = memByte u a := by rw [h.1]; rfl

theorem frameOnly_setFrame (x : Frame) : FrameOnly d f u (setFrame u d f x) :=
  ⟨setFrame_stk u d f x, fun _ hg => frameOf'_setFrame_other x hg⟩

theorem frameOnly_wakeFrame (rd : Nat) (v : W32) : FrameOnly d f u (wakeFrame u d f rd v) :=
  ⟨wakeFrame_stk u d f rd v, fun _ hg => frameOf'_wakeFrame_other rd v hg⟩

/-- A slice that ends changes its stoker only. -/
theorem endSlice_cases (u : State) (d : DieId) (f : Nat) : endSlice u d f = u ∨ ∃ x, endSlice u d f = setStoker u d (f / 4) x := by
  unfold endSlice; dsimp only; split
  · exact .inr ⟨_, rfl⟩
  · exact .inl rfl

theorem frameOf'_endSlice (u : State) (d : DieId) (f g : Nat) : frameOf' (endSlice u d f) d g = frameOf' u d g := by
  rcases endSlice_cases u d f with h | ⟨x, h⟩ <;> rw [h]
  exact frameOf'_setStoker u d _ x g

theorem endSlice_stk (u : State) (d : DieId) (f : Nat) :
    endSlice u d f = setStk u d { getStk u d with stokers := (getStk (endSlice u d f) d).stokers } := by
  rcases endSlice_cases u d f with h | ⟨x, h⟩ <;> rw [h]
  · exact (setStk_getStk u d).symm
  · rw [setStoker, getStk_setStk]

theorem frameOnly_endSlice : FrameOnly d f u (endSlice u d f) :=
  ⟨(endSlice_stk u d f).trans (by rw [endSlice_stk u d f, getStk_setStk]), fun g _ => frameOf'_endSlice u d f g⟩

theorem frameOnly_parkFrame (p : Park) : FrameOnly d f u (parkFrame u d f p) := (frameOnly_setFrame _).trans frameOnly_endSlice

theorem frameOf'_parkFrame_same (p : Park) (h : f < (getStk u d).frames.length) :
    frameOf' (parkFrame u d f p) d f = { frameOf' u d f with park := p } := by
  rw [parkFrame, frameOf'_endSlice, frameOf'_setFrame_same _ h]

theorem engines_parkFrame (u : State) (d : DieId) (f : Nat) (p : Park) : (getStk (parkFrame u d f p) d).engines = (getStk u d).engines := by
  rw [parkFrame, endSlice_stk, getStk_setStk, setFrame, getStk_setStk]

theorem frameOnly_cmdNext (rd : Nat) (v : W32) : FrameOnly d f u (cmdNext u d f rd v) := frameOnly_setFrame _

theorem frameOf'_cmdNext_same (h : f < (getStk u d).frames.length) (rd : Nat) (v : W32) :
    frameOf' (cmdNext u d f rd v) d f = { rvSet (frameOf' u d f) rd v with pc := (frameOf' u d f).pc + 4 } := frameOf'_setFrame_same _ h

/-- A command done without a result goes to the next instruction. -/
theorem frameOf'_cmdNext_zero (h : f < (getStk u d).frames.length) :
    frameOf' (cmdNext u d f 0 0) d f = { frameOf' u d f with pc := (frameOf' u d f).pc + 4 } := frameOf'_cmdNext_same h 0 0

/-- The state in which a frame's record has its status and its wait is forgotten. -/
def programOver (u : State) (d : DieId) (f : Nat) (status : Option Nat) : State :=
  dropWatch (match status with
    | some st => markStatus u d (frameOf' u d f).queue (frameOf' u d f).count st
    | none => u) d f

theorem endProgram_eq (u : State) (d : DieId) (f : Nat) (status : Option Nat) :
    endProgram u d f status = parkFrame (programOver u d f status) d f .ended := rfl

/-- The end of a program changes the die's queues and stokers and the waits. -/
theorem programOver_frame (u : State) (d : DieId) (f : Nat) (status : Option Nat) :
    programOver u d f status = { setQueues u d (getQueues (programOver u d f status) d) with watches := (programOver u d f status).watches } := by
  cases status <;> simp [programOver, dropWatch, markStatus, updRun, setQueue, setQueues, getQueues]

theorem getStk_programOver (u : State) (d : DieId) (f : Nat) (status : Option Nat) : getStk (programOver u d f status) d = getStk u d := by
  rw [programOver_frame]; simp [setQueues, getStk]

theorem frameOf'_programOver (u : State) (d : DieId) (f : Nat) (status : Option Nat) (g : Nat) :
    frameOf' (programOver u d f status) d g = frameOf' u d g := by rw [frameOf', getStk_programOver, frameOf']

theorem frameOf'_endProgram_same (h : f < (getStk u d).frames.length) (status : Option Nat) :
    frameOf' (endProgram u d f status) d f = { frameOf' u d f with park := .ended } := by
  rw [endProgram_eq, frameOf'_parkFrame_same _ (by rwa [getStk_programOver]), frameOf'_programOver]

theorem engines_endProgram (u : State) (d : DieId) (f : Nat) (status : Option Nat) :
    (getStk (endProgram u d f status) d).engines = (getStk u d).engines := by
  rw [endProgram_eq, engines_parkFrame, getStk_programOver]

@[simp] theorem memByte_endProgram (u : State) (d : DieId) (f : Nat) (status : Option Nat) (a : Nat) :
    memByte (endProgram u d f status) a = memByte u a := by
  rw [endProgram_eq, (frameOnly_parkFrame .ended).memByte, programOver_frame]; rfl

theorem queues_parkFrame (u : State) (d : DieId) (f : Nat) (p : Park) : (parkFrame u d f p).queues = u.queues := by
  rw [(frameOnly_parkFrame (u := u) p).1]; rfl

theorem queues_endProgram_none (u : State) (d : DieId) (f : Nat) : (endProgram u d f none).queues = u.queues := by
  rw [endProgram_eq, queues_parkFrame]; rfl

/-- The entry of a stoker fault (Table 17.7). -/
theorem stokerFault_eq (u : State) (d : DieId) (f cause addr sub : Nat) :
    ∃ i, stokerFault u d f cause addr sub = endProgram (logEntry u d i) d f (some 3) := ⟨_, rfl⟩

theorem frameOf'_stokerFault_same (h : f < (getStk u d).frames.length) (cause addr sub : Nat) :
    frameOf' (stokerFault u d f cause addr sub) d f = { frameOf' u d f with park := .ended } := by
  obtain ⟨i, fault⟩ := stokerFault_eq u d f cause addr sub
  rw [fault]; exact frameOf'_endProgram_same (u := logEntry u d i) h (some 3)

@[simp] theorem memByte_stokerFault (u : State) (d : DieId) (f cause addr sub a : Nat) :
    memByte (stokerFault u d f cause addr sub) a = memByte u a := by
  obtain ⟨i, fault⟩ := stokerFault_eq u d f cause addr sub
  rw [fault, memByte_endProgram]; rfl

end

end Sys2Proof.Machine
end
section
/-! PROOFS. O58. -/

namespace Sys2Proof.Machine

/-- Without bits above 47 a virtual address is below 2^48. -/
theorem fld_high_iff (va : W64) : fld va 63 48 = 0 ↔ va.toNat < 2 ^ 48 := by
  have := va.isLt
  simp only [fld, fldN, Nat.shiftRight_eq_div_pow]; omega

section
variable {s u : State} {d : DieId} {f : Fin 32} {rs1 : Nat} (h : Issuing s d f.val (customWord 1 3 0 0 rs1 0) u) (h1 : rs1 < 32)
include h h1

theorem exec_kWindow (he : rs1 % 2 = 0) (hva : (rvPair (frameOf' u d f.val) rs1).toNat < 2 ^ 48) : exec (.kWindow d f) s = .next
    (cmdNext (setFrame u d f.val { frameOf' u d f.val with dataWin := (rvPair (frameOf' u d f.val) rs1).toNat / 2 ^ 30 }) d f.val 0 0) := by
  change execKWindow d f s = _
  rw [execKWindow, runCommand_issuing h _ (by decide) (by decide) (by decide) (by decide) h1 (by decide)]
  exact congrArg _ (if_neg (by simp [he]; omega))

theorem exec_kWindow_illegal (hva : 2 ^ 48 ≤ (rvPair (frameOf' u d f.val) rs1).toNat) :
    exec (.kWindow d f) s = .next (illegalCmd u d f.val) := by
  change execKWindow d f s = _
  rw [execKWindow, runCommand_issuing h _ (by decide) (by decide) (by decide) (by decide) h1 (by decide)]
  exact congrArg _ (if_pos (.inr (.inr (.inr (.inr hva)))))

end

/-- An access of the data window leads to its base (Table 4.2). -/
theorem rvPlace_data {x : Frame} {a n : Nat} (ha : 0x80000000 ≤ a) (hn : 0 < n) (hend : a + n ≤ 0xC0000000) :
    rvPlace x a n = .data (x.dataWin * 2 ^ 30 + (a - 0x80000000)) := by
  unfold rvPlace
  rw [if_neg (by omega), if_neg (by omega), if_neg (by omega), if_pos ⟨ha, hend⟩]

end Sys2Proof.Machine

namespace Sys2Proof

open Machine

/-- Settles O58: the window's base is the quotient of an address below 2^48, and a longer address is an illegal instruction. -/
theorem windowCommandSetsTheDataWindow : Obligations.WindowCommandSetsTheDataWindow := by
  unfold Obligations.WindowCommandSetsTheDataWindow
  intro s u d f rs1 h1 he h
  have listed := h.frameListed f.isLt
  refine ⟨fun hva => ?_, fun hva => ?_⟩
  · have short := (fld_high_iff _).mp hva
    have window : (rvPair (frameOf' u d f.val) rs1).toNat / 2 ^ 30 = fld (rvPair (frameOf' u d f.val) rs1) 47 30 := by
      simp only [fld, fldN, Nat.shiftRight_eq_div_pow]; omega
    refine ⟨_, exec_kWindow h h1 he short, ?_⟩
    dsimp only
    rw [window, frameOf'_cmdNext_zero (by rwa [length_setFrame]), frameOf'_setFrame_same _ listed]
    exact ⟨rfl, rfl, fun a n ha hn hend => rvPlace_data ha hn hend⟩
  · have long : 2 ^ 48 ≤ (rvPair (frameOf' u d f.val) rs1).toNat := not_lt.mp ((fld_high_iff _).not.mp hva)
    refine ⟨_, exec_kWindow_illegal h h1 long, ?_⟩
    dsimp only
    rw [illegalCmd, frameOf'_stokerFault_same listed]
    exact ⟨rfl, rfl, rfl, fun a => (memByte_stokerFault u d _ _ _ _ a).trans (h.memByte a)⟩

end Sys2Proof
end
section
/-! PROOFS. O17. -/

namespace Sys2Proof.Machine

/-! ### RV32IMC instructions (R91, Table 4.2) -/

theorem exec_rv32_decoded {s u : State} {d : DieId} {f : Fin 32} {w : Nat} {i : RvOp} (h : Issuing s d f.val w u)
    (hw : rvDecode w 4 = i) (hi : isCommand i = false) : exec (.rv32Instruction d f) s = .next (rvExec u d f.val i 4) := by
  obtain ⟨issue, walk, fetch, -⟩ := h
  change execRv32Instruction d f s = _
  unfold execRv32Instruction
  rw [if_neg (by simp [issue, walk]), fetch]
  simp only [hw, hi, ok_next]
  rfl

/-- What an instruction of major opcode OP gives: of the M extension by funct7 1, of the base otherwise. -/
def opValue (f3 f7 : Nat) (a b : W32) : W32 := if f7 = 1 then rvMulDiv f3 a b else rvAlu f3 (f7 == 32) a b

/-- A frame in which register `rd` has received `v` and the program goes on at `pc`. -/
def frameWent (x : Frame) (rd : Nat) (v pc : W32) : Frame := { rvSet x rd v with pc := pc }

/-- The register written, the next instruction, and the other registers, of a frame that went on. -/
theorem frameWent_regs {x : Frame} (hx : mwf 0 x.regs = true) (rd : Nat) (v pc : W32) :
    rvGet (frameWent x rd v pc) rd = (if rd = 0 then 0 else v) ∧ (frameWent x rd v pc).pc = pc ∧
      (∀ r, r ≠ rd → rvGet (frameWent x rd v pc) r = rvGet x r) ∧ (frameWent x rd v pc).region = x.region :=
  ⟨rvGet_rvSet_same hx rd v, rfl, fun _ hr => rvGet_rvSet_other x v hr, by rw [frameWent, rvSet_regs]⟩

section
variable {s u : State} {d : DieId} {f : Fin 32} {rd rs1 rs2 : Nat} (hd : rd < 32) (h1 : rs1 < 32)
include hd h1

theorem exec_op {f3 f7 : Nat} (h2 : rs2 < 32) (h3 : f3 < 8) (h7 : f7 = 0 ∨ f7 = 1 ∨ f7 = 32 ∧ (f3 = 0 ∨ f3 = 5))
    (h : Issuing s d f.val (rvWord 0x33 rd f3 rs1 rs2 f7) u) : exec (.rv32Instruction d f) s = .next (setFrame u d f.val
      (frameWent (frameOf' u d f.val) rd (opValue f3 f7 (rvGet (frameOf' u d f.val) rs1) (rvGet (frameOf' u d f.val) rs2))
        ((frameOf' u d f.val).pc + 4))) := by
  obtain ⟨low, hrd, hf3, hrs1, hrs2, hf7, -⟩ := rvWord_fields (opcode := 0x33) (by decide) hd h3 h1 h2 (f7 := f7) (by omega)
  generalize rvWord 0x33 rd f3 rs1 rs2 f7 = w at *
  by_cases mul : f7 = 1
  · have decode : rvDecode w 4 = .mulDiv f3 rd rs1 rs2 := by
      simp only [rvDecode, rvDecode32, low, hrd, hf3, hrs1, hrs2, hf7, mul]; rfl
    rw [exec_rv32_decoded h decode rfl, opValue, if_pos mul]; rfl
  · have decode : rvDecode w 4 = .op f3 (f7 == 32) rd rs1 rs2 := by
      simp only [rvDecode, rvDecode32, low, hrd, hf3, hrs1, hrs2, hf7]
      rcases h7 with rfl | rfl | ⟨rfl, h5⟩
      · rfl
      · exact absurd rfl mul
      · simp [h5]
    rw [exec_rv32_decoded h decode rfl, opValue, if_neg mul]; rfl

theorem exec_addi {imm : Nat} (hi : imm < 4096) (h : Issuing s d f.val (rvWord 0x13 rd 0 rs1 (imm % 32) (imm / 32)) u) :
    exec (.rv32Instruction d f) s = .next (setFrame u d f.val (frameWent (frameOf' u d f.val) rd
      (rvGet (frameOf' u d f.val) rs1 + sx32 12 imm) ((frameOf' u d f.val).pc + 4))) := by
  obtain ⟨low, hrd, hf3, hrs1, -, -, himm⟩ :=
    rvWord_fields (opcode := 0x13) (f3 := 0) (rs2 := imm % 32) (f7 := imm / 32) (by decide) hd (by decide) h1 (by omega) (by omega)
  rw [Nat.mod_add_div] at himm
  generalize rvWord 0x13 rd 0 rs1 (imm % 32) (imm / 32) = w at *
  have decode : rvDecode w 4 = .opImm 0 false rd rs1 (sx32 12 imm) := by
    simp only [rvDecode, rvDecode32, low, hrd, hf3, hrs1, himm]; rfl
  rw [exec_rv32_decoded h decode rfl]; rfl

theorem exec_jalr (h : Issuing s d f.val (rvWord 0x67 rd 0 rs1 0 0) u) :
    exec (.rv32Instruction d f) s = .next (setFrame u d f.val (frameWent (frameOf' u d f.val) rd
      ((frameOf' u d f.val).pc + 4) (rvGet (frameOf' u d f.val) rs1 &&& ~~~ 1#32))) := by
  obtain ⟨low, hrd, hf3, hrs1, -, -, himm⟩ :=
    rvWord_fields (opcode := 0x67) (f3 := 0) (rs2 := 0) (f7 := 0) (by decide) hd (by decide) h1 (by decide) (by decide)
  generalize rvWord 0x67 rd 0 rs1 0 0 = w at *
  have decode : rvDecode w 4 = .jalr rd rs1 0 := by
    simp only [rvDecode, rvDecode32, low, hrd, hf3, hrs1, himm]; rfl
  rw [exec_rv32_decoded h decode rfl, rvExec, add_zero]; rfl

end

/-- A word needs no extension. -/
theorem sx32_whole (n : Nat) : sx32 32 n = BitVec.ofNat 32 n := by
  apply BitVec.eq_of_toNat_eq
  simp only [sx32, sx, BitVec.toNat_ofInt, BitVec.toNat_ofNat]
  split <;> omega

/-- The word at address `a` of a frame's region. -/
def regionWord (x : Frame) (a : Nat) : Nat := leNat ((countUp a 4).map (mget 0 x.region))

/-- A frame whose region has the word `v` at address `a`. -/
def wordStored (x : Frame) (a : Nat) (v : W32) : Frame := { x with region := putCells x.region (cellsAt a (natLe 4 v.toNat)) }

theorem wordStored_region {x : Frame} (hx : mwf 0 x.region = true) (a : Nat) (v : W32) : regionWord (wordStored x a v) a = v.toNat ∧
    ∀ o, (o < a ∨ a + 4 ≤ o) → mget 0 (wordStored x a v).region o = mget 0 x.region o := by
  refine ⟨?_, fun o ho => putCells_other _ _ o fun e he => ?_⟩
  · have bytes : (countUp a 4).map (mget 0 (wordStored x a v).region) = natLe 4 v.toNat := by
      refine List.ext_getElem (by simp [countUp]) fun i hi hi' => ?_
      have byte := putCells_cellsAt a (natLe 4 v.toNat) x.region i hi' hx
      simp only [List.getElem_map, countUp_eq_range', List.getElem_range', Nat.one_mul]
      exact byte
    rw [regionWord, bytes, leNat_natLe]; exact Nat.mod_eq_of_lt (lt_of_lt_of_eq v.isLt (by norm_num))
  · have range := cellsAt_range a (natLe 4 v.toNat) e he
    rw [natLe_length] at range; omega

/-- An access within the frame region leads to it (Table 4.2). -/
theorem rvPlace_region (x : Frame) {a n : Nat} (h : a + n ≤ 0x3000) : rvPlace x a n = .region a := if_pos h

section
variable (u : State) (d : DieId) (f : Nat) {a : Nat} (hend : a + 4 ≤ 0x3000)
include hend

theorem rvLoad_region {x : Frame} (ha : a % 4 = 0) (hbad : x.regionBad = false) :
    rvLoad u d f x a 4 = (.ok (some ((countUp a 4).map (mget 0 x.region))), u) := by
  unfold rvLoad
  rw [rvPlace_region x hend]
  simp [ha, hbad]

theorem rvLoad_misaligned (x : Frame) (ha : a % 4 ≠ 0) : rvLoad u d f x a 4 = (.error ⟨3, 0⟩, u) := by
  unfold rvLoad
  rw [rvPlace_region x hend]
  simp [ha]

theorem rvStore_region (v : W32) (ha : a % 4 = 0) :
    rvStore u d f a (natLe 4 v.toNat) = (.ok true, setFrame u d f (wordStored (frameOf' u d f) a v)) := by
  unfold rvStore; dsimp only
  rw [natLe_length, rvPlace_region _ hend]
  simp [ha, wordStored]

end

section
variable {s u : State} {d : DieId} {f : Fin 32} {rd rs1 rs2 : Nat} (h1 : rs1 < 32)
include h1

section
variable (hd : rd < 32) (h : Issuing s d f.val (rvWord 0x03 rd 2 rs1 0 0) u) (hend : (rvGet (frameOf' u d f.val) rs1).toNat + 4 ≤ 0x3000)
include hd h

theorem exec_lw_decoded : exec (.rv32Instruction d f) s = .next (rvExec u d f.val (.load 2 rd rs1 0) 4) := by
  obtain ⟨low, hrd, hf3, hrs1, -, -, himm⟩ :=
    rvWord_fields (opcode := 0x03) (f3 := 2) (rs2 := 0) (f7 := 0) (by decide) hd (by decide) h1 (by decide) (by decide)
  generalize rvWord 0x03 rd 2 rs1 0 0 = w at *
  refine exec_rv32_decoded h ?_ rfl
  simp only [rvDecode, rvDecode32, low, hrd, hf3, hrs1, himm]; rfl

include hend

theorem exec_lw (ha : (rvGet (frameOf' u d f.val) rs1).toNat % 4 = 0) (hbad : (frameOf' u d f.val).regionBad = false) :
    exec (.rv32Instruction d f) s = .next (setFrame u d f.val (frameWent (frameOf' u d f.val) rd
      (BitVec.ofNat 32 (regionWord (frameOf' u d f.val) (rvGet (frameOf' u d f.val) rs1).toNat)) ((frameOf' u d f.val).pc + 4))) := by
  rw [exec_lw_decoded h1 hd h, rvExec, add_zero]; dsimp only
  rw [show (2 : Nat) ^ (2 % 4) = 4 from rfl, rvLoad_region u d f.val hend ha hbad]; dsimp only
  rw [if_pos (by decide), sx32_whole]; rfl

theorem exec_lw_misaligned (ha : (rvGet (frameOf' u d f.val) rs1).toNat % 4 ≠ 0) :
    exec (.rv32Instruction d f) s = .next (stokerFault u d f.val 3 (rvGet (frameOf' u d f.val) rs1).toNat 0) := by
  rw [exec_lw_decoded h1 hd h, rvExec, add_zero]; dsimp only
  rw [show (2 : Nat) ^ (2 % 4) = 4 from rfl, rvLoad_misaligned u d f.val hend _ ha]

end

variable (h2 : rs2 < 32)
include h2

theorem exec_sw (hf : f.val < (getStk u d).frames.length) (h : Issuing s d f.val (rvWord 0x23 0 2 rs1 rs2 0) u)
    (hend : (rvGet (frameOf' u d f.val) rs1).toNat + 4 ≤ 0x3000) (ha : (rvGet (frameOf' u d f.val) rs1).toNat % 4 = 0) :
    exec (.rv32Instruction d f) s = .next (setFrame (setFrame u d f.val
      (wordStored (frameOf' u d f.val) (rvGet (frameOf' u d f.val) rs1).toNat (rvGet (frameOf' u d f.val) rs2))) d f.val
      { wordStored (frameOf' u d f.val) (rvGet (frameOf' u d f.val) rs1).toNat (rvGet (frameOf' u d f.val) rs2) with
        pc := (frameOf' u d f.val).pc + 4 }) := by
  obtain ⟨low, hrd, hf3, hrs1, hrs2, hf7, -⟩ :=
    rvWord_fields (opcode := 0x23) (rd := 0) (f3 := 2) (f7 := 0) (by decide) (by decide) (by decide) h1 h2 (by decide)
  generalize rvWord 0x23 0 2 rs1 rs2 0 = w at *
  have decode : rvDecode w 4 = .store 2 rs1 rs2 0 := by
    simp only [rvDecode, rvDecode32, low, hrd, hf3, hrs1, hrs2, hf7]; rfl
  rw [exec_rv32_decoded h decode rfl, rvExec, add_zero]; dsimp only
  rw [show (2 : Nat) ^ 2 = 4 from rfl, rvStore_region u d f.val hend _ ha]; dsimp only
  rw [frameOf'_setFrame_same _ hf]; rfl

theorem exec_beq (h : Issuing s d f.val (rvWord 0x63 8 0 rs1 rs2 0) u) :
    exec (.rv32Instruction d f) s = .next (setFrame u d f.val { frameOf' u d f.val with
      pc := (frameOf' u d f.val).pc + if rvGet (frameOf' u d f.val) rs1 = rvGet (frameOf' u d f.val) rs2 then 8 else 4 }) := by
  obtain ⟨low, -, hf3, hrs1, hrs2, -, -⟩ :=
    rvWord_fields (opcode := 0x63) (rd := 8) (f3 := 0) (f7 := 0) (by decide) (by decide) (by decide) h1 h2 (by decide)
  have offset : fldN (rvWord 0x63 8 0 rs1 rs2 0) 31 31 = 0 ∧ fldN (rvWord 0x63 8 0 rs1 rs2 0) 7 7 = 0 ∧
      fldN (rvWord 0x63 8 0 rs1 rs2 0) 30 25 = 0 ∧ fldN (rvWord 0x63 8 0 rs1 rs2 0) 11 8 = 4 := by
    simp only [fldN, rvWord, Nat.shiftRight_eq_div_pow]; omega
  obtain ⟨o1, o2, o3, o4⟩ := offset
  generalize rvWord 0x63 8 0 rs1 rs2 0 = w at *
  have decode : rvDecode w 4 = .branch 0 rs1 rs2 8 := by
    simp only [rvDecode, rvDecode32, low, hf3, hrs1, hrs2, o1, o2, o3, o4]; rfl
  rw [exec_rv32_decoded h decode rfl, rvExec]; dsimp only [rvTaken]
  by_cases taken : rvGet (frameOf' u d f.val) rs1 = rvGet (frameOf' u d f.val) rs2 <;> simp [taken]

end

theorem exec_ecall {s u : State} {d : DieId} {f : Fin 32} (h : Issuing s d f.val 0x73 u) :
    exec (.rv32Instruction d f) s = .next (stokerFault u d f.val 5 (frameOf' u d f.val).pc.toNat 0) :=
  exec_rv32_decoded (i := .trap) h rfl rfl

end Sys2Proof.Machine

namespace Sys2Proof

open Machine

/-- Settles O17: each word decodes to its instruction, whose effect is one frame put into its die, or a stoker fault. -/
theorem programInstructions : Obligations.ProgramInstructions := by
  unfold Obligations.ProgramInstructions
  intro s u d f rd rs1 rs2 hd h1 h2 x a b other hx
  have only (y : Frame) : other (setFrame u d f.val y) := frameOnly_setFrame y
  have put {w : Nat} (h : Issuing s d f.val w u) (y : Frame) : frameOf' (setFrame u d f.val y) d f.val = y :=
    frameOf'_setFrame_same y (h.frameListed f.isLt)
  have ended {w : Nat} (h : Issuing s d f.val w u) (cause addr : Nat) : (frameOf' (stokerFault u d f.val cause addr 0) d f.val).park = .ended := by
    rw [frameOf'_stokerFault_same (h.frameListed f.isLt)]
  refine ⟨fun e he h => ?_, fun imm hi h => ?_, fun h => ?_, fun h => ?_, fun h ha hend hr => ?_, fun h ha hend hbad => ?_,
    fun h ha hend => ?_, fun h => ⟨_, exec_ecall h, rfl, ended h _ _⟩⟩
  · have row : e.1 < 8 ∧ (e.2.1 = 0 ∨ e.2.1 = 1 ∨ e.2.1 = 32 ∧ (e.1 = 0 ∨ e.1 = 5)) ∧ opValue e.1 e.2.1 a b = e.2.2 := by
      simp only [List.mem_cons, List.not_mem_nil, or_false] at he
      rcases he with rfl | rfl | rfl | rfl | rfl | rfl | rfl | rfl | rfl | rfl | rfl | rfl | rfl <;> exact ⟨by simp, by simp, rfl⟩
    obtain ⟨h3, h7, value⟩ := row
    refine ⟨_, exec_op hd h1 h2 h3 h7 h, ?_⟩
    dsimp only
    rw [put h, value]
    obtain ⟨same, pc, rest, region⟩ := frameWent_regs hx rd e.2.2 (x.pc + 4)
    exact ⟨same, pc, rest, region, only _⟩
  · have word : 0x13 + rd * 2 ^ 7 + rs1 * 2 ^ 15 + imm * 2 ^ 20 = rvWord 0x13 rd 0 rs1 (imm % 32) (imm / 32) := by
      unfold rvWord; omega
    rw [word] at h
    refine ⟨_, exec_addi hd h1 hi h, ?_⟩
    dsimp only
    rw [put h]
    obtain ⟨same, pc, rest, -⟩ := frameWent_regs hx rd (a + sx32 12 imm) (x.pc + 4)
    exact ⟨same, pc, rest, only _⟩
  · have word : 0x67 + rd * 2 ^ 7 + rs1 * 2 ^ 15 = rvWord 0x67 rd 0 rs1 0 0 := by unfold rvWord; omega
    rw [word] at h
    refine ⟨_, exec_jalr hd h1 h, ?_⟩
    dsimp only
    rw [put h]
    exact ⟨rfl, (frameWent_regs hx rd (x.pc + 4) _).1, only _⟩
  · have word : 0x63 + 8 * 2 ^ 7 + rs1 * 2 ^ 15 + rs2 * 2 ^ 20 = rvWord 0x63 8 0 rs1 rs2 0 := by unfold rvWord; omega
    rw [word] at h
    refine ⟨_, exec_beq h1 h2 h, ?_⟩
    dsimp only
    rw [put h]
    exact ⟨rfl, rfl, only _⟩
  · have word : 0x23 + 2 * 2 ^ 12 + rs1 * 2 ^ 15 + rs2 * 2 ^ 20 = rvWord 0x23 0 2 rs1 rs2 0 := by unfold rvWord; omega
    rw [word] at h
    have listed := h.frameListed f.isLt
    refine ⟨_, exec_sw h1 h2 listed h hend ha, ?_⟩
    dsimp only
    rw [frameOf'_setFrame_same _ (by rwa [length_setFrame])]
    obtain ⟨word, rest⟩ := wordStored_region hr a.toNat b
    exact ⟨word, rest, rfl, rfl, (frameOnly_setFrame _).trans (frameOnly_setFrame _)⟩
  · have word : 0x03 + rd * 2 ^ 7 + 2 * 2 ^ 12 + rs1 * 2 ^ 15 = rvWord 0x03 rd 2 rs1 0 0 := by unfold rvWord; omega
    rw [word] at h
    refine ⟨_, exec_lw h1 hd h hend ha hbad, ?_⟩
    dsimp only
    rw [put h]
    obtain ⟨same, pc, -, region⟩ := frameWent_regs hx rd (BitVec.ofNat 32 (regionWord x a.toNat)) (x.pc + 4)
    exact ⟨same, region, pc, only _⟩
  · have word : 0x03 + rd * 2 ^ 7 + 2 * 2 ^ 12 + rs1 * 2 ^ 15 = rvWord 0x03 rd 2 rs1 0 0 := by unfold rvWord; omega
    rw [word] at h
    exact ⟨_, exec_lw_misaligned h1 hd h hend ha, rfl, ended h _ _⟩

end Sys2Proof
end
section
/-! PROOFS. O18. -/

namespace Sys2Proof.Machine

/-! ### Lines of the die cache (R292, R293) -/

theorem Looked.stk {s u : State} (h : Looked s u) (d : DieId) : getStk u d = getStk s d := by
  unfold Looked at h; rw [h]; rfl

theorem Looked.frameOf' {s u : State} (h : Looked s u) (d : DieId) (f : Nat) : frameOf' u d f = frameOf' s d f := by
  rw [Machine.frameOf', h.stk, Machine.frameOf']

/-- An accessed line stands in its cache. -/
theorem cacheTouch_has (m : MemUnit) (line : Nat) (dirty : Bool) : cacheHas (cacheTouch m line dirty) line = true := by
  have put {l : List CacheLine} {x : CacheLine} (hx : x ∈ l) (hl : x.line = line) :
      cacheHas { m with cache := mput [] m.cache (cacheSet line) l } line = true := by
    unfold cacheHas
    rw [mget_mput_listed m.cache _ (List.ne_nil_of_mem hx)]
    exact List.any_eq_true.mpr ⟨x, hx, by simp [hl]⟩
  unfold cacheTouch; dsimp only
  split
  · rename_i x found
    exact put List.mem_cons_self (by simpa using List.find?_some found)
  · split
    · exact put (List.mem_append_right _ List.mem_cons_self) rfl
    · exact put List.mem_cons_self rfl

theorem cacheTouch_advice (m : MemUnit) (line : Nat) (dirty : Bool) : (cacheTouch m line dirty).advice = m.advice := by
  unfold cacheTouch; dsimp only; split <;> rfl

/-- A memory side replaced by one with the same advice. -/
theorem advice_setMemu (s : State) (d : DieId) {m : MemUnit} (h : m.advice = (getMemu s d).advice) (n : DieId) :
    (getMemu (setMemu s d m) n).advice = (getMemu s n).advice := by
  by_cases hn : n = d
  · subst hn; simpa using h
  · simp [hn]

theorem readChunk_advice (s : State) (k : Nat) (n : DieId) : (getMemu (readChunk s k) n).advice = (getMemu s n).advice := by
  have logged (u : State) (e : DieId) (i : LogInfo) (c : Bool) :
      (getMemu (if c then logEntry u e i else u) n).advice = (getMemu u n).advice := by cases c <;> rfl
  unfold readChunk; dsimp only
  split
  · exact (logged _ _ _ _).trans (advice_setMemu s _ (by rfl) n)
  · exact (logged _ _ _ true).trans (advice_setMemu _ _ (by rfl) n)
  · rfl

theorem readLine_advice (s : State) (line : Nat) (n : DieId) : (getMemu (readLine s line) n).advice = (getMemu s n).advice := by
  unfold readLine; dsimp only
  rw [advice_setMemu _ _ (cacheTouch_advice _ line false)]
  split
  · rfl
  · rw [readChunk_advice, readChunk_advice]

theorem readLine_has (s : State) (line : Nat) : cacheHas (getMemu (readLine s line) (dieOf (128 * line))) line = true := by
  unfold readLine; dsimp only
  rw [getMemu_setMemu]; exact cacheTouch_has _ line false

theorem readLine_readOnly (s : State) (line : Nat) : ReadOnly s (readLine s line) := by
  obtain ⟨m, p, l, h⟩ := readLine_frame s line
  rw [h]; rfl

/-- Filling lines reads memory and leaves the advice. -/
theorem fillLines_leaves (s : State) (d : DieId) (rs : List (Nat × Nat)) : ReadOnly s (fillLines s d rs) ∧
    ∀ n, (getMemu (fillLines s d rs) n).advice = (getMemu s n).advice := by
  unfold fillLines
  generalize rs.flatMap _ = lines
  induction lines generalizing s with
  | nil => exact ⟨ReadOnly.refl s, fun _ => rfl⟩
  | cons line rest ih =>
    rw [List.foldl_cons]
    split
    · exact ih s
    · obtain ⟨read, advice⟩ := ih (readLine s line)
      exact ⟨(readLine_readOnly s line).trans read, fun n => (advice n).trans (readLine_advice s line n)⟩

/-- A range within one line of this die fills that line. -/
theorem fillLines_one (s : State) {d : DieId} {p n : Nat} (hp : dieOf p = d) (hn : (p + n - 1) / 128 = p / 128) :
    cacheHas (getMemu (fillLines s d [(p, n)]) d) (p / 128) = true := by
  have home : dieOf (128 * (p / 128)) = d := by rw [← hp]; unfold dieOf; congr 1; omega
  have one : fillLines s d [(p, n)] = if cacheHas (getMemu s d) (p / 128) then s else readLine s (p / 128) := by
    simp [fillLines, hn, countUp]
  rw [one]
  split
  · assumption
  · have read := readLine_has s (p / 128)
    rwa [home] at read

/-! ### Hints (R103, R293) -/

theorem hintRanges_leaves (d : DieId) (c lo hi : Nat) (ps : List Nat) (s : State) (acc : List (Nat × Nat)) :
    Looked s (hintRanges d c lo hi ps s acc).2 ∧ ∀ r ∈ (hintRanges d c lo hi ps s acc).1, r ∈ acc ∨ dieOf r.1 = d := by
  induction ps generalizing s acc with
  | nil => exact ⟨Looked.refl s, fun r hr => .inl hr⟩
  | cons p rest ih =>
    have translated := (translate_looked s d c (max lo (p * 2 ^ 25)) false).1
    unfold hintRanges; dsimp only
    generalize translate s d c (max lo (p * 2 ^ 25)) {} = r at translated
    obtain ⟨_ | ⟨pa, o⟩, s1⟩ := r
    · obtain ⟨looked, home⟩ := ih s1 acc
      exact ⟨translated.trans looked, home⟩
    · dsimp only
      by_cases mine : dieOf pa = d
      · rw [if_pos mine]
        obtain ⟨looked, home⟩ := ih s1 (acc ++ [(pa, min hi ((p + 1) * 2 ^ 25) - max lo (p * 2 ^ 25))])
        refine ⟨translated.trans looked, fun r hr => ?_⟩
        rcases home r hr with hr | hr
        · rcases List.mem_append.mp hr with hr | hr
          · exact .inl hr
          · obtain rfl := List.mem_singleton.mp hr
            exact .inr mine
        · exact .inr hr
      · rw [if_neg mine]
        obtain ⟨looked, home⟩ := ih s1 acc
        exact ⟨translated.trans looked, home⟩

theorem hintFor_leaves (s : State) (d : DieId) (c va n : Nat) : Looked s (hintFor s d c va n).2 ∧
    ∀ r ∈ (hintFor s d c va n).1, dieOf r.1 = d := by
  unfold hintFor; dsimp only
  split
  · exact ⟨Looked.refl s, by simp⟩
  · obtain ⟨looked, home⟩ := hintRanges_leaves d c va (va + min n (2 ^ 23)) (pagesOf va (va + min n (2 ^ 23) - 1)) s []
    exact ⟨looked, fun r hr => (home r hr).resolve_left List.not_mem_nil⟩

/-- Advice other than DONE stands last in a table of at most 64 entries. -/
theorem adviseRanges_keeps (s : State) (d : DieId) {code : Nat} {rs : List (Nat × Nat)} (hc : code ≠ 3) (hr : rs ≠ []) :
    ReadOnly s (adviseRanges s d code rs) ∧ (getMemu (adviseRanges s d code rs) d).advice.getLast? = some (code, rs) ∧
      (getMemu (adviseRanges s d code rs) d).advice.length ≤ 64 := by
  have put (u : State) (hu : (getMemu u d).advice = ((getMemu s d).advice ++ [(code, rs)]).drop ((getMemu s d).advice.length + 1 - 64)) :
      (getMemu u d).advice.getLast? = some (code, rs) ∧ (getMemu u d).advice.length ≤ 64 := by
    rw [hu]
    constructor
    · rw [List.getLast?_drop, if_neg (by simp)]; simp
    · simp; omega
  unfold adviseRanges; dsimp only
  rw [if_neg hr, if_neg hc]
  split
  · obtain ⟨read, advice⟩ := fillLines_leaves (setMemu s d { getMemu s d with
      advice := ((getMemu s d).advice ++ [(code, rs)]).drop ((getMemu s d).advice.length + 1 - 64) }) d rs
    have stored : ReadOnly s (setMemu s d { getMemu s d with
      advice := ((getMemu s d).advice ++ [(code, rs)]).drop ((getMemu s d).advice.length + 1 - 64) }) := rfl
    exact ⟨stored.trans read, put _ (by rw [advice]; simp)⟩
  · exact ⟨rfl, put _ (by simp)⟩

/-- DONE drops the advice that overlaps its ranges (R293). -/
theorem adviseRanges_done (s : State) (d : DieId) (rs : List (Nat × Nat)) : ReadOnly s (adviseRanges s d 3 rs) ∧
    (rs ≠ [] → ∀ e ∈ (getMemu (adviseRanges s d 3 rs) d).advice, ∀ a ∈ e.2, ∀ r ∈ rs, overlaps r a = false) := by
  unfold adviseRanges; dsimp only
  split
  · exact ⟨ReadOnly.refl s, fun h => absurd ‹_› h⟩
  · refine ⟨rfl, fun _ e he a ha r hr => ?_⟩
    rw [if_pos rfl, getMemu_setMemu] at he
    have apart := (List.mem_filter.mp he).2
    simp only [Bool.not_eq_true', List.any_eq_false] at apart
    have other : overlaps a r = false := by simpa using List.any_eq_false.mp (by simpa using apart a ha) r hr
    rw [← other]; exact Bool.and_comm _ _

/-! ### The status of a record's run (R73, R106) -/

theorem queues_endProgram_some (u : State) (d : DieId) (f st : Nat) :
    (endProgram u d f (some st)).queues = (markStatus u d (frameOf' u d f).queue (frameOf' u d f).count st).queues := by
  rw [endProgram_eq, queues_parkFrame]; rfl

/-- The run of a record that ends keeps the status it had, and takes the new one where it had none. -/
theorem runOf_markStatus {u : State} {d : DieId} {k count : Nat} {r : RunRec} (h : runOf (queueOf u d k) count = some r) (st : Nat) :
    runOf (queueOf (markStatus u d k count st) d k) count = some { r with status := some (r.status.getD st) } := by
  have same : r.record.count = count := by simpa using List.find?_some h
  have marked : ((queueOf u d k).runs.map fun r => if r.record.count = count then { r with status := some (r.status.getD st) } else r).find?
      (fun r => r.record.count == count) = some { r with status := some (r.status.getD st) } := by
    rw [List.find?_map]
    have record : ((fun r : RunRec => r.record.count == count) ∘
        fun r => if r.record.count = count then { r with status := some (r.status.getD st) } else r) = fun r => r.record.count == count := by
      funext r; dsimp only [Function.comp]; split <;> rfl
    rw [record]
    exact (congrArg _ h).trans (by simp [same])
  unfold markStatus updRun; dsimp only
  rw [queueOf_setQueue_listed]
  · exact marked
  · intro free
    have none : (queueOf u d k).runs.map (fun r => if r.record.count = count then { r with status := some (r.status.getD st) } else r) = [] :=
      congrArg Queue.runs free
    rw [none] at marked; cases marked

/-! ### What the commands that do not park do (R89, R93, R103 to R106) -/

section
variable {s u : State} {d : DieId} {f : Fin 32} {rd rs1 rs2 : Nat}

theorem exec_kTime (h : Issuing s d f.val (customWord 1 1 0 rd 0 0) u) (hd : rd < 32) (he : rd % 2 = 0) (h0 : rd ≠ 0) :
    exec (.kTime d f) s = .next (cmdNext (setFrame u d f.val (rvSet (rvSet (frameOf' u d f.val) rd (BitVec.ofNat 32 (dtime u d))) (rd + 1)
      (BitVec.ofNat 32 (dtime u d / 2 ^ 32)))) d f.val 0 0) := by
  change execKTime d f s = _
  rw [execKTime, runCommand_issuing h _ (by decide) (by decide) (by decide) hd (by decide) (by decide)]
  dsimp only
  rw [if_neg (by simp [he]), if_neg h0]

/-- A 64-bit value written to a pair is read from it. -/
theorem rvPair_rvSet {x : Frame} (hx : mwf 0 x.regs = true) {rd : Nat} (h0 : rd ≠ 0) (v : Nat) :
    rvPair (rvSet (rvSet x rd (BitVec.ofNat 32 v)) (rd + 1) (BitVec.ofNat 32 (v / 2 ^ 32))) rd = BitVec.ofNat 64 v := by
  rw [rvPair, if_neg h0, rvGet_rvSet_other _ _ (by omega), rvGet_rvSet_same hx, rvGet_rvSet_same (rvSet_mwf hx _ _), if_neg h0, if_neg (by omega)]
  apply BitVec.eq_of_toNat_eq
  simp only [BitVec.toNat_ofNat]; omega

theorem exec_kYield (h : Issuing s d f.val (customWord 1 0 0 0 0 0) u) :
    exec (.kYield d f) s = .next (endSlice (cmdNext u d f.val 0 0) d f.val) := by
  change execKYield d f s = _
  rw [execKYield, runCommand_issuing h _ (by decide) (by decide) (by decide) (by decide) (by decide) (by decide)]
  rfl

/-- The frame that issues stands last in the rotation once its slice has ended. -/
theorem endSlice_last {u : State} {d : DieId} {f : Nat} (hc : (stokerOf u d (f / 4)).cur = f % 4)
    (hl : f / 4 < (getStk u d).stokers.length) : (stokerOf (endSlice u d f) d (f / 4)).order.getLast? = some (f % 4) := by
  unfold endSlice; dsimp only
  rw [if_pos hc, stokerOf, setStoker, getStk_setStk]
  rw [lget_lset_same _ _ hl]; simp

theorem exec_kPrefetch (h : Issuing s d f.val (customWord 0 6 0 0 rs1 rs2) u) (h1 : rs1 < 32) (h2 : rs2 < 32) (he : rs1 % 2 = 0)
    {rs : List (Nat × Nat)} {v : State}
    (hint : hintFor u d (frameOf' u d f.val).ctx (rvPair (frameOf' u d f.val) rs1).toNat (rvGet (frameOf' u d f.val) rs2).toNat = (rs, v)) :
    exec (.kPrefetch d f) s = .next (cmdNext (fillLines v d rs) d f.val 0 0) := by
  change execKPrefetch d f s = _
  rw [execKPrefetch, runCommand_issuing h _ (by decide) (by decide) (by decide) (by decide) h1 h2]
  dsimp only
  rw [if_neg (by simp [he]), hint]

theorem exec_kAdvise {code : Nat} (hc : code ≤ 3) (h : Issuing s d f.val (customWord 0 7 code 0 rs1 rs2) u) (h1 : rs1 < 32) (h2 : rs2 < 32)
    (he : rs1 % 2 = 0) {rs : List (Nat × Nat)} {v : State}
    (hint : hintFor u d (frameOf' u d f.val).ctx (rvPair (frameOf' u d f.val) rs1).toNat (rvGet (frameOf' u d f.val) rs2).toNat = (rs, v)) :
    exec (.kAdvise d f) s = .next (cmdNext (adviseRanges v d code rs) d f.val 0 0) := by
  change execKAdvise d f s = _
  rw [execKAdvise, runCommand_issuing h _ (by decide) (by decide) (by omega) (by decide) h1 h2]
  dsimp only
  rw [if_neg (by simp [he, hc]), hint]

theorem exec_kEnd (h : Issuing s d f.val (customWord 1 5 0 0 rs1 0) u) (h1 : rs1 < 32) :
    exec (.kEnd d f) s = .next (endProgram u d f.val (if rvGet (frameOf' u d f.val) rs1 = 0 then none else some 3)) := by
  change execKEnd d f s = _
  rw [execKEnd, runCommand_issuing h _ (by decide) (by decide) (by decide) (by decide) h1 (by decide)]
  rfl

end

/-- The commands whose funct7 Table 4.4 wants zero, each with its opcode and funct3. -/
def zeroFunct7Rows (d : DieId) (f : Fin 32) : List (Instr × Nat × Nat) :=
  [(.kWaitge d f, 0, 0), (.kSigmax d f, 0, 1), (.kBin d f, 0, 4), (.kStep d f, 0, 5), (.kPrefetch d f, 0, 6), (.kYield d f, 1, 0),
    (.kTime d f, 1, 1), (.kCommit d f, 1, 2), (.kWindow d f, 1, 3), (.kGraph d f, 1, 4), (.kEnd d f, 1, 5)]

/-- A command whose meaning answers a nonzero funct7 with an illegal instruction. -/
theorem illegal_of_meaning {s u : State} {d : DieId} {f : Fin 32} {c : Instr} {minor f3 f7 rd rs1 rs2 : Nat}
    (meaning : State → Host.Outcome State Fault Refusal) {k : CmdWord → State → State} (hc : exec c s = meaning s)
    (hm : meaning s = runCommand d f.val minor f3 s k) (hk : ∀ w t, w.f7 ≠ 0 → k w t = illegalCmd t d f.val)
    (h : rvDecode (customWord minor f3 f7 rd rs1 rs2) 4 = .custom minor f3 f7 rd rs1 rs2)
    (hi : Issuing s d f.val (customWord minor f3 f7 rd rs1 rs2) u) (h0 : f7 ≠ 0) : exec c s = .next (illegalCmd u d f.val) := by
  rw [hc, hm, runCommand_decoded hi h, hk _ _ h0]

/-- Each answers a nonzero funct7 with an illegal instruction (R93). -/
theorem exec_zeroFunct7 {s u : State} {d : DieId} {f : Fin 32} {e : Instr × Nat × Nat} (he : e ∈ zeroFunct7Rows d f) {f7 rd rs1 rs2 : Nat}
    (h0 : f7 ≠ 0) (h7 : f7 < 128) (hd : rd < 32) (h1 : rs1 < 32) (h2 : rs2 < 32)
    (h : Issuing s d f.val (customWord e.2.1 e.2.2 f7 rd rs1 rs2) u) : exec e.1 s = .next (illegalCmd u d f.val) := by
  have decode {minor f3 : Nat} (hm : minor < 2) (h3 : f3 < 8) := rvDecode_customWord hm h3 h7 hd h1 h2
  simp only [zeroFunct7Rows, List.mem_cons, List.not_mem_nil, or_false] at he
  rcases he with rfl | rfl | rfl | rfl | rfl | rfl | rfl | rfl | rfl | rfl | rfl
  · exact illegal_of_meaning (execKWaitge d f) rfl rfl (fun _ _ hw => if_pos (Or.inl hw)) (decode (by simp) (by simp)) h h0
  · exact illegal_of_meaning (execKSigmax d f) rfl rfl (fun _ _ hw => if_pos (Or.inl hw)) (decode (by simp) (by simp)) h h0
  · exact illegal_of_meaning (execKBin d f) rfl rfl (fun _ _ hw => if_pos (Or.inr hw)) (decode (by simp) (by simp)) h h0
  · exact illegal_of_meaning (execKStep d f) rfl rfl (fun _ _ hw => if_pos (Or.inr hw)) (decode (by simp) (by simp)) h h0
  · exact illegal_of_meaning (execKPrefetch d f) rfl rfl (fun _ _ hw => if_pos (Or.inl hw)) (decode (by simp) (by simp)) h h0
  · exact illegal_of_meaning (execKYield d f) rfl rfl (fun _ _ hw => if_pos (Or.inl hw)) (decode (by simp) (by simp)) h h0
  · exact illegal_of_meaning (execKTime d f) rfl rfl (fun _ _ hw => if_pos (Or.inl hw)) (decode (by simp) (by simp)) h h0
  · exact illegal_of_meaning (execKCommit d f) rfl rfl (fun _ _ hw => if_pos (Or.inl hw)) (decode (by simp) (by simp)) h h0
  · exact illegal_of_meaning (execKWindow d f) rfl rfl (fun _ _ hw => if_pos (Or.inl hw)) (decode (by simp) (by simp)) h h0
  · exact illegal_of_meaning (execKGraph d f) rfl rfl (fun _ _ hw => if_pos (Or.inl hw)) (decode (by simp) (by simp)) h h0
  · exact illegal_of_meaning (execKEnd d f) rfl rfl (fun _ _ hw => if_pos (Or.inl hw)) (decode (by simp) (by simp)) h h0

end Sys2Proof.Machine

namespace Sys2Proof

open Machine

/-- Settles O18: each command is one frame put into its die, after a look-up where it names memory, or the end of its program. -/
theorem commandsThatDoNotPark : Obligations.CommandsThatDoNotPark := by
  unfold Obligations.CommandsThatDoNotPark
  intro s u d f rd rs1 rs2 hd h1 h2 x other hx
  refine ⟨fun h he h0 => ?_, fun h he hva => ?_, fun h hl => ?_, fun rs v hint => ?_, fun q hq _ h => ?_, fun e he f7 h0 h7 h => ?_⟩
  · have listed := h.frameListed f.isLt
    have only : FrameOnly d f.val u _ := (frameOnly_setFrame (rvSet (rvSet x rd (BitVec.ofNat 32 (dtime u d))) (rd + 1)
      (BitVec.ofNat 32 (dtime u d / 2 ^ 32)))).trans (frameOnly_cmdNext 0 0)
    refine ⟨_, exec_kTime h hd he h0, ?_⟩
    have went := frameOf'_cmdNext_zero (u := setFrame u d f.val (rvSet (rvSet x rd (BitVec.ofNat 32 (dtime u d))) (rd + 1)
      (BitVec.ofNat 32 (dtime u d / 2 ^ 32)))) (by rwa [length_setFrame])
    rw [frameOf'_setFrame_same _ listed] at went
    dsimp only
    rw [went]
    refine ⟨?_, ?_, fun r hr hr1 => ?_, only.1, only.2, fun a => (only.memByte a).trans (h.memByte a)⟩
    · rw [← h.fetched.dtime d]; exact rvPair_rvSet hx h0 (dtime u d)
    · rw [rvSet_regs, rvSet_regs]
    · exact (rvGet_rvSet_other _ _ hr1).trans (rvGet_rvSet_other x _ hr)
  · have listed := h.frameListed f.isLt
    have only : FrameOnly d f.val u _ :=
      (frameOnly_setFrame { x with dataWin := (rvPair x rs1).toNat / 2 ^ 30 }).trans (frameOnly_cmdNext 0 0)
    refine ⟨_, exec_kWindow h h1 he hva, ?_, only.1, only.2, fun a => (only.memByte a).trans (h.memByte a)⟩
    rw [frameOf'_cmdNext_zero (by rwa [length_setFrame]), frameOf'_setFrame_same _ listed]
  · have only : FrameOnly d f.val u _ := (frameOnly_cmdNext 0 0).trans frameOnly_endSlice
    refine ⟨_, exec_kYield h, ?_, ?_, only.1, only.2, fun a => (only.memByte a).trans (h.memByte a)⟩
    · rw [frameOf'_endSlice, frameOf'_cmdNext_zero (h.frameListed f.isLt)]
    · have unmoved (k : Nat) : stokerOf (cmdNext u d f.val 0 0) d k = stokerOf u d k := by
        rw [stokerOf, cmdNext, setFrame, getStk_setStk]; rfl
      refine endSlice_last ((congrArg Stoker.cur (unmoved _)).trans h.current) ?_
      rw [cmdNext, setFrame, getStk_setStk]
      have := f.isLt
      dsimp only; omega
  · obtain ⟨looked, home⟩ := hintFor_leaves u d x.ctx (rvPair x rs1).toNat (rvGet x rs2).toNat
    rw [hint] at looked home
    have went {w : Nat} (h : Issuing s d f.val w u) {t : State} (read : ReadOnly v t) :
        frameOf' (cmdNext t d f.val 0 0) d f.val = { x with pc := x.pc + 4 } ∧
        cmdNext t d f.val 0 0 = setStk t d (getStk (cmdNext t d f.val 0 0) d) ∧ other (cmdNext t d f.val 0 0) := by
      have kept := looked.trans read.looked
      have only : FrameOnly d f.val t _ := frameOnly_cmdNext 0 0
      refine ⟨?_, only.1, fun g hg => (only.2 g hg).trans (kept.frameOf' d g), fun a => ?_⟩
      · rw [frameOf'_cmdNext_zero (by rw [kept.stk]; exact h.frameListed f.isLt), kept.frameOf']
      · exact (only.memByte a).trans ((kept.memByte a).trans (h.memByte a))
    have memu (t : State) : getMemu (cmdNext t d f.val 0 0) d = getMemu t d := rfl
    refine ⟨looked, fun h he => ?_, fun code hc h he hr => ?_, fun h he => ?_⟩
    · obtain ⟨frame, stk, rest⟩ := went h (fillLines_leaves v d rs).1
      refine ⟨_, exec_kPrefetch h h1 h2 he hint, ?_, ?_, stk, fun p n hrs _ hline => ?_, rest⟩
      · rw [frame]
      · rw [frame]
      · subst hrs
        rw [memu]; exact fillLines_one v (home (p, n) List.mem_cons_self) hline
    · obtain ⟨read, last, short⟩ := adviseRanges_keeps v d (by omega : code ≠ 3) hr
      obtain ⟨frame, stk, rest⟩ := went h read
      refine ⟨_, exec_kAdvise (by omega) h h1 h2 he hint, last, fun _ => short, ?_, stk, rest⟩
      rw [frame]
    · obtain ⟨read, apart⟩ := adviseRanges_done v d rs
      obtain ⟨frame, stk, rest⟩ := went h read
      refine ⟨_, exec_kAdvise (by omega) h h1 h2 he hint, apart, ?_, stk, rest⟩
      rw [frame]
  · refine ⟨_, exec_kEnd h h1, ?_, fun a => (memByte_endProgram _ _ _ _ a).trans (h.memByte a), fun hz => ?_, fun hz => ?_⟩
    · rw [frameOf'_endProgram_same (h.frameListed f.isLt)]
    · rw [if_pos hz]; exact queues_endProgram_none u d f.val
    · rw [if_neg hz]
      refine ⟨{ q with status := some (q.status.getD 3) }, ?_, rfl⟩
      rw [queueOf, getQueues, queues_endProgram_some]
      exact runOf_markStatus hq 3
  · refine ⟨_, exec_zeroFunct7 he (by omega) h7 hd h1 h2 h, rfl, ?_⟩
    rw [illegalCmd, frameOf'_stokerFault_same (h.frameListed f.isLt)]

end Sys2Proof
end
section
/-! PROOFS. O20. -/

namespace Sys2Proof.Machine

/-! ### What translations and reads of a program's commands leave (R98, R109, R298) -/

theorem otherCopy_looked (s : State) (d : DieId) (cx : Ctx) (a : XlAsk) (e : XlEntry) (va copy : Nat) :
    Looked s (otherCopy s d cx a e va copy).2 := by
  have framed := (leafFrames_readsTables s d cx { big := e.big, w := e.w, handle := e.handle, page := e.page } va copy a.fence).looked
  unfold otherCopy
  generalize leafFrames s d cx _ va copy a.fence = r at framed
  obtain ⟨_ | fs, s1⟩ := r <;> exact framed

/-- Whatever is asked of a translation, it changes no more than a look-up may. -/
theorem translate_looked_ask (s : State) (d : DieId) (c va : Nat) (a : XlAsk) : Looked s (translate s d c va a).2 := by
  unfold translate
  extract_lets cx m far done
  have leaves (t : State) (e : XlEntry) : Looked t (done t e).2 := by
    unfold done; split
    · exact otherCopy_looked t d cx a e va _
    · exact Looked.refl t
  split
  · exact Looked.refl s
  split
  · exact Looked.refl s
  split
  · exact Looked.refl s
  split
  · split
    · exact Looked.refl s
    · exact (looked_setMemu (Looked.refl s) d _).trans (leaves _ _)
  · have walked := (walkTables_readsTables s d cx.ptRoot va).looked
    generalize walkTables s d cx.ptRoot va = r1 at walked
    obtain ⟨_ | l, s1⟩ := r1
    · exact walked
    · have framed := walked.trans (leafFrames_readsTables s1 d cx l va d.val a.fence).looked
      dsimp only
      generalize leafFrames s1 d cx l va d.val a.fence = r2 at framed
      obtain ⟨_ | fs, s2⟩ := r2
      · exact framed
      · dsimp only
        split
        · exact framed
        · exact (looked_setMemu framed d _).trans (leaves _ _)

theorem fenceAddr_looked (s : State) (d : DieId) (c va : Nat) (w : Bool) : Looked s (fenceAddr s d c va w).2 := by
  have translated := translate_looked_ask s d c va { write := w, fence := true }
  unfold fenceAddr
  generalize translate s d c va { write := w, fence := true } = r at translated
  obtain ⟨_ | ⟨pa, o⟩, s1⟩ := r
  · exact translated
  · dsimp only; split <;> exact translated

theorem vaBytes_looked (d : DieId) (c fuel va n : Nat) (s : State) : Looked s (vaBytes d c fuel va n s).2 := by
  induction fuel generalizing va n s with
  | zero => exact Looked.refl s
  | succ fuel ih =>
    unfold vaBytes; dsimp only
    split
    · exact Looked.refl s
    · have read := vaRead_looked s d c va (min n (2 ^ 25 - va % 2 ^ 25))
      generalize vaRead s d c va (min n (2 ^ 25 - va % 2 ^ 25)) = r1 at read
      obtain ⟨_ | b, s1⟩ := r1
      · exact read
      · have rest := read.trans (ih (va + min n (2 ^ 25 - va % 2 ^ 25)) (n - min n (2 ^ 25 - va % 2 ^ 25)) s1)
        dsimp only
        generalize vaBytes d c fuel _ _ s1 = r2 at rest
        obtain ⟨_ | b2, s2⟩ := r2 <;> exact rest

/-! ### Submissions (R94, R99, R102) -/

theorem Looked.engineOf {s u : State} (h : Looked s u) (d : DieId) (e : Nat) : engineOf u d e = engineOf s d e := by
  rw [Machine.engineOf, h.stk, Machine.engineOf]

theorem Looked.heldSubs {s u : State} (h : Looked s u) (d : DieId) (e : Nat) : heldSubs u d e = heldSubs s d e := by
  unfold Looked at h; rw [h]; rfl

section
variable {u : State} {d : DieId}

theorem engineOf_setEngine_same {e : Nat} (x : Engine) (h : e < (getStk u d).engines.length) : engineOf (setEngine u d e x) d e = x := by
  rw [engineOf, setEngine, getStk_setStk]; exact lget_lset_same _ x h

theorem frameOf'_setEngine (e : Nat) (x : Engine) (f : Nat) : frameOf' (setEngine u d e x) d f = frameOf' u d f := by
  rw [frameOf', setEngine, getStk_setStk]; rfl

theorem frames_setEngine (e : Nat) (x : Engine) : (getStk (setEngine u d e x) d).frames = (getStk u d).frames := by
  rw [setEngine, getStk_setStk]

theorem frameOnly_setEngine (f e : Nat) (x : Engine) : FrameOnly d f u (setEngine u d e x) :=
  ⟨by rw [setEngine, getStk_setStk], fun g _ => frameOf'_setEngine e x g⟩

theorem engineOf_parkFrame (f : Nat) (p : Park) (e : Nat) : engineOf (parkFrame u d f p) d e = engineOf u d e := by
  rw [engineOf, engines_parkFrame, engineOf]

/-- The submission that frame `f` makes of a descriptor. -/
def submissionOf (u : State) (d : DieId) (f : Nat) (desc : List Byte) : Submission :=
  { frame := f, queue := (frameOf' u d f).queue, count := (frameOf' u d f).count, desc := desc }

/-- Frame `f` parked with its engine changed. -/
def parkedAt (u : State) (d : DieId) (f e : Nat) (x : Engine) (p : Park) : State := parkFrame (setEngine u d e x) d f p

theorem parkedAt_leaves {f e : Nat} (hf : f < (getStk u d).frames.length) (he : e < (getStk u d).engines.length) (x : Engine) (p : Park) :
    engineOf (parkedAt u d f e x p) d e = x ∧ frameOf' (parkedAt u d f e x p) d f = { frameOf' u d f with park := p } ∧
      FrameOnly d f u (parkedAt u d f e x p) := by
  unfold parkedAt
  refine ⟨?_, ?_, (frameOnly_setEngine f e x).trans (frameOnly_parkFrame p)⟩
  · rw [engineOf_parkFrame, engineOf_setEngine_same x he]
  · rw [frameOf'_parkFrame_same _ (by rwa [frames_setEngine]), frameOf'_setEngine]

variable {f e rd : Nat} {desc : List Byte}

theorem submitDesc_faulted (h : (ctxOf u d (frameOf' u d f).ctx).state = .faulted) : submitDesc u d f e desc rd = endProgram u d f (some 4) :=
  if_pos h

variable (live : (ctxOf u d (frameOf' u d f).ctx).state ≠ .faulted)
include live

theorem submitDesc_fenced (h : (engineOf u d e).fenced = true) : submitDesc u d f e desc rd = endProgram u d f (some 3) :=
  (if_neg live).trans (if_pos h)

variable (open_ : (engineOf u d e).fenced = false)
include open_

theorem submitDesc_room (hr : (engineOf u d e).subs.length + heldSubs u d e < 32) (hf : (engineOf u d e).full = []) :
    submitDesc u d f e desc rd = parkedAt u d f e
      { engineOf u d e with subs := (engineOf u d e).subs ++ [submissionOf u d f desc] } (.submitted e rd) := by
  unfold submitDesc; dsimp only
  rw [if_neg live, if_neg (by simp [open_]), if_pos ⟨decide_eq_true hr, hf⟩]; rfl

theorem submitDesc_full (hr : ¬ ((engineOf u d e).subs.length + heldSubs u d e < 32 ∧ (engineOf u d e).full = [])) :
    submitDesc u d f e desc rd = parkedAt u d f e
      { engineOf u d e with full := (engineOf u d e).full ++ [submissionOf u d f desc] } (.full e rd) := by
  unfold submitDesc; dsimp only
  rw [if_neg live, if_neg (by simp [open_]), if_neg fun room => hr (room.imp_left of_decide_eq_true)]; rfl

end

/-! ### Graph walks (R109, R110) -/

section
variable {s u v : State} {d : DieId} {f : Fin 32} {rd rs1 : Nat} (h : Issuing s d f.val (customWord 1 4 0 rd rs1 0) u) (hd : rd < 32)
  (h1 : rs1 < 32) (he : rs1 % 2 = 0)
include h hd h1 he

theorem exec_kGraph_misaligned (ha : (rvPair (frameOf' u d f.val) rs1).toNat % 16 ≠ 0) :
    exec (.kGraph d f) s = .next (stokerFault u d f.val 6 (rvPair (frameOf' u d f.val) rs1).toNat 0) := by
  change execKGraph d f s = _
  rw [execKGraph, runCommand_issuing h _ (by decide) (by decide) (by decide) hd h1 (by decide)]
  dsimp only
  rw [if_neg (by simp [he]), if_pos ha]

theorem exec_kGraph_header {b : List Byte} (ha : (rvPair (frameOf' u d f.val) rs1).toNat % 16 = 0)
    (hb : vaBytes d (frameOf' u d f.val).ctx 2 (rvPair (frameOf' u d f.val) rs1).toNat 16 u = (.ok b, v)) (hz : zeroAt b 2 6 = true) :
    exec (.kGraph d f) s = .next (setFrame v d f.val { frameOf' v d f.val with
      walk := some { rd := rd, g := leAt b 0 2, node := le64 (b.drop 8), reads := 0 } }) := by
  change execKGraph d f s = _
  rw [execKGraph, runCommand_issuing h _ (by decide) (by decide) (by decide) hd h1 (by decide)]
  dsimp only
  rw [if_neg (by simp [he]), if_neg (by simp [ha]), hb]
  dsimp only
  rw [if_neg (by simp [hz])]

end

section
variable {s v : State} {d : DieId} {f : Fin 32} {w : Walk} {b : List Byte} (hi : issues s d f.val = true)
  (hw : (frameOf' s d f.val).walk = some w)
include hi hw

theorem exec_graphNode_fault (h : 65536 ≤ w.reads ∨ w.node.toNat % 64 ≠ 0) :
    exec (.graphNode d f) s = .next (stokerFault s d f.val 6 w.node.toNat 0) := by
  change execGraphNode d f s = _
  unfold execGraphNode; dsimp only
  rw [hw, hi]; dsimp only
  rw [if_pos h]; rfl

variable (hr : w.reads < 65536) (ha : w.node.toNat % 64 = 0) (hb : vaBytes d (frameOf' s d f.val).ctx 1 w.node.toNat 64 s = (.ok b, v))
  (hok : nodeOk b = true)
include hr ha hb hok

theorem exec_graphNode_newer (hn : 0 < sx 16 (leAt b 0 2 + 65536 - w.g)) (hp : le64 (b.drop 8) ≠ 0) :
    exec (.graphNode d f) s = .next (setFrame v d f.val { frameOf' v d f.val with
      walk := some { w with node := le64 (b.drop 8), reads := w.reads + 1 } }) := by
  change execGraphNode d f s = _
  unfold execGraphNode; dsimp only
  rw [hw, hi]; dsimp only
  rw [if_neg (by simp [ha]; omega), hb]; dsimp only
  rw [if_neg (by simp [hok]), if_pos hn, if_neg hp]; rfl

theorem exec_graphNode_acts (hn : ¬ 0 < sx 16 (leAt b 0 2 + 65536 - w.g)) :
    exec (.graphNode d f) s = .next (nodeAct v d f.val { w with reads := w.reads + 1 } b) := by
  change execGraphNode d f s = _
  unfold execGraphNode; dsimp only
  rw [hw, hi]; dsimp only
  rw [if_neg (by simp [ha]; omega), hb]; dsimp only
  rw [if_neg (by simp [hok]), if_neg hn]; rfl

end

/-- A SUBMIT node that passes its checks names an engine. -/
theorem nodeOk_engine {b : List Byte} (h : nodeOk b = true) (hk : leAt b 2 1 = 1) : leAt b 3 1 ≤ 12 := by
  unfold nodeOk at h; dsimp only at h
  simp only [hk, Bool.and_eq_true, decide_eq_true_eq, if_true] at h
  exact h.1.2.1

section
variable {v : State} {d : DieId} {f : Nat} {w : Walk} {b : List Byte}

/-- The frame of a walk that goes on from a node to NEXT. -/
def walkOn (v : State) (d : DieId) (f : Nat) (w : Walk) (b : List Byte) : State :=
  setFrame v d f { frameOf' v d f with walk := some { w with node := le64 (b.drop 0x10) } }

theorem nodeAct_end (h : leAt b 2 1 = 0) :
    nodeAct v d f w b = cmdNext (setFrame v d f { frameOf' v d f with walk := none }) d f w.rd (BitVec.ofNat 32 w.g) := by
  unfold nodeAct
  simp only [h]

theorem nodeAct_submit {desc : List Byte} {z : State} (h : leAt b 2 1 = 1) (ha : (le64 (b.drop 0x18)).toNat % 8 = 0)
    (hb : vaBytes d (frameOf' v d f).ctx 2 (le64 (b.drop 0x18)).toNat (descLen (leAt b 3 1)) (walkOn v d f w b) = (.ok desc, z)) :
    nodeAct v d f w b = submitDesc z d f (leAt b 3 1) desc 0 := by
  unfold walkOn at hb
  unfold nodeAct
  simp only [h, ha, ne_eq, not_true_eq_false, if_false, hb]

end

end Sys2Proof.Machine

namespace Sys2Proof

open Machine

/-- Settles O20: the reads of a walk are look-ups, and what follows them is one frame put into its die, a submission, or a stoker fault. -/
theorem graphWalks : Obligations.GraphWalks := by
  unfold Obligations.GraphWalks
  refine ⟨fun s u v d f rd rs1 b hd h1 he h => ⟨fun ha => ?_, fun ha hb hz => ?_⟩, ?_⟩
  · refine ⟨_, exec_kGraph_misaligned h hd h1 he ha, rfl, ?_⟩
    rw [frameOf'_stokerFault_same (h.frameListed f.isLt)]
  · have looked := vaBytes_looked d (frameOf' u d f.val).ctx 2 (rvPair (frameOf' u d f.val) rs1).toNat 16 u
    rw [hb] at looked
    have only : FrameOnly d f.val v _ := frameOnly_setFrame { frameOf' v d f.val with
      walk := some { rd := rd, g := leAt b 0 2, node := le64 (b.drop 8), reads := 0 } }
    refine ⟨_, exec_kGraph_header h hd h1 he ha hb hz, ?_, fun g hg => (only.2 g hg).trans (looked.frameOf' d g), fun a => ?_⟩
    · rw [frameOf'_setFrame_same _ (by rw [looked.stk]; exact h.frameListed f.isLt), looked.frameOf']
    · exact (only.memByte a).trans ((looked.memByte a).trans (h.memByte a))
  intro s v d f w b hi hl x hw
  refine ⟨fun hf => ?_, fun hr ha hb hok => ⟨fun hn hp => ?_, fun hn hk => ?_,
    fun desc z hn hk ha' hb' live open_ full room hlen => ?_⟩⟩
  · refine ⟨_, exec_graphNode_fault hi hw hf, rfl, ?_⟩
    rw [frameOf'_stokerFault_same (by have := f.isLt; omega)]
  all_goals
    have looked := vaBytes_looked d x.ctx 1 w.node.toNat 64 s
    rw [hb] at looked
    have listed : f.val < (getStk v d).frames.length := by rw [looked.stk, hl]; exact f.isLt
    have same : frameOf' v d f.val = x := looked.frameOf' d f.val
  · refine ⟨_, exec_graphNode_newer hi hw hr ha hb hok hn hp, ?_, fun a => ?_⟩
    · rw [frameOf'_setFrame_same _ listed, same]
    · exact ((frameOnly_setFrame _).memByte a).trans (looked.memByte a)
  · have only : FrameOnly d f.val v _ := (frameOnly_setFrame { frameOf' v d f.val with walk := none }).trans
      (frameOnly_cmdNext w.rd (BitVec.ofNat 32 w.g))
    refine ⟨_, (exec_graphNode_acts hi hw hr ha hb hok (not_lt.mpr hn)).trans (congrArg _ (nodeAct_end hk)), ?_⟩
    dsimp only
    rw [frameOf'_cmdNext_same (by rwa [length_setFrame]), frameOf'_setFrame_same _ listed, same]
    refine ⟨?_, rfl, ?_, fun hrd hx => ?_, fun a => (only.memByte a).trans (looked.memByte a)⟩
    · rw [rvSet_regs]
    · rw [rvSet_regs]
    · exact (rvGet_rvSet_same (x := { x with walk := none }) hx w.rd _).trans (if_neg hrd)
  · have read := vaBytes_looked d x.ctx 2 (le64 (b.drop 0x18)).toNat (descLen (leAt b 3 1)) (walkOn v d f.val { w with reads := w.reads + 1 } b)
    have acts := nodeAct_submit (w := { w with reads := w.reads + 1 }) (v := v) (d := d) (f := f.val) hk ha' (by rw [same]; exact hb')
    unfold walkOn at read
    rw [hb'] at read
    have engine : engineOf z d (leAt b 3 1) = engineOf s d (leAt b 3 1) :=
      (read.engineOf d _).trans ((by rw [engineOf, setFrame, getStk_setStk]; rfl : _ = engineOf v d _).trans (looked.engineOf d _))
    have held : heldSubs z d (leAt b 3 1) = heldSubs s d (leAt b 3 1) :=
      (read.heldSubs d _).trans (looked.heldSubs d (leAt b 3 1))
    have frame : frameOf' z d f.val = { x with walk := some { w with reads := w.reads + 1, node := le64 (b.drop 0x10) } } := by
      rw [read.frameOf', frameOf'_setFrame_same _ listed, same]
    have ctx : ctxOf z d (frameOf' z d f.val).ctx = ctxOf s d x.ctx := by
      rw [frame]; exact (read.ctxOf d _).trans (looked.ctxOf d _)
    have stk : (getStk z d).frames.length = (getStk s d).frames.length ∧ (getStk z d).engines.length = (getStk s d).engines.length := by
      rw [read.stk, length_setFrame, setFrame, getStk_setStk, looked.stk]; exact ⟨rfl, rfl⟩
    obtain ⟨put, parked, -⟩ := parkedAt_leaves (u := z) (d := d) (f := f.val) (e := leAt b 3 1) (by rw [stk.1, hl]; exact f.isLt)
      (by rw [stk.2, hlen]; have := nodeOk_engine hok hk; omega)
      { engineOf z d (leAt b 3 1) with subs := (engineOf z d (leAt b 3 1)).subs ++ [submissionOf z d f.val desc] } (.submitted (leAt b 3 1) 0)
    refine ⟨_, (exec_graphNode_acts hi hw hr ha hb hok (not_lt.mpr hn)).trans (congrArg _ (acts.trans (submitDesc_room
      (by rw [ctx]; exact live) (by rw [engine]; exact open_) (by rw [engine, held]; exact room) (by rw [engine]; exact full)))), ?_⟩
    dsimp only
    rw [put, parked, engine, submissionOf, frame]
    exact ⟨rfl, rfl, rfl⟩

end Sys2Proof
end
section
/-! PROOFS. O19. -/

namespace Sys2Proof.Machine

/-! ### Waits and signals as a program issues them (R96 to R98) -/

theorem Looked.nextId {s u : State} (h : Looked s u) : u.nextId = s.nextId := by
  unfold Looked at h; rw [h]

/-- The low word of a fence's value is that of its first four bytes. -/
theorem memNat_low (s : State) (pa : Nat) : (BitVec.ofNat 32 (memNat s pa 4) : W32) = BitVec.ofNat 32 (memWord s pa).toNat := by
  apply BitVec.eq_of_toNat_eq
  simp only [memWord, memNat, memRead, countUp, List.map, leNat, BitVec.toNat_ofNat]
  omega

/-- A frame's wait noted among those that changes of memory settle (R80). -/
def waitNoted (s : State) (d : DieId) (f pa : Nat) (thr : W64) : State :=
  { s with watches := mins s.watches (watchKey d (frameOf' s d f).queue (frameOf' s d f).count) { die := d, pa := pa, thr := thr, met := none } }

section
variable {u v : State} {d : DieId} {f pa rd : Nat} {va thr : W64}

theorem doWait_holds (ha : fenceAddr u d (frameOf' u d f).ctx va.toNat false = (.ok pa, v)) (hw : waitHolds (noteRead v pa 8) d pa thr = true) :
    doWait u d f va thr rd = wakeFrame (noteRead v pa 8) d f rd (BitVec.ofNat 32 (memWord v pa).toNat) := by
  unfold doWait
  rw [ha]; dsimp only
  rw [if_pos hw, memNat_low, (noteRead_readOnly v pa 8).memWord]

theorem doWait_parks (ha : fenceAddr u d (frameOf' u d f).ctx va.toNat false = (.ok pa, v)) (hw : waitHolds (noteRead v pa 8) d pa thr = false) :
    doWait u d f va thr rd = parkFrame (waitNoted (noteRead v pa 8) d f pa thr) d f (.waitge pa va thr rd (dtime (noteRead v pa 8) d) false) := by
  unfold doWait
  rw [ha]; dsimp only
  rw [if_neg (by simp [hw])]; rfl

/-- The signal that frame `f` sends. -/
def signalOf (u v : State) (d : DieId) (f pa : Nat) (va x : W64) : Signal :=
  { src := d, frame := some f, queue := (frameOf' u d f).queue, count := (frameOf' u d f).count, va := va.toNat, pa := pa, value := x,
    sentAt := v.now }

theorem doSignal_parks (ha : fenceAddr u d (frameOf' u d f).ctx va.toNat true = (.ok pa, v)) :
    doSignal u d f va thr rd = parkFrame (sendSignal v (signalOf u v d f pa va thr)) d f (.sigmax rd) := by
  unfold doSignal; dsimp only
  rw [ha]; rfl

end

section
variable {s u : State} {d : DieId} {f : Fin 32} {rd rs1 rs2 : Nat} (hd : rd < 32) (h1 : rs1 < 32)
include hd h1

section
variable (h2 : rs2 < 32) (he1 : rs1 % 2 = 0) (he2 : rs2 % 2 = 0)
include h2 he1 he2

theorem exec_kWaitge (h : Issuing s d f.val (customWord 0 0 0 rd rs1 rs2) u) :
    exec (.kWaitge d f) s = .next (doWait u d f.val (rvPair (frameOf' u d f.val) rs1) (rvPair (frameOf' u d f.val) rs2) rd) := by
  change execKWaitge d f s = _
  rw [execKWaitge, runCommand_issuing h _ (by decide) (by decide) (by decide) hd h1 h2]
  dsimp only
  rw [if_neg (by simp [he1, he2])]

theorem exec_kSigmax (h : Issuing s d f.val (customWord 0 1 0 rd rs1 rs2) u) :
    exec (.kSigmax d f) s = .next (doSignal u d f.val (rvPair (frameOf' u d f.val) rs1) (rvPair (frameOf' u d f.val) rs2) rd) := by
  change execKSigmax d f s = _
  rw [execKSigmax, runCommand_issuing h _ (by decide) (by decide) (by decide) hd h1 h2]
  dsimp only
  rw [if_neg (by simp [he1, he2])]

end

/-! ### Submissions as a program issues them (R94, R95) -/

theorem exec_kBin (h : Issuing s d f.val (customWord 0 4 0 rd rs1 0) u) : exec (.kBin d f) s = .next (submitFrom u d f.val 0 ⟨0, rd, rs1, 0⟩) := by
  change execKBin d f s = _
  rw [execKBin, runCommand_issuing h _ (by decide) (by decide) (by decide) hd h1 (by decide)]; rfl

theorem exec_kStep (h : Issuing s d f.val (customWord 0 5 0 rd rs1 0) u) :
    exec (.kStep d f) s = .next (submitFrom u d f.val 12 ⟨0, rd, rs1, 0⟩) := by
  change execKStep d f s = _
  rw [execKStep, runCommand_issuing h _ (by decide) (by decide) (by decide) hd h1 (by decide)]; rfl

theorem exec_kLaunch {n : Nat} (hn : n ∈ [1, 2, 3, 4, 9, 10, 11]) (h : Issuing s d f.val (customWord 0 2 n rd rs1 0) u) :
    exec (.kLaunch d f) s = .next (submitFrom u d f.val n ⟨n, rd, rs1, 0⟩) := by
  have small : ∀ n ∈ [1, 2, 3, 4, 9, 10, 11], n < 128 := by decide
  change execKLaunch d f s = _
  rw [execKLaunch, runCommand_issuing h _ (by decide) (by decide) (small n hn) hd h1 (by decide)]
  exact congrArg _ (if_neg (by simp only [ne_eq, not_true, false_or, not_not]; exact hn))

theorem exec_kDma {n : Nat} (hn : n ∈ [0, 1, 2, 3]) (h : Issuing s d f.val (customWord 0 3 n rd rs1 0) u) :
    exec (.kDma d f) s = .next (submitFrom u d f.val (5 + n) ⟨n, rd, rs1, 0⟩) := by
  have small : ∀ n ∈ [0, 1, 2, 3], n ≤ 3 := by decide
  have := small n hn
  change execKDma d f s = _
  rw [execKDma, runCommand_issuing h _ (by decide) (by decide) (by omega) hd h1 (by decide)]
  exact congrArg _ (if_neg (by simp [this]))

/-- Every submission command submits to its row's engine (Tables 4.4, 4.6). -/
theorem exec_submitRow {e : Instr × Nat × Nat × Nat} (he : e ∈ submitRows d f) (h : Issuing s d f.val (customWord 0 e.2.1 e.2.2.1 rd rs1 0) u) :
    exec e.1 s = .next (submitFrom u d f.val e.2.2.2 ⟨e.2.2.1, rd, rs1, 0⟩) ∧ e.2.2.2 < 13 := by
  rw [submitRows, List.mem_append, List.mem_append] at he
  rcases he with (he | he) | he
  · simp only [List.mem_cons, List.not_mem_nil, or_false] at he
    rcases he with rfl | rfl
    · exact ⟨exec_kBin hd h1 h, by simp⟩
    · exact ⟨exec_kStep hd h1 h, by simp⟩
  · obtain ⟨n, hn, rfl⟩ := List.mem_map.mp he
    have small : ∀ n ∈ [1, 2, 3, 4, 9, 10, 11], n < 13 := by decide
    exact ⟨exec_kLaunch hd h1 hn h, small n hn⟩
  · obtain ⟨n, hn, rfl⟩ := List.mem_map.mp he
    have small : ∀ n ∈ [0, 1, 2, 3], 5 + n < 13 := by decide
    exact ⟨exec_kDma hd h1 hn h, small n hn⟩

omit hd h1 in
/-- A descriptor within the frame region is copied out of it (R94). -/
theorem submitFrom_region {e : Nat} (w : CmdWord) (ha : (rvGet (frameOf' u d f.val) w.rs1).toNat % 8 = 0)
    (hend : (rvGet (frameOf' u d f.val) w.rs1).toNat + descLen e ≤ 0x3000) (hbad : (frameOf' u d f.val).regionBad = false) :
    submitFrom u d f.val e w = submitDesc u d f.val e
      ((countUp (rvGet (frameOf' u d f.val) w.rs1).toNat (descLen e)).map (mget 0 (frameOf' u d f.val).region)) w.rd := by
  unfold submitFrom; dsimp only
  rw [if_neg (by simp [ha]), rvPlace_region _ hend]; dsimp only
  rw [if_neg (by simp [hbad])]

/-! ### k.commit (R112) -/

theorem exec_kCommit_foreign (h : Issuing s d f.val (customWord 1 2 0 rd rs1 0) u) (ht : (frameOf' u d f.val).tenant ≠ 0) :
    exec (.kCommit d f) s = .next (stokerFault u d f.val 7 (rvGet (frameOf' u d f.val) rs1).toNat 0) := by
  change execKCommit d f s = _
  rw [execKCommit, runCommand_issuing h _ (by decide) (by decide) (by decide) hd h1 (by decide)]
  dsimp only
  rw [if_neg (by simp), if_pos ht]

/-- The commit block at address `a` of a frame's region: its header and its entries, at most 16 (Table 4.10). -/
def commitBlock (x : Frame) (a : Nat) : List Byte := (countUp a (16 + 16 * min 16 (mget 0 x.region (a + 8)).toNat)).map (mget 0 x.region)

theorem exec_kCommit_sent (h : Issuing s d f.val (customWord 1 2 0 rd rs1 0) u) (ht : (frameOf' u d f.val).tenant = 0)
    (ha : (rvGet (frameOf' u d f.val) rs1).toNat % 8 = 0) (hend : (rvGet (frameOf' u d f.val) rs1).toNat + 272 ≤ 0x3000)
    (hbad : (frameOf' u d f.val).regionBad = false) :
    exec (.kCommit d f) s = .next (parkFrame (setFrame u d f.val { frameOf' u d f.val with
      commitDesc := commitBlock (frameOf' u d f.val) (rvGet (frameOf' u d f.val) rs1).toNat }) d f.val (.commit rd)) := by
  change execKCommit d f s = _
  rw [execKCommit, runCommand_issuing h _ (by decide) (by decide) (by decide) hd h1 (by decide)]
  dsimp only
  rw [if_neg (by simp), if_neg (by simp [ht]), if_neg (by simp [ha]), rvPlace_region _ (by omega)]
  dsimp only
  rw [if_neg (by simp [hbad])]; rfl

end

end Sys2Proof.Machine

namespace Sys2Proof

open Machine

/-- Settles O19: a fence is looked up and its frame woken or parked, a descriptor copied and queued, or the program ended. -/
theorem commandsThatPark : Obligations.CommandsThatPark := by
  unfold Obligations.CommandsThatPark
  intro s u v d f rd rs1 rs2 pa hd h1 h2 x other
  refine ⟨fun h he1 he2 ha => ?_, fun h he1 he2 ha => ?_, ?_, fun h => ⟨fun ht => ?_, fun ht ha hend hbad => ?_⟩⟩
  · have looked : Looked u v := by simpa only [ha] using fenceAddr_looked u d x.ctx (rvPair x rs1).toNat false
    have read : Looked u (noteRead v pa 8) := looked.trans (noteRead_readOnly v pa 8).looked
    have listed : f.val < (getStk (noteRead v pa 8) d).frames.length := by rw [read.stk]; exact h.frameListed f.isLt
    have frame : frameOf' (noteRead v pa 8) d f.val = x := read.frameOf' d f.val
    have kept {t : State} (only : FrameOnly d f.val (noteRead v pa 8) t) : other t :=
      ⟨fun g hg => (only.2 g hg).trans (read.frameOf' d g), fun b => (only.memByte b).trans ((read.memByte b).trans (h.memByte b))⟩
    have word : memWord v pa = memWord s pa := by
      rw [memWord, memNat, memRead, funext looked.memByte, funext h.memByte]; rfl
    refine ⟨_, exec_kWaitge hd h1 h2 he1 he2 h, ?_⟩
    cases holds : waitHolds (noteRead v pa 8) d pa (rvPair x rs2) with
    | true =>
      rw [doWait_holds ha holds, word]
      refine ⟨kept (frameOnly_wakeFrame rd _), fun _ hx hw => ?_, fun no => Bool.noConfusion no⟩
      rw [frameOf'_wakeFrame_same listed, frame]
      obtain ⟨pc, value, -⟩ := wokenFrame_program hw rd (BitVec.ofNat 32 (memWord s pa).toNat)
      exact ⟨wokenFrame_park x rd _, pc, fun hrd => (if_neg hrd).trans (value hrd hx)⟩
    | false =>
      rw [doWait_parks ha holds]
      have only : FrameOnly d f.val (waitNoted (noteRead v pa 8) d f.val pa (rvPair x rs2)) _ :=
        frameOnly_parkFrame (.waitge pa (rvPair x rs1) (rvPair x rs2) rd (dtime (noteRead v pa 8) d) false)
      have time : dtime (noteRead v pa 8) d = dtime s d := (read.dtime d).trans (h.fetched.dtime d)
      refine ⟨⟨fun g hg => (only.2 g hg).trans (read.frameOf' d g), fun b => (only.memByte b).trans ((read.memByte b).trans (h.memByte b))⟩,
        fun no => Bool.noConfusion no, fun _ => ⟨?_, ?_⟩⟩
      · rw [← time]; exact (frameOf'_parkFrame_same (u := waitNoted _ d f.val pa _) _ listed).trans
          (congrArg (fun y : Frame => { y with park := .waitge pa (rvPair x rs1) (rvPair x rs2) rd (dtime (noteRead v pa 8) d) false }) frame)
      · rw [only.1]
        have put := mfind_mins_same (noteRead v pa 8).watches (watchKey d x.queue x.count) { die := d, pa := pa, thr := rvPair x rs2, met := none }
        rw [← frame] at put ⊢; exact put
  · have looked : Looked u v := by simpa only [ha] using fenceAddr_looked u d x.ctx (rvPair x rs1).toNat true
    have only : FrameOnly d f.val (sendSignal v (signalOf u v d f.val pa (rvPair x rs1) (rvPair x rs2))) _ := frameOnly_parkFrame (.sigmax rd)
    have listed : f.val < (getStk v d).frames.length := by rw [looked.stk]; exact h.frameListed f.isLt
    refine ⟨_, (exec_kSigmax hd h1 h2 he1 he2 h).trans (congrArg _ (doSignal_parks ha)), ⟨fun g hg => (only.2 g hg).trans (looked.frameOf' d g),
      fun b => (only.memByte b).trans ((looked.memByte b).trans (h.memByte b))⟩, ?_, signalOf u v d f.val pa (rvPair x rs1) (rvPair x rs2),
      ?_, rfl, rfl, rfl, rfl, rfl, rfl⟩
    · exact (frameOf'_parkFrame_same (u := sendSignal v _) (.sigmax rd) listed).trans
        (congrArg (fun y : Frame => { y with park := .sigmax rd }) (looked.frameOf' d f.val))
    · have next : v.nextId = s.nextId := looked.nextId.trans h.fetched.nextId
      rw [only.1, ← next]
      exact mfind_mins_same v.signals v.nextId _
  · intro e he h hlen a desc eng ha hend hbad
    obtain ⟨run, small⟩ := exec_submitRow hd h1 he h
    have listed := h.frameListed f.isLt
    rw [submitFrom_region ⟨e.2.2.1, rd, rs1, 0⟩ ha hend hbad] at run
    have parked (y : Engine) (p : Park) := parkedAt_leaves listed (by rw [hlen]; exact small) y p
    have kept {t : State} (only : FrameOnly d f.val u t) : other t := ⟨only.2, fun b => (only.memByte b).trans (h.memByte b)⟩
    have ended (st : Nat) : (frameOf' (endProgram u d f.val (some st)) d f.val).park = .ended := by rw [frameOf'_endProgram_same listed]
    refine ⟨fun live open_ => ?_, fun faulted => ?_, fun live fenced => ?_⟩
    · refine ⟨_, run, ?_, fun room full => ?_, fun full => ?_⟩
      · by_cases room : eng.subs.length + heldSubs u d e.2.2.2 < 32 ∧ eng.full = []
        · rw [submitDesc_room live open_ room.1 room.2]; exact kept (parked _ _).2.2
        · rw [submitDesc_full live open_ room]; exact kept (parked _ _).2.2
      · rw [submitDesc_room live open_ room full]
        exact ⟨(parked _ _).1, (parked _ _).2.1⟩
      · rw [submitDesc_full live open_ fun room => absurd room.1 (not_lt.mpr full)]
        exact ⟨(parked _ _).1, (parked _ _).2.1⟩
    · exact ⟨_, run.trans (congrArg _ (submitDesc_faulted faulted)), rfl, ended 4, engines_endProgram u d f.val _⟩
    · exact ⟨_, run.trans (congrArg _ (submitDesc_fenced live fenced)), rfl, ended 3, engines_endProgram u d f.val _⟩
  · refine ⟨_, exec_kCommit_foreign hd h1 h ht, rfl, ?_⟩
    rw [frameOf'_stokerFault_same (h.frameListed f.isLt)]
  · have listed := h.frameListed f.isLt
    have only : FrameOnly d f.val u _ := (frameOnly_setFrame { x with commitDesc := commitBlock x (rvGet x rs1).toNat }).trans
      (frameOnly_parkFrame (.commit rd))
    refine ⟨_, exec_kCommit_sent hd h1 h ht ha hend hbad, ⟨only.2, fun b => (only.memByte b).trans (h.memByte b)⟩, ?_⟩
    rw [frameOf'_parkFrame_same _ (by rwa [length_setFrame]), frameOf'_setFrame_same _ listed]
    exact ⟨rfl, rfl⟩

end Sys2Proof
end
section
/-! PROOFS. O21. -/

namespace Sys2Proof.Machine

/-! ### What the agreement leaves (R366): memory, and the fences that stand -/

/-- A step that writes no byte of memory and lifts no fence. -/
structure FencesStand (s t : State) : Prop where
  mem : t.mem = s.mem
  fenced : ∀ n, isFenced s n = true → isFenced t n = true

theorem FencesStand.of_eq {s t : State} (hm : t.mem = s.mem) (hf : t.agree.fenced = s.agree.fenced) : FencesStand s t :=
  ⟨hm, fun n h => by rw [isFenced, hf]; exact h⟩

theorem FencesStand.refl (s : State) : FencesStand s s := .of_eq rfl rfl

theorem FencesStand.trans {s t u : State} (h1 : FencesStand s t) (h2 : FencesStand t u) : FencesStand s u :=
  ⟨h2.mem.trans h1.mem, fun n h => h2.fenced n (h1.fenced n h)⟩

/-- Steps of which each keeps the fences keep them together. -/
theorem fencesStand_foldl {β : Type} {f : State → β → State} (h : ∀ t b, FencesStand t (f t b)) (l : List β) (s : State) :
    FencesStand s (l.foldl f s) := by
  induction l generalizing s with
  | nil => exact .refl s
  | cons b r ih => exact (h s b).trans (ih _)

theorem fencesStand_onEnds (s : State) (i : Nat) (f : CordEnd → CordEnd) : FencesStand s (onEnds s i f) := by
  unfold onEnds
  refine fencesStand_foldl ?_ _ s
  exact fun _ _ => .of_eq rfl rfl

theorem fencesStand_stopTraffic (s : State) (n : DieId) : FencesStand s (stopTraffic s n) :=
  fencesStand_foldl (fun t _ => fencesStand_onEnds t _ _) _ s

theorem fencesStand_markAborted (s : State) (p : GeoPass) : FencesStand s (markAborted s p) :=
  fencesStand_foldl (fun t n => by dsimp only; split <;> exact .of_eq rfl rfl) _ s

theorem fencesStand_abortPassesOf (s : State) (n : DieId) : FencesStand s (abortPassesOf s n) := fencesStand_foldl fencesStand_markAborted _ s

theorem fencesStand_needReload (s : State) (n : DieId) (cause : Nat) : FencesStand s (needReload s n cause) := by
  unfold needReload; split <;> exact .of_eq rfl rfl

/-- The fence of die `n` noted, with its entry (R366). -/
def fenceNoted (s : State) (n : DieId) (cause : Nat) : State :=
  logEntry { s with agree := { s.agree with fenced := mins s.agree.fenced n.val cause, joined := putBit s.agree.joined n.val false } } 0
    { code := 0x0906, kind := 0x0D, index := n.val, detail := detV n.val cause }

theorem isFenced_fenceNoted_same (s : State) (n : DieId) (cause : Nat) : isFenced (fenceNoted s n cause) n = true := by
  change (mfind (mins s.agree.fenced n.val cause) n.val).isSome = true
  rw [mfind_mins_same]; rfl

theorem fencesStand_fenceNoted (s : State) (n : DieId) (cause : Nat) : FencesStand s (fenceNoted s n cause) := by
  refine ⟨rfl, fun k h => ?_⟩
  by_cases hk : k = n
  · rw [hk]; exact isFenced_fenceNoted_same s n cause
  · change (mfind (mins s.agree.fenced n.val cause) k.val).isSome = true
    rw [mfind_mins_other _ _ (fun e => hk (Fin.ext e))]; exact h

theorem fenceDie_eq (s : State) (n : DieId) (cause : Nat) : fenceDie s n cause =
    if isFenced (needReload s n cause) n then needReload s n cause
    else abortPassesOf (stopTraffic (fenceNoted (needReload s n cause) n cause) n) n := rfl

theorem fencesStand_fenceDie (s : State) (n : DieId) (cause : Nat) : FencesStand s (fenceDie s n cause) := by
  have need := fencesStand_needReload s n cause
  rw [fenceDie_eq]
  split
  · exact need
  · exact need.trans ((fencesStand_fenceNoted _ n cause).trans ((fencesStand_stopTraffic _ n).trans (fencesStand_abortPassesOf _ n)))

/-- A die that is fenced is fenced afterwards, whatever cause stood before. -/
theorem isFenced_fenceDie (s : State) (n : DieId) (cause : Nat) : isFenced (fenceDie s n cause) n = true := by
  rw [fenceDie_eq]
  split
  · assumption
  · exact ((fencesStand_stopTraffic _ n).trans (fencesStand_abortPassesOf _ n)).fenced n (isFenced_fenceNoted_same _ n cause)

theorem fencesStand_recompute (s : State) : FencesStand s (recompute s) := by
  have fresh : FencesStand s (markFresh (relightCords s)) := .of_eq rfl rfl
  have sent (t : State) : FencesStand t (sendAgree t) := .of_eq rfl rfl
  have outside (t : State) (l : List DieId) : FencesStand t (sendAgree (l.foldl (fun t n => fenceDie t n 5) t)) :=
    (fencesStand_foldl (fun t n => fencesStand_fenceDie t n 5) l t).trans (sent _)
  refine (fresh.trans ?_).trans (outside _ _)
  exact .of_eq rfl rfl

/-! ### Commits (R112 to R114) -/

section
variable (s : State) (id : Nat) (c : Commit)

/-- A commit that still waits for its decision, or that a die has yet to hear of or to apply, stays on D0's list. -/
theorem settleCommit_stays (h : c.decision = none ∨ (∃ n ∈ c.staged, n ∉ c.told ∧ n ∉ c.kept) ∨ ∃ n ∈ c.told, n ∉ c.applied) :
    settleCommit s id c = { s with commits := mins s.commits id c } := by
  refine if_pos ?_
  rcases h with h | ⟨n, hs, ht, hk⟩ | ⟨n, ht, ha⟩
  · exact .inl (by rw [h]; rfl)
  · refine .inr (.inl fun e => ?_)
    exact List.filter_eq_nil_iff.mp (List.isEmpty_iff.mp e) n hs (by simp [ht, hk])
  · refine .inr (.inr fun e => ?_)
    exact List.filter_eq_nil_iff.mp (List.isEmpty_iff.mp e) n ht (by simp [ha])

/-- A commit that is not decided to apply changes nothing but D0's list as it settles. -/
theorem settleCommit_kept (h : c.decision ≠ some true) : settleCommit s id c = { s with commits := (settleCommit s id c).commits } := by
  unfold settleCommit; dsimp only
  rw [if_neg h]
  split <;> rfl

end

section
variable (s : State) (d : DieId) (f q n epoch result dies : Nat)

/-- The entry of a refusal (R112). -/
def refusalLogged (t : State) (epoch result dies : Nat) : State :=
  logEntry t 0 { code := 0x0206, kind := 0x0D, detail := detV epoch (result + 256 * dies) }

/-- A refused commit's program, still parked at it, reads the result; else only D0's logbook changes. -/
theorem commitDone_refused {rd : Nat} (hp : (frameOf' s d f).park = .commit rd) (hq : (frameOf' s d f).queue = q)
    (hn : (frameOf' s d f).count = n) (hr : result ≠ 0) (hl : f < (getStk s d).frames.length) :
    let t := commitDone s d f q n epoch result dies
    t = setLog (setStk s d (getStk t d)) 0 (getLog t 0) ∧ frameOf' t d f = wokenFrame (frameOf' s d f) rd (BitVec.ofNat 32 result) := by
  have done : commitDone s d f q n epoch result dies =
      refusalLogged (wakeFrame s d f rd (BitVec.ofNat 32 result)) epoch result dies := by
    unfold commitDone; dsimp only
    rw [if_neg hr, hp]; dsimp only
    rw [if_pos ⟨hq, hn⟩]; rfl
  rw [done]
  refine ⟨?_, frameOf'_wakeFrame_same hl rd _⟩
  rw [refusalLogged, logEntry_eq_setLog, wakeFrame_stk]
  simp

theorem fencesStand_commitDone : FencesStand s (commitDone s d f q n epoch result dies) := by
  have woken (rd : Nat) (v : W32) : FencesStand s (wakeFrame s d f rd v) := by rw [wakeFrame_stk]; exact .of_eq rfl rfl
  have logged (t : State) (h : FencesStand s t) : FencesStand s (if result = 0 then t else refusalLogged t epoch result dies) := by
    split
    · exact h
    · exact h.trans (.of_eq rfl rfl)
  refine logged _ ?_
  split
  · split
    · exact woken _ _
    · exact .refl s
  · exact .refl s

end

theorem fencesStand_settleCommit (s : State) (id : Nat) (c : Commit) : FencesStand s (settleCommit s id c) := by
  have listed (m : Map Commit) : FencesStand s { s with commits := m } := .of_eq rfl rfl
  unfold settleCommit; dsimp only
  split
  · exact listed _
  · split
    · exact (listed _).trans (fencesStand_commitDone _ _ _ _ _ _ _ _)
    · exact listed _

/-- The commit that a program hands over (R112). -/
def arrivedCommit (s : State) (d : DieId) (f : Nat) : Commit :=
  { src := d, frame := f, queue := (frameOf' s d f).queue, count := (frameOf' s d f).count, epoch := leAt (frameOf' s d f).commitDesc 0 8,
    entries := commitEntries (frameOf' s d f).commitDesc, staged := joinedDies s, acked := [], decision := none, told := [], kept := [],
    applied := [] }

/-- The block of a frame taken from it. -/
def commitTaken (s : State) (d : DieId) (f : Nat) : State := setFrame s d f { frameOf' s d f with commitDesc := [] }

section
variable {s : State} {d : DieId} {f : Fin 32} {rd : Nat} (hw : s.board.powerOk = true) (hb : (frameOf' s d f.val).busy = true)
variable (hp : (frameOf' s d f.val).park = .commit rd) (hc : (frameOf' s d f.val).commitDesc ≠ []) (hr : reach s d 0 = true)
variable (hn : cordWaits s d 0 = false)
include hw hb hp hc hr hn

/-- A commit block that reaches D0 is judged there. -/
theorem exec_commitArrival : exec (.commitArrival d f) s = .next (
    let b := (frameOf' s d f.val).commitDesc
    let refuse (r : Nat) : State :=
      commitDone (commitTaken s d f.val) d f.val (frameOf' s d f.val).queue (frameOf' s d f.val).count (leAt b 0 8) r 0
    if closeTo s 0 (leAt b 0 8) 200000 then refuse 1
    else if 4 ≤ commitsPending s then refuse 3
    else if ¬ commitLegal b then refuse 4
    else { commitTaken s d f.val with
      nextId := s.nextId + 1, commits := mins (commitTaken s d f.val).commits s.nextId (arrivedCommit s d f.val) }) := by
  refine event_true s _ ?_
  simp [hw, hb, hp, hr, hn]; exact hc

theorem exec_commitArrival_staged (h1 : closeTo s 0 (leAt (frameOf' s d f.val).commitDesc 0 8) 200000 = false) (h2 : commitsPending s < 4)
    (h3 : commitLegal (frameOf' s d f.val).commitDesc = true) : exec (.commitArrival d f) s =
      .next { commitTaken s d f.val with
        nextId := s.nextId + 1, commits := mins s.commits s.nextId (arrivedCommit s d f.val) } := by
  rw [exec_commitArrival hw hb hp hc hr hn]; dsimp only
  rw [if_neg (by simp [h1]), if_neg (not_le.mpr h2), if_neg (not_not.mpr h3)]; rfl

theorem exec_commitArrival_late (h1 : closeTo s 0 (leAt (frameOf' s d f.val).commitDesc 0 8) 200000 = true) :
    exec (.commitArrival d f) s = .next (commitDone (commitTaken s d f.val) d f.val (frameOf' s d f.val).queue (frameOf' s d f.val).count
      (leAt (frameOf' s d f.val).commitDesc 0 8) 1 0) := by
  rw [exec_commitArrival hw hb hp hc hr hn]
  exact congrArg _ (if_pos h1)

end

section
variable {s : State} {id : Nat} {c : Commit} {d : DieId} (hw : s.board.powerOk = true) (hc : mfind s.commits id = some c)
include hc

theorem exec_commitAcknowledge_late (h : closeTo s 0 c.epoch 50000 = true) : exec (.commitAcknowledge id d) s = .next s := by
  change execCommitAcknowledge id d s = _
  rw [execCommitAcknowledge, hc]
  exact event_false s _ (by simp [h])

include hw

theorem exec_commitAcknowledge (hd : c.decision = none) (hs : d ∈ stagedJoined s c) (ha : d ∉ c.acked) (hr : reach s 0 d = true)
    (hn : cordWaits s 0 d = false) (h : closeTo s 0 c.epoch 50000 = false) : exec (.commitAcknowledge id d) s =
      .next { s with commits := mins s.commits id { c with acked := c.acked ++ [d] } } := by
  change execCommitAcknowledge id d s = _
  rw [execCommitAcknowledge, hc]
  exact event_true s _ (by simp [hw, hd, hs, ha, hr, hn, h])

/-- The commit as D0 decides it. -/
def decidedCommit (s : State) (c : Commit) (yes : Bool) : Commit :=
  { c with decision := some yes, staged := stagedJoined s c, told := if yes then [0] else [], kept := if yes then [] else [0] }

theorem exec_commitDecide_apply (hd : c.decision = none) (hn : closeTo s 0 c.epoch 50001 = true) (hs : closeTo s 0 c.epoch 20000 = false)
    (ha : ∀ n ∈ stagedJoined s c, n ∈ c.acked) :
    exec (.commitDecide id) s = .next (settleCommit s id (decidedCommit s c true)) := by
  have late : (stagedJoined s c).filter (fun n => !c.acked.contains n) = [] := List.filter_eq_nil_iff.mpr (by simpa using ha)
  change execCommitDecide id s = _
  rw [execCommitDecide, hc]; dsimp only
  rw [late, hs]
  exact event_true s _ (by simp [hw, hd, hn])

theorem exec_commitDecide_keep (hd : c.decision = none) (hn : closeTo s 0 c.epoch 50001 = true)
    (ha : ∃ n ∈ stagedJoined s c, n ∉ c.acked) : ∃ dies, exec (.commitDecide id) s =
      .next (commitDone (settleCommit s id (decidedCommit s c false)) c.src c.frame c.queue c.count c.epoch 2 dies) := by
  obtain ⟨n, hs, hk⟩ := ha
  have late : ((stagedJoined s c).filter (fun n => !c.acked.contains n)).isEmpty = false :=
    List.isEmpty_eq_false_iff_exists_mem.mpr ⟨n, List.mem_filter.mpr ⟨hs, by simpa using hk⟩⟩
  refine ⟨(((stagedJoined s c).filter (fun n => !c.acked.contains n)).map (fun n => 2 ^ n.val)).sum, ?_⟩
  change execCommitDecide id s = _
  rw [execCommitDecide, hc]; dsimp only
  rw [late]
  exact event_true s _ (by simp [hw, hd, hn])

theorem exec_commitDecisionReceive (hd : c.decision = some true) (hs : d ∈ c.staged) (ht : d ∉ c.told) (hk : d ∉ c.kept)
    (hr : reach s 0 d = true) (hn : cordWaits s 0 d = false) (h : closeTo s d c.epoch 20000 = false) :
    exec (.commitDecisionReceive id d) s = .next (settleCommit s id { c with told := c.told ++ [d] }) := by
  change execCommitDecisionReceive id d s = _
  rw [execCommitDecisionReceive, hc]; dsimp only
  rw [if_pos hd]
  exact event_true s _ (by simp [hw, hd, hs, ht, hk, hr, hn, h])

theorem exec_commitDeadline (hz : d ≠ 0) (hs : d ∈ c.staged) (ht : d ∉ c.told) (hk : d ∉ c.kept) (h : closeTo s d c.epoch 20001 = true) :
    exec (.commitDeadline id d) s =
      .next (recompute (fenceDie (settleCommit s id { c with staged := c.staged.filter (fun n => n ≠ d) }) d 2)) := by
  change execCommitDeadline id d s = _
  rw [execCommitDeadline, hc]
  exact event_true s _ (by simp [hw, hz, hs, ht, hk, h])

end

/-! ### The start of an epoch (R113, R387) -/

section
variable (s : State) (d : DieId)

theorem advanceEnvelope_frame : advanceEnvelope s = { s with lampPkg := (advanceEnvelope s).lampPkg, lamps := (advanceEnvelope s).lamps } := by
  unfold advanceEnvelope; dsimp only
  split <;> rfl

/-- Die `d` in its next epoch, before its commits: its grid has moved, and on D0 the envelope that is due is in force. -/
def epochBegins : State := if d = 0 then advanceEnvelope (advanceGrid s d) else advanceGrid s d

/-- A die other than D0 changes its own clock alone. -/
theorem epochBegins_follower (h : d ≠ 0) : epochBegins s d =
    setTime s d { getTime s d with epoch := (getTime s d).epoch + 1, epochStart := nextStart s d, shift := 0 } := by
  rw [epochBegins, if_neg h]
  unfold advanceGrid; dsimp only
  rw [if_neg h, if_neg h]

/-- The clocks, D0's period and envelope and the lit target are all that an epoch changes as it begins. -/
theorem epochBegins_frame : epochBegins s d = { s with
    times := (epochBegins s d).times, pps := (epochBegins s d).pps, lampPkg := (epochBegins s d).lampPkg, lamps := (epochBegins s d).lamps } := by
  have grid : advanceGrid s d = { s with times := (advanceGrid s d).times, pps := (advanceGrid s d).pps } := by
    unfold advanceGrid; dsimp only
    split <;> rfl
  unfold epochBegins
  split
  · rw [advanceEnvelope_frame, grid]
  · rw [grid]

theorem getTime_epochBegins : ∃ p, getTime (epochBegins s d) d =
    { getTime s d with epoch := (getTime s d).epoch + 1, epochStart := nextStart s d, shift := 0, period := p } := by
  have grid : ∃ p, getTime (advanceGrid s d) d =
      { getTime s d with epoch := (getTime s d).epoch + 1, epochStart := nextStart s d, shift := 0, period := p } := ⟨_, getTime_setTime _ d _⟩
  unfold epochBegins
  split
  · rw [advanceEnvelope_frame]; exact grid
  · exact grid

end

section
variable {s : State} {d : DieId}

theorem exec_epochStart_early (h : dtime s d < nextStart s d) : exec (.epochStart d) s = .next s :=
  event_false s _ (by simp [not_le.mpr h])

variable (hw : s.board.powerOk = true) (hr : (getTime s d).running = true) (ht : nextStart s d ≤ dtime s d)
include hw hr ht

/-- An epoch that starts on a die with no channel on the epoch line: its commits apply, and the easel may have its latch point. -/
theorem exec_epochStart {s3 : State} (h3 : ((epochBegins s d).commits.map (fun e => e.1)).foldl (applyCommit d) (epochBegins s d) = s3)
    (hp : (pacedBy s3 d 0x30).isSome = false) : exec (.epochStart d) s = .next (easEpoch s3 d) := by
  refine (event_true s _ (by simp [hw, hr, ht])).trans ?_
  have begun : (if d = 0 then advanceEnvelope (advanceGrid s d) else advanceGrid s d) = epochBegins s d := rfl
  rw [begun, h3, if_neg (by simp [hp])]

end

section
variable {s : State} {d : DieId}

theorem easEpoch_eas (s : State) (d : DieId) : easEpoch s d = setEas s d (getEas (easEpoch s d) d) := by
  unfold easEpoch; dsimp only
  split <;> simp [setEas, getEas]

theorem getEas_easEpoch (s : State) (d : DieId) : getEas (easEpoch s d) d =
    if easOn (getEas s d) && (getEas s d).linkUp then getEas s d else { getEas s d with latchDue := true } := by
  unfold easEpoch; dsimp only
  split <;> simp

end

/-- CTL_VERSION takes each of the two versions (Table 2.8). -/
theorem applySlot_version {s : State} {d : DieId} {v : W64} (hw : s.board.powerOk = true) (h1 : 1 ≤ fld v 7 0) (h2 : fld v 7 0 ≤ 2)
    (hv : v ≠ BitVec.allOnes 64) (hs : slotServed s d 0 = true) :
    applySlot s d 0 0 v = setHregs s d { getHregs s d with version := keepBits v 0xFF } := by
  rw [applySlot_served 0 hv ⟨hw, hs⟩]
  exact if_pos ⟨h1, h2⟩

theorem mirrorReg_version (s : State) (d : DieId) : mirrorReg s d 0 0 = some (getHregs s d).version := rfl

/-- A die other than D0 that holds the decision to apply a commit with one entry for it, while another die has yet to apply it. -/
theorem applyCommit_entry {s : State} {d : DieId} {id : Nat} {c : Commit} {mask blk off : Nat} {v : W64} (hc : mfind s.commits id = some c)
    (hz : d ≠ 0) (ht : d ∈ c.told) (ha : d ∉ c.applied) (he : epochBegun s d c.epoch = true) (hentry : c.entries = [(mask, blk, off, v)])
    (hm : mask.testBit d.val = true) (hrest : ∃ n ∈ c.told, n ≠ d ∧ n ∉ c.applied) : applyCommit d s id =
      { applySlot s d blk off v with
        commits := mins (applySlot s d blk off v).commits id { c with applied := c.applied ++ [d] } } := by
  obtain ⟨n, hn, hnd, hna⟩ := hrest
  unfold applyCommit
  rw [hc]; dsimp only
  rw [if_pos ⟨by simpa using ht, by simpa using ha, he⟩, if_neg hz, hentry, List.foldl_cons, List.foldl_nil]
  have entry : applyEntry d s (mask, blk, off, v) = applySlot s d blk off v := by
    unfold applyEntry; dsimp only
    rw [if_neg (not_not.mpr (.inr hm)), if_neg fun e => hz e.1]
  rw [entry]
  exact settleCommit_stays _ id _ (.inr (.inr ⟨n, hn, by simp [hna, hnd]⟩))

end Sys2Proof.Machine

namespace Sys2Proof

open Machine

/-- Settles O21: D0's list of commits settles by what its dies have heard and applied; an epoch's start is a clock, the commits due and the
easel's latch point. -/
theorem commitsAndEpochs : Obligations.CommitsAndEpochs := by
  unfold Obligations.CommitsAndEpochs
  refine ⟨⟨?_, fun s id c d hw hc =>
    ⟨fun hd hs ha hr hn h => ?_, fun h => exec_commitAcknowledge_late hc h, fun hd h1 h2 hz ha => ?_,
      fun rd hd h1 ha hp hq hn hl hrd hk => ?_, fun hd hs ht hk ha hr hn h => ?_, fun hz hs ht hk h _ => ?_⟩⟩,
    fun s d hw hr ht => ⟨fun hc hp => ?_, fun id c mask v hc hz hd ha he hentry hm h1 h2 hv hs hp _ hrest => ?_, exec_epochStart_early⟩⟩
  · intro s d f rd x hw hb hp hc hr hn
    refine ⟨fun h1 h2 h3 => ⟨_, exec_commitArrival_staged hw hb hp hc hr hn h1 h2 h3, arrivedCommit s d f.val, mfind_mins_same _ _ _,
      rfl, rfl, rfl, rfl, rfl, rfl, fun n => ?_, ?_⟩, fun h1 hx hk hl => ?_⟩
    · simp [arrivedCommit, joinedDies, mem_allDies]
    · simp [commitTaken, setFrame, setStk, getStk]
    have listed : f.val < (getStk s d).frames.length := by rw [hl]; exact f.isLt
    have frame : frameOf' (commitTaken s d f.val) d f.val = { x with commitDesc := [] } := frameOf'_setFrame_same _ listed
    obtain ⟨only, woken⟩ := commitDone_refused (commitTaken s d f.val) d f.val x.queue x.count (leAt x.commitDesc 0 8) 1 0
      (by rw [frame]; exact hp) (by rw [frame]) (by rw [frame]) (by decide) (by rwa [commitTaken, length_setFrame])
    obtain ⟨pc, value, -⟩ := wokenFrame_program (x := { x with commitDesc := [] }) hk rd 1
    rw [frame] at woken
    refine ⟨_, exec_commitArrival_late hw hb hp hc hr hn h1, ?_⟩
    dsimp only
    rw [woken]
    exact ⟨wokenFrame_park _ _ _, pc, fun hrd => (if_neg hrd).trans (value hrd hx),
      only.trans (congrArg (fun y => setLog y 0 _) (setStk_setStk s d _ _))⟩
  · exact ⟨_, exec_commitAcknowledge hw hc hd hs ha hr hn h, mfind_mins_same _ _ _, rfl⟩
  · have stays := settleCommit_stays s id (decidedCommit s c true) (.inr (.inr ⟨0, List.mem_singleton.mpr rfl, hz⟩))
    exact ⟨_, (exec_commitDecide_apply hw hc hd h1 h2 ha).trans (congrArg _ stays), mfind_mins_same _ _ _, rfl⟩
  · obtain ⟨dies, run⟩ := exec_commitDecide_keep hw hc hd h1 ha
    have kept := settleCommit_kept s id (decidedCommit s c false) (by simp [decidedCommit])
    have same : frameOf' (settleCommit s id (decidedCommit s c false)) c.src c.frame = frameOf' s c.src c.frame := by rw [kept]; rfl
    obtain ⟨only, woken⟩ := commitDone_refused (settleCommit s id (decidedCommit s c false)) c.src c.frame c.queue c.count c.epoch 2 dies
      (by rw [same]; exact hp) (by rw [same]; exact hq) (by rw [same]; exact hn) (by decide) (by rw [kept]; exact hl)
    rw [same] at woken
    refine ⟨_, run, ?_, ?_, fun ⟨n, hn, h0⟩ => ⟨decidedCommit s c false, ?_, rfl⟩, fun a => ?_⟩
    · rw [woken, rvGet, if_neg hrd, wokenFrame, if_neg (by simp [hk])]
      exact (congrArg (mget 0 · rd) (if_neg hrd)).trans (mget_mput_listed _ rd (by decide))
    · rw [woken]; exact wokenFrame_park _ _ _
    · have stays := settleCommit_stays s id (decidedCommit s c false)
        (.inr (.inl ⟨n, hn, by simp [decidedCommit], by simpa [decidedCommit] using h0⟩))
      rw [only, stays]
      exact mfind_mins_same _ _ _
    · exact congrArg (mget 0 · a) ((fencesStand_settleCommit _ _ _).trans (fencesStand_commitDone _ _ _ _ _ _ _ _)).mem
  · have stays := settleCommit_stays s id { c with told := c.told ++ [d] } (.inr (.inr ⟨d, by simp, ha⟩))
    exact ⟨_, (exec_commitDecisionReceive hw hc hd hs ht hk hr hn h).trans (congrArg _ stays), mfind_mins_same _ _ _, rfl⟩
  · have after := fencesStand_recompute (fenceDie (settleCommit s id { c with staged := c.staged.filter (fun n => n ≠ d) }) d 2)
    refine ⟨_, exec_commitDeadline hw hc hz hs ht hk h, after.fenced d (isFenced_fenceDie _ d 2), fun a => congrArg (mget 0 · a) ?_⟩
    exact ((fencesStand_settleCommit _ _ _).trans ((fencesStand_fenceDie _ d 2).trans after)).mem
  · have frame := epochBegins_frame s d
    have commits : (epochBegins s d).commits = [] := by rw [frame]; exact hc
    have eas : getEas (epochBegins s d) d = getEas s d := by rw [frame]; rfl
    have latch := (getEas_easEpoch (epochBegins s d) d).trans (by rw [eas])
    obtain ⟨p, time⟩ := getTime_epochBegins s d
    have run := exec_epochStart (s3 := epochBegins s d) hw hr ht (by rw [commits]; rfl) (by rw [frame]; exact hp)
    refine ⟨_, run, ?_⟩
    have clock : getTime (easEpoch (epochBegins s d) d) d = getTime (epochBegins s d) d := by rw [easEpoch_eas]; rfl
    dsimp only
    rw [dtime, clock, time]
    refine ⟨rfl, rfl, rfl, fun hz => ?_, fun off => ?_, fun on => latch.trans (if_pos on), fun a => ?_⟩
    · have same : epochBegins s d = setTime s d (getTime (epochBegins s d) d) := by rw [epochBegins_follower s d hz, getTime_setTime]
      rw [← time, ← same]; exact easEpoch_eas _ d
    · rw [latch, if_neg (by simp [off])]
    · rw [easEpoch_eas, frame]; rfl
  · have begun := epochBegins_follower s d hz
    have found : mfind (epochBegins s d).commits id = some c := by rw [begun]; simp [hc, mfind]
    have applied := applyCommit_entry found hz hd ha (by rw [begun]; simpa [epochBegun] using he) hentry hm hrest
    rw [applySlot_version (by rw [begun]; exact hw) h1 h2 hv (by rw [begun]; exact hs)] at applied
    have run := exec_epochStart hw hr ht (s3 := applyCommit d (epochBegins s d) id) (by rw [begun]; simp [hc])
      (by rw [applied, begun]; exact hp)
    refine ⟨_, run, ?_⟩
    dsimp only
    rw [easEpoch_eas, applied, mirrorReg_version]
    refine ⟨congrArg (fun h : HostRegs => some h.version) (getHregs_setHregs _ d _),
      ⟨{ c with applied := c.applied ++ [d] }, mfind_mins_same _ _ _, by simp⟩, ?_⟩
    rw [begun]; simp [setEas, setHregs, getTime, setTime]

end Sys2Proof
end
section
/-! PROOFS. The placement of blocks (R121, R141, R142, R147). -/

namespace Sys2Proof.Machine

/-! ### What a placement changes: the die's cores and the numbering -/

theorem setCores_getCores (s : State) (d : DieId) : setCores s d (getCores s d) = s := by rw [setCores, getCores, qset_qget]

section
variable {d : DieId} {s t u : State}

/-- A change of die `d`'s cores and of the model's numbering alone. -/
def CoresAndIds (d : DieId) (s t : State) : Prop := t = { setCores s d (getCores t d) with nextId := t.nextId }

theorem CoresAndIds.refl (s : State) : CoresAndIds d s s := by simp [CoresAndIds, setCores, getCores]

theorem CoresAndIds.trans (h1 : CoresAndIds d s t) (h2 : CoresAndIds d t u) : CoresAndIds d s u := by
  unfold CoresAndIds at *
  rw [h2, h1]
  simp [setCores, getCores]

theorem CoresAndIds.stk (h : CoresAndIds d s t) (n : DieId) : getStk t n = getStk s n := by rw [h]; rfl

theorem CoresAndIds.frameOf' (h : CoresAndIds d s t) (n : DieId) (f : Nat) : frameOf' t n f = frameOf' s n f := by
  rw [Machine.frameOf', h.stk, ← Machine.frameOf']

theorem CoresAndIds.engineOf (h : CoresAndIds d s t) (n : DieId) (e : Nat) : engineOf t n e = engineOf s n e := by
  rw [Machine.engineOf, h.stk, ← Machine.engineOf]

theorem CoresAndIds.memByte (h : CoresAndIds d s t) (a : Nat) : memByte t a = memByte s a := by rw [h]; rfl

theorem CoresAndIds.now (h : CoresAndIds d s t) : t.now = s.now := by rw [h]; rfl

/-- A slot's state refreshed is a change of the die's slots. -/
theorem refreshSlot_slots (s : State) (d : DieId) (c : Nat) : ∃ l, refreshSlot s d c = setCores s d { getCores s d with slots := l } := by
  have same : ∃ l, s = setCores s d { getCores s d with slots := l } := ⟨(getCores s d).slots, (setCores_getCores s d).symm⟩
  have written (b : Prop) [Decidable b] (i : Nat) (y : Slot) :
      ∃ l, (if b then s else setSlot s d i y) = setCores s d { getCores s d with slots := l } := by
    split
    · exact same
    · exact ⟨_, rfl⟩
  unfold refreshSlot
  split
  · exact same
  · dsimp only
    split
    · exact written _ _ _
    · exact same

end

/-! ### The active set (R147) -/

/-- Two groups alike but for their place in the active set. -/
def AlikeGroup (g h : Group) : Prop := h = { g with active := h.active, since := h.since, unable := h.unable }

theorem AlikeGroup.refl (g : Group) : AlikeGroup g g := rfl

theorem AlikeGroup.trans {g h k : Group} (h1 : AlikeGroup g h) (h2 : AlikeGroup h k) : AlikeGroup g k := by
  unfold AlikeGroup at *; rw [h2, h1]

theorem alikeGroup_settleActive (now : Nat) (g : Group) : AlikeGroup g (settleActive now g) := by
  unfold settleActive
  split_ifs <;> rfl

/-- A change of the active sets of die `d` alone. -/
structure ActiveMoved (d : DieId) (s t : State) : Prop where
  frame : t = setCores s d { getCores s d with groups := (getCores t d).groups, served := (getCores t d).served }
  groups : ∀ k g, groupOf s d k = some g → ∃ h, groupOf t d k = some h ∧ AlikeGroup g h

namespace ActiveMoved

variable {d : DieId} {s t u : State}

theorem refl (s : State) : ActiveMoved d s s := ⟨(setCores_getCores s d).symm, fun _ g h => ⟨g, h, .refl g⟩⟩

theorem trans (h1 : ActiveMoved d s t) (h2 : ActiveMoved d t u) : ActiveMoved d s u := by
  refine ⟨?_, fun k g hg => ?_⟩
  · rw [h2.frame, h1.frame]; simp [setCores, getCores]
  · obtain ⟨h, hh, alike⟩ := h1.groups k g hg
    obtain ⟨w, hw, alike'⟩ := h2.groups k h hh
    exact ⟨w, hw, alike.trans alike'⟩

theorem foldl {β : Type} {f : State → β → State} (h : ∀ t b, ActiveMoved d t (f t b)) (l : List β) (s : State) :
    ActiveMoved d s (l.foldl f s) := by
  induction l generalizing s with
  | nil => exact .refl s
  | cons b r ih => exact (h s b).trans (ih _)

end ActiveMoved

section
variable (s : State) (d : DieId)

theorem activeMoved_served (m : Map Nat) : ActiveMoved d s (setCores s d { getCores s d with served := m }) :=
  ⟨by simp [setCores, getCores], fun _ g h => ⟨g, by simpa [groupOf] using h, .refl g⟩⟩

/-- A group's place in the active set changed. -/
theorem activeMoved_modGroup (gid : Nat) {f : Group → Group} (hf : ∀ g, AlikeGroup g (f g)) : ActiveMoved d s (modGroup s d gid f) := by
  unfold modGroup
  split
  · rename_i x hx
    refine ⟨by simp [setGroup, setCores, getCores], fun k g hg => ?_⟩
    by_cases hk : k = gid
    · subst hk
      obtain rfl : x = g := Option.some.inj (hx.symm.trans hg)
      exact ⟨f x, by simp [groupOf, setGroup], hf x⟩
    · exact ⟨g, by simpa [groupOf, setGroup, mfind_mins_other _ _ hk] using hg, .refl g⟩
  · exact .refl s

theorem activeMoved_mmap {f : Nat → Group → Group} (hf : ∀ k g, AlikeGroup g (f k g)) :
    ActiveMoved d s (setCores s d { getCores s d with groups := mmap f (getCores s d).groups }) := by
  refine ⟨by simp [setCores, getCores], fun k g hg => ⟨f k g, ?_, hf k g⟩⟩
  rw [groupOf, getCores_setCores, mfind_mmap]
  exact congrArg (Option.map (f k)) hg

theorem activeMoved_fillActive (m q n : Nat) : ActiveMoved d s (fillActive d m q n s) := by
  induction n generalizing s with
  | zero => exact .refl s
  | succ n ih =>
    unfold fillActive; dsimp only
    split
    · exact .refl s
    · split
      · exact .refl s
      · refine ((activeMoved_modGroup s d _ ?_).trans (activeMoved_served _ d _)).trans (ih _)
        exact fun _ => rfl

theorem activeMoved_fillQuarter (m q : Nat) : ActiveMoved d s (fillQuarter d m q s) := by
  refine (activeMoved_mmap s d fun _ g => ?_).trans (activeMoved_fillActive _ d m q 8)
  split
  · exact alikeGroup_settleActive _ g
  · exact .refl g

theorem activeMoved_fillCore (m : Nat) : ActiveMoved d s (fillCore s d m) := .foldl (fun t q => activeMoved_fillQuarter t d m q) _ s

end

/-! ### The choice of a core (R121, R141) -/

/-- The groups of a block go to the quarters in turn. -/
theorem allocGroups_quarters {s : State} {d : DieId} {x : Dispatch} {m st n k : Nat} {acc gs : List (Nat × Nat)}
    (h : allocGroups s d x m st n k acc = some gs) :
    gs.map (fun a => a.1) = acc.map (fun a => a.1) ++ (countUp k n).map (fun i => (i + st) % 4) := by
  induction n generalizing k acc with
  | zero => cases h; simp [countUp]
  | succ n ih =>
    unfold allocGroups at h; dsimp only at h
    split at h
    · exact absurd h (by simp)
    · split at h
      · rw [ih h]; simp [countUp]
      · exact absurd h (by simp)

/-- The offsets that `placeOn` finds are those of the block's groups. -/
theorem placeOn_groups {s : State} {d : DieId} {x : Dispatch} {m off : Nat} {gs : List (Nat × Nat)} (h : placeOn s d x m = some (off, gs)) :
    gs.map (fun a => a.1) = (countUp 0 x.groups).map (fun i => (i + startQuarter s d x.ctx m) % 4) := by
  unfold placeOn at h
  split at h
  · rename_i gs' t alloc _
    split at h
    · cases h; exact allocGroups_quarters alloc
    · exact absurd h (by simp)
  · exact absurd h (by simp)

/-- What a fold that keeps its result or replaces it by one with a property gives, has the property. -/
theorem foldl_option_holds {α β : Type} {P : α → Prop} {f : Option α → β → Option α} (h : ∀ b k, f b k = b ∨ ∃ y, f b k = some y ∧ P y)
    (l : List β) {b : Option α} {y : α} (hb : ∀ y, b = some y → P y) (hy : l.foldl f b = some y) : P y := by
  induction l generalizing b with
  | nil => exact hb y hy
  | cons k r ih =>
    refine ih (fun z hz => ?_) hy
    rcases h b k with e | ⟨w, e, hw⟩
    · exact hb z (e.symm.trans hz)
    · obtain rfl : w = z := Option.some.inj (e.symm.trans hz)
      exact hw

/-- The core chosen is lit, the dispatch allows it, and the block stands there. -/
theorem pickCore_some {s : State} {d : DieId} {x : Dispatch} {m off : Nat} {gs : List (Nat × Nat)} (h : pickCore s d x = some (m, off, gs)) :
    coreLit s d m = true ∧ (x.clusters = 0 ∨ x.clusters.testBit (m / 4) = true) ∧ placeOn s d x m = some (off, gs) := by
  unfold pickCore at h
  extract_lets drains ok at h
  refine foldl_option_holds (P := fun y : Nat × Nat × List (Nat × Nat) =>
    coreLit s d y.1 = true ∧ (x.clusters = 0 ∨ x.clusters.testBit (y.1 / 4) = true) ∧ placeOn s d x y.1 = some y.2) (fun b k => ?_) _
    (fun _ e => by cases e) h
  split
  · rename_i admitted
    obtain ⟨⟨lit, -⟩, allowed⟩ : (coreLit s d k = true ∧ (!drains k) = true) ∧ (x.clusters = 0 ∨ x.clusters.testBit (k / 4) = true) := by
      simpa only [ok, Bool.and_eq_true, Bool.or_eq_true, beq_iff_eq] using admitted
    split
    · rename_i p place
      split
      · split
        · exact .inr ⟨_, rfl, lit, allowed, place⟩
        · exact .inl rfl
      · exact .inr ⟨_, rfl, lit, allowed, place⟩
    · exact .inl rfl
  · exact .inl rfl

/-! ### The block placed (R121, Table 8.5) -/

theorem addGroups_leaves {d : DieId} {x : Dispatch} (hx : x.geo = none) (b m : Nat) (gs : List (Nat × Nat)) (k : Nat) (s : State) :
    (addGroups d x b m gs k s = { setCores s d { getCores s d with groups := (getCores (addGroups d x b m gs k s) d).groups } with
      nextId := s.nextId + gs.length }) ∧
    (∀ n, n < s.nextId → groupOf (addGroups d x b m gs k s) d n = groupOf s d n) ∧
    ∀ i, ∀ a, gs[i]? = some a → groupOf (addGroups d x b m gs k s) d (s.nextId + i) = some (startGroup x b (k + i) a.1 a.2 s.now) := by
  induction gs generalizing k s with
  | nil => exact ⟨(setCores_getCores s d).symm, fun _ _ => rfl, fun i a h => by simp at h⟩
  | cons p r ih =>
    obtain ⟨q, o⟩ := p
    have preset : presetRegs s d x m q o = s := by rw [presetRegs, hx]
    obtain ⟨frame, before, placed⟩ := ih (k + 1) { setGroup s d s.nextId (startGroup x b k q o s.now) with nextId := s.nextId + 1 }
    have step : addGroups d x b m ((q, o) :: r) k s =
        addGroups d x b m r (k + 1) { setGroup s d s.nextId (startGroup x b k q o s.now) with nextId := s.nextId + 1 } := by
      rw [addGroups, preset]
    rw [step]
    refine ⟨?_, fun n hn => ?_, fun i a hi => ?_⟩
    · refine frame.trans ?_
      simp [setGroup, setCores, getCores]; omega
    · rw [before n (Nat.lt_succ_of_lt hn)]
      exact (congrArg (fun c : Cores => mfind c.groups n) (getCores_setCores s d _)).trans (mfind_mins_other _ _ (by omega))
    · cases i with
      | zero =>
        cases hi
        refine (before s.nextId (Nat.lt_succ_self _)).trans ?_
        exact (congrArg (fun c : Cores => mfind c.groups _) (getCores_setCores s d _)).trans (mfind_mins_same _ _ _)
      | succ i =>
        have later := placed i a hi
        rw [show s.nextId + (i + 1) = s.nextId + 1 + i by omega, show k + (i + 1) = k + 1 + i by omega]
        exact later

/-- The next block of a dispatch, at its place in the grid. -/
def nextBlock (x : Dispatch) (i m off : Nat) : Block :=
  { disp := i, x := x.placed % x.gx, y := x.placed / x.gx % x.gy, z := x.placed / x.gx / x.gy, core := m, tileOff := off,
    live := x.groups, arrivals := [], watch := 0 }

/-- A dispatch that has one block more placed, on core `m`. -/
def oncePlaced (x : Dispatch) (m : Nat) : Dispatch :=
  { x with placed := x.placed + 1, started := if m ∈ x.started then x.started else x.started ++ [m] }

/-- The block entered and its dispatch advanced, before its groups stand. -/
def blockEntered (s : State) (d : DieId) (i : Nat) (x : Dispatch) (m off : Nat) : State :=
  { setBlock (setDisp (if m ∈ x.started then s else invalidateCores s d (fun k => k == m)) d i (oncePlaced x m)) d s.nextId
      (nextBlock x i m off) with nextId := s.nextId + 1 }

theorem placeBlock_eq (s : State) (d : DieId) (i : Nat) (x : Dispatch) (m off : Nat) (gs : List (Nat × Nat)) :
    placeBlock s d i x m off gs =
      refreshSlot (fillCore (addGroups d x s.nextId m gs 0 (blockEntered s d i x m off)) d m) d x.ctx := rfl

theorem blockEntered_leaves (s : State) (d : DieId) (i : Nat) (x : Dispatch) (m off : Nat) :
    CoresAndIds d s (blockEntered s d i x m off) ∧ dispOf (blockEntered s d i x m off) d i = some (oncePlaced x m) ∧
      blockOf (blockEntered s d i x m off) d s.nextId = some (nextBlock x i m off) ∧
      (m ∈ x.started → (getCores (blockEntered s d i x m off) d).near = (getCores s d).near) := by
  have near : CoresAndIds d s (if m ∈ x.started then s else invalidateCores s d (fun k => k == m)) := by
    split
    · exact .refl s
    · simp [CoresAndIds, invalidateCores, setCores, getCores]
  refine ⟨near.trans ?_, ?_, ?_, fun hm => ?_⟩
  · simp [CoresAndIds, blockEntered, setBlock, setDisp, setCores, getCores]
  · simp [dispOf, blockEntered, setBlock, setDisp, setCores, getCores]
  · simp [blockOf, blockEntered, setBlock, setDisp, setCores, getCores]
  · simp [blockEntered, hm, setBlock, setDisp, setCores, getCores]

/-- What the placement of a block leaves: the block, its dispatch, its groups at their start but for their places in the active set, and only
the die's cores changed. -/
theorem placeBlock_leaves (s : State) (d : DieId) (i : Nat) {x : Dispatch} (hx : x.geo = none) (m off : Nat) (gs : List (Nat × Nat)) :
    CoresAndIds d s (placeBlock s d i x m off gs) ∧ (placeBlock s d i x m off gs).nextId = s.nextId + 1 + gs.length ∧
      dispOf (placeBlock s d i x m off gs) d i = some (oncePlaced x m) ∧
      blockOf (placeBlock s d i x m off gs) d s.nextId = some (nextBlock x i m off) ∧
      (m ∈ x.started → (getCores (placeBlock s d i x m off gs) d).near = (getCores s d).near) ∧
      ∀ k, ∀ a, gs[k]? = some a → ∃ g, groupOf (placeBlock s d i x m off gs) d (s.nextId + 1 + k) = some g ∧
        AlikeGroup (startGroup x s.nextId k a.1 a.2 s.now) g := by
  obtain ⟨entered, disp, block, near⟩ := blockEntered_leaves s d i x m off
  rw [placeBlock_eq]
  have next : (blockEntered s d i x m off).nextId = s.nextId + 1 := rfl
  have now := entered.now
  generalize blockEntered s d i x m off = u at *
  obtain ⟨added, -, groups⟩ := addGroups_leaves (d := d) hx s.nextId m gs 0 u
  generalize addGroups d x s.nextId m gs 0 u = v at *
  obtain ⟨moved, alike⟩ := activeMoved_fillCore v d m
  generalize fillCore v d m = w at *
  obtain ⟨l, slots⟩ := refreshSlot_slots w d x.ctx
  have cores : getCores (refreshSlot w d x.ctx) d =
      { getCores u d with groups := (getCores w d).groups, served := (getCores w d).served, slots := l } := by
    rw [slots, getCores_setCores, moved, added]; simp [setCores, getCores]
  refine ⟨entered.trans ?_, ?_, ?_, ?_, fun hm => ?_, fun k a hk => ?_⟩
  · rw [slots, moved, added]; simp [CoresAndIds, setCores, getCores]
  · rw [slots, moved, added, ← next]; rfl
  · rw [dispOf, cores]; exact disp
  · rw [blockOf, cores]; exact block
  · rw [cores]; exact near hm
  · obtain ⟨g, hg, same⟩ := alike _ _ (groups k a hk)
    rw [next] at hg
    rw [Nat.zero_add, now] at same
    exact ⟨g, by rw [groupOf, cores]; exact hg, same⟩

section
variable {s : State} {d : DieId} {cmp : Fin 4} {i j : Nat} {x : Dispatch} (hn : nextDisp s d (1 + cmp.val) = some (i, x))
include hn

/-- Where no core has room, or another block goes first, nothing is placed. -/
theorem exec_blockPlace_absorbed (hg : x.geo = none) (h : pickCore s d x = none ∨ outplaced s d (1 + cmp.val) x = true) :
    exec (.blockPlace d cmp) s = .next s := by
  have spot : spotFor s d x = pickCore s d x := by rw [spotFor, hg]; rfl
  refine congrArg Host.Outcome.next ?_
  rw [placeNext, hn]; dsimp only
  rw [spot]
  rcases h with h | h
  · rw [h]; exact ite_self s
  · exact if_pos (.inr (.inr h))

theorem exec_blockPlace (hs : slotHolding s d x.ctx = some j)
    (ha : (slotOf s d j).state = .active ∨ (slotOf s d j).state = .blocked ∨ (slotOf s d j).state = .idle) (hr : dieRuns s d = true)
    (hg : x.geo = none) {m off : Nat} {gs : List (Nat × Nat)} (hp : pickCore s d x = some (m, off, gs))
    (ho : outplaced s d (1 + cmp.val) x = false) : exec (.blockPlace d cmp) s = .next (placeBlock s d i x m off gs) := by
  have spot : spotFor s d x = some (m, off, gs) := by rw [spotFor, hg]; exact hp
  have opened : slotOpen s d x.ctx = true := by
    rw [slotOpen, hs]
    rcases ha with h | h | h <;> simp [h]
  refine congrArg Host.Outcome.next ?_
  rw [placeNext, hn]; dsimp only
  rw [if_neg (by simp [opened, hr, ho]), spot]

end

end Sys2Proof.Machine
end
section
/-! PROOFS. O22. -/

namespace Sys2Proof.Machine

/-! ### Submissions that an engine takes (R99, R100, R102) -/

/-- An engine behind whose queue no frame waits lets none in. -/
theorem settleSubs_none {s : State} {d : DieId} {e : Nat} (h : (engineOf s d e).full = []) : settleSubs s d e = s := by
  unfold settleSubs refillSubs; dsimp only
  rw [h]

section
variable {s : State} {d : DieId} {e : Fin 13} {x : Submission} {rest : List Submission}
variable (hr : dieRuns s d = true) (hs : (engineOf s d e.val).subs = x :: rest) (hf : (engineOf s d e.val).fenced = false)
variable (h1 : 1 ≤ e.val)
include hr hs hf h1

theorem exec_submissionAccept_faulted (h : (ctxOf s d (subCtx s d x)).state = .faulted) :
    exec (.submissionAccept d e) s = .next (settleSubs (rejectFaulted s d e.val x) d e.val) := by
  change execSubmissionAccept d e s = _
  rw [execSubmissionAccept, headSub, hs]
  refine (event_true s _ (by simp [hr, hf])).trans ?_
  rw [if_neg (by omega), if_pos (by simp [ctxFaulted, h])]

theorem exec_submissionAccept_dispatch (h4 : e.val ≤ 4) (h : (ctxOf s d (subCtx s d x)).state ≠ .faulted) :
    exec (.submissionAccept d e) s = .next (settleSubs (acceptDispatch s d e.val x) d e.val) := by
  change execSubmissionAccept d e s = _
  rw [execSubmissionAccept, headSub, hs]
  refine (event_true s _ (by simp [hr, hf])).trans ?_
  rw [if_neg (by omega), if_neg (by simp [ctxFaulted, h]), if_pos (by omega)]

end

section
variable {s : State} {d : DieId} {e : Nat} (he : e < (getStk s d).engines.length)
include he

theorem engineOf_popSub : engineOf (popSub s d e) d e = { engineOf s d e with subs := (engineOf s d e).subs.tail } :=
  engineOf_setEngine_same _ he

/-- What a program's end, after a submission has left its engine's queue, leaves of the engine, the frame and the cores. -/
theorem endProgram_popSub {u : State} (hu : getStk u d = getStk (popSub s d e) d) (hc : getCores u d = getCores s d) {f : Nat}
    (hf : f < (getStk s d).frames.length) (st : Nat) :
    engineOf (endProgram u d f (some st)) d e = { engineOf s d e with subs := (engineOf s d e).subs.tail } ∧
      (frameOf' (endProgram u d f (some st)) d f).park = .ended ∧ getCores (endProgram u d f (some st)) d = getCores s d := by
  refine ⟨?_, ?_, ?_⟩
  · rw [← engineOf_popSub he, engineOf, engines_endProgram, hu]; rfl
  · rw [frameOf'_endProgram_same (by rw [hu, popSub, frames_setEngine]; exact hf)]
  · rw [← hc, endProgram_eq, (frameOnly_parkFrame (d := d) (f := f) .ended).1, programOver_frame]; rfl

theorem rejectFaulted_leaves {x : Submission} (hx : x.frame < (getStk s d).frames.length) :
    engineOf (rejectFaulted s d e x) d e = { engineOf s d e with subs := (engineOf s d e).subs.tail } ∧
      (frameOf' (rejectFaulted s d e x) d x.frame).park = .ended ∧ getCores (rejectFaulted s d e x) d = getCores s d :=
  endProgram_popSub he rfl rfl hx 4

theorem rejectMalformed_leaves {x : Submission} (hx : x.frame < (getStk s d).frames.length) (code value : Nat) :
    engineOf (rejectMalformed s d e x code value) d e = { engineOf s d e with subs := (engineOf s d e).subs.tail } ∧
      (frameOf' (rejectMalformed s d e x code value) d x.frame).park = .ended ∧
      getCores (rejectMalformed s d e x code value) d = getCores s d := by
  have entry : ∃ i, rejectMalformed s d e x code value = endProgram (logEntry (popSub s d e) d i) d x.frame (some 3) := ⟨_, rfl⟩
  obtain ⟨i, malformed⟩ := entry
  rw [malformed]
  exact endProgram_popSub (u := logEntry (popSub s d e) d i) he rfl rfl hx 3

end

/-! ### A submission accepted (R100) -/

theorem engines_wakeFrame (s : State) (d : DieId) (f rd : Nat) (v : W32) :
    (getStk (wakeFrame s d f rd v) d).engines = (getStk s d).engines := by
  have framed (u : State) (y : Frame) : (getStk (setFrame u d f y) d).engines = (getStk u d).engines := by rw [setFrame, getStk_setStk]
  have ready (u : State) : (getStk (readyFrame u d f) d).engines = (getStk u d).engines := by
    unfold readyFrame; dsimp only
    split
    · exact framed u _
    · rw [setStoker, getStk_setStk]; exact framed u _
  unfold wakeFrame; dsimp only
  rw [ready]
  split
  · rfl
  · exact framed s _

/-- The submission gone from its engine's queue and counted, its objects pinned and its operation noted in the record. -/
def subCounted (s : State) (d : DieId) (e : Nat) (x : Submission) (pins : List Nat) : State :=
  updRun (addPins (setEngine (popSub s d e) d e { engineOf (popSub s d e) d e with count := nextCount s d e }) d pins) d x.queue x.count
    (fun r => { r with opsOut := r.opsOut + 1 })

section
variable {s : State} {d : DieId} {e : Nat} (x : Submission) (pins : List Nat)

theorem subCounted_stk : getStk (subCounted s d e x pins) d =
    getStk (setEngine (popSub s d e) d e { engineOf (popSub s d e) d e with count := nextCount s d e }) d := rfl

theorem frameOf'_subCounted (f : Nat) : frameOf' (subCounted s d e x pins) d f = frameOf' s d f := by
  rw [frameOf', subCounted_stk, ← frameOf', frameOf'_setEngine, popSub, frameOf'_setEngine]

theorem frames_subCounted : (getStk (subCounted s d e x pins) d).frames = (getStk s d).frames := by
  rw [subCounted_stk, frames_setEngine, popSub, frames_setEngine]

theorem memByte_subCounted (a : Nat) : memByte (subCounted s d e x pins) a = memByte s a := rfl

theorem engineOf_subCounted (he : e < (getStk s d).engines.length) : engineOf (subCounted s d e x pins) d e =
    { engineOf s d e with subs := (engineOf s d e).subs.tail, count := nextCount s d e } := by
  rw [engineOf, subCounted_stk, ← engineOf, engineOf_setEngine_same, engineOf_popSub he]
  rw [popSub, setEngine, getStk_setStk]
  exact (length_lset _ _ _).symm ▸ he

theorem acceptSub_eq {rd : Nat} (hp : (frameOf' s d x.frame).park = .submitted e rd) : acceptSub s d e x pins =
    wakeFrame (subCounted s d e x pins) d x.frame rd (BitVec.ofNat 32 (nextCount s d e)) := by
  have park : (frameOf' (subCounted s d e x pins) d x.frame).park = .submitted e rd := by rw [frameOf'_subCounted]; exact hp
  change wakeFrame (subCounted s d e x pins) d x.frame (match (frameOf' (subCounted s d e x pins) d x.frame).park with
    | .submitted _ r => r | _ => 0) _ = _
  rw [park]; rfl

/-- What an acceptance leaves: the count, the queue without its head, and the frame with the count in rd. -/
theorem acceptSub_leaves (he : e < (getStk s d).engines.length) (hx : x.frame < (getStk s d).frames.length) {rd : Nat}
    (hp : (frameOf' s d x.frame).park = .submitted e rd) :
    engineOf (acceptSub s d e x pins) d e = { engineOf s d e with subs := (engineOf s d e).subs.tail, count := nextCount s d e } ∧
      frameOf' (acceptSub s d e x pins) d x.frame = wokenFrame (frameOf' s d x.frame) rd (BitVec.ofNat 32 (nextCount s d e)) ∧
      (∀ g, g ≠ x.frame → frameOf' (acceptSub s d e x pins) d g = frameOf' s d g) ∧
      ∀ a, memByte (acceptSub s d e x pins) a = memByte s a := by
  rw [acceptSub_eq x pins hp]
  refine ⟨?_, ?_, fun g hg => ?_, fun a => ?_⟩
  · rw [← engineOf_subCounted x pins he, engineOf, engines_wakeFrame]; rfl
  · rw [frameOf'_wakeFrame_same (by rw [frames_subCounted]; exact hx), frameOf'_subCounted]
  · rw [frameOf'_wakeFrame_other _ _ hg, frameOf'_subCounted]
  · rw [(frameOnly_wakeFrame rd _).memByte, memByte_subCounted]

end

/-! ### A dispatch accepted (R120, R140, R209, R210) -/

theorem fenceSide_looked (s : State) (d : DieId) (c : Nat) (b : List Byte) : Looked s (fenceSide s d c b).2 := by
  have asked := translate_looked_ask s d c (leAt b 0 8) { write := true, fence := true }
  unfold fenceSide; dsimp only
  split
  · exact .refl s
  · generalize translate s d c (leAt b 0 8) { write := true, fence := true } = r at asked
    obtain ⟨_ | ⟨pa, o⟩, s1⟩ := r
    · exact asked
    · dsimp only
      split <;> exact asked

/-- The field rules of Table 8.1 that a dispatch's descriptor breaks. -/
def dispatchMalformed (b : List Byte) : Prop :=
  2 ^ 48 ≤ leAt b 0x10 8 ∨ leAt b 0x10 8 % 64 ≠ 0 ∨ 2 ^ 48 ≤ leAt b 0x18 8 ∨ leAt b 0x18 8 % 8 ≠ 0 ∨ leAt b 0x20 4 = 0 ∨ leAt b 0x24 2 = 0 ∨
    leAt b 0x26 2 = 0 ∨ ¬ zeroAt b 0x29 23

theorem acceptDispatch_malformed {s : State} {d : DieId} {e : Nat} {x : Submission} (h : dispatchMalformed x.desc) :
    acceptDispatch s d e x = rejectMalformed s d e x 0x0301 0 := if_pos h

/-- The dispatch that an accepted descriptor, kernel header, argument words and fence make. -/
def acceptedDispatch (s : State) (d : DieId) (e c : Nat) (x : Submission) (k : Kernel) (hasF : Bool) (fpa : Nat) (ws : List Byte)
    (pins : List Nat) : Dispatch :=
  { engine := e, ctx := c, tenant := subTenant s d x, queue := x.queue, count := x.count, sub := nextCount s d e, fencePa := fpa,
    fence := hasF, value := le64 (x.desc.drop 8), width := k.width, vregs := k.vregs, groups := k.groups, orphanLog2 := k.orphan,
    tileKib := k.tileKib, entry := k.entry, kernel := leAt x.desc 0x10 8, args := BitVec.ofNat 64 (leAt x.desc 0x18 8),
    words := (chunksOf 8 56 ws).map le64, gx := leAt x.desc 0x20 4, gy := leAt x.desc 0x24 2, gz := leAt x.desc 0x26 2,
    clusters := leAt x.desc 0x28 1, placed := 0, ended := 0, started := [], dead := false, pins := pins, geo := none }

/-- A dispatch entered on a die, and its context's slot refreshed. -/
def dispatchEntered (s : State) (d : DieId) (c : Nat) (y : Dispatch) : State :=
  refreshSlot { setDisp s d s.nextId y with nextId := s.nextId + 1 } d c

theorem dispatchEntered_leaves (s : State) (d : DieId) (c : Nat) (y : Dispatch) :
    CoresAndIds d s (dispatchEntered s d c y) ∧ dispOf (dispatchEntered s d c y) d s.nextId = some y := by
  obtain ⟨l, slots⟩ := refreshSlot_slots { setDisp s d s.nextId y with nextId := s.nextId + 1 } d c
  rw [dispatchEntered, slots]
  exact ⟨by simp [CoresAndIds, setDisp, setCores, getCores], by simp [dispOf, setDisp, setCores, getCores]⟩

theorem acceptDispatch_accepted {s s1 s2 s3 : State} {d : DieId} {e : Nat} {x : Submission} {km am : Map Nat} {ko ao fo : List Nat}
    {h ws : List Byte} {k : Kernel} {hasF : Bool} {fpa : Nat} (hok : ¬ dispatchMalformed x.desc)
    (hkernel : translateRange s d (subCtx s d x) (leAt x.desc 0x10 8) 64 {} = (.ok (km, ko), s1))
    (hheader : readPages s1 d km (leAt x.desc 0x10 8) 64 = some h) (hk : kernelOf h (leAt x.desc 0x18 8) = some k)
    (hfits : kernelFits (ctxOf s1 d (subCtx s d x)) k = true)
    (hargs : translateRange s1 d (subCtx s d x) (leAt x.desc 0x18 8) (8 * k.argWords) {} = (.ok (am, ao), s2))
    (hfence : fenceSide s2 d (subCtx s d x) x.desc = (.ok (hasF, fpa, fo), s3))
    (hpins : pinRoom s3 d (joinObjs (joinObjs ko ao) fo) = true)
    (hwords : readPages s3 d am (leAt x.desc 0x18 8) (8 * k.argWords) = some ws) :
    acceptDispatch s d e x = dispatchEntered (acceptSub s3 d e x (joinObjs (joinObjs ko ao) fo)) d (subCtx s d x)
      (acceptedDispatch s3 d e (subCtx s d x) x k hasF fpa ws (joinObjs (joinObjs ko ao) fo)) := by
  have header : (readPages s1 d km (leAt x.desc 0x10 8) 64).bind (fun b => kernelOf b (leAt x.desc 0x18 8)) = some k := by
    rw [hheader]; exact hk
  unfold acceptDispatch
  refine (if_neg hok).trans ?_
  rw [hkernel]; dsimp only
  rw [header]; dsimp only
  rw [if_neg (by simp [hfits]), hargs]; dsimp only
  rw [hfence]; dsimp only
  rw [if_neg (by simp [hpins]), hwords]; rfl

end Sys2Proof.Machine

namespace Sys2Proof

open Machine

/-- Settles O22: a descriptor is rejected with its program's end or entered with its count; a block stands on the core chosen with its groups
at their start. -/
theorem dispatchesAndBlocks : Obligations.DispatchesAndBlocks := by
  unfold Obligations.DispatchesAndBlocks
  refine ⟨?_, fun s d cmp i j x hn hs ha hr hg => ⟨exec_blockPlace_absorbed hn hg, fun m off gs hp ho => ?_⟩⟩
  · intro s d e x rest h1 h4 hr hs hfull hf he hl hx b c kv av
    have engine : e.val < (getStk s d).engines.length := by rw [he]; exact e.isLt
    have frame : x.frame < (getStk s d).frames.length := by rw [hl]; exact hx
    refine ⟨fun faulted => ?_, fun live => ⟨fun bad => ?_, ?_⟩⟩
    · obtain ⟨left, ended, cores⟩ := rejectFaulted_leaves engine frame
      have run := exec_submissionAccept_faulted hr hs hf h1 faulted
      rw [settleSubs_none (by rw [left]; exact hfull)] at run
      exact ⟨_, run, rfl, by rw [left], by rw [left, hs]; rfl, ended, by rw [cores]⟩
    · obtain ⟨left, ended, cores⟩ := rejectMalformed_leaves engine frame 0x0301 0
      have run := exec_submissionAccept_dispatch hr hs hf h1 h4 live
      rw [acceptDispatch_malformed bad, settleSubs_none (by rw [left]; exact hfull)] at run
      exact ⟨_, run, rfl, by rw [left], by rw [left, hs]; rfl, ended, by rw [cores]⟩
    intro km am ko ao fo s1 s2 s3 h ws k hasF fpa rd ok hkernel hheader hk hfits hargs hfence hpins hwords hpark hwalk hregs
    have looked : Looked s s3 := by
      have kernel := translateRange_looked s d c kv 64 false
      have args := translateRange_looked s1 d c av (8 * k.argWords) false
      have fence := fenceSide_looked s2 d c b
      rw [hkernel] at kernel
      rw [hargs] at args
      rw [hfence] at fence
      exact kernel.trans (args.trans fence)
    have same (f : Nat) : frameOf' s3 d f = frameOf' s d f := looked.frameOf' d f
    have count : nextCount s3 d e.val = nextCount s d e.val := by rw [nextCount, nextCount, looked.engineOf]
    obtain ⟨left, woken, others, memory⟩ := acceptSub_leaves (s := s3) (d := d) (e := e.val) x (joinObjs (joinObjs ko ao) fo)
      (by rw [looked.stk]; exact engine) (by rw [looked.stk]; exact frame) (by rw [same]; exact hpark)
    rw [looked.engineOf, count] at left
    rw [same, count] at woken
    obtain ⟨only, entered⟩ := dispatchEntered_leaves (acceptSub s3 d e.val x (joinObjs (joinObjs ko ao) fo)) d c
      (acceptedDispatch s3 d e.val c x k hasF fpa ws (joinObjs (joinObjs ko ao) fo))
    have run := exec_submissionAccept_dispatch hr hs hf h1 h4 live
    rw [acceptDispatch_accepted ok hkernel hheader hk hfits hargs hfence hpins hwords] at run
    rw [settleSubs_none (by rw [only.engineOf, left]; exact hfull)] at run
    obtain ⟨pc, value, -⟩ := wokenFrame_program hwalk rd (BitVec.ofNat 32 (nextCount s d e.val))
    refine ⟨_, run, ?_⟩
    dsimp only
    rw [only.engineOf, only.frameOf', left, woken]
    refine ⟨rfl, by rw [hs]; rfl, wokenFrame_park _ _ _, pc, fun hrd => (if_neg hrd).trans (value hrd hregs),
      fun g hg => (only.frameOf' d g).trans ((others g hg).trans (same g)), fun a => (only.memByte a).trans ((memory a).trans (looked.memByte a)),
      _, _, entered, rfl, rfl, count, rfl, rfl, rfl, rfl, rfl, rfl, rfl, rfl, rfl, rfl, ?_, rfl, rfl, rfl, rfl, rfl⟩
    have small : av < 2 ^ 48 := not_le.mp fun h => ok (.inr (.inr (.inl h)))
    exact (BitVec.toNat_ofNat av 64).trans (Nat.mod_eq_of_lt (by omega))
  · obtain ⟨lit, allowed, place⟩ := pickCore_some hp
    obtain ⟨only, next, disp, block, near, groups⟩ := placeBlock_leaves s d i hg m off gs
    have quarters := placeOn_groups place
    have length : gs.length = x.groups := by simpa [countUp_eq_range'] using congrArg List.length quarters
    refine ⟨_, exec_blockPlace hn hs ha hr hg hp ho, lit, allowed, disp, ⟨_, block, rfl, rfl, rfl, rfl, rfl, rfl, rfl, rfl, rfl⟩,
      fun k hk => ?_, near, by rw [next, length], only⟩
    have listed : k < gs.length := by rw [length]; exact hk
    obtain ⟨g, found, alike⟩ := groups k gs[k] (List.getElem?_eq_getElem listed)
    have quarter : gs[k].1 = (k + startQuarter s d x.ctx m) % 4 := by
      have at_k := congrArg (fun l : List Nat => l[k]?) quarters
      simpa [countUp_eq_range', listed, hk] using at_k
    refine ⟨g, found, ?_⟩
    rw [alike, ← quarter]
    simp [startGroup, hg]

end Sys2Proof
end
section
/-! PROOFS. O23. -/

namespace Sys2Proof.Machine

/-- A save that wrote nothing. -/
def emptySave : Saved := { blocks := [], groups := [], vrf := [], tile := [], cores := [], area := [], base := 0 }

/-- Die 0 at the end of the stop bath of a discard of context 5, of which it lists two saves. -/
def twiceSaved : State :=
  setCores State.reset 0 { coresReset with
    slots := { slotFree with state := .stopping, ctx := 5, discard := true } :: rep 47 slotFree,
    saved := [(5, emptySave), (5, emptySave)] }

/-- The shape and the forms asked of a state do not exclude it: they say nothing of the saves that a die lists. -/
theorem twiceSaved_wellFormed : Shape twiceSaved ∧ Forms twiceSaved := by
  unfold Shape Forms; decide

/-- The discard takes one of the two saves out, and the context still has the other. -/
theorem exec_twiceSaved : ∃ t, exec (.stopBathDone 0 0) twiceSaved = .next t ∧ mfind (getCores t 0).saved 5 = some emptySave :=
  ⟨_, rfl, rfl⟩

end Sys2Proof.Machine

namespace Sys2Proof

open Machine

/-- Refutes O23: a discard takes the first save of its context out of the die's table and no other, so that a context whose save is listed
twice keeps one, where the statement says that none is left. The statement asks nothing of that table; of one that lists each context once
the clause would hold. -/
theorem not_contextsMoveThroughSlots : ¬ Obligations.ContextsMoveThroughSlots := by
  unfold Obligations.ContextsMoveThroughSlots
  intro h
  obtain ⟨-, -, dies⟩ := twiceSaved_wellFormed.1
  obtain ⟨-, -, -, -, slots, -⟩ := dies 0
  obtain ⟨-, -, -, -, -, -, bathDone, -⟩ := (h twiceSaved 0 slots).2 0
  obtain ⟨discarded, -⟩ := bathDone rfl (fun e he => absurd he List.not_mem_nil)
  obtain ⟨t, run, -, -, -, unsaved, -⟩ := discarded rfl
  obtain ⟨u, run', saved⟩ := exec_twiceSaved
  obtain rfl : t = u := Host.Outcome.next.inj (run.symm.trans run')
  exact Option.some_ne_none _ (saved.symm.trans unsaved)

end Sys2Proof
end
section
/-! PROOFS. The slots of a die: a load begun, an eviction begun (R117, R119, R124, R127, R131). -/

namespace Sys2Proof.Machine

/-! ### Lists -/

theorem mem_countUp {a n x : Nat} : x ∈ countUp a n ↔ a ≤ x ∧ x < a + n := by rw [countUp_eq_range', List.mem_range'_1]

section
variable {α β : Type}

theorem lget_mem (x : α) {l : List α} {i : Nat} (h : i < l.length) : lget x l i ∈ l := by
  rw [lget_eq_getD, List.getD_eq_getElem l x h]; exact List.getElem_mem h

theorem exists_lget_of_mem (x : α) {l : List α} {y : α} (h : y ∈ l) : ∃ i, i < l.length ∧ lget x l i = y := by
  obtain ⟨i, hi, rfl⟩ := List.mem_iff_getElem.mp h
  exact ⟨i, hi, by rw [lget_eq_getD, List.getD_eq_getElem l x hi]⟩

theorem insertBy_mem {le : α → α → Bool} {x y : α} {l : List α} (h : y ∈ insertBy le x l) : y = x ∨ y ∈ l := by
  induction l with
  | nil => exact .inl (List.mem_singleton.mp h)
  | cons z r ih =>
    unfold insertBy at h
    split at h
    · exact List.mem_cons.mp h
    · rcases List.mem_cons.mp h with rfl | h
      · exact .inr List.mem_cons_self
      · exact (ih h).imp_right (List.mem_cons_of_mem z)

/-- Sorting lists nothing new. -/
theorem sortBy_mem {le : α → α → Bool} {y : α} {l : List α} (h : y ∈ sortBy le l) : y ∈ l := by
  induction l with
  | nil => exact h
  | cons x r ih =>
    rcases insertBy_mem h with rfl | h
    · exact List.mem_cons_self
    · exact List.mem_cons_of_mem x (ih h)

/-- A fold that keeps its result or takes the item at hand gives an item of its list. -/
theorem foldl_option_mem {f : Option α → α → Option α} (h : ∀ b k, f b k = b ∨ f b k = some k) {l : List α} {b : Option α} {y : α}
    (hy : l.foldl f b = some y) : b = some y ∨ y ∈ l := by
  induction l generalizing b with
  | nil => exact .inl hy
  | cons k r ih =>
    rcases ih hy with kept | later
    · rcases h b k with e | e
      · exact .inl (e.symm.trans kept)
      · obtain rfl : k = y := Option.some.inj (e.symm.trans kept)
        exact .inr List.mem_cons_self
    · exact .inr (List.mem_cons_of_mem k later)

end

/-! ### Slots -/

/-- A change of die `d`'s cores alone. -/
def CoresMoved (d : DieId) (s t : State) : Prop := t = setCores s d (getCores t d)

section
variable {d : DieId} {s t u : State}

theorem CoresMoved.refl (d : DieId) (s : State) : CoresMoved d s s := (setCores_getCores s d).symm

theorem coresMoved_setCores (s : State) (d : DieId) (k : Cores) : CoresMoved d s (setCores s d k) := by simp [CoresMoved]

theorem CoresMoved.trans (h1 : CoresMoved d s t) (h2 : CoresMoved d t u) : CoresMoved d s u := by
  unfold CoresMoved at *
  rw [h2, h1]
  simp [setCores, getCores]

theorem slotOf_setSlot_same {i : Nat} (x : Slot) (h : i < (getCores s d).slots.length) : slotOf (setSlot s d i x) d i = x := by
  rw [slotOf, setSlot, getCores_setCores]; exact lget_lset_same _ x h

theorem slotOf_setSlot_other {i j : Nat} (x : Slot) (h : j ≠ i) : slotOf (setSlot s d i x) d j = slotOf s d j := by
  rw [slotOf, setSlot, getCores_setCores]; exact lget_lset_other x h

theorem length_slots_setSlot (i : Nat) (x : Slot) : (getCores (setSlot s d i x) d).slots.length = (getCores s d).slots.length := by
  simp [setSlot]

theorem slotHolding_some {c i : Nat} (h : slotHolding s d c = some i) : i < 48 ∧ (slotOf s d i).state ≠ .free := by
  have held := List.find?_some h
  simp only [Bool.and_eq_true, Bool.not_eq_true', beq_eq_false_iff_ne] at held
  exact ⟨by simpa using (mem_countUp.mp (List.mem_of_find?_eq_some h)).2, held.1⟩

theorem mayReside_of_holdsSlot {c : Nat} (h : holdsSlot s d c = true) : mayReside s d c = false := by simp [mayReside, h]

/-! ### Evictions begun (R127, R131) -/

/-- A slot whose eviction begins. -/
def evictedSlot (s : State) (d : DieId) (i : Nat) (byAuto : Bool) : Slot :=
  { slotOf s d i with state := .stopping, discard := false, since := s.now, byAuto := byAuto }

theorem beginEvict_stands {i : Nat} (b : Bool) (h : (slotOf s d i).state = .stopping ∨ (slotOf s d i).state = .saving ∨
    (slotOf s d i).state = .free ∨ (slotOf s d i).state = .loading) : beginEvict s d i b = s := if_pos h

theorem beginEvict_stops {i : Nat} (b : Bool)
    (h : (slotOf s d i).state = .active ∨ (slotOf s d i).state = .blocked ∨ (slotOf s d i).state = .idle) :
    beginEvict s d i b = setSlot s d i (evictedSlot s d i b) := by
  refine if_neg ?_
  rcases h with h | h | h <;> simp [h]

/-- An eviction stands or writes its slot. -/
theorem beginEvict_cases (s : State) (d : DieId) (i : Nat) (b : Bool) :
    beginEvict s d i b = s ∨ beginEvict s d i b = setSlot s d i (evictedSlot s d i b) := by
  by_cases h : (slotOf s d i).state = .stopping ∨ (slotOf s d i).state = .saving ∨ (slotOf s d i).state = .free ∨
      (slotOf s d i).state = .loading
  · exact .inl (if_pos h)
  · exact .inr (if_neg h)

theorem coresMoved_beginEvict (i : Nat) (b : Bool) : CoresMoved d s (beginEvict s d i b) := by
  rcases beginEvict_cases s d i b with h | h <;> rw [h]
  · exact .refl d s
  · exact coresMoved_setCores s d _

theorem slotOf_beginEvict_other {i j : Nat} (b : Bool) (h : j ≠ i) : slotOf (beginEvict s d i b) d j = slotOf s d j := by
  rcases beginEvict_cases s d i b with e | e <;> rw [e]
  exact slotOf_setSlot_other _ h

theorem length_slots_beginEvict (i : Nat) (b : Bool) :
    (getCores (beginEvict s d i b) d).slots.length = (getCores s d).slots.length := by
  rcases beginEvict_cases s d i b with e | e <;> rw [e]
  exact length_slots_setSlot i _

/-- A held slot that is neither loading nor saving is STOPPING once its eviction has begun. -/
theorem beginEvict_stopping {i : Nat} (b : Bool) (hi : i < (getCores s d).slots.length) (h1 : (slotOf s d i).state ≠ .free)
    (h2 : (slotOf s d i).state ≠ .loading) (h3 : (slotOf s d i).state ≠ .saving) :
    (slotOf (beginEvict s d i b) d i).state = .stopping := by
  by_cases h : (slotOf s d i).state = .stopping
  · rw [beginEvict_stands b (.inl h)]; exact h
  · rw [beginEvict, if_neg (by simp [h, h1, h2, h3]), slotOf_setSlot_same _ hi]

/-! ### Loads begun (R118, R124) -/

/-- A change of die `d`'s cores with the DEVICE areas that follow it (R119). -/
def ResidencyMoved (d : DieId) (s t : State) : Prop :=
  t = { setCores s d (getCores t d) with mem := t.mem, poison := t.poison, memu := t.memu, watches := t.watches }

theorem CoresMoved.residencyMoved (h : CoresMoved d s t) : ResidencyMoved d s t := by
  unfold CoresMoved ResidencyMoved at *
  rw [h, getCores_setCores]

theorem ResidencyMoved.refl (d : DieId) (s : State) : ResidencyMoved d s s := (CoresMoved.refl d s).residencyMoved

theorem ResidencyMoved.trans (h1 : ResidencyMoved d s t) (h2 : ResidencyMoved d t u) : ResidencyMoved d s u := by
  unfold ResidencyMoved at *
  rw [h2, h1]
  simp [setCores, getCores]

theorem getCores_writeDevice (s : State) (c : Nat) (d : DieId) : getCores (writeDevice s c) d = getCores s d := by
  unfold writeDevice; dsimp only
  split <;> rfl

theorem residencyMoved_writeDevice (c : Nat) : ResidencyMoved d s (writeDevice s c) := by
  unfold writeDevice; dsimp only
  split
  · exact .refl d s
  · simp [ResidencyMoved, memWrite, writeCells, setCores, getCores]

theorem residencyMoved_setResid (c : Nat) (r : RState) : ResidencyMoved d s (setResid s d c r) := by
  unfold setResid
  split
  · exact .refl d s
  · exact (coresMoved_setCores s d _).residencyMoved.trans (residencyMoved_writeDevice c)

theorem slots_setResid (c : Nat) (r : RState) : (getCores (setResid s d c r) d).slots = (getCores s d).slots := by
  unfold setResid
  split
  · rfl
  · rw [getCores_writeDevice, getCores_setCores]

theorem slotOf_setResid (c : Nat) (r : RState) (i : Nat) : slotOf (setResid s d c r) d i = slotOf s d i := by
  rw [slotOf, slots_setResid]; rfl

theorem residOf_setResid (c : Nat) {r : RState} (h : r ≠ .none) : residOf (setResid s d c r) d c = r := by
  unfold setResid
  split
  · assumption
  · rw [residOf, getCores_writeDevice, getCores_setCores]; exact mget_mput_listed _ c h

/-- The slots of `rel` released one after another, and the contexts that held them without residency (R124). -/
def released (s : State) (d : DieId) (rel : List Nat) : State :=
  rel.foldl (fun t i => setResid (setSlot t d i slotFree) d (slotOf t d i).ctx .none) s

theorem residencyMoved_released (rel : List Nat) : ResidencyMoved d s (released s d rel) := by
  induction rel generalizing s with
  | nil => exact .refl d s
  | cons i r ih => exact ((coresMoved_setCores s d _).residencyMoved.trans (residencyMoved_setResid _ .none)).trans ih

theorem length_slots_released (rel : List Nat) : (getCores (released s d rel) d).slots.length = (getCores s d).slots.length := by
  induction rel generalizing s with
  | nil => rfl
  | cons i r ih => exact ih.trans ((congrArg List.length (slots_setResid _ .none)).trans (length_slots_setSlot i slotFree))

theorem slotOf_released {rel : List Nat} (h : ∀ i ∈ rel, i < (getCores s d).slots.length) (j : Nat) :
    slotOf (released s d rel) d j = if j ∈ rel then slotFree else slotOf s d j := by
  induction rel generalizing s with
  | nil => rfl
  | cons i r ih =>
    have step : ∀ k, slotOf (setResid (setSlot s d i slotFree) d (slotOf s d i).ctx .none) d k = if k = i then slotFree else slotOf s d k := by
      intro k
      rw [slotOf_setResid]
      split
      · subst k; exact slotOf_setSlot_same _ (h i List.mem_cons_self)
      · exact slotOf_setSlot_other _ ‹_›
    refine (ih (s := setResid (setSlot s d i slotFree) d (slotOf s d i).ctx .none) fun k hk => ?_).trans ?_
    · rw [slots_setResid, length_slots_setSlot]; exact h k (List.mem_cons_of_mem i hk)
    · rw [step]
      by_cases hr : j ∈ r <;> by_cases hj : j = i <;> simp [hr, hj]

theorem releasesFor_some {c : Nat} {rel : List Nat} (h : releasesFor s d c = some rel) :
    fitsDie s d c (rel.map (fun i => (slotOf s d i).ctx)) = true ∧ ∀ i ∈ rel, i < 48 := by
  unfold releasesFor at h; dsimp only at h
  have room := List.find?_some h
  refine ⟨room, fun i hi => ?_⟩
  obtain ⟨n, -, rfl⟩ := List.mem_map.mp (List.mem_of_find?_eq_some h)
  have idle := sortBy_mem (List.mem_of_mem_take hi)
  simpa using (mem_countUp.mp (List.mem_filter.mp idle).1).2

/-- Once its releases are made, a load that fits finds a FREE slot. -/
theorem exists_free_released {c : Nat} {rel : List Nat} (h : releasesFor s d c = some rel) (hlen : (getCores s d).slots.length = 48) :
    ∃ i, i < 48 ∧ (slotOf (released s d rel) d i).state = .free := by
  obtain ⟨room, below⟩ := releasesFor_some h
  cases rel with
  | cons i r =>
    refine ⟨i, below i List.mem_cons_self, ?_⟩
    rw [slotOf_released fun k hk => lt_of_lt_of_eq (below k hk) hlen.symm, if_pos List.mem_cons_self]; rfl
  | nil =>
    simp only [fitsDie, List.map_nil, List.not_mem_nil, decide_false, Bool.or_false, Bool.and_eq_true, List.any_eq_true, beq_iff_eq] at room
    obtain ⟨-, y, hy, free⟩ := room
    obtain ⟨i, hi, rfl⟩ := exists_lget_of_mem slotFree hy
    exact ⟨i, lt_of_lt_of_eq hi hlen, free⟩

/-- A slot whose load begins at `now` (R118, R133). -/
def loadingSlot (s : State) (d : DieId) (c now : Nat) : Slot :=
  { state := .loading, ctx := c, since := now,
    autoAt := match (getCores s d).auto with | some a => if a = c then some now else none | none => none,
    discard := false, byAuto := false, owed := false }

/-- A load that is lawful takes a FREE slot after its releases, and the context is RESIDENT. -/
theorem beginLoad_eq {c : Nat} {rel : List Nat} (h : releasesFor s d c = some rel) (hlen : (getCores s d).slots.length = 48)
    (hsave : saveLegal s d c = true) : ∃ i, i < 48 ∧ beginLoad s d c rel =
      invalidateCores (setResid (setSlot (released s d rel) d i (loadingSlot (released s d rel) d c s.now)) d c .resident) d (fun _ => true) := by
  obtain ⟨j, hj, free⟩ := exists_free_released h hlen
  obtain ⟨i, found⟩ : ∃ i, (countUp 0 48).find? (fun i => (slotOf (released s d rel) d i).state == .free) = some i :=
    Option.isSome_iff_exists.mp (List.find?_isSome.mpr ⟨j, mem_countUp.mpr ⟨Nat.zero_le j, by omega⟩, by simp [free]⟩)
  refine ⟨i, by simpa using (mem_countUp.mp (List.mem_of_find?_eq_some found)).2, ?_⟩
  rw [beginLoad, if_neg (not_not.mpr hsave)]
  dsimp only
  rw [show List.foldl _ s rel = released s d rel from rfl, found]
  rfl

theorem beginLoad_leaves {c : Nat} {rel : List Nat} (h : releasesFor s d c = some rel) (hlen : (getCores s d).slots.length = 48)
    (hsave : saveLegal s d c = true) : ResidencyMoved d s (beginLoad s d c rel) ∧ residOf (beginLoad s d c rel) d c = .resident ∧
      ∃ i, (slotOf (beginLoad s d c rel) d i).state = .loading ∧ (slotOf (beginLoad s d c rel) d i).ctx = c := by
  obtain ⟨i, hi, begun⟩ := beginLoad_eq h hlen hsave
  have kept (v : State) : residOf (invalidateCores v d (fun _ => true)) d c = residOf v d c ∧
      slotOf (invalidateCores v d (fun _ => true)) d i = slotOf v d i := by simp [invalidateCores, residOf, slotOf]
  have slot : slotOf (beginLoad s d c rel) d i = loadingSlot (released s d rel) d c s.now := by
    rw [begun, (kept _).2, slotOf_setResid]
    exact slotOf_setSlot_same _ (by rw [length_slots_released, hlen]; exact hi)
  refine ⟨?_, ?_, i, by rw [slot]; rfl, by rw [slot]; rfl⟩
  · rw [begun]
    exact (((residencyMoved_released rel).trans (coresMoved_setCores _ d _).residencyMoved).trans (residencyMoved_setResid c .resident)).trans
      (coresMoved_setCores _ d _).residencyMoved
  · rw [begun, (kept _).1, residOf_setResid c (by decide)]

end

end Sys2Proof.Machine
end
section
/-! PROOFS. O24. -/

namespace Sys2Proof.Machine

/-! ### Starvation (R132) -/

section
variable {s : State} {d : DieId} {since : Nat} (h : (getCores s d).starvedSince = some since)
include h

theorem exec_slotStarved_eq : ∃ i, exec (.slotStarved d) s =
    event (starvedCond s d && !(getCores s d).starved && decide (since + 100000 ≤ s.now)) s
      (logEntry (setCores s d { getCores s d with starved := true }) d i) := by
  refine ⟨{ code := 0x0303, kind := 0x0D, detail := detV d.val (topWaiting s d) }, ?_⟩
  change execSlotStarved d s = _
  unfold execSlotStarved; dsimp only
  split
  · rename_i t at_
    obtain rfl : t = since := Option.some.inj (at_.symm.trans h)
    rfl
  · rename_i unset
    cases unset.symm.trans h

theorem exec_slotStarved (hs : starvedCond s d = true) (hn : (getCores s d).starved = false) (ht : since + 100000 ≤ s.now) :
    ∃ i, exec (.slotStarved d) s = .next (logEntry (setCores s d { getCores s d with starved := true }) d i) := by
  obtain ⟨i, run⟩ := exec_slotStarved_eq h
  exact ⟨i, run.trans (event_true _ _ (by simp [hs, hn, ht]))⟩

/-- What is recorded already, or has not lasted 100 us, is not recorded. -/
theorem exec_slotStarved_absorbed (hn : (getCores s d).starved = true ∨ s.now < since + 100000) : exec (.slotStarved d) s = .next s := by
  obtain ⟨i, run⟩ := exec_slotStarved_eq h
  refine run.trans (event_false _ _ ?_)
  rcases hn with hn | hn
  · simp [hn]
  · simp [show ¬ since + 100000 ≤ s.now by omega]

end

/-! ### Auto-evict decisions (R133, R134) -/

theorem Looked.getCores {s u : State} (h : Looked s u) (d : DieId) : getCores u d = getCores s d := by
  unfold Looked at h; rw [h]; rfl

theorem Looked.slotOf {s u : State} (h : Looked s u) (d : DieId) (i : Nat) : slotOf u d i = slotOf s d i := by
  rw [Machine.slotOf, h.getCores, ← Machine.slotOf]

theorem listEntries_looked (d : DieId) (t pa : Nat) (ps : List Nat) (s : State) (acc : List (Nat × Nat)) :
    Looked s (listEntries d t pa ps s acc).2 := by
  induction ps generalizing s acc with
  | nil => exact .refl s
  | cons i r ih =>
    have read := readFor_looked s d (pa + 8 + 8 * i) 8
    unfold listEntries
    split <;> rename_i e <;> rw [e] at read
    · exact read.trans (ih _ _)
    · exact read

theorem runList_looked (s : State) (d : DieId) (t : Nat) : Looked s (runList s d t).2 := by
  have read := readFor_looked s d (tenantOf s d t).runList 8
  unfold runList; dsimp only
  split
  · exact .refl s
  · split <;> rename_i e <;> rw [e] at read
    · exact read
    · exact read.trans (listEntries_looked d t _ _ _ _)

/-- The run lists of tenants read one after another, behind what was read before. -/
def runLists (d : DieId) (ts : List Nat) (acc : List (Nat × Nat) × State) : List (Nat × Nat) × State :=
  ts.foldl (fun acc t => (acc.1 ++ (runList acc.2 d t).1, (runList acc.2 d t).2)) acc

theorem runLists_looked (d : DieId) (ts : List Nat) (acc : List (Nat × Nat) × State) : Looked acc.2 (runLists d ts acc).2 := by
  induction ts generalizing acc with
  | nil => exact .refl _
  | cons t r ih => exact (runList_looked acc.2 d t).trans (ih _)

/-- The choice of a candidate reads run lists and does no more. -/
theorem autoCandidate_looked {s u : State} {d : DieId} {c : Option Nat} (h : autoCandidate s d = (c, u)) : Looked s u := by
  obtain rfl : (runLists d (autoTenants s d) ([], s)).2 = u := congrArg Prod.snd h
  exact runLists_looked d _ ([], s)

theorem autoVictim_some {s : State} {d : DieId} {c i : Nat} (h : autoVictim s d c = some i) : i < 48 ∧ (slotOf s d i).state = .blocked := by
  unfold autoVictim at h; dsimp only at h
  have mem := foldl_option_mem (fun b k => ?step) h
  case step =>
    cases b with
    | none => exact .inr rfl
    | some j =>
      dsimp only
      split
      · exact .inr rfl
      · exact .inl rfl
  rcases mem with seed | mem
  · cases seed
  · obtain ⟨range, qualified⟩ := List.mem_filter.mp mem
    simp only [Bool.and_eq_true, beq_iff_eq] at qualified
    exact ⟨by simpa using (mem_countUp.mp range).2, qualified.1.1.1.1.1⟩

section
variable {s u : State} {d : DieId} {c i : Nat}

/-- The state once victim `i` is evicted for candidate `c`. -/
def autoEvicted (u : State) (d : DieId) (i c : Nat) : State :=
  setCores (beginEvict u d i true) d { getCores (beginEvict u d i true) d with auto := some c }

theorem exec_autoEvictDecision (hs : (getCores s d).starved = true) (hb : ∀ x ∈ (getCores s d).slots, x.byAuto = false)
    (hc : autoCandidate s d = (some c, u)) (hv : autoVictim u d c = some i) :
    exec (.autoEvictDecision d) s = .next (autoEvicted u d i c) := by
  have idle : ¬ (¬ (getCores s d).starved = true ∨ (getCores s d).slots.any (fun x => x.byAuto) = true) := by
    rintro (h | h)
    · exact h hs
    · obtain ⟨x, hx, auto⟩ := List.any_eq_true.mp h
      cases (hb x hx).symm.trans auto
  refine (if_neg idle).trans ?_
  rw [hc]; dsimp only
  rw [hv]; rfl

theorem exec_autoEvictDecision_absorbed (h : (getCores s d).starved = false ∨ ∃ x ∈ (getCores s d).slots, x.byAuto = true) :
    exec (.autoEvictDecision d) s = .next s := by
  refine if_pos ?_
  rcases h with h | ⟨x, hx, hb⟩
  · exact .inl (by simp [h])
  · exact .inr (List.any_eq_true.mpr ⟨x, hx, hb⟩)

theorem slotOf_autoEvicted (j : Nat) : slotOf (autoEvicted u d i c) d j = slotOf (beginEvict u d i true) d j := by
  simp [autoEvicted, slotOf]

theorem autoEvicted_leaves (hi : i < (getCores u d).slots.length) (hv : (slotOf u d i).state = .blocked) :
    CoresMoved d u (autoEvicted u d i c) ∧ slotOf (autoEvicted u d i c) d i = evictedSlot u d i true ∧
      (getCores (autoEvicted u d i c) d).auto = some c ∧ (∀ j, j ≠ i → slotOf (autoEvicted u d i c) d j = slotOf u d j) ∧
      evictedSlot u d i true ∈ (getCores (autoEvicted u d i c) d).slots := by
  have slot : slotOf (autoEvicted u d i c) d i = evictedSlot u d i true := by
    rw [slotOf_autoEvicted, beginEvict_stops true (.inr (.inl hv)), slotOf_setSlot_same _ hi]
  refine ⟨(coresMoved_beginEvict i true).trans (coresMoved_setCores _ d _), slot, ?_, fun j hj => ?_, ?_⟩
  · rw [autoEvicted, getCores_setCores]
  · rw [slotOf_autoEvicted, slotOf_beginEvict_other true hj]
  · rw [← slot]
    refine lget_mem slotFree ?_
    rw [autoEvicted, getCores_setCores]
    exact lt_of_lt_of_eq hi (length_slots_beginEvict i true).symm

end

/-! ### Residency commands (R135, Tables 5.7, 5.8) -/

/-- A residency command on context `n` and die `d` has ended with `status`: SEQ is one higher, and CONTEXT and DIE are those named. -/
def ResReported (s t : State) (d : DieId) (n status : Nat) : Prop :=
  fld (getHregs t 0).ctxResResult 23 16 = status ∧
    fld (getHregs t 0).ctxResResult 15 0 = (fld (getHregs s 0).ctxResResult 15 0 + 1) % 65536 ∧
    fld (getHregs t 0).ctxResResult 39 24 = n ∧ fld (getHregs t 0).ctxResResult 41 40 = d.val

section
variable (s : State) (d : DieId) (n status : Nat)

/-- The report is a value of CTX_RES_RESULT, and nothing else. -/
theorem resDone_eq : ∃ slot st r, resDone s d n status = setHregs s 0 { getHregs s 0 with
    ctxResResult := cmdResult (getHregs s 0).ctxResResult status [(n, 24), (d.val, 40), (slot, 42), (st, 48), (r, 52)] } := ⟨_, _, _, rfl⟩

theorem resDone_frame : resDone s d n status = setHregs s 0 (getHregs (resDone s d n status) 0) := by
  obtain ⟨_, _, _, h⟩ := resDone_eq s d n status
  rw [h, getHregs_setHregs]

theorem getCores_resDone (e : DieId) : getCores (resDone s d n status) e = getCores s e := by
  rw [resDone_frame]; simp

theorem slotOf_resDone (i : Nat) : slotOf (resDone s d n status) d i = slotOf s d i := by rw [slotOf, getCores_resDone]; rfl

variable {s d n status}

theorem resDone_reported {u : State} (hu : u.hregs = s.hregs) (hn : n < 65536) (hs : status < 256) :
    ResReported s (resDone u d n status) d n status := by
  obtain ⟨slot, st, r, h⟩ := resDone_eq u d n status
  have regs : getHregs u 0 = getHregs s 0 := by rw [getHregs, hu]; rfl
  unfold ResReported
  rw [h, getHregs_setHregs, regs]
  refine ⟨fld_cmdResult_status _ hs (by simp), fld_cmdResult_seq _ (by simp), ?_, ?_⟩
  · exact (fld_cmdResult_first _ hs (by decide) (by decide) (by simp)).trans (Nat.mod_eq_of_lt hn)
  · refine (fld_cmdResult_field _ hs (below := [(n, 24)]) rfl (by decide) (by decide) ?_ (by simp)).trans (Nat.mod_eq_of_lt d.isLt)
    simp only [fieldSum, List.map_cons, List.map_nil, List.sum_cons, List.sum_nil]; omega

/-- A report after a change of the die's cores. -/
theorem CoresMoved.resDone_frame {u : State} (h : CoresMoved d s u) : let t := resDone u d n status
    t = setHregs (setCores s d (getCores t d)) 0 (getHregs t 0) := by
  intro t
  have moved : setCores s d (getCores t d) = u := (congrArg (setCores s d) (getCores_resDone u d n status d)).trans h.symm
  rw [moved]
  exact Machine.resDone_frame u d n status

/-- A report after a change of the die's residency. -/
theorem ResidencyMoved.resDone_frame {u : State} (h : ResidencyMoved d s u) : let t := resDone u d n status
    t = { setHregs (setCores s d (getCores t d)) 0 (getHregs t 0) with
          mem := t.mem, poison := t.poison, memu := t.memu, watches := t.watches } := by
  intro t
  have reported : t = setHregs u 0 (getHregs t 0) := Machine.resDone_frame u d n status
  have cores : getCores t d = getCores u d := getCores_resDone u d n status d
  rw [cores]
  clear_value t
  generalize getHregs t 0 = x at reported ⊢
  subst reported
  exact congrArg (setHregs · 0 x) h

end

section
variable {s : State} {d : DieId} {n : Nat}

theorem cmdResLoad_resetting (hf : (ctxOf s 0 n).state ≠ .free) (hr : resettingTenant s (ctxOf s 0 n).tenant = true) :
    cmdResLoad s d n = resDone s d n 5 := if_pos ⟨hf, hr⟩

theorem cmdResEvict_resetting (hf : (ctxOf s 0 n).state ≠ .free) (hr : resettingTenant s (ctxOf s 0 n).tenant = true) :
    cmdResEvict s d n = resDone s d n 5 := if_pos ⟨hf, hr⟩

/-- A context that is FREE or of a tenant that is not being reset passes the first check of LOAD and EVICT. -/
theorem not_resetting (h : (ctxOf s 0 n).state = .free ∨ resettingTenant s (ctxOf s 0 n).tenant = false) :
    ¬ ((ctxOf s 0 n).state ≠ .free ∧ resettingTenant s (ctxOf s 0 n).tenant = true) := by
  rintro ⟨hf, hr⟩
  rcases h with h | h
  · exact hf h
  · rw [h] at hr; cases hr

variable (h : (ctxOf s 0 n).state = .free ∨ resettingTenant s (ctxOf s 0 n).tenant = false)
include h

section
variable {rel : List Nat} (hrel : releasesFor s d n = some rel)
include hrel

theorem cmdResLoad_room (hm : mayReside s d n = true) (hl : savedLit s d n = true) (ha : awake s d = true) : cmdResLoad s d n =
    if (tenantOf s d (ctxOf s 0 n).tenant).maxSlots ≤ tenantSlots s d (rel.map (fun i => (slotOf s d i).ctx)) (ctxOf s 0 n).tenant then
      resDone s d n 2 else resDone (beginLoad s d n rel) d n 0 := by
  rw [cmdResLoad, if_neg (not_resetting h), hrel]
  exact if_neg (by simp [hm, hl, ha])

end

theorem cmdResLoad_holds (hh : holdsSlot s d n = true) : cmdResLoad s d n = resDone s d n 1 := by
  have no := mayReside_of_holdsSlot hh
  rw [cmdResLoad, if_neg (not_resetting h)]
  split
  · exact if_pos (by simp [no])
  · exact if_neg (by simp [no])

theorem cmdResEvict_none (hi : slotHolding s d n = none) : cmdResEvict s d n = resDone s d n 1 := by
  rw [cmdResEvict, if_neg (not_resetting h), hi]

variable {i : Nat} (hi : slotHolding s d n = some i)
include hi

theorem cmdResEvict_loading (hl : (slotOf s d i).state = .loading) :
    cmdResEvict s d n = resDone (setSlot s d i { slotOf s d i with owed := true }) d n 0 := by
  rw [cmdResEvict, if_neg (not_resetting h), hi]
  exact if_pos hl

theorem cmdResEvict_discard (hl : (slotOf s d i).state ≠ .loading) (hd : (slotOf s d i).discard = true) :
    cmdResEvict s d n = resDone s d n 1 := by
  rw [cmdResEvict, if_neg (not_resetting h), hi]
  exact (if_neg hl).trans (if_pos hd)

theorem cmdResEvict_begun (hl : (slotOf s d i).state ≠ .loading) (hd : (slotOf s d i).discard = false) :
    cmdResEvict s d n = resDone (beginEvict s d i false) d n 0 := by
  rw [cmdResEvict, if_neg (not_resetting h), hi]
  exact (if_neg hl).trans (if_neg (by simp [hd]))

end

/-! ### The drain of a cluster (R136) -/

/-- The evictions of the slots in `l`, one after another. -/
def evictAll (d : DieId) (l : List Nat) (s : State) : State := l.foldl (fun t i => beginEvict t d i false) s

section
variable {s : State} {d : DieId}

theorem evictAll_cons (i : Nat) (r : List Nat) : evictAll d (i :: r) s = evictAll d r (beginEvict s d i false) := rfl

theorem coresMoved_evictAll (l : List Nat) : CoresMoved d s (evictAll d l s) := by
  induction l generalizing s with
  | nil => exact .refl d s
  | cons i r ih => exact (coresMoved_beginEvict i false).trans ih

theorem slotOf_evictAll_other {l : List Nat} {j : Nat} (h : j ∉ l) : slotOf (evictAll d l s) d j = slotOf s d j := by
  induction l generalizing s with
  | nil => rfl
  | cons i r ih =>
    rw [evictAll_cons, ih fun later => h (List.mem_cons_of_mem i later)]
    exact slotOf_beginEvict_other false fun here => h (here ▸ List.mem_cons_self)

theorem evictAll_keeps_stopping {l : List Nat} {j : Nat} (h : (slotOf s d j).state = .stopping) :
    (slotOf (evictAll d l s) d j).state = .stopping := by
  induction l generalizing s with
  | nil => exact h
  | cons i r ih =>
    rw [evictAll_cons]
    refine ih ?_
    by_cases hj : j = i
    · rw [← hj, beginEvict_stands false (.inl h)]; exact h
    · rw [slotOf_beginEvict_other false hj]; exact h

/-- Each slot of the list whose context runs is STOPPING. -/
theorem evictAll_stopping {l : List Nat} {j : Nat} (hj : j ∈ l) (hlen : j < (getCores s d).slots.length)
    (h : (slotOf s d j).state = .active ∨ (slotOf s d j).state = .blocked ∨ (slotOf s d j).state = .idle) :
    (slotOf (evictAll d l s) d j).state = .stopping := by
  induction l generalizing s with
  | nil => cases hj
  | cons i r ih =>
    rw [evictAll_cons]
    by_cases here : j = i
    · subst here
      refine evictAll_keeps_stopping ?_
      rw [beginEvict_stops false h, slotOf_setSlot_same _ hlen]; rfl
    · refine ih ((List.mem_cons.mp hj).resolve_left here) ?_ ?_
      · rw [length_slots_beginEvict]; exact hlen
      · rw [slotOf_beginEvict_other false here]; exact h

/-- A slot is held by a context with a block on cluster `c` (R136). -/
def onCluster (s : State) (d : DieId) (c i : Nat) : Prop :=
  (slotOf s d i).state ≠ .free ∧ ∃ b ∈ (getCores s d).blocks, b.2.core / 4 = c ∧
    (blockDisp s d b.2).map (fun y => y.ctx) = some (slotOf s d i).ctx

/-- The slots whose contexts have a block on cluster `c`. -/
def drainedSlots (s : State) (d : DieId) (c : Nat) : List Nat :=
  (countUp 0 48).filter (fun i => !((slotOf s d i).state == .free) &&
    (getCores s d).blocks.any (fun b => b.2.core / 4 == c && (blockDisp s d b.2).map (fun y => y.ctx) == some (slotOf s d i).ctx))

theorem mem_drainedSlots {c i : Nat} : i ∈ drainedSlots s d c ↔ i < 48 ∧ onCluster s d c i := by
  simp only [drainedSlots, onCluster, List.mem_filter, mem_countUp, Bool.and_eq_true, Bool.not_eq_true', beq_eq_false_iff_ne,
    List.any_eq_true, beq_iff_eq, Nat.zero_le, true_and, Nat.zero_add]

/-- Die `d` with the drain of cluster `c` marked as over its time. -/
def drainOverdue (s : State) (d : DieId) (c since : Nat) : State :=
  setLamp s d { getLamp s d with draining := some (c, since, true) }

section
variable {cl : Fin 8} {since : Nat} (h : (getLamp s d).draining = some (cl.val, since, false))
include h

theorem exec_clusterDrainTimeout (ht : since + 1000000 ≤ s.now) : exec (.clusterDrainTimeout d cl) s =
    .next (evictAll d (drainedSlots s d cl.val) (drainOverdue s d cl.val since)) := by
  change execClusterDrainTimeout d cl s = _
  rw [execClusterDrainTimeout]; dsimp only
  rw [h]
  exact if_pos ⟨rfl, ht⟩

theorem exec_clusterDrainTimeout_early (ht : s.now < since + 1000000) : exec (.clusterDrainTimeout d cl) s = .next s := by
  change execClusterDrainTimeout d cl s = _
  rw [execClusterDrainTimeout]; dsimp only
  rw [h]
  exact if_neg (fun both => by omega)

end

/-- What changes the cores alone after the mark leaves the mark, and the rest of the package as it was. -/
theorem drainOverdue_frame {t : State} {c since : Nat} (h : CoresMoved d (drainOverdue s d c since) t) :
    (getLamp t d).draining = some (c, since, true) ∧ t = setLamp (setCores s d (getCores t d)) d (getLamp t d) := by
  have lamp : getLamp t d = { getLamp s d with draining := some (c, since, true) } := by rw [h]; simp [drainOverdue]
  rw [lamp]
  exact ⟨rfl, h⟩

end

end Sys2Proof.Machine

namespace Sys2Proof

open Machine

/-- R132: starvation recorded once, and not before it has lasted 100 us. -/
theorem slotStarved_once {s : State} {d : DieId} {since : Nat} (h : (getCores s d).starvedSince = some since) (hs : starvedCond s d = true)
    (hn : (getCores s d).starved = false) (ht : since + 100000 ≤ s.now) : Answers (.slotStarved d) s fun t =>
      (getCores t d).starved = true ∧ getCores t d = { getCores s d with starved := true } ∧
      t = setLog (setCores s d (getCores t d)) d (getLog t d) ∧ Absorbed (.slotStarved d) t := by
  obtain ⟨i, run⟩ := exec_slotStarved h hs hn ht
  have cores : getCores (logEntry (setCores s d { getCores s d with starved := true }) d i) d = { getCores s d with starved := true } := by
    simp [logEntry]
  refine ⟨_, run, by rw [cores], cores, ?_, exec_slotStarved_absorbed (since := since) (by rw [cores]; exact h) (.inl (by rw [cores]))⟩
  rw [cores]; simp [logEntry]

/-- R133: the victim of a decision is evicted for its candidate. -/
theorem autoEvictDecision_evicts {s u : State} {d : DieId} {c i : Nat} (hlen : (getCores s d).slots.length = 48)
    (hs : (getCores s d).starved = true) (hb : ∀ x ∈ (getCores s d).slots, x.byAuto = false) (hc : autoCandidate s d = (some c, u))
    (hv : autoVictim u d c = some i) : Looked s u ∧ Answers (.autoEvictDecision d) s fun t => t = setCores u d (getCores t d) ∧
      (slotOf s d i).state = .blocked ∧ (slotOf t d i).state = .stopping ∧ (slotOf t d i).byAuto = true ∧ (getCores t d).auto = some c ∧
      (∀ j, j ≠ i → slotOf t d j = slotOf s d j) ∧ Absorbed (.autoEvictDecision d) t := by
  have looked := autoCandidate_looked hc
  obtain ⟨range, blocked⟩ := autoVictim_some hv
  obtain ⟨moved, slot, auto, others, listed⟩ := autoEvicted_leaves (c := c) (by rw [looked.getCores, hlen]; exact range) blocked
  refine ⟨looked, _, exec_autoEvictDecision hs hb hc hv, moved, ?_, by rw [slot]; rfl, by rw [slot]; rfl, auto, fun j hj => ?_,
    exec_autoEvictDecision_absorbed (.inr ⟨_, listed, rfl⟩)⟩
  · rw [← looked.slotOf]; exact blocked
  · rw [others j hj, looked.slotOf]

/-- Settles O24: each event and command by its own equation, then what its slots, its result and its frame are. -/
theorem starvationAndResidencyCommands : Obligations.StarvationAndResidencyCommands := by
  unfold Obligations.StarvationAndResidencyCommands
  intro s d hlen
  refine ⟨fun since h hs hn => ⟨slotStarved_once h hs hn, fun ht => exec_slotStarved_absorbed h (.inr ht)⟩,
    fun c i u hs hb hc hv => autoEvictDecision_evicts hlen hs hb hc hv, fun hs => exec_autoEvictDecision_absorbed (.inl hs), ?_, ?_⟩
  · intro c n done served
    have hn : n < 65536 := c.isLt
    have load := d0Command_zero (fun t => cmdResLoad t d n) served
    have evict := d0Command_zero (fun t => cmdResEvict t d n) served
    have reported (status : Nat) (hs : status < 256) (u : State) (hu : u.hregs = s.hregs) : done (resDone u d n status) status :=
      resDone_reported hu hn hs
    have refused (status : Nat) (hs : status < 256) : done (resDone s d n status) status ∧
        resDone s d n status = setHregs s 0 (getHregs (resDone s d n status) 0) := ⟨reported status hs s rfl, resDone_frame s d n status⟩
    refine ⟨fun h => ⟨fun rel hrel hm hl ha => ⟨fun hq hsave => ?_, fun hq => ?_⟩, fun hh => ?_, fun i hi hl => ?_, fun i hi hl hd => ?_,
      fun i hi hl hd => ?_, fun hi => ?_⟩, fun hf hr => ⟨?_, ?_⟩, ?_⟩
    · obtain ⟨moved, resident, i, loading, ctx⟩ := beginLoad_leaves hrel hlen hsave
      refine ⟨_, load.trans (congrArg _ ((cmdResLoad_room h hrel hm hl ha).trans (if_neg (not_le.mpr hq)))),
        reported 0 (by decide) _ (by rw [moved]; rfl), ?_, ⟨i, ?_, ?_⟩, moved.resDone_frame⟩
      · rw [residOf, getCores_resDone]; exact resident
      · rw [slotOf_resDone]; exact loading
      · rw [slotOf_resDone]; exact ctx
    · exact ⟨_, load.trans (congrArg _ ((cmdResLoad_room h hrel hm hl ha).trans (if_pos hq))), refused 2 (by decide)⟩
    · exact ⟨_, load.trans (congrArg _ (cmdResLoad_holds h hh)), refused 1 (by decide)⟩
    · refine ⟨_, evict.trans (congrArg _ (cmdResEvict_loading h hi hl)), reported 0 (by decide) _ rfl, ?_,
        (coresMoved_setCores s d _).resDone_frame⟩
      rw [slotOf_resDone, slotOf_setSlot_same _ (lt_of_lt_of_eq (slotHolding_some hi).1 hlen.symm)]
    · exact ⟨_, evict.trans (congrArg _ (cmdResEvict_discard h hi hl hd)), refused 1 (by decide)⟩
    · obtain ⟨range, held⟩ := slotHolding_some hi
      have moved : CoresMoved d s (beginEvict s d i false) := coresMoved_beginEvict i false
      refine ⟨_, evict.trans (congrArg _ (cmdResEvict_begun h hi hl hd)), reported 0 (by decide) _ (by rw [moved]; rfl), fun hs => ?_,
        fun hs => ?_, moved.resDone_frame⟩
      · rw [slotOf_resDone]; exact beginEvict_stopping false (lt_of_lt_of_eq range hlen.symm) held hl hs
      · rw [slotOf_resDone, beginEvict_stands false (.inr (.inl hs))]
    · exact ⟨_, evict.trans (congrArg _ (cmdResEvict_none h hi)), refused 1 (by decide)⟩
    · exact ⟨_, load.trans (congrArg _ (cmdResLoad_resetting hf hr)), refused 5 (by decide)⟩
    · exact ⟨_, evict.trans (congrArg _ (cmdResEvict_resetting hf hr)), refused 5 (by decide)⟩
    · exact ⟨_, d0Command_zero (fun t => resDone t d n 0) served, refused 0 (by decide)⟩
  · intro cl since h
    refine ⟨fun ht => ?_, exec_clusterDrainTimeout_early h⟩
    obtain ⟨mark, frame⟩ := drainOverdue_frame (coresMoved_evictAll (s := drainOverdue s d cl.val since) (drainedSlots s d cl.val))
    refine ⟨_, exec_clusterDrainTimeout h ht, mark, frame, fun i hi => ⟨fun busy runs => ?_, fun idle => ?_⟩⟩
    · exact evictAll_stopping (mem_drainedSlots.mpr ⟨hi, busy⟩) (lt_of_lt_of_eq hi hlen.symm) runs
    · exact slotOf_evictAll_other fun listed => idle (mem_drainedSlots.mp listed).2

end Sys2Proof
end
section
/-! PROOFS. What the scheduling of a die's groups leaves (R122, R143, R147, R152): the groups, the active sets, the slots and the count of issues
change, and a group that is only rescheduled stays as it was. -/

namespace Sys2Proof.Machine

/-! ### Words written into a sparse table -/

section
variable {α β : Type} [DecidableEq α] {d : α} {key : β → Nat} {val : β → α} {k : Nat}

/-- Writes to other keys leave a key. -/
theorem mget_foldl_mput_other {l : List β} (m : Map α) (h : ∀ x ∈ l, k ≠ key x) :
    mget d (l.foldl (fun m x => mput d m (key x) (val x)) m) k = mget d m k := by
  induction l generalizing m with
  | nil => rfl
  | cons x r ih =>
    rw [List.foldl_cons, ih _ fun y hy => h y (List.mem_cons_of_mem _ hy), mget_mput_other _ _ _ (h x List.mem_cons_self)]

/-- Writes that agree on a key leave their value there. -/
theorem mget_foldl_mput_agreeing {l : List β} {m : Map α} {v : α} (hm : mwf d m = true) (hv : ∀ x ∈ l, key x = k → val x = v)
    (hk : ∃ x ∈ l, key x = k) : mget d (l.foldl (fun m x => mput d m (key x) (val x)) m) k = v := by
  induction l generalizing m with
  | nil => simp at hk
  | cons x r ih =>
    by_cases later : ∃ y ∈ r, key y = k
    · exact ih (mput_mwf m _ _ hm) (fun y hy => hv y (List.mem_cons_of_mem _ hy)) later
    · push Not at later
      obtain ⟨y, hy, hyk⟩ := hk
      obtain rfl : y = x := (List.mem_cons.mp hy).resolve_right fun hr => later y hr hyk
      rw [List.foldl_cons, mget_foldl_mput_other _ fun z hz => (later z hz).symm, ← hyk, mget_mput_same m _ _ hm]
      exact hv y List.mem_cons_self hyk

end

/-! ### What moves the groups of a die -/

section
variable {d : DieId} {s t u : State}

/-- A change of the groups, the active sets, the slots and the count of issues of die `d` alone. -/
def GroupsMoved (d : DieId) (s t : State) : Prop :=
  t = setCores s d { getCores s d with groups := (getCores t d).groups, served := (getCores t d).served, slots := (getCores t d).slots,
                                       issueNo := (getCores t d).issueNo }

namespace GroupsMoved

theorem refl (d : DieId) (s : State) : GroupsMoved d s s := (setCores_getCores s d).symm

theorem trans (h1 : GroupsMoved d s t) (h2 : GroupsMoved d t u) : GroupsMoved d s u := by
  unfold GroupsMoved at *; rw [h2, h1]; simp [setCores, getCores]

theorem cores (h : GroupsMoved d s t) : getCores t d = { getCores s d with
    groups := (getCores t d).groups, served := (getCores t d).served, slots := (getCores t d).slots, issueNo := (getCores t d).issueNo } :=
  (congrArg (getCores · d) h).trans (getCores_setCores s d _)

theorem vrf (h : GroupsMoved d s t) : (getCores t d).vrf = (getCores s d).vrf := by rw [h.cores]

theorem tile (h : GroupsMoved d s t) : (getCores t d).tile = (getCores s d).tile := by rw [h.cores]

theorem near (h : GroupsMoved d s t) : (getCores t d).near = (getCores s d).near := by rw [h.cores]

theorem blocks (h : GroupsMoved d s t) : (getCores t d).blocks = (getCores s d).blocks := by rw [h.cores]

theorem dispatches (h : GroupsMoved d s t) : (getCores t d).dispatches = (getCores s d).dispatches := by rw [h.cores]

/-- Only the die's cores differ. -/
theorem only (h : GroupsMoved d s t) : t = setCores s d (getCores t d) := by rw [h.cores]; exact h

end GroupsMoved

theorem ActiveMoved.groupsMoved (h : ActiveMoved d s t) : GroupsMoved d s t := by
  unfold GroupsMoved; rw [h.frame]; simp [setCores, getCores]

theorem groupsMoved_setGroup (s : State) (d : DieId) (k : Nat) (g : Group) : GroupsMoved d s (setGroup s d k g) := by
  simp [GroupsMoved, setGroup]

theorem groupsMoved_refreshSlot (s : State) (d : DieId) (c : Nat) : GroupsMoved d s (refreshSlot s d c) := by
  obtain ⟨l, hl⟩ := refreshSlot_slots s d c
  rw [hl]; simp [GroupsMoved]

theorem groupsMoved_afterGroup (s : State) (d : DieId) (g : Group) : GroupsMoved d s (afterGroup s d g) := by
  have filled := (activeMoved_fillQuarter s d (groupCore s d g) g.quarter).groupsMoved
  unfold afterGroup; dsimp only
  split
  · exact filled.trans (groupsMoved_refreshSlot _ d _)
  · exact filled

@[simp] theorem groupOf_setGroup_same (s : State) (d : DieId) (k : Nat) (g : Group) : groupOf (setGroup s d k g) d k = some g := by
  simp [groupOf, setGroup]

theorem groupOf_setGroup_other (s : State) (d : DieId) {k j : Nat} (g : Group) (h : j ≠ k) :
    groupOf (setGroup s d k g) d j = groupOf s d j := by
  simp [groupOf, setGroup, mfind_mins_other _ _ h]

theorem groupOf_refreshSlot (s : State) (d : DieId) (c k : Nat) : groupOf (refreshSlot s d c) d k = groupOf s d k := by
  obtain ⟨l, hl⟩ := refreshSlot_slots s d c
  rw [hl]; simp [groupOf]

/-- After a change of a group every group of the die stays but for its place in the active set. -/
theorem alikeGroup_afterGroup (s : State) (d : DieId) (g : Group) {k : Nat} {x : Group} (hx : groupOf s d k = some x) :
    ∃ y, groupOf (afterGroup s d g) d k = some y ∧ AlikeGroup x y := by
  have filled := (activeMoved_fillQuarter s d (groupCore s d g) g.quarter).groups k x hx
  unfold afterGroup; dsimp only
  split
  · rw [groupOf_refreshSlot]; exact filled
  · exact filled

theorem updGroup_eq {i : Issue} {g : Group} (h : groupOf s i.d i.gid = some g) (f : Group → Group) :
    updGroup s i f = setGroup s i.d i.gid (f g) := by
  unfold updGroup modGroup; rw [h]

/-- A group with work left is only rescheduled when the die looks at it again. -/
theorem sweepGroup_running {gid : Nat} {g : Group} (h : groupOf s d gid = some g) (hp : g.paths ≠ []) :
    sweepGroup s d gid = afterGroup s d g := by
  unfold sweepGroup; rw [h]; dsimp only
  rw [if_neg (by simp [groupEnded, hp])]

/-! ### Changes of a die's cores, and of free values -/

theorem GroupsMoved.coresOnly (h : GroupsMoved d s t) : CoresOnly d s t := by
  have free : t.freeCtr = s.freeCtr := by rw [h]; rfl
  unfold CoresOnly; rw [free]; exact h.only

theorem CoresOnly.refl (d : DieId) (s : State) : CoresOnly d s s := (GroupsMoved.refl d s).coresOnly

theorem CoresOnly.trans (h1 : CoresOnly d s t) (h2 : CoresOnly d t u) : CoresOnly d s u := by
  unfold CoresOnly at *; rw [h2, h1]; simp [setCores, getCores]

theorem coresOnly_useFree (d : DieId) (s : State) : CoresOnly d s (useFree s) := by
  have same : getCores (useFree s) d = getCores s d := rfl
  unfold CoresOnly; rw [same, setCores_getCores]; rfl

theorem coresOnly_setCores (d : DieId) (s : State) (k : Cores) : CoresOnly d s (setCores s d k) := by
  simp only [CoresOnly, getCores_setCores]

@[simp] theorem groupOf_useFree (s : State) (d : DieId) (k : Nat) : groupOf (useFree s) d k = groupOf s d k := rfl

@[simp] theorem getCores_useFree (s : State) (d : DieId) : getCores (useFree s) d = getCores s d := rfl

end

end Sys2Proof.Machine
end
section
/-! PROOFS. Operations in flight that complete (R157, R158, R222, R229, R288): what brings one on, what it leaves in the registers, and the group
afterwards. -/

namespace Sys2Proof.Machine

/-! ### The group and the memory side of an operation (R157, R289) -/

theorem issueAt_some {s : State} {r : GRef} {i : Issue} (h : issueAt s r = some i) :
    i.d = r.die ∧ i.gid = r.gid ∧ groupOf s i.d i.gid = some i.g := by
  unfold issueAt at h
  split at h
  · cases h
  · split at h
    · cases h; exact ⟨rfl, rfl, ‹_›⟩
    · cases h

theorem noteOp_readOnly (s : State) (d : DieId) (o : CountedOp) : ReadOnly s (noteOp s d o) := by
  unfold noteOp
  generalize List.filter _ o.access = l
  induction l generalizing s with
  | nil => exact .refl s
  | cons a r ih => exact (noteRead_readOnly s a.pa a.bytes).trans (ih _)

theorem ReadOnly.getCores {s u : State} (h : ReadOnly s u) (d : DieId) : getCores u d = getCores s d := h.looked.getCores d

theorem ReadOnly.groupOf {s u : State} (h : ReadOnly s u) (d : DieId) (k : Nat) : groupOf u d k = groupOf s d k := by
  unfold Machine.groupOf; rw [h.getCores]

/-- What an access gives does not depend on what a read has noted. -/
theorem ReadOnly.accessBytes {s u : State} (h : ReadOnly s u) (d : DieId) (gid : Nat) (o : CountedOp) (a : LaneAccess) :
    accessBytes u d gid o a = accessBytes s d gid o a := by
  unfold ReadOnly at h; rw [h]; rfl

/-! ### Words that reach the registers (R158, R222) -/

/-- Words put at the cells of vector registers: register, lane, word. -/
def wordsPut (i : Issue) (ws : List (Nat × Nat × W32)) (m : Map W32) : Map W32 :=
  ws.foldl (fun m x => mput 0 m (vreg i x.1 x.2.1) x.2.2) m

section
variable {i : Issue} {ws : List (Nat × Nat × W32)} {m : Map W32}

theorem wordsPut_other {k : Nat} (h : ∀ x ∈ ws, k ≠ vreg i x.1 x.2.1) : mget 0 (wordsPut i ws m) k = mget 0 m k :=
  mget_foldl_mput_other (key := fun x : Nat × Nat × W32 => vreg i x.1 x.2.1) m h

theorem wordsPut_agreeing {k : Nat} {v : W32} (hm : mwf 0 m = true) (hv : ∀ x ∈ ws, vreg i x.1 x.2.1 = k → x.2.2 = v)
    (hk : ∃ x ∈ ws, vreg i x.1 x.2.1 = k) : mget 0 (wordsPut i ws m) k = v :=
  mget_foldl_mput_agreeing (key := fun x : Nat × Nat × W32 => vreg i x.1 x.2.1) hm hv hk

end

section
variable {s : State} {i : Issue} {o : CountedOp} (h : o.stale = [])
include h

/-- Without a register written meanwhile every word of a result lands. -/
theorem landResult_vector (ws : List (Nat × Nat × W32)) :
    landResult s i false o ws = setCores s i.d { getCores s i.d with vrf := wordsPut i ws (getCores s i.d).vrf } := by
  simp [landResult, h, wordsPut]

theorem landResult_scalar (ws : List (Nat × Nat × W32)) :
    landResult s i true o ws = updGroup s i (fun g => { g with sregs := ws.foldl (fun m x => mput 0 m x.1 x.2.2) g.sregs }) := by
  simp [landResult, h]

end

/-! ### The group once a counter has gone down (R157) -/

theorem CoresOnly.frame {d : DieId} {s t : State} (h : CoresOnly d s t) : t = { s with cores := t.cores, freeCtr := t.freeCtr } := by
  unfold CoresOnly at h; rw [h]; rfl

theorem CoresOnly.memByte {d : DieId} {s t : State} (h : CoresOnly d s t) (a : Nat) : memByte t a = memByte s a := by
  rw [h.frame]; rfl

/-- A group that looks at its `wait` again. -/
def resumed (g : Group) : Group := { g with waiting := false }

theorem afterCount_running {v : State} {i : Issue} {g : Group} (hg : groupOf v i.d i.gid = some g) (hp : g.paths ≠ []) :
    afterCount v i = useFree (afterGroup (setGroup v i.d i.gid (resumed g)) i.d (resumed g)) := by
  have running : (resumed g).paths ≠ [] := hp
  rw [afterCount, updGroup_eq hg]
  exact congrArg useFree (sweepGroup_running (groupOf_setGroup_same _ _ _ _) running)

/-- A counter of a running group down: its die's scheduling alone moves, and the group waits no more. -/
theorem afterCount_leaves {v : State} {i : Issue} {g : Group} {f : Group → Group} (hg : groupOf v i.d i.gid = some g)
    (hp : (f g).paths ≠ []) : let t := afterCount (updGroup v i f) i
    CoresOnly i.d v t ∧ (getCores t i.d).vrf = (getCores v i.d).vrf ∧
      ∃ y, groupOf t i.d i.gid = some y ∧ AlikeGroup (resumed (f g)) y := by
  dsimp only
  rw [updGroup_eq hg, afterCount_running (groupOf_setGroup_same _ _ _ _) hp]
  have moved := ((groupsMoved_setGroup v i.d i.gid (f g)).trans (groupsMoved_setGroup _ i.d i.gid (resumed (f g)))).trans
    (groupsMoved_afterGroup _ i.d (resumed (f g)))
  exact ⟨moved.coresOnly.trans (coresOnly_useFree _ _), moved.vrf, alikeGroup_afterGroup _ i.d _ (groupOf_setGroup_same _ _ _ _)⟩

/-- A result that lands in vector registers as its operation leaves its counter. -/
theorem landed_leaves {v : State} {i : Issue} {g : Group} {o : CountedOp} {f : Group → Group} (stale : o.stale = [])
    (hg : groupOf v i.d i.gid = some g) (hp : (f g).paths ≠ []) (ws : List (Nat × Nat × W32)) :
    let t := afterCount (updGroup (landResult v i false o ws) i f) i
    CoresOnly i.d v t ∧ (getCores t i.d).vrf = wordsPut i ws (getCores v i.d).vrf ∧
      ∃ y, groupOf t i.d i.gid = some y ∧ AlikeGroup (resumed (f g)) y := by
  rw [landResult_vector stale]
  have same : groupOf (setCores v i.d { getCores v i.d with vrf := wordsPut i ws (getCores v i.d).vrf }) i.d i.gid = some g := by
    simpa [groupOf] using hg
  obtain ⟨only, vrf, group⟩ := afterCount_leaves same hp
  exact ⟨(coresOnly_setCores i.d v _).trans only, vrf.trans (by simp), group⟩

/-! ### How far an operation is brought on (R157, R288) -/

section
variable {s t : State} {d : DieId} {gid : Nat} {o p : CountedOp}

/-- A read whose part at home leaves nothing to ask is done. -/
theorem bringOn_read (hk : ∀ data, o.kind ≠ .store data) (hf : accessFault (noteOp s d o) d o = none)
    (hp : performOp (noteOp s d o) d gid o = (t, p)) (ha : opAsks gid p = []) : bringOn s d gid o = .done t (takeAnswers t d gid p []) := by
  have reads : (match o.kind with | .store _ => false | _ => true) = true := by
    split
    · exact absurd ‹_› (hk _)
    · rfl
  simp only [bringOn, if_true, hf, hp, ha]
  rfl

/-- A store whose bytes all lie at home is done. -/
theorem bringOn_store {data : List (Nat × Byte)} (hk : o.kind = .store data) (hposted : o.posted = false) (hd : ∀ e ∈ data, dieOf e.1 = d) :
    ∃ p, bringOn s d gid o = .done (writeCells s data) p := by
  have home : data.filter (fun c => dieOf c.1 == d) = data := List.filter_eq_self.mpr fun e he => by simp [hd e he]
  have out : data.filter (fun c => !(dieOf c.1 == d)) = [] := List.filter_eq_nil_iff.mpr fun e he => by simp [hd e he]
  refine ⟨takeAnswers (writeCells s data) d gid (performOp s d gid o).2 [], ?_⟩
  have performed : performOp s d gid o =
      (writeCells s data, { o with posted := true, kind := .fixed, access := o.access.filter (fun a => !(dieOf a.pa == d)) }) := by
    simp [performOp, hposted, hk, home, out]
  have asks : opAsks gid (performOp s d gid o).2 = [] := by rw [performed]; rfl
  simp only [bringOn, hk, Bool.false_eq_true, if_false, asks]
  rw [performed]
  rfl

theorem performOp_leaves : (performOp s d gid o).1.cores = s.cores ∧ (performOp s d gid o).2.serial = o.serial := by
  have lanes (op bits : Nat) (args : List (Nat × W64 × W64)) (l : List LaneAccess) :
      ∀ (u : State) olds fl, (applyLanes op bits args l u olds fl).1.cores = u.cores := by
    induction l with
    | nil => intros; rfl
    | cons a r ih =>
      intro u olds fl
      unfold applyLanes
      split
      · exact ih _ _ _
      · exact ih _ _ _
  unfold performOp; dsimp only
  split
  · exact ⟨rfl, rfl⟩
  · split
    · exact ⟨rfl, rfl⟩
    · exact ⟨lanes _ _ _ _ _ _ _, rfl⟩
    · exact ⟨rfl, rfl⟩
    · exact ⟨rfl, rfl⟩

/-- An operation that waits for another die has changed no core, and is the same operation. -/
theorem bringOn_waits (h : bringOn s d gid o = .waits t p) : t.cores = s.cores ∧ p.serial = o.serial := by
  have asked (u : State) (l : List AskFor) : (l.foldl (askDie d) u).cores = u.cores := by
    rw [foldl_setEnds (fun v x => askDie_ends d v x) l u]; rfl
  have noted : (noteOp s d o).cores = s.cores := by
    have only := noteOp_readOnly s d o
    unfold ReadOnly at only; rw [only]
  have either (b : Prop) [Decidable b] : (if b then noteOp s d o else s).cores = s.cores := by
    split
    · exact noted
    · rfl
  simp only [bringOn] at h
  generalize hb : (match o.kind with | .store _ => false | _ => true) = b at h
  split at h
  · cases h
  · split at h
    · cases h
      exact ⟨(asked _ _).trans (performOp_leaves.1.trans (either _)), performOp_leaves.2⟩
    · split at h <;> cases h

end

end Sys2Proof.Machine
end
section
/-! PROOFS. Loads, atomics and stores performed at home (R157, R160, R222, R229), and the commands that count operations down. -/

namespace Sys2Proof.Machine

section
variable {s : State} {d : DieId} {gid : Nat} {o : CountedOp}

/-- Whether a load can be done without another die: COHERENT and not yet performed, with every access at home, or with all its bytes. -/
def loadServed (d : DieId) (o : CountedOp) (coherent : Bool) : Prop :=
  (coherent = true ∧ o.posted = false ∧ ∀ a ∈ o.access, a.got = none ∧ dieOf a.pa = d) ∨ ∀ a ∈ o.access, a.got ≠ none

/-- An access with the bytes it gives. -/
def withBytes (s : State) (d : DieId) (gid : Nat) (o : CountedOp) (a : LaneAccess) : LaneAccess :=
  { a with got := some (accessBytes s d gid o a) }

theorem withBytes_of_got {a : LaneAccess} (h : a.got ≠ none) : withBytes s d gid o a = a := by
  obtain ⟨b, hb⟩ := Option.ne_none_iff_exists'.mp h
  cases a
  cases hb
  rfl

/-- A load that is served keeps its destinations and has the bytes of every access. -/
theorem performOp_load {size : Nat} {signed scalar coherent : Bool} (hk : o.kind = .load size signed scalar coherent)
    (hs : loadServed d o coherent) : ∃ b, performOp s d gid o = (s, { o with access := o.access.map (withBytes s d gid o), posted := b }) := by
  have unchanged (h : ∀ a ∈ o.access, a.got ≠ none) : o = { o with access := o.access.map (withBytes s d gid o), posted := o.posted } := by
    have same : o.access.map (withBytes s d gid o) = o.access := (List.map_congr_left fun a ha => withBytes_of_got (h a ha)).trans (List.map_id _)
    rw [same]
  by_cases posted : o.posted = true
  · have got : ∀ a ∈ o.access, a.got ≠ none := hs.resolve_left fun h => by simp [posted] at h
    exact ⟨o.posted, by rw [← unchanged got]; simp [performOp, posted]⟩
  · cases coherent with
    | false =>
      have got : ∀ a ∈ o.access, a.got ≠ none := hs.resolve_left fun h => Bool.false_ne_true h.1
      exact ⟨o.posted, by rw [← unchanged got]; simp [performOp, posted, hk]⟩
    | true =>
      have taken : o.access.map (fun a => if dieOf a.pa == d then withBytes s d gid o a else a) = o.access.map (withBytes s d gid o) := by
        refine List.map_congr_left fun a ha => ?_
        rcases hs with ⟨-, -, home⟩ | got
        · exact if_pos (by simp [(home a ha).2])
        · rw [withBytes_of_got (got a ha), ite_self]
      refine ⟨true, ?_⟩
      rw [← taken]
      simp [performOp, posted, hk, withBytes]

/-- A load that is served is done, and its words are those that its accesses give. -/
theorem bringOn_load {size : Nat} {signed scalar coherent : Bool} (hk : o.kind = .load size signed scalar coherent)
    (hs : loadServed d o coherent) (hf : accessFault (noteOp s d o) d o = none) : ∃ p, bringOn s d gid o = .done (noteOp s d o) p ∧
      p.flags = o.flags ∧ endWords (noteOp s d o) d gid p = o.dests.map (fun x => (x.1, x.2, loadResult s d gid o x.1 x.2)) := by
  obtain ⟨b, performed⟩ := performOp_load (s := noteOp s d o) (gid := gid) hk hs
  have read := noteOp_readOnly s d o
  have given : ∀ a ∈ o.access.map (withBytes (noteOp s d o) d gid o), a.got.isNone = false := fun a ha => by
    obtain ⟨a', -, rfl⟩ := List.mem_map.mp ha; rfl
  have asks : opAsks gid (performOp (noteOp s d o) d gid o).2 = [] := by
    have none : (o.access.map (withBytes (noteOp s d o) d gid o)).filter (fun a => a.got.isNone) = [] :=
      List.filter_eq_nil_iff.mpr fun a ha => by simp [given a ha]
    rw [performed]
    cases coherent
    · simp [opAsks, hk]
    · simp only [opAsks, hk, none]; rfl
  refine ⟨_, bringOn_read (fun data h => by rw [hk] at h; cases h) hf performed (by rw [performed] at asks; exact asks), ?_⟩
  generalize noteOp s d o = z at given read
  have taken : takeAnswers z d gid { o with access := o.access.map (withBytes z d gid o), posted := b } [] =
      { o with access := o.access.map (withBytes z d gid o), posted := b } := by
    cases coherent
    · simp [takeAnswers, hk]
    · simp only [takeAnswers, hk, CountedOp.mk.injEq, true_and, and_true]
      refine (List.map_congr_left fun a ha => ?_).trans (List.map_id _)
      simp [given a ha]
  rw [taken]
  refine ⟨rfl, ?_⟩
  simp only [endWords, hk, loadWords]
  refine List.map_congr_left fun x _ => ?_
  have found : (o.access.map (withBytes z d gid o)).find? (fun a => a.lane == x.2) =
      (o.access.find? (fun a => a.lane == x.2)).map (withBytes z d gid o) := by rw [List.find?_map]; rfl
  simp only [loadResult, hk, found]
  cases o.access.find? (fun a => a.lane == x.2) with
  | none => rfl
  | some a => exact congrArg (fun l => (x.1, x.2, loadWord size signed l (x.1 - o.dst))) (read.accessBytes d gid o a)

theorem ReadOnly.memNat {s u : State} (h : ReadOnly s u) (pa n : Nat) : memNat u pa n = memNat s pa n :=
  congrArg leNat (List.map_congr_left fun x _ => h.memByte x)

/-- An atomic of one lane at home is done: it has written its word, and holds the old value for the register. -/
theorem bringOn_atomic {op bits : Nat} {ret : Bool} {b c : W64} {a : LaneAccess} (hk : o.kind = .atomic op bits ret [(a.lane, b, c)])
    (ha : o.access = [a]) (posted : o.posted = false) (home : dieOf a.pa = d) (hf : accessFault (noteOp s d o) d o = none) :
    let old := memNat s a.pa (bits / 8)
    ∃ p, bringOn s d gid o = .done (memWrite (noteOp s d o) a.pa (natLe (bits / 8) (atomicNew op bits old b.toNat c.toNat))) p ∧
      p.flags = atomicFlags op old b.toNat ∧ p.kind = .fixed ∧
      p.result = oldWords { o with dests := o.dests.filter (fun x => [(a.lane, old)].any (fun y => y.1 == x.2)) } [(a.lane, old)] := by
  have word := (noteOp_readOnly s d o).memNat a.pa (bits / 8)
  dsimp only
  rw [← word]
  have performed : ∃ p, performOp (noteOp s d o) d gid o =
      (memWrite (noteOp s d o) a.pa (natLe (bits / 8) (atomicNew op bits (memNat (noteOp s d o) a.pa (bits / 8)) b.toNat c.toNat)), p) ∧
      p.flags = atomicFlags op (memNat (noteOp s d o) a.pa (bits / 8)) b.toNat ∧ p.kind = .fixed ∧
      p.result = oldWords { o with dests := o.dests.filter (fun x => [(a.lane, memNat (noteOp s d o) a.pa (bits / 8))].any (fun y => y.1 == x.2)) }
        [(a.lane, memNat (noteOp s d o) a.pa (bits / 8))] := by
    simp [performOp, posted, hk, ha, home, applyLanes, applyAtomic]
  obtain ⟨p, performed, flags, kind, result⟩ := performed
  refine ⟨p, ?_, flags, kind, result⟩
  rw [bringOn_read (fun data h => by rw [hk] at h; cases h) hf performed (by simp [opAsks, kind])]
  simp [takeAnswers, kind]

end

/-- A word of 32 or 64 bits written reads back, modulo its size. -/
theorem memNat_memWrite {s : State} (h : Memory.wf s.mem) {bits : Nat} (hb : bits = 32 ∨ bits = 64) (pa x : Nat) :
    memNat (memWrite s pa (natLe (bits / 8) x)) pa (bits / 8) = x % 2 ^ bits := by
  have read := memRead_writeCells h pa (natLe (bits / 8) x)
  rw [natLe_length] at read
  have size : 256 ^ (bits / 8) = 2 ^ bits := by rcases hb with rfl | rfl <;> rfl
  rw [memNat, memWrite, read, leNat_natLe, size]

/-! ### The commands that count down (R157) -/

/-- The state that the oldest operation under VCNT leaves, by how far it has been brought on. -/
def vcntLeft (i : Issue) (o : CountedOp) (rest : List CountedOp) : OpEnd → State
  | .waits t p => updGroup t i (fun g => { g with vq := p :: rest })
  | .faults t f => useFree (coreFault (updGroup t i (fun g => { g with vq := rest })) i.d i.gid f.1 f.2.1 f.2.2 none (some o.pc))
  | .done t p => afterCount (updGroup (landResult t i (opScalar o) o (endWords t i.d i.gid p)) i
      (fun g => raiseFlags { g with vq := rest } p.flags)) i

section
variable {s t : State} {r : GRef} {i : Issue} {o p : CountedOp} {rest : List CountedOp} (hi : issueAt s r = some i)
include hi

section
variable (hq : i.g.vq = o :: rest) (hw : opWaits s i.d o = false)
  (hl : ∀ size signed scalar, o.kind = .load size signed scalar false → ∀ a ∈ o.access, a.got ≠ none)
include hq hw hl

/-- The oldest operation under VCNT, which waits for no row and no fill, goes as far as it can be brought. -/
theorem exec_vcntDecrement : exec (.vcntDecrement r) s = .next (vcntLeft i o rest (bringOn s i.d i.gid o)) := by
  show execVcntDecrement r s = _
  simp only [execVcntDecrement, hi, hq]
  refine (if_neg ?_).trans ?_
  · rintro (waits | fills)
    · exact Bool.false_ne_true (hw.symm.trans waits)
    · split at fills
      · obtain ⟨a, ha, got⟩ := List.any_eq_true.mp fills
        exact hl _ _ _ ‹_› a ha (Option.isNone_iff_eq_none.mp got)
      · exact Bool.false_ne_true fills
  · cases bringOn s i.d i.gid o <;> rfl

end

section
variable (hq : i.g.sq = o :: rest) (hw : opWaits s i.d o = false)
include hq hw

theorem exec_scntDecrement_done (hb : bringOn s i.d i.gid o = .done t p) :
    exec (.scntDecrement r) s = .next (afterCount (updGroup t i (fun g => raiseFlags { g with sq := rest } p.flags)) i) := by
  show execScntDecrement r s = _
  simp only [execScntDecrement, hi, hq, hw, hb, Bool.false_eq_true, if_false]
  rfl

theorem exec_scntDecrement_waits (hb : bringOn s i.d i.gid o = .waits t p) :
    exec (.scntDecrement r) s = .next (updGroup t i (fun g => { g with sq := p :: rest })) := by
  show execScntDecrement r s = _
  simp only [execScntDecrement, hi, hq, hw, hb, Bool.false_eq_true, if_false]
  rfl

end

theorem exec_tcntDecrement (hq : i.g.tq = o :: rest) : exec (.tcntDecrement r) s =
    .next (afterCount (updGroup (landResult s i false o o.result) i (fun g => raiseFlags { g with tq := rest } o.flags)) i) := by
  show execTcntDecrement r s = _
  simp only [execTcntDecrement, hi, hq]
  rfl

theorem exec_mcntDecrement (hq : i.g.mq = o :: rest) : exec (.mcntDecrement r) s =
    .next (afterCount (updGroup (landResult s i false o o.result) i (fun g => raiseFlags { g with mq := rest } o.flags)) i) := by
  show execMcntDecrement r s = _
  simp only [execMcntDecrement, hi, hq]
  rfl

end

end Sys2Proof.Machine
end
section
/-! PROOFS. O26. -/

namespace Sys2Proof.Machine

/-! ### Fills of the near cache (R160, R162, R163, R288) -/

theorem nearOf_congr {s t : State} {d : DieId} (h : (getCores t d).near = (getCores s d).near) (m : Nat) : nearOf t d m = nearOf s d m := by
  unfold nearOf; rw [h]

theorem nearOf_setNear {s : State} {d : DieId} (m : Nat) (n : NearCache)
    (h : mwf ({ lines := [], fills := [] } : NearCache) (getCores s d).near = true) : nearOf (setNear s d m n) d m = n := by
  rw [nearOf, setNear, getCores_setCores]; exact mget_mput_same _ m n h

section
variable {s : State} {d : DieId} {m : Nat} {f : NearFill} {raw : List Byte}

/-- A group with the bytes of a line given to the loads that wait for it. -/
def servedGroup (l : Nat) (bytes : List Byte) (g : Group) : Group :=
  { g with vq := g.vq.map (giveLine l bytes), part := g.part.map (giveLine l bytes), waiting := false }

/-- The bytes of a fill with the core's pending stores laid over them (R163). -/
def filledBytes (s : State) (d : DieId) (m : Nat) (f : NearFill) (raw : List Byte) : List Byte :=
  overlay (f.line * 128) raw (pendingStores s d (fun _ g => groupCore s d g == m))

/-- A near cache once a fill free of poison has ended. -/
def filledNear (n : NearCache) (f : NearFill) (bytes : List Byte) : NearCache :=
  { lines := if f.noInstall then n.lines
      else nearInsert n.lines { line := f.line, data := bytes, poison := [], offered := f.offered } (!f.prefetch),
    fills := n.fills.filter (fun x => !(x.line == f.line)) }

/-- The groups served and the line installed, before the die's groups are scheduled anew. -/
def fillLanded (s : State) (d : DieId) (m : Nat) (f : NearFill) (raw : List Byte) : State :=
  setNear (setCores s d { getCores s d with groups := mmap (fun _ g =>
    if groupCore s d g == m then servedGroup f.line (filledBytes s d m f raw) g else g) (getCores s d).groups }) d m
    (filledNear (nearOf s d m) f (filledBytes s d m f raw))

/-- What follows a fill free of poison is scheduling alone. -/
theorem installFill_clean : GroupsMoved d (fillLanded s d m f raw) (installFill s d m f raw []) ∧
    ∀ k g, groupOf (fillLanded s d m f raw) d k = some g → ∃ y, groupOf (installFill s d m f raw []) d k = some y ∧ AlikeGroup g y := by
  have hits : fillHits s d m f.line (fun a => (a.pa / 64) % 2 ∈ ([] : List Nat)) = [] := by
    simp [fillHits, List.filterMap_eq_nil_iff]
  have refreshed (l : List Nat) (t : State) : GroupsMoved d t (l.foldl (fun u c => refreshSlot u d c) t) ∧
      ∀ k, groupOf (l.foldl (fun u c => refreshSlot u d c) t) d k = groupOf t d k := by
    induction l generalizing t with
    | nil => exact ⟨.refl d t, fun _ => rfl⟩
    | cons c r ih => exact ⟨(groupsMoved_refreshSlot t d c).trans (ih _).1, fun k => ((ih _).2 k).trans (groupOf_refreshSlot t d c k)⟩
  have filled := activeMoved_fillCore (fillLanded s d m f raw) d m
  have eq : ∃ l : List Nat, installFill s d m f raw [] = l.foldl (fun u c => refreshSlot u d c) (fillCore (fillLanded s d m f raw) d m) := by
    unfold installFill; dsimp only
    rw [hits]
    exact ⟨_, rfl⟩
  obtain ⟨l, eq⟩ := eq
  obtain ⟨moved, same⟩ := refreshed l (fillCore (fillLanded s d m f raw) d m)
  rw [eq]
  exact ⟨filled.groupsMoved.trans moved, fun k g hg => by rw [same]; exact filled.groups k g hg⟩

theorem groupOf_fillLanded {gid : Nat} {g : Group} (hg : groupOf s d gid = some g) (hm : groupCore s d g = m) :
    groupOf (fillLanded s d m f raw) d gid = some (servedGroup f.line (filledBytes s d m f raw) g) := by
  have on : (groupCore s d g == m) = true := by simp [hm]
  simp only [groupOf, fillLanded, setNear, getCores_setCores, mfind_mmap] at hg ⊢
  rw [hg, Option.map_some, if_pos on]

end

/-- A load that waits for a line takes its bytes. -/
theorem mem_giveLine {l size : Nat} {signed scalar : Bool} {bytes : List Byte} {o : CountedOp} {a : LaneAccess}
    (hk : o.kind = .load size signed scalar false) (ha : a ∈ o.access) (hg : a.got = none) (hl : a.pa / 128 = l) :
    { a with got := some ((bytes.drop (a.pa % 128)).take a.bytes) } ∈ (giveLine l bytes o).access := by
  have waits : awaitsLine l a = true := by simp [awaitsLine, hg, hl]
  have served : awaitsFill l o = true := by simp only [awaitsFill, hk]; exact List.any_eq_true.mpr ⟨a, ha, waits⟩
  simp only [giveLine, served, if_true]
  exact List.mem_map.mpr ⟨a, ha, if_pos waits⟩

/-- An access within a line reads the line's bytes at its place. -/
theorem memRead_line {s : State} {l pa n : Nat} (hl : pa / 128 = l) (hn : pa % 128 + n ≤ 128) :
    ((memRead s (l * 128) 128).drop (pa % 128)).take n = memRead s pa n := by
  have place : l * 128 + pa % 128 = pa := by omega
  refine List.ext_getElem (by simp [memRead, countUp_eq_range']; omega) fun k hk _ => ?_
  simp [memRead, countUp_eq_range', ← Nat.add_assoc, place]

section
variable {s : State} {d : DieId} {core : Fin 32} {line : BitVec 33} {f : NearFill}
  (hf : (nearOf s d core.val).fills.find? (fun x => x.line == line.toNat) = some f)
include hf

theorem exec_nearCacheFill_home (hd : dieOf (line.toNat * 128) = d) (hw : rowWaits s (line.toNat * 128) 128 = false)
    (hp : ∀ k, k < 2 → poisonAt (noteRead s (line.toNat * 128) 128) (line.toNat * 128 + 64 * k) = false) :
    exec (.nearCacheFill d core line) s = .next (installFill (noteRead s (line.toNat * 128) 128) d core.val f
      (memRead (noteRead s (line.toNat * 128) 128) (line.toNat * 128) 128) []) := by
  have clean : (countUp 0 2).filter (fun k => poisonAt (noteRead s (line.toNat * 128) 128) (line.toNat * 128 + 64 * k)) = [] :=
    List.filter_eq_nil_iff.mpr fun k hk => by simp [hp k (by simpa using (mem_countUp.mp hk).2)]
  show execNearCacheFill d core line s = _
  simp only [execNearCacheFill, hf]
  rw [if_neg (not_not.mpr hd), if_neg (by simp [hw]), clean]
  rfl

theorem exec_nearCacheFill_asked (hd : dieOf (line.toNat * 128) ≠ d)
    (ha : answersOf ((fillAsks core.val line.toNat).foldl (askDie d) s) d (fillAsks core.val line.toNat) = none) :
    exec (.nearCacheFill d core line) s = .next ((fillAsks core.val line.toNat).foldl (askDie d) s) := by
  have same : f.line = line.toNat := by simpa using List.find?_some hf
  show execNearCacheFill d core line s = _
  simp only [execNearCacheFill, hf]
  rw [if_pos hd]
  simp only [remoteFill, same, ha]
  rfl

end

/-- What a fill of a line at home leaves of the core's cache. -/
theorem nearOf_installFill {s z : State} {d : DieId} {m : Nat} {f : NearFill} {raw : List Byte}
    (hn : mwf ({ lines := [], fills := [] } : NearCache) (getCores s d).near = true) (hz : getCores z d = getCores s d) :
    nearOf (installFill z d m f raw []) d m = filledNear (nearOf s d m) f (filledBytes z d m f raw) := by
  rw [nearOf_congr installFill_clean.1.near, fillLanded, nearOf_setNear _ _ (by rw [getCores_setCores]; exact hz ▸ hn),
    nearOf_congr (congrArg Cores.near hz)]

theorem CoresOnly.memNat {d : DieId} {s t : State} (h : CoresOnly d s t) (pa n : Nat) : memNat t pa n = memNat s pa n :=
  congrArg leNat (List.map_congr_left fun x _ => h.memByte x)

/-- What an atomic's write leaves of memory. -/
theorem atomic_writes {s z : State} (h : ReadOnly s z) (hm : Memory.wf s.mem) {bits : Nat} (hb : bits = 32 ∨ bits = 64) (pa x : Nat) :
    memNat (memWrite z pa (natLe (bits / 8) x)) pa (bits / 8) = x % 2 ^ bits ∧
      ∀ p, (p < pa ∨ pa + bits / 8 ≤ p) → memByte (memWrite z pa (natLe (bits / 8) x)) p = memByte s p := by
  have mem : z.mem = s.mem := by unfold ReadOnly at h; rw [h]
  refine ⟨memNat_memWrite (by rw [mem]; exact hm) hb pa x, fun p hp => ?_⟩
  rw [memWrite_other z pa _ p (by rwa [natLe_length]), h.memByte]

/-- Of the bytes of one write to an address the last stands. -/
theorem memByte_writeCells_last {s : State} (hm : Memory.wf s.mem) {pre post : List Host.Cell} {e : Host.Cell}
    (last : ∀ x ∈ post, x.1 ≠ e.1) : memByte (writeCells s (pre ++ e :: post)) e.1 = e.2 := by
  have split : putCells s.mem (pre ++ e :: post) = putCells (mput 0 (putCells s.mem pre) e.1 e.2) post := by
    generalize s.mem = m
    induction pre generalizing m with
    | nil => rfl
    | cons c r ih => exact ih _
  change mget 0 (putCells s.mem (pre ++ e :: post)) e.1 = e.2
  rw [split, putCells_other _ _ _ last, mget_mput_same _ _ _ (putCells_wf pre s.mem hm)]

/-- A served load waits for no fill. -/
theorem noFill_of_served {d : DieId} {o : CountedOp} {size : Nat} {signed scalar coherent : Bool}
    (hk : o.kind = .load size signed scalar coherent) (hs : loadServed d o coherent) :
    ∀ size' signed' scalar', o.kind = .load size' signed' scalar' false → ∀ a ∈ o.access, a.got ≠ none := fun _ _ _ h => by
  obtain rfl : coherent = false := by rw [hk] at h; injection h
  exact hs.resolve_left fun h => Bool.false_ne_true h.1

end Sys2Proof.Machine

namespace Sys2Proof

open Machine

section
variable {s : State} {r : GRef} {i : Issue} {o : CountedOp} {rest : List CountedOp} (hi : issueAt s r = some i)
include hi

section
variable (hw : opWaits s i.d o = false) {u : State} {p : CountedOp} (hb : bringOn s i.d i.gid o = .waits u p)
include hw hb

/-- An operation under VCNT that waits for another die keeps its place. -/
theorem waiting_keeps_vcnt (hq : i.g.vq = o :: rest)
    (hl : ∀ size signed scalar, o.kind = .load size signed scalar false → ∀ a ∈ o.access, a.got ≠ none) :
    Answers (.vcntDecrement r) s fun t => t = setCores u i.d (getCores t i.d) ∧
      ∃ y, groupOf t i.d i.gid = some y ∧ y.vq = p :: rest ∧ y.sregs = i.g.sregs ∧ p.serial = o.serial := by
  obtain ⟨cores, serial⟩ := bringOn_waits hb
  have group : groupOf u i.d i.gid = some i.g := by rw [groupOf, getCores, cores]; exact (issueAt_some hi).2.2
  have run := exec_vcntDecrement hi hq hw hl
  simp only [hb, vcntLeft, updGroup_eq group] at run
  exact ⟨_, run, (groupsMoved_setGroup u i.d i.gid _).only, _, groupOf_setGroup_same _ _ _ _, rfl, rfl, serial⟩

/-- So does one under SCNT. -/
theorem waiting_keeps_scnt (hq : i.g.sq = o :: rest) :
    Answers (.scntDecrement r) s fun t => t = setCores u i.d (getCores t i.d) ∧
      ∃ y, groupOf t i.d i.gid = some y ∧ y.sq = p :: rest ∧ p.serial = o.serial := by
  obtain ⟨cores, serial⟩ := bringOn_waits hb
  have group : groupOf u i.d i.gid = some i.g := by rw [groupOf, getCores, cores]; exact (issueAt_some hi).2.2
  have run := exec_scntDecrement_waits hi hq hw hb
  rw [updGroup_eq group] at run
  exact ⟨_, run, (groupsMoved_setGroup u i.d i.gid _).only, _, groupOf_setGroup_same _ _ _ _, rfl, serial⟩

end

variable (running : i.g.paths ≠ [])
include running

section
variable (hw : opWaits s i.d o = false)
include hw

/-- A store's bytes reach memory, the last of those to one address standing. -/
theorem store_lands {data : List (Nat × Byte)} (hq : i.g.sq = o :: rest) (hk : o.kind = .store data) (posted : o.posted = false)
    (home : ∀ e ∈ data, dieOf e.1 = i.d) : Answers (.scntDecrement r) s fun t =>
      t = { writeCells s data with cores := t.cores, freeCtr := t.freeCtr } ∧
      (∀ p, (∀ e ∈ data, e.1 ≠ p) → memByte t p = memByte s p) ∧
      (∀ pre e post, data = pre ++ e :: post → (∀ x ∈ post, x.1 ≠ e.1) → Memory.wf s.mem → memByte t e.1 = e.2) ∧
      ∃ y, groupOf t i.d i.gid = some y ∧ y.sq = rest ∧ y.waiting = false := by
  obtain ⟨p, brought⟩ := bringOn_store (s := s) (gid := i.gid) hk posted home
  have run := exec_scntDecrement_done hi hq hw brought
  have group : groupOf (writeCells s data) i.d i.gid = some i.g := (issueAt_some hi).2.2
  obtain ⟨only, -, y, hy, alike⟩ := afterCount_leaves (f := fun g => raiseFlags { g with sq := rest } p.flags) group running
  refine ⟨_, run, only.frame, fun x hx => (only.memByte x).trans (writeCells_other s data x hx), fun pre e post hd last hm => ?_,
    y, hy, congrArg Group.sq alike, congrArg Group.waiting alike⟩
  rw [only.memByte, hd]
  exact memByte_writeCells_last hm last

variable (hf : accessFault (noteOp s i.d o) i.d o = none)
include hf

/-- An atomic under SCNT changes its word and no register. -/
theorem silentAtomic_acts {op bits : Nat} {b c : W64} {a : LaneAccess} (hq : i.g.sq = o :: rest)
    (hk : o.kind = .atomic op bits false [(a.lane, b, c)]) (ha : o.access = [a]) (hb : bits = 32 ∨ bits = 64) (hm : Memory.wf s.mem)
    (posted : o.posted = false) (home : dieOf a.pa = i.d) : Answers (.scntDecrement r) s fun t =>
      memNat t a.pa (bits / 8) = atomicNew op bits (memNat s a.pa (bits / 8)) b.toNat c.toNat % 2 ^ bits ∧
      (getCores t i.d).vrf = (getCores s i.d).vrf ∧ (∀ p, (p < a.pa ∨ a.pa + bits / 8 ≤ p) → memByte t p = memByte s p) := by
  obtain ⟨p, brought, -⟩ := bringOn_atomic (gid := i.gid) hk ha posted home hf
  have read := noteOp_readOnly s i.d o
  obtain ⟨word, others⟩ := atomic_writes read hm hb a.pa (atomicNew op bits (memNat s a.pa (bits / 8)) b.toNat c.toNat)
  have run := exec_scntDecrement_done hi hq hw brought
  generalize hv : memWrite (noteOp s i.d o) a.pa _ = v at *
  have cores : getCores v i.d = getCores s i.d := by rw [← hv, ← read.getCores]; rfl
  have group : groupOf v i.d i.gid = some i.g := by rw [groupOf, cores]; exact (issueAt_some hi).2.2
  obtain ⟨only, vrf, -⟩ := afterCount_leaves (f := fun g => raiseFlags { g with sq := rest } p.flags) group running
  exact ⟨_, run, (only.memNat _ _).trans word, vrf.trans (by rw [cores]), fun x hx => (only.memByte x).trans (others x hx)⟩

end

variable (canonical : Canonical i s) (stale : o.stale = [])
include canonical stale

/-- A result fixed at its issue is in the registers when its counter goes down. -/
theorem fixedResult_lands {f : Group → Group} {c : Instr} (hp : (f i.g).paths = i.g.paths)
    (run : exec c s = .next (afterCount (updGroup (landResult s i false o o.result) i f) i)) : Answers c s fun t => CoresOnly i.d s t ∧
      (∀ x ∈ o.result, (∀ y ∈ o.result, vreg i y.1 y.2.1 = vreg i x.1 x.2.1 → y = x) →
        mget 0 (getCores t i.d).vrf (vreg i x.1 x.2.1) = x.2.2) ∧
      (∀ k, (∀ x ∈ o.result, k ≠ vreg i x.1 x.2.1) → mget 0 (getCores t i.d).vrf k = mget 0 (getCores s i.d).vrf k) ∧
      ∃ y, groupOf t i.d i.gid = some y ∧ AlikeGroup (resumed (f i.g)) y := by
  obtain ⟨only, vrf, left⟩ := landed_leaves (f := f) stale (issueAt_some hi).2.2 (by rw [hp]; exact running) o.result
  refine ⟨_, run, only, fun x hx unique => ?_, fun k hk => ?_, left⟩
  · rw [vrf]
    exact wordsPut_agreeing canonical.1 (fun y hy same => by rw [unique y hy same]) ⟨x, hx, rfl⟩
  · rw [vrf]; exact wordsPut_other hk

variable (hw : opWaits s i.d o = false) (hf : accessFault (noteOp s i.d o) i.d o = none)
include hw hf

/-- A load's words are in the vector registers of its destinations, and no other register has changed. -/
theorem vectorLoad_lands {size : Nat} {signed coherent : Bool} (hq : i.g.vq = o :: rest) (hk : o.kind = .load size signed false coherent)
    (hs : loadServed i.d o coherent) : Answers (.vcntDecrement r) s fun t => CoresOnly i.d (noteOp s i.d o) t ∧
      (∀ x ∈ o.dests, (∀ y ∈ o.dests, vreg i y.1 y.2 = vreg i x.1 x.2 → y = x) →
        mget 0 (getCores t i.d).vrf (vreg i x.1 x.2) = loadResult s i.d i.gid o x.1 x.2) ∧
      (∀ k, (∀ x ∈ o.dests, k ≠ vreg i x.1 x.2) → mget 0 (getCores t i.d).vrf k = mget 0 (getCores s i.d).vrf k) ∧
      ∃ y, groupOf t i.d i.gid = some y ∧ y.vq = rest ∧ y.waiting = false ∧ y.sregs = i.g.sregs ∧ y.flags = i.g.flags ||| o.flags := by
  obtain ⟨p, brought, flags, words⟩ := bringOn_load (gid := i.gid) hk hs hf
  have read := noteOp_readOnly s i.d o
  have group : groupOf (noteOp s i.d o) i.d i.gid = some i.g := (read.groupOf _ _).trans (issueAt_some hi).2.2
  have run := exec_vcntDecrement hi hq hw (noFill_of_served hk hs)
  rw [brought] at run
  have vector : opScalar o = false := by simp [opScalar, hk]
  simp only [vcntLeft, words, vector] at run
  obtain ⟨only, vrf, y, hy, alike⟩ := landed_leaves (f := fun g => raiseFlags { g with vq := rest } p.flags) stale group running
    (o.dests.map (fun x => (x.1, x.2, loadResult s i.d i.gid o x.1 x.2)))
  refine ⟨_, run, only, fun x hx unique => ?_, fun k hk => ?_, y, hy, congrArg Group.vq alike, congrArg Group.waiting alike,
    (congrArg Group.sregs alike).trans rfl, (congrArg Group.flags alike).trans (by rw [flags]; rfl)⟩
  · rw [vrf, read.getCores]
    refine wordsPut_agreeing canonical.1 (fun w hw same => ?_) ⟨_, List.mem_map.mpr ⟨x, hx, rfl⟩, rfl⟩
    obtain ⟨y, hy, rfl⟩ := List.mem_map.mp hw
    obtain rfl : y = x := unique y hy same
    rfl
  · rw [vrf, read.getCores]
    refine wordsPut_other fun w hw => ?_
    obtain ⟨y, hy, rfl⟩ := List.mem_map.mp hw
    exact hk y hy

/-- A scalar load's word is in its register, and no other register has changed. -/
theorem scalarLoad_lands {size rd : Nat} {signed coherent : Bool} (hq : i.g.vq = o :: rest) (hk : o.kind = .load size signed true coherent)
    (hd : o.dests = [(rd, 0)]) (hs : loadServed i.d o coherent) : Answers (.vcntDecrement r) s fun t => CoresOnly i.d (noteOp s i.d o) t ∧
      (getCores t i.d).vrf = (getCores s i.d).vrf ∧
      ∃ y, groupOf t i.d i.gid = some y ∧ y.vq = rest ∧ mget 0 y.sregs rd = loadResult s i.d i.gid o rd 0 ∧
        ∀ k, k ≠ rd → mget 0 y.sregs k = mget 0 i.g.sregs k := by
  obtain ⟨p, brought, flags, words⟩ := bringOn_load (gid := i.gid) hk hs hf
  have read := noteOp_readOnly s i.d o
  have group : groupOf (noteOp s i.d o) i.d i.gid = some i.g := (read.groupOf _ _).trans (issueAt_some hi).2.2
  have run := exec_vcntDecrement hi hq hw (noFill_of_served hk hs)
  rw [brought] at run
  have scalar : opScalar o = true := by simp [opScalar, hk]
  simp only [vcntLeft, words, scalar, hd, landResult_scalar stale, updGroup_eq group] at run
  obtain ⟨only, vrf, y, hy, alike⟩ := afterCount_leaves (f := fun g => raiseFlags { g with vq := rest } p.flags)
    (groupOf_setGroup_same (noteOp s i.d o) i.d i.gid { i.g with sregs := mput 0 i.g.sregs rd (loadResult s i.d i.gid o rd 0) }) running
  have moved := groupsMoved_setGroup (noteOp s i.d o) i.d i.gid { i.g with sregs := mput 0 i.g.sregs rd (loadResult s i.d i.gid o rd 0) }
  have sregs : y.sregs = mput 0 i.g.sregs rd (loadResult s i.d i.gid o rd 0) := congrArg Group.sregs alike
  refine ⟨_, run, moved.coresOnly.trans only, vrf.trans (moved.vrf.trans (by rw [read.getCores])), y, hy, congrArg Group.vq alike, ?_,
    fun k hk => ?_⟩
  · rw [sregs]; exact mget_mput_same _ _ _ canonical.2
  · rw [sregs]; exact mget_mput_other _ _ _ hk

/-- An atomic that returns its old value changes its word, and the old value is in the register. -/
theorem returningAtomic_lands {op bits : Nat} {b c : W64} {a : LaneAccess} (hq : i.g.vq = o :: rest)
    (hk : o.kind = .atomic op bits true [(a.lane, b, c)]) (ha : o.access = [a]) (hb : bits = 32 ∨ bits = 64) (hm : Memory.wf s.mem)
    (posted : o.posted = false) (home : dieOf a.pa = i.d) : Answers (.vcntDecrement r) s fun t =>
      memNat t a.pa (bits / 8) = atomicNew op bits (memNat s a.pa (bits / 8)) b.toNat c.toNat % 2 ^ bits ∧
      (∀ p, (p < a.pa ∨ a.pa + bits / 8 ≤ p) → memByte t p = memByte s p) ∧
      (o.dests = [(o.dst, a.lane)] →
        mget 0 (getCores t i.d).vrf (vreg i o.dst a.lane) = BitVec.ofNat 32 (memNat s a.pa (bits / 8))) ∧
      ∃ y, groupOf t i.d i.gid = some y ∧ y.vq = rest ∧
        y.flags = i.g.flags ||| atomicFlags op (memNat s a.pa (bits / 8)) b.toNat := by
  obtain ⟨p, brought, flags, kind, result⟩ := bringOn_atomic (gid := i.gid) hk ha posted home hf
  have read := noteOp_readOnly s i.d o
  obtain ⟨word, others⟩ := atomic_writes read hm hb a.pa (atomicNew op bits (memNat s a.pa (bits / 8)) b.toNat c.toNat)
  have run := exec_vcntDecrement hi hq hw (fun _ _ _ h => by rw [hk] at h; cases h)
  rw [brought] at run
  generalize hv : memWrite (noteOp s i.d o) a.pa _ = v at *
  have cores : getCores v i.d = getCores s i.d := by rw [← hv, ← read.getCores]; rfl
  have group : groupOf v i.d i.gid = some i.g := by rw [groupOf, cores]; exact (issueAt_some hi).2.2
  have vector : opScalar o = false := by simp [opScalar, hk]
  have words : endWords v i.d i.gid p = p.result := by simp [endWords, kind]
  simp only [vcntLeft, words, vector] at run
  obtain ⟨only, vrf, y, hy, alike⟩ := landed_leaves (f := fun g => raiseFlags { g with vq := rest } p.flags) stale group running p.result
  refine ⟨_, run, (only.memNat _ _).trans word, fun x hx => (only.memByte x).trans (others x hx), fun hd => ?_, y, hy,
    congrArg Group.vq alike, (congrArg Group.flags alike).trans (by rw [flags]; rfl)⟩
  have old : p.result = [(o.dst, a.lane, BitVec.ofNat 32 (memNat s a.pa (bits / 8)))] := by rw [result, hd]; simp [oldWords]
  rw [vrf, old, cores]
  exact mget_mput_same _ _ _ canonical.1

end

/-- A fill of a line at home delivers and installs it (R160, R162, R163). -/
theorem homeFill_lands {s : State} {d : DieId} {core : Fin 32} {line : BitVec 33} {f : NearFill}
    (hn : mwf ({ lines := [], fills := [] } : NearCache) (getCores s d).near = true)
    (hf : (nearOf s d core.val).fills.find? (fun x => x.line == line.toNat) = some f) (hd : dieOf (line.toNat * 128) = d)
    (hw : rowWaits s (line.toNat * 128) 128 = false)
    (hp : ∀ k, k < 2 → poisonAt (noteRead s (line.toNat * 128) 128) (line.toNat * 128 + 64 * k) = false) :
    Answers (.nearCacheFill d core line) s fun t =>
      t = setCores (noteRead s (line.toNat * 128) 128) d (getCores t d) ∧ (∀ x ∈ (nearOf t d core.val).fills, x.line ≠ line.toNat) ∧
      (f.noInstall = false → (nearOf s d core.val).lines.length < 48 → pendingStores s d (fun _ g => groupCore s d g == core.val) = [] →
        ∃ x ∈ (nearOf t d core.val).lines, x.line = line.toNat ∧ x.data = memRead s (line.toNat * 128) 128) ∧
      (f.noInstall = true → (nearOf t d core.val).lines = (nearOf s d core.val).lines) ∧
      (∀ gid g, groupOf s d gid = some g → groupCore s d g = core.val →
        pendingStores s d (fun _ g => groupCore s d g == core.val) = [] → ∃ y, groupOf t d gid = some y ∧ y.vq.length = g.vq.length ∧
        ∀ (o o' : CountedOp) (a : LaneAccess) (k size : Nat) (signed scalar : Bool), g.vq[k]? = some o → y.vq[k]? = some o' →
          o.kind = .load size signed scalar false → a ∈ o.access → a.got = none → a.pa / 128 = line.toNat → a.pa % 128 + a.bytes ≤ 128 →
          { a with got := some (memRead s a.pa a.bytes) } ∈ o'.access) := by
  have run := exec_nearCacheFill_home hf hd hw hp
  have read := noteRead_readOnly s (line.toNat * 128) 128
  generalize noteRead s (line.toNat * 128) 128 = z at *
  have same : f.line = line.toNat := by simpa using List.find?_some hf
  have raw : memRead z (line.toNat * 128) 128 = memRead s (line.toNat * 128) 128 := List.map_congr_left fun x _ => read.memByte x
  have near := nearOf_installFill (m := core.val) (f := f) (raw := memRead z (line.toNat * 128) 128) hn (read.getCores d)
  obtain ⟨moved, alike⟩ := installFill_clean (s := z) (d := d) (m := core.val) (f := f) (raw := memRead z (line.toNat * 128) 128)
  have bytes (h : pendingStores s d (fun _ g => groupCore s d g == core.val) = []) :
      filledBytes z d core.val f (memRead z (line.toNat * 128) 128) = memRead s (line.toNat * 128) 128 := by
    have none : pendingStores z d (fun _ g => groupCore z d g == core.val) = [] := by
      unfold ReadOnly at read; rw [read]; exact h
    rw [filledBytes, none, raw]; rfl
  refine ⟨_, run, ?_, fun x hx => ?_, fun install room pending => ?_, fun dropped => ?_, fun gid g hg hm pending => ?_⟩
  · have landed : CoresMoved d z (fillLanded z d core.val f (memRead z (line.toNat * 128) 128)) :=
      (coresMoved_setCores z d _).trans (coresMoved_setCores _ d _)
    exact landed.trans moved.only
  · rw [near, filledNear] at hx
    simpa [same] using (List.mem_filter.mp hx).2
  · refine ⟨{ line := f.line, data := memRead s (line.toNat * 128) 128, poison := [], offered := f.offered }, ?_, same, rfl⟩
    rw [near, bytes pending]
    simp only [filledNear, install, nearInsert, room, if_true, Bool.false_eq_true, if_false]
    split <;> simp
  · rw [near, filledNear, if_pos dropped]
  · have core' : groupCore z d g = core.val := by unfold ReadOnly at read; rw [read]; exact hm
    obtain ⟨y, hy, like⟩ := alike gid _ (groupOf_fillLanded ((read.groupOf d gid).trans hg) core')
    have served : y.vq = g.vq.map (giveLine f.line (filledBytes z d core.val f (memRead z (line.toNat * 128) 128))) := congrArg Group.vq like
    rw [bytes pending, same] at served
    refine ⟨y, hy, by rw [served, List.length_map], fun o o' a k size signed scalar ho ho' hk ha hg hl hb => ?_⟩
    obtain rfl : giveLine line.toNat (memRead s (line.toNat * 128) 128) o = o' := by
      rw [served, List.getElem?_map, ho] at ho'; exact Option.some.inj ho'
    rw [← memRead_line hl hb]
    exact mem_giveLine hk ha hg hl

/-- Settles O26: a fill free of poison serves its waiters and leaves scheduling behind it; an operation that needs no other die is done as it
is brought on, its words are put into registers none of which has been written meanwhile, and the group goes on. -/
theorem countedOperationsComplete : Obligations.CountedOperationsComplete := by
  unfold Obligations.CountedOperationsComplete
  refine ⟨fun s d core line f hn hf => ⟨fun hd hw hp => ⟨noteRead_readOnly _ _ _, homeFill_lands hn hf hd hw hp⟩, fun hd ha => ?_⟩,
    fun s r i o rest hi running canonical hw stale hf => ⟨fun size signed coherent hq hk hs =>
      ⟨noteOp_readOnly _ _ _, vectorLoad_lands hi running canonical stale hw hf hq hk hs⟩,
    fun size signed coherent rd hq hk hd hs => scalarLoad_lands hi running canonical stale hw hf hq hk hd hs,
    fun op bits b c a hq hk ha hb hm posted home => returningAtomic_lands hi running canonical stale hw hf hq hk ha hb hm posted home,
    fun data hq hk posted home => store_lands hi running hw hq hk posted home,
    fun op bits b c a hq hk ha hb hm posted home => silentAtomic_acts hi running hw hf hq hk ha hb hm posted home,
    fun u p hb => ⟨fun hq hl => waiting_keeps_vcnt hi hw hb hq hl, fun hq => waiting_keeps_scnt hi hw hb hq⟩, fun e he hq => ?_⟩⟩
  · have asked := foldl_setEnds (d := d) (fun t x => askDie_ends d t x) (fillAsks core.val line.toNat) s
    exact ⟨_, exec_nearCacheFill_asked hf hd ha, rfl, by rw [asked]; rfl, by rw [asked]; rfl⟩
  · rcases List.mem_pair.mp he with rfl | rfl
    · obtain ⟨t, run, only, words, others, y, hy, alike⟩ := fixedResult_lands hi running canonical stale rfl (exec_tcntDecrement hi hq)
      exact ⟨t, run, only, words, others, y, hy, congrArg Group.tq alike, congrArg Group.flags alike, congrArg Group.waiting alike⟩
    · obtain ⟨t, run, only, words, others, y, hy, alike⟩ := fixedResult_lands hi running canonical stale rfl (exec_mcntDecrement hi hq)
      exact ⟨t, run, only, words, others, y, hy, congrArg Group.mq alike, congrArg Group.flags alike, congrArg Group.waiting alike⟩

end Sys2Proof
end
section
/-! PROOFS. A quarter whose groups belong to a dispatch with a context number of more than 16 bits (O25), and the group of one lane that the
refutations of this family start from. -/

namespace Sys2Proof.Machine

/-- A group of one path with one lane, at address 0 of its context's code; it is in the active set of its quarter from the start. -/
def loneGroup : Group :=
  { block := 1, index := 0, quarter := 0, regOff := 0, paths := [.path 0 1 none none], cur := 0, issues := 0, exec := 0, exited := 0,
    preds := [], sregs := [], flags := 0, active := true, since := 0, unable := none, lastV := 0, lastS := 0, busy := 0, part := none,
    sleepUntil := none, stopped := false, waiting := false, vq := [], sq := [], tq := [], mq := [] }

/-- A group that waits outside the active set. -/
def waitingGroup : Group := { loneGroup with active := false }

/-- A block of one group on core 0. -/
def loneBlock : Block := { disp := 1, x := 0, y := 0, z := 0, core := 0, tileOff := 0, live := 1, arrivals := [], watch := 0 }

/-- A dispatch of context `c` with one group of one lane to a block. -/
def loneDispatch (c : Nat) : Dispatch :=
  { engine := 1, ctx := c, tenant := 0, queue := 0, count := 0, sub := 0, fencePa := 0, fence := false, value := 0, width := 1, vregs := 16,
    groups := 1, orphanLog2 := 24, tileKib := 0, entry := 0, kernel := 0, args := 0, words := [], gx := 1, gy := 1, gz := 1, clusters := 1,
    placed := 1, ended := 0, started := [], dead := false, pins := [], geo := none }

/-- Core 0 of die 0 with the groups `gs`, all of a block of context `c`. -/
def loneCores (c : Nat) (gs : Map Group) : Cores :=
  { coresReset with dispatches := [(1, loneDispatch c)], blocks := [(1, loneBlock)], groups := gs }

/-- Die 0 at 4 us with eight groups that have held their places in quarter 0 of core 0 from the start, and a ninth that waits: all of one
dispatch, whose context number is above 2^16. -/
def crowdedQuarter : State :=
  { setCores State.reset 0 (loneCores 65537 ((countUp 0 8).map (fun n => (n, loneGroup)) ++ [(8, waitingGroup)])) with now := 4000 }

/-- The quarter meets what the statement asks of it: eight places taken by groups that can issue, and the ninth waits for longer than
this instant. -/
theorem crowdedQuarter_full :
    (getCores crowdedQuarter 0).groups.Pairwise (fun a b => a.1 < b.1) ∧
    ((getCores crowdedQuarter 0).groups.filter (fun e => e.2.quarter == 0 && groupCore crowdedQuarter 0 e.2 == 0 && e.2.active)).length = 8 ∧
    (∀ w ∈ pendingAble crowdedQuarter 0 0 0, w.since < crowdedQuarter.now) ∧
    (∀ e ∈ (getCores crowdedQuarter 0).groups, e.2.quarter = 0 → groupCore crowdedQuarter 0 e.2 = 0 → e.2.active = true →
      e.2.paths.any pathIssues = true ∧ e.2.stopped = false ∧ e.2.sleepUntil = none) := by decide +kernel

/-- The first group has held its place long enough to give it up. -/
theorem crowdedQuarter_due :
    oldestActive crowdedQuarter 0 0 0 (fun x =>
      ((match x.unable with | some t => decide (t + 30 ≤ crowdedQuarter.now) && !ableGroup x | none => false) &&
        !(pendingAble crowdedQuarter 0 0 0).isEmpty) ||
      (decide (x.since + 3724 ≤ crowdedQuarter.now) &&
        (pendingAble crowdedQuarter 0 0 0).any (fun w => decide (groupPrio crowdedQuarter 0 x ≤ groupPrio crowdedQuarter 0 w))))
      = some (0, loneGroup) := by decide +kernel

/-- Of the groups that the die lists after a command, those active that were not before. -/
def nowActive (s t : State) (d : DieId) : List Nat :=
  ((getCores t d).groups.filter (fun e => e.2.active && !((groupOf s d e.1).map (fun g => g.active)).getD true)).map (fun e => e.1)

theorem mem_of_mfind {α : Type} {m : Map α} {k : Nat} {v : α} (h : mfind m k = some v) : (k, v) ∈ m := by
  induction m with
  | nil => cases h
  | cons e r ih =>
    obtain ⟨n, x⟩ := e
    simp only [mfind] at h
    split at h
    · obtain rfl := Option.some.inj h
      exact ‹n = k› ▸ List.mem_cons_self
    · exact List.mem_cons_of_mem _ (ih h)

/-- A group that was outside the active set and is in it after a command is listed as such. -/
theorem mem_nowActive {s t : State} {d : DieId} {k : Nat} {x y : Group} (before : groupOf s d k = some x) (out : x.active = false)
    (after : groupOf t d k = some y) (on : y.active = true) : k ∈ nowActive s t d :=
  List.mem_map.mpr ⟨(k, y), List.mem_filter.mpr ⟨mem_of_mfind after, by simp [before, out, on]⟩, rfl⟩

/-- The first group gives up its place and nobody takes it. -/
theorem exec_crowdedQuarter : ∃ t, exec (.activeSetRotate 0 0 0) crowdedQuarter = .next t ∧ nowActive crowdedQuarter t 0 = [] := by
  refine ⟨leaveActive crowdedQuarter 0 0 0 0, ?_, by decide +kernel⟩
  exact congrArg (fun o => (match o with | some (gid, _) => ok (leaveActive crowdedQuarter 0 gid 0 0) | none => ok crowdedQuarter :
    Host.Outcome State Fault Refusal)) crowdedQuarter_due

end Sys2Proof.Machine

namespace Sys2Proof

open Machine

/-- Refutes O25: the group that takes a free place is picked by its context number, of which the model takes the least up to 2^16, and the
statement takes in dispatches of any context number. Where a quarter's groups are all of a context numbered 65537, the oldest leaves its
place and none of those that wait takes it. The spec's context numbers are of 16 bits (03); the statement does not ask that of a dispatch. -/
theorem not_groupsTakeTurns : ¬ Obligations.GroupsTakeTurns := by
  unfold Obligations.GroupsTakeTurns
  rintro ⟨places, -⟩
  obtain ⟨ordered, full, earlier, able⟩ := crowdedQuarter_full
  obtain ⟨-, rotates⟩ := places crowdedQuarter 0 0 0 0 loneGroup ordered full earlier able
  obtain ⟨t, run, -, -, k, x, y, -, before, out, after, on⟩ := rotates crowdedQuarter_due
  obtain ⟨u, run', none⟩ := exec_crowdedQuarter
  obtain rfl : t = u := Host.Outcome.next.inj (run.symm.trans run')
  exact List.not_mem_nil (none ▸ mem_nowActive before out after on)

end Sys2Proof
end
section
/-! PROOFS. A group of one lane that issues a word of a context's first page, and the refutations of O31 and O34. -/

namespace Sys2Proof.Machine

/-- Die 0 at 1 us, started, with the groups `gs` of context 0 on core 0; the context's first page is the die's first, and `w` is its first
word. -/
def loneIssue (w : Nat) (gs : Map Group) : State :=
  let s := setSec (setTables (setMemu (setCores State.reset 0 (loneCores 0 gs))
      0 { memReset with xlate := [{ ctx := 0, big := false, base := 0, w := true, handle := 0, page := 0, frames := [0] }] })
    0 { tablesReset with contexts := [(0, { ctxFree with state := .live })] })
    0 { secReset with stage := 3, started := true }
  { s with board := { boardReset with powerOk := true }, now := 1000, mem := putCells [] (cellsAt 0 (natLe 8 w)) }

/-- What the issuing group's reads leave: the word's address translated and its bytes read. -/
def loneFetched (w : Nat) (gs : Map Group) : State := (codeWord (loneIssue w gs) 0 0 0).2

/-- The issue of group `n`, which is `g`. -/
def loneIssueOf (n : Nat) (g : Group) : Issue :=
  { d := 0, gid := n, g := g, x := loneDispatch 0, b := loneBlock, pc := 0, mask := 1 }

/-- A word without an extension is issued where the group is able to issue and the fetch reads it. -/
theorem loneIssue_issues {w n : Nat} {gs : Map Group} {g : Group} {r : GRef} (able : issueOf (loneIssue w gs) r = some (loneIssueOf n g))
    (reads : (codeWord (loneIssue w gs) 0 0 0).1.toOption = some (BitVec.ofNat 64 w)) (short : bit (BitVec.ofNat 64 w) 13 = false) :
    IssuesWord (loneIssue w gs) r (BitVec.ofNat 64 w) 0 (loneIssueOf n g) (loneFetched w gs) := by
  refine ⟨able, _, ?_, .inl ⟨short, rfl⟩⟩
  have fetch : (codeWord (loneIssue w gs) 0 0 0).1 = .ok (BitVec.ofNat 64 w) := by
    cases h : (codeWord (loneIssue w gs) 0 0 0).1 with
    | error e => rw [h] at reads; cases reads
    | ok v => rw [h] at reads; exact congrArg Except.ok (Option.some.inj reads)
  exact Prod.ext fetch rfl

/-- What a command leaves, read off its result. -/
theorem exec_next_of {α : Type} {c : Instr} {s : State} {f : State → α} {v : α}
    (h : (match exec c s with | .next t => some (f t) | _ => none) = some v) : ∃ t, exec c s = .next t ∧ f t = v := by
  split at h
  next t run => exact ⟨t, run, Option.some.inj h⟩
  next => cases h

/-! ### A sleep where the die lists two groups under one number -/

/-- `sleep` of the constant 1. -/
def sleepWord : Nat := 0x301 * 2 ^ 54 + 1 * 2 ^ 51 + 0xC1 * 2 ^ 35

/-- Two groups under number 5: the first issues, the second waits for a place. -/
def twinGroups : Map Group := [(5, loneGroup), (5, waitingGroup)]

theorem twinGroups_issue : IssuesWord (loneIssue sleepWord twinGroups) ⟨0, 5⟩ (BitVec.ofNat 64 sleepWord) 0 (loneIssueOf 5 loneGroup)
    (loneFetched sleepWord twinGroups) :=
  loneIssue_issues (by decide +kernel) (by decide +kernel) (by decide +kernel)

theorem sleepWord_fits : Fits (loneIssueOf 5 loneGroup) (wdOf (BitVec.ofNat 64 sleepWord) 0) { a := .sca 1, predZero := true } := by
  unfold Fits; decide +kernel

/-- The place that the sleeper leaves goes to the second group, and the first one of that number is marked active. -/
theorem exec_twinGroups : ∃ t, exec (.sleep ⟨0, 5⟩ (BitVec.ofNat 64 sleepWord) 0) (loneIssue sleepWord twinGroups) = .next t ∧
    (groupOf t 0 5).map (fun g => g.active) = some true :=
  exec_next_of (by decide +kernel)

/-! ### A load that goes on from a part with a stale destination -/

/-- `ld` of one byte to v0, from the address in v0 and v1. -/
def byteLoadWord : Nat := 0x180 * 2 ^ 54

/-- A load that has begun and waits for fills; another instruction has written v0 of lane 0 meanwhile. -/
def begunLoad : CountedOp :=
  { serial := 0, issuedAt := 0, kind := .load 1 false false false, dst := 0, access := [], result := [], flags := 0, dests := [],
    stale := [(0, 0)], posted := false, pc := 0 }

/-- The group at its load, which it has begun. -/
def loadingGroup : Group := { loneGroup with part := some begunLoad }

theorem loadingGroup_issues : IssuesWord (loneIssue byteLoadWord [(5, loadingGroup)]) ⟨0, 5⟩ (BitVec.ofNat 64 byteLoadWord) 0
    (loneIssueOf 5 loadingGroup) (loneFetched byteLoadWord [(5, loadingGroup)]) :=
  loneIssue_issues (by decide +kernel) (by decide +kernel) (by decide +kernel)

theorem byteLoadWord_fits : Fits (loneIssueOf 5 loadingGroup) (wdOf (BitVec.ofNat 64 byteLoadWord) 0)
    { a := .vec 2, b := .no, d := .v 1, mods := 0xFF } := by unfold Fits; decide +kernel

theorem loadingGroup_noLanes : actingLanes (loneIssueOf 5 loadingGroup) (wdOf (BitVec.ofNat 64 byteLoadWord) 0) = [] := by decide +kernel

/-- The load is issued with the destination that its part had lost. -/
theorem exec_loadingGroup : ∃ t, exec (.ld ⟨0, 5⟩ (BitVec.ofNat 64 byteLoadWord) 0) (loneIssue byteLoadWord [(5, loadingGroup)]) = .next t ∧
    (groupOf t 0 5).map (fun g => g.vq.map (fun o => o.stale)) = some [[(0, 0)]] :=
  exec_next_of (by decide +kernel)

end Sys2Proof.Machine

namespace Sys2Proof

open Machine

/-- Refutes O34: the statement asks nothing of the die's list of groups where a group sleeps. Where the list holds two groups under one number,
the place that the first leaves goes to the second, and what is marked active is the first of that number, the sleeper. Of a list in
ascending order, as the clauses for `exit` and `bar` ask for, this case would not be met. -/
theorem not_controlFlowInstructions : ¬ Obligations.ControlFlowInstructions := by
  unfold Obligations.ControlFlowInstructions
  intro h
  obtain ⟨-, -, -, -, -, -, sleeps, -⟩ := h _ _ _ _ _ _ twinGroups_issue rfl rfl
  obtain ⟨t, run, -, -, -, g, found, -, -, -, out, -⟩ := sleeps (by decide +kernel) sleepWord_fits
  obtain ⟨u, run', on⟩ := exec_twinGroups
  obtain rfl : t = u := Host.Outcome.next.inj (run.symm.trans run')
  have active : (some g).map (fun x => x.active) = some true := found ▸ on
  exact Bool.false_ne_true (out.symm.trans (Option.some.inj active))

/-- Refutes O31: a load that goes on from what it has begun keeps the list of destinations written by others meanwhile, and the statement says
that the operation it issues has none. It asks nothing of that list in a load that has begun; of one whose list is empty the clause would
not meet this case. -/
theorem not_memoryInstructionsIssue : ¬ Obligations.MemoryInstructionsIssue := by
  unfold Obligations.MemoryInstructionsIssue
  intro h
  obtain ⟨loads, -⟩ := h _ _ _ _ _ _ _ [] loadingGroup_issues (by decide +kernel)
  have lanes : resolveLanes 0 0 false 1 [] (loneFetched byteLoadWord [(5, loadingGroup)]) [] = (.ok [], _) := rfl
  obtain ⟨goes, -⟩ := loads (by decide +kernel) byteLoadWord_fits (by decide +kernel) (by decide +kernel) (by decide +kernel)
    (by rw [loadingGroup_noLanes]; exact lanes) (by decide)
  obtain ⟨t, run, ⟨-, -, -, g, op, found, last, -, -, -, -, fresh, -⟩, -⟩ := goes (.inr ⟨rfl, rfl⟩)
  obtain ⟨u, run', kept⟩ := exec_loadingGroup
  obtain rfl : t = u := Host.Outcome.next.inj (run.symm.trans run')
  have stale : (some g).map (fun x => x.vq.map (fun o => o.stale)) = some [[(0, 0)]] := found ▸ kept
  have queue : g.vq = [op] := last
  rw [Option.map_some, queue, List.map_singleton, fresh] at stale
  cases stale

end Sys2Proof
end
section
/-! PROOFS. A shader instruction that issues and goes on (R146, R148, R152, R201, R205): what its row does with the issue, and what is left of the
group and its die. -/

namespace Sys2Proof.Machine

section
variable {s u v : State} {r : GRef} {w e : W64} {i : Issue}

/-! ### The issue and its word (R201) -/

theorem issueOf_some (h : issueOf s r = some i) :
    i.d = r.die ∧ i.gid = r.gid ∧ groupOf s i.d i.gid = some i.g ∧ ∃ j, curPath i.g = some (i.pc, i.mask, j) := by
  unfold issueOf at h
  split at h
  · cases h
  · split at h
    · split at h
      · cases h; exact ⟨rfl, rfl, ‹_›, _, ‹_›⟩
      · cases h
    · cases h

theorem codeWord_looked (s : State) (d : DieId) (c pc : Nat) : Looked s (codeWord s d c pc).2 := by
  have looked := translate_looked_ask s d c pc {}
  unfold codeWord
  generalize translate s d c pc {} = x at looked ⊢
  obtain ⟨p | ⟨pa, o⟩, t⟩ := x
  · exact looked
  · have read : Looked s (noteRead t pa 8) := Looked.trans looked (noteRead_readOnly t pa 8).looked
    dsimp only at looked ⊢
    split
    · exact looked
    · split
      · exact looked.trans (noteLate_readsTables t d (dieOf pa)).1
      · split
        · exact read
        · exact read

theorem IssuesWord.looked (h : IssuesWord s r w e i u) : Looked s u := by
  obtain ⟨-, v, fetch, ext⟩ := h
  have first : Looked s v := by simpa only [fetch] using codeWord_looked s i.d i.x.ctx i.pc
  obtain ⟨-, rfl⟩ | ⟨-, fetch2⟩ := ext
  · exact first
  · exact first.trans (by simpa only [fetch2] using codeWord_looked v i.d i.x.ctx (i.pc + 8))

/-- The issuing group as the fetch leaves it. -/
theorem IssuesWord.group (h : IssuesWord s r w e i u) : groupOf u i.d i.gid = some i.g := by
  obtain ⟨-, -, group, -⟩ := issueOf_some h.1
  rw [groupOf, h.looked.getCores]; exact group

/-- The only path of the issuing group is its current one. -/
theorem IssuesWord.current {p : PathEntry} (h : IssuesWord s r w e i u) (hp : i.g.paths = [p]) : i.g.cur = 0 := by
  obtain ⟨-, -, -, j, cur⟩ := issueOf_some h.1
  unfold curPath at cur
  rw [hp] at cur
  cases hc : i.g.cur with
  | zero => rfl
  | succ n => simp [hc] at cur

/-- A row of the word's opcode acts on the issue, with the state that the fetch leaves. -/
theorem IssuesWord.runs {row : Nat → Bool} {k : Issue → Wd → State → IsaRes} (h : IssuesWord s r w e i u) (listed : opListed (wdOf w e).op = true)
    (own : row (wdOf w e).op = true) : runIsa row r w e s k = .next (isaEnd s i (wdOf w e) (k i (wdOf w e) u)) := by
  obtain ⟨able, v, fetch, ext⟩ := h
  have long : (wdOf w e).ext = bit w 13 := rfl
  simp only [runIsa, able, fetch, listed, own, not_true_eq_false, if_false, ne_eq]
  obtain ⟨short, rfl⟩ | ⟨two, fetch2⟩ := ext
  · rw [if_neg (by simp [long, short])]; rfl
  · rw [if_pos (long.trans two), fetch2]
    simp [ok]

theorem checked_fits {wd : Wd} {use : Use} {more : Bool} {k : State → IsaRes} (h : Fits i wd use) (hm : more = true) :
    checked i wd use more u k = k u := by
  obtain ⟨legal, top⟩ := h
  simp [checked, legal, hm, Nat.not_lt.mpr top]

/-! ### The group after it (R148, R152) -/

/-- A group that has issued: its path, its issue counts and its place in the active set are other, all else stands. -/
def AfterIssue (g y : Group) : Prop :=
  y = { g with paths := y.paths, cur := y.cur, issues := y.issues, lastV := y.lastV, lastS := y.lastS, busy := y.busy, active := y.active,
               since := y.since, unable := y.unable }

theorem AfterIssue.trans {g y z : Group} (h1 : AfterIssue g y) (h2 : AfterIssue y z) : AfterIssue g z := by
  unfold AfterIssue at *; rw [h2, h1]

/-- An issue alone changes no register, predicate or flag of its group, and no lane's exec or exit. -/
theorem AfterIssue.kept {g y : Group} (h : AfterIssue g y) :
    y.sregs = g.sregs ∧ y.preds = g.preds ∧ y.exec = g.exec ∧ y.flags = g.flags ∧ y.exited = g.exited := by
  unfold AfterIssue at h; rw [h]; exact ⟨rfl, rfl, rfl, rfl, rfl⟩

theorem AlikeGroup.afterIssue {g y : Group} (h : AlikeGroup g y) : AfterIssue g y := by
  unfold AlikeGroup at h; unfold AfterIssue; rw [h]

theorem afterIssue_movePath (g : Group) (n pc : Nat) : AfterIssue g (movePath { g with issues := n } pc) := by
  unfold movePath AfterIssue
  split <;> rfl

/-- The only path of a group moves on. -/
theorem movePath_only {g : Group} {pc m n : Nat} (hp : g.paths = [.path pc m none none]) (hc : g.cur = 0) :
    (movePath g n).paths = [.path n m none none] := by
  simp [movePath, hp, hc, withTab, PathTab.arrive, lset]

/-- What an instruction that goes on from the state `v` leaves, where its group was `g`. -/
structure GoesOn (i : Issue) (wd : Wd) (v t : State) (g : Group) : Prop where
  only : CoresOnly i.d v t
  vrf : (getCores t i.d).vrf = (getCores v i.d).vrf
  tile : (getCores t i.d).tile = (getCores v i.d).tile
  near : (getCores t i.d).near = (getCores v i.d).near
  blocks : (getCores t i.d).blocks = (getCores v i.d).blocks
  dispatches : (getCores t i.d).dispatches = (getCores v i.d).dispatches
  others : ∀ k x, k ≠ i.gid → groupOf v i.d k = some x → ∃ y, groupOf t i.d k = some y ∧ AlikeGroup x y
  group : ∃ y, groupOf t i.d i.gid = some y ∧ AfterIssue g y ∧
    ∀ m, g.paths = [.path i.pc m none none] → g.cur = 0 → y.paths = [.path (i.pc + wdLen wd) m none none]

/-- The issue noted in its group. -/
def notedGroup (v : State) (i : Issue) (wd : Wd) (g : Group) : Group :=
  let n := (getCores v i.d).issueNo + 1
  { g with lastV := if onScalar wd.op then g.lastV else n, lastS := if onScalar wd.op then n else g.lastS,
           busy := max g.busy (v.now + cyclesNs (latencyOf wd)) }

theorem noteIssue_eq {wd : Wd} {g : Group} (hg : groupOf v i.d i.gid = some g) :
    noteIssue v i wd = setGroup (setCores v i.d { getCores v i.d with issueNo := (getCores v i.d).issueNo + 1 }) i.d i.gid
      (notedGroup v i wd g) := by
  have same : groupOf (setCores v i.d { getCores v i.d with issueNo := (getCores v i.d).issueNo + 1 }) i.d i.gid = some g := by
    simpa [groupOf] using hg
  exact updGroup_eq same _

theorem stepPath_leaves {len : Nat} {g : Group} (hg : groupOf v i.d i.gid = some g) :
    GroupsMoved i.d v (stepPath v i len) ∧
    (∀ k x, k ≠ i.gid → groupOf v i.d k = some x → ∃ y, groupOf (stepPath v i len) i.d k = some y ∧ AlikeGroup x y) ∧
    ∃ y, groupOf (stepPath v i len) i.d i.gid = some y ∧ AlikeGroup (movePath { g with issues := g.issues + 1 } (i.pc + len)) y := by
  generalize hy : movePath { g with issues := g.issues + 1 } (i.pc + len) = y
  have put := groupsMoved_setGroup v i.d i.gid y
  have other (k : Nat) (x : Group) (hk : k ≠ i.gid) (hx : groupOf v i.d k = some x) : groupOf (setGroup v i.d i.gid y) i.d k = some x :=
    (groupOf_setGroup_other v i.d y hk).trans hx
  simp only [stepPath, hg, hy]
  split
  · exact ⟨put, fun k x hk hx => ⟨x, other k x hk hx, .refl x⟩, y, groupOf_setGroup_same _ _ _ _, .refl y⟩
  · exact ⟨put.trans (groupsMoved_afterGroup _ i.d y), fun k x hk hx => alikeGroup_afterGroup _ i.d y (other k x hk hx),
      alikeGroup_afterGroup _ i.d y (groupOf_setGroup_same _ _ _ _)⟩

/-- An instruction that goes on. -/
theorem isaEnd_next {wd : Wd} {g : Group} (hg : groupOf v i.d i.gid = some g) : GoesOn i wd v (isaEnd s i wd (.next v)) g := by
  have counted : GroupsMoved i.d v (noteIssue v i wd) := by
    rw [noteIssue_eq hg]; simp [GroupsMoved, setGroup, setCores, getCores]
  have noted : groupOf (noteIssue v i wd) i.d i.gid = some (notedGroup v i wd g) := by rw [noteIssue_eq hg, groupOf_setGroup_same]
  have other (k : Nat) (x : Group) (hk : k ≠ i.gid) (hx : groupOf v i.d k = some x) : groupOf (noteIssue v i wd) i.d k = some x := by
    rw [noteIssue_eq hg, groupOf_setGroup_other _ _ _ hk]; simpa [groupOf] using hx
  obtain ⟨stepped, others, y, found, alike⟩ := stepPath_leaves (len := wdLen wd) noted
  have moved := counted.trans stepped
  refine ⟨moved.coresOnly.trans (coresOnly_useFree _ _), moved.vrf, moved.tile, moved.near, moved.blocks, moved.dispatches,
    fun k x hk hx => others k x hk (other k x hk hx), y, found, ?_, fun m hp hc => ?_⟩
  · exact (AfterIssue.trans (y := notedGroup v i wd g) rfl (afterIssue_movePath _ _ _)).trans alike.afterIssue
  · exact (congrArg Group.paths alike).trans (movePath_only (g := { notedGroup v i wd g with issues := _ }) hp hc)

end

end Sys2Proof.Machine
end
section
/-! PROOFS. Tile memory (R166 to R168, R223): bytes put into a block's allocation, the stores of a row's lanes, and its atomics in lane order. -/

namespace Sys2Proof.Machine

section
variable {d : DieId} {s t u : State} {i : Issue}

/-! ### The allocation's bytes -/

/-- A change of the tile memory of die `d` alone. -/
def TileMoved (d : DieId) (s t : State) : Prop := t = setCores s d { getCores s d with tile := (getCores t d).tile }

namespace TileMoved

theorem refl (d : DieId) (s : State) : TileMoved d s s := (setCores_getCores s d).symm

theorem trans (h1 : TileMoved d s t) (h2 : TileMoved d t u) : TileMoved d s u := by
  unfold TileMoved at *; rw [h2, h1]; simp [setCores, getCores]

theorem cores (h : TileMoved d s t) : getCores t d = { getCores s d with tile := (getCores t d).tile } :=
  (congrArg (getCores · d) h).trans (getCores_setCores s d _)

theorem coresOnly (h : TileMoved d s t) : CoresOnly d s t := by
  rw [TileMoved] at h; rw [h]; exact coresOnly_setCores d s _

theorem vrf (h : TileMoved d s t) : (getCores t d).vrf = (getCores s d).vrf := by rw [h.cores]

theorem groupOf (h : TileMoved d s t) (k : Nat) : groupOf t d k = groupOf s d k := by
  unfold Machine.groupOf; rw [h.cores]

end TileMoved

theorem tileMoved_tilePut (s : State) (i : Issue) (o : Nat) (bs : List Byte) : TileMoved i.d s (tilePut s i o bs) := by
  simp [TileMoved, tilePut]

theorem tileCell_add (i : Issue) (o k : Nat) : tileCell i (o + k) = tileCell i o + k := by
  simp only [tileCell, tileKey]; omega

theorem tileCell_inj {i : Issue} {o p : Nat} : tileCell i o = tileCell i p ↔ o = p := by
  simp only [tileCell, tileKey]; omega

/-- Byte `o` of the block's allocation. -/
def tileByte (s : State) (i : Issue) (o : Nat) : Byte := mget 0 (getCores s i.d).tile (tileCell i o)

theorem tilePut_wf {o : Nat} {bs : List Byte} (h : mwf 0 (getCores s i.d).tile = true) : mwf 0 (getCores (tilePut s i o bs) i.d).tile = true := by
  simp only [tilePut, getCores_setCores]; exact putCells_wf _ _ h

/-- Bytes put into tile memory leave every cell but theirs. -/
theorem tilePut_outside {o k : Nat} {bs : List Byte} (h : ∀ p, o ≤ p → p < o + bs.length → k ≠ tileCell i p) :
    mget 0 (getCores (tilePut s i o bs) i.d).tile k = mget 0 (getCores s i.d).tile k := by
  simp only [tilePut, getCores_setCores]
  refine putCells_other _ _ _ fun e he same => ?_
  have range := cellsAt_range _ _ e he
  refine h (o + (k - tileCell i o)) (by omega) (by omega) ?_
  rw [tileCell_add]; omega

theorem tileByte_tilePut_apart {o p : Nat} {bs : List Byte} (h : p < o ∨ o + bs.length ≤ p) :
    tileByte (tilePut s i o bs) i p = tileByte s i p :=
  tilePut_outside fun q h1 h2 same => by have := tileCell_inj.mp same; omega

theorem tileByte_tilePut_inside {o k : Nat} {bs : List Byte} (hm : mwf 0 (getCores s i.d).tile = true) (h : k < bs.length) :
    tileByte (tilePut s i o bs) i (o + k) = lget 0 bs k := by
  simp only [tileByte, tilePut, getCores_setCores, tileCell_add]
  rw [putCells_cellsAt _ _ _ _ h hm, lget_eq_getD, List.getD_eq_getElem _ _ h]

theorem tileRead_tilePut_apart {o p n : Nat} {bs : List Byte} (h : p + n ≤ o ∨ o + bs.length ≤ p) :
    tileRead (tilePut s i o bs) i p n = tileRead s i p n :=
  List.map_congr_left fun q hq => tileByte_tilePut_apart (by have := mem_countUp.mp hq; omega)

theorem tileRead_tilePut_same {o : Nat} {bs : List Byte} (hm : mwf 0 (getCores s i.d).tile = true) :
    tileRead (tilePut s i o bs) i o bs.length = bs := by
  refine List.ext_getElem (by simp [tileRead, countUp_eq_range']) fun k h1 h2 => ?_
  have byte := tileByte_tilePut_inside (o := o) hm h2
  rw [lget_eq_getD, List.getD_eq_getElem _ _ h2] at byte
  simpa [tileRead, countUp_eq_range', tileByte] using byte

theorem leNat_lt (l : List Byte) : leNat l < 256 ^ l.length := by
  induction l with
  | nil => simp [leNat]
  | cons b r ih =>
    have := b.isLt
    simp only [leNat, List.length_cons, Nat.pow_succ]; omega

theorem leNat_tileRead_lt (s : State) (i : Issue) (o : Nat) : leNat (tileRead s i o 4) < 2 ^ 32 := by
  simpa [tileRead, countUp_eq_range'] using leNat_lt (tileRead s i o 4)

/-! ### Stores of a row's lanes -/

section
variable {at_ : Nat → Nat} {data : Nat → List Byte} {ls : List Nat}

/-- The lanes' data stored in their order. -/
def tileStores (i : Issue) (at_ : Nat → Nat) (data : Nat → List Byte) (ls : List Nat) (s : State) : State :=
  ls.foldl (fun u l => tilePut u i (at_ l) (data l)) s

theorem tileMoved_tileStores (ls : List Nat) (s : State) : TileMoved i.d s (tileStores i at_ data ls s) := by
  induction ls generalizing s with
  | nil => exact .refl _ s
  | cons l r ih => exact (tileMoved_tilePut s i _ _).trans (ih _)

theorem tileStores_wf (h : mwf 0 (getCores s i.d).tile = true) : mwf 0 (getCores (tileStores i at_ data ls s) i.d).tile = true := by
  induction ls generalizing s with
  | nil => exact h
  | cons l r ih => exact ih (tilePut_wf h)

theorem tileStores_outside {k : Nat} (h : ∀ l ∈ ls, ∀ p, at_ l ≤ p → p < at_ l + (data l).length → k ≠ tileCell i p) :
    mget 0 (getCores (tileStores i at_ data ls s) i.d).tile k = mget 0 (getCores s i.d).tile k := by
  induction ls generalizing s with
  | nil => rfl
  | cons l r ih =>
    exact (ih fun m hm => h m (List.mem_cons_of_mem _ hm)).trans (tilePut_outside (h l List.mem_cons_self))

/-- A lane's bytes stand where no later lane's data lies over them. -/
theorem tileByte_tileStores {pre post : List Nat} {l k : Nat} (hm : mwf 0 (getCores s i.d).tile = true) (hk : k < (data l).length)
    (later : ∀ m ∈ post, at_ m + (data m).length ≤ at_ l + k ∨ at_ l + k < at_ m) :
    tileByte (tileStores i at_ data (pre ++ l :: post) s) i (at_ l + k) = lget 0 (data l) k := by
  rw [tileStores, List.foldl_append, List.foldl_cons]
  refine (tileStores_outside (ls := post) fun m hm p h1 h2 same => ?_).trans (tileByte_tilePut_inside (tileStores_wf (ls := pre) hm) hk)
  have := later m hm
  have := tileCell_inj.mp same
  omega

end

/-! ### Atomics of a row's lanes (R167) -/

/-- A tile atomic of a row: its operation, its destination, and each lane's offset and operands. -/
structure TileAtomic where
  op : Nat
  dst : Nat
  at_ : Nat → Nat
  b : Nat → Nat
  c : Nat → Nat

namespace TileAtomic

variable {x : TileAtomic} {ls : List Nat}

/-- What a lane makes of a word. -/
def new (x : TileAtomic) (old l : Nat) : Nat := atomicNew x.op 32 old (x.b l) (x.c l)

/-- The word at offset `o` once the lanes of `ls` that name it have acted. -/
def after (x : TileAtomic) (ls : List Nat) (o old : Nat) : Nat := (ls.filter (fun m => x.at_ m == o)).foldl x.new old

/-- One lane's turn: the state, the results, the flags. -/
def turn (x : TileAtomic) (i : Issue) (acc : State × List (Nat × Nat × W32) × Nat) (l : Nat) : State × List (Nat × Nat × W32) × Nat :=
  let old := leNat (tileRead acc.1 i (x.at_ l) 4)
  (tilePut acc.1 i (x.at_ l) (natLe 4 (x.new old l)), acc.2.1 ++ [(x.dst, l, BitVec.ofNat 32 old)], acc.2.2 ||| atomicFlags x.op old (x.b l))

/-- The lanes' turns. -/
def turns (x : TileAtomic) (i : Issue) (ls : List Nat) (s : State) : State × List (Nat × Nat × W32) × Nat := ls.foldl (x.turn i) (s, [], 0)

theorem turns_snoc (ls : List Nat) (l : Nat) : x.turns i (ls ++ [l]) s = x.turn i (x.turns i ls s) l := by
  simp [turns]

theorem after_snoc (ls : List Nat) (l o old : Nat) :
    x.after (ls ++ [l]) o old = if x.at_ l = o then x.new (x.after ls o old) l else x.after ls o old := by
  by_cases h : x.at_ l = o <;> simp [after, h]

theorem turns_tileMoved (ls : List Nat) (s : State) : TileMoved i.d s (x.turns i ls s).1 := by
  induction ls using List.reverseRecOn with
  | nil => exact .refl _ s
  | append_singleton r l ih => rw [turns_snoc]; exact ih.trans (tileMoved_tilePut _ i _ _)

theorem turns_wf (h : mwf 0 (getCores s i.d).tile = true) : mwf 0 (getCores (x.turns i ls s).1 i.d).tile = true := by
  induction ls using List.reverseRecOn with
  | nil => exact h
  | append_singleton r l ih => rw [turns_snoc]; exact tilePut_wf ih

theorem turns_outside {k : Nat} (h : ∀ l ∈ ls, ∀ p, x.at_ l ≤ p → p < x.at_ l + 4 → k ≠ tileCell i p) :
    mget 0 (getCores (x.turns i ls s).1 i.d).tile k = mget 0 (getCores s i.d).tile k := by
  induction ls using List.reverseRecOn with
  | nil => rfl
  | append_singleton r l ih =>
    rw [turns_snoc]
    refine (tilePut_outside fun p h1 h2 => ?_).trans (ih fun m hm => h m (List.mem_append_left _ hm))
    exact h l (by simp) p h1 (by simpa using h2)

/-- Each lane meets the word as the lanes before it have left it. -/
theorem turns_word (hm : mwf 0 (getCores s i.d).tile = true) (small : ∀ old l, old < 2 ^ 32 → x.new old l < 2 ^ 32)
    (aligned : ∀ l ∈ ls, x.at_ l % 4 = 0) {o : Nat} (ho : o % 4 = 0) :
    leNat (tileRead (x.turns i ls s).1 i o 4) = x.after ls o (leNat (tileRead s i o 4)) := by
  induction ls using List.reverseRecOn with
  | nil => rfl
  | append_singleton r l ih =>
    have before := ih fun m hm => aligned m (List.mem_append_left _ hm)
    have here := aligned l (by simp)
    rw [turns_snoc, after_snoc, ← before]
    split
    next same =>
      subst same
      have bytes := tileRead_tilePut_same (o := x.at_ l) (bs := natLe 4 (x.new (leNat (tileRead (x.turns i r s).1 i (x.at_ l) 4)) l))
        (turns_wf (x := x) (ls := r) hm)
      rw [natLe_length] at bytes
      exact (congrArg leNat bytes).trans ((leNat_natLe _ _).trans (Nat.mod_eq_of_lt (small _ _ (leNat_tileRead_lt _ _ _))))
    next other => exact congrArg leNat (tileRead_tilePut_apart (by rw [natLe_length]; omega))

/-- A lane's result is the word as the lanes before it have left it. -/
theorem turns_result {pre post : List Nat} {l : Nat} (hm : mwf 0 (getCores s i.d).tile = true)
    (small : ∀ old l, old < 2 ^ 32 → x.new old l < 2 ^ 32) (aligned : ∀ m ∈ pre ++ l :: post, x.at_ m % 4 = 0) :
    (x.dst, l, BitVec.ofNat 32 (x.after pre (x.at_ l) (leNat (tileRead s i (x.at_ l) 4)))) ∈ (x.turns i (pre ++ l :: post) s).2.1 := by
  induction post using List.reverseRecOn with
  | nil =>
    have word := turns_word (ls := pre) hm small (fun m hm => aligned m (by simp [hm])) (aligned l (by simp))
    rw [turns_snoc, ← word]
    exact List.mem_append_right _ (List.mem_singleton.mpr rfl)
  | append_singleton r a ih =>
    have split : pre ++ l :: (r ++ [a]) = (pre ++ l :: r) ++ [a] := by simp
    rw [split, turns_snoc]
    exact List.mem_append_left _ (ih fun m hm => aligned m (split ▸ List.mem_append_left _ hm))

/-- The results are one to a lane, in the lanes' order. -/
theorem turns_lanes (ls : List Nat) (s : State) : (x.turns i ls s).2.1.map (fun e => (e.1, e.2.1)) = ls.map (fun l => (x.dst, l)) := by
  induction ls using List.reverseRecOn with
  | nil => rfl
  | append_singleton r l ih => rw [turns_snoc]; simp [turn, ih]

/-- An operation that is no floating-point sum raises no flag. -/
theorem turns_flags (h : x.op ≠ 1) (ls : List Nat) (s : State) : (x.turns i ls s).2.2 = 0 := by
  induction ls using List.reverseRecOn with
  | nil => rfl
  | append_singleton r l ih => rw [turns_snoc]; simp [turn, ih, atomicFlags, h]

end TileAtomic

theorem atomicNew_lt {op old b c : Nat} (ho : old < 2 ^ 32) (hb : b < 2 ^ 32) (hc : c < 2 ^ 32) : atomicNew op 32 old b c < 2 ^ 32 := by
  unfold atomicNew; dsimp only
  split
  · exact Nat.mod_lt _ (by omega)
  · exact BitVec.isLt _
  · split <;> assumption
  · split <;> assumption
  · omega
  · omega
  · exact Nat.and_lt_two_pow _ hb
  · exact Nat.or_lt_two_pow ho hb
  · exact Nat.xor_lt_two_pow ho hb
  · exact hb
  · split <;> assumption

end

end Sys2Proof.Machine
end
section
/-! PROOFS. O32: the rows of tile memory. -/

namespace Sys2Proof.Machine

section
variable {s u : State} {r : GRef} {w e : W64} {i : Issue}

/-! ### Vector registers written (R202) -/

/-- A register's lane has a cell of its own. -/
theorem vreg_inj {a b l m : Nat} (hl : l < i.x.width) (hm : m < i.x.width) (h : vreg i a l = vreg i b m) : a = b ∧ l = m := by
  have same : a * i.x.width + l = b * i.x.width + m := by simp only [vreg, regKey, vrfKey] at h; omega
  have lanes : l = m := by
    have := congrArg (· % i.x.width) same
    simpa [Nat.mul_add_mod', Nat.mod_eq_of_lt hl, Nat.mod_eq_of_lt hm] using this
  subst lanes
  exact ⟨Nat.eq_of_mul_eq_mul_right (Nat.zero_lt_of_lt hl) (Nat.add_right_cancel same), rfl⟩

theorem actingLanes_lt {wd : Wd} {l : Nat} (h : l ∈ actingLanes i wd) : l < i.x.width := by
  have listed := mem_countUp.mp (List.mem_of_mem_filter (List.mem_of_mem_filter h))
  omega

theorem actingLanes_nodup (i : Issue) (wd : Wd) : (actingLanes i wd).Nodup := by
  refine List.Nodup.filter _ (List.Nodup.filter _ ?_)
  rw [countUp_eq_range']; exact List.nodup_range'

theorem writeV_eq {v : State} {g : Group} (hg : groupOf v i.d i.gid = some g) (ws : List (Nat × Nat × W32)) :
    writeV v i ws = setGroup (setCores v i.d { getCores v i.d with vrf := wordsPut i ws (getCores v i.d).vrf }) i.d i.gid
      (markGroup false (ws.map (fun x => (x.1, x.2.1))) g) := by
  have same : groupOf (setCores v i.d { getCores v i.d with vrf := wordsPut i ws (getCores v i.d).vrf }) i.d i.gid = some g := by
    simpa [groupOf] using hg
  unfold wordsPut at same
  simp only [writeV, same, wordsPut]

/-- What words written into vector registers leave. -/
theorem writeV_leaves {v : State} {g : Group} (hg : groupOf v i.d i.gid = some g) (ws : List (Nat × Nat × W32)) :
    CoresOnly i.d v (writeV v i ws) ∧
    getCores (writeV v i ws) i.d = { getCores v i.d with vrf := wordsPut i ws (getCores v i.d).vrf,
                                                         groups := (getCores (writeV v i ws) i.d).groups } ∧
    groupOf (writeV v i ws) i.d i.gid = some (markGroup false (ws.map (fun x => (x.1, x.2.1))) g) ∧
    ∀ k, k ≠ i.gid → groupOf (writeV v i ws) i.d k = groupOf v i.d k := by
  rw [writeV_eq hg]
  refine ⟨(coresOnly_setCores i.d v _).trans (groupsMoved_setGroup _ _ _ _).coresOnly, by simp [setGroup],
    groupOf_setGroup_same _ _ _ _, fun k hk => ?_⟩
  rw [groupOf_setGroup_other _ _ _ hk]; simp [groupOf]

/-! ### Rows of tile memory (R168, R223) -/

section
variable {row : Nat → Bool} {use : Wd → Use} {more : Wd → Bool} {k : Issue → Wd → List (Nat × Nat) → State → State}

/-- The lanes of a row with their offsets. -/
def tileLanes (u : State) (i : Issue) (wd : Wd) : List (Nat × Nat) := (actingLanes i wd).map (fun l => (l, tileAddr u i wd l))

variable (h : IssuesWord s r w e i u) (listed : opListed (wdOf w e).op = true) (own : row (wdOf w e).op = true)
  (fits : Fits i (wdOf w e) (use (wdOf w e))) (ok : more (wdOf w e) = true)
  (src : ¬ (srcScalar (wdOf w e) 0 = true ∧ (wdOf w e).s0 = 0x80))
include h listed own fits ok src

/-- The row's checks pass, and its lanes' offsets decide. -/
theorem tileRow_runs : tileRow row use more r w e s k = .next (isaEnd s i (wdOf w e)
    (match tileFault i (sizeBytes (fldN (wdOf w e).mod 4 2)) (tileLanes u i (wdOf w e)) with
      | some f => .fault f.1 0 f.2 u
      | none => .next (k i (wdOf w e) (tileLanes u i (wdOf w e)) u))) := by
  have passes : (more (wdOf w e) && !(srcScalar (wdOf w e) 0 && (wdOf w e).s0 == 0x80)) = true := by
    simpa [ok, or_iff_not_imp_left] using src
  rw [tileRow, h.runs listed own, checked_fits fits passes]
  rfl

/-- A row whose lanes' offsets lie in the allocation acts and goes on. -/
theorem tileRow_goes (sound : tileFault i (sizeBytes (fldN (wdOf w e).mod 4 2)) (tileLanes u i (wdOf w e)) = none) :
    tileRow row use more r w e s k = .next (isaEnd s i (wdOf w e) (.next (k i (wdOf w e) (tileLanes u i (wdOf w e)) u))) := by
  rw [tileRow_runs h listed own fits ok src, sound]

/-- A row with an offset beyond the allocation, or misaligned, is a core fault. -/
theorem tileRow_faults {f : Nat × Nat}
    (bad : tileFault i (sizeBytes (fldN (wdOf w e).mod 4 2)) (tileLanes u i (wdOf w e)) = some f) :
    tileRow row use more r w e s k = .next (useFree (coreFault u i.d i.gid f.1 0 f.2 none)) := by
  rw [tileRow_runs h listed own fits ok src, bad]
  rfl

end

theorem tileFault_none {bytes : Nat} {ls : List (Nat × Nat)} (h : tileFault i bytes ls = none) {p : Nat × Nat} (hp : p ∈ ls) :
    p.2 % bytes = 0 := by
  have here := List.findSome?_eq_none_iff.mp h p hp
  by_contra odd
  simp [odd] at here

/-- A group of a dispatch stores what it gives. -/
theorem tileWrite_dispatch (hg : i.x.geo = none) (v : State) (o : Nat) (bs : List Byte) : tileWrite v i o bs = tilePut v i o bs := by
  simp [tileWrite, hg]

/-! ### Loads -/

/-- The words that a tile load writes: register, lane, word. -/
def tileWords (u : State) (i : Issue) (wd : Wd) : List (Nat × Nat × W32) :=
  (tileLanes u i wd).flatMap (fun p => (countUp 0 (sizeRegs (fldN wd.mod 4 2))).map (fun k => (wd.dst + k, p.1,
    loadWord (sizeBytes (fldN wd.mod 4 2)) (wd.mod.testBit 5) (tileRead u i p.2 (sizeBytes (fldN wd.mod 4 2))) k)))

theorem mem_tileWords {wd : Wd} {x : Nat × Nat × W32} : x ∈ tileWords u i wd ↔ ∃ l ∈ actingLanes i wd, ∃ k < sizeRegs (fldN wd.mod 4 2),
    (wd.dst + k, l, loadWord (sizeBytes (fldN wd.mod 4 2)) (wd.mod.testBit 5)
      (tileRead u i (tileAddr u i wd l) (sizeBytes (fldN wd.mod 4 2))) k) = x := by
  simp [tileWords, tileLanes, mem_countUp]

theorem exec_tld (h : IssuesWord s r w e i u) (src : ¬ (srcScalar (wdOf w e) 0 = true ∧ (wdOf w e).s0 = 0x80)) (op : (wdOf w e).op = 0x1C0)
    (fits : Fits i (wdOf w e) { a := .reg 1, d := .v (sizeRegs (fldN (wdOf w e).mod 4 2)), mods := 0x3C })
    (size : fldN (wdOf w e).mod 4 2 ≤ 4) (signs : (wdOf w e).mod.testBit 5 = true → fldN (wdOf w e).mod 4 2 ≤ 1) :
    (tileFault i (sizeBytes (fldN (wdOf w e).mod 4 2)) (tileLanes u i (wdOf w e)) = none →
      exec (.tld r w e) s = .next (isaEnd s i (wdOf w e) (.next (writeV u i (tileWords u i (wdOf w e)))))) ∧
    ∀ f, tileFault i (sizeBytes (fldN (wdOf w e).mod 4 2)) (tileLanes u i (wdOf w e)) = some f →
      exec (.tld r w e) s = .next (useFree (coreFault u i.d i.gid f.1 0 f.2 none)) := by
  have listed : opListed (wdOf w e).op = true := by rw [op]; decide
  have own : ((wdOf w e).op == 0x1C0) = true := by rw [op]; rfl
  have sizes : (decide (fldN (wdOf w e).mod 4 2 ≤ 4) && (!(wdOf w e).mod.testBit 5 || decide (fldN (wdOf w e).mod 4 2 ≤ 1))) = true := by
    simpa [size, or_iff_not_imp_left] using signs
  change (_ → execTld r w e s = _) ∧ ∀ f, _ → execTld r w e s = _
  unfold execTld
  refine ⟨fun sound => ?_, fun f bad => tileRow_faults h listed own fits sizes src bad⟩
  rw [tileRow_goes h listed own fits sizes src sound]
  rfl

/-- A tile load writes the acting lanes' registers and goes on. -/
theorem tileLoad_goes {wd : Wd} (hg : groupOf u i.d i.gid = some i.g) (hm : mwf 0 (getCores u i.d).vrf = true)
    (hc : ∀ p, i.g.paths = [p] → i.g.cur = 0) :
    let t := isaEnd s i wd (.next (writeV u i (tileWords u i wd)))
    (∀ l ∈ actingLanes i wd, ∀ k, k < sizeRegs (fldN wd.mod 4 2) → mget 0 (getCores t i.d).vrf (vreg i (wd.dst + k) l) =
      loadWord (sizeBytes (fldN wd.mod 4 2)) (wd.mod.testBit 5) (tileRead u i (tileAddr u i wd l) (sizeBytes (fldN wd.mod 4 2))) k) ∧
    (∀ k, (∀ l ∈ actingLanes i wd, ∀ j, j < sizeRegs (fldN wd.mod 4 2) → k ≠ vreg i (wd.dst + j) l) →
      mget 0 (getCores t i.d).vrf k = mget 0 (getCores u i.d).vrf k) ∧
    GroupStep i wd u t 0 (fun g => g.sregs = i.g.sregs ∧ g.preds = i.g.preds ∧ g.exec = i.g.exec) := by
  obtain ⟨only, cores, group, others⟩ := writeV_leaves hg (tileWords u i wd)
  have goes := isaEnd_next (s := s) (wd := wd) group
  obtain ⟨y, found, after, path⟩ := goes.group
  obtain ⟨sregs, preds, exec, flags, exited⟩ := after.kept
  have vrf := goes.vrf.trans (congrArg Cores.vrf cores)
  dsimp only
  rw [vrf]
  refine ⟨fun l hl k hk => ?_, fun k hk => ?_, only.trans goes.only, goes.tile.trans (by rw [cores]),
    goes.near.trans (by rw [cores]), goes.blocks.trans (by rw [cores]),
    goes.dispatches.trans (by rw [cores]), fun k g hk hg' => ?_, y, found,
    flags.trans (Nat.or_zero _).symm, exited, fun m hp => path m hp (hc _ hp), sregs, preds, exec⟩
  · refine wordsPut_agreeing hm (fun x hx same => ?_) ⟨_, mem_tileWords.mpr ⟨l, hl, k, hk, rfl⟩, rfl⟩
    obtain ⟨m, hm', j, -, rfl⟩ := mem_tileWords.mp hx
    obtain ⟨regs, rfl⟩ := vreg_inj (actingLanes_lt hm') (actingLanes_lt hl) same
    rw [Nat.add_left_cancel regs]
  · refine wordsPut_other fun x hx => ?_
    obtain ⟨l, hl, j, hj, rfl⟩ := mem_tileWords.mp hx
    exact hk l hl j hj
  · obtain ⟨z, there, alike⟩ := goes.others k g hk ((others k hk).trans hg')
    refine ⟨z, there, ?_⟩
    unfold AlikeGroup at alike; rw [alike]

/-! ### Stores -/

/-- What an instruction that has changed tile memory alone leaves. -/
theorem tileMoved_goes {wd : Wd} {v : State} (hg : groupOf u i.d i.gid = some i.g) (moved : TileMoved i.d u v) :
    let t := isaEnd s i wd (.next v)
    CoresOnly i.d u t ∧ (getCores t i.d).vrf = (getCores u i.d).vrf ∧ (getCores t i.d).tile = (getCores v i.d).tile ∧
      ∃ g, groupOf t i.d i.gid = some g ∧ g.sregs = i.g.sregs ∧ g.preds = i.g.preds ∧ g.flags = i.g.flags := by
  have goes := isaEnd_next (s := s) (wd := wd) ((moved.groupOf i.gid).trans hg)
  obtain ⟨y, found, after, -⟩ := goes.group
  obtain ⟨sregs, preds, -, flags, -⟩ := after.kept
  exact ⟨moved.coresOnly.trans goes.only, goes.vrf.trans moved.vrf, goes.tile, y, found, sregs, preds, flags⟩

/-- The bytes that a lane of a tile store gives: its data, or with BLEND what the spec leaves open outside a fragment group (R261). -/
def tileData (u : State) (i : Issue) (wd : Wd) (l : Nat) : List Byte :=
  if wd.mod.testBit 6 then (countUp 0 (sizeBytes (fldN wd.mod 4 2))).map (fun k => Config.freeByte u.freeCtr (l * 16 + k))
  else dataBytes u i wd 2 (fldN wd.mod 4 2) l

theorem sizeBytes_le {size : Nat} : sizeBytes size ≤ 4 * sizeRegs size := by
  unfold sizeBytes sizeRegs
  split
  · have := Nat.pow_le_pow_right (show 0 < 2 by omega) (show size ≤ 2 by assumption)
    omega
  · have : 2 ^ size = 2 ^ 2 * 2 ^ (size - 2) := by rw [← Nat.pow_add]; congr 1; omega
    omega

theorem dataBytes_length (u : State) (i : Issue) (wd : Wd) (k size l : Nat) : (dataBytes u i wd k size l).length = sizeBytes size := by
  have words : ((countUp 0 (sizeRegs size)).flatMap (fun r => natLe 4 (operand u i wd k r l).toNat)).length = 4 * sizeRegs size := by
    simp [List.length_flatMap, countUp_eq_range', Nat.mul_comm]
  rw [dataBytes, List.length_take, words, Nat.min_eq_left sizeBytes_le]

theorem tileData_length (u : State) (i : Issue) (wd : Wd) (l : Nat) : (tileData u i wd l).length = sizeBytes (fldN wd.mod 4 2) := by
  unfold tileData
  split
  · simp [countUp_eq_range']
  · exact dataBytes_length _ _ _ _ _ _

/-- `tst` in a group of a dispatch stores the data of its lanes. -/
theorem exec_tst_goes (h : IssuesWord s r w e i u) (geo : i.x.geo = none) (src : ¬ (srcScalar (wdOf w e) 0 = true ∧ (wdOf w e).s0 = 0x80))
    (op : (wdOf w e).op = 0x1C1)
    (fits : Fits i (wdOf w e) { a := .reg 1, c := .reg (sizeRegs (fldN (wdOf w e).mod 4 2)), mods := 0x5C })
    (size : fldN (wdOf w e).mod 4 2 ≤ 4)
    (sound : tileFault i (sizeBytes (fldN (wdOf w e).mod 4 2)) (tileLanes u i (wdOf w e)) = none) :
    exec (.tst r w e) s = .next (isaEnd s i (wdOf w e)
      (.next (tileStores i (tileAddr u i (wdOf w e)) (tileData u i (wdOf w e)) (actingLanes i (wdOf w e)) u))) := by
  have listed : opListed (wdOf w e).op = true := by rw [op]; decide
  have own : ((wdOf w e).op == 0x1C1) = true := by rw [op]; rfl
  change execTst r w e s = _
  unfold execTst
  rw [tileRow_goes h listed own fits (by simpa using size) src sound]
  simp only [tileLanes, List.foldl_map, geo, tileWrite_dispatch geo, tileStores, tileData]
  cases (wdOf w e).mod.testBit 6 <;> rfl

/-! ### Atomics -/

/-- The atomic `op` (Table 8.13) of a word, with each lane's offset and operands as the registers stand. -/
def tileAtomic (u : State) (i : Issue) (wd : Wd) (op : Nat) : TileAtomic :=
  { op := op, dst := wd.dst, at_ := tileAddr u i wd, b := fun l => (operand u i wd 1 0 l).toNat, c := fun l => (operand u i wd 2 0 l).toNat }

theorem tileAtomic_small (u : State) (i : Issue) (wd : Wd) (op : Nat) {old : Nat} (l : Nat) (h : old < 2 ^ 32) :
    (tileAtomic u i wd op).new old l < 2 ^ 32 := atomicNew_lt h (BitVec.isLt _) (BitVec.isLt _)

/-- The state once a tile atomic's lanes have acted and its results stand in the registers. -/
def tileAtomicDone (x : TileAtomic) (i : Issue) (wd : Wd) (u : State) : State :=
  let acts := x.turns i (actingLanes i wd) u
  updGroup (writeV acts.1 i acts.2.1) i (fun g => raiseFlags g acts.2.2)

theorem tatomRow_goes {row : Nat → Bool} {cas : Bool} {n code : Nat} (h : IssuesWord s r w e i u) (geo : i.x.geo = none)
    (src : ¬ (srcScalar (wdOf w e) 0 = true ∧ (wdOf w e).s0 = 0x80)) (op : (wdOf w e).op = n) (listed : opListed n = true) (own : row n = true)
    (coded : tatomOp n = code)
    (fits : Fits i (wdOf w e) { a := .reg 1, b := .reg 1, c := if cas then .reg 1 else .no, d := .v 1, mods := 0x1C })
    (size : fldN (wdOf w e).mod 4 2 = 2) (sound : tileFault i 4 (tileLanes u i (wdOf w e)) = none) :
    tatomRow row cas r w e s =
      .next (isaEnd s i (wdOf w e) (.next (tileAtomicDone (tileAtomic u i (wdOf w e) code) i (wdOf w e) u))) := by
  refine (tileRow_goes h (by rw [op]; exact listed) (by rw [op]; exact own) fits (by simp [size]) src (by rw [size]; exact sound)).trans ?_
  simp only [tileLanes, List.foldl_map, tileWrite_dispatch geo, op, coded]
  rfl

section
variable {x : TileAtomic} {wd : Wd}

theorem tileAtomicDone_leaves (hg : groupOf u i.d i.gid = some i.g) :
    let acts := x.turns i (actingLanes i wd) u
    let v := tileAtomicDone x i wd u
    CoresOnly i.d u v ∧ (getCores v i.d).vrf = wordsPut i acts.2.1 (getCores u i.d).vrf ∧
      (getCores v i.d).tile = (getCores acts.1 i.d).tile ∧
      groupOf v i.d i.gid = some (raiseFlags (markGroup false (acts.2.1.map (fun y => (y.1, y.2.1))) i.g) acts.2.2) := by
  intro acts v
  have moved : TileMoved i.d u acts.1 := TileAtomic.turns_tileMoved _ _
  obtain ⟨only, cores, group, -⟩ := writeV_leaves ((moved.groupOf i.gid).trans hg) acts.2.1
  have done : v = setGroup (writeV acts.1 i acts.2.1) i.d i.gid _ := updGroup_eq group _
  have raised : GroupsMoved i.d (writeV acts.1 i acts.2.1) v := done ▸ groupsMoved_setGroup _ _ _ _
  refine ⟨(moved.coresOnly.trans only).trans raised.coresOnly, ?_, raised.tile.trans (by rw [cores]), done ▸ groupOf_setGroup_same _ _ _ _⟩
  exact raised.vrf.trans ((congrArg Cores.vrf cores).trans (congrArg (wordsPut i acts.2.1) moved.vrf))

/-- A lane's result is the only word that reaches its register. -/
theorem tileAtomic_result {pre post : List Nat} {l : Nat} (hv : mwf 0 (getCores u i.d).vrf = true)
    (ht : mwf 0 (getCores u i.d).tile = true) (small : ∀ old l, old < 2 ^ 32 → x.new old l < 2 ^ 32)
    (aligned : ∀ m ∈ actingLanes i wd, x.at_ m % 4 = 0) (split : actingLanes i wd = pre ++ l :: post) :
    mget 0 (wordsPut i (x.turns i (actingLanes i wd) u).2.1 (getCores u i.d).vrf) (vreg i x.dst l) =
      BitVec.ofNat 32 (x.after pre (x.at_ l) (leNat (tileRead u i (x.at_ l) 4))) := by
  have lanes := TileAtomic.turns_lanes (x := x) (i := i) (actingLanes i wd) u
  have result := TileAtomic.turns_result (i := i) (s := u) ht small (split ▸ aligned)
  rw [← split] at result
  have once : ((x.turns i (actingLanes i wd) u).2.1.map (fun z => (z.1, z.2.1))).Nodup := by
    rw [lanes]
    exact (actingLanes_nodup i wd).map fun a b same => congrArg Prod.snd same
  refine wordsPut_agreeing hv (fun z hz same => ?_) ⟨_, result, rfl⟩
  obtain ⟨m, hm, here⟩ := List.mem_map.mp (lanes ▸ List.mem_map_of_mem hz)
  obtain ⟨rd, lane⟩ := Prod.mk.inj here
  obtain ⟨-, same⟩ := vreg_inj (actingLanes_lt (lane ▸ hm)) (actingLanes_lt (split ▸ List.mem_append_right _ List.mem_cons_self)) same
  have alike := List.inj_on_of_nodup_map once hz result (Prod.ext rd.symm same)
  rw [alike]

theorem tileAtomic_otherRegs {k : Nat} (h : ∀ l ∈ actingLanes i wd, k ≠ vreg i x.dst l) (m : Map W32) :
    mget 0 (wordsPut i (x.turns i (actingLanes i wd) u).2.1 m) k = mget 0 m k := by
  refine wordsPut_other fun z hz => ?_
  obtain ⟨l, hl, here⟩ := List.mem_map.mp ((TileAtomic.turns_lanes (x := x) (i := i) (actingLanes i wd) u) ▸ List.mem_map_of_mem hz)
  obtain ⟨rd, lane⟩ := Prod.mk.inj here
  rw [← rd, ← lane]; exact h l hl

/-- What a tile atomic leaves. -/
theorem tileAtomic_goes (hg : groupOf u i.d i.gid = some i.g) (hv : mwf 0 (getCores u i.d).vrf = true)
    (ht : mwf 0 (getCores u i.d).tile = true) (small : ∀ old l, old < 2 ^ 32 → x.new old l < 2 ^ 32)
    (aligned : ∀ l ∈ actingLanes i wd, x.at_ l % 4 = 0) :
    let t := isaEnd s i wd (.next (tileAtomicDone x i wd u))
    (∀ pre l post, actingLanes i wd = pre ++ l :: post → mget 0 (getCores t i.d).vrf (vreg i x.dst l) =
      BitVec.ofNat 32 (x.after pre (x.at_ l) (leNat (tileRead u i (x.at_ l) 4)))) ∧
    (∀ l ∈ actingLanes i wd, leNat (tileRead t i (x.at_ l) 4) = x.after (actingLanes i wd) (x.at_ l) (leNat (tileRead u i (x.at_ l) 4))) ∧
    CoresOnly i.d u t ∧
    (∀ k, (∀ o, (∃ l ∈ actingLanes i wd, x.at_ l ≤ o ∧ o < x.at_ l + 4) → k ≠ tileCell i o) →
      mget 0 (getCores t i.d).tile k = mget 0 (getCores u i.d).tile k) ∧
    (∀ k, (∀ l ∈ actingLanes i wd, k ≠ vreg i x.dst l) → mget 0 (getCores t i.d).vrf k = mget 0 (getCores u i.d).vrf k) ∧
    ∃ g, groupOf t i.d i.gid = some g ∧ g.sregs = i.g.sregs ∧ g.preds = i.g.preds ∧ (x.op ≠ 1 → g.flags = i.g.flags) := by
  obtain ⟨only, vrf, tile, group⟩ := tileAtomicDone_leaves (x := x) (wd := wd) hg
  have goes := isaEnd_next (s := s) (wd := wd) group
  obtain ⟨y, found, after, -⟩ := goes.group
  obtain ⟨sregs, preds, -, flags, -⟩ := after.kept
  have words := goes.vrf.trans vrf
  have bytes := goes.tile.trans tile
  have read (o : Nat) : tileRead (isaEnd s i wd (.next (tileAtomicDone x i wd u))) i o 4 =
      tileRead (x.turns i (actingLanes i wd) u).1 i o 4 := by unfold tileRead; rw [bytes]
  dsimp only
  rw [words, bytes]
  refine ⟨fun pre l post split => tileAtomic_result hv ht small aligned split, fun l hl => ?_, only.trans goes.only, fun k hk => ?_,
    fun k hk => tileAtomic_otherRegs hk _, y, found, sregs, preds, fun sum => ?_⟩
  · rw [read]; exact TileAtomic.turns_word ht small aligned (aligned l hl)
  · exact TileAtomic.turns_outside fun l hl p h1 h2 => hk p ⟨l, hl, h1, h2⟩
  · rw [TileAtomic.turns_flags sum] at flags
    exact flags.trans (Nat.or_zero _)

end

/-- The opcodes of the integer tile atomics but for the exchanges. -/
def tatomIntRow (o : Nat) : Bool := (decide (0x1C2 ≤ o) && decide (o ≤ 0x1C7)) || o == 0x1CB || o == 0x1CC

/-- The rows of the tile atomics: each opcode's row, and its operation in the coding of Table 8.13. -/
theorem tatomRows (r : GRef) (w e : W64) (s : State) :
    ∀ x ∈ [(Instr.tatomInt r w e, (0x1C2 : Nat), false, (0 : Nat)), (.tatomInt r w e, 0x1C3, false, 4), (.tatomInt r w e, 0x1C4, false, 5),
        (.tatomInt r w e, 0x1C5, false, 6), (.tatomInt r w e, 0x1C6, false, 7), (.tatomInt r w e, 0x1C7, false, 8),
        (.tatomInt r w e, 0x1CB, false, 2), (.tatomInt r w e, 0x1CC, false, 3), (.tatomExch r w e, 0x1C8, false, 9),
        (.tatomCas r w e, 0x1C9, true, 10), (.tatomAddF32 r w e, 0x1CA, false, 1)],
      ∃ row : Nat → Bool, exec x.1 s = tatomRow row x.2.2.1 r w e s ∧ opListed x.2.1 = true ∧ row x.2.1 = true ∧ tatomOp x.2.1 = x.2.2.2 := by
  simp only [List.forall_mem_cons]
  exact ⟨⟨tatomIntRow, rfl, by decide⟩, ⟨tatomIntRow, rfl, by decide⟩, ⟨tatomIntRow, rfl, by decide⟩, ⟨tatomIntRow, rfl, by decide⟩,
    ⟨tatomIntRow, rfl, by decide⟩, ⟨tatomIntRow, rfl, by decide⟩, ⟨tatomIntRow, rfl, by decide⟩, ⟨tatomIntRow, rfl, by decide⟩,
    ⟨(· == 0x1C8), rfl, by decide⟩, ⟨(· == 0x1C9), rfl, by decide⟩, ⟨(· == 0x1CA), rfl, by decide⟩, fun _ h => absurd h List.not_mem_nil⟩

end

end Sys2Proof.Machine

namespace Sys2Proof

open Machine

/-- Settles O32. A row whose lanes' offsets pass acts on tile memory at once: a load's words are written at cells that no two lanes share, a
store's bytes stand where no later lane's lie over them, and an atomic's lanes meet the word as the lanes before them have left it, by
induction over the lanes from the last. -/
theorem tileMemoryInstructions : Obligations.TileMemoryInstructions := by
  unfold Obligations.TileMemoryInstructions
  intro s u r w e i issues canonical tile geo wd size n at_ byte others src
  obtain ⟨vrf, -⟩ := canonical
  refine ⟨fun op fits small signs => ⟨fun sound => ?_, fun f bad => ?_⟩, fun op fits small sound => ?_,
    fun x hx op fits two sound => ?_⟩
  · exact ⟨_, (exec_tld issues src op fits small signs).1 sound, tileLoad_goes issues.group vrf fun p hp => issues.current hp⟩
  · exact ⟨_, (exec_tld issues src op fits small signs).2 f bad, rfl⟩
  · obtain ⟨only, regs, bytes, group⟩ := tileMoved_goes (s := s) (wd := wd) issues.group
      (tileMoved_tileStores (at_ := at_) (data := tileData u i wd) _ u)
    have length (l : Nat) : (tileData u i wd l).length = n := tileData_length u i wd l
    refine ⟨_, exec_tst_goes issues geo src op fits small sound, only, regs, fun k hk => ?_, fun plain pre l post split apart k hk => ?_, group⟩
    · rw [bytes]
      exact tileStores_outside fun l hl p h1 h2 => hk p ⟨l, hl, h1, length l ▸ h2⟩
    · have data : tileData u i wd l = dataBytes u i wd 2 size l := by simp [tileData, plain, size]
      have stored := tileByte_tileStores (at_ := at_) (data := tileData u i wd) (pre := pre) tile (length l ▸ hk)
        (fun m (hm : m ∈ post) => by have := apart m hm; rw [length]; omega)
      rw [← split, data] at stored
      exact (congrArg (mget 0 · (tileCell i (at_ l + k))) bytes).trans stored
  · obtain ⟨row, run, listed, own, coded⟩ := tatomRows r w e s x hx
    refine ⟨_, run.trans (tatomRow_goes issues geo src op listed own coded fits two sound),
      tileAtomic_goes issues.group vrf tile (fun old l => tileAtomic_small u i wd x.2.2.2 l) fun l hl => ?_⟩
    exact tileFault_none sound (List.mem_map_of_mem hl)

end Sys2Proof
end
section
/-! PROOFS. Vector instructions that write a register in lanes and raise flags (R173, R207). -/

namespace Sys2Proof.Machine

section
variable {s u : State} {r : GRef} {w e : W64} {i : Issue}

/-- An instruction that has written vector registers and raised flags changes no scalar register, predicate or exec bit as it goes on. -/
theorem wordsWritten_goes (h : IssuesWord s r w e i u) (ws : List (Nat × Nat × W32)) (fl : Nat) :
    let t := isaEnd s i (wdOf w e) (.next (updGroup (writeV u i ws) i (fun g => raiseFlags g fl)))
    (getCores t i.d).vrf = wordsPut i ws (getCores u i.d).vrf ∧
      GroupStep i (wdOf w e) u t fl (fun g => g.sregs = i.g.sregs ∧ g.preds = i.g.preds ∧ g.exec = i.g.exec) := by
  obtain ⟨only, cores, group, others⟩ := writeV_leaves h.group ws
  have raised := groupsMoved_setGroup (writeV u i ws) i.d i.gid (raiseFlags (markGroup false (ws.map (fun x => (x.1, x.2.1))) i.g) fl)
  rw [updGroup_eq group]
  have goes := isaEnd_next (s := s) (wd := wdOf w e) (groupOf_setGroup_same (writeV u i ws) i.d i.gid
    (raiseFlags (markGroup false (ws.map (fun x => (x.1, x.2.1))) i.g) fl))
  obtain ⟨y, found, after, path⟩ := goes.group
  obtain ⟨sregs, preds, exec, flags, exited⟩ := after.kept
  refine ⟨goes.vrf.trans (raised.vrf.trans (by rw [cores])), (only.trans raised.coresOnly).trans goes.only,
    goes.tile.trans (raised.tile.trans (by rw [cores])), goes.near.trans (raised.near.trans (by rw [cores])),
    goes.blocks.trans (raised.blocks.trans (by rw [cores])), goes.dispatches.trans (raised.dispatches.trans (by rw [cores])),
    fun k g hk hg => ?_, y, found, flags, exited, fun m hp => path m hp (h.current hp), sregs, preds, exec⟩
  obtain ⟨z, there, alike⟩ := goes.others k g hk ((groupOf_setGroup_other _ _ _ hk).trans ((others k hk).trans hg))
  refine ⟨z, there, ?_⟩
  unfold AlikeGroup at alike; rw [alike]

/-- The words that a vector instruction writes into DST. -/
def laneWords (i : Issue) (wd : Wd) (f : Nat → FRes) : List (Nat × Nat × W32) := (actingLanes i wd).map (fun l => (wd.dst, l, (f l).v))

theorem vecWrite_fits {wd : Wd} {use : Use} (fits : Fits i wd use) (f : Nat → FRes) :
    vecWrite i wd use f u = .next (updGroup (writeV u i (laneWords i wd f)) i
      (fun g => raiseFlags g (joinFlags ((actingLanes i wd).map f)))) := by
  rw [vecWrite, checked_fits fits rfl]
  simp [laneWords, Function.comp_def]

/-- Each acting lane's result stands in its register alone. -/
theorem vecWrite_result {use : Use} (h : IssuesWord s r w e i u) (canonical : Canonical i u) (fits : Fits i (wdOf w e) use)
    (f : Nat → FRes) :
    VectorResult i (wdOf w e) u (isaEnd s i (wdOf w e) (vecWrite i (wdOf w e) use f u)) f := by
  rw [vecWrite_fits fits]
  obtain ⟨vrf, group⟩ := wordsWritten_goes h (laneWords i (wdOf w e) f) (joinFlags ((actingLanes i (wdOf w e)).map f))
  refine ⟨fun l hl => ?_, fun k hk => ?_, group⟩
  · rw [vrf]
    refine wordsPut_agreeing canonical.1 (fun x hx same => ?_) ⟨_, List.mem_map_of_mem hl, rfl⟩
    obtain ⟨m, hm, rfl⟩ := List.mem_map.mp hx
    rw [(vreg_inj (actingLanes_lt hm) (actingLanes_lt hl) same).2]
  · rw [vrf]
    refine wordsPut_other fun x hx => ?_
    obtain ⟨l, hl, rfl⟩ := List.mem_map.mp hx
    exact hk l hl

/-- A vector row whose opcode a word has answers with the result of each acting lane. -/
theorem vectorRow_answers {c : Instr} {row : Nat → Bool} {use : Use} {f : Nat → FRes} {k : Issue → Wd → State → IsaRes}
    (issues : IssuesWord s r w e i u) (canonical : Canonical i u) (run : exec c s = runIsa row r w e s k)
    (listed : opListed (wdOf w e).op = true) (own : row (wdOf w e).op = true) (fits : Fits i (wdOf w e) use)
    (writes : k i (wdOf w e) u = vecWrite i (wdOf w e) use f u) : Answers c s fun t => VectorResult i (wdOf w e) u t f :=
  ⟨_, run.trans (issues.runs listed own), writes ▸ vecWrite_result issues canonical fits f⟩

/-- Command `c` goes through the runner `run` as a row that has opcode `n`. -/
def RowOf (run : (Nat → Bool) → GRef → W64 → W64 → State → Host.Outcome State Fault Refusal) (r : GRef) (w e : W64) (s : State) (c : Instr)
    (n : Nat) : Prop := opListed n = true ∧ ∃ row : Nat → Bool, exec c s = run row r w e s ∧ row n = true

/-- A row of one opcode. -/
theorem RowOf.single {run : (Nat → Bool) → GRef → W64 → W64 → State → Host.Outcome State Fault Refusal} {c : Instr} {n : Nat}
    (listed : opListed n = true) (runs : exec c s = run (· == n) r w e s) : RowOf run r w e s c n :=
  ⟨listed, (· == n), runs, beq_self_eq_true n⟩

theorem rowOf_mulhi {n : Nat} (h : n = 0x44 ∨ n = 0x45) : RowOf vecI r w e s (.mulhi r w e) n :=
  ⟨by rcases h with rfl | rfl <;> decide, fun o => o == 0x44 || o == 0x45, rfl, by simpa using h⟩

theorem rowOf_minMaxInt {n : Nat} (h : 0x46 ≤ n ∧ n ≤ 0x49) : RowOf vecI r w e s (.minMaxInt r w e) n :=
  ⟨by simp [opListed]; omega, fun o => decide (0x46 ≤ o) && decide (o ≤ 0x49), rfl, by simpa using h⟩

theorem rowOf_shr {n : Nat} (h : n = 0x4F ∨ n = 0x50) : RowOf vecI r w e s (.shr r w e) n :=
  ⟨by rcases h with rfl | rfl <;> decide, fun o => o == 0x4F || o == 0x50, rfl, by simpa using h⟩

section
variable (issues : IssuesWord s r w e i u) (canonical : Canonical i u)
include issues canonical

/-- Rows of the FP32 ALU: command, opcode, function. -/
theorem floatRows_answer {rows : List (Instr × Nat × (W32 → W32 → W32 → FRes))}
    (h : ∀ x ∈ rows, RowOf vecF r w e s x.1 x.2.1 ∧ ∀ a b c, aluF x.2.1 (wdOf w e).strict a b c = x.2.2 a b c) :
    ∀ x ∈ rows, (wdOf w e).op = x.2.1 → Fits i (wdOf w e) (aluUse (aluSrcs (wdOf w e).op) (.v 1) true) → Answers x.1 s fun t =>
      VectorResult i (wdOf w e) u t
        (fun l => x.2.2 (fOperand u i (wdOf w e) 0 l) (fOperand u i (wdOf w e) 1 l) (fOperand u i (wdOf w e) 2 l)) := by
  intro x hx op fits
  obtain ⟨⟨listed, row, run, own⟩, same⟩ := h x hx
  simp only [← same, ← op] at listed own ⊢
  exact vectorRow_answers issues canonical run listed own fits rfl

/-- Rows of the special functions. -/
theorem specialRows_answer {rows : List (Instr × Nat × (W32 → W32 → FRes))}
    (h : ∀ x ∈ rows, RowOf vecS r w e s x.1 x.2.1 ∧ ∀ a b, specialF x.2.1 (wdOf w e).strict a b = x.2.2 a b) :
    ∀ x ∈ rows, (wdOf w e).op = x.2.1 → Fits i (wdOf w e) (aluUse (if (wdOf w e).op = 0x147 then 2 else 1) (.v 1) true) →
      Answers x.1 s fun t =>
        VectorResult i (wdOf w e) u t (fun l => x.2.2 (fOperand u i (wdOf w e) 0 l) (fOperand u i (wdOf w e) 1 l)) := by
  intro x hx op fits
  obtain ⟨⟨listed, row, run, own⟩, same⟩ := h x hx
  simp only [← same, ← op] at listed own ⊢
  exact vectorRow_answers issues canonical run listed own fits rfl

/-- Rows of the integer ALU. -/
theorem integerRows_answer {rows : List (Instr × Nat × (W32 → W32 → W32 → W32))}
    (h : ∀ x ∈ rows, RowOf vecI r w e s x.1 x.2.1 ∧ ∀ a b c, aluI x.2.1 a b c = x.2.2 a b c) :
    ∀ x ∈ rows, (wdOf w e).op = x.2.1 → Fits i (wdOf w e) (aluUse (aluSrcs (wdOf w e).op) (.v 1) false) → Answers x.1 s fun t =>
      VectorResult i (wdOf w e) u t
        (fun l => ⟨x.2.2 (operand u i (wdOf w e) 0 0 l) (operand u i (wdOf w e) 1 0 l) (operand u i (wdOf w e) 2 0 l), 0⟩) := by
  intro x hx op fits
  obtain ⟨⟨listed, row, run, own⟩, same⟩ := h x hx
  simp only [← same, ← op] at listed own ⊢
  exact vectorRow_answers issues canonical run listed own fits rfl

end

end

/-! ### The integer functions as the statement writes them (R183) -/

theorem popcount_eq_length (n x : Nat) : popcount n x = ((countUp 0 n).filter (fun k => x.testBit k)).length := by
  induction n generalizing x with
  | zero => rfl
  | succ n ih =>
    have rest : countUp 1 n = (countUp 0 n).map (· + 1) := by simp [countUp_eq_range', List.range'_eq_map_range, Nat.add_comm]
    rw [popcount, ih, countUp, List.filter_cons, rest, List.filter_map]
    have bits : (fun k => x.testBit k) ∘ (· + 1) = fun k => (x / 2).testBit k := funext fun k => Nat.testBit_succ x k
    rw [bits]
    obtain h | h := Nat.mod_two_eq_zero_or_one x <;> simp [Nat.testBit_zero, h, Nat.add_comm]

theorem aluI_minSigned (a b c : W32) : aluI 0x46 a b c = if a.toInt ≤ b.toInt then a else b := by
  simp only [aluI, ← not_le, ite_not]

theorem aluI_maxSigned (a b c : W32) : aluI 0x47 a b c = if b.toInt ≤ a.toInt then a else b := by
  simp only [aluI, ← not_le, ite_not]

theorem aluI_minUnsigned (a b c : W32) : aluI 0x48 a b c = if a.toNat ≤ b.toNat then a else b := by
  simp only [aluI, ← not_le, ite_not]

theorem aluI_maxUnsigned (a b c : W32) : aluI 0x49 a b c = if b.toNat ≤ a.toNat then a else b := by
  simp only [aluI, ← not_le, ite_not]

theorem aluI_rotl (a b c : W32) : aluI 0x51 a b c = (a <<< (b.toNat % 32)) ||| (a >>> (32 - b.toNat % 32)) :=
  BitVec.rotateLeft_eq_rotateLeftAux_of_lt (Nat.mod_lt _ (by decide))

theorem aluI_popc (a b c : W32) : aluI 0x52 a b c = BitVec.ofNat 32 ((countUp 0 32).filter (fun k => a.toNat.testBit k)).length :=
  congrArg (BitVec.ofNat 32) (popcount_eq_length 32 a.toNat)

theorem aluI_clz (a b c : W32) : aluI 0x53 a b c = if a = 0 then 32 else BitVec.ofNat 32 (31 - Nat.log2 a.toNat) :=
  apply_ite (BitVec.ofNat 32) (a = 0) 32 (31 - Nat.log2 a.toNat)

theorem aluI_bfe (a b c : W32) : aluI 0x54 a b c = BitVec.ofNat 32 (a.toNat / 2 ^ (b.toNat % 32) % 2 ^ (c.toNat % 33)) := by
  simp only [aluI, Nat.shiftRight_eq_div_pow]

end Sys2Proof.Machine
end
section
/-! PROOFS. FP32 values: NaN operands in fast mode, and the sums and products of numbers (R179 to R182). -/

namespace Sys2Proof.Machine

/-! ### Values (R174, R178) -/

@[simp] theorem isNan_negate (x : FNum) : x.negate.isNan = x.isNan := by cases x <;> rfl

@[simp] theorem isNan_read32 (strict : Bool) (a : W32) : (read32 strict a).1.isNan = (decodeF fp32 a.toNat).isNan := by
  unfold read32
  split
  next h => split <;> simp [FNum.isNan, h]
  next h => simp [FNum.isNan, h]
  next => rfl

/-- A value's code with its sign bit inverted. -/
theorem decodeF_signFlipped {b : W32} (h : (decodeF fp32 b.toNat).isNan = false) :
    decodeF fp32 (b ^^^ 0x80000000).toNat = (decodeF fp32 b.toNat).negate := by
  have bits (k : Nat) : (b ^^^ 0x80000000).toNat.testBit k = (b.toNat.testBit k ^^ decide (k = 31)) := by
    rw [BitVec.toNat_xor, Nat.testBit_xor]
    exact congrArg _ ((Nat.testBit_two_pow (n := 31)).trans (by simp [eq_comm]))
  have sign : (b ^^^ 0x80000000).toNat.testBit 31 = !b.toNat.testBit 31 := (bits 31).trans (Bool.xor_true _)
  have exponent : fldN (b ^^^ 0x80000000).toNat 30 23 = fldN b.toNat 30 23 := by
    refine Nat.eq_of_testBit_eq fun k => ?_
    rw [testBit_fldN, testBit_fldN, bits]
    by_cases hk : k < 8
    · simp [show 23 + k ≠ 31 by omega]
    · simp [hk]
  have fraction : (b ^^^ 0x80000000).toNat % 2 ^ 23 = b.toNat % 2 ^ 23 := by
    refine Nat.eq_of_testBit_eq fun k => ?_
    rw [Nat.testBit_mod_two_pow, Nat.testBit_mod_two_pow, bits]
    by_cases hk : k < 23
    · simp [show k ≠ 31 by omega]
    · simp [hk]
  simp only [decodeF, fp32, Nat.reduceAdd, Nat.reduceSub, sign, exponent, fraction] at h ⊢
  by_cases special : fldN b.toNat 30 23 = 255
  · by_cases infinite : b.toNat % 8388608 = 0
    · simp [special, infinite, FNum.negate]
    · simp [special, infinite, FNum.isNan] at h
  · by_cases subnormal : fldN b.toNat 30 23 = 0 <;> simp [special, subnormal, FNum.negate]

theorem read32_signFlipped {b : W32} (strict : Bool) (h : (decodeF fp32 b.toNat).isNan = false) :
    read32 strict (b ^^^ 0x80000000) = ((read32 strict b).1.negate, (read32 strict b).2) := by
  simp only [read32, decodeF_signFlipped h]
  cases hd : decodeF fp32 b.toNat with
  | fin n m e => simp only [FNum.negate]; split <;> rfl
  | inf n => rfl
  | nan v sig => simp [hd, FNum.isNan] at h

/-! ### NaN operands (R179, R182) -/

@[simp] theorem nanOf_fast (xs : List FNum) : nanOf false xs = canonNan := by
  unfold nanOf; split
  next h _ => cases h
  next => rfl

theorem sum32_fast_nan {xs ops : List FNum} (h : ops.any FNum.isNan = true) : (sum32 false xs ops).v = canonNan := by
  simp [sum32, h]

section
variable {a : W32} (h : (decodeF fp32 a.toNat).isNan = true)
include h

theorem fAdd_fast_nan (b : W32) : (fAdd false a b).v = canonNan ∧ (fAdd false b a).v = canonNan :=
  ⟨sum32_fast_nan (by simp [h]), sum32_fast_nan (by simp [h])⟩

theorem fMul_fast_nan (b : W32) : (fMul false a b).v = canonNan ∧ (fMul false b a).v = canonNan := by
  simp [fMul, h, withFl]

theorem fFma_fast_nan_factor (b c : W32) : (fFma false a b c).v = canonNan := by simp [fFma, h, withFl]

theorem fFma_fast_nan_addend (b c : W32) : (fFma false b c a).v = canonNan := by
  simp only [fFma]
  split
  · simp [withFl]
  · split
    · simp [withFl]
    · exact sum32_fast_nan (by simp [h])

theorem read32_nan (strict : Bool) : ∃ v sig, (read32 strict a).1 = .nan v sig := by
  have nan := (isNan_read32 strict a).trans h
  cases hx : (read32 strict a).1 with
  | nan v sig => exact ⟨v, sig, rfl⟩
  | _ => rw [hx] at nan; cases nan

theorem fDiv_fast_nan (b : W32) : (fDiv false a b).v = canonNan := by
  obtain ⟨v, sig, hx⟩ := read32_nan h false
  simp [fDiv, hx]

theorem fRcp_fast_nan : (fRcp false a).v = canonNan := by
  obtain ⟨v, sig, hx⟩ := read32_nan h false
  simp [fRcp, hx]

theorem fMinMax_passes_nan {b : W32} (hb : (decodeF fp32 b.toNat).isNan = false) (strict wantMax : Bool) :
    (fMinMax strict wantMax a b).v = flushed32 strict b ∧ (fMinMax strict wantMax b a).v = flushed32 strict b := by
  simp [fMinMax, h, hb]

end

/-! ### Sums and products of numbers (R180, R181) -/

theorem sumExact_swap (p q : Bool × Nat × Int) : sumExact [p, q] = sumExact [q, p] := by
  by_cases hp : p.2.1 = 0 <;> by_cases hq : q.2.1 = 0
  · simp [sumExact, hp, hq, Bool.and_comm]
  · simp [sumExact, hp, hq]
  · simp [sumExact, hp, hq]
  · simp only [sumExact, hp, hq, List.filter_cons, List.filter_nil, ne_eq, not_false_eq_true, decide_true, if_true, List.foldl_cons,
      List.foldl_nil, min_comm q.2.2]
    have order (x y : Int) : (if q.1 then (if p.1 then 0 - x else 0 + x) - y else (if p.1 then 0 - x else 0 + x) + y) =
        if p.1 then (if q.1 then 0 - y else 0 + y) - x else (if q.1 then 0 - y else 0 + y) + x := by
      split <;> split <;> omega
    rw [order]

/-- The operands of a sum matter to it only where one is NaN. -/
theorem sum32_numbers (strict : Bool) {xs ops ops' : List FNum} (h : ops.any FNum.isNan = false) (h' : ops'.any FNum.isNan = false) :
    sum32 strict xs ops = sum32 strict xs ops' := by
  simp only [sum32, h, h', Bool.false_eq_true, if_false]

theorem sum32_swap (strict : Bool) {x y : FNum} (hx : x.isNan = false) (hy : y.isNan = false) :
    sum32 strict [x, y] [x, y] = sum32 strict [y, x] [y, x] := by
  cases x with
  | nan => cases hx
  | inf n => cases y with
    | nan => cases hy
    | inf k => cases n <;> cases k <;> rfl
    | fin k p q => rfl
  | fin n m e => cases y with
    | nan => cases hy
    | inf k => rfl
    | fin k p q => simp [sum32, FNum.isNan, sumExact_swap (n, m, e)]

theorem prodF_swap {x y : FNum} (hx : x.isNan = false) (hy : y.isNan = false) : prodF x y = prodF y x := by
  cases x with
  | nan => cases hx
  | inf n => cases y with
    | nan => cases hy
    | inf k => simp [prodF, FNum.isZero, FNum.neg, Bool.xor_comm]
    | fin k p q => simp [prodF, FNum.neg, Bool.xor_comm]
  | fin n m e => cases y with
    | nan => cases hy
    | inf k => simp [prodF, FNum.neg, Bool.xor_comm]
    | fin k p q => simp [prodF, Bool.xor_comm, Nat.mul_comm, Int.add_comm]

section
variable {a b : W32} (strict : Bool) (ha : (decodeF fp32 a.toNat).isNan = false) (hb : (decodeF fp32 b.toNat).isNan = false)
include ha hb

theorem fAdd_swap : fAdd strict a b = fAdd strict b a := by
  simp only [fAdd]
  rw [sum32_swap strict (by simp [ha]) (by simp [hb]), Nat.or_comm]

theorem fMul_swap : fMul strict a b = fMul strict b a := by
  simp only [fMul, isNan_read32, ha, hb, Bool.or_self, Bool.false_eq_true, if_false]
  rw [prodF_swap (by simp [ha]) (by simp [hb]), Nat.or_comm]

theorem fSub_eq_fAdd : fSub strict a b = fAdd strict a (b ^^^ 0x80000000) := by
  simp only [fSub, fAdd, read32_signFlipped strict hb]
  rw [sum32_numbers strict (ops' := [(read32 strict a).1, (read32 strict b).1.negate]) (by simp [ha, hb]) (by simp [ha, hb])]

end

end Sys2Proof.Machine
end
section
/-! PROOFS. The matrix instruction (R192, R226, R227): what it issues under MCNT, and its 256 results. -/

namespace Sys2Proof.Machine

/-! ### Results by row and column -/

/-- Rows of one length set one after another: where an item of a row stands. -/
theorem getElem?_flatMap_rows {α β : Type} {f : α → List β} {w : Nat} (hf : ∀ a, (f a).length = w) (l : List α) (m : Nat) {n : Nat}
    (hn : n < w) : (l.flatMap f)[w * m + n]? = l[m]?.bind (fun a => (f a)[n]?) := by
  induction l generalizing m with
  | nil => rfl
  | cons a r ih =>
    rw [List.flatMap_cons]
    cases m with
    | zero => simp [List.getElem?_append_left, hf, hn]
    | succ m =>
      rw [List.getElem?_append_right (by rw [hf, Nat.mul_succ]; omega), hf,
        show w * (m + 1) + n - w = w * m + n by rw [Nat.mul_succ]; omega, ih]
      rfl

theorem sixteen_getElem? {n : Nat} (h : n < 16) : sixteen[n]? = some n := by
  simp [sixteen, countUp_eq_range', h]

@[simp] theorem sixteen_length : sixteen.length = 16 := rfl

section
variable {ia ib : Nat} {c : Nat → W32}

theorem mmaInt_length : (mmaInt ia ib c).length = 256 := by
  simp [mmaInt, List.length_flatMap]

/-- An INT8 result: the accumulator's word plus the exact sum of the 16 products, modulo 2^32. -/
theorem mmaInt_getElem? {m n : Nat} (hm : m < 16) (hn : n < 16) : (mmaInt ia ib c)[16 * m + n]? =
    some ⟨c (16 * m + n) + BitVec.ofInt 32 (((countUp 0 16).map (fun k =>
      sx 8 (ia / 2 ^ (8 * (16 * m + k))) * sx 8 (ib / 2 ^ (8 * (16 * k + n))))).sum), 0⟩ := by
  rw [mmaInt, getElem?_flatMap_rows (fun _ => by simp) _ _ hn, sixteen_getElem? hm, Option.bind_some, List.getElem?_map,
    sixteen_getElem? hn, Option.map_some]
  dsimp only
  rw [BitVec.ofInt_add, BitVec.ofInt_toInt, List.sum_eq_foldl, List.foldl_map]
  rfl

theorem joinFlags_of_clear {rs : List FRes} (h : ∀ r ∈ rs, r.fl = 0) : joinFlags rs = 0 := by
  induction rs with
  | nil => rfl
  | cons r l ih =>
    rw [joinFlags, List.foldl_cons, h r List.mem_cons_self]
    exact ih fun x hx => h x (List.mem_cons_of_mem _ hx)

theorem joinFlags_mmaInt : joinFlags (mmaInt ia ib c) = 0 := by
  refine joinFlags_of_clear fun r hr => ?_
  obtain ⟨m, -, hr⟩ := List.mem_flatMap.mp hr
  obtain ⟨n, -, rfl⟩ := List.mem_map.mp hr
  rfl

theorem mmaFloat_length (strict : Bool) (fa fb half sa sb : Nat) : (mmaFloat strict fa fb half ia ib sa sb c).length = 256 := by
  simp [mmaFloat, List.length_flatMap]

end

/-! ### The operation under MCNT (R158, R226) -/

section
variable {s u : State} {r : GRef} {w e : W64} {i : Issue}

/-- The accumulator's words, zero where MOD has none. -/
def mmaAcc (u : State) (i : Issue) (wd : Wd) (k : Nat) : W32 :=
  if wd.mod.testBit 9 then 0 else readV u i (wd.s2 + k / i.x.width) (k % i.x.width)

/-- The 256 results of an `mma` as the registers stand. -/
def mmaResults (u : State) (i : Issue) (wd : Wd) : List FRes :=
  let fa := fldN wd.mod 3 0
  let fb := fldN wd.mod 7 4
  let ia := imageNat u i wd.s0 (imageBytes fa)
  let ib := imageNat u i wd.s1 (imageBytes fb)
  if fa = 10 then mmaInt ia ib (mmaAcc u i wd)
  else mmaFloat wd.strict fa fb (fldN wd.mod 8 8) ia ib (if mmaMx fa then imageNat u i (fld wd.e 7 0) 16 else 0)
    (if mmaMx fb then imageNat u i (fld wd.e 15 8) 16 else 0) (mmaAcc u i wd)

/-- The flags that reading the operands raises. -/
def mmaReadFlags (u : State) (i : Issue) (wd : Wd) : Nat :=
  let fa := fldN wd.mod 3 0
  let fb := fldN wd.mod 7 4
  let ia := imageNat u i wd.s0 (imageBytes fa)
  let ib := imageNat u i wd.s1 (imageBytes fb)
  if fa = 10 then 0
  else sixteen.foldl (fun a n => sixteen.foldl (fun a k =>
    a ||| elemFlags wd.strict fa (fldN wd.mod 8 8) ia n k true ||| elemFlags wd.strict fb (fldN wd.mod 8 8) ib n k false) a) 0

section
variable {wd : Wd}

theorem mmaResults_length : (mmaResults u i wd).length = 256 := by
  dsimp only [mmaResults]
  split
  · exact mmaInt_length
  · exact mmaFloat_length _ _ _ _ _ _

theorem mmaResults_int (h : fldN wd.mod 3 0 = 10) : mmaResults u i wd =
    mmaInt (imageNat u i wd.s0 (imageBytes (fldN wd.mod 3 0))) (imageNat u i wd.s1 (imageBytes (fldN wd.mod 7 4))) (mmaAcc u i wd) :=
  if_pos h

theorem mmaResults_float (h : fldN wd.mod 3 0 ≠ 10) : mmaResults u i wd =
    mmaFloat wd.strict (fldN wd.mod 3 0) (fldN wd.mod 7 4) (fldN wd.mod 8 8) (imageNat u i wd.s0 (imageBytes (fldN wd.mod 3 0)))
      (imageNat u i wd.s1 (imageBytes (fldN wd.mod 7 4))) (if mmaMx (fldN wd.mod 3 0) then imageNat u i (fld wd.e 7 0) 16 else 0)
      (if mmaMx (fldN wd.mod 7 4) then imageNat u i (fld wd.e 15 8) 16 else 0) (mmaAcc u i wd) := if_neg h

/-- A result by its number. -/
theorem mmaResults_getElem? {k : Nat} (hk : k < 256) : (mmaResults u i wd)[k]? = some (lget ⟨0, 0⟩ (mmaResults u i wd) k) := by
  have here : k < (mmaResults u i wd).length := mmaResults_length.symm ▸ hk
  rw [lget_eq_getD, List.getD_eq_getElem _ _ here, List.getElem?_eq_getElem here]

end

/-- Results with their registers and lanes: row by row through the lanes of DST and the registers after it (R227). -/
def mmaWords (i : Issue) (wd : Wd) (rs : List FRes) : List (Nat × Nat × W32) :=
  rs.zipIdx.map (fun x => (wd.dst + x.2 / i.x.width, x.2 % i.x.width, x.1.v))

theorem mmaWords_length (i : Issue) (wd : Wd) (rs : List FRes) : (mmaWords i wd rs).length = rs.length := by simp [mmaWords]

theorem mmaWords_getElem? {wd : Wd} {rs : List FRes} {k : Nat} {x : FRes} (h : rs[k]? = some x) :
    (mmaWords i wd rs)[k]? = some (wd.dst + k / i.x.width, k % i.x.width, x.v) := by
  simp [mmaWords, h]

/-- The operation that an `mma` puts under MCNT. -/
def mmaOp (u : State) (i : Issue) (wd : Wd) : CountedOp :=
  let words := mmaWords i wd (mmaResults u i wd)
  { serial := u.nextId, issuedAt := u.now, kind := .fixed, dst := wd.dst, access := [], result := words,
    flags := mmaReadFlags u i wd ||| joinFlags (mmaResults u i wd), dests := words.map (fun x => (x.1, x.2.1)), stale := [],
    posted := false, pc := i.pc }

/-- An INT8 `mma` raises no flag (R192). -/
theorem mmaOp_int_flags {wd : Wd} (h : fldN wd.mod 3 0 = 10) : (mmaOp u i wd).flags = 0 := by
  have read : mmaReadFlags u i wd = 0 := if_pos h
  simp only [mmaOp, read, mmaResults_int h, joinFlags_mmaInt, Nat.or_self]

/-- A group with one more operation under MCNT. -/
def withMatrixOp (op : CountedOp) (g : Group) : Group := { g with mq := g.mq ++ [op] }

theorem exec_mma (h : IssuesWord s r w e i u) (op : (wdOf w e).op = 0x240) (fits : Fits i (wdOf w e) (mmaUse i (wdOf w e)))
    (legal : mmaLegal i (wdOf w e) = true) (room : i.g.mq.length < 63) : exec (.mma r w e) s = .next (isaEnd s i (wdOf w e)
      (.next (updGroup { u with nextId := u.nextId + 1 } i (withMatrixOp (mmaOp u i (wdOf w e)))))) := by
  have listed : opListed (wdOf w e).op = true := by rw [op]; decide
  have own : ((wdOf w e).op == 0x240) = true := by rw [op]; rfl
  change execMma r w e s = _
  rw [execMma, h.runs listed own, checked_fits fits legal, if_neg (Nat.not_le.mpr room)]
  rfl

/-- An operation that goes last under MCNT, with the group going on. -/
theorem opIssued_matrix (h : IssuesWord s r w e i u) {op : CountedOp} {P : CountedOp → Prop} (fresh : op.stale = []) (hp : P op) :
    OpIssued i (wdOf w e) u (isaEnd s i (wdOf w e) (.next (updGroup { u with nextId := u.nextId + 1 } i (withMatrixOp op)))) (·.mq) P := by
  have group : groupOf { u with nextId := u.nextId + 1 } i.d i.gid = some i.g := h.group
  rw [updGroup_eq group]
  have put := groupsMoved_setGroup { u with nextId := u.nextId + 1 } i.d i.gid (withMatrixOp op i.g)
  have goes := isaEnd_next (s := s) (wd := wdOf w e)
    (groupOf_setGroup_same { u with nextId := u.nextId + 1 } i.d i.gid (withMatrixOp op i.g))
  obtain ⟨y, found, after, path⟩ := goes.group
  obtain ⟨sregs, preds, -, flags, -⟩ := after.kept
  exact ⟨put.coresOnly.trans goes.only, goes.vrf.trans put.vrf, goes.tile.trans put.tile, y, op, found, congrArg Group.mq after, sregs,
    preds, flags, fun m hm => path m hm (h.current hm), fresh, hp⟩

end

end Sys2Proof.Machine
end
section
/-! PROOFS. Conversions and MX blocks (R199, R215 to R217). -/

namespace Sys2Proof.Machine

section
variable {s u : State} {r : GRef} {w e : W64} {i : Issue}

/-- `cvt` puts each acting lane's code into its position of DST. -/
theorem cvt_answers (issues : IssuesWord s r w e i u) (canonical : Canonical i u) (op : (wdOf w e).op = 0x100)
    (fits : Fits i (wdOf w e) { a := .reg 1, d := .v 1, mods := 0xFFF })
    (listed : cvtListed (fldN (wdOf w e).mod 7 4) (fldN (wdOf w e).mod 3 0) = true)
    (dst : fldN (wdOf w e).mod 9 8 < fmtPositions (fldN (wdOf w e).mod 3 0))
    (src : fldN (wdOf w e).mod 11 10 < fmtPositions (fldN (wdOf w e).mod 7 4)) : Answers (.cvt r w e) s fun t =>
      VectorResult i (wdOf w e) u t (fun l =>
        let x := convert (wdOf w e).strict (fldN (wdOf w e).mod 7 4) (fldN (wdOf w e).mod 3 0)
          (takeCode (fldN (wdOf w e).mod 7 4) (fldN (wdOf w e).mod 11 10) (operand u i (wdOf w e) 0 0 l))
        ⟨putCode (fldN (wdOf w e).mod 3 0) (fldN (wdOf w e).mod 9 8) (readV u i (wdOf w e).dst l) x.1, x.2⟩) := by
  refine vectorRow_answers issues canonical (rfl : execCvt r w e s = runIsa (· == 0x100) r w e s _) (by rw [op]; decide)
    (by rw [op]; rfl) fits ?_
  exact checked_fits fits (by simp [listed, dst, src])

/-- `mxdq` writes the element times the scale in each acting lane. -/
theorem mxdq_answers (issues : IssuesWord s r w e i u) (canonical : Canonical i u) (op : (wdOf w e).op = 0x102)
    (fits : Fits i (wdOf w e) { a := .reg 1, b := .reg 1, d := .v 1, mods := 0xCF0 })
    (code : mxCode (fldN (wdOf w e).mod 7 4) = true) : Answers (.mxdq r w e) s fun t => VectorResult i (wdOf w e) u t (fun l =>
      mxDequant (wdOf w e).strict (fldN (wdOf w e).mod 7 4)
        ((operand u i (wdOf w e) 0 0 l).toNat / 2 ^ (8 * fldN (wdOf w e).mod 11 10) % 256)
        ((operand u i (wdOf w e) 1 0 l).toNat % 256)) := by
  refine vectorRow_answers issues canonical (rfl : execMxdq r w e s = runIsa (· == 0x102) r w e s _) (by rw [op]; decide)
    (by rw [op]; rfl) fits ?_
  exact checked_fits fits code

/-! ### Quantised blocks (R199, R216) -/

/-- Block `n` of `mxq`: the scale, the elements and the flags of its 32 lanes. -/
def mxBlock (u : State) (i : Issue) (wd : Wd) (n : Nat) : Nat × List Nat × Nat :=
  mxQuant wd.strict (fldN wd.mod 3 0) ((countUp (32 * n) 32).map (fun l => operand u i wd 0 0 l))

/-- What lane `k` of a block gets: its element, with the block's scale above it. -/
def mxWord (b : Nat × List Nat × Nat) (k : Nat) : W32 := BitVec.ofNat 32 (lget 0 b.2.1 k % 256 + 256 * b.1)

/-- The words that `mxq` writes. -/
def mxWords (u : State) (i : Issue) (wd : Wd) : List (Nat × Nat × W32) :=
  (countUp 0 (i.x.width / 32)).flatMap (fun n => (countUp 0 32).map (fun k => (wd.dst, 32 * n + k, mxWord (mxBlock u i wd n) k)))

/-- The flags that `mxq` raises. -/
def mxFlags (u : State) (i : Issue) (wd : Wd) : Nat := (countUp 0 (i.x.width / 32)).foldl (fun a n => a ||| (mxBlock u i wd n).2.2) 0

theorem mem_mxWords {wd : Wd} {x : Nat × Nat × W32} : x ∈ mxWords u i wd ↔
    ∃ n < i.x.width / 32, ∃ k < 32, (wd.dst, 32 * n + k, mxWord (mxBlock u i wd n) k) = x := by
  simp [mxWords, mem_countUp]

theorem exec_mxq (h : IssuesWord s r w e i u) (op : (wdOf w e).op = 0x101)
    (fits : Fits i (wdOf w e) { a := .reg 1, d := .v 1, mods := 0xF, predZero := true })
    (code : mxCode (fldN (wdOf w e).mod 3 0) = true) (wide : 32 ≤ i.x.width) : exec (.mxq r w e) s = .next (isaEnd s i (wdOf w e)
      (.next (updGroup (writeV u i (mxWords u i (wdOf w e))) i (fun g => raiseFlags g (mxFlags u i (wdOf w e)))))) := by
  have listed : opListed (wdOf w e).op = true := by rw [op]; decide
  have own : ((wdOf w e).op == 0x101) = true := by rw [op]; rfl
  change execMxq r w e s = _
  rw [execMxq, h.runs listed own, checked_fits fits (by simp [code, wide])]
  simp only [List.flatMap_map, List.foldl_map]
  rfl

/-- Each lane of a whole block gets its own word. -/
theorem mxWords_put {wd : Wd} {m : Map W32} (hm : mwf 0 m = true) {n k : Nat} (hn : n < i.x.width / 32) (hk : k < 32) :
    mget 0 (wordsPut i (mxWords u i wd) m) (vreg i wd.dst (32 * n + k)) = mxWord (mxBlock u i wd n) k := by
  refine wordsPut_agreeing hm (fun x hx same => ?_) ⟨_, mem_mxWords.mpr ⟨n, hn, k, hk, rfl⟩, rfl⟩
  obtain ⟨n', hn', k', hk', rfl⟩ := mem_mxWords.mp hx
  obtain ⟨-, lanes⟩ := vreg_inj (by dsimp only; omega) (by omega) same
  obtain ⟨rfl, rfl⟩ : n' = n ∧ k' = k := by dsimp only at lanes; omega
  rfl

theorem mxWords_other {wd : Wd} {m : Map W32} {k : Nat} (h : ∀ l, l < 32 * (i.x.width / 32) → k ≠ vreg i wd.dst l) :
    mget 0 (wordsPut i (mxWords u i wd) m) k = mget 0 m k := by
  refine wordsPut_other fun x hx => ?_
  obtain ⟨n, hn, j, hj, rfl⟩ := mem_mxWords.mp hx
  exact h _ (by dsimp only; omega)

end

end Sys2Proof.Machine

namespace Sys2Proof

open Machine

/-- Settles O27. Every row runs by one lemma: what the acting lanes give stands each in a register's lane of its own, and the group's flags
gain theirs. A NaN operand is found before any value is looked at; sums and products of two numbers are symmetric case by case. -/
theorem floatingPointAndIntegerInstructions : Obligations.FloatingPointAndIntegerInstructions := by
  unfold Obligations.FloatingPointAndIntegerInstructions
  refine ⟨⟨fun s u r w e i issues canonical => ⟨?_, ?_⟩, fun a b c ha => ?_, fun strict a b ha hb =>
    ⟨fAdd_swap strict ha hb, fMul_swap strict ha hb, fSub_eq_fAdd strict ha hb⟩⟩,
    fun s u r w e i issues canonical => ⟨?_, fun op fits => ?_, fun op fits => ?_⟩⟩
  · refine floatRows_answer issues canonical ?_
    simp only [List.forall_mem_cons]
    refine ⟨?_, ?_, ?_, ?_, ?_, ?_, ?_, ?_, ?_, fun _ h => absurd h List.not_mem_nil⟩ <;>
      exact ⟨.single rfl rfl, fun _ _ _ => rfl⟩
  · refine specialRows_answer issues canonical ?_
    simp only [List.forall_mem_cons]
    refine ⟨?_, ?_, ?_, ?_, ?_, ?_, ?_, ?_, fun _ h => absurd h List.not_mem_nil⟩ <;>
      exact ⟨.single rfl rfl, fun _ _ => rfl⟩
  · exact ⟨(fAdd_fast_nan ha b).1, (fAdd_fast_nan ha b).2, (fMul_fast_nan ha b).1, (fMul_fast_nan ha b).2, fFma_fast_nan_factor ha b c,
      fFma_fast_nan_addend ha b c, fDiv_fast_nan ha b, fRcp_fast_nan ha, fun strict hb =>
      ⟨(fMinMax_passes_nan ha hb strict false).1, (fMinMax_passes_nan ha hb strict true).2⟩⟩
  · refine integerRows_answer issues canonical ?_
    simp only [List.forall_mem_cons]
    exact ⟨⟨.single rfl rfl, fun _ _ _ => rfl⟩, ⟨.single rfl rfl, fun _ _ _ => rfl⟩, ⟨.single rfl rfl, fun _ _ _ => rfl⟩,
      ⟨.single rfl rfl, fun _ _ _ => rfl⟩, ⟨rowOf_mulhi (.inl rfl), fun _ _ _ => rfl⟩, ⟨rowOf_mulhi (.inr rfl), fun _ _ _ => rfl⟩,
      ⟨rowOf_minMaxInt (by decide), aluI_minSigned⟩, ⟨rowOf_minMaxInt (by decide), aluI_maxSigned⟩,
      ⟨rowOf_minMaxInt (by decide), aluI_minUnsigned⟩, ⟨rowOf_minMaxInt (by decide), aluI_maxUnsigned⟩,
      ⟨.single rfl rfl, fun _ _ _ => rfl⟩, ⟨.single rfl rfl, fun _ _ _ => rfl⟩, ⟨.single rfl rfl, fun _ _ _ => rfl⟩,
      ⟨.single rfl rfl, fun _ _ _ => rfl⟩, ⟨.single rfl rfl, fun _ _ _ => rfl⟩, ⟨rowOf_shr (.inl rfl), fun _ _ _ => rfl⟩,
      ⟨rowOf_shr (.inr rfl), fun _ _ _ => rfl⟩, ⟨.single rfl rfl, aluI_rotl⟩, ⟨.single rfl rfl, aluI_popc⟩, ⟨.single rfl rfl, aluI_clz⟩,
      ⟨.single rfl rfl, aluI_bfe⟩, ⟨.single rfl rfl, fun _ _ _ => rfl⟩, fun _ h => absurd h List.not_mem_nil⟩
  · exact vectorRow_answers issues canonical (rfl : execSel r w e s = runIsa (· == 0x55) r w e s _) (by rw [op]; decide)
      (by rw [op]; rfl) fits rfl
  · exact vectorRow_answers issues canonical (rfl : execShfl r w e s = runIsa (· == 0x57) r w e s _) (by rw [op]; decide)
      (by rw [op]; rfl) fits rfl

/-- Settles O30. `cvt` and `mxdq` are rows of one result to a lane; the blocks of `mxq` fill lanes that no two of them share; an `mma`
leaves its operation last under MCNT, with a result for each row and column. -/
theorem convertAndMatrixInstructions : Obligations.ConvertAndMatrixInstructions := by
  unfold Obligations.ConvertAndMatrixInstructions
  intro s u r w e i issues canonical wd lo hi dp sp
  refine ⟨cvt_answers issues canonical, fun op fits code wide => ?_, mxdq_answers issues canonical, fun op fits legal room _ => ?_⟩
  · obtain ⟨vrf, group⟩ := wordsWritten_goes issues (mxWords u i wd) (mxFlags u i wd)
    refine ⟨_, exec_mxq issues op fits code wide, fun n k hn hk => ?_, fun k hk => ?_, group⟩
    · rw [vrf]; exact mxWords_put canonical.1 hn hk
    · rw [vrf]; exact mxWords_other hk
  · refine ⟨_, exec_mma issues op fits legal room, opIssued_matrix issues rfl ⟨rfl, rfl, ?_, rfl, fun int =>
      ⟨mmaOp_int_flags int, fun m n hm hn => ?_⟩, fun float k hk => mmaWords_getElem? ?_⟩⟩
    · exact (mmaWords_length _ _ _).trans mmaResults_length
    · refine mmaWords_getElem? (x := ⟨_, 0⟩) ?_
      rw [mmaResults_int int]; exact mmaInt_getElem? hm hn
    · exact (mmaResults_getElem? hk).trans (by rw [mmaResults_float float]; rfl)

end Sys2Proof
end
section
/-! PROOFS. Instructions that change their group alone (R206, R208, R212): the group as it was regrouped, what goes on from there, and the scalar
registers and predicate bits written. -/

namespace Sys2Proof.Machine

/-! ### Bits of a mask -/

/-- The bits of one number taken out of another. -/
theorem testBit_sub_and (n m k : Nat) : (n - (n &&& m)).testBit k = (n.testBit k && !m.testBit k) := by
  have low (n m : Nat) : (n &&& m) % 2 = 1 ↔ n % 2 = 1 ∧ m % 2 = 1 := Nat.and_mod_two_eq_one
  induction k generalizing n m with
  | zero =>
    have le : n &&& m ≤ n := Nat.and_le_left
    have here := low n m
    simp only [Nat.testBit_zero, ← decide_not, ← Bool.decide_and]
    exact decide_eq_decide.mpr (by omega)
  | succ k ih =>
    have half : (n - (n &&& m)) / 2 = n / 2 - (n / 2 &&& m / 2) := by
      have le : n &&& m ≤ n := Nat.and_le_left
      have here := low n m
      rw [← Nat.and_div_two]; omega
    simp only [Nat.testBit_add_one, half, ih]

/-- A clear bit put into a number. -/
theorem testBit_add_two_pow {n k : Nat} (h : n.testBit k = false) (i : Nat) : (n + 2 ^ k).testBit i = (n.testBit i || decide (i = k)) := by
  have zero : (n >>> k) % 2 ^ 1 = 0 := by
    rw [Nat.testBit_eq_decide_div_mod_eq] at h
    rw [Nat.shiftRight_eq_div_pow]; simpa using h
  have put := testBit_replace n k 1 1 i (by omega)
  rw [zero, Nat.zero_mul, Nat.sub_zero, Nat.one_mul] at put
  rw [put]
  split_ifs with h1 h2
  · simp [show i ≠ k by omega]
  · simp [show i = k by omega]
  · simp [show i ≠ k by omega]

/-- A list of lanes as a mask. -/
theorem testBit_laneMask {ls : List Nat} (h : ls.Nodup) (l : Nat) : (ls.foldl (fun a l => a + 2 ^ l) 0).testBit l = decide (l ∈ ls) := by
  induction ls using List.reverseRecOn generalizing l with
  | nil => simp
  | append_singleton r m ih =>
    obtain ⟨before, -, apart⟩ := List.nodup_append.mp h
    have clear : (r.foldl (fun a l => a + 2 ^ l) 0).testBit m = false := by
      rw [ih before]; exact decide_eq_false fun hm => apart m hm m (by simp) rfl
    rw [List.foldl_append, List.foldl_cons, List.foldl_nil, testBit_add_two_pow clear, ih before]
    simp

/-- A predicate with the bit of one lane written. -/
def bitPut (a : Nat) (x : Nat × Bool) : Nat := if a.testBit x.1 = x.2 then a else if x.2 then a + 2 ^ x.1 else a - 2 ^ x.1

theorem testBit_bitPut (a : Nat) (x : Nat × Bool) (l : Nat) : (bitPut a x).testBit l = if l = x.1 then x.2 else a.testBit l := by
  obtain ⟨m, b⟩ := x
  unfold bitPut
  split
  next same => split <;> simp_all
  next other =>
    cases b with
    | true =>
      have clear : a.testBit m = false := Bool.eq_false_iff.mpr other
      rw [if_pos rfl, testBit_add_two_pow clear]
      by_cases hl : l = m <;> simp [hl]
    | false =>
      have set : a.testBit m = true := by simpa using other
      rw [if_neg Bool.false_ne_true, testBit_sub_two_pow set]
      by_cases hl : l = m <;> simp [hl]

/-- A predicate with the bits of the lanes `ls` written. -/
theorem testBit_bitsPut (ls : List Nat) (f : Nat → Bool) (a l : Nat) :
    ((ls.map (fun l => (l, f l))).foldl bitPut a).testBit l = if l ∈ ls then f l else a.testBit l := by
  induction ls generalizing a with
  | nil => rfl
  | cons m r ih =>
    rw [List.map_cons, List.foldl_cons, ih, testBit_bitPut]
    by_cases hr : l ∈ r
    · simp [hr]
    · by_cases hm : l = m <;> simp [hr, hm]

/-! ### A group changed (R206, R212, R234) -/

section
variable {s u v : State} {r : GRef} {w e : W64} {i : Issue} {g : Group} {fl : Nat}

/-- Groups of the issue's die have changed from `u` to `v`, and the issue's own is `g` there. -/
structure Regrouped (i : Issue) (u v : State) (g : Group) : Prop where
  moved : GroupsMoved i.d u v
  group : groupOf v i.d i.gid = some g
  others : ∀ k, k ≠ i.gid → groupOf v i.d k = groupOf u i.d k

theorem IssuesWord.regrouped (h : IssuesWord s r w e i u) : Regrouped i u u i.g := ⟨.refl _ u, h.group, fun _ _ => rfl⟩

theorem Regrouped.update (h : Regrouped i u v g) (f : Group → Group) : Regrouped i u (updGroup v i f) (f g) := by
  rw [updGroup_eq h.group]
  exact ⟨h.moved.trans (groupsMoved_setGroup _ _ _ _), groupOf_setGroup_same _ _ _ _,
    fun k hk => (groupOf_setGroup_other _ _ _ hk).trans (h.others k hk)⟩

/-- A change of registers and flags: the paths and the exited lanes stand, and the flags gain `fl`. -/
structure Continues (g y : Group) (fl : Nat) : Prop where
  paths : y.paths = g.paths
  cur : y.cur = g.cur
  exited : y.exited = g.exited
  flags : y.flags = g.flags ||| fl

/-- An instruction that has changed its group goes on with the group's registers. -/
theorem Regrouped.goes (h : Regrouped i u v g) (issues : IssuesWord s r w e i u) (kept : Continues i.g g fl) {P : Group → Prop}
    (hp : ∀ y, y.sregs = g.sregs → y.preds = g.preds → y.exec = g.exec → P y) :
    let t := isaEnd s i (wdOf w e) (.next v)
    (getCores t i.d).vrf = (getCores u i.d).vrf ∧ GroupStep i (wdOf w e) u t fl P := by
  have goes := isaEnd_next (s := s) (wd := wdOf w e) h.group
  obtain ⟨y, found, after, path⟩ := goes.group
  obtain ⟨sregs, preds, exec, flags, exited⟩ := after.kept
  refine ⟨goes.vrf.trans h.moved.vrf, h.moved.coresOnly.trans goes.only, goes.tile.trans h.moved.tile, goes.near.trans h.moved.near,
    goes.blocks.trans h.moved.blocks, goes.dispatches.trans h.moved.dispatches, fun k x hk hx => ?_, y, found, flags.trans kept.flags,
    exited.trans kept.exited, fun m hm => path m (kept.paths.trans hm) (kept.cur.trans (issues.current hm)), hp y sregs preds exec⟩
  obtain ⟨z, there, alike⟩ := goes.others k x hk ((h.others k hk).trans hx)
  refine ⟨z, there, ?_⟩
  unfold AlikeGroup at alike; rw [alike]

theorem raiseFlags_zero (g : Group) : raiseFlags g 0 = g := by simp [raiseFlags]

/-! ### Predicates written (R206) -/

/-- A group with bits of a predicate written, p0 discarding. -/
def predsWritten (p : Nat) (bits : List (Nat × Bool)) (g : Group) : Group :=
  if p = 0 then g else { g with preds := lset g.preds p (bits.foldl bitPut (lget 0 g.preds p)) }

theorem Regrouped.writeP (h : Regrouped i u v g) (p : Nat) (bits : List (Nat × Bool)) :
    Regrouped i u (writeP v i p bits) (predsWritten p bits g) := by
  unfold Machine.writeP predsWritten
  split
  · exact h
  · exact h.update _

/-- Writing a predicate leaves the rest of the group. -/
theorem predsWritten_keeps (p : Nat) (bits : List (Nat × Bool)) (g : Group) : ∃ ps, predsWritten p bits g = { g with preds := ps } := by
  unfold predsWritten; split <;> exact ⟨_, rfl⟩

/-- The bits written, by predicate. -/
theorem predsWritten_preds (p : Nat) (ls : List Nat) (f : Nat → Bool) (g : Group) :
    let y := predsWritten p (ls.map (fun l => (l, f l))) g
    lget 0 y.preds 0 = lget 0 g.preds 0 ∧ (∀ q, q ≠ p → lget 0 y.preds q = lget 0 g.preds q) ∧
      (p ≠ 0 → p < g.preds.length → (∀ l ∈ ls, (lget 0 y.preds p).testBit l = f l) ∧
        ∀ l, l ∉ ls → (lget 0 y.preds p).testBit l = (lget 0 g.preds p).testBit l) := by
  dsimp only
  unfold predsWritten
  split
  next zero => exact ⟨rfl, fun _ _ => rfl, fun h => absurd zero h⟩
  next other =>
    refine ⟨lget_lset_other _ (Ne.symm other), fun q hq => lget_lset_other _ hq, fun _ long => ?_⟩
    dsimp only
    rw [lget_lset_same _ _ long]
    exact ⟨fun l hl => by rw [testBit_bitsPut, if_pos hl], fun l hl => by rw [testBit_bitsPut, if_neg hl]⟩

/-- An instruction that has written predicate DST in the lanes `ls`, and raised flags, goes on. -/
theorem Regrouped.predicateResult {ls : List Nat} {f : Nat → Bool} (issues : IssuesWord s r w e i u)
    (h : Regrouped i u v (raiseFlags (predsWritten (wdOf w e).dst (ls.map (fun l => (l, f l))) i.g) fl)) :
    PredicateResult i (wdOf w e) u (isaEnd s i (wdOf w e) (.next v)) ls f fl := by
  obtain ⟨ps, keeps⟩ := predsWritten_keeps (wdOf w e).dst (ls.map (fun l => (l, f l))) i.g
  have bits := predsWritten_preds (wdOf w e).dst ls f i.g
  rw [keeps] at h bits
  refine h.goes issues ⟨rfl, rfl, rfl, rfl⟩ fun y sregs preds exec => ?_
  rw [preds]
  exact ⟨sregs, exec, bits⟩

/-! ### Scalar registers written (R212) -/

/-- Words written into scalar registers from `dst` on. -/
def scalarWords (dst : Nat) (vs : List W32) : List (Nat × W32) := vs.zipIdx.map (fun x => (dst + x.2, x.1))

/-- A group with scalar registers written, and its operations in flight told (R158). -/
def scalarsWritten (ws : List (Nat × W32)) (g : Group) : Group :=
  markGroup true (ws.map (fun x => (x.1, 0))) { g with sregs := ws.foldl (fun m x => mput 0 m x.1 x.2) g.sregs }

theorem Regrouped.writeS (h : Regrouped i u v g) (ws : List (Nat × W32)) : Regrouped i u (writeS v i ws) (scalarsWritten ws g) :=
  h.update _

theorem markOver_none (scalar : Bool) : markOver scalar [] = id := by
  funext o; unfold markOver; split <;> simp

theorem scalarsWritten_none (g : Group) : scalarsWritten [] g = g := by
  simp [scalarsWritten, markGroup, markOver_none]

/-- Each word stands in its register, and the registers around them stand. -/
theorem scalarWords_written {m : Map W32} (hm : mwf 0 m = true) (dst : Nat) (vs : List W32) :
    let n := (scalarWords dst vs).foldl (fun m x => mput 0 m x.1 x.2) m
    (∀ k, k < vs.length → mget 0 n (dst + k) = lget 0 vs k) ∧
      ∀ k, (k < dst ∨ dst + vs.length ≤ k) → mget 0 n k = mget 0 m k := by
  have word {x : Nat × W32} (hx : x ∈ scalarWords dst vs) : ∃ k, x.1 = dst + k ∧ vs[k]? = some x.2 := by
    obtain ⟨⟨y, k⟩, hy, rfl⟩ := List.mem_map.mp hx
    exact ⟨k, rfl, List.mem_zipIdx_iff_getElem?.mp hy⟩
  refine ⟨fun k hk => mget_foldl_mput_agreeing hm (fun x hx same => ?_) ⟨(dst + k, vs[k]), ?_, rfl⟩,
    fun k hk => mget_foldl_mput_other m fun x hx same => ?_⟩
  · obtain ⟨j, reg, val⟩ := word hx
    obtain rfl : j = k := by omega
    rw [lget_eq_getD, List.getD_eq_getElem?_getD, val]; rfl
  · exact List.mem_map.mpr ⟨(vs[k], k), List.mem_zipIdx_iff_getElem?.mpr (List.getElem?_eq_getElem hk), rfl⟩
  · obtain ⟨j, reg, val⟩ := word hx
    obtain ⟨short, -⟩ := List.getElem?_eq_some_iff.mp val
    omega

/-- An instruction that has written scalar registers from DST on, and raised flags, goes on. -/
theorem Regrouped.scalarResult {vs : List W32} (issues : IssuesWord s r w e i u) (canonical : Canonical i u)
    (h : Regrouped i u v (raiseFlags (scalarsWritten (scalarWords (wdOf w e).dst vs) i.g) fl)) :
    ScalarResult i (wdOf w e) u (isaEnd s i (wdOf w e) (.next v)) vs fl := by
  obtain ⟨inside, outside⟩ := scalarWords_written canonical.2 (wdOf w e).dst vs
  refine h.goes issues ⟨rfl, rfl, rfl, rfl⟩ fun y sregs preds exec => ?_
  rw [sregs]
  exact ⟨preds, exec, inside, outside⟩

/-- A row whose opcode a word has, and whose checks it passes, answers with what goes on from there. -/
theorem IssuesWord.answers {c : Instr} {row : Nat → Bool} {k : Issue → Wd → State → IsaRes} {P : State → Prop}
    (issues : IssuesWord s r w e i u) (run : exec c s = runIsa row r w e s k) (listed : opListed (wdOf w e).op = true)
    (own : row (wdOf w e).op = true) (acts : k i (wdOf w e) u = .next v) (post : P (isaEnd s i (wdOf w e) (.next v))) : Answers c s P :=
  ⟨_, (run.trans (issues.runs listed own)).trans (by rw [acts]), post⟩

end

end Sys2Proof.Machine
end
section
/-! PROOFS. O28. -/

namespace Sys2Proof.Machine

section
variable {s u : State} {r : GRef} {w e : W64} {i : Issue}

/-! ### Comparisons (R182, R183) -/

/-- The flags of the acting lanes' comparisons. -/
def setFlags (i : Issue) (wd : Wd) (f : Nat → Bool × Nat) : Nat := (actingLanes i wd).foldl (fun a l => a ||| (f l).2) 0

theorem setFlags_clear {wd : Wd} {f : Nat → Bool × Nat} (h : ∀ l, (f l).2 = 0) : setFlags i wd f = 0 := by
  unfold setFlags
  induction actingLanes i wd with
  | nil => rfl
  | cons l r ih => rw [List.foldl_cons, h l]; exact ih

/-- A comparison whose opcode a word has answers with the bit of each acting lane. -/
theorem vecSet_answers {c : Instr} {row : Nat → Bool} {use : Use} {f : Nat → Bool × Nat} {k : Issue → Wd → State → IsaRes}
    (issues : IssuesWord s r w e i u) (run : exec c s = runIsa row r w e s k) (listed : opListed (wdOf w e).op = true)
    (own : row (wdOf w e).op = true) (fits : Fits i (wdOf w e) use) (sets : k i (wdOf w e) u = vecSet i (wdOf w e) use f u) :
    Answers c s fun t =>
      PredicateResult i (wdOf w e) u t (actingLanes i (wdOf w e)) (fun l => (f l).1) (setFlags i (wdOf w e) f) := by
  have acts : k i (wdOf w e) u = .next (updGroup (writeP u i (wdOf w e).dst ((actingLanes i (wdOf w e)).map (fun l => (l, (f l).1)))) i
      (fun g => raiseFlags g (setFlags i (wdOf w e) f))) := by
    rw [sets, vecSet, checked_fits fits rfl]
    simp [setFlags, List.foldl_map, Function.comp_def]
  exact issues.answers run listed own acts (((issues.regrouped.writeP _ _).update _).predicateResult issues)

/-- The FP32 comparisons. -/
theorem setF32_answers (issues : IssuesWord s r w e i u) (low : 0x10 ≤ (wdOf w e).op) (high : (wdOf w e).op ≤ 0x15)
    (fits : Fits i (wdOf w e) (aluUse 2 .p true)) : Answers (.setF32 r w e) s fun t =>
      let f (l : Nat) := fCmp (wdOf w e).strict ((wdOf w e).op - 0x10) (fOperand u i (wdOf w e) 0 l) (fOperand u i (wdOf w e) 1 l)
      PredicateResult i (wdOf w e) u t (actingLanes i (wdOf w e)) (fun l => (f l).1) (setFlags i (wdOf w e) f) :=
  vecSet_answers (c := .setF32 r w e) issues (rfl : execSetF32 r w e s = runIsa (fun o => decide (0x10 ≤ o) && decide (o ≤ 0x15)) r w e s _)
    (by simp [opListed, low, high]) (by simp [low, high]) fits rfl

/-- The integer comparisons: opcode and function (Table 8.7). -/
theorem setIntRows_answer {rows : List (Nat × (W32 → W32 → Bool))} (issues : IssuesWord s r w e i u)
    (h : ∀ x ∈ rows, (0x59 ≤ x.1 ∧ x.1 ≤ 0x62) ∧ ∀ a b, setI x.1 a b = x.2 a b) :
    ∀ x ∈ rows, (wdOf w e).op = x.1 → Fits i (wdOf w e) (aluUse 2 .p false) → Answers (.setInt r w e) s fun t =>
      PredicateResult i (wdOf w e) u t (actingLanes i (wdOf w e))
        (fun l => x.2 (operand u i (wdOf w e) 0 0 l) (operand u i (wdOf w e) 1 0 l)) 0 := by
  intro x hx op fits
  obtain ⟨⟨low, high⟩, same⟩ := h x hx
  have answers := vecSet_answers (c := .setInt r w e) issues
    (rfl : execSetInt r w e s = runIsa (fun o => decide (0x59 ≤ o) && decide (o ≤ 0x62)) r w e s _)
    (by simp [op, opListed]; omega) (by simp [op, low, high]) fits rfl
  rw [setFlags_clear fun _ => rfl, op] at answers
  simpa only [← same] using answers

/-! ### Predicate operations and lane masks (R208, R212, R214) -/

/-- A predicate written in every lane. -/
theorem writeAll_result (issues : IssuesWord s r w e i u) (f : Nat → Bool) :
    PredicateResult i (wdOf w e) u (isaEnd s i (wdOf w e) (.next (writeAll u i (wdOf w e).dst f))) (countUp 0 i.x.width) f 0 :=
  Regrouped.predicateResult issues (by rw [raiseFlags_zero]; exact issues.regrouped.writeP _ _)

/-- Scalar words written. -/
theorem writeS_result (issues : IssuesWord s r w e i u) (canonical : Canonical i u) (vs : List W32) :
    ScalarResult i (wdOf w e) u (isaEnd s i (wdOf w e) (.next (writeS u i (scalarWords (wdOf w e).dst vs)))) vs 0 :=
  Regrouped.scalarResult issues canonical (by rw [raiseFlags_zero]; exact issues.regrouped.writeS _)

/-- The predicate operations: command, opcode, whether it takes two predicates, and function (Table 8.8). -/
theorem predRows_answer {rows : List (Instr × Nat × Bool × (Bool → Bool → Bool))} (issues : IssuesWord s r w e i u)
    (h : ∀ x ∈ rows, opListed x.2.1 = true ∧ exec x.1 s = predOp x.2.1 x.2.2.1 x.2.2.2 r w e s) :
    ∀ x ∈ rows, (wdOf w e).op = x.2.1 →
      Fits i (wdOf w e) { a := .pred, b := if x.2.2.1 then .pred else .no, d := .p, predZero := true } → Answers x.1 s fun t =>
        PredicateResult i (wdOf w e) u t (countUp 0 i.x.width)
          (fun l => x.2.2.2 (predBit i.g (wdOf w e).s0 l) (predBit i.g (wdOf w e).s1 l)) 0 := by
  intro x hx op fits
  obtain ⟨listed, run⟩ := h x hx
  exact issues.answers run (by rw [op]; exact listed) (by simp [op]) (checked_fits fits rfl) (writeAll_result issues _)

/-- The lanes whose exec bits `wrexec` sets. -/
theorem testBit_wrexec (v width exited l : Nat) : (v % 2 ^ width - (v % 2 ^ width &&& exited)).testBit l =
    (decide (l < width) && v.testBit l && !exited.testBit l) := by
  rw [testBit_sub_and, Nat.testBit_mod_two_pow]

theorem pathExec_nodup (i : Issue) : (pathExec i).Nodup := by
  refine List.Nodup.filter _ ?_
  rw [countUp_eq_range']; exact List.nodup_range'

/-- The mask that `ballot` writes. -/
theorem testBit_ballot (i : Issue) (p l : Nat) : (((pathExec i).filter (predBit i.g p)).foldl (fun a l => a + 2 ^ l) 0).testBit l =
    (decide (l ∈ pathExec i) && predBit i.g p l) := by
  rw [testBit_laneMask ((pathExec_nodup i).filter _)]
  simp [List.mem_filter]

/-- `rdlane` writes the lane's register where a lane acts. -/
theorem rdlane_acts {wd : Wd} (fits : Fits i wd { a := .vec 1, b := .sca 1, d := .s 1 }) (some : actingLanes i wd ≠ []) (x : State → W32) :
    checked i wd { a := .vec 1, b := .sca 1, d := .s 1 } true u (fun t =>
      if (actingLanes i wd).isEmpty then .next t else .next (writeS t i [(wd.dst, x t)])) = .next (writeS u i [(wd.dst, x u)]) := by
  rw [checked_fits fits rfl, if_neg (by simpa using some)]

end

end Sys2Proof.Machine

namespace Sys2Proof

open Machine

/-- Settles O28. Every row changes its group alone: a predicate bit by bit, a lane's bit put in or taken out; a pair of scalars; or the exec
bits, those of W lanes without the exited ones. -/
theorem predicateInstructions : Obligations.PredicateInstructions := by
  unfold Obligations.PredicateInstructions
  intro s u r w e i issues canonical wd lanes
  refine ⟨setF32_answers issues, setIntRows_answer issues ?_, predRows_answer issues ?_, fun op fits => ?_, fun op fits _ => ?_, fun op fits => ?_,
    fun op fits => ?_, fun op fits acting => ?_⟩
  · simp only [List.forall_mem_cons]
    exact ⟨⟨by decide, fun _ _ => rfl⟩, ⟨by decide, fun _ _ => (decide_not ..).symm⟩, ⟨by decide, fun _ _ => rfl⟩, ⟨by decide, fun _ _ => rfl⟩,
      ⟨by decide, fun _ _ => rfl⟩, ⟨by decide, fun _ _ => rfl⟩, ⟨by decide, fun _ _ => rfl⟩, ⟨by decide, fun _ _ => rfl⟩,
      ⟨by decide, fun _ _ => rfl⟩, ⟨by decide, fun _ _ => rfl⟩, fun _ h => absurd h List.not_mem_nil⟩
  · simp only [List.forall_mem_cons]
    exact ⟨⟨rfl, rfl⟩, ⟨rfl, rfl⟩, ⟨rfl, rfl⟩, ⟨rfl, rfl⟩, fun _ h => absurd h List.not_mem_nil⟩
  · exact issues.answers (rfl : execS2p r w e s = runIsa (· == 0xF7) r w e s _) (by rw [op]; rfl) (by rw [op]; rfl) (checked_fits fits rfl)
      (writeAll_result issues _)
  · exact issues.answers (rfl : execBallot r w e s = runIsa (· == 0xF6) r w e s _) (by rw [op]; rfl) (by rw [op]; rfl)
      (checked_fits fits rfl) ⟨_, writeS_result issues canonical [_, _], testBit_ballot i wd.s0⟩
  · exact issues.answers (rfl : execRdexec r w e s = runIsa (· == 0xF8) r w e s _) (by rw [op]; rfl) (by rw [op]; rfl)
      (checked_fits fits rfl) (writeS_result issues canonical [_, _])
  · refine issues.answers (rfl : execWrexec r w e s = runIsa (· == 0xF9) r w e s _) (by rw [op]; rfl) (by rw [op]; rfl)
      (checked_fits fits rfl) ((issues.regrouped.update _).goes issues ⟨rfl, rfl, rfl, (Nat.or_zero _).symm⟩ fun y sregs preds exec => ?_)
    exact ⟨sregs, preds, fun l => by rw [exec]; exact testBit_wrexec _ _ _ l⟩
  · exact issues.answers (rfl : execRdlane r w e s = runIsa (· == 0x58) r w e s _) (by rw [op]; rfl) (by rw [op]; rfl)
      (rdlane_acts fits acting fun t => operand t i wd 0 0 ((operand t i wd 1 0 (scalarLane i)).toNat % i.x.width))
      (writeS_result issues canonical [_])

end Sys2Proof
end
section
/-! PROOFS. O29. -/

namespace Sys2Proof.Machine

section
variable {s u : State} {r : GRef} {w e : W64} {i : Issue}

/-! ### Scalar forms (R212) -/

/-- Scalar words written and flags raised. -/
theorem writeS_raised_result (issues : IssuesWord s r w e i u) (canonical : Canonical i u) (vs : List W32) (fl : Nat) :
    ScalarResult i (wdOf w e) u (isaEnd s i (wdOf w e)
      (.next (updGroup (writeS u i (scalarWords (wdOf w e).dst vs)) i (fun g => raiseFlags g fl)))) vs fl :=
  ((issues.regrouped.writeS _).update _).scalarResult issues canonical

/-- A predicate written in every lane and flags raised. -/
theorem writeAll_raised_result (issues : IssuesWord s r w e i u) (f : Nat → Bool) (fl : Nat) :
    PredicateResult i (wdOf w e) u (isaEnd s i (wdOf w e)
      (.next (updGroup (writeAll u i (wdOf w e).dst f) i (fun g => raiseFlags g fl)))) (countUp 0 i.x.width) f fl :=
  ((issues.regrouped.writeP _ _).update _).predicateResult issues

/-- The opcodes of the vector numbering that have a scalar form. -/
theorem opListed_scalarForm : ∀ o < 0x63, o ≤ 8 ∨ (0x10 ≤ o ∧ o ≤ 0x15) ∨ (0x40 ≤ o ∧ o ≤ 0x56) ∨ 0x59 ≤ o → opListed (0x80 + o) = true := by
  decide

/-- A scalar form acts as its opcode's row of the vector numbering says. -/
theorem scalarAlu_answers {o : Nat} {v : State} {P : State → Prop} (issues : IssuesWord s r w e i u) (op : (wdOf w e).op = 0x80 + o)
    (short : o < 0x63) (form : o ≤ 8 ∨ (0x10 ≤ o ∧ o ≤ 0x15) ∨ (0x40 ≤ o ∧ o ≤ 0x56) ∨ 0x59 ≤ o)
    (acts : scalarForm i (wdOf w e) o u = .next v) (post : P (isaEnd s i (wdOf w e) (.next v))) : Answers (.scalarAlu r w e) s P :=
  issues.answers (rfl : execScalarAlu r w e s = runIsa (fun o => decide (0x80 ≤ o) && decide (o < 0xF0)) r w e s _)
    (by rw [op]; exact opListed_scalarForm o short form) (by simp [op]; omega) (by simpa [op] using acts) post

section
variable {wd : Wd} {o : Nat}

theorem scalarForm_float (h : o ≤ 8) (fits : Fits i wd (scalarUse (aluSrcs o) (.s 1) true)) :
    let x := aluF o wd.strict (fOperand u i wd 0 (scalarLane i)) (fOperand u i wd 1 (scalarLane i)) (fOperand u i wd 2 (scalarLane i))
    scalarForm i wd o u = .next (updGroup (writeS u i (scalarWords wd.dst [x.v])) i (fun g => raiseFlags g x.fl)) := by
  rw [scalarForm, if_pos h, checked_fits fits rfl]; rfl

theorem scalarForm_floatSet (h : 0x10 ≤ o ∧ o ≤ 0x15) (fits : Fits i wd (scalarUse 2 .p true)) :
    let x := fCmp wd.strict (o - 0x10) (fOperand u i wd 0 (scalarLane i)) (fOperand u i wd 1 (scalarLane i))
    scalarForm i wd o u = .next (updGroup (writeAll u i wd.dst (fun _ => x.1)) i (fun g => raiseFlags g x.2)) := by
  rw [scalarForm, if_neg (by omega), if_pos h.2, checked_fits fits rfl]

theorem scalarForm_select (fits : Fits i wd { a := .sca 1, b := .sca 1, c := .pred, d := .s 1, predZero := true }) :
    scalarForm i wd 0x55 u = .next (updGroup (writeS u i (scalarWords wd.dst [if predBit i.g wd.s2 (scalarLane i)
      then operand u i wd 0 0 (scalarLane i) else operand u i wd 1 0 (scalarLane i)])) i (fun g => raiseFlags g 0)) := by
  rw [scalarForm, if_neg (by decide), if_neg (by decide), if_pos rfl, checked_fits fits rfl]; rfl

theorem scalarForm_integer (h : 0x40 ≤ o ∧ o ≤ 0x56) (other : o ≠ 0x55) (fits : Fits i wd (scalarUse (aluSrcs o) (.s 1) false)) :
    scalarForm i wd o u = .next (updGroup (writeS u i (scalarWords wd.dst [aluI o (operand u i wd 0 0 (scalarLane i))
      (operand u i wd 1 0 (scalarLane i)) (operand u i wd 2 0 (scalarLane i))])) i (fun g => raiseFlags g 0)) := by
  rw [scalarForm, if_neg (by omega), if_neg (by omega), if_neg other, if_pos h.2, checked_fits fits rfl]; rfl

theorem scalarForm_integerSet (h : 0x59 ≤ o) (fits : Fits i wd (scalarUse 2 .p false)) : scalarForm i wd o u =
    .next (writeAll u i wd.dst (fun _ => setI o (operand u i wd 0 0 (scalarLane i)) (operand u i wd 1 0 (scalarLane i)))) := by
  rw [scalarForm, if_neg (by omega), if_neg (by omega), if_neg (by omega), if_neg (by omega), checked_fits fits rfl]

end

/-! ### 64-bit sums and differences, and flags cleared (R212, R234) -/

/-- A 64-bit row writes its value as a pair. -/
theorem scalar64_answers {c : Instr} {n : Nat} {f : Nat → Nat → Nat} (issues : IssuesWord s r w e i u) (canonical : Canonical i u)
    (run : exec c s = scalar64 n f r w e s) (listed : opListed n = true) (op : (wdOf w e).op = n)
    (fits : Fits i (wdOf w e) { a := .sca 2, b := .sca 2, d := .s 2, predZero := true }) : Answers c s fun t =>
      let v := f (operandPair u i (wdOf w e) 0 (scalarLane i)) (operandPair u i (wdOf w e) 1 (scalarLane i))
      ScalarResult i (wdOf w e) u t [BitVec.ofNat 32 v, BitVec.ofNat 32 (v / 2 ^ 32)] 0 :=
  issues.answers run (by rw [op]; exact listed) (by simp [op]) (checked_fits fits rfl) (writeS_result issues canonical [_, _])

theorem operandPair_lt (u : State) (i : Issue) (wd : Wd) (n lane : Nat) : operandPair u i wd n lane < 2 ^ 64 := by
  have low := (operand u i wd n 0 lane).isLt
  have high := (operand u i wd n 1 lane).isLt
  unfold operandPair; omega

/-- A difference modulo 2^64, without numbers below zero. -/
theorem sub_mod_pow {a b : Nat} (hb : b < 2 ^ 64) : (a + 2 ^ 64 - b) % 2 ^ 64 = (((a : Int) - b) % 2 ^ 64).toNat := by
  omega

theorem testBit_clearGroupFlags (g : Group) (v : W32) (k : Nat) :
    (clearGroupFlags g v).flags.testBit k = (g.flags.testBit k && !(decide (k < 8) && v.toNat.testBit k)) := by
  rw [clearGroupFlags, testBit_sub_and, show 256 = 2 ^ 8 by rfl, Nat.testBit_mod_two_pow]

/-- `clrflags` takes the flags that its operand names out of the group's, and nothing else. -/
theorem clearGroupFlags_goes (issues : IssuesWord s r w e i u) (v : W32) :
    let t := isaEnd s i (wdOf w e) (.next (updGroup u i (fun g => clearGroupFlags g v)))
    CoresOnly i.d u t ∧ (getCores t i.d).vrf = (getCores u i.d).vrf ∧ ∃ g, groupOf t i.d i.gid = some g ∧ g.sregs = i.g.sregs ∧
      g.preds = i.g.preds ∧ g.exec = i.g.exec ∧
      ∀ k, g.flags.testBit k = (i.g.flags.testBit k && !(decide (k < 8) && v.toNat.testBit k)) := by
  have cleared := issues.regrouped.update (fun g => clearGroupFlags g v)
  have goes := isaEnd_next (s := s) (wd := wdOf w e) cleared.group
  obtain ⟨y, found, after, -⟩ := goes.group
  obtain ⟨sregs, preds, exec, flags, -⟩ := after.kept
  exact ⟨cleared.moved.coresOnly.trans goes.only, goes.vrf.trans cleared.moved.vrf, y, found, sregs, preds, exec,
    fun k => by rw [flags]; exact testBit_clearGroupFlags i.g v k⟩

end

end Sys2Proof.Machine

namespace Sys2Proof

open Machine

/-- Settles O29. A scalar form runs the branch that its opcode has in the vector numbering, on the operands of one lane; a 64-bit difference
is taken with 2^64 added first. -/
theorem scalarInstructions : Obligations.ScalarInstructions := by
  unfold Obligations.ScalarInstructions
  intro s u r w e i issues canonical wd l pair
  refine ⟨fun o ho op fits => ?_, fun o low high other op fits => ?_, fun op fits => ?_, fun o low high op fits => ?_,
    fun o low high op fits => ?_, fun op fits => ?_, fun op fits => ?_, fun op fits => ?_, fun op fits => ?_, fun op fits => ?_,
    fun op fits => ?_⟩
  · exact scalarAlu_answers issues op (by omega) (.inl ho) (scalarForm_float ho fits) (writeS_raised_result issues canonical _ _)
  · exact scalarAlu_answers issues op (by omega) (.inr (.inr (.inl ⟨low, high⟩))) (scalarForm_integer ⟨low, high⟩ other fits)
      (writeS_raised_result issues canonical _ _)
  · exact scalarAlu_answers issues op (by decide) (by decide) (scalarForm_select fits) (writeS_raised_result issues canonical _ _)
  · exact scalarAlu_answers issues op (by omega) (.inr (.inl ⟨low, high⟩)) (scalarForm_floatSet ⟨low, high⟩ fits)
      (writeAll_raised_result issues _ _)
  · exact scalarAlu_answers issues op (by omega) (.inr (.inr (.inr low))) (scalarForm_integerSet low fits) (writeAll_result issues _)
  · exact scalar64_answers (c := .sadd64 r w e) (f := fun a b => (a + b) % 2 ^ 64) issues canonical rfl rfl op fits
  · have answers := scalar64_answers (c := .ssub64 r w e) (f := fun a b => (a + 2 ^ 64 - b) % 2 ^ 64) issues canonical rfl rfl op fits
    simp only [sub_mod_pow (operandPair_lt u i _ 1 _)] at answers
    exact answers
  · exact issues.answers (rfl : execRdflags r w e s = runIsa (· == 0x303) r w e s _) (by rw [op]; rfl) (by rw [op]; rfl)
      (checked_fits fits rfl) (writeS_result issues canonical [_])
  · exact issues.answers (rfl : execClrflags r w e s = runIsa (· == 0x304) r w e s _) (by rw [op]; rfl) (by rw [op]; rfl)
      (checked_fits fits rfl) (clearGroupFlags_goes issues _)
  · exact issues.answers (rfl : execRdtime r w e s = runIsa (· == 0x305) r w e s _) (by rw [op]; rfl) (by rw [op]; rfl)
      (checked_fits fits rfl) (writeS_result issues canonical (pair _))
  · refine issues.answers (rfl : execNop r w e s = runIsa (· == 0x306) r w e s _) (by rw [op]; rfl) (by rw [op]; rfl)
      (checked_fits fits rfl) (Regrouped.scalarResult issues canonical ?_)
    rw [raiseFlags_zero]
    exact (scalarsWritten_none i.g).symm ▸ issues.regrouped

end Sys2Proof
end
section
/-! PROOFS. Textures (R224, R264 to R267): what reading texels leaves, and an operation that goes last under a counter. -/

namespace Sys2Proof.Machine

/-! ### What texture reads leave (R264, R266, R267) -/

theorem readTexel_looked (s : State) (i : Issue) (t : TexDesc) (level slice x y : Nat) : Looked s (readTexel s i t level slice x y).2 := by
  have bytes (u : State) (fuel va n : Nat) := vaBytes_looked i.d i.x.ctx fuel va n u
  unfold readTexel
  extract_lets d c b blkVa full
  split
  · have read := bytes s 2 blkVa (blockShape t.fmt).2.2
    generalize vaBytes d c 2 blkVa (blockShape t.fmt).2.2 s = r1 at read
    obtain ⟨_ | b1, s1⟩ := r1 <;> exact read
  split
  · have read := bytes s 2 (texelVa t level slice x y) (texelBytes t.fmt)
    generalize vaBytes d c 2 (texelVa t level slice x y) (texelBytes t.fmt) s = r1 at read
    obtain ⟨_ | b1, s1⟩ := r1 <;> exact read
  · have marks := bytes s 1 (texMetaVa t slice b.1) 1
    generalize vaBytes d c 1 (texMetaVa t slice b.1) 1 s = r1 at marks
    obtain ⟨_ | m, s1⟩ := r1
    · exact marks
    dsimp only
    generalize (if full / 32 < leNat m then 0 else 32 * leNat m) = n
    have read := marks.trans (bytes s1 2 blkVa n)
    generalize vaBytes d c 2 blkVa n s1 = r2 at read
    obtain ⟨_ | b2, s2⟩ := r2
    · exact read
    dsimp only
    split
    · split
      · exact read.trans rfl
      · exact read
    · exact read

theorem readTaps_looked (i : Issue) (t : TexDesc) (sm : Sampler) (quad : List W32) (ps : List TexTap) (s : State)
    (acc : List (Nat × Int × List W32)) : Looked s (readTaps i t sm quad ps s acc).2 := by
  induction ps generalizing s acc with
  | nil => exact Looked.refl s
  | cons p r ih =>
    unfold readTaps
    extract_lets got
    have tap : Looked s got.2 := by
      unfold got
      split
      · exact readTexel_looked s i t p.level p.slice _ _
      · exact Looked.refl s
    clear_value got
    obtain ⟨_ | v, s1⟩ := got
    · exact tap
    · exact tap.trans (ih _ _)

theorem texLane_looked (s : State) (i : Issue) (w : Wd) (t : TexDesc) (sm : Sampler) (lane : Nat) : Looked s (texLane s i w t sm lane).2 := by
  unfold texLane
  extract_lets m q quad c reg
  have taps := readTaps_looked i t sm quad (sampleTaps t sm m.lod quad reg c) s []
  generalize readTaps i t sm quad (sampleTaps t sm m.lod quad reg c) s [] = r at taps
  obtain ⟨_ | v, s1⟩ := r <;> exact taps

theorem texldLane_looked (s : State) (i : Issue) (w : Wd) (t : TexDesc) (lane : Nat) : Looked s (texldLane s i w t lane).2 := by
  unfold texldLane
  split
  next p _ =>
    have texel := readTexel_looked s i t p.1 p.2.1 p.2.2.1 p.2.2.2
    generalize readTexel s i t p.1 p.2.1 p.2.2.1 p.2.2.2 = r at texel
    obtain ⟨_ | v, s1⟩ := r <;> exact texel
  next => exact Looked.refl s

theorem texLanes_looked {f : Nat → State → Except TexFault (List W32) × State} (hf : ∀ l s, Looked s (f l s).2) (ls : List Nat) (s : State)
    (acc : List (Nat × List W32)) : Looked s (texLanes f ls s acc).2 := by
  induction ls generalizing s acc with
  | nil => exact Looked.refl s
  | cons l r ih =>
    have lane := hf l s
    unfold texLanes
    generalize f l s = x at lane
    obtain ⟨_ | v, s1⟩ := x
    · exact lane
    · exact lane.trans (ih _ _)

/-- Lanes that each answer from what is known already. -/
theorem texLanes_pure (f : Nat → List W32) (ls : List Nat) (s : State) (acc : List (Nat × List W32)) :
    texLanes (fun l t => (.ok (f l), t)) ls s acc = (.ok (acc ++ ls.map (fun l => (l, f l))), s) := by
  induction ls generalizing acc with
  | nil => simp [texLanes]
  | cons l r ih => simp [texLanes, ih]

theorem texstLane_looked (s : State) (i : Issue) (w : Wd) (t : TexDesc) (lane : Nat) : Looked s (texstLane s i w t lane).2 := by
  unfold texstLane
  split
  · exact Looked.refl s
  next p _ =>
    extract_lets va
    have asked := translate_looked_ask s i.d i.x.ctx va { write := true }
    generalize translate s i.d i.x.ctx va { write := true } = r at asked
    obtain ⟨_ | ⟨pa, o⟩, s1⟩ := r
    · exact asked
    · dsimp only; split <;> exact asked

theorem texstLanes_looked (i : Issue) (w : Wd) (t : TexDesc) (ls : List Nat) (s : State) (acc : List (Nat × Nat × List Host.Cell)) :
    Looked s (texstLanes i w t ls s acc).2 := by
  induction ls generalizing s acc with
  | nil => exact Looked.refl s
  | cons l r ih =>
    have lane := texstLane_looked s i w t l
    unfold texstLanes
    generalize texstLane s i w t l = x at lane
    obtain ⟨_ | _ | v, s1⟩ := x
    · exact lane
    · exact lane.trans (ih _ _)
    · exact lane.trans (ih _ _)

/-! ### An operation that goes last under a counter (R157, R158) -/

section
variable {s u v z : State} {r : GRef} {w e : W64} {i : Issue}

/-- A counter's operations stand as its group is only rescheduled. -/
def CounterStands (q : Group → List CountedOp) : Prop := ∀ g y, AfterIssue g y → q y = q g

theorem counterStands_tq : CounterStands (·.tq) := fun g y h => by unfold AfterIssue at h; rw [h]

theorem counterStands_sq : CounterStands (·.sq) := fun g y h => by unfold AfterIssue at h; rw [h]

/-- A group that has changed in one counter alone: its registers, flags and paths stand. -/
structure CountedIn (g y : Group) : Prop where
  sregs : y.sregs = g.sregs
  preds : y.preds = g.preds
  flags : y.flags = g.flags
  paths : y.paths = g.paths
  cur : y.cur = g.cur

/-- An operation's number is taken, and besides it only the near caches of die `d` may differ. -/
def Numbered (d : DieId) (z v : State) : Prop := ∃ n, v = { setCores z d { getCores z d with near := n } with nextId := z.nextId + 1 }

theorem numbered_next (d : DieId) (z : State) : Numbered d z { z with nextId := z.nextId + 1 } :=
  ⟨(getCores z d).near, congrArg (fun u => { u with nextId := z.nextId + 1 }) (setCores_getCores z d).symm⟩

theorem numbered_setNear (d : DieId) (z : State) (m : Nat) (n : NearCache) :
    Numbered d z { setNear z d m n with nextId := (setNear z d m n).nextId + 1 } := ⟨_, rfl⟩

/-- From what the accesses' translation has left, an operation put last under a counter is issued. -/
theorem opIssued_counted {q : Group → List CountedOp} {f : Group → Group} {op : CountedOp} {P : CountedOp → Prop}
    (issues : IssuesWord s r w e i u) (looked : Looked u z) (numbered : Numbered i.d z v) (stands : CounterStands q)
    (counted : CountedIn i.g (f i.g)) (last : q (f i.g) = q i.g ++ [op]) (fresh : op.stale = []) (hp : P op) :
    OpIssued i (wdOf w e) z (isaEnd s i (wdOf w e) (.next (updGroup v i f))) q P := by
  obtain ⟨n, rfl⟩ := numbered
  have cores : getCores { setCores z i.d { getCores z i.d with near := n } with nextId := z.nextId + 1 } i.d = { getCores z i.d with near := n } :=
    getCores_setCores z i.d _
  generalize hv : ({ setCores z i.d { getCores z i.d with near := n } with nextId := z.nextId + 1 } : State) = v at *
  have group : groupOf v i.d i.gid = some i.g := by
    rw [groupOf, cores, looked.getCores]; exact issues.group
  have put := groupsMoved_setGroup v i.d i.gid (f i.g)
  have goes := isaEnd_next (s := s) (wd := wdOf w e) (groupOf_setGroup_same v i.d i.gid (f i.g))
  have only := put.coresOnly.trans goes.only
  rw [updGroup_eq group]
  obtain ⟨y, found, after, path⟩ := goes.group
  obtain ⟨sregs, preds, -, flags, -⟩ := after.kept
  refine ⟨?_, (goes.vrf.trans put.vrf).trans (by rw [cores]), (goes.tile.trans put.tile).trans (by rw [cores]), y, op,
    found, (stands _ _ after).trans last, sregs.trans counted.sregs, preds.trans counted.preds, flags.trans counted.flags,
    fun m hm => path m (counted.paths.trans hm) (counted.cur.trans (issues.current hm)), fresh, hp⟩
  generalize isaEnd s i (wdOf w e) (.next (setGroup v i.d i.gid (f i.g))) = t at only
  rw [CoresOnly, ← hv] at only
  simpa [setCores, getCores] using only

end

end Sys2Proof.Machine
end
section
/-! PROOFS. O33. -/

namespace Sys2Proof.Machine

section
variable {s u v z : State} {r : GRef} {w e : W64} {i : Issue} {c : Instr} {b : List Byte} {d : TexDesc}

/-! ### Results under TCNT (R157, R224) -/

/-- The operation `op` brings, for each lane of `vs`, the components of MASK to the registers from DST on. -/
def BringsComponents (wd : Wd) (vs : List (Nat × List W32)) (op : CountedOp) : Prop :=
  op.kind = .fixed ∧ op.dst = wd.dst ∧ op.flags = 0 ∧
    (∀ x, x ∈ op.result ↔ ∃ y ∈ vs, ∃ k, k < 4 ∧ (texMod wd).mask.testBit k = true ∧ x = (wd.dst + k, y.1, lget 0 y.2 k)) ∧
    op.dests = op.result.map (fun x => (x.1, x.2.1))

theorem mem_components (wd : Wd) (vs : List (Nat × List W32)) (x : Nat × Nat × W32) :
    x ∈ vs.flatMap (fun v => ((countUp 0 4).filter (fun k => (texMod wd).mask.testBit k)).map (fun k => (wd.dst + k, v.1, lget 0 v.2 k))) ↔
      ∃ y ∈ vs, ∃ k, k < 4 ∧ (texMod wd).mask.testBit k = true ∧ x = (wd.dst + k, y.1, lget 0 y.2 k) := by
  simp only [List.mem_flatMap, List.mem_map, List.mem_filter, mem_countUp]
  constructor
  · rintro ⟨y, hy, k, ⟨⟨-, hk⟩, on⟩, rfl⟩
    exact ⟨y, hy, k, by omega, on, rfl⟩
  · rintro ⟨y, hy, k, hk, on, rfl⟩
    exact ⟨y, hy, k, ⟨⟨Nat.zero_le k, by omega⟩, on⟩, rfl⟩

theorem texBytes_looked (u : State) (i : Issue) (wd : Wd) (n : Nat) : Looked u (texBytes u i wd n).2 := vaBytes_looked _ _ _ _ _ u

theorem texOp_issued (issues : IssuesWord s r w e i u) (looked : Looked u z) (vs : List (Nat × List W32)) :
    OpIssued i (wdOf w e) z (isaEnd s i (wdOf w e) (texOp z i (wdOf w e) vs)) (·.tq) (BringsComponents (wdOf w e) vs) :=
  opIssued_counted issues looked (numbered_next i.d z) counterStands_tq ⟨rfl, rfl, rfl, rfl, rfl⟩ rfl rfl
    ⟨rfl, rfl, rfl, mem_components (wdOf w e) vs, rfl⟩

/-! ### Rows that write a quad (R224, R265) -/

/-- The operands of a texture row that writes a quad, with or without coordinates. -/
def texUse (wd : Wd) (coords : Bool) : Use :=
  { a := if coords then .reg (coordRegs (texMod wd)) else .no, b := .sca 2, d := .v 4, mods := 0x3FF }

section
variable {n : Nat} {coords sampler : Bool}
  {lane : Issue → Wd → TexDesc → List Byte → Nat → State → Except TexFault (List W32) × State}
  (issues : IssuesWord s r w e i u) (acting : actingLanes i (wdOf w e) ≠ []) (run : exec c s = texRow n coords sampler r w e s lane)
  (listed : opListed n = true) (op : (wdOf w e).op = n) (fits : Fits i (wdOf w e) (texUse (wdOf w e) coords)) (room : i.g.tq.length < 63)
  (read : texBytes u i (wdOf w e) (if sampler then 96 else 64) = (.ok b, v))
include issues acting run listed op fits room read

/-- A good descriptor that agrees with the word, with its sampler: the lanes' components are issued. -/
theorem texRow_answers {vs : List (Nat × List W32)} (desc : texDescOf b = some d) (agrees : texAgrees (texMod (wdOf w e)) d = true)
    (sampled : (!sampler || (samplerOf (b.drop 64)).isSome) = true) (looks : ∀ l t, Looked t (lane i (wdOf w e) d (b.drop 64) l t).2)
    (lanes : texLanes (lane i (wdOf w e) d (b.drop 64)) (actingLanes i (wdOf w e)) v [] = (.ok vs, z)) :
    Answers c s fun t => OpIssued i (wdOf w e) z t (·.tq) (BringsComponents (wdOf w e) vs) := by
  have first : Looked u v := by simpa only [read] using texBytes_looked u i (wdOf w e) (if sampler then 96 else 64)
  have second : Looked v z := by simpa only [lanes] using texLanes_looked looks (actingLanes i (wdOf w e)) v []
  refine issues.answers run (by rw [op]; exact listed) (by simp [op]) ?_ (texOp_issued issues (first.trans second) vs)
  refine (checked_fits fits rfl).trans ?_
  rw [if_neg (Nat.not_le.mpr room), if_neg (by simpa using acting), read]
  simp only [desc, agrees, sampled, Bool.and_self, if_true, lanes]
  rfl

/-- A descriptor with a reserved encoding: zeros are issued (R265). -/
theorem texRow_reserved (desc : texDescOf b = none) : Answers c s fun t =>
    OpIssued i (wdOf w e) v t (·.tq) (BringsComponents (wdOf w e) ((actingLanes i (wdOf w e)).map (fun l => (l, [0, 0, 0, 0])))) := by
  have first : Looked u v := by simpa only [read] using texBytes_looked u i (wdOf w e) (if sampler then 96 else 64)
  refine issues.answers run (by rw [op]; exact listed) (by simp [op]) ?_ (texOp_issued issues first _)
  refine (checked_fits fits rfl).trans ?_
  rw [if_neg (Nat.not_le.mpr room), if_neg (by simpa using acting), read]
  simp only [desc]
  rfl

end

/-- A lane of `tex`, with the bytes of its sampler. -/
def texSampled (i : Issue) (wd : Wd) (d : TexDesc) (sb : List Byte) (l : Nat) (t : State) : Except TexFault (List W32) × State :=
  match samplerOf sb with
  | some sm => texLane t i wd d sm l
  | none => (.ok (rep 4 0), t)

theorem exec_tex : exec (.tex r w e) s = texRow 0x200 true true r w e s texSampled := rfl

theorem exec_texld : exec (.texld r w e) s = texRow 0x201 true false r w e s (fun i wd d _ l t => texldLane t i wd d l) := rfl

/-- What `texq` gives of a descriptor (R224). -/
def texSizes (d : TexDesc) : List W32 := [BitVec.ofNat 32 d.w, BitVec.ofNat 32 d.h, BitVec.ofNat 32 d.depth, BitVec.ofNat 32 d.levels]

theorem exec_texq : exec (.texq r w e) s = texRow 0x203 false false r w e s (fun _ _ d _ _ t => (.ok (texSizes d), t)) := rfl

theorem texSampled_some {sb : List Byte} {sm : Sampler} (h : samplerOf sb = some sm) (wd : Wd) :
    texSampled i wd d sb = fun l t => texLane t i wd d sm l := by
  funext l t
  simp only [texSampled, h]

/-! ### Stores under SCNT (R157, R163) -/

theorem issueStore_issued (issues : IssuesWord s r w e i u) (looked : Looked u z) (room : i.g.sq.length < 63) (data : List (Nat × Byte))
    (access : List LaneAccess) : OpIssued i (wdOf w e) z (isaEnd s i (wdOf w e) (issueStore i data access z)) (·.sq)
      (fun op => op.kind = .store data) := by
  rw [issueStore, if_neg (Nat.not_le.mpr room)]
  exact opIssued_counted issues looked (numbered_setNear i.d z _ _) counterStands_sq ⟨rfl, rfl, rfl, rfl, rfl⟩ rfl rfl rfl

section
variable (issues : IssuesWord s r w e i u) (acting : actingLanes i (wdOf w e) ≠ []) (op : (wdOf w e).op = 0x202)
  (fits : Fits i (wdOf w e) { a := .reg (coordRegs (texMod (wdOf w e))), b := .sca 2, c := .reg 4, mods := 0x3FF })
  (read : texBytes u i (wdOf w e) 64 = (.ok b, v)) (room : i.g.sq.length < 63)
include issues acting op fits read room

/-- `texst` through a good descriptor of a plain image stores its lanes' texels. -/
theorem texst_answers {xs : List (Nat × Nat × List Host.Cell)} (desc : texDescOf b = some d)
    (agrees : texAgrees (texMod (wdOf w e)) d = true) (target : isTarget d.fmt = true) (plain : d.metaVa = 0)
    (lanes : texstLanes i (wdOf w e) d (actingLanes i (wdOf w e)) v [] = (.ok xs, z)) : Answers (.texst r w e) s fun t =>
      OpIssued i (wdOf w e) z t (·.sq) (fun op => op.kind = .store (xs.flatMap (fun x => x.2.2))) := by
  have first : Looked u v := by simpa only [read] using texBytes_looked u i (wdOf w e) 64
  have second : Looked v z := by simpa only [lanes] using texstLanes_looked i (wdOf w e) d (actingLanes i (wdOf w e)) v []
  refine ⟨_, (issues.runs (row := (· == 0x202)) (by rw [op]; rfl) (by rw [op]; rfl) : execTexst r w e s = _), ?_⟩
  rw [checked_fits fits rfl, if_neg (by simpa using acting), read]
  simp only [desc, agrees, target, plain, beq_self_eq_true, Bool.and_self, if_true, lanes]
  exact issueStore_issued issues (first.trans second) room _ _

/-- `texst` through a descriptor with a reserved encoding stores nothing. -/
theorem texst_reserved (desc : texDescOf b = none) : Answers (.texst r w e) s fun t =>
    OpIssued i (wdOf w e) v t (·.sq) (fun op => op.kind = .store []) := by
  have first : Looked u v := by simpa only [read] using texBytes_looked u i (wdOf w e) 64
  refine ⟨_, (issues.runs (row := (· == 0x202)) (by rw [op]; rfl) (by rw [op]; rfl) : execTexst r w e s = _), ?_⟩
  rw [checked_fits fits rfl, if_neg (by simpa using acting), read]
  simp only [desc]
  exact issueStore_issued issues first room _ _

end

end

end Sys2Proof.Machine

namespace Sys2Proof

open Machine

/-- Settles O33. Reading a descriptor and the texels changes no more than a look-up may, so the group still stands as it issued and the
operation goes last under its counter. -/
theorem textureInstructions : Obligations.TextureInstructions := by
  unfold Obligations.TextureInstructions
  intro s u v z r w e i b d issues acting wd m result quads
  have withCoords (some : 0 < coordRegs m) (h : quads (coordRegs m)) : Fits i wd (texUse wd true) ∧ i.g.tq.length < 63 := by
    simp only [quads, if_neg (Nat.ne_of_gt some)] at h
    exact h
  have alone (h : quads 0) : Fits i wd (texUse wd false) ∧ i.g.tq.length < 63 := h
  refine ⟨fun sm vs op fits some read desc agrees samp lanes => ?_, fun vs op fits some read desc agrees lanes => ?_,
    fun op fits read desc agrees => ?_, ?_, fun op fits read room =>
      ⟨fun xs => texst_answers issues acting op fits read room, texst_reserved issues acting op fits read room⟩⟩
  · obtain ⟨fits, room⟩ := withCoords some fits
    have lane := texSampled_some (i := i) (d := d) samp wd
    exact texRow_answers (sampler := true) issues acting exec_tex rfl op fits room read desc agrees (by simp [samp])
      (fun l t => by rw [lane]; exact texLane_looked t i wd d sm l) (by rw [lane]; exact lanes)
  · obtain ⟨fits, room⟩ := withCoords some fits
    exact texRow_answers (sampler := false) issues acting exec_texld rfl op fits room read desc agrees rfl
      (fun l t => texldLane_looked t i wd d l) lanes
  · obtain ⟨fits, room⟩ := alone fits
    exact texRow_answers (sampler := false) issues acting exec_texq rfl op fits room read desc agrees rfl
      (fun _ t => Looked.refl t) (texLanes_pure (fun _ => texSizes d) _ v [])
  · simp only [List.forall_mem_cons]
    refine ⟨fun op fits some read desc => ?_, fun op fits some read desc => ?_, fun op fits _ read desc => ?_,
      fun _ h => absurd h List.not_mem_nil⟩
    · obtain ⟨fits, room⟩ := withCoords some (by simpa [op] using fits)
      exact texRow_reserved (sampler := true) issues acting exec_tex rfl op fits room read desc
    · obtain ⟨fits, room⟩ := withCoords some (by simpa [op] using fits)
      exact texRow_reserved (sampler := false) issues acting exec_texld rfl op fits room read desc
    · obtain ⟨fits, room⟩ := alone (by simpa [op] using fits)
      exact texRow_reserved (sampler := false) issues acting exec_texq rfl op fits room read desc

end Sys2Proof
end
section
/-! PROOFS. A core fault (R66, R169): the contexts and the memory that the end of its dispatch leaves, and the context FAULTED. -/

namespace Sys2Proof.Machine

/-! ### What leaves the contexts and memory -/

/-- Memory and D0's contexts are the same in two states. -/
def ContextsStand (s t : State) : Prop := t.mem = s.mem ∧ (getTables t 0).contexts = (getTables s 0).contexts

theorem ContextsStand.refl (s : State) : ContextsStand s s := ⟨rfl, rfl⟩

theorem ContextsStand.trans {s t u : State} (h1 : ContextsStand s t) (h2 : ContextsStand t u) : ContextsStand s u :=
  ⟨h2.1.trans h1.1, h2.2.trans h1.2⟩

theorem contextsStand_foldl {α : Type} {f : State → α → State} (hf : ∀ s x, ContextsStand s (f s x)) (l : List α) (s : State) :
    ContextsStand s (l.foldl f s) := by
  induction l generalizing s with
  | nil => exact .refl s
  | cons x r ih => exact (hf s x).trans (ih _)

theorem contextsStand_ite {c : Prop} [Decidable c] {s t u : State} (ht : ContextsStand s t) (hu : ContextsStand s u) :
    ContextsStand s (if c then t else u) := by
  split
  · exact ht
  · exact hu

theorem CoresOnly.contextsStand {d : DieId} {s t : State} (h : CoresOnly d s t) : ContextsStand s t := by
  rw [h]; exact ⟨rfl, rfl⟩

theorem ReleasesOnly.contextsStand {s t : State} (h : ReleasesOnly s t) : ContextsStand s t := ⟨by rw [h.frame], h.contexts⟩

theorem Looked.contextsStand {s t : State} (h : Looked s t) : ContextsStand s t := by
  unfold Looked at h; rw [h]; exact ⟨rfl, rfl⟩

section
variable (s : State) (d : DieId)

theorem contextsStand_setCores (k : Cores) : ContextsStand s (setCores s d k) := ⟨rfl, rfl⟩

theorem contextsStand_fillQuarter (m q : Nat) : ContextsStand s (fillQuarter d m q s) :=
  (activeMoved_fillQuarter s d m q).groupsMoved.coresOnly.contextsStand

theorem contextsStand_refreshSlot (c : Nat) : ContextsStand s (refreshSlot s d c) := (groupsMoved_refreshSlot s d c).coresOnly.contextsStand

theorem contextsStand_afterGroup (g : Group) : ContextsStand s (afterGroup s d g) := (groupsMoved_afterGroup s d g).coresOnly.contextsStand

theorem contextsStand_opOver (q count : Nat) (good : Bool) : ContextsStand s (opOver s d q count good) := by
  rw [opOver_queues]; exact ⟨rfl, rfl⟩

theorem contextsStand_endDispatch (i : Nat) (good : Bool) : ContextsStand s (endDispatch s d i good) := by
  have dropped (t : State) (os : List Nat) : ContextsStand t (dropPins t d os) := (dropPins_releasesOnly t d os).contextsStand
  unfold endDispatch
  split
  · exact .refl s
  · refine ContextsStand.trans (contextsStand_setCores s d _) (contextsStand_ite (.refl _) (contextsStand_ite ?_ ?_))
    · exact (dropped _ _).trans (contextsStand_ite ⟨rfl, rfl⟩ (contextsStand_opOver _ d _ _ true))
    · exact (dropped _ _).trans (contextsStand_opOver _ d _ _ false)

theorem contextsStand_settleDisp (i : Nat) : ContextsStand s (settleDisp s d i) := by
  unfold settleDisp
  split
  · exact .refl s
  · exact contextsStand_ite (.refl s) (contextsStand_ite (contextsStand_endDispatch s d i false)
      (contextsStand_ite (contextsStand_endDispatch s d i true) (.refl s)))

theorem contextsStand_sweepGroup (g : Nat) : ContextsStand s (sweepGroup s d g) := by
  have settled (t : State) (k : Cores) (i m q : Nat) : ContextsStand t (fillQuarter d m q (settleDisp (setCores t d k) d i)) :=
    ((contextsStand_setCores t d k).trans (contextsStand_settleDisp _ d i)).trans (contextsStand_fillQuarter _ d m q)
  unfold sweepGroup
  split
  · exact .refl s
  · refine contextsStand_ite (ContextsStand.trans (contextsStand_setCores s d _) (contextsStand_ite (contextsStand_afterGroup _ d _) ?_))
      (contextsStand_afterGroup s d _)
    split
    · split
      · exact (settled _ _ _ _ _).trans (contextsStand_refreshSlot _ d _)
      · exact settled _ _ _ _ _
    · exact .refl _

theorem contextsStand_killDispatch (i : Nat) : ContextsStand s (killDispatch s d i) := by
  have marked (t : State) : ContextsStand t (match dispOf t d i with | some x => setDisp t d i { x with dead := true } | none => t) := by
    split
    · exact contextsStand_setCores t d _
    · exact .refl t
  unfold killDispatch; dsimp only
  refine ContextsStand.trans ?_ (contextsStand_settleDisp _ d i)
  refine ContextsStand.trans ?_ (contextsStand_foldl (fun t g => contextsStand_sweepGroup t d g) _ _)
  exact (contextsStand_setCores s d _).trans (marked _)

end

/-- A pass marked aborted changes the passes of its dies. -/
theorem contextsStand_markAborted (s : State) (p : GeoPass) : ContextsStand s (markAborted s p) :=
  contextsStand_foldl (fun t n => by split <;> exact ⟨rfl, rfl⟩) _ s

theorem contextsStand_abortFaulted (s : State) (d : DieId) (x : Dispatch) : ContextsStand s (abortFaulted s d x) := by
  unfold abortFaulted
  split
  · exact contextsStand_ite (.refl s) ((contextsStand_foldl (fun t i => contextsStand_killDispatch t d i) _ s).trans (contextsStand_markAborted _ _))
  · exact .refl s

/-! ### The context FAULTED (R66, R169) -/

/-- A live context whose tenant is not being reset becomes FAULTED, and no byte of memory changes. -/
theorem faultContext_faults {s : State} (d : DieId) {c : Nat} (live : (ctxOf s 0 c).state = .live)
    (stays : resettingTenant s (ctxOf s 0 c).tenant = false) :
    (faultContext s d c).mem = s.mem ∧ (ctxOf (faultContext s d c) 0 c).state = .faulted := by
  have listed : ({ ctxOf s 0 c with state := .faulted } : Ctx) ≠ ctxFree := ne_ctxFree (by simp)
  have put := congrArg Ctx.state (ctxOf_putCtx_same s c listed)
  rw [faultContext, if_neg (by simp [live, stays])]
  exact ⟨rfl, put⟩

section
variable {u : State} {d : DieId} {gid : Nat} {g : Group} {b : Block} {x : Dispatch}

variable (group : groupOf u d gid = some g) (block : blockOf u d g.block = some b) (disp : blockDisp u d b = some x) (alive : x.dead = false)
  (code cause addr : Nat)
include group block disp alive

/-- A fault in a dispatch that lives is recorded, its context faults, and the dispatch ends. -/
theorem coreFault_eq : ∃ v, Looked u v ∧
    coreFault u d gid code cause addr none = abortFaulted (killDispatch (faultContext v d x.ctx) d b.disp) d x := by
  have recorded : Looked u (if code = 0x0310 ∧ cause < 0x10 then xlateFault u d x.ctx addr cause 0x04 b.core x.queue else u) := by
    split
    · exact (xlateFault_looked u d x.ctx addr cause 0x04 b.core x.queue).1
    · exact Looked.refl u
  have logged (t : State) (e : LogInfo) : Looked t (logEntry t d e) := rfl
  unfold coreFault
  rw [group]; dsimp only
  rw [block]; dsimp only
  rw [disp]; dsimp only
  rw [if_neg (by simp [alive])]
  exact ⟨_, recorded.trans (logged _ _), rfl⟩

/-- It puts its context to FAULTED, and no byte of memory changes. -/
theorem coreFault_faults (live : (ctxOf u 0 x.ctx).state = .live) (stays : resettingTenant u (ctxOf u 0 x.ctx).tenant = false) :
    (coreFault u d gid code cause addr none).mem = u.mem ∧ (ctxOf (coreFault u d gid code cause addr none) 0 x.ctx).state = .faulted := by
  obtain ⟨v, recorded, fault⟩ := coreFault_eq group block disp alive code cause addr
  obtain ⟨mem, faulted⟩ := faultContext_faults (s := v) d (c := x.ctx) (by rw [recorded.ctxOf]; exact live)
    (by rw [recorded.ctxOf, resettingTenant, recorded.tenantOf]; exact stays)
  obtain ⟨kept, contexts⟩ := (contextsStand_killDispatch (faultContext v d x.ctx) d b.disp).trans (contextsStand_abortFaulted _ d x)
  rw [fault]
  refine ⟨kept.trans (mem.trans recorded.contextsStand.1), ?_⟩
  rw [ctxOf, contexts]; exact faulted

end

/-- A group that issues stands in its block, and that in its dispatch. -/
theorem issueOf_block {s : State} {r : GRef} {i : Issue} (h : issueOf s r = some i) : blockOf s i.d i.g.block = some i.b ∧ blockDisp s i.d i.b = some i.x := by
  unfold issueOf at h
  split at h
  · cases h
  · split at h
    next p b x cur block disp =>
      rw [block] at disp
      split at h
      · cases h; exact ⟨block, disp⟩
      · cases h
    · cases h

end Sys2Proof.Machine
end
section
/-! PROOFS. Words that no row takes (R144, R205, R211): the fetch, the list of opcodes and the checks of operands that each row meets first. -/

namespace Sys2Proof.Machine

/-! ### Every shader instruction goes through one runner (R201) -/

/-- A row of the shader's table runs by `runIsa`, with its opcodes and what it does with a word of its own. -/
def IsRow (f : GRef → W64 → W64 → State → Host.Outcome State Fault Refusal) : Prop :=
  ∃ row k, ∀ r w e s, f r w e s = runIsa row r w e s k

theorem runIsa_isRow (row : Nat → Bool) (k) : IsRow (fun r w e s => runIsa row r w e s k) := ⟨row, k, fun _ _ _ _ => rfl⟩
theorem vecF_isRow (row : Nat → Bool) : IsRow (vecF row) := runIsa_isRow _ _
theorem vecI_isRow (row : Nat → Bool) : IsRow (vecI row) := runIsa_isRow _ _
theorem vecS_isRow (row : Nat → Bool) : IsRow (vecS row) := runIsa_isRow _ _
theorem scalar64_isRow (op : Nat) (f : Nat → Nat → Nat) : IsRow (scalar64 op f) := runIsa_isRow _ _
theorem predOp_isRow (op : Nat) (two : Bool) (f : Bool → Bool → Bool) : IsRow (predOp op two f) := runIsa_isRow _ _
theorem atomRow_isRow (row : Nat → Bool) (sixtyFour cas : Bool) : IsRow (atomRow row sixtyFour cas) := runIsa_isRow _ _
theorem tileRow_isRow (row : Nat → Bool) (use : Wd → Use) (more : Wd → Bool) (lanes) :
    IsRow (fun r w e s => tileRow row use more r w e s lanes) := runIsa_isRow _ _
theorem texRow_isRow (op : Nat) (coords sampler : Bool) (lane) : IsRow (fun r w e s => texRow op coords sampler r w e s lane) :=
  runIsa_isRow _ _
theorem tatomRow_isRow (row : Nat → Bool) (cas : Bool) : IsRow (tatomRow row cas) := tileRow_isRow _ _ _ _

/-- The rows as their commands run, each of those that share a runner as an instance of it. -/
theorem isaRows_exec : isaRows.map (fun c r w e s => exec (c r w e) s) =
    [vecF (· == 0), vecF (· == 1), vecF (· == 2), vecF (· == 3), vecF (· == 4), vecF (· == 5), vecF (· == 6), vecF (· == 7),
      vecF (· == 8), execSetF32, vecI (· == 0x40), vecI (· == 0x41), vecI (· == 0x42), vecI (· == 0x43),
      vecI (fun o => o == 0x44 || o == 0x45), vecI (fun o => decide (0x46 ≤ o) && decide (o ≤ 0x49)), vecI (· == 0x4A), vecI (· == 0x4B),
      vecI (· == 0x4C), vecI (· == 0x4D), vecI (· == 0x4E), vecI (fun o => o == 0x4F || o == 0x50), vecI (· == 0x51), vecI (· == 0x52),
      vecI (· == 0x53), vecI (· == 0x54), execSel, vecI (· == 0x56), execShfl, execRdlane, execSetInt, execScalarAlu,
      scalar64 0xF0 (fun a b => (a + b) % 2 ^ 64), scalar64 0xF1 (fun a b => (a + 2 ^ 64 - b) % 2 ^ 64),
      predOp 0xF2 true (fun a b => a && b), predOp 0xF3 true (fun a b => a || b), predOp 0xF4 true xor,
      predOp 0xF5 false (fun a _ => !a), execBallot, execS2p, execRdexec, execWrexec, execCvt, execMxq, execMxdq, vecS (· == 0x140),
      vecS (· == 0x141), vecS (· == 0x142), vecS (· == 0x143), vecS (· == 0x144), vecS (· == 0x145), vecS (· == 0x146),
      vecS (· == 0x147), execLd, execSt, execSld, execSst, execTld, execTst,
      tatomRow (fun o => (decide (0x1C2 ≤ o) && decide (o ≤ 0x1C7)) || o == 0x1CB || o == 0x1CC) false, tatomRow (· == 0x1C8) false,
      tatomRow (· == 0x1C9) true, tatomRow (· == 0x1CA) false, execTex, execTexld, execTexst, execTexq, execMma,
      atomRow (· == 0x280) true false, atomRow (· == 0x281) false false,
      atomRow (fun o => decide (0x282 ≤ o) && decide (o ≤ 0x285)) false false,
      atomRow (fun o => decide (0x286 ≤ o) && decide (o ≤ 0x288)) false false, atomRow (· == 0x289) true false,
      atomRow (· == 0x28A) true true, execBr, execCall, execRet, execExit, execBar, execWait, execSleep, execInvNear, execRdflags,
      execClrflags, execRdtime, execNop] := rfl

theorem isaRows_run : ∀ c ∈ isaRows, IsRow (fun r w e s => exec (c r w e) s) := by
  have tile : IsRow execTld ∧ IsRow execTst := ⟨tileRow_isRow _ _ _ _, tileRow_isRow _ _ _ _⟩
  have texture : IsRow execTex ∧ IsRow execTexld ∧ IsRow execTexq := ⟨texRow_isRow _ _ _ _, texRow_isRow _ _ _ _, texRow_isRow _ _ _ _⟩
  rw [← List.forall_mem_map (P := IsRow), isaRows_exec]
  simp only [List.forall_mem_cons, vecF_isRow, vecI_isRow, vecS_isRow, scalar64_isRow, predOp_isRow, atomRow_isRow, tatomRow_isRow, tile,
    texture, true_and, List.not_mem_nil, false_imp_iff, implies_true, and_true]
  and_intros
  all_goals exact runIsa_isRow _ _

section
variable {s u : State} {r : GRef} {w e : W64} {i : Issue} {row : Nat → Bool} {k : Issue → Wd → State → IsaRes}

/-- A fetch that fails is the core fault of its cause, at the pc. -/
theorem runIsa_fetch_fails {code cause : Nat} (issue : issueOf s r = some i) (fetch : codeWord s i.d i.x.ctx i.pc = (.error (code, cause), u)) :
    runIsa row r w e s k = .next (useFree (coreFault u i.d i.gid code cause i.pc none)) := by
  simp only [runIsa, issue, fetch]; rfl

/-- A word whose opcode no table lists is ILLEGAL_OP. -/
theorem runIsa_unlisted (issue : issueOf s r = some i) (fetch : codeWord s i.d i.x.ctx i.pc = (.ok w, u))
    (unlisted : opListed (wdOf w e).op = false) : runIsa row r w e s k = .next (useFree (coreFault u i.d i.gid 0x0315 0 0 none)) := by
  simp only [runIsa, issue, fetch, unlisted, ne_eq, not_true_eq_false, if_false]
  rfl

/-! ### The checks of operands (R144, R205) -/

theorem checked_illegal {wd : Wd} {use : Use} {more : Bool} {k : State → IsaRes} (h : wordLegal wd use = false) :
    checked i wd use more u k = .fault 0x0315 0 0 u := by
  simp [checked, h]

theorem checked_beyond {wd : Wd} {use : Use} {k : State → IsaRes} (legal : wordLegal wd use = true) (h : i.x.vregs < wordTop wd use) :
    checked i wd use true u k = .fault 0x0313 0 0 u := by
  simp [checked, legal, h]

/-- The row `f` meets the operand checks of `use` before all else that it does with its opcode `n`. -/
def ChecksFirst (f : GRef → W64 → W64 → State → Host.Outcome State Fault Refusal) (n : Nat) (use : Use) : Prop :=
  opListed n = true ∧ ∃ row k, (∀ r w e s, f r w e s = runIsa row r w e s k) ∧ row n = true ∧
    ∀ i wd u, wd.op = n → ∃ rest, k i wd u = checked i wd use true u rest

theorem vecF_checksFirst {n m : Nat} (listed : opListed n = true) (own : row n = true) (srcs : aluSrcs n = m) :
    ChecksFirst (vecF row) n (aluUse m (.v 1) true) :=
  ⟨listed, row, _, fun _ _ _ _ => rfl, own, fun _ _ _ op => ⟨_, by rw [← srcs, ← op]; rfl⟩⟩

theorem vecI_checksFirst {n m : Nat} (listed : opListed n = true) (own : row n = true) (srcs : aluSrcs n = m) :
    ChecksFirst (vecI row) n (aluUse m (.v 1) false) :=
  ⟨listed, row, _, fun _ _ _ _ => rfl, own, fun _ _ _ op => ⟨_, by rw [← srcs, ← op]; rfl⟩⟩

theorem vecS_checksFirst {n : Nat} (listed : opListed n = true) (own : row n = true) (one : n ≠ 0x147) :
    ChecksFirst (vecS row) n (aluUse 1 (.v 1) true) :=
  ⟨listed, row, _, fun _ _ _ _ => rfl, own, fun _ _ _ op => ⟨_, by simp only [op, one, if_false]; rfl⟩⟩

theorem execSetInt_checksFirst {n : Nat} (listed : opListed n = true) (low : 0x59 ≤ n) (high : n ≤ 0x62) :
    ChecksFirst execSetInt n (aluUse 2 .p false) :=
  ⟨listed, _, _, fun _ _ _ _ => rfl, by simp [low, high], fun _ _ _ _ => ⟨_, rfl⟩⟩

/-- A word that breaks the rules of its operands, or names a register beyond the kernel's, ends in the core fault of that. -/
theorem ChecksFirst.faults {f : GRef → W64 → W64 → State → Host.Outcome State Fault Refusal} {n : Nat} {use : Use}
    (h : ChecksFirst f n use) (issues : IssuesWord s r w e i u) (op : (wdOf w e).op = n) :
    (wordLegal (wdOf w e) use = false → f r w e s = .next (useFree (coreFault u i.d i.gid 0x0315 0 0 none))) ∧
      (wordLegal (wdOf w e) use = true → i.x.vregs < wordTop (wdOf w e) use →
        f r w e s = .next (useFree (coreFault u i.d i.gid 0x0313 0 0 none))) := by
  obtain ⟨listed, row, k, runs, own, checks⟩ := h
  obtain ⟨rest, first⟩ := checks i (wdOf w e) u op
  rw [runs, issues.runs (by rw [op]; exact listed) (by rw [op]; exact own), first]
  exact ⟨fun bad => by rw [checked_illegal bad]; rfl, fun legal beyond => by rw [checked_beyond legal beyond]; rfl⟩

/-! ### What a fault at issue leaves (R66, R169) -/

/-- A core fault of the group that issues, in a state that its fetches have left: the context is FAULTED and memory stands. -/
theorem issueFault_leaves (issue : issueOf s r = some i) (looked : Looked s u) (alive : i.x.dead = false)
    (live : (ctxOf s 0 i.x.ctx).state = .live) (stays : resettingTenant s (ctxOf s 0 i.x.ctx).tenant = false) (code cause addr : Nat) :
    let t := useFree (coreFault u i.d i.gid code cause addr none)
    (ctxOf t 0 i.x.ctx).state = .faulted ∧ ∀ p, memByte t p = memByte s p := by
  obtain ⟨-, -, group, -⟩ := issueOf_some issue
  obtain ⟨block, disp⟩ := issueOf_block issue
  obtain ⟨mem, faulted⟩ := coreFault_faults (u := u) (by rw [groupOf, looked.getCores]; exact group)
    (by rw [blockOf, looked.getCores]; exact block) (by rw [blockDisp, dispOf, looked.getCores]; exact disp) alive code cause addr
    (by rw [looked.ctxOf]; exact live) (by rw [looked.ctxOf, resettingTenant, looked.tenantOf]; exact stays)
  exact ⟨faulted, fun p => (congrArg (mget 0 · p) mem).trans (looked.memByte p)⟩

end

end Sys2Proof.Machine

namespace Sys2Proof

open Machine

/-- Settles O35. Every row meets its fetch and the list of opcodes before its own work, and its operands' checks first of that; whatever the
fault, the end of the dispatch leaves the contexts and memory but for the context that faulted. -/
theorem illegalShaderWords : Obligations.IllegalShaderWords := by
  unfold Obligations.IllegalShaderWords
  intro s r w e i issue alive live stays faults
  have leaves {c : Instr} {u : State} {code cause addr : Nat} (looked : Looked s u)
      (run : exec c s = .next (useFree (coreFault u i.d i.gid code cause addr none))) : faults c u code cause addr := by
    obtain ⟨faulted, mem⟩ := issueFault_leaves issue looked alive live stays code cause addr
    exact ⟨_, run, rfl, faulted, mem⟩
  have fetched {x : Except (Nat × Nat) W64} {u : State} (fetch : codeWord s i.d i.x.ctx i.pc = (x, u)) : Looked s u := by
    simpa only [fetch] using codeWord_looked s i.d i.x.ctx i.pc
  refine ⟨fun c hc => ?_, fun u issues => ?_⟩
  · obtain ⟨row, k, runs⟩ := isaRows_run c hc
    exact ⟨fun u fetch unlisted => leaves (fetched fetch) ((runs r w e s).trans (runIsa_unlisted issue fetch unlisted)),
      fun u code cause fetch => leaves (fetched fetch) ((runs r w e s).trans (runIsa_fetch_fails issue fetch))⟩
  · have row {c f} {n : Nat} {use : Use} (run : exec c s = f r w e s) (checks : ChecksFirst f n use) (op : (wdOf w e).op = n) :
        (wordLegal (wdOf w e) use = false → faults c u 0x0315 0 0) ∧
          (wordLegal (wdOf w e) use = true → i.x.vregs < wordTop (wdOf w e) use → faults c u 0x0313 0 0) := by
      obtain ⟨illegal, beyond⟩ := checks.faults issues op
      exact ⟨fun bad => leaves issues.looked (run.trans (illegal bad)),
        fun legal top => leaves issues.looked (run.trans (beyond legal top))⟩
    have add : ChecksFirst (vecI (· == 0x40)) 0x40 (aluUse 2 (.v 1) false) := vecI_checksFirst rfl rfl rfl
    have mad : ChecksFirst (vecI (· == 0x43)) 0x43 (aluUse 3 (.v 1) false) := vecI_checksFirst rfl rfl rfl
    have addF32 : ChecksFirst (vecF (· == 0)) 0 (aluUse 2 (.v 1) true) := vecF_checksFirst rfl rfl rfl
    have setInt : ChecksFirst execSetInt 0x59 (aluUse 2 .p false) := execSetInt_checksFirst rfl (by decide) (by decide)
    have sqrt : ChecksFirst (vecS (· == 0x142)) 0x142 (aluUse 1 (.v 1) true) := vecS_checksFirst rfl rfl (by decide)
    simp only [List.forall_mem_cons]
    exact ⟨row rfl add, row rfl mad, row rfl addF32, row rfl setInt, row rfl sqrt, List.forall_mem_nil _⟩

end Sys2Proof
end
section
/-! PROOFS. A pass aborted whose group bears a dispatch's number (R241). -/

namespace Sys2Proof.Machine

/-- A pass of queue 0's record 0 that has been aborted on die 0. -/
def abortedPass : GeoPass := { passOfDesc 0 0 0 { frame := 0, queue := 0, count := 0, desc := [] } 0 with aborted := true }

/-- A vertex group of that pass. -/
def abortedGroup : Dispatch :=
  geoDispatch abortedPass [] 8 ({ width := 16, vregs := 16, groups := 1, orphan := 0, tileKib := 0, argWords := 0, entry := 0 }, []) 0
    { sub := abortedPass.sub, draw := 0, tile := none, blend := 0, varyings := 0, scalars := [], lanes := [] }

/-- The record with two operations out: the pass, and a dispatch of its program's. -/
def twoOpsRun : RunRec :=
  { record := { count := 0, program := 0, serial := false, tag := 0, arg0 := 0, arg1 := 0, ended := none }, frame := 0, status := none,
    ctxFault := false, aborted := false, opsOut := 2 }

/-- Die 0 with the aborted pass, whose group stands in the table of dispatches under the number of a dispatch that the same record
launched. -/
def twiceNumbered : State :=
  let s := setGeo State.reset 0 { geoReset with passes := [abortedPass] }
  let t := setQueues s 0 [(0, { queueFree with state := .running, runs := [twoOpsRun] })]
  setCores t 0 { coresReset with dispatches := [(0, { abortedGroup with engine := 1, geo := none }), (0, abortedGroup)] }

/-- The shape and the forms asked of a state do not exclude it: they say nothing of the dispatches that a die lists. -/
theorem twiceNumbered_wellFormed : Shape twiceNumbered ∧ Forms twiceNumbered := by
  unfold Shape Forms; decide

/-- The abort stops the dispatch as well as the pass, and its record has no operation out any more. -/
theorem exec_twiceNumbered : ∃ t, exec (.passAbort 0 0) twiceNumbered = .next t ∧ (queueOf t 0 0).runs.map (fun r => r.opsOut) = [0] :=
  ⟨_, rfl, by decide⟩

end Sys2Proof.Machine

namespace Sys2Proof

open Machine

/-- Refutes O36: an aborted pass's groups are stopped by their numbers in the die's table of dispatches, and the statement asks nothing of
that table. Where a group's number is that of a dispatch too, the dispatch is stopped in its place: its record loses two operations, where
the statement has it lose the pass alone. -/
theorem not_renderPassesBeginTogether : ¬ Obligations.RenderPassesBeginTogether := by
  unfold Obligations.RenderPassesBeginTogether
  rintro ⟨-, -, aborts⟩
  obtain ⟨t, run, -, ended, -⟩ := aborts twiceNumbered 0 0 abortedPass rfl
  obtain ⟨u, run', none⟩ := exec_twiceNumbered
  obtain rfl : t = u := Host.Outcome.next.inj (run.symm.trans run')
  have left := ended twoOpsRun List.mem_cons_self rfl
  have one : 1 ∈ (queueOf t 0 0).runs.map (fun r => r.opsOut) := List.mem_map.mpr ⟨_, left, rfl⟩
  rw [none] at one
  exact absurd one (by decide)

end Sys2Proof
end
section
/-! PROOFS. Render passes on their dies (R236 to R243): the passes of one descriptor replaced on several dies, and what leaves the passes and memory
as they are. -/

namespace Sys2Proof.Machine

/-! ### What leaves passes and memory -/

/-- Every die's passes and every byte of memory are the same in two states. -/
def PassesStand (s t : State) : Prop := t.mem = s.mem ∧ t.geo = s.geo

namespace PassesStand

variable {s t u : State}

theorem refl (s : State) : PassesStand s s := ⟨rfl, rfl⟩

theorem trans (h1 : PassesStand s t) (h2 : PassesStand t u) : PassesStand s u := ⟨h2.1.trans h1.1, h2.2.trans h1.2⟩

theorem foldl {β : Type} {f : State → β → State} (h : ∀ t b, PassesStand t (f t b)) (l : List β) (s : State) : PassesStand s (l.foldl f s) := by
  induction l generalizing s with
  | nil => exact .refl s
  | cons b r ih => exact (h s b).trans (ih _)

theorem ite {c : Prop} [Decidable c] (ht : PassesStand s t) (hu : PassesStand s u) : PassesStand s (if c then t else u) := by
  split
  · exact ht
  · exact hu

theorem memByte (h : PassesStand s t) (a : Nat) : memByte t a = memByte s a := congrArg (mget 0 · a) h.1

theorem getGeo (h : PassesStand s t) (n : DieId) : getGeo t n = getGeo s n := congrArg (qget · n) h.2

end PassesStand

theorem Looked.passesStand {s t : State} (h : Looked s t) : PassesStand s t := by
  unfold Looked at h; rw [h]; exact ⟨rfl, rfl⟩

theorem CoresAndIds.passesStand {d : DieId} {s t : State} (h : CoresAndIds d s t) : PassesStand s t := by rw [h]; exact ⟨rfl, rfl⟩

theorem ReleasesOnly.passesStand {s t : State} (h : ReleasesOnly s t) : PassesStand s t := by rw [h.frame]; exact ⟨rfl, rfl⟩

theorem GroupsMoved.coresAndIds {d : DieId} {s t : State} (h : GroupsMoved d s t) : CoresAndIds d s t := by
  have ids : t.nextId = s.nextId := by rw [h]; rfl
  unfold CoresAndIds; rw [ids]; exact h.only

/-- The slots of a context looked at again change the dies' cores alone. -/
theorem settlePass_cores (c : Nat) (s : State) : settlePass c s = { s with cores := (settlePass c s).cores } := by
  unfold settlePass
  generalize allDies = l
  induction l generalizing s with
  | nil => rfl
  | cons n r ih =>
    obtain ⟨slots, refreshed⟩ := refreshSlot_slots s n c
    rw [List.foldl_cons, ih, refreshed]; rfl

theorem passesStand_settlePass (c : Nat) (s : State) : PassesStand s (settlePass c s) := by rw [settlePass_cores]; exact ⟨rfl, rfl⟩

theorem passesStand_faultContext (s : State) (d : DieId) (c : Nat) : PassesStand s (faultContext s d c) := .ite (.refl s) ⟨rfl, rfl⟩

/-! ### Groups of a pass placed (R121, R243) -/

section
variable (d : DieId)

theorem coresAndIds_addGroups (x : Dispatch) (b m : Nat) (gs : List (Nat × Nat)) (k : Nat) (s : State) :
    CoresAndIds d s (addGroups d x b m gs k s) := by
  induction gs generalizing k s with
  | nil => exact .refl s
  | cons p r ih =>
    have preset : CoresAndIds d s (presetRegs s d x m p.1 p.2) := by
      unfold presetRegs; split
      · exact .refl s
      · simp [CoresAndIds, setCores, getCores]
    refine (preset.trans ?_).trans (ih _ _)
    simp [CoresAndIds, setGroup, setCores, getCores]

theorem coresAndIds_placeBlock (s : State) (i : Nat) (x : Dispatch) (m off : Nat) (gs : List (Nat × Nat)) :
    CoresAndIds d s (placeBlock s d i x m off gs) := by
  rw [placeBlock_eq]
  refine (blockEntered_leaves s d i x m off).1.trans ((coresAndIds_addGroups d x s.nextId m gs 0 _).trans ?_)
  exact (activeMoved_fillCore _ d m).groupsMoved.coresAndIds.trans (groupsMoved_refreshSlot _ d x.ctx).coresAndIds

theorem coresAndIds_placeNext (s : State) (e : Nat) : CoresAndIds d s (placeNext s d e) := by
  unfold placeNext
  split
  · exact .refl s
  · split
    · exact .refl s
    · split
      · exact .refl s
      · exact coresAndIds_placeBlock d s _ _ _ _ _

theorem coresAndIds_placeGeo (s : State) : CoresAndIds d s (placeGeo d s) := by
  unfold placeGeo; dsimp only
  generalize countUp 0 _ = l
  induction l generalizing s with
  | nil => exact .refl s
  | cons n r ih => exact (coresAndIds_placeNext d s 0).trans (ih _)

theorem placeGeo_frame (s : State) : placeGeo d s = { s with cores := (placeGeo d s).cores, nextId := (placeGeo d s).nextId } := by
  rw [coresAndIds_placeGeo d s]; rfl

theorem passesStand_placeGeo (s : State) : PassesStand s (placeGeo d s) := (coresAndIds_placeGeo d s).passesStand

end

/-! ### Groups of a pass stopped (R169, R241) -/

/-- What the end of a dispatch and every change of the die's cores have in common, the end of a dispatch's groups has. -/
theorem killDispatch_along {d : DieId} {R : State → State → Prop} (refl : ∀ s, R s s) (trans : ∀ {s t u}, R s t → R t u → R s u)
    (cores : ∀ s k, R s (setCores s d k)) (ended : ∀ s i good, R s (endDispatch s d i good)) (s : State) (i : Nat) :
    R s (killDispatch s d i) := by
  have ite {c : Prop} [Decidable c] {s t u : State} (ht : R s t) (hu : R s u) : R s (if c then t else u) := by
    split
    · exact ht
    · exact hu
  have moved {s t : State} (h : GroupsMoved d s t) : R s t := by rw [h]; exact cores s _
  have folded {β : Type} {f : State → β → State} (h : ∀ t b, R t (f t b)) (l : List β) (s : State) : R s (l.foldl f s) := by
    induction l generalizing s with
    | nil => exact refl s
    | cons b r ih => exact trans (h s b) (ih _)
  have settled (s : State) (i : Nat) : R s (settleDisp s d i) := by
    unfold settleDisp
    split
    · exact refl s
    · exact ite (refl s) (ite (ended s i false) (ite (ended s i true) (refl s)))
  have filled (s : State) (m q : Nat) : R s (fillQuarter d m q s) := moved (activeMoved_fillQuarter s d m q).groupsMoved
  have swept (s : State) (g : Nat) : R s (sweepGroup s d g) := by
    unfold sweepGroup
    split
    · exact refl s
    · refine ite (trans (cores s _) (ite (moved (groupsMoved_afterGroup _ d _)) ?_)) (moved (groupsMoved_afterGroup s d _))
      split
      · have gone (t : State) (k : Cores) (i m q : Nat) : R t (fillQuarter d m q (settleDisp (setCores t d k) d i)) :=
          trans (trans (cores t k) (settled _ i)) (filled _ m q)
        split
        · exact trans (gone _ _ _ _ _) (moved (groupsMoved_refreshSlot _ d _))
        · exact gone _ _ _ _ _
      · exact refl _
  have marked (t : State) : R t (match dispOf t d i with | some x => setDisp t d i { x with dead := true } | none => t) := by
    split
    · exact cores t _
    · exact refl t
  unfold killDispatch; dsimp only
  exact trans (trans (trans (cores s _) (marked _)) (folded swept _ _)) (settled _ i)

theorem passesStand_setCores (s : State) (d : DieId) (k : Cores) : PassesStand s (setCores s d k) := ⟨rfl, rfl⟩

/-- The end of an operation leaves passes and memory (R101). -/
theorem passesStand_opOver (s : State) (d : DieId) (q count : Nat) (good : Bool) : PassesStand s (opOver s d q count good) := by
  rw [opOver_queues]; exact ⟨rfl, rfl⟩

theorem passesStand_opFinish (s : State) (d : DieId) (q count : Nat) (fence : Bool) (pa : Nat) (v : W64) (pins : List Nat) :
    PassesStand s (opFinish s d q count fence pa v pins) :=
  (dropPins_releasesOnly s d pins).passesStand.trans (.ite ⟨rfl, rfl⟩ (passesStand_opOver _ d q count true))

theorem passesStand_opStop (s : State) (d : DieId) (q count : Nat) (pins : List Nat) : PassesStand s (opStop s d q count pins) :=
  (dropPins_releasesOnly s d pins).passesStand.trans (passesStand_opOver _ d q count false)

theorem passesStand_killDispatch (s : State) (d : DieId) (i : Nat) : PassesStand s (killDispatch s d i) := by
  refine killDispatch_along .refl .trans (fun t k => passesStand_setCores t d k) (fun t i good => ?_) s i
  unfold endDispatch
  split
  · exact .refl t
  · exact (passesStand_setCores t d _).trans
      (.ite (.refl _) (.ite (passesStand_opFinish _ d _ _ _ _ _ _) (passesStand_opStop _ d _ _ _)))

theorem passesStand_killPass (s : State) (d : DieId) (sub : Nat) : PassesStand s (killPass s d sub) :=
  .foldl (fun t i => passesStand_killDispatch t d i) _ s

theorem contextsStand_killPass (s : State) (d : DieId) (sub : Nat) : ContextsStand s (killPass s d sub) :=
  contextsStand_foldl (fun t i => contextsStand_killDispatch t d i) _ s

theorem sameTenants_killPass (s : State) (d : DieId) (sub : Nat) : SameTenants s (killPass s d sub) :=
  sameTenants_foldl (fun t i => sameTenants_killDispatch t d i) _ s

/-! ### A die's passes, one replaced (R236) -/

section
variable {s : State} {d : DieId} {p q r : GeoPass}

theorem setGeo_getGeo (s : State) (d : DieId) : setGeo s d (getGeo s d) = s := by rw [setGeo, getGeo, qset_qget]

theorem passes_setPass (s : State) (d : DieId) (p : GeoPass) :
    (getGeo (setPass s d p) d).passes = (getGeo s d).passes.map (fun q => if q.sub = p.sub then p else q) := by
  rw [setPass, getGeo_setGeo]

@[simp] theorem err_setPass (s : State) (d : DieId) (p : GeoPass) (n : DieId) : (getGeo (setPass s d p) n).err = (getGeo s n).err := by
  by_cases h : n = d
  · subst h; rw [setPass, getGeo_setGeo]
  · rw [setPass, getGeo_setGeo_other _ _ _ h]

theorem getGeo_setPass_other (s : State) (p : GeoPass) {n : DieId} (h : n ≠ d) : getGeo (setPass s d p) n = getGeo s n :=
  getGeo_setGeo_other _ _ _ h

/-- The new pass stands in the list where one of its submission stood. -/
theorem mem_setPass (hq : q ∈ (getGeo s d).passes) (hs : q.sub = p.sub) : p ∈ (getGeo (setPass s d p) d).passes := by
  rw [passes_setPass]; exact List.mem_map.mpr ⟨q, hq, if_pos hs⟩

/-- States with the same passes have them after the same replacement. -/
theorem PassesStand.setPass {t : State} (h : PassesStand s t) (d : DieId) (p : GeoPass) : PassesStand (setPass s d p) (setPass t d p) := by
  refine ⟨h.1, ?_⟩
  simp only [Machine.setPass, setGeo, h.getGeo, h.2]

/-- Whether a descriptor is one of the same pass that still runs. -/
def isMate (p q : GeoPass) : Bool := samePass p q && !q.done && !q.aborted

theorem isMate_iff : isMate p q = true ↔ (p.ctx = q.ctx ∧ p.pass = q.pass) ∧ q.done = false ∧ q.aborted = false := by
  simp [isMate, samePass, and_assoc]

theorem mateOf_eq (s : State) (n : DieId) (p : GeoPass) : mateOf s n p = (getGeo s n).passes.find? (isMate p) := rfl

theorem mateOf_congr {t : State} {n : DieId} (h : (getGeo t n).passes = (getGeo s n).passes) (p : GeoPass) : mateOf t n p = mateOf s n p := by
  rw [mateOf_eq, h, ← mateOf_eq]

/-- Descriptors of the same context and number have the same mates. -/
theorem mateOf_samePass (h : samePass p q = true) (s : State) (n : DieId) : mateOf s n q = mateOf s n p := by
  simp only [samePass, Bool.and_eq_true, beq_iff_eq] at h
  simp only [mateOf, samePass, h.1, h.2]

theorem mateOf_some {n : DieId} (h : mateOf s n p = some q) : q ∈ (getGeo s n).passes ∧ isMate p q = true :=
  ⟨List.mem_of_find?_eq_some h, List.find?_some h⟩

theorem passOf_some {k : Nat} (h : passOf s d k = some p) : p ∈ (getGeo s d).passes ∧ p.pass = k ∧ p.done = false ∧ p.aborted = false := by
  have found := List.find?_some h
  simp only [Bool.and_eq_true, beq_iff_eq, Bool.not_eq_true'] at found
  exact ⟨List.mem_of_find?_eq_some h, found.1.1, found.1.2, found.2⟩

/-- The pass that runs on a die is its own mate there. -/
theorem mateOf_passOf {k : Nat} (h : passOf s d k = some p) : mateOf s d p = some p := by
  obtain ⟨-, number, running⟩ := passOf_some h
  obtain ⟨-, before, after, list, others⟩ := List.find?_eq_some_iff_append.mp h
  refine List.find?_eq_some_iff_append.mpr ⟨isMate_iff.mpr ⟨⟨rfl, rfl⟩, running⟩, before, after, list, fun q hq => ?_⟩
  by_contra mate
  obtain ⟨⟨-, same⟩, runs, stands⟩ := isMate_iff.mp (by rwa [Bool.not_eq_true', Bool.not_eq_false] at mate)
  simpa [← number, same, runs, stands] using others q hq

/-- A mate replaced by another descriptor of the pass that runs: that one is the mate. -/
theorem mateOf_setPass {n : DieId} (h : mateOf s n p = some q) (hs : r.sub = q.sub) (hr : isMate p r = true) :
    mateOf (setPass s n r) n p = some r := by
  rw [mateOf_eq, passes_setPass]
  rw [mateOf_eq] at h
  generalize (getGeo s n).passes = l at h
  induction l with
  | nil => cases h
  | cons x l ih =>
    rw [List.map_cons]
    by_cases same : x.sub = r.sub
    · rw [if_pos same, List.find?_cons_of_pos hr]
    · rw [if_neg same]
      by_cases mate : isMate p x = true
      · rw [List.find?_cons_of_pos mate] at h
        obtain rfl : x = q := Option.some.inj h
        exact absurd hs.symm same
      · rw [List.find?_cons_of_neg mate] at h ⊢
        exact ih h

end

/-! ### The descriptors of a pass on several dies -/

/-- The mate of a pass on a die replaced; on a die without one its record of passes changed instead. -/
def mateStep (p : GeoPass) (f : DieId → GeoPass → GeoPass) (miss : GeoUnit → GeoUnit) (t : State) (n : DieId) : State :=
  match mateOf t n p with
  | some q => setPass t n (f n q)
  | none => setGeo t n (miss (getGeo t n))

/-- The mates of a pass replaced on some dies, one die after another. -/
def eachMate (p : GeoPass) (f : DieId → GeoPass → GeoPass) (miss : GeoUnit → GeoUnit) (l : List DieId) (s : State) : State :=
  l.foldl (mateStep p f miss) s

section
variable {p q : GeoPass} {f : DieId → GeoPass → GeoPass} {miss : GeoUnit → GeoUnit} {l : List DieId} {s t : State} {n m : DieId}

theorem mateStep_some (h : mateOf s n p = some q) : mateStep p f miss s n = setPass s n (f n q) := by
  rw [mateStep, h]

/-- A step changes nothing but its die's passes. -/
theorem mateStep_geo (s : State) (n : DieId) : mateStep p f miss s n = setGeo s n (getGeo (mateStep p f miss s n) n) := by
  unfold mateStep
  split
  · rw [setPass, getGeo_setGeo]
  · rw [getGeo_setGeo]

theorem getGeo_mateStep_other (h : m ≠ n) : getGeo (mateStep p f miss s n) m = getGeo s m := by
  rw [mateStep_geo]; exact getGeo_setGeo_other _ _ _ h

/-- What a step leaves of its die depends on that die's passes alone. -/
theorem getGeo_mateStep_congr (h : getGeo t n = getGeo s n) : getGeo (mateStep p f miss t n) n = getGeo (mateStep p f miss s n) n := by
  have mate : mateOf t n p = mateOf s n p := mateOf_congr (by rw [h]) p
  unfold mateStep
  rw [mate]
  split
  · simp only [setPass, getGeo_setGeo, h]
  · simp only [getGeo_setGeo, h]

theorem eachMate_frame : eachMate p f miss l s = { s with geo := (eachMate p f miss l s).geo } := by
  unfold eachMate
  induction l generalizing s with
  | nil => rfl
  | cons n r ih => rw [List.foldl_cons, ih, mateStep_geo]; rfl

theorem memByte_eachMate (a : Nat) : memByte (eachMate p f miss l s) a = memByte s a := by rw [eachMate_frame]; rfl

/-- Mates replaced where there are any, and nothing changed where there is none. -/
theorem foldl_mates (p : GeoPass) (f : GeoPass → GeoPass) (l : List DieId) (s : State) :
    l.foldl (fun t n => match mateOf t n p with | some q => setPass t n (f q) | none => t) s = eachMate p (fun _ => f) id l s := by
  refine congrArg (fun g => l.foldl g s) (funext₂ fun t n => ?_)
  unfold mateStep
  cases mateOf t n p with
  | some q => rfl
  | none => exact (setGeo_getGeo t n).symm

theorem getGeo_eachMate_other (h : n ∉ l) : getGeo (eachMate p f miss l s) n = getGeo s n := by
  unfold eachMate
  induction l generalizing s with
  | nil => rfl
  | cons m r ih =>
    rw [List.mem_cons, not_or] at h
    rw [List.foldl_cons, ih h.2, getGeo_mateStep_other h.1]

/-- Of a list that names each die once, a die's passes are as its own step leaves them. -/
theorem getGeo_eachMate (hl : l.Nodup) (h : n ∈ l) : getGeo (eachMate p f miss l s) n = getGeo (mateStep p f miss s n) n := by
  induction l generalizing s with
  | nil => cases h
  | cons m r ih =>
    obtain ⟨fresh, rest⟩ := List.nodup_cons.mp hl
    change getGeo (eachMate p f miss r (mateStep p f miss s m)) n = _
    rcases List.mem_cons.mp h with rfl | later
    · exact getGeo_eachMate_other fresh
    · rw [ih rest later]
      exact getGeo_mateStep_congr (getGeo_mateStep_other fun same => fresh (same ▸ later))

theorem mem_eachMate (hl : l.Nodup) (h : n ∈ l) (hq : mateOf s n p = some q) (hs : (f n q).sub = q.sub) :
    f n q ∈ (getGeo (eachMate p f miss l s) n).passes := by
  rw [getGeo_eachMate hl h, mateStep_some hq]
  exact mem_setPass (mateOf_some hq).1 hs.symm

/-- Where a die may be named again, its mate is still one that the replacement has given, where that keeps the pass running. -/
theorem mateOf_eachMate {K : GeoPass → Prop} (sub : ∀ n q, (f n q).sub = q.sub) (mate : ∀ n q, isMate p q = true → isMate p (f n q) = true)
    (gives : ∀ n q, K (f n q)) (h : n ∈ l) (hq : mateOf s n p = some q) :
    ∃ r, mateOf (eachMate p f miss l s) n p = some r ∧ r.sub = q.sub ∧ K r := by
  have step (t : State) (m : DieId) (r : GeoPass) (hr : mateOf t n p = some r) :
      ∃ x, mateOf (mateStep p f miss t m) n p = some x ∧ x.sub = r.sub ∧ (m = n ∨ x = r) ∧ (m = n → K x) := by
    by_cases same : m = n
    · subst same
      rw [mateStep_some hr]
      exact ⟨_, mateOf_setPass hr (sub m r) (mate m r (mateOf_some hr).2), sub m r, .inl rfl, fun _ => gives m r⟩
    · refine ⟨r, ?_, rfl, .inr rfl, fun e => absurd e same⟩
      exact (mateOf_congr (congrArg GeoUnit.passes (getGeo_mateStep_other (Ne.symm same))) p).trans hr
  have kept (l : List DieId) : ∀ t r, mateOf t n p = some r → K r → ∃ x, mateOf (eachMate p f miss l t) n p = some x ∧ x.sub = r.sub ∧ K x := by
    induction l with
    | nil => exact fun t r hr hk => ⟨r, hr, rfl, hk⟩
    | cons m l ih =>
      intro t r hr hk
      obtain ⟨x, hx, same, still, given⟩ := step t m r hr
      obtain ⟨y, hy, sub', hk'⟩ := ih _ x hx (still.elim given fun e => e ▸ hk)
      exact ⟨y, hy, sub'.trans same, hk'⟩
  induction l generalizing s q with
  | nil => cases h
  | cons m l ih =>
    obtain ⟨x, hx, same, -, given⟩ := step s m q hq
    change ∃ r, mateOf (eachMate p f miss l (mateStep p f miss s m)) n p = some r ∧ _
    rcases List.mem_cons.mp h with e | later
    · obtain ⟨y, hy, sub', hk⟩ := kept l _ x hx (given e.symm)
      exact ⟨y, hy, sub'.trans same, hk⟩
    · obtain ⟨y, hy, sub', hk⟩ := ih later hx
      exact ⟨y, hy, sub'.trans same, hk⟩

end

theorem nodup_diesOf (m : Nat) : (diesOf m).Nodup := List.Nodup.filter _ (by decide)

/-! ### The abort of a pass (R241) -/

/-- A descriptor aborted. -/
def abortedMate (_ : DieId) (q : GeoPass) : GeoPass := { q with aborted := true }

theorem markAborted_eq (s : State) (p : GeoPass) : markAborted s p =
    eachMate p abortedMate (fun u => { u with ended := u.ended ++ [(p.ctx, p.pass, true)] }) (diesOf p.dies) s := rfl

section
variable {s : State} {d n : DieId} {p q : GeoPass}

theorem mem_markAborted (h : n ∈ diesOf p.dies) (hq : mateOf s n p = some q) :
    { q with aborted := true } ∈ (getGeo (markAborted s p) n).passes := by
  rw [markAborted_eq]; exact mem_eachMate (nodup_diesOf _) h hq rfl

theorem getGeo_markAborted_other (h : n ∉ diesOf p.dies) : getGeo (markAborted s p) n = getGeo s n := by
  rw [markAborted_eq]; exact getGeo_eachMate_other h

@[simp] theorem mem_of_markAborted (s : State) (p : GeoPass) : (markAborted s p).mem = s.mem := by
  rw [markAborted_eq, eachMate_frame]

theorem err_markAborted (s : State) (p : GeoPass) (n : DieId) : (getGeo (markAborted s p) n).err = (getGeo s n).err := by
  by_cases h : n ∈ diesOf p.dies
  · rw [markAborted_eq, getGeo_eachMate (nodup_diesOf _) h, mateStep]
    split
    · exact err_setPass s n _ n
    · rw [getGeo_setGeo]
  · rw [getGeo_markAborted_other h]

theorem passes_geoErr (s : State) (d : DieId) (flag : Nat) (n : DieId) : (getGeo (geoErr s d flag) n).passes = (getGeo s n).passes := by
  by_cases h : n = d
  · subst h; rw [geoErr, getGeo_setGeo]
  · rw [geoErr, getGeo_setGeo_other _ _ _ h]

theorem mateOf_abortCause (s : State) (d : DieId) (p : GeoPass) (code value : Nat) (n : DieId) (x : GeoPass) :
    mateOf (geoErr (geoLog s d p code value) d (geoFlag code)) n x = mateOf s n x := mateOf_congr (passes_geoErr _ d _ n) x

/-- An abort marks the pass on every die of DIES. -/
theorem mem_abortPass (code value : Nat) (h : n ∈ diesOf p.dies) (hq : mateOf s n p = some q) :
    { q with aborted := true } ∈ (getGeo (abortPass s d p code value) n).passes :=
  mem_markAborted h ((mateOf_abortCause s d p code value n p).trans hq)

theorem passes_abortPass_other (code value : Nat) (h : n ∉ diesOf p.dies) :
    (getGeo (abortPass s d p code value) n).passes = (getGeo s n).passes := by
  rw [abortPass, getGeo_markAborted_other h]; exact passes_geoErr _ d _ n

theorem mem_of_abortPass (s : State) (d : DieId) (p : GeoPass) (code value : Nat) : (abortPass s d p code value).mem = s.mem :=
  mem_of_markAborted _ p

/-- The die that found the cause raises its flag. -/
theorem err_abortPass (s : State) (d : DieId) (p : GeoPass) {code : Nat} (value : Nat) (h : geoFlag code ≠ 5) :
    (getGeo (abortPass s d p code value) d).err = errRaise (getGeo s d).err s.now (geoFlag code) := by
  rw [abortPass, err_markAborted, geoErr, getGeo_setGeo]
  exact if_neg h

theorem contextsStand_abortPass (s : State) (d : DieId) (p : GeoPass) (code value : Nat) :
    ContextsStand s (abortPass s d p code value) :=
  ContextsStand.trans (t := geoErr (geoLog s d p code value) d (geoFlag code)) ⟨rfl, rfl⟩ (contextsStand_markAborted _ p)

theorem sameTenants_abortPass (s : State) (d : DieId) (p : GeoPass) (code value : Nat) : SameTenants s (abortPass s d p code value) :=
  SameTenants.trans (t := geoErr (geoLog s d p code value) d (geoFlag code)) ⟨rfl, rfl⟩ (sameTenants_markAborted _ p)

end

end Sys2Proof.Machine
end
section
/-! PROOFS. Vertex and fragment groups of a pass launched (R243, R245, R248, R260): what reading the draws leaves, and the dispatches that stand
after it. -/

namespace Sys2Proof.Machine

/-! ### What reading the draws leaves (R245, R248) -/

section
variable (d : DieId) (p : GeoPass) (b : List Byte)

theorem drawCheck_looked (i : Nat) (s : State) : Looked s (drawCheck s d p i).2 := by
  unfold drawCheck
  split
  · exact .refl s
  · rename_i b _
    have vertex := vaBytes_looked d p.ctx 2 (leAt b 8 8) 64 s
    dsimp only
    split
    · exact .refl s
    · split <;> rename_i h <;> rw [h] at vertex
      · exact vertex
      · rename_i s1
        have both := vertex.trans (vaBytes_looked d p.ctx 2 (leAt b 0x10 8) 64 s1)
        split <;> rename_i h' <;> rw [h'] at both <;> exact both

theorem drawKernel_looked (o : Nat) (s : State) : Looked s (drawKernel d p b o s).2 := by
  have header := vaBytes_looked d p.ctx 2 (leAt b o 8) 64 s
  unfold drawKernel; dsimp only
  split <;> rename_i h <;> rw [h] at header
  · exact header
  · split
    · exact header
    · rename_i k _
      have words := header.trans (vaBytes_looked d p.ctx 2 (leAt b 0x20 8) (8 * k.argWords) _)
      split <;> rename_i h' <;> rw [h'] at words <;> exact words

theorem vertexIndex_looked (k : Nat) (s : State) : Looked s (vertexIndex d p b k s).2 := by
  unfold vertexIndex; dsimp only
  split
  · exact .refl s
  · have index := vaBytes_looked d p.ctx 2 (leAt b 0x18 8 + (leAt b 0x28 4 + k) * (2 * leAt b 0x2C 1)) (2 * leAt b 0x2C 1) s
    split <;> rename_i h <;> rw [h] at index <;> exact index

theorem primIndices_looked (l : List Nat) (s : State) : Looked s (primIndices d p b l s).2 := by
  induction l generalizing s with
  | nil => exact .refl s
  | cons k r ih =>
    have first := vertexIndex_looked d p b k s
    unfold primIndices
    split <;> rename_i h <;> rw [h] at first
    · exact first
    · rename_i s1
      have rest := first.trans (ih s1)
      split <;> rename_i h' <;> rw [h'] at rest <;> exact rest

theorem drawIndices_looked (l : List Nat) (s : State) : Looked s (drawIndices d p b l s).2 := by
  induction l generalizing s with
  | nil => exact .refl s
  | cons k r ih =>
    have first := primIndices_looked d p b (elements (leAt b 4 1) k) s
    unfold drawIndices
    split <;> rename_i h <;> rw [h] at first
    · exact first
    · rename_i s1
      have rest := first.trans (ih s1)
      split <;> rename_i h' <;> rw [h'] at rest <;> exact rest

theorem prepDraw_looked (c i base : Nat) (verts : List VertexOut) (l : List Nat) (s : State) :
    Looked s (prepDraw d p c i base b verts l s).2 := by
  induction l generalizing s with
  | nil => exact .refl s
  | cons k r ih =>
    have first := primIndices_looked d p b (elements (leAt b 4 1) k) s
    unfold prepDraw
    split <;> rename_i h <;> rw [h] at first
    · exact first
    · rename_i s1
      have rest := first.trans (ih s1)
      dsimp only
      split
      · exact first
      · split <;> rename_i h' <;> rw [h'] at rest <;> exact rest

theorem prepChunk_looked (c : Nat) (verts : List VertexOut) (l : List (Nat × Nat × Nat)) (s : State) :
    Looked s (prepChunk d p c verts l s).2 := by
  induction l generalizing s with
  | nil => exact .refl s
  | cons e r ih =>
    obtain ⟨i, base, n⟩ := e
    have check := drawCheck_looked d p i s
    unfold prepChunk
    split <;> rename_i h <;> rw [h] at check
    · exact check
    · rename_i s1
      have draw := check.trans (prepDraw_looked d p ((drawRec s1 d p i).getD []) c i base verts (chunkPrims c base n) s1)
      dsimp only
      split <;> rename_i h' <;> rw [h'] at draw
      · rename_i s2
        have rest := draw.trans (ih s2)
        split <;> rename_i h'' <;> rw [h''] at rest <;> exact rest
      · exact draw

end

/-! ### Groups launched (R243) -/

/-- What the launch of groups may change: what a look-up may, the numbering, and the die's dispatches, where each new one has the property `Q`. -/
structure Launches (d : DieId) (Q : Dispatch → Prop) (s t : State) : Prop where
  frame : t = { setCores s d { getCores s d with dispatches := (getCores t d).dispatches } with
    memu := t.memu, poison := t.poison, logs := t.logs, ends := t.ends, nextId := t.nextId }
  listed : ∀ e ∈ (getCores t d).dispatches, e ∈ (getCores s d).dispatches ∨ Q e.2

section
variable {d : DieId} {Q : Dispatch → Prop} {s t u : State}

theorem Launches.trans (h1 : Launches d Q s t) (h2 : Launches d Q t u) : Launches d Q s u := by
  refine ⟨?_, fun e he => (h2.listed e he).elim (h1.listed e) .inr⟩
  rw [h2.frame, h1.frame]; simp [setCores, getCores]

theorem Launches.imp {R : Dispatch → Prop} (h : Launches d Q s t) (hQ : ∀ x, Q x → R x) : Launches d R s t :=
  ⟨h.frame, fun e he => (h.listed e he).imp_right (hQ e.2)⟩

theorem Looked.launches (h : Looked s t) : Launches d Q s t := by
  have cores := h.getCores d
  refine ⟨?_, fun e he => .inl (cores ▸ he)⟩
  rw [cores, setCores_getCores, h.nextId]; exact h

theorem Launches.refl (s : State) : Launches d Q s s := (Looked.refl s).launches

theorem launches_setDisp (s : State) (d : DieId) (i n : Nat) {x : Dispatch} (h : Q x) : Launches d Q s { setDisp s d i x with nextId := n } := by
  have cores : getCores { setDisp s d i x with nextId := n } d = { getCores s d with dispatches := mins (getCores s d).dispatches i x } :=
    getCores_setCores s d _
  refine ⟨by rw [cores]; rfl, fun e he => ?_⟩
  rw [cores] at he
  exact (mins_mem _ i x e he).elim (fun new => .inr (by rw [new]; exact h)) .inl

theorem Launches.passesStand (h : Launches d Q s t) : PassesStand s t := by rw [h.frame]; exact ⟨rfl, rfl⟩

theorem Launches.contextsStand (h : Launches d Q s t) : ContextsStand s t := by rw [h.frame]; exact ⟨rfl, rfl⟩

theorem Launches.sameTenants (h : Launches d Q s t) : SameTenants s t := by rw [h.frame]; exact ⟨rfl, rfl⟩

end

/-- Items of a list's pieces are its items. -/
theorem mem_of_chunksOf {α : Type} {k fuel : Nat} {l c : List α} {x : α} (hc : c ∈ chunksOf k fuel l) (hx : x ∈ c) : x ∈ l := by
  induction fuel generalizing l with
  | zero => cases hc
  | succ n ih =>
    cases l with
    | nil => cases hc
    | cons a r =>
      rcases List.mem_cons.mp hc with rfl | later
      · exact List.mem_of_mem_take hx
      · exact List.mem_of_mem_drop (ih later)

/-- A group of a pass: for draw `i` and a tile or the vertices, with lanes of `lanes`. -/
def GroupOf (p : GeoPass) (i : Nat) (tile : Option Nat) (lanes : List LaneStart) (x : Dispatch) : Prop :=
  x.ctx = p.ctx ∧ x.groups = 1 ∧ ∃ w, x.geo = some w ∧ w.sub = p.sub ∧ w.tile = tile ∧ w.draw = i ∧ ∀ l ∈ w.lanes, l ∈ lanes

section
variable (d : DieId) (p : GeoPass)

theorem launchLanes_launches (i : Nat) (b : List Byte) (o : Nat) (tile : Option Nat) (kib : Nat) (scalars : List (Nat × W32))
    (lanes : List LaneStart) (s : State) :
    Launches d (GroupOf p i tile lanes) s (launchLanes d p i b o tile kib scalars lanes s).2 := by
  have kernel := drawKernel_looked d p b o s
  unfold launchLanes
  split <;> rename_i h <;> rw [h] at kernel
  · exact kernel.launches
  · rename_i k s1
    refine kernel.launches.trans ?_
    have pieces : ∀ l ∈ chunksOf k.1.width lanes.length lanes, ∀ x ∈ l, x ∈ lanes := fun l hl x hx => mem_of_chunksOf hl hx
    dsimp only
    generalize chunksOf k.1.width lanes.length lanes = ls at pieces
    clear h kernel
    induction ls generalizing s1 with
    | nil => exact .refl s1
    | cons l r ih =>
      refine Launches.trans (launches_setDisp s1 d s1.nextId (s1.nextId + 1) ?_) (ih _ fun c hc => pieces c (List.mem_cons_of_mem l hc))
      exact ⟨rfl, rfl, _, rfl, rfl, rfl, rfl, pieces l List.mem_cons_self⟩

/-- A lane that holds the vertex of its index in v0 (R248). -/
def VertexLane (x : LaneStart) : Prop := x.here = true ∧ x.exec = true ∧ x.regs = [(0, BitVec.ofNat 32 x.index)]

/-- A vertex group of a pass: one of some draws' groups, with a vertex in each lane. -/
def VertexGroup (p : GeoPass) (draws : List Nat) (x : Dispatch) : Prop :=
  x.ctx = p.ctx ∧ x.groups = 1 ∧ ∃ w, x.geo = some w ∧ w.sub = p.sub ∧ w.tile = none ∧ w.draw ∈ draws ∧ ∀ l ∈ w.lanes, VertexLane l

theorem beginChunk_launches (c : Nat) (draws : List (Nat × Nat × Nat)) (s : State) :
    Launches d (VertexGroup p (draws.map fun x => x.1)) s (beginChunk d p c draws s).2 := by
  induction draws generalizing s with
  | nil => exact .refl s
  | cons e r ih =>
    obtain ⟨i, base, n⟩ := e
    have check := drawCheck_looked d p i s
    unfold beginChunk
    split <;> rename_i h <;> rw [h] at check
    · exact check.launches
    · rename_i s1
      have indices := check.trans (drawIndices_looked d p ((drawRec s1 d p i).getD []) (chunkPrims c base n) s1)
      dsimp only
      split <;> rename_i h' <;> rw [h'] at indices
      · exact indices.launches
      · rename_i vs s2
        have lanes : ∀ l ∈ vs.eraseDups.map (fun v =>
            ({ here := true, exec := true, index := v, mask := 0, regs := [(0, BitVec.ofNat 32 v)] } : LaneStart)), VertexLane l := by
          intro l hl
          obtain ⟨v, -, rfl⟩ := List.mem_map.mp hl
          exact ⟨rfl, rfl, rfl⟩
        generalize vs.eraseDups.map _ = ls at lanes
        have groups := (launchLanes_launches d p i ((drawRec s1 d p i).getD []) 8 none 0
          [(4, BitVec.ofNat 32 i), (5, Config.gridWord)] ls s2).imp (R := VertexGroup p (i :: r.map fun x => x.1)) (by
            rintro x ⟨ctx, one, w, geo, sub, tile, draw, its⟩
            exact ⟨ctx, one, w, geo, sub, tile, draw ▸ List.mem_cons_self, fun l hl => lanes l (its l hl)⟩)
        have rest (s3 : State) : Launches d (VertexGroup p (i :: r.map fun x => x.1)) s3 (beginChunk d p c r s3).2 := by
          refine (ih s3).imp ?_
          rintro x ⟨ctx, one, w, geo, sub, tile, draw, its⟩
          exact ⟨ctx, one, w, geo, sub, tile, List.mem_cons_of_mem i draw, its⟩
        split <;> rename_i h'' <;> rw [h''] at groups
        · exact indices.launches.trans groups
        · exact (indices.launches.trans groups).trans (rest _)

theorem launchFrags_launches (j : TileJob) (prims : List (TilePrim × List Nat)) (is : List Nat) (s : State) :
    Launches d (fun _ => True) s (launchFrags d p j prims is s).2 := by
  induction is generalizing s with
  | nil => exact .refl s
  | cons i r ih =>
    unfold launchFrags
    split
    · exact .refl s
    · rename_i b _
      dsimp only
      generalize (prims.filter _).flatMap _ = lanes
      split
      · exact ih s
      · have groups := (launchLanes_launches d p i b 0x10 (some j.tile) j.kib (fragScalars p.block i j.tile) lanes s).imp
          (R := fun _ => True) fun _ _ => trivial
        split <;> rename_i h <;> rw [h] at groups
        · exact groups
        · exact groups.trans (ih _)

end

end Sys2Proof.Machine
end
section
/-! PROOFS. The ordered merge and the pool (R246, R250 to R254): what a merge changes of a pass, the bytes in use, and a chunk's records. -/

namespace Sys2Proof.Machine

/-! ### What a merge changes (R252) -/

/-- The die whose stream the merge reads next. -/
def mergeSrc (p : GeoPass) : DieId := (litOf p).getD (p.mergeNext % (litOf p).length) p.leader

/-- A pass with a record of that stream put into its bin list. -/
def recordMerged (p : GeoPass) (r : BinRec) (rest : List BinItem) : GeoPass :=
  { p with inbox := qset p.inbox (mergeSrc p) rest, records := p.records + 1,
           bins := mput [] p.bins (128 * r.sy + r.sx) (mget [] p.bins (128 * r.sy + r.sx) ++ [r]) }

/-- A pass whose merge has passed a chunk's marker. -/
def markMerged (p : GeoPass) (rest : List BinItem) : GeoPass :=
  { p with inbox := qset p.inbox (mergeSrc p) rest, mergeNext := p.mergeNext + 1 }

theorem mergeLoop_mark {limit f c : Nat} {p : GeoPass} {rest : List BinItem} (h : p.mergeNext < limit)
    (stream : qget p.inbox (mergeSrc p) = .mark c :: rest) : mergeLoop limit (f + 1) p = mergeLoop limit f (markMerged p rest) := by
  unfold mergeSrc at stream
  rw [mergeLoop, if_neg (by omega)]; dsimp only
  rw [stream]; rfl

/-- What every record and every marker merged has in common, a merge has. -/
theorem mergeLoop_along {R : GeoPass → GeoPass → Prop} (refl : ∀ p, R p p) (trans : ∀ {p q r}, R p q → R q r → R p r)
    (record : ∀ p r rest, qget p.inbox (mergeSrc p) = .record r :: rest → R p (recordMerged p r rest))
    (mark : ∀ p c rest, qget p.inbox (mergeSrc p) = .mark c :: rest → R p (markMerged p rest)) (limit f : Nat) (p : GeoPass) :
    R p (mergeLoop limit f p) := by
  induction f generalizing p with
  | zero => exact refl p
  | succ f ih =>
    unfold mergeLoop; dsimp only
    split
    · exact refl p
    · split <;> rename_i stream
      · exact refl p
      · exact trans (record p _ _ stream) (ih _)
      · exact trans (mark p _ _ stream) (ih _)

section
variable (limit f : Nat) (p : GeoPass)

theorem mergeLoop_frame : mergeLoop limit f p = { p with
    inbox := (mergeLoop limit f p).inbox, mergeNext := (mergeLoop limit f p).mergeNext, bins := (mergeLoop limit f p).bins,
    records := (mergeLoop limit f p).records } :=
  mergeLoop_along (R := fun p q => q = { p with inbox := q.inbox, mergeNext := q.mergeNext, bins := q.bins, records := q.records })
    (fun _ => rfl) (fun h1 h2 => by rw [h2, h1]) (fun _ _ _ _ => rfl) (fun _ _ _ _ => rfl) limit f p

theorem mergeNext_le_mergeLoop : p.mergeNext ≤ (mergeLoop limit f p).mergeNext :=
  mergeLoop_along (R := fun p q => p.mergeNext ≤ q.mergeNext) (fun _ => le_rfl) le_trans (fun _ _ _ _ => le_rfl)
    (fun _ _ _ _ => Nat.le_succ _) limit f p

end

section
variable (p : GeoPass) (chunks : Nat)

theorem mergePass_frame : mergePass p chunks = { p with
    inbox := (mergePass p chunks).inbox, mergeNext := (mergePass p chunks).mergeNext, bins := (mergePass p chunks).bins,
    records := (mergePass p chunks).records, phase := (mergePass p chunks).phase, cursor := (mergePass p chunks).cursor } := by
  unfold mergePass; dsimp only
  split <;> rw [mergeLoop_frame]

/-- What a merge leaves: the pass's identity, its flush, its chunks and what it sends. -/
@[simp] theorem mergePass_leaves : (mergePass p chunks).sub = p.sub ∧ (mergePass p chunks).flushTo = p.flushTo ∧
    (mergePass p chunks).flushed = p.flushed ∧ (mergePass p chunks).segments = p.segments ∧ (mergePass p chunks).reported = p.reported ∧
    (mergePass p chunks).nextChunk = p.nextChunk ∧ (mergePass p chunks).prims = p.prims ∧ (mergePass p chunks).begun = p.begun ∧
    (mergePass p chunks).verts = p.verts ∧ (mergePass p chunks).out = p.out := by
  rw [mergePass_frame]; exact ⟨rfl, rfl, rfl, rfl, rfl, rfl, rfl, rfl, rfl, rfl⟩

theorem isMate_mergePass (q : GeoPass) : isMate q (mergePass p chunks) = isMate q p := by rw [mergePass_frame]; rfl

/-- Only a pass that is binning goes on to its tiles. -/
theorem mergePass_phase (h : p.phase ≠ 1) : (mergePass p chunks).phase = p.phase ∧ (mergePass p chunks).cursor = p.cursor := by
  unfold mergePass; dsimp only
  rw [if_neg (by rw [mergeLoop_frame]; exact fun e => h e.1), mergeLoop_frame]
  exact ⟨rfl, rfl⟩

/-- What the merge makes of bins and streams, whether or not tiles follow. -/
theorem mergePass_merged : ∃ n, (mergePass p chunks).mergeNext = (mergeLoop (p.flushTo.getD chunks) (n + 1) p).mergeNext ∧
    poolUsed (mergePass p chunks) = poolUsed (mergeLoop (p.flushTo.getD chunks) (n + 1) p) := by
  refine ⟨(allDies.map fun d => (qget p.inbox d).length).sum, ?_, ?_⟩ <;> unfold mergePass <;> dsimp only <;> split <;> rfl

end

/-! ### The pool (R253) -/

theorem recordsIn_append (l m : List BinItem) : recordsIn (l ++ m) = recordsIn l + recordsIn m := by simp [recordsIn]

@[simp] theorem recordsIn_record (r : BinRec) (l : List BinItem) : recordsIn (.record r :: l) = recordsIn l + 1 := by simp [recordsIn]

@[simp] theorem recordsIn_mark (c : Nat) (l : List BinItem) : recordsIn (.mark c :: l) = recordsIn l := by simp [recordsIn]

/-- A sum over the dies after one die's item is replaced. -/
theorem sum_dies_qset {α : Type} (f : α → Nat) (q : Quad α) (d : DieId) (x : α) :
    (allDies.map fun n => f (qget (qset q d x) n)).sum + f (qget q d) = (allDies.map fun n => f (qget q n)).sum + f x := by
  fin_cases d <;> simp [allDies, qget, qset] <;> omega

/-- A sum over a canonical table's values after one is written. -/
theorem sum_mins {α : Type} [DecidableEq α] {d : α} (f : α → Nat) (hd : f d = 0) {m : Map α} (h : mwf d m = true) (k : Nat) (x : α) :
    ((mins m k x).map fun e => f e.2).sum + f (mget d m k) = (m.map fun e => f e.2).sum + f x := by
  induction m with
  | nil => simp [mins, mget, mfind, hd]
  | cons e r ih =>
    obtain ⟨j, v⟩ := e
    by_cases before : k < j
    · have unlisted : mfind ((j, v) :: r) k = none := mfind_none_of_lt _ fun e he => by
        rcases List.mem_cons.mp he with rfl | he
        · exact before
        · exact before.trans (mwf_lt h e he)
      simp [mins, before, mget, unlisted, hd]; omega
    · by_cases here : j = k
      · subst here; simp [mins, mget, mfind]; omega
      · have rest := ih (mwf_tail h)
        simp only [mins, before, here, if_false, mget, mfind, List.map_cons, List.sum_cons] at rest ⊢
        omega

/-- A record goes from a stream to its list, which keeps the bytes in use and the canonical form of the bin lists. -/
theorem poolUsed_recordMerged {p : GeoPass} {r : BinRec} {rest : List BinItem} (stream : qget p.inbox (mergeSrc p) = .record r :: rest)
    (h : mwf [] p.bins = true) : poolUsed (recordMerged p r rest) = poolUsed p ∧ mwf [] (recordMerged p r rest).bins = true := by
  refine ⟨?_, mput_mwf _ _ _ h⟩
  have streams := sum_dies_qset recordsIn p.inbox (mergeSrc p) rest
  have lists := sum_mins List.length rfl h (128 * r.sy + r.sx) (mget [] p.bins (128 * r.sy + r.sx) ++ [r])
  rw [stream, recordsIn_record] at streams
  rw [List.length_append, List.length_singleton] at lists
  unfold poolUsed recordMerged; dsimp only
  rw [mput, if_neg (by simp)]
  omega

theorem poolUsed_markMerged {p : GeoPass} {c : Nat} {rest : List BinItem} (stream : qget p.inbox (mergeSrc p) = .mark c :: rest) :
    poolUsed (markMerged p rest) = poolUsed p := by
  have streams := sum_dies_qset recordsIn p.inbox (mergeSrc p) rest
  rw [stream, recordsIn_mark] at streams
  unfold poolUsed markMerged; dsimp only
  omega

theorem poolUsed_mergeLoop (limit f : Nat) {p : GeoPass} (h : mwf [] p.bins = true) : poolUsed (mergeLoop limit f p) = poolUsed p :=
  (mergeLoop_along (R := fun p q => mwf [] p.bins = true → poolUsed q = poolUsed p ∧ mwf [] q.bins = true) (fun _ h => ⟨rfl, h⟩)
    (fun h1 h2 h => ⟨(h2 (h1 h).2).1.trans (h1 h).1, (h2 (h1 h).2).2⟩) (fun _ _ _ stream => poolUsed_recordMerged stream)
    (fun _ _ _ stream h => ⟨poolUsed_markMerged stream, h⟩) limit f p h).1

theorem poolUsed_mergePass {p : GeoPass} (h : mwf [] p.bins = true) (chunks : Nat) : poolUsed (mergePass p chunks) = poolUsed p := by
  obtain ⟨n, -, used⟩ := mergePass_merged p chunks
  rw [used]; exact poolUsed_mergeLoop _ _ h

/-- What has arrived of die `src`'s stream put behind what waits of it. -/
def arrived (p : GeoPass) (src : DieId) (items : List BinItem) : GeoPass := { p with inbox := qset p.inbox src (qget p.inbox src ++ items) }

theorem poolUsed_arrived (p : GeoPass) (src : DieId) (items : List BinItem) :
    poolUsed (arrived p src items) = poolUsed p + 16 * recordsIn items := by
  have streams := sum_dies_qset recordsIn p.inbox src (qget p.inbox src ++ items)
  rw [recordsIn_append] at streams
  unfold poolUsed arrived; dsimp only
  omega

/-- A merge of what has arrived takes 16 bytes for each record of it. -/
theorem poolUsed_merged {p : GeoPass} (h : mwf [] p.bins = true) (src : DieId) (items : List BinItem) (chunks : Nat) :
    poolUsed (mergePass (arrived p src items) chunks) = poolUsed p + 16 * recordsIn items :=
  (poolUsed_mergePass (p := arrived p src items) h chunks).trans (poolUsed_arrived p src items)

/-- The marker of the chunk that the merge is at, with nothing of its die before it, lets the merge pass the chunk (R252). -/
theorem mergePass_passes {p : GeoPass} {src : DieId} {k chunks : Nat} (hk : p.mergeNext = k)
    (hsrc : (litOf p).getD (k % (litOf p).length) p.leader = src) (hin : qget p.inbox src = [.mark k]) (hl : k < p.flushTo.getD chunks) :
    k < (mergePass p chunks).mergeNext := by
  obtain ⟨n, next, -⟩ := mergePass_merged p chunks
  have stream : qget p.inbox (mergeSrc p) = [.mark k] := by rw [mergeSrc, hk, hsrc, hin]
  rw [next, mergeLoop_mark (by rw [hk]; exact hl) stream]
  calc k = p.mergeNext := hk.symm
    _ < (markMerged p []).mergeNext := Nat.lt_succ_self _
    _ ≤ _ := mergeNext_le_mergeLoop _ n _

/-! ### Transactions of the bin class (R251, Table 14.5) -/

/-- A transaction of records takes as many items of its stream as it says, and each is a record. -/
theorem binTx_records {l : List BinItem} {x : CordTx} {n : Nat} (h : binTx l = some (x, n)) (ht : x.hdr.typ.toNat = 0x20) :
    recordsIn (l.take n) = n := by
  have all {l : List BinItem} (h : ∀ i ∈ l, ∃ r, i = .record r) : recordsIn l = l.length := by
    rw [recordsIn, List.filter_eq_self.mpr]
    intro i hi
    obtain ⟨r, rfl⟩ := h i hi
    rfl
  cases l with
  | nil => cases h
  | cons i l =>
    cases i with
    | mark c =>
      obtain ⟨rfl, -⟩ := Prod.mk.inj (Option.some.inj h)
      exact absurd (ht.symm.trans rfl : (0x20 : Nat) = 0x21) (by decide)
    | record r =>
      obtain ⟨-, rfl⟩ := Prod.mk.inj (Option.some.inj h)
      have led : leadRecords (.record r :: l) <+: .record r :: l := (List.takeWhile_prefix _).trans (List.take_prefix 8 _)
      rw [← List.prefix_iff_eq_take.mp led]
      refine all fun i hi => ?_
      have kept := List.mem_takeWhile_imp hi
      cases i with
      | record r => exact ⟨r, rfl⟩
      | mark c => cases kept

theorem binTx_mark {k : Nat} {rest : List BinItem} {x : CordTx} {n : Nat} (h : binTx (.mark k :: rest) = some (x, n)) :
    x.hdr.typ.toNat = 0x21 ∧ n = 1 := by
  obtain ⟨rfl, rfl⟩ := Prod.mk.inj (Option.some.inj h)
  exact ⟨rfl, rfl⟩

/-! ### A chunk's records (R250, R251) -/

theorem src_primRecords {p : GeoPass} {d : DieId} {su : Setup} {data : Nat} {r : BinRec} (h : r ∈ primRecords p d su data) : r.src = d.val := by
  unfold primRecords at h
  split at h
  · cases h
  · obtain ⟨sy, -, row⟩ := List.mem_flatMap.mp h
    obtain ⟨sx, -, rfl⟩ := List.mem_map.mp row
    rfl

/-- To another die of L a chunk's binning sends records of that die's own super-tiles, and then the chunk's marker. -/
theorem out_binChunk (p : GeoPass) {d n : DieId} (c k : Nat) (ps : List Setup) (hn : n ∈ litOf p) (hd : n ≠ d) :
    ∃ rs : List BinRec, qget (binChunk p d c k ps).out n = qget p.out n ++ rs.map BinItem.record ++ [.mark c] ∧
      ∀ r ∈ rs, ownerOf p r.sx r.sy = n ∧ r.src = d.val := by
  unfold binChunk; dsimp only
  rw [qget_qmap, if_pos ⟨hn, hd⟩]
  refine ⟨_, (List.append_assoc _ _ _).symm, fun r hr => ?_⟩
  obtain ⟨made, own⟩ := List.mem_filter.mp hr
  obtain ⟨e, -, record⟩ := List.mem_flatMap.mp made
  exact ⟨by simpa using own, src_primRecords record⟩

end Sys2Proof.Machine
end
section
/-! PROOFS. Chunks binned, streams merged and flushes begun (R245 to R254). -/

namespace Sys2Proof.Machine

/-! ### A bad draw (R245) -/

/-- Every running descriptor of a pass on the dies of DIES is one that is aborted. -/
def MatesAborted (p : GeoPass) (s t : State) : Prop :=
  ∀ n ∈ diesOf p.dies, ∀ q, mateOf s n p = some q → ∃ q' ∈ (getGeo t n).passes, q'.sub = q.sub ∧ q'.aborted = true

section
variable {s u v : State} {d : DieId} {p : GeoPass}

theorem matesAborted_abortPass (s : State) (d : DieId) (p : GeoPass) (code value : Nat) : MatesAborted p s (abortPass s d p code value) :=
  fun _ hn _ hq => ⟨_, mem_abortPass code value hn hq, rfl, rfl⟩

theorem MatesAborted.congr (h : MatesAborted p u v) {t : State} (before : PassesStand s u) (after : PassesStand v t) : MatesAborted p s t := by
  intro n hn q hq
  rw [after.getGeo]
  exact h n hn q ((mateOf_congr (by rw [before.getGeo]) p).trans hq)

/-- A bad draw faults the context and aborts the pass on every die, and no byte of memory changes. -/
theorem badDraw_leaves (passes : PassesStand s v) (contexts : ContextsStand s v) (tenants : SameTenants s v)
    (live : (ctxOf s 0 p.ctx).state = .live) (stays : resettingTenant s (ctxOf s 0 p.ctx).tenant = false) (d : DieId) (i : Nat) :
    (ctxOf (faultContext (abortPass v d p 0x0404 i) d p.ctx) 0 p.ctx).state = .faulted ∧
      MatesAborted p s (faultContext (abortPass v d p 0x0404 i) d p.ctx) ∧
      ∀ a, memByte (faultContext (abortPass v d p 0x0404 i) d p.ctx) a = memByte s a := by
  obtain ⟨-, kept⟩ := contexts.trans (contextsStand_abortPass v d p 0x0404 i)
  obtain ⟨held, -⟩ := tenants.trans (sameTenants_abortPass v d p 0x0404 i)
  have same : ctxOf (abortPass v d p 0x0404 i) 0 p.ctx = ctxOf s 0 p.ctx := by rw [ctxOf, kept, ctxOf]
  obtain ⟨-, faulted⟩ := faultContext_faults (s := abortPass v d p 0x0404 i) d (c := p.ctx) (by rw [same]; exact live)
    (by rw [same, resettingTenant, tenantOf, held]; exact stays)
  have fault := passesStand_faultContext (abortPass v d p 0x0404 i) d p.ctx
  refine ⟨faulted, (matesAborted_abortPass v d p 0x0404 i).congr passes fault, fun a => (fault.memByte a).trans ?_⟩
  rw [memByte, mem_of_abortPass]; exact passes.memByte a

end

/-! ### A chunk in its turn (R246) -/

/-- The chunk is the die's next, its pass is binning, and no flush runs. -/
structure ChunkTurn (s : State) (d : DieId) (p : GeoPass) (chunk : Nat) : Prop where
  phase : p.phase = 1
  flush : p.flushTo = none
  next : p.nextChunk = chunk
  listed : chunk < chunksIn (drawTable s d p)
  runs : dieRuns s d = true

/-- The chunk may begin: the dies before it are done, the chunks before it are known, and no flush is due. -/
def mayBegin (s : State) (d : DieId) (p : GeoPass) (chunk : Nat) : Prop :=
  binFree s d p = true ∧ (countUp 0 (chunk - 8)).all (knownDone p d) = true ∧ flushDue s p (chunksIn (drawTable s d p)) = false

section
variable {s s1 : State} {d : DieId} {pass : W32} {p : GeoPass} {chunk : Nat} {part : ChunkPart} (hp : passOf s d pass.toNat = some p)
include hp

theorem exec_chunkBin_absorbed (h : p.phase ≠ 1 ∨ p.flushTo ≠ none ∨ p.nextChunk ≠ chunk ∨ chunksIn (drawTable s d p) ≤ chunk ∨
    dieRuns s d = false ∨ (part = .launch ∧ p.begun ≠ 0) ∨ (part = .finish ∧ p.begun = 0)) : exec (.chunkBin d pass chunk part) s = .next s := by
  change execChunkBin d pass chunk part s = _
  rw [execChunkBin, hp]; dsimp only
  refine if_pos ?_
  rcases h with h | h | h | h | h | ⟨rfl, h⟩ | ⟨rfl, h⟩
  · exact .inl h
  · exact .inr (.inl (Option.isSome_iff_ne_none.mpr h))
  · exact .inr (.inr (.inl h))
  · exact .inr (.inr (.inr (.inl h)))
  · exact .inr (.inr (.inr (.inr (.inl (by simp [h])))))
  · exact .inr (.inr (.inr (.inr (.inr (by simp [h])))))
  · exact .inr (.inr (.inr (.inr (.inr (by simp [h])))))

end

/-- A part that comes in the chunk's turn is no part out of turn. -/
theorem ChunkTurn.not_idle {s : State} {d : DieId} {p : GeoPass} {chunk : Nat} (turn : ChunkTurn s d p chunk) {part : ChunkPart}
    (h : (part == .launch) = (p.begun == 0)) : ¬ (p.phase ≠ 1 ∨ p.flushTo.isSome = true ∨ p.nextChunk ≠ chunk ∨
      chunksIn (drawTable s d p) ≤ chunk ∨ ¬ dieRuns s d = true ∨ (part == .launch) ≠ (p.begun == 0)) := by
  simp [turn.phase, turn.flush, turn.next, turn.listed, turn.runs, h]

section
variable {s s1 : State} {d : DieId} {pass : W32} {p : GeoPass} {chunk : Nat} (hp : passOf s d pass.toNat = some p)
variable (turn : ChunkTurn s d p chunk)
include hp turn

section
variable (fresh : p.begun = 0)
include fresh

theorem exec_chunkBin_waits (may : ¬ mayBegin s d p chunk) : exec (.chunkBin d pass chunk .launch) s = .next s := by
  change execChunkBin d pass chunk .launch s = _
  rw [execChunkBin, hp]; dsimp only
  rw [if_neg (turn.not_idle (by simp [fresh])), if_pos fresh, if_pos]
  · rfl
  · rw [mayBegin, not_and_or, not_and_or, Bool.not_eq_false] at may
    exact may

section
variable (may : mayBegin s d p chunk)
include may

theorem exec_chunkBin_begins (hb : beginChunk d p chunk (drawsOf (drawTable s d p) chunk) s = (none, s1)) :
    exec (.chunkBin d pass chunk .launch) s = .next (placeGeo d (setPass s1 d { p with begun := 1, verts := [] })) := by
  obtain ⟨free, known, flush⟩ := may
  change execChunkBin d pass chunk .launch s = _
  rw [execChunkBin, hp]; dsimp only
  rw [if_neg (turn.not_idle (by simp [fresh])), if_pos fresh, if_neg (by simp [free, known, flush]), hb]; rfl

theorem exec_chunkBin_launch_bad {i : Nat} (hb : beginChunk d p chunk (drawsOf (drawTable s d p) chunk) s = (some i, s1)) :
    exec (.chunkBin d pass chunk .launch) s = .next (faultContext (abortPass (killPass s1 d p.sub) d p 0x0404 i) d p.ctx) := by
  obtain ⟨free, known, flush⟩ := may
  change execChunkBin d pass chunk .launch s = _
  rw [execChunkBin, hp]; dsimp only
  rw [if_neg (turn.not_idle (by simp [fresh])), if_pos fresh, if_neg (by simp [free, known, flush]), hb]; rfl

end

end

section
variable (begun : p.begun ≠ 0)
include begun

theorem exec_chunkBin_busy (busy : geoBusy s d p.sub none = true) : exec (.chunkBin d pass chunk .finish) s = .next (placeGeo d s) := by
  change execChunkBin d pass chunk .finish s = _
  rw [execChunkBin, hp]; dsimp only
  rw [if_neg (turn.not_idle (by simp [begun])), if_neg begun, if_pos busy]; rfl

theorem exec_chunkBin_finish (idle : geoBusy s d p.sub none = false) :
    exec (.chunkBin d pass chunk .finish) s = .next (finishChunk s d p chunk (chunksIn (drawTable s d p))) := by
  change execChunkBin d pass chunk .finish s = _
  rw [execChunkBin, hp]; dsimp only
  rw [if_neg (turn.not_idle (by simp [begun])), if_neg begun, if_neg (by simp [idle])]; rfl

end

end

/-! ### A chunk finished (R249 to R251, R254) -/

theorem Looked.now {s u : State} (h : Looked s u) : u.now = s.now := by unfold Looked at h; rw [h]

section
variable {s s1 : State} {d : DieId} {p : GeoPass} {chunk chunks : Nat} {ps : List Setup}

theorem finishChunk_bad {i : Nat} (hq : prepChunk d p chunk p.verts (drawsOf (drawTable s d p) chunk) s = (.bad i, s1)) :
    finishChunk s d p chunk chunks = faultContext (abortPass s1 d p 0x0404 i) d p.ctx := by
  rw [finishChunk, hq]

variable (hq : prepChunk d p chunk p.verts (drawsOf (drawTable s d p) chunk) s = (.ready ps, s1))
include hq

theorem finishChunk_fits (fits : poolUsed (binChunk p d chunk (litOf p).length ps) ≤ 1024 * p.poolKib) :
    finishChunk s d p chunk chunks = settlePass p.ctx (setPass s1 d (mergePass (binChunk p d chunk (litOf p).length ps) chunks)) := by
  rw [finishChunk, hq]; dsimp only
  rw [if_neg (by omega)]

theorem finishChunk_short (short : ¬ poolUsed (binChunk p d chunk (litOf p).length ps) ≤ 1024 * p.poolKib) :
    finishChunk s d p chunk chunks = poolShort (setPass s1 d { p with begun := 2 }) d p chunks := by
  rw [finishChunk, hq]; dsimp only
  rw [if_pos (by omega)]

end

theorem poolShort_exhausted {s : State} {d : DieId} {p : GeoPass} {chunks : Nat} (h : lowestOpen s p chunks ≤ p.flushed) :
    poolShort s d p chunks = abortPass s d p 0x0405 (poolFree p / 1024) := if_pos h

theorem poolShort_waits {s : State} {d : DieId} {p : GeoPass} {chunks : Nat} (h : p.flushed < lowestOpen s p chunks) :
    poolShort s d p chunks = s := if_neg (by omega)

section
variable {s : State} {d : DieId} {pass : W32} {p : GeoPass} {chunk : Nat} (hp : passOf s d pass.toNat = some p)
variable (turn : ChunkTurn s d p chunk)
include hp turn

/-- A chunk that begins leaves the pass with its groups launched, and everything but the die's cores as it was (R248). -/
theorem chunkBin_begins (fresh : p.begun = 0) (may : mayBegin s d p chunk) {s1 : State}
    (hb : beginChunk d p chunk (drawsOf (drawTable s d p) chunk) s = (none, s1)) :
    Answers (.chunkBin d pass chunk .launch) s fun t =>
      t = { setPass s1 d { p with begun := 1, verts := [] } with cores := t.cores, nextId := t.nextId } ∧ (∀ a, memByte t a = memByte s a) ∧
      (∀ n, n ≠ d → getGeo t n = getGeo s n) ∧ ∀ e ∈ (getCores s1 d).dispatches, e ∈ (getCores s d).dispatches ∨
        VertexGroup p ((drawsOf (drawTable s d p) chunk).map fun x => x.1) e.2 := by
  have launched : Launches d (VertexGroup p ((drawsOf (drawTable s d p) chunk).map fun x => x.1)) s s1 := by
    simpa only [hb] using beginChunk_launches d p chunk (drawsOf (drawTable s d p) chunk) s
  have placed := passesStand_placeGeo d (setPass s1 d { p with begun := 1, verts := [] })
  refine ⟨_, exec_chunkBin_begins hp turn fresh may hb, placeGeo_frame d _, fun a => (placed.memByte a).trans (launched.passesStand.memByte a),
    fun n hn => ?_, launched.listed⟩
  rw [placed.getGeo, getGeo_setPass_other _ _ hn, launched.passesStand.getGeo]

section
variable (live : (ctxOf s 0 p.ctx).state = .live) (stays : resettingTenant s (ctxOf s 0 p.ctx).tenant = false)
include live stays

theorem chunkBin_launch_bad (fresh : p.begun = 0) (may : mayBegin s d p chunk) {s1 : State} {i : Nat}
    (hb : beginChunk d p chunk (drawsOf (drawTable s d p) chunk) s = (some i, s1)) :
    Answers (.chunkBin d pass chunk .launch) s fun t =>
      (ctxOf t 0 p.ctx).state = .faulted ∧ MatesAborted p s t ∧ ∀ a, memByte t a = memByte s a := by
  have launched : Launches d (VertexGroup p ((drawsOf (drawTable s d p) chunk).map fun x => x.1)) s s1 := by
    simpa only [hb] using beginChunk_launches d p chunk (drawsOf (drawTable s d p) chunk) s
  exact ⟨_, exec_chunkBin_launch_bad hp turn fresh may hb, badDraw_leaves (launched.passesStand.trans (passesStand_killPass s1 d p.sub))
    (launched.contextsStand.trans (contextsStand_killPass s1 d p.sub)) (launched.sameTenants.trans (sameTenants_killPass s1 d p.sub)) live stays d i⟩

theorem chunkBin_finish_bad (begun : p.begun ≠ 0) (idle : geoBusy s d p.sub none = false) {s1 : State} {i : Nat}
    (hq : prepChunk d p chunk p.verts (drawsOf (drawTable s d p) chunk) s = (.bad i, s1)) :
    Answers (.chunkBin d pass chunk .finish) s fun t =>
      (ctxOf t 0 p.ctx).state = .faulted ∧ MatesAborted p s t ∧ ∀ a, memByte t a = memByte s a := by
  have looked : Looked s s1 := by simpa only [hq] using prepChunk_looked d p chunk p.verts (drawsOf (drawTable s d p) chunk) s
  have run := exec_chunkBin_finish hp turn begun idle
  rw [finishChunk_bad hq] at run
  exact ⟨_, run, badDraw_leaves looked.passesStand looked.contextsStand looked.sameTenants live stays d i⟩

end

section
variable (begun : p.begun ≠ 0) (idle : geoBusy s d p.sub none = false) {s1 : State} {ps : List Setup}
variable (hq : prepChunk d p chunk p.verts (drawsOf (drawTable s d p) chunk) s = (.ready ps, s1))
include begun idle hq

/-- A chunk that fits the pool goes out: to each other die of L its records and the chunk's marker (R251). -/
theorem chunkBin_fits (fits : poolUsed (binChunk p d chunk (litOf p).length ps) ≤ 1024 * p.poolKib) :
    Answers (.chunkBin d pass chunk .finish) s fun t => (∀ a, memByte t a = memByte s a) ∧ (∀ n, n ≠ d → getGeo t n = getGeo s n) ∧
      ∃ q ∈ (getGeo t d).passes, q.sub = p.sub ∧ q.nextChunk = chunk + (litOf p).length ∧ q.prims = p.prims + ps.length ∧ q.begun = 0 ∧
        q.verts = [] ∧ ∀ n ∈ litOf p, n ≠ d → ∃ rs : List BinRec,
          qget q.out n = qget p.out n ++ rs.map BinItem.record ++ [.mark chunk] ∧ ∀ r ∈ rs, ownerOf p r.sx r.sy = n ∧ r.src = d.val := by
  have looked : Looked s s1 := by simpa only [hq] using prepChunk_looked d p chunk p.verts (drawsOf (drawTable s d p) chunk) s
  have stands := looked.passesStand
  have run := exec_chunkBin_finish hp turn begun idle
  rw [finishChunk_fits hq fits] at run
  have settled := passesStand_settlePass p.ctx
    (setPass s1 d (mergePass (binChunk p d chunk (litOf p).length ps) (chunksIn (drawTable s d p))))
  obtain ⟨sub, -, -, -, -, next, prims, again, verts, out⟩ :=
    mergePass_leaves (binChunk p d chunk (litOf p).length ps) (chunksIn (drawTable s d p))
  refine ⟨_, run, fun a => (settled.memByte a).trans (stands.memByte a), fun n hn => ?_, _, ?_, sub, next, prims, again, verts, fun n hn hd => ?_⟩
  · rw [settled.getGeo, getGeo_setPass_other _ _ hn, stands.getGeo]
  · rw [settled.getGeo]
    have listed : p ∈ (getGeo s1 d).passes := by rw [stands.getGeo]; exact (passOf_some hp).1
    exact mem_setPass listed sub.symm
  · rw [out]; exact out_binChunk p chunk _ ps hn hd

theorem chunkBin_exhausted (short : ¬ poolUsed (binChunk p d chunk (litOf p).length ps) ≤ 1024 * p.poolKib)
    (h : lowestOpen (setPass s1 d { p with begun := 2 }) p (chunksIn (drawTable s d p)) ≤ p.flushed) :
    Answers (.chunkBin d pass chunk .finish) s fun t => MatesAborted p (setPass s1 d { p with begun := 2 }) t ∧
      (getGeo t d).err = errRaise (getGeo s d).err s.now 4 ∧ ∀ a, memByte t a = memByte s a := by
  have looked : Looked s s1 := by simpa only [hq] using prepChunk_looked d p chunk p.verts (drawsOf (drawTable s d p) chunk) s
  have run := exec_chunkBin_finish hp turn begun idle
  rw [finishChunk_short hq short, poolShort_exhausted h] at run
  refine ⟨_, run, matesAborted_abortPass _ d p _ _, ?_, fun a => ?_⟩
  · have now : (setPass s1 d { p with begun := 2 }).now = s.now := looked.now
    rw [err_abortPass _ d p _ (by decide), err_setPass, looked.passesStand.getGeo, now]; rfl
  · rw [memByte, mem_of_abortPass]; exact looked.memByte a

theorem chunkBin_waitsForRoom (short : ¬ poolUsed (binChunk p d chunk (litOf p).length ps) ≤ 1024 * p.poolKib)
    (h : p.flushed < lowestOpen (setPass s1 d { p with begun := 2 }) p (chunksIn (drawTable s d p))) :
    exec (.chunkBin d pass chunk .finish) s = .next (setPass s1 d { p with begun := 2 }) := by
  rw [exec_chunkBin_finish hp turn begun idle, finishChunk_short hq short, poolShort_waits h]

end

end

end Sys2Proof.Machine
end
section
/-! PROOFS. Streams that arrive and flushes begun (R251 to R254), and with them the binning of a pass. -/

namespace Sys2Proof.Machine

/-! ### Streams that arrive (R251, R252, R360) -/

/-- The transaction `x` at the head of the bin class from die `src` has been received by die `dst` over a cord that is UP, and carries the first
`n` items that pass `p` of `src` has on their way to its mate `q`. -/
structure StreamHead (s : State) (src dst : DieId) (pass : W32) (p q : GeoPass) (x : CordTx) (n : Nat) : Prop where
  apart : src ≠ dst
  head : binHead s src dst = some x
  runs : cordRuns s (cordIdx src dst) = true
  up : (cordOf s (cordIdx src dst)).state = .up
  sender : passOf s src pass.toNat = some p
  owner : mateOf s dst p = some q
  carried : binTx (qget p.away dst) = some (x, n)
  lit : dst ∈ litOf q

/-- The items have left their slots and their stream for the owner's pass, of which `P` then holds, and nothing else but slots has changed. -/
def StreamMoved (s t : State) (src dst : DieId) (p q : GeoPass) (x : CordTx) (n : Nat) (P : GeoPass → Prop) : Prop :=
  t = { s with geo := t.geo, ends := t.ends, cores := t.cores } ∧
    (∀ m k, m ≠ dst ∨ k ≠ endTo dst src → endOf t m k = endOf s m k) ∧
    (endOf t dst (endTo dst src)).inbox = (endOf s dst (endTo dst src)).inbox.erase x ∧
    (∃ p' ∈ (getGeo t src).passes, p'.sub = p.sub ∧ qget p'.away dst = (qget p.away dst).drop n) ∧
    ∃ q' ∈ (getGeo t dst).passes, q'.sub = q.sub ∧ P q'

theorem StreamMoved.imp {s t : State} {src dst : DieId} {p q : GeoPass} {x : CordTx} {n : Nat} {P Q : GeoPass → Prop}
    (h : StreamMoved s t src dst p q x n P) (hPQ : ∀ r, P r → Q r) : StreamMoved s t src dst p q x n Q := by
  obtain ⟨frame, others, taken, sender, r, listed, sub, holds⟩ := h
  exact ⟨frame, others, taken, sender, r, listed, sub, hPQ r holds⟩

section
variable {s : State} {src dst : DieId} {pass : W32} {p q : GeoPass} {x : CordTx} {n : Nat} (h : StreamHead s src dst pass p q x n)
include h

theorem binRow_otherType {typ : Nat} (ht : x.hdr.typ.toNat ≠ typ) : binRow typ src dst pass s = .next s := by
  unfold binRow; dsimp only
  rw [h.head]
  exact if_pos (.inr (.inr (.inr ht)))

theorem binRow_short (ht : x.hdr.typ.toNat = 0x20) (short : poolFree q < 16 * n) :
    binRow 0x20 src dst pass s = .next (poolShort s dst q (chunksIn (drawTable s dst q))) := by
  unfold binRow; dsimp only
  rw [h.head]; dsimp only
  rw [if_neg (by simp [h.apart, h.runs, h.up, ht]), h.sender]; dsimp only
  rw [h.owner, h.carried]; dsimp only
  rw [if_neg (by simp [h.lit]), if_pos ⟨rfl, short⟩]; rfl

theorem binRow_moves {typ : Nat} (ht : x.hdr.typ.toNat = typ) (room : typ = 0x20 → 16 * n ≤ poolFree q) :
    binRow typ src dst pass s = .next (moveItems s src dst p q x n) := by
  unfold binRow; dsimp only
  rw [h.head]; dsimp only
  rw [if_neg (by simp [h.apart, h.runs, h.up, ht]), h.sender]; dsimp only
  rw [h.owner, h.carried]; dsimp only
  rw [if_neg (by simp [h.lit]), if_neg fun short => absurd (room short.1) (by omega)]; rfl

end

theorem endTo_lt {d n : DieId} (h : n ≠ d) : endTo d n < 3 := by
  revert h; fin_cases d <;> fin_cases n <;> decide

section
variable {s : State} {d : DieId} {e : Nat} (x : CordTx)

theorem endOf_takeTx_same (he : e < (getEnds s d).length) : (endOf (takeTx s d e x) d e).inbox = (endOf s d e).inbox.erase x := by
  unfold takeTx; dsimp only
  rw [endOf, setEnd, getEnds_setEnds, lget_lset_same _ _ he]

theorem endOf_takeTx_other {m : DieId} {k : Nat} (h : m ≠ d ∨ k ≠ e) : endOf (takeTx s d e x) m k = endOf s m k := by
  unfold takeTx; dsimp only
  by_cases hm : m = d
  · subst hm
    rw [endOf, setEnd, getEnds_setEnds, lget_lset_other _ (h.resolve_left fun ne => ne rfl), endOf]
  · rw [endOf, setEnd, getEnds_setEnds_other _ _ _ hm, endOf]

end

/-- A transaction taken, and a pass of two dies replaced. -/
def takenInto (s : State) (src dst : DieId) (x : CordTx) (p q : GeoPass) : State :=
  setPass (setPass (takeTx s dst (endTo dst src) x) src p) dst q

theorem takenInto_frame (s : State) (src dst : DieId) (x : CordTx) (p q : GeoPass) : takenInto s src dst x p q =
    { s with geo := (takenInto s src dst x p q).geo, ends := (takeTx s dst (endTo dst src) x).ends } := rfl

theorem moveItems_eq (s : State) (src dst : DieId) (p q : GeoPass) (x : CordTx) (n : Nat) : moveItems s src dst p q x n =
    settlePass q.ctx (takenInto s src dst x { p with away := qset p.away dst ((qget p.away dst).drop n) }
      (mergePass (arrived q src ((qget p.away dst).take n)) (chunksIn (drawTable s dst q)))) := rfl

/-- Items moved have left their slots and their stream, and stand in the owner's merge. -/
theorem moveItems_moved {s : State} {src dst : DieId} {p q : GeoPass} (apart : src ≠ dst) (ends : (getEnds s dst).length = 3)
    (hp : p ∈ (getGeo s src).passes) (hq : q ∈ (getGeo s dst).passes) (x : CordTx) (n : Nat) :
    StreamMoved s (moveItems s src dst p q x n) src dst p q x n fun r =>
      r = mergePass (arrived q src ((qget p.away dst).take n)) (chunksIn (drawTable s dst q)) := by
  have ranged : endTo dst src < (getEnds s dst).length := by rw [ends]; exact endTo_lt apart
  obtain ⟨sub, -⟩ := mergePass_leaves (arrived q src ((qget p.away dst).take n)) (chunksIn (drawTable s dst q))
  rw [moveItems_eq]
  have sent : qget ({ p with away := qset p.away dst ((qget p.away dst).drop n) } : GeoPass).away dst = (qget p.away dst).drop n :=
    qget_qset_same _ _ _
  have left : ({ p with away := qset p.away dst ((qget p.away dst).drop n) } : GeoPass).sub = p.sub := rfl
  generalize mergePass (arrived q src ((qget p.away dst).take n)) (chunksIn (drawTable s dst q)) = q' at sub ⊢
  generalize ({ p with away := qset p.away dst ((qget p.away dst).drop n) } : GeoPass) = p' at sent left ⊢
  have frame := takenInto_frame s src dst x p' q'
  have sender : p' ∈ (getGeo (takenInto s src dst x p' q') src).passes := by
    rw [takenInto, getGeo_setPass_other _ _ apart]; exact mem_setPass (q := p) hp left.symm
  have owner : q' ∈ (getGeo (takenInto s src dst x p' q') dst).passes := by
    refine mem_setPass (q := q) ?_ sub.symm
    rw [getGeo_setPass_other _ _ apart.symm]; exact hq
  generalize takenInto s src dst x p' q' = u at frame sender owner ⊢
  have ended : (settlePass q.ctx u).ends = (takeTx s dst (endTo dst src) x).ends := by rw [settlePass_cores, frame]
  have slots (m : DieId) (k : Nat) : endOf (settlePass q.ctx u) m k = endOf (takeTx s dst (endTo dst src) x) m k :=
    congrArg (fun l => lget endReset (qget l m) k) ended
  refine ⟨?_, fun m k hmk => (slots m k).trans (endOf_takeTx_other x hmk), ?_, ⟨p', ?_, left, sent⟩, q', ?_, sub, rfl⟩
  · rw [settlePass_cores, frame]
  · rw [slots]; exact endOf_takeTx_same x ranged
  · rw [(passesStand_settlePass q.ctx u).getGeo]; exact sender
  · rw [(passesStand_settlePass q.ctx u).getGeo]; exact owner

/-! ### Flushes begun (R253) -/

/-- A descriptor as a flush up to chunk `f` begins. -/
def flushBegun (f : Nat) (q : GeoPass) : GeoPass :=
  { q with phase := 2, flushTo := some f, segments := q.segments + 1, cursor := 0, reported := [] }

/-- Some die's pool is low (R253). -/
def poolLow (s : State) (p : GeoPass) : Prop := ∃ n ∈ litOf p, ∃ q, mateOf s n p = some q ∧ poolFree q < flushLevel q n

/-- Every die of L is binning, between two chunks or waiting for room. -/
def allBinning (s : State) (p : GeoPass) : Prop :=
  ∀ n ∈ litOf p, ∃ q, mateOf s n p = some q ∧ q.phase = 1 ∧ q.flushTo = none ∧ q.begun ≠ 1

section
variable {s : State} {p : GeoPass} {chunks : Nat}

theorem flushDue_iff : flushDue s p chunks = true ↔ p.flushed < lowestOpen s p chunks ∧ lowestOpen s p chunks < chunks ∧ poolLow s p := by
  have low : ((litOf p).any fun n => match mateOf s n p with | some q => decide (poolFree q < flushLevel q n) | none => false) = true ↔
      poolLow s p := by
    rw [List.any_eq_true, poolLow]
    refine exists_congr fun n => and_congr_right fun _ => ?_
    cases mateOf s n p <;> simp
  unfold flushDue; dsimp only
  rw [Bool.and_eq_true, Bool.and_eq_true, decide_eq_true_iff, decide_eq_true_iff, and_assoc]
  exact and_congr_right fun _ => and_congr_right fun _ => low

variable {leader : DieId} {pass : W32} (hp : passOf s leader pass.toNat = some p)
include hp

theorem exec_binFlush_absorbed (h : ¬ poolLow s p ∨ lowestOpen s p (chunksIn (drawTable s leader p)) ≤ p.flushed) :
    exec (.binFlush leader pass) s = .next s := by
  change execBinFlush leader pass s = _
  rw [execBinFlush, hp]; dsimp only
  refine if_pos (.inr (.inl ?_))
  rw [flushDue_iff]
  rintro ⟨advances, -, low⟩
  exact h.elim (fun e => e low) (fun e => by omega)

theorem exec_binFlush (own : p.leader = leader) (low : poolLow s p) (ready : allBinning s p)
    (advances : p.flushed < lowestOpen s p (chunksIn (drawTable s leader p)))
    (listed : lowestOpen s p (chunksIn (drawTable s leader p)) < chunksIn (drawTable s leader p)) :
    exec (.binFlush leader pass) s = .next (settlePass p.ctx (geoLog (eachMate p (fun _ q =>
      mergePass (flushBegun (lowestOpen s p (chunksIn (drawTable s leader p))) q) (chunksIn (drawTable s leader p))) id (litOf p) s)
        leader p 0x0406 (lowestOpen s p (chunksIn (drawTable s leader p)) + 2 ^ 32 * (p.segments + 1)))) := by
  have due : flushDue s p (chunksIn (drawTable s leader p)) = true := flushDue_iff.mpr ⟨advances, listed, low⟩
  change execBinFlush leader pass s = _
  rw [execBinFlush, hp]; dsimp only
  refine (if_neg ?_).trans (congrArg (fun u => ok (settlePass p.ctx (geoLog u leader p 0x0406 _))) (foldl_mates p _ (litOf p) s))
  rintro (e | e | e)
  · exact e own
  · exact e due
  · refine e (List.all_eq_true.mpr fun n hn => ?_)
    obtain ⟨q, mate, phase, flush, between⟩ := ready n hn
    simp [mate, phase, flush, between]

end

end Sys2Proof.Machine

namespace Sys2Proof

open Machine

/-- Settles O37: a chunk's parts change its die's pass and cores, or abort the pass on every die; a merge keeps the bytes in use, whatever it
moves from streams to bin lists; and a flush replaces each mate of L once. -/
theorem chunksAreBinnedAndMerged : Obligations.ChunksAreBinnedAndMerged := by
  unfold Obligations.ChunksAreBinnedAndMerged
  refine ⟨fun s d pass chunk part p hp => ?_, fun s src dst pass p q x n apart head runs up hp hq carried lit canonical ends => ?_,
    fun s leader pass p hp own once => ?_⟩
  · intro l tab draws mates spoilt
    refine ⟨exec_chunkBin_absorbed hp, fun phase flush next listed runs => ?_⟩
    have turn : ChunkTurn s d p chunk := ⟨phase, flush, next, listed, runs⟩
    refine ⟨?_, ?_, ?_⟩
    · rintro rfl fresh may
      exact ⟨exec_chunkBin_waits hp turn fresh, fun s1 may hb => chunkBin_begins hp turn fresh may hb,
        fun i s1 may hb live stays => chunkBin_launch_bad hp turn live stays fresh may hb⟩
    · rintro rfl begun busy
      exact ⟨_, exec_chunkBin_busy hp turn begun busy, placeGeo_frame d s⟩
    · rintro rfl begun idle
      refine ⟨fun ps s1 hq => ?_, fun i s1 hq live stays => chunkBin_finish_bad hp turn live stays begun idle hq⟩
      intro fits u
      refine ⟨?_, ?_, ?_⟩
      · exact chunkBin_fits hp turn begun idle hq
      · exact chunkBin_exhausted hp turn begun idle hq
      · exact fun short room => ⟨_, chunkBin_waitsForRoom hp turn begun idle hq short room, rfl⟩
  · intro e moved
    have stream : StreamHead s src dst pass p q x n := ⟨apart, head, runs, up, hp, hq, carried, lit⟩
    have goes := moveItems_moved apart ends (passOf_some hp).1 (mateOf_some hq).1 x n
    refine ⟨fun records => ?_, fun marks => ?_, fun records room => ?_, fun records short advances => ?_, fun k rest marker => ?_⟩
    · exact binRow_otherType stream (by rw [records]; decide)
    · exact binRow_otherType stream (by rw [marks]; decide)
    · refine ⟨_, binRow_moves stream records fun _ => room, goes.imp ?_⟩
      rintro r rfl
      rw [poolUsed_merged canonical, binTx_records carried records]
    · rw [Absorbed]
      exact (binRow_short stream records short).trans (congrArg _ (poolShort_waits advances))
    · rw [marker] at carried
      obtain ⟨marks, one⟩ := binTx_mark carried
      refine ⟨_, binRow_moves stream marks fun e => absurd e (by decide), goes.imp ?_⟩
      rintro r rfl
      rw [marker, one]
      refine ⟨?_, fun at_k source empty within => ?_⟩
      · rw [poolUsed_merged canonical]; simp [recordsIn]
      · exact mergePass_passes (p := arrived q src [.mark k]) at_k source (by simp [arrived, empty]) within
  · intro chunks f low
    refine ⟨fun isLow ready advances listed => ⟨_, exec_binFlush hp own isLow ready advances listed, fun n hn q hq => ?_, fun a => ?_⟩,
      exec_binFlush_absorbed hp⟩
    · obtain ⟨sub, flush, -, segments, reported, -⟩ := mergePass_leaves (flushBegun f q) chunks
      obtain ⟨phase, cursor⟩ := mergePass_phase (flushBegun f q) chunks (by simp [flushBegun])
      rw [(passesStand_settlePass p.ctx _).getGeo]
      exact ⟨_, mem_eachMate once hn hq sub, sub, phase, flush, segments, cursor, reported⟩
    · rw [(passesStand_settlePass p.ctx _).memByte]
      exact memByte_eachMate a

end Sys2Proof
end
section
/-! PROOFS. Tiles of a pass (R240, R253, R255, R256, R258): the core that the next tile goes to, and what a tile handed out, taken further and written
out leaves. -/

namespace Sys2Proof.Machine

/-! ### The core of the next tile (R256) -/

/-- A fold that keeps its result, or takes the item at hand where that is less, gives one that is least. -/
theorem foldl_option_least {α : Type} {g : α → Nat} {f : Option α → α → Option α}
    (h : ∀ b k, ∃ j, f b k = some j ∧ g j ≤ g k ∧ ∀ i, b = some i → g j ≤ g i) {l : List α} {b : Option α} {m : α} (hm : l.foldl f b = some m) :
    (∀ k ∈ l, g m ≤ g k) ∧ ∀ i, b = some i → g m ≤ g i := by
  induction l generalizing b with
  | nil => exact ⟨fun _ hk => absurd hk List.not_mem_nil, fun i hi => (Option.some.inj (hi.symm.trans hm)).symm ▸ le_rfl⟩
  | cons k r ih =>
    obtain ⟨j, taken, below, least⟩ := h b k
    obtain ⟨later, first⟩ := ih hm
    refine ⟨fun x hx => ?_, fun i hi => (first j taken).trans (least i hi)⟩
    rcases List.mem_cons.mp hx with rfl | hx
    · exact (first j taken).trans below
    · exact later x hx

section
variable {s : State} {d : DieId} {p : GeoPass}

/-- The next tile goes to a lit core with the fewest tiles in progress. -/
theorem tileCore_some {m : Nat} (h : tileCore s d p = some m) :
    coreLit s d m = true ∧ ∀ k, k < 32 → coreLit s d k = true → jobsOn p m ≤ jobsOn p k := by
  unfold tileCore at h
  have listed := foldl_option_mem (fun b k => by split <;> [exact .inr rfl; (split <;> [exact .inr rfl; exact .inl rfl])]) h
  have least := foldl_option_least (g := jobsOn p) (fun b k => by
    split
    · exact ⟨k, rfl, le_rfl, fun _ e => by cases e⟩
    · rename_i j
      by_cases fewer : jobsOn p k < jobsOn p j
      · exact ⟨k, if_pos fewer, le_rfl, fun i e => by cases e; exact fewer.le⟩
      · exact ⟨j, if_neg fewer, not_lt.mp fewer, fun i e => by cases e; exact le_rfl⟩) h
  refine ⟨(List.mem_filter.mp (listed.resolve_left (by simp))).2, fun k hk lit => least.1 k (List.mem_filter.mpr ⟨mem_countUp.mpr ⟨k.zero_le, ?_⟩, lit⟩)⟩
  omega

theorem tileSpot_some {m o : Nat} (h : tileSpot s d p = some (m, o)) : tileCore s d p = some m := by
  obtain ⟨k, core, spot⟩ := Option.bind_eq_some_iff.mp h
  split at spot
  · obtain ⟨_, -, e⟩ := Option.map_eq_some_iff.mp spot
    cases e; exact core
  · cases spot

/-! ### A tile handed out (R255, R256) -/

theorem passesStand_noteTile (p : GeoPass) (t : Nat) (again : Bool) (s : State) : PassesStand s (noteTile p t again s) := by
  unfold noteTile
  refine .foldl (fun u a => .foldl (fun u smp => .foldl (fun u k => ?_) _ u) _ u) _ s
  split
  · exact (noteRead_readsTables u _ _).looked.passesStand
  · exact .refl u

theorem passesStand_logBadMeta (s : State) (d : DieId) (p : GeoPass) (l : List (Nat × Nat)) : PassesStand s (logBadMeta s d p l) := by
  unfold logBadMeta
  refine .foldl (fun t e => ?_) l s
  exact ⟨rfl, rfl⟩

theorem passesStand_putTile (s : State) (d : DieId) (p : GeoPass) (j : TileJob) (t : Tile) : PassesStand s (putTile s d p j t) := ⟨rfl, rfl⟩

/-- A tile that no core has room for is not handed out. -/
theorem handTile_none {t : Nat} (h : tileSpot s d p = none) : handTile s d p t = s := by rw [handTile, h]

/-- A tile as it is handed to core `m`, its planes at `o`. -/
def handedJob (s : State) (p : GeoPass) (t m o : Nat) : TileJob :=
  { tile := t, core := m, off := o, kib := tileFootprint p.block / 1024, again := decide (t ∈ p.rendered),
    left := (mget [] p.bins (t / 16)).filter fun r => r.tiles.testBit (t % 16),
    changed := if decide (t ∈ p.rendered) then changedBefore (noteTile p t (decide (t ∈ p.rendered)) s) p t else [] }

/-- A tile handed out is one more in progress, and the pass goes on behind it. -/
theorem handTile_some {t m o : Nat} (h : tileSpot s d p = some (m, o)) :
    PassesStand (setPass s d { p with cursor := t + 1, jobs := p.jobs ++ [handedJob s p t m o] }) (handTile s d p t) := by
  have noted := passesStand_noteTile p t (decide (t ∈ p.rendered)) s
  rw [handTile, h]; dsimp only
  have used : PassesStand (noteTile p t (decide (t ∈ p.rendered)) s) (useFree (noteTile p t (decide (t ∈ p.rendered)) s)) := ⟨rfl, rfl⟩
  refine PassesStand.trans ?_ (passesStand_putTile _ d p _ _)
  exact ((noted.trans used).trans (passesStand_logBadMeta _ d p _)).setPass d _

/-! ### A tile taken further (R258 to R260) -/

/-- The records that a tile draws next: a run of draws without ORDERED, or one primitive. -/
def nextRecords (j : TileJob) : List BinRec :=
  if (j.left.takeWhile fun r => !r.ordered).isEmpty then j.left.take 1 else j.left.takeWhile fun r => !r.ordered

theorem nextRecords_isEmpty (j : TileJob) : (nextRecords j).isEmpty = j.left.isEmpty := by
  unfold nextRecords
  cases h : j.left with
  | nil => rfl
  | cons r l =>
    by_cases o : r.ordered = true <;> simp [o]

/-- A tile with its list done is written out. -/
theorem stepTile_done {j : TileJob} (h : j.left = []) : stepTile s d p j = finishTile s d p j :=
  if_pos ((nextRecords_isEmpty j).trans (by rw [h]; rfl))

/-- A tile in progress that a pass lists, as its next records are drawn. -/
def JobDrawn (p : GeoPass) (j : TileJob) (q : GeoPass) : Prop :=
  q.sub = p.sub ∧ ∃ k ∈ q.jobs, k.tile = j.tile ∧ k.core = j.core ∧ k.left = j.left.drop (nextRecords j).length

/-- The pass with a tile in progress replaced. -/
def jobReplaced (p : GeoPass) (j : TileJob) : GeoPass := { p with jobs := p.jobs.map fun k => if k.tile = j.tile then j else k }

theorem setJob_eq (s : State) (d : DieId) (p : GeoPass) (j : TileJob) : setJob s d p j = setPass s d (jobReplaced p j) := rfl

/-- A pass aborted on its dies is still listed, aborted or not, as it stood. -/
theorem listed_abortPass {u : State} {n e : DieId} {p q : GeoPass} (code value : Nat) (h : mateOf u n p = some q) :
    q ∈ (getGeo (abortPass u e p code value) n).passes ∨ { q with aborted := true } ∈ (getGeo (abortPass u e p code value) n).passes := by
  by_cases named : n ∈ diesOf p.dies
  · exact .inr (mem_abortPass code value named h)
  · exact .inl (by rw [passes_abortPass_other code value named]; exact (mateOf_some h).1)

theorem launchFrags_stands {j : TileJob} {prims : List (TilePrim × List Nat)} {is : List Nat} {u v : State} {bad : Option Nat}
    (h : launchFrags d p j prims is u = (bad, v)) : PassesStand u v := by
  simpa only [h] using (launchFrags_launches (d := d) (p := p) j prims is u).passesStand

/-- A pass replaced by another of its descriptors that runs, and then aborted for a bad draw, is listed as it was replaced, aborted or not. -/
theorem listed_badDraw {k : Nat} (hp : passOf s d k = some p) {q : GeoPass} (sub : q.sub = p.sub) (mate : isMate p q = true) {v : State}
    (hv : PassesStand (setPass s d q) v) (i : Nat) :
    let t := faultContext (abortPass (killPass v d p.sub) d p 0x0404 i) d p.ctx
    t.mem = s.mem ∧ (q ∈ (getGeo t d).passes ∨ { q with aborted := true } ∈ (getGeo t d).passes) := by
  have killed := hv.trans (passesStand_killPass v d p.sub)
  have fault := passesStand_faultContext (abortPass (killPass v d p.sub) d p 0x0404 i) d p.ctx
  have listed : mateOf (killPass v d p.sub) d p = some q :=
    (mateOf_congr (by rw [killed.getGeo]) p).trans (mateOf_setPass (mateOf_passOf hp) sub mate)
  refine ⟨fault.1.trans ((mem_of_abortPass _ d p _ i).trans killed.1), ?_⟩
  rw [fault.getGeo]
  exact listed_abortPass 0x0404 i listed

/-- The drawing of a tile's next records changes no byte of memory, and the tile goes on behind them. -/
theorem stepTile_draws {k : Nat} (hp : passOf s d k = some p) {j : TileJob} (hj : j ∈ p.jobs) (left : j.left ≠ []) {prims : List TilePrim}
    (hprims : tilePrims s d p (nextRecords j) = some prims) :
    (stepTile s d p j).mem = s.mem ∧ ∃ q ∈ (getGeo (stepTile s d p j) d).passes, JobDrawn p j q := by
  have some_left : ¬ (nextRecords j).isEmpty = true := by rw [nextRecords_isEmpty]; simpa using left
  unfold nextRecords at some_left hprims
  unfold stepTile; dsimp only
  rw [if_neg some_left, hprims]; dsimp only
  generalize drawn : ({ j with left := _, changed := _ } : TileJob) = j1
  have same : j1.tile = j.tile ∧ j1.core = j.core ∧ j1.left = j.left.drop (nextRecords j).length := by rw [← drawn]; exact ⟨rfl, rfl, rfl⟩
  have goes : JobDrawn p j (jobReplaced p j1) := ⟨rfl, j1, List.mem_map.mpr ⟨j, hj, if_pos same.1.symm⟩, same⟩
  generalize launches : launchFrags d p j1 _ _ _ = r
  obtain ⟨bad, v⟩ := r
  have stands := (passesStand_putTile (setJob s d p j1) d p j1 _).trans (launchFrags_stands launches)
  cases bad with
  | none => exact ⟨stands.1, _, stands.getGeo d ▸ mem_setPass (passOf_some hp).1 rfl, goes⟩
  | some i =>
    obtain ⟨mem, listed⟩ := listed_badDraw hp (q := jobReplaced p j1) rfl (mateOf_some (mateOf_passOf hp)).2 stands i
    refine ⟨mem, ?_⟩
    rcases listed with listed | listed
    · exact ⟨_, listed, goes⟩
    · exact ⟨_, listed, goes⟩

/-! ### The instruction (R256 to R263) -/

section
variable {pass : W32} {tile : Nat} (hp : passOf s d pass.toNat = some p)
include hp

theorem exec_tileRender_absorbed (h : mayRender s d p = false ∨ dieRuns s d = false ∨ slotOpen s d p.ctx = false) :
    exec (.tileRender d pass tile) s = .next s := by
  change execTileRender d pass tile s = _
  rw [execTileRender, hp]; dsimp only
  refine if_pos ?_
  rcases h with h | h | h <;> simp [h]

section
variable (may : mayRender s d p = true) (runs : dieRuns s d = true) (slot : slotOpen s d p.ctx = true)
include may runs slot

theorem exec_tileRender_job {j : TileJob} (hj : p.jobs.find? (fun k => k.tile == tile) = some j) : exec (.tileRender d pass tile) s =
    .next (placeGeo d (if geoBusy s d p.sub (some tile) = true then s else stepTile s d p j)) := by
  change execTileRender d pass tile s = _
  rw [execTileRender, hp]; dsimp only
  rw [if_neg (by simp [may, runs, slot]), hj]; rfl

theorem exec_tileRender_next (hj : p.jobs.find? (fun k => k.tile == tile) = none) : exec (.tileRender d pass tile) s =
    if (tilesLeft p d).head? = some tile then .next (placeGeo d (handTile s d p tile)) else .next s := by
  change execTileRender d pass tile s = _
  rw [execTileRender, hp]; dsimp only
  rw [if_neg (by simp [may, runs, slot]), hj]; rfl

/-- A tile handed out goes to a lit core with the fewest tiles in progress, with the records of its list. -/
theorem tileRender_hands (hj : p.jobs.find? (fun k => k.tile == tile) = none) (next : (tilesLeft p d).head? = some tile) {m o : Nat}
    (spot : tileSpot s d p = some (m, o)) : Answers (.tileRender d pass tile) s fun t =>
      (∀ a, memByte t a = memByte s a) ∧ coreLit s d m = true ∧ (∀ k, k < 32 → coreLit s d k = true → jobsOn p m ≤ jobsOn p k) ∧
      { p with cursor := tile + 1, jobs := p.jobs ++ [handedJob s p tile m o] } ∈ (getGeo t d).passes := by
  have run := exec_tileRender_next hp may runs slot hj
  rw [if_pos next] at run
  have stands := (handTile_some spot).trans (passesStand_placeGeo d (handTile s d p tile))
  obtain ⟨lit, fewest⟩ := tileCore_some (tileSpot_some spot)
  refine ⟨_, run, stands.memByte, lit, fewest, ?_⟩
  rw [stands.getGeo]; exact mem_setPass (passOf_some hp).1 rfl

variable {j : TileJob} (hj : p.jobs.find? (fun k => k.tile == tile) = some j) (idle : geoBusy s d p.sub (some tile) = false)
include hj idle

/-- A tile written out changes its own bytes, and is in progress no more. -/
theorem tileRender_writesOut (done : j.left = []) : Answers (.tileRender d pass tile) s fun t =>
    let cells := storeTile p.pages p.block j.tile (p.phase == 2) j.changed (readTile s d p j)
    (∀ a, (∀ e ∈ cells, e.1 ≠ a) → memByte t a = memByte s a) ∧
    (∀ pre e post, cells = pre ++ e :: post → (∀ x ∈ post, x.1 ≠ e.1) → Memory.wf s.mem → memByte t e.1 = e.2) ∧
    (∀ m, m ≠ d → getGeo t m = getGeo s m) ∧ (getGeo t d).err = (getGeo s d).err ∧
    ∃ q ∈ (getGeo t d).passes, q.sub = p.sub ∧ q.jobs = p.jobs.filter (fun k => !(k.tile == j.tile)) ∧ q.bins = p.bins ∧
      q.setups = p.setups := by
  have run := exec_tileRender_job hp may runs slot hj
  rw [if_neg (by simp [idle]), stepTile_done done] at run
  have stands := passesStand_placeGeo d (finishTile s d p j)
  refine ⟨_, run, ?_⟩
  dsimp only
  unfold finishTile at stands ⊢
  generalize storeTile p.pages p.block j.tile (p.phase == 2) j.changed (readTile s d p j) = cells at stands ⊢
  refine ⟨fun a other => (stands.memByte a).trans (writeCells_other s cells a other), fun pre e post split last wf => ?_,
    fun m hm => ?_, ?_, ?_⟩
  · rw [stands.memByte, split]; exact memByte_writeCells_last wf last
  · rw [stands.getGeo, getGeo_setPass_other _ _ hm]; rfl
  · rw [stands.getGeo, err_setPass]; rfl
  · rw [stands.getGeo]; exact ⟨_, mem_setPass (q := p) (passOf_some hp).1 rfl, rfl, rfl, rfl, rfl⟩

/-- A tile whose next records are drawn. -/
theorem tileRender_draws (left : j.left ≠ []) {prims : List TilePrim} (hprims : tilePrims s d p (nextRecords j) = some prims) :
    Answers (.tileRender d pass tile) s fun t => (∀ a, memByte t a = memByte s a) ∧ ∃ q ∈ (getGeo t d).passes, JobDrawn p j q := by
  have run := exec_tileRender_job hp may runs slot hj
  rw [if_neg (by simp [idle])] at run
  obtain ⟨mem, q, listed, drawn⟩ := stepTile_draws hp (List.mem_of_find?_eq_some hj) left hprims
  have stands := passesStand_placeGeo d (stepTile s d p j)
  refine ⟨_, run, fun a => (stands.memByte a).trans (congrArg (mget 0 · a) mem), q, ?_, drawn⟩
  rw [stands.getGeo]; exact listed

end

end

end

end Sys2Proof.Machine
end
section
/-! PROOFS. The end of a segment and of a pass (R242, R253): what a die's report leaves, and what the end leaves on each die. -/

namespace Sys2Proof.Machine

/-! ### A report (R253) -/

/-- A die that reports the tiles of the pass has no more to do for it. -/
def reportMarked (s : State) (d : DieId) (p : GeoPass) : State := if p.phase = 3 then setPass s d { p with phase := 4 } else s

/-- The leader's descriptor with a die's report. -/
def reportTaken (s : State) (d : DieId) (p k : GeoPass) : GeoPass :=
  { ((mateOf (reportMarked s d p) p.leader p).getD k) with reported := k.reported ++ [d] }

/-- The report sent, and taken by the leader. -/
def reportSent (s : State) (d : DieId) (p k : GeoPass) : State := setPass (reportMarked s d p) p.leader (reportTaken s d p k)

section
variable {s : State} {d n : DieId} {p k q : GeoPass} {pass : W32}

theorem reportMarked_frame : reportMarked s d p = { s with geo := (reportMarked s d p).geo } := by
  unfold reportMarked; split <;> rfl

theorem reportSent_frame : reportSent s d p k = { s with geo := (reportSent s d p k).geo } := by
  unfold reportSent; rw [setPass, setGeo, reportMarked_frame]

/-- Changes of passes, and slots looked at again after them, leave all but the passes and the cores. -/
theorem settlePass_geo {u : State} (h : u = { s with geo := u.geo }) (c : Nat) :
    settlePass c u = { s with geo := (settlePass c u).geo, cores := (settlePass c u).cores } := by
  rw [settlePass_cores, h]

section
variable (hp : passOf s d pass.toNat = some p)
include hp

/-- A report changes no descriptor of the pass but for its phase, which is 4 on a die that reports the tiles of the pass. -/
theorem mateOf_reportMarked (hq : mateOf s n p = some q) : ∃ ph, mateOf (reportMarked s d p) n p = some { q with phase := ph } ∧
    (n = d → p.phase = 3 → ph = 4) := by
  unfold reportMarked
  by_cases tiles : p.phase = 3
  · rw [if_pos tiles]
    by_cases here : n = d
    · subst here
      have own := mateOf_passOf hp
      obtain rfl : p = q := Option.some.inj (own.symm.trans hq)
      exact ⟨4, mateOf_setPass own rfl (mateOf_some own).2, fun _ _ => rfl⟩
    · exact ⟨q.phase, (mateOf_congr (by rw [getGeo_setPass_other _ _ here]) p).trans hq, fun e => absurd e here⟩
  · rw [if_neg tiles]; exact ⟨q.phase, hq, fun _ e => absurd e tiles⟩

variable (hk : mateOf s p.leader p = some k)
include hk

theorem reportTaken_eq : ∃ ph, reportTaken s d p k = { k with phase := ph, reported := k.reported ++ [d] } ∧
    mateOf (reportSent s d p k) p.leader p = some (reportTaken s d p k) ∧ (p.leader = d → p.phase = 3 → ph = 4) := by
  obtain ⟨ph, mate, four⟩ := mateOf_reportMarked hp hk
  have taken : reportTaken s d p k = { k with phase := ph, reported := k.reported ++ [d] } := by rw [reportTaken, mate]; rfl
  refine ⟨ph, taken, mateOf_setPass mate (by rw [taken]) ?_, four⟩
  rw [taken]; exact (mateOf_some hk).2

theorem mateOf_reportSent (hq : mateOf s n p = some q) : ∃ r, mateOf (reportSent s d p k) n p = some r ∧ r.sub = q.sub ∧
    (n = d → p.phase = 3 → r.phase = 4) := by
  by_cases leads : n = p.leader
  · subst leads
    obtain ⟨ph, taken, mate, four⟩ := reportTaken_eq hp hk
    obtain rfl : k = q := Option.some.inj (hk.symm.trans hq)
    exact ⟨_, mate, by rw [taken], by rw [taken]; exact four⟩
  · obtain ⟨ph, mate, four⟩ := mateOf_reportMarked hp hq
    exact ⟨_, (mateOf_congr (by rw [reportSent, getGeo_setPass_other _ _ leads]) p).trans mate, rfl, four⟩

/-- What a report leaves the leader's descriptor as the end is sent by. -/
theorem reportTaken_same : samePass p (reportTaken s d p k) = true ∧ (reportTaken s d p k).dies = k.dies ∧ litOf (reportTaken s d p k) = litOf k := by
  obtain ⟨ph, taken, -⟩ := reportTaken_eq hp hk
  have mate := (mateOf_some hk).2
  simp only [isMate, Bool.and_eq_true] at mate
  rw [taken]; exact ⟨mate.1.1, rfl, rfl⟩

/-! ### The end of a segment and of a pass -/

theorem listed_endPass (named : n ∈ diesOf k.dies) (hq : mateOf s n p = some q) :
    ∃ q' ∈ (getGeo (endPass (reportSent s d p k) (reportTaken s d p k)) n).passes, q'.sub = q.sub ∧ q'.done = true := by
  obtain ⟨r, mate, sub, -⟩ := mateOf_reportSent hp hk hq
  obtain ⟨same, dies, -⟩ := reportTaken_same hp hk
  have listed := mem_eachMate (f := fun _ x => { x with done := true, lit := (reportTaken s d p k).lit })
    (miss := fun u => { u with ended := u.ended ++ [((reportTaken s d p k).ctx, (reportTaken s d p k).pass, false)] })
    (nodup_diesOf _) (dies ▸ named) ((mateOf_samePass same (reportSent s d p k) n).trans mate) rfl
  exact ⟨_, listed, sub, rfl⟩

end

/-- A descriptor as a flush up to chunk `f` ends. -/
def flushEnded (f chunks : Nat) (q : GeoPass) : GeoPass :=
  mergePass { q with setups := q.setups.filter (fun e => decide (f ≤ e.2.chunk)), bins := [], flushTo := none,
                     flushed := f, phase := 1, cursor := 0, reported := [] } chunks

theorem endFlush_eq (s : State) (p : GeoPass) (f chunks : Nat) :
    endFlush s p f chunks = eachMate p (fun _ => flushEnded f chunks) id (litOf p) s := foldl_mates p (flushEnded f chunks) (litOf p) s

theorem flushEnded_leaves (f chunks : Nat) (q : GeoPass) : (flushEnded f chunks q).sub = q.sub ∧ (flushEnded f chunks q).flushTo = none ∧
    (flushEnded f chunks q).flushed = f := by
  obtain ⟨sub, flush, flushed, -⟩ := mergePass_leaves { q with
    setups := q.setups.filter (fun e => decide (f ≤ e.2.chunk)), bins := [], flushTo := none, flushed := f, phase := 1, cursor := 0,
    reported := [] } chunks
  exact ⟨sub, flush, flushed⟩

theorem isMate_flushEnded (f chunks : Nat) (p q : GeoPass) : isMate p (flushEnded f chunks q) = isMate p q := isMate_mergePass _ _ p

theorem listed_endFlush (hp : passOf s d pass.toNat = some p) (hk : mateOf s p.leader p = some k) (f chunks : Nat) (named : n ∈ litOf k)
    (hq : mateOf s n p = some q) : ∃ q' ∈ (getGeo (endFlush (reportSent s d p k) (reportTaken s d p k) f chunks) n).passes,
      q'.sub = q.sub ∧ q'.flushTo = none ∧ q'.flushed = f := by
  obtain ⟨r, mate, sub, -⟩ := mateOf_reportSent hp hk hq
  obtain ⟨same, -, lit⟩ := reportTaken_same hp hk
  rw [endFlush_eq]
  obtain ⟨x, found, sub', ended⟩ := mateOf_eachMate (miss := id) (K := fun x => x.flushTo = none ∧ x.flushed = f)
    (fun _ q => (flushEnded_leaves f chunks q).1) (fun _ q => (isMate_flushEnded f chunks _ q).symm ▸ id)
    (fun _ q => (flushEnded_leaves f chunks q).2) (lit ▸ named) ((mateOf_samePass same (reportSent s d p k) n).trans mate)
  exact ⟨x, (mateOf_some found).1, sub'.trans sub, ended⟩

theorem endPass_frame (s : State) (p : GeoPass) : endPass s p = { s with geo := (endPass s p).geo } :=
  eachMate_frame (p := p) (f := fun _ q => { q with done := true, lit := p.lit })
    (miss := fun u => { u with ended := u.ended ++ [(p.ctx, p.pass, false)] })

theorem endFlush_frame (s : State) (p : GeoPass) (f chunks : Nat) : endFlush s p f chunks = { s with geo := (endFlush s p f chunks).geo } := by
  rw [endFlush_eq]; exact eachMate_frame

/-! ### The instruction (R242, R253) -/

theorem exec_passReport_absorbed (hp : passOf s d pass.toNat = some p) (h : mayRender s d p = false) :
    exec (.passReport d pass) s = .next s := by
  change execPassReport d pass s = _
  rw [execPassReport, hp]; dsimp only
  split
  · rfl
  · exact if_pos (.inl (by simp [h]))

/-- Die `d` has its report to make: it has no tile left and has not reported to the leader `k`, which it reaches. -/
structure ReportDue (s : State) (d : DieId) (pass : W32) (p k : GeoPass) : Prop where
  runs : passOf s d pass.toNat = some p
  leads : mateOf s p.leader p = some k
  may : mayRender s d p = true
  noneLeft : tilesLeft p d = []
  noJobs : p.jobs = []
  fresh : d ∉ k.reported
  reaches : reach s d p.leader = true

/-- Of the dies of L, no other has its report outstanding. -/
def LastReport (d : DieId) (p k : GeoPass) : Prop := ∀ n ∈ litOf p, n ∈ k.reported ∨ n = d

/-- A die's report taken, the last of them ending the flush that runs, or the pass. -/
def reportActs (s : State) (d : DieId) (p k : GeoPass) : State :=
  if ¬ (litOf p).all (fun n => decide (n ∈ (reportTaken s d p k).reported)) then reportSent s d p k
  else match p.flushTo with
    | some f => endFlush (reportSent s d p k) (reportTaken s d p k) f (chunksIn (drawTable s p.leader p))
    | none => endPass (reportSent s d p k) (reportTaken s d p k)

theorem lastReport_iff : ((litOf p).all fun n => decide (n ∈ (reportTaken s d p k).reported)) = true ↔ LastReport d p k := by
  simp [LastReport, reportTaken]

theorem reportActs_early (last : ¬ LastReport d p k) : reportActs s d p k = reportSent s d p k :=
  if_pos fun all => last (lastReport_iff.mp all)

section
variable (last : LastReport d p k)
include last

theorem reportActs_ends (flush : p.flushTo = none) : reportActs s d p k = endPass (reportSent s d p k) (reportTaken s d p k) := by
  rw [reportActs, if_neg (not_not_intro (lastReport_iff.mpr last)), flush]

theorem reportActs_flushed {f : Nat} (flush : p.flushTo = some f) : reportActs s d p k =
    endFlush (reportSent s d p k) (reportTaken s d p k) f (chunksIn (drawTable s p.leader p)) := by
  rw [reportActs, if_neg (not_not_intro (lastReport_iff.mpr last)), flush]

end

section
variable (due : ReportDue s d pass p k)
include due

theorem exec_passReport : exec (.passReport d pass) s = .next (settlePass p.ctx (reportActs s d p k)) := by
  change execPassReport d pass s = _
  rw [execPassReport, due.runs]; dsimp only
  rw [due.leads]; dsimp only
  rw [if_neg (by simp [due.may, due.noneLeft, due.noJobs, due.fresh, due.reaches])]
  rfl

/-- A report that is not the last: the die has reported, and the leader has it. -/
theorem passReport_early (tiles : p.phase = 3) (last : ¬ LastReport d p k) : Answers (.passReport d pass) s fun t =>
    t = { s with geo := t.geo, cores := t.cores } ∧ (∃ q ∈ (getGeo t d).passes, q.sub = p.sub ∧ q.phase = 4) ∧
      ∃ q ∈ (getGeo t p.leader).passes, q.sub = k.sub ∧ q.reported = k.reported ++ [d] := by
  obtain ⟨r, mate, sub, four⟩ := mateOf_reportSent due.runs due.leads (mateOf_passOf due.runs)
  obtain ⟨ph, taken, leads, -⟩ := reportTaken_eq due.runs due.leads
  have settled := passesStand_settlePass p.ctx (reportSent s d p k)
  have run := exec_passReport due
  rw [reportActs_early last] at run
  refine ⟨_, run, settlePass_geo reportSent_frame _, ?_, ?_⟩
  · rw [settled.getGeo]; exact ⟨r, (mateOf_some mate).1, sub, four rfl tiles⟩
  · rw [settled.getGeo]; exact ⟨_, (mateOf_some leads).1, by rw [taken], by rw [taken]⟩

theorem passReport_ends (last : LastReport d p k) (flush : p.flushTo = none) : Answers (.passReport d pass) s fun t =>
    t = { s with geo := t.geo, cores := t.cores } ∧ ∀ n ∈ diesOf k.dies, ∀ q, mateOf s n p = some q →
      ∃ q' ∈ (getGeo t n).passes, q'.sub = q.sub ∧ q'.done = true := by
  have run := exec_passReport due
  rw [reportActs_ends last flush] at run
  refine ⟨_, run, settlePass_geo ?_ _, fun n named q hq => ?_⟩
  · rw [endPass_frame, reportSent_frame]
  · rw [(passesStand_settlePass p.ctx _).getGeo]; exact listed_endPass due.runs due.leads named hq

theorem passReport_flushed (last : LastReport d p k) {f : Nat} (flush : p.flushTo = some f) : Answers (.passReport d pass) s fun t =>
    t = { s with geo := t.geo, cores := t.cores } ∧ ∀ n ∈ litOf k, ∀ q, mateOf s n p = some q →
      ∃ q' ∈ (getGeo t n).passes, q'.sub = q.sub ∧ q'.flushTo = none ∧ q'.flushed = f := by
  have run := exec_passReport due
  rw [reportActs_flushed last flush] at run
  refine ⟨_, run, settlePass_geo ?_ _, fun n named q hq => ?_⟩
  · rw [endFlush_frame, reportSent_frame]
  · rw [(passesStand_settlePass p.ctx _).getGeo]; exact listed_endFlush due.runs due.leads f _ named hq

end

end

/-! ### The end on each die (R242, R101) -/

section
variable (s : State) (d : DieId) (p : GeoPass)

/-- A pass taken off a die's list changes passes and cores alone. -/
theorem dropPass_frame : dropPass s d p = { s with geo := (dropPass s d p).geo, cores := (dropPass s d p).cores } := by
  unfold dropPass; rw [settlePass_geo (s := s) rfl]

theorem getGeo_dropPass : (getGeo (dropPass s d p) d).passes = (getGeo s d).passes.filter (fun q => !(q.sub == p.sub)) ∧
    (getGeo (dropPass s d p) d).err = (getGeo s d).err := by
  unfold dropPass
  rw [(passesStand_settlePass p.ctx _).getGeo, saveStatus, getGeo_setGeo, getGeo_setGeo]
  exact ⟨rfl, rfl⟩

theorem getGeo_dropPass_other {n : DieId} (h : n ≠ d) : getGeo (dropPass s d p) n = getGeo s n := by
  unfold dropPass
  rw [(passesStand_settlePass p.ctx _).getGeo, saveStatus, getGeo_setGeo_other _ _ _ h, getGeo_setGeo_other _ _ _ h]

end

/-- An operation that finishes signals its own fence, or its record has one fewer out. -/
theorem opDone_opFinish {s : State} (u : State) (frame : u = { s with geo := u.geo, cores := u.cores }) (d : DieId) (q count : Nat) (fence : Bool)
    (pa : Nat) (v : W64) (pins : List Nat) : OpDone s (opFinish u d q count fence pa v pins) d q count fence pa v := by
  have released := (dropPins_releasesOnly u d pins).frame
  unfold OpDone opFinish; dsimp only
  generalize dropPins u d pins = v at released ⊢
  rw [frame] at released
  have queues : v.queues = s.queues := by rw [released]
  have signals : v.signals = s.signals := by rw [released]
  cases fence with
  | true =>
    have ids : v.nextId = s.nextId := by rw [released]
    have now : u.now = s.now := by rw [frame]
    rw [if_pos rfl, if_pos rfl, sendSignal, signals, ids, now]
  | false =>
    rw [if_neg Bool.false_ne_true, if_neg Bool.false_ne_true]
    have queue : queueOf s d q = queueOf v d q := by rw [queueOf, getQueues, ← queues]; rfl
    have kept : (opOver v d q count true).signals = v.signals := by rw [opOver_queues]; rfl
    refine ⟨fun r hr hc => ?_, kept.trans signals⟩
    rw [queue] at hr
    exact mem_updRun hr hc

section
variable {s : State} {d : DieId} {pass : W32}

theorem exec_passEnd_absorbed (h : ∀ p ∈ (getGeo s d).passes, p.pass = pass.toNat → p.done = false) : exec (.passEnd d pass) s = .next s := by
  have none : (getGeo s d).passes.find? (fun p => p.pass == pass.toNat && p.done) = none := by
    simpa using h
  change execPassEnd d pass s = _
  rw [execPassEnd, none]; rfl

/-- The end drops a die's pass, and its descriptor's operation is done. -/
theorem passEnd_ends {p : GeoPass} (h : (getGeo s d).passes.find? (fun q => q.pass == pass.toNat && q.done) = some p) :
    Answers (.passEnd d pass) s fun t => (getGeo t d).passes = (getGeo s d).passes.filter (fun q => !(q.sub == p.sub)) ∧
      (getGeo t d).err = (getGeo s d).err ∧ (∀ n, n ≠ d → getGeo t n = getGeo s n) ∧
      OpDone s t d p.queue p.count p.fence p.fencePa p.value ∧ ∀ a, memByte t a = memByte s a := by
  have finished := passesStand_opFinish (dropPass s d p) d p.queue p.count p.fence p.fencePa p.value p.pins
  have dropped := dropPass_frame s d p
  have mem : (dropPass s d p).mem = s.mem := by rw [dropped]
  obtain ⟨passes, err⟩ := getGeo_dropPass s d p
  refine ⟨opFinish (dropPass s d p) d p.queue p.count p.fence p.fencePa p.value p.pins, ?_, ?_, ?_, fun n hn => ?_,
    opDone_opFinish _ dropped d _ _ _ _ _ _, fun a => (finished.memByte a).trans (congrArg (mget 0 · a) mem)⟩
  · change execPassEnd d pass s = _
    rw [execPassEnd, h]; rfl
  · rw [finished.getGeo, passes]
  · rw [finished.getGeo, err]
  · rw [finished.getGeo, getGeo_dropPass_other s d p hn]

end

end Sys2Proof.Machine

namespace Sys2Proof

open Machine

/-- Settles O38: a tile goes out and is drawn with memory as it was, and its end writes its cells; a report reaches every descriptor of the pass
that still runs, whichever die it stands on. -/
theorem tilesRenderedAndPassesEnd : Obligations.TilesRenderedAndPassesEnd := by
  unfold Obligations.TilesRenderedAndPassesEnd
  refine ⟨fun s d pass tile p hp => ⟨exec_tileRender_absorbed hp, exec_passReport_absorbed hp, fun may runs slot =>
      ⟨fun j hj busy => ?_, fun hj next full => ?_, fun hj next => ?_, fun m o hj next spot => ?_,
        fun j hj idle done => tileRender_writesOut hp may runs slot hj idle done, fun j prims hj idle left hprims => ?_⟩,
      fun k leads may noneLeft noJobs fresh reaches => ?_⟩,
    fun s d pass => ⟨exec_passEnd_absorbed, fun p => passEnd_ends⟩⟩
  · have run := exec_tileRender_job hp may runs slot hj
    rw [if_pos busy] at run
    exact ⟨_, run, placeGeo_frame d s⟩
  · have run := exec_tileRender_next hp may runs slot hj
    rw [if_pos next, handTile_none full] at run
    exact ⟨_, run, placeGeo_frame d s⟩
  · exact (exec_tileRender_next hp may runs slot hj).trans (if_neg next)
  · obtain ⟨t, run, mem, lit, fewest, listed⟩ := tileRender_hands hp may runs slot hj next spot
    exact ⟨t, run, mem, lit, fewest, _, listed, rfl, rfl, rfl, rfl, _, rfl, rfl, rfl, rfl, rfl⟩
  · exact tileRender_draws hp may runs slot hj idle left hprims
  · have due : ReportDue s d pass p k := ⟨hp, leads, may, noneLeft, noJobs, fresh, reaches⟩
    exact ⟨passReport_early due, passReport_ends due, fun f last => passReport_flushed due last⟩

end Sys2Proof
end
